-- ==== Sys2Proof/Word.lean ====
section
/-! DEFINITION. The word types of the board and their plainest arithmetic. -/

namespace Sys2Proof

/-- A byte of a packet, a line or a key. -/
abbrev Byte := BitVec 8

/-- A 64-byte line or payload unit, little-endian: byte `n` is bits `[8n+7:8n]` (08, preamble; 03 R54). -/
abbrev Line := BitVec 512

/-- A pool address: board number in `[51:44]`, board offset in `[43:0]` (01, "Domain and addresses"). -/
abbrev PoolAddr := BitVec 52

/-- A SHA-384 digest, first digest byte in the most significant byte. -/
abbrev Digest := BitVec 384

end Sys2Proof
end

