-- ==== Sys2Proof/Syntax.lean ====
section
/-! DEFINITION. The commands of the block: one constructor of `Instr` for each row of spec/opcode_table.json, with the
operands the spec gives the packet, frame, command or event that the row names. -/

namespace Sys2Proof

/-- A control block (02 Table 2.4) without its CTYPE: the RSVD byte, ACK, RESYNC_OFFSET, the 22 body bytes and CCRC as received. -/
structure Ctl where
  rsvd : BitVec 8 := 0
  ack : BitVec 16
  resync : BitVec 16
  body : BitVec 176
  ccrc : BitVec 32
deriving DecidableEq, Repr, Inhabited

/-- A packet as it arrives on a link (02 R25): link header, second header, payload units and the CRC-32 trailer. -/
structure RxPacket where
  hdr : BitVec 64
  hdr2 : BitVec 128
  payload : List Line
  crc : BitVec 32
deriving DecidableEq, Repr, Inhabited

/-- A host request passed up by a link (03 Table 3.1): the link it came in on, its traffic class, the header's fields
and the payload units.  The opcode is the command's own. -/
structure Req where
  link : Nat
  tc : Nat
  host : Nat
  tag : BitVec 16
  tenant : Nat
  epoch : BitVec 8
  fence : Bool
  strict : Bool
  hreplay : Bool
  len : Nat
  mod : Nat
  addr : PoolAddr
  payload : List Line
deriving DecidableEq, Repr, Inhabited

/-- A host's answer to a request of the board (03 Table 3.2): the board's own tag, the status code, RESULT and the
unit it may carry. -/
structure HostResp where
  link : Nat
  host : Nat
  tag : BitVec 16
  status : Nat
  result : BitVec 64
  data : Line
deriving DecidableEq, Repr, Inhabited

/-- How a management frame reaches the board (16 Table 16.1). -/
inductive Transport where
  | ethernet | mctp | inband
deriving DecidableEq, Repr, Inhabited

/-- What every management frame carries beside its entry and value (16 Table 16.2): the transport, the session (or the
in-band host), the in-band link, MTAG, and EPOCH with EPOCH_VALID. -/
structure Frame where
  transport : Transport
  sess : Nat
  link : Nat
  mtag : BitVec 16
  epochValid : Bool
  epoch : BitVec 8
deriving DecidableEq, Repr, Inhabited

/-- A halyard or move packet passed up by a link: the 16-byte header of 13 Table 13.1 and the payload units. -/
structure HalPkt where
  link : Nat
  hdr : BitVec 128
  payload : List Line
deriving DecidableEq, Repr, Inhabited

/-- What an Announce says of a grandmaster (10 R211, IEEE 1588-2019): priority1, class, accuracy, variance, priority2, identity, and
the steps removed. -/
structure PtpDataset where
  priority1 : Nat := 0
  cls : Nat := 0
  accuracy : Nat := 0
  variance : Nat := 0
  priority2 : Nat := 0
  gm : Nat := 0
  steps : Nat := 0
deriving DecidableEq, Repr, Inhabited

/-- A PTP message of 10 R211: domain, sequence number, master, an Announce's data set, times in ns of the PTP timescale, correction in
ns, and the arrival stamp the management PHY takes. -/
structure PtpMsg where
  domain : Nat
  seq : Nat
  master : Nat
  dataset : PtpDataset
  twoStep : Bool
  origin : Nat
  correction : Int
  arrival : Nat
deriving DecidableEq, Repr, Inhabited

/-- An SPDM message as far as the board acts on it (15 R307): the transport and connection it came in on, the version and
algorithms it names, the session it opens or runs in, and the requester's certificate digests. -/
structure SpdmMsg where
  transport : Transport
  conn : Nat
  version : Nat
  algOk : Bool
  slot : Nat
  signed : Bool
  blocks : Nat
  nonce : BitVec 256
  mutualAuth : Bool
  root : Digest
  cert : Digest
  secured : Bool
deriving DecidableEq, Repr, Inhabited

/-- What the sweep of one byte lane found (05 R109): the steps of the read sample delay and of the write delay that passed. -/
structure LaneSweep where
  read : BitVec 128
  write : BitVec 128
deriving DecidableEq, Repr, Inhabited

/-- What training found on one far-tier channel (05 R109, R414): capacity in GiB (0 for an empty socket), the sweeps of its byte lanes,
and the part number read. -/
structure TrainResult where
  channel : Nat
  capacity : Nat
  lanes : List LaneSweep
  part : List Byte
deriving DecidableEq, Repr, Inhabited

/-- The commands: those with operands in the order of spec/opcode_table.json, then those without, in the same order. -/
inductive Instr where
  /-- LINK_PACKET_RECEIVE (R30). -/
  | linkPacketReceive (link : Nat) (p : RxPacket)
  /-- ACK_ONLY (R28); `ctype` is 0x01 or a reserved type. -/
  | ackOnly (link : Nat) (ctype : BitVec 8) (c : Ctl)
  /-- ALIGN (R28). -/
  | align (link : Nat) (c : Ctl)
  /-- HELLO (R39). -/
  | hello (link : Nat) (c : Ctl)
  /-- LANE_REQ (R42). -/
  | laneReq (link : Nat) (c : Ctl)
  /-- LANE_ACCEPT (R42). -/
  | laneAccept (link : Nat) (c : Ctl)
  /-- LANE_SWITCH (R42). -/
  | laneSwitch (link : Nat) (c : Ctl)
  /-- TIME_REQ (R47). -/
  | timeReq (link : Nat) (c : Ctl)
  /-- TIME_RESP (R47). -/
  | timeResp (link : Nat) (c : Ctl)
  /-- LINK_DOWN (R48). -/
  | linkDown (link : Nat) (c : Ctl)
  /-- ACK_TIMEOUT_EXPIRY (R33). -/
  | ackTimeoutExpiry (link : Nat)
  /-- REPLAY_LIMIT_REACHED (R34). -/
  | replayLimitReached (link : Nat)
  /-- LINK_UP (R38). -/
  | linkUp (link : Nat)
  /-- LANE_CHANGE_ABANDON (R42). -/
  | laneChangeAbandon (link : Nat)
  /-- LANE_DROP_BER_EXCEEDED (R44): `errors` pre-FEC bit errors per 10^9 bits over 10 ms. -/
  | laneDropBerExceeded (link lane errors : Nat)
  /-- LANE_SIGNAL_LOSS (R45). -/
  | laneSignalLoss (link lane : Nat)
  /-- EMERGENCY_DROP_TIMEOUT (R45). -/
  | emergencyDropTimeout (link : Nat)
  /-- LANE_ADD_TRAINED (R46). -/
  | laneAddTrained (link lane : Nat)
  /-- TIME_EXCH_DISCARD (R47). -/
  | timeExchDiscard (link : Nat)
  /-- CODEWORD_LOCK_LOSS (R48). -/
  | codewordLockLoss (link : Nat)
  /-- LINK_RETRAIN (R48). -/
  | linkRetrain (link : Nat)
  /-- FLAP_HOLD_EXPIRY (R50). -/
  | flapHoldExpiry (link : Nat)
  /-- LINK_ENABLE_WRITE (R51). -/
  | linkEnableWrite (f : Frame) (v : Nat)
  /-- LINK_VERSIONS_ALLOWED_WRITE (R41). -/
  | linkVersionsAllowedWrite (f : Frame) (link v : Nat)
  /-- READ (R54). -/
  | read (r : Req)
  /-- WRITE (R18). -/
  | write (r : Req)
  /-- WRITE_MASKED (R54). -/
  | writeMasked (r : Req)
  /-- ATOMIC (R54). -/
  | atomic (r : Req)
  /-- REDUCE_WRITE (R170). -/
  | reduceWrite (r : Req)
  /-- FLUSH (R152). -/
  | flush (r : Req)
  /-- INVALIDATE (R152). -/
  | invalidate (r : Req)
  /-- HINT (R95). -/
  | hint (r : Req)
  /-- COH_READ (R142). -/
  | cohRead (r : Req)
  /-- COH_WRITEBACK (R143). -/
  | cohWriteback (r : Req)
  /-- DOORBELL_LAUNCH (R159): DOORBELL MOD 0. -/
  | doorbellLaunch (r : Req)
  /-- DOORBELL_STANDING_PARAMS (R159): DOORBELL MOD 1. -/
  | doorbellStandingParams (r : Req)
  /-- MARK (R216). -/
  | mark (r : Req)
  /-- NOP (R54). -/
  | nop (r : Req)
  /-- SNOOP_RESPONSE (R139). -/
  | snoopResponse (h : HostResp)
  /-- SNOOP_RETRY (R147): the SNOOP of this board tag was answered RETRY_BUSY 1 µs ago. -/
  | snoopRetry (tag : Nat)
  /-- SNOOP_TIMEOUT (R147). -/
  | snoopTimeout (tag : Nat)
  /-- COH_HOLD_EXPIRY (R146): the entry is the directory entry number of the slice. -/
  | cohHoldExpiry (slice entry : Nat)
  /-- CRIER_NOTIFY_RESPONSE (R354). -/
  | crierNotifyResponse (h : HostResp)
  /-- PUSH_RESPONSE (R236). -/
  | pushResponse (h : HostResp)
  /-- REORDER_RELEASE (R59). -/
  | reorderRelease (stall : Nat)
  /-- REORDER_TIMEOUT_EXPIRY (R62). -/
  | reorderTimeoutExpiry (stall : Nat)
  /-- SLICE_RESPONSE_READY (R65): `id` numbers the tracker entry in its slice. -/
  | sliceResponseReady (slice id : Nat)
  /-- RESPONSE_HOLD_EXPIRY (R67). -/
  | responseHoldExpiry (slice id : Nat)
  /-- ATTACH (R71): a write to ATTACH_GO. -/
  | attach (f : Frame) (v : Nat)
  /-- DETACH (R75). -/
  | detach (f : Frame) (stall : Nat)
  /-- DETACH_COMPLETE (R75). -/
  | detachComplete (stall : Nat)
  /-- FENCE (R73). -/
  | fence (f : Frame) (stall : Nat)
  /-- HOST_DEAD (R73). -/
  | hostDead (stall : Nat)
  /-- STALL_TABLE_WRITE (R72): whole rows of two words from `row` up. -/
  | stallTableWrite (f : Frame) (row : Nat) (rows : List Nat)
  /-- BOARD_NUMBER_WRITE (R14). -/
  | boardNumberWrite (f : Frame) (v : Nat)
  /-- GRANT (R83): a write to GRANT_GO. -/
  | grant (f : Frame) (v : Nat)
  /-- REVOKE (R84): a write to REVOKE_GO. -/
  | revoke (f : Frame) (v : Nat)
  /-- REVOKE_DEADLINE_EXPIRY (R85): of one of the 16 match entries. -/
  | revokeDeadlineExpiry (entry : Nat)
  /-- REVOKE_DONE (R86): of one of the 16 match entries. -/
  | revokeDone (entry : Nat)
  /-- CLEAR (R77): a write to CLEAR_GO. -/
  | clear (f : Frame) (v : Nat)
  /-- ACL_TABLE_WRITE (R78): row 64 × list + entry. -/
  | aclTableWrite (f : Frame) (row : Nat) (rows : List Nat)
  /-- MIGRATE_MOVE_START (R100). -/
  | migrateMoveStart (slice : Nat)
  /-- FILL_COMPLETE (R101). -/
  | fillComplete (slice frame : Nat)
  /-- EVICTION_COMPLETE (R101). -/
  | evictionComplete (slice frame : Nat)
  /-- MOVE_ABANDON (R101). -/
  | moveAbandon (slice frame : Nat)
  /-- DRAM_COMMAND_ISSUE (R105): of a board channel. -/
  | dramCommandIssue (channel : Nat)
  /-- PAGE_IDLE_CLOSE (R106). -/
  | pageIdleClose (channel bank : Nat)
  /-- REFRESH_INTERVAL (R108): of a board channel (DDR5), or of a stack's bank set (HBM). -/
  | refreshInterval (hbm : Bool) (unit : Nat)
  /-- SCRUB_READ (R125): of a channel, or of a half-stack; `again` is the error pattern the second read meets. -/
  | scrubRead (near : Bool) (unit : Nat) (again : BitVec 640)
  /-- SCRUB_PERIOD_END (R124). -/
  | scrubPeriodEnd (near : Bool) (unit : Nat)
  /-- ROW_REPAIR_START (R127). -/
  | rowRepairStart (channel : Nat)
  /-- ROW_REPAIR_DONE (R127). -/
  | rowRepairDone (channel : Nat)
  /-- PITCH_ENTRY_REWRITE (R123): of a granule. -/
  | pitchEntryRewrite (granule : Nat)
  /-- ERROR_TABLE_WRITE (R130): table 0–8. -/
  | errorTableWrite (f : Frame) (table row : Nat) (rows : List Nat)
  /-- CHECKER_ENABLE_WRITE (R132). -/
  | checkerEnableWrite (f : Frame) (v : Nat)
  /-- CHECKER_RAW_WRITE (R131): CHECKER_OP 1. -/
  | checkerRawWrite (f : Frame)
  /-- CHECKER_RAW_READ (R131): CHECKER_OP 2. -/
  | checkerRawRead (f : Frame)
  /-- ORPHAN_RELEASE (R150). -/
  | orphanRelease (f : Frame) (v : Nat)
  /-- BARROW_TABLE_WRITE (R158). -/
  | barrowTableWrite (f : Frame) (row : Nat) (rows : List Nat)
  /-- BARROW_ABORT (R179). -/
  | barrowAbort (f : Frame) (v : Nat)
  /-- PROGRAM_STORE_WRITE (R163). -/
  | programStoreWrite (f : Frame) (slice row : Nat) (rows : List Nat)
  /-- TRIGGER_LAUNCH (R161): of a barrow. -/
  | triggerLaunch (barrow : Nat)
  /-- LAUNCH_START (R162): of a barrow (the gang head for a gang). -/
  | launchStart (barrow : Nat)
  /-- END (R168): the member of the barrow's launch in this slice reaches an END row. -/
  | descEnd (barrow slice : Nat)
  /-- FILL (R168). -/
  | descFill (barrow slice : Nat)
  /-- COPY (R168). -/
  | descCopy (barrow slice : Nat)
  /-- COMPARE (R168). -/
  | descCompare (barrow slice : Nat)
  /-- DIGEST (R168). -/
  | descDigest (barrow slice : Nat)
  /-- REDUCE_ARM (R169). -/
  | reduceArm (barrow slice : Nat)
  /-- REDUCE_ADD (R169). -/
  | reduceAdd (barrow slice : Nat)
  /-- REDUCE_FINALISE (R169). -/
  | reduceFinalise (barrow slice : Nat)
  /-- REDUCE_FINALISE_NORM (R203). -/
  | reduceFinaliseNorm (barrow slice : Nat)
  /-- REDUCE_RELEASE (R169). -/
  | reduceRelease (barrow slice : Nat)
  /-- CAST (R204). -/
  | descCast (barrow slice : Nat)
  /-- SCALE_ADD (R204). -/
  | scaleAdd (barrow slice : Nat)
  /-- UPDATE_SGD (R201). -/
  | updateSgd (barrow slice : Nat)
  /-- UPDATE_ADAM (R201). -/
  | updateAdam (barrow slice : Nat)
  /-- UPDATE_CLIPPED_SGD (R203). -/
  | updateClippedSgd (barrow slice : Nat)
  /-- UPDATE_CLIPPED_ADAM (R203). -/
  | updateClippedAdam (barrow slice : Nat)
  /-- SYNC (R172). -/
  | descSync (barrow slice : Nat)
  /-- SYNC_COMPLETE (R172). -/
  | syncComplete (barrow : Nat)
  /-- DESC_BUDGET_EXCEEDED (R175). -/
  | descBudgetExceeded (barrow : Nat)
  /-- LAUNCH_COMPLETE (R178). -/
  | launchComplete (barrow : Nat)
  /-- PTP_SYNC (R211). -/
  | ptpSync (m : PtpMsg)
  /-- PTP_FOLLOW_UP (R211). -/
  | ptpFollowUp (m : PtpMsg)
  /-- PTP_DELAY_RESP (R212). -/
  | ptpDelayResp (m : PtpMsg)
  /-- PTP_ANNOUNCE (R211). -/
  | ptpAnnounce (m : PtpMsg)
  /-- STEP_SET (R218). -/
  | stepSet (f : Frame) (v : Nat)
  /-- SCHEDULE_TABLE_WRITE (R220). -/
  | scheduleTableWrite (f : Frame) (row : Nat) (rows : List Nat)
  /-- BUNT_GO (R232). -/
  | buntGo (f : Frame) (tree : Nat)
  /-- BUNTING_START (R234). -/
  | buntingStart (tree : Nat)
  /-- BUNTING_PAGE_SEND (R235). -/
  | buntingPageSend (tree slice : Nat)
  /-- PUSH_RETRY (R236). -/
  | pushRetry (tag : Nat)
  /-- BUNT_TIMEOUT_EXPIRY (R236). -/
  | buntTimeoutExpiry (tag : Nat)
  /-- CATCHUP_WAIT_EXPIRY (R238). -/
  | catchupWaitExpiry (tree slice stall : Nat)
  /-- CATCHUP_PASS (R238). -/
  | catchupPass (tree slice : Nat)
  /-- BUNTING_COMPLETE (R241). -/
  | buntingComplete (tree : Nat)
  /-- BUNT_ABORT (R240). -/
  | buntAbort (f : Frame) (tree : Nat)
  /-- BUNTING_TABLE_WRITE (R230): tree entries, or member rows. -/
  | buntingTableWrite (f : Frame) (members : Bool) (row : Nat) (rows : List Nat)
  /-- SHAPER_TABLE_WRITE (R247). -/
  | shaperTableWrite (f : Frame) (row : Nat) (rows : List Nat)
  /-- WHEEL_SLOT_DUE (R250). -/
  | wheelSlotDue (slice : Nat)
  /-- FLOW_SEND (R250). -/
  | flowSend (slice : Nat)
  /-- ACTIVE_GATE_LIST_WRITE (R255). -/
  | activeGateListWrite (f : Frame) (v : Nat)
  /-- GATE_LISTS_WRITE (R255): row 256 × list + entry. -/
  | gateListsWrite (f : Frame) (row : Nat) (rows : List Nat)
  /-- FB_OFFSET_WRITE (R257). -/
  | fbOffsetWrite (f : Frame) (v : Nat)
  /-- FB_COMMIT (R257). -/
  | fbCommit (f : Frame) (v : Nat)
  /-- PIPELINE_GRANT (R260). -/
  | pipelineGrant (slice : Nat)
  /-- PRIORITY_PROMOTION (R261). -/
  | priorityPromotion (slice level : Nat)
  /-- CROSSBAR_GRANT (R264): slice input port 0–7, or link output port 0–47. -/
  | crossbarGrant (output : Bool) (port : Nat)
  /-- MIRROR_WRITE (R272). -/
  | mirrorWrite (p : HalPkt)
  /-- CONTROL (R274). -/
  | control (p : HalPkt)
  /-- EPOCH_DATA (R276). -/
  | epochData (p : HalPkt)
  /-- EPOCH_END (R276). -/
  | epochEnd (p : HalPkt)
  /-- MIRROR_ACK (R271). -/
  | mirrorAck (p : HalPkt)
  /-- HEARTBEAT (R399). -/
  | heartbeat (p : HalPkt)
  /-- RELINQUISH (R279). -/
  | relinquish (p : HalPkt)
  /-- STREAM_END (R279). -/
  | streamEnd (p : HalPkt)
  /-- TAKEN (R278). -/
  | taken (p : HalPkt)
  /-- MOVE_WRITE (R289). -/
  | moveWrite (p : HalPkt)
  /-- MOVE_ACK (R290). -/
  | moveAck (p : HalPkt)
  /-- MOVE_END (R290). -/
  | moveEnd (p : HalPkt)
  /-- PAIR_COMMAND_RELINQUISH (R278). -/
  | pairCommandRelinquish (f : Frame)
  /-- PAIR_COMMAND_TAKEOVER (R279). -/
  | pairCommandTakeover (f : Frame)
  /-- PAIR_COMMAND_REJOIN (R284). -/
  | pairCommandRejoin (f : Frame)
  /-- PARTNER_FENCE (R282). -/
  | partnerFence (f : Frame) (stall : Nat)
  /-- PARTNER_DETACH (R282). -/
  | partnerDetach (f : Frame) (stall : Nat)
  /-- MOVE_IN_OPEN (R287). -/
  | moveInOpen (f : Frame)
  /-- MOVE_IN_CANCEL (R287). -/
  | moveInCancel (f : Frame)
  /-- MOVE_OUT_START (R288). -/
  | moveOutStart (f : Frame)
  /-- MOVE_OUT_STOP (R290). -/
  | moveOutStop (f : Frame)
  /-- MOVE_LINKS_WRITE (R286). -/
  | moveLinksWrite (f : Frame) (v : Nat)
  /-- LANE_LOOPBACK_DONE (R293). -/
  | laneLoopbackDone (link lane : Nat) (pass : Bool)
  /-- SLICE_FAULT (R295): DETAIL of Table 14.5. -/
  | sliceFault (slice detail : Nat)
  /-- CHANNEL_FAULT (R296): DETAIL of Table 14.5. -/
  | channelFault (channel detail : Nat)
  /-- PIPELINE_HANG (R302). -/
  | pipelineHang (slice : Nat)
  /-- RETIRE_SLICE (R304): RETIRE_GO with RETIRE_KIND 1. -/
  | retireSlice (f : Frame) (v : Nat)
  /-- RETIRE_CHANNEL (R304): RETIRE_GO with RETIRE_KIND 2. -/
  | retireChannel (f : Frame) (v : Nat)
  /-- RETIRE_CLEAR (R300): RETIRE_GO with RETIRE_KIND 3. -/
  | retireClear (f : Frame) (v : Nat)
  /-- GET_VERSION (R307). -/
  | getVersion (m : SpdmMsg)
  /-- GET_CAPABILITIES (R307). -/
  | getCapabilities (m : SpdmMsg)
  /-- NEGOTIATE_ALGORITHMS (R307). -/
  | negotiateAlgorithms (m : SpdmMsg)
  /-- GET_DIGESTS (R307). -/
  | getDigests (m : SpdmMsg)
  /-- GET_CERTIFICATE (R307). -/
  | getCertificate (m : SpdmMsg)
  /-- CHALLENGE (R307). -/
  | challenge (m : SpdmMsg)
  /-- GET_MEASUREMENTS (R309). -/
  | getMeasurements (m : SpdmMsg)
  /-- KEY_EXCHANGE (R307). -/
  | keyExchange (m : SpdmMsg)
  /-- FINISH (R307). -/
  | finish (m : SpdmMsg)
  /-- SPDM_HEARTBEAT (R307). -/
  | spdmHeartbeat (m : SpdmMsg)
  /-- KEY_UPDATE (R307). -/
  | keyUpdate (m : SpdmMsg)
  /-- END_SESSION (R307). -/
  | endSession (m : SpdmMsg)
  /-- ENCAPSULATED_REQUEST (R307). -/
  | encapsulatedRequest (m : SpdmMsg)
  /-- KEY_LOAD (R317): the session's connection, then the fields of Table 15.6. -/
  | keyLoad (m : SpdmMsg) (slot tenant : Nat) (epoch : BitVec 8) (key1 key2 : BitVec 256)
  /-- ASSIGN (R312): KEY_GO with KEY_CMD 1. -/
  | keyAssign (f : Frame) (v : Nat)
  /-- RETIRE (R316): KEY_GO with KEY_CMD 2. -/
  | keyRetire (f : Frame) (v : Nat)
  /-- GENERATE (R315): KEY_GO with KEY_CMD 3. -/
  | keyGenerate (f : Frame) (v : Nat)
  /-- IMPORT_ON (R313): KEY_GO with KEY_CMD 4. -/
  | importOn (f : Frame) (v : Nat)
  /-- IMPORT_OFF (R313): KEY_GO with KEY_CMD 5. -/
  | importOff (f : Frame) (v : Nat)
  /-- KEY_DRAIN_DONE (R316). -/
  | keyDrainDone (slot : Nat)
  /-- KEY_RETIRE_DEADLINE_EXPIRY (R316). -/
  | keyRetireDeadlineExpiry (slot : Nat)
  /-- ADMIT (R319): TENANT_GO with TENANT_CMD 1. -/
  | tenantAdmit (f : Frame) (v : Nat)
  /-- REMOVE (R320): TENANT_GO with TENANT_CMD 2. -/
  | tenantRemove (f : Frame) (v : Nat)
  /-- REMOVE_CLEAR_START (R320). -/
  | removeClearStart (tenant : Nat)
  /-- TENANT_REMOVE_DONE (R320). -/
  | tenantRemoveDone (tenant : Nat)
  /-- TENANT_TABLE_WRITE (R319). -/
  | tenantTableWrite (f : Frame) (row : Nat) (rows : List Nat)
  /-- CONF_MODE_WRITE (R321). -/
  | confModeWrite (f : Frame) (v : Nat)
  /-- LEDGER_ACKED_WRITE (R325). -/
  | ledgerAckedWrite (f : Frame) (v : Nat)
  /-- MGMT_READ (R335). -/
  | mgmtRead (f : Frame) (index sub : Nat)
  /-- MGMT_WRITE (R337): `len` body bytes holding `v` little-endian. -/
  | mgmtWrite (f : Frame) (index sub len v : Nat)
  /-- WINDOW_READ (R336). -/
  | windowRead (f : Frame) (index sub row count : Nat)
  /-- WINDOW_WRITE (R336). -/
  | windowWrite (f : Frame) (index sub row : Nat) (rows : List Nat)
  /-- DESCRIBE (R338). -/
  | describe (f : Frame) (index sub : Nat)
  /-- PRINCIPAL_TABLE_WRITE (R332). -/
  | principalTableWrite (f : Frame) (row : Nat) (rows : List Nat)
  /-- PROFILE_SWITCH (R340): PROFILE_GO with PROFILE_OP 1. -/
  | profileSwitch (f : Frame) (v : Nat)
  /-- PROFILE_COPY (R340): PROFILE_GO with PROFILE_OP 2. -/
  | profileCopy (f : Frame) (v : Nat)
  /-- PROFILE_ERASE (R340): PROFILE_GO with PROFILE_OP 3. -/
  | profileErase (f : Frame) (v : Nat)
  /-- TALLY_CLEAR (R358). -/
  | tallyClear (f : Frame) (v : Nat)
  /-- HOIST_NOW (R349). -/
  | hoistNow (f : Frame) (v : Nat)
  /-- HOIST_RELEASE (R350). -/
  | hoistRelease (f : Frame) (v : Nat)
  /-- CRIER_NOTIFY_SEND (R354). -/
  | crierNotifySend (stall : Nat)
  /-- CRIER_NOTIFY_TIMEOUT (R354). -/
  | crierNotifyTimeout (tag : Nat)
  /-- CRIER_ACKED_WRITE (R355). -/
  | crierAckedWrite (f : Frame) (v : Nat)
  /-- TRACE_CTRL_WRITE (R357). -/
  | traceCtrlWrite (f : Frame) (v : Nat)
  /-- TRACE_RECORD (R356): core, target address and kind. -/
  | traceRecord (core : Nat) (target : BitVec 64) (kind : Nat)
  /-- RAIL_FAULT (R364): order number of Table 18.1. -/
  | railFault (rail : Nat)
  /-- PMBUS_POLL (R366): rail, whether STATUS_WORD reports a fault, millivolts and tenths of an ampere. -/
  | pmbusPoll (rail : Nat) (faulted : Bool) (mv da : Nat)
  /-- EFUSE_TRIP (R364). -/
  | efuseTrip (socket : Nat)
  /-- POWER_TARGET_WRITE (R370). -/
  | powerTargetWrite (f : Frame) (v : Nat)
  /-- CLOCK_RAMP_DONE (R378): unit 0–7 a slice's pass ratio, 8 the core divider. -/
  | clockRampDone (unit : Nat)
  /-- SLICE_PARK_ENTRY (R371). -/
  | sliceParkEntry (slice : Nat)
  /-- LANE_PARK_WRITE (R372). -/
  | laneParkWrite (f : Frame) (link v : Nat)
  /-- LANE_UNPARK_CHECK_DONE (R372). -/
  | laneUnparkCheckDone (link : Nat)
  /-- REF_SELECT_WRITE (R382). -/
  | refSelectWrite (f : Frame) (v : Nat)
  /-- REFCLK_FAIL (R383): reference 0 or 1. -/
  | refclkFail (ref : Nat)
  /-- REF_HOLDOFF_EXPIRY (R384): reference 0 or 1 has been good for REF_HOLDOFF. -/
  | refHoldoffExpiry (ref : Nat)
  /-- FREQ_GO (R381). -/
  | freqGo (f : Frame) (v : Nat)
  /-- FREQ_MEASURE_DONE (R381): the edges counted. -/
  | freqMeasureDone (count : Nat)
  /-- RESET_BOARD (R389). -/
  | resetBoard (f : Frame) (v : Nat)
  /-- RESET_RELEASE (R391): the levels of PROFILE_SEL[1:0] and CONF_MODE_N. -/
  | resetRelease (profileSel : Nat) (confModeN : Bool)
  /-- SELF_TEST_DONE (R393): bit n set, logical slice n failed. -/
  | selfTestDone (failed : Nat)
  /-- BOOT_SLOT_VERIFY_DONE (R394): the signature of slot 0 and of slot 1 is valid. -/
  | bootSlotVerifyDone (sig0 sig1 : Bool)
  /-- FIRMWARE_BRING_UP_DONE (R397): whether the ledger flash ring passes its checks. -/
  | firmwareBringUpDone (ledgerOk : Bool)
  /-- MEMORY_TRAINING_DONE (R398): what each channel trained to, and which slices' HBM failed. -/
  | memoryTrainingDone (results : List TrainResult) (hbm : List (List LaneSweep))
  /-- FW_IMAGE_WRITE (R396). -/
  | fwImageWrite (f : Frame) (row : Nat) (rows : List Nat)
  /-- FW_GO (R396). -/
  | fwGo (f : Frame) (v : Nat)
  /-- FW_VERIFY_DONE (R396): the slot's signature is valid. -/
  | fwVerifyDone (sig : Bool)
  /-- THERMAL_POLL (R412): hottest die sensor, HBM stack and DIMM in °C, bit n of `hot85` for channel n above 85 °C. -/
  | thermalPoll (die hbm dimm hot85 : Nat)
  /-- TIME_EXCH_INITIATE (R47). -/
  | timeExchInitiate
  /-- GRANT_COMPLETE (R83). -/
  | grantComplete
  /-- CLEAR_DONE (R102). -/
  | clearDone
  /-- ORPHAN_RELEASE_DONE (R150). -/
  | orphanReleaseDone
  /-- TIME_HOLDOVER (R212). -/
  | timeHoldover
  /-- MARK_APPLY_AT (R216). -/
  | markApplyAt
  /-- GUARD_BAND_PREVIEW (R256). -/
  | guardBandPreview
  /-- MARK_LOSS (R219). -/
  | markLoss
  /-- FALLBACK_GATE_ENTRY (R257). -/
  | fallbackGateEntry
  /-- MIRROR_EPOCH_END (R276). -/
  | mirrorEpochEnd
  /-- HEARTBEAT_SEND (R270). -/
  | heartbeatSend
  /-- MIRROR_ACK_SEND (R271). -/
  | mirrorAckSend
  /-- RELINQUISH_REPEAT (R278). -/
  | relinquishRepeat
  /-- TAKEN_REPEAT (R279). -/
  | takenRepeat
  /-- MOVE_ACK_SEND (R289). -/
  | moveAckSend
  /-- MOVE_WRITE_SEND (R289). -/
  | moveWriteSend
  /-- RELINQUISH_DEADLINE (R278). -/
  | relinquishDeadline
  /-- STREAM_END_SEND (R278). -/
  | streamEndSend
  /-- PAIR_PRESENT_N_HIGH (R279). -/
  | pairPresentNHigh
  /-- TAKEOVER_WAIT_END (R279). -/
  | takeoverWaitEnd
  /-- TAKEOVER_ACTIVATED (R279). -/
  | takeoverActivated
  /-- PAIR_DECIDE_EXPIRY (R283). -/
  | pairDecideExpiry
  /-- RESYNC_GRANULE_DONE (R284). -/
  | resyncGranuleDone
  /-- MOVE_PROGRESS_TIMEOUT (R290). -/
  | moveProgressTimeout
  /-- SLICE_FOLD (R295). -/
  | sliceFold
  /-- CHANNEL_FOLD (R296). -/
  | channelFold
  /-- CONTROL_WATCHDOG (R302). -/
  | controlWatchdog
  /-- HOST_PORT_FAULT (R302). -/
  | hostPortFault
  /-- LEDGER_SIGN (R325). -/
  | ledgerSign
  /-- FLASH_COMMIT (R339). -/
  | flashCommit
  /-- PROFILE_SWITCH_CYCLE (R340). -/
  | profileSwitchCycle
  /-- HOIST_IN (R349). -/
  | hoistIn
  /-- POWER_ON (R390). -/
  | powerOn
  /-- POWER_FAIL_WARNING (R365). -/
  | powerFailWarning
  /-- POWER_RESTORE (R365). -/
  | powerRestore
  /-- POWER_OFF (R359). -/
  | powerOff
  /-- VOUT_ACK (R367). -/
  | voutAck
  /-- PMBUS_ACK_TIMEOUT (R367). -/
  | pmbusAckTimeout
  /-- CORE_PLL_LOCK (R384). -/
  | corePllLock
  /-- RESET_N (R386). -/
  | resetN
  /-- MEMORY_INIT_DONE (R398). -/
  | memoryInitDone
  /-- HARD_REPAIR_DONE (R398). -/
  | hardRepairDone
  /-- MEMORY_CLEAR_DONE (R400). -/
  | memoryClearDone
  /-- THERMAL_FAULT (R412). -/
  | thermalFault
  /-- CHECKER_RAW_DONE (R131). -/
  | checkerRawDone
  /-- CONTROL_CORES_HALT (R13). -/
  | controlCoresHalt
  /-- CONTROL_CORES_RETURN (R13). -/
  | controlCoresReturn
deriving DecidableEq, Repr

end Sys2Proof
end

