-- ==== Sys2Proof/Machine/Crc.lean ====
section
/-! DEFINITION. The link's check codes (02 R26). -/

namespace Sys2Proof.Machine

/-- One step of CRC-8 with polynomial x^8 + x^2 + x + 1, most significant bit first. -/
def crc8Bit (c : BitVec 8) : BitVec 8 := if c.msb then (c <<< 1) ^^^ 0x07 else c <<< 1

/-- CRC-8 of a byte sequence: initial value 0x00, no reflection, no final XOR (R26). -/
def crc8 (bs : List Byte) : BitVec 8 :=
  bs.foldl (fun c b => crc8Bit (crc8Bit (crc8Bit (crc8Bit (crc8Bit (crc8Bit (crc8Bit (crc8Bit (c ^^^ b))))))))) 0

/-- One step of the reflected CRC-32 with polynomial 0x04C1_1DB7. -/
def crc32Bit (c : BitVec 32) : BitVec 32 := if c.getLsbD 0 then (c >>> 1) ^^^ 0xEDB88320 else c >>> 1

/-- One byte of CRC-32. -/
def crc32Byte (c : BitVec 32) (b : Byte) : BitVec 32 :=
  crc32Bit (crc32Bit (crc32Bit (crc32Bit (crc32Bit (crc32Bit (crc32Bit (crc32Bit (c ^^^ b.setWidth 32))))))))

/-- CRC-32 of a byte sequence: initial value 0xFFFF_FFFF, reflected input and output, final XOR 0xFFFF_FFFF (R26). -/
def crc32 (bs : List Byte) : BitVec 32 := bs.foldl crc32Byte 0xFFFFFFFF ^^^ 0xFFFFFFFF

end Sys2Proof.Machine
end

