-- ==== Sys2Proof/Config.lean ====
section
/-! DEFINITION. What one board fixes and what the manual leaves open: constants without a body, so that no proof can lean on
a value of one.  Each is named by an entry of the assumption log. -/

namespace Sys2Proof

/-- The exponent of the first of the 16 consecutive roots of the line code's generator; R114 gives the field and not the roots
(DESIGN CHOICE, log 3). -/
opaque Config.rsFirst : Nat

/-- Symbol 0 of a codeword is its highest coefficient, or its lowest; R114 does not say which (DESIGN CHOICE, log 3). -/
opaque Config.rsDescending : Bool

/-- What a decode of an error over three or more symbol groups reports; R115 does not guarantee its detection
(DESIGN CHOICE, log 3): `none` uncorrectable, `some` the bytes taken for the line. -/
opaque Config.undetected : BitVec 640 → Line → Option Line

/-- The pseudo-channel of a half-stack that holds a line of a frame; R104 leaves the hash open (DESIGN CHOICE, log 4). -/
opaque Config.nearChannel : Nat → Nat

/-- A free value, one for each count of `State.free` (DESIGN CHOICE, log 4). -/
opaque Config.freeValue : Nat → BitVec 256

/-- The board's fuse bank of 256 repair records (R292, Table 14.1). -/
opaque Config.fuse : Nat → BitVec 32

/-- The MAC address in the fuse bank (R344). -/
opaque Config.mac : BitVec 48

/-- The confidential-mode fuse (R321). -/
opaque Config.confFuse : Bool

/-- The fuse bank's minimum security version number (R394). -/
opaque Config.minSvn : BitVec 8

/-- The ECDSA P-384 signature of the attestation key over a digest, `n` numbering the signatures (R308, R324). -/
opaque Config.sign : Digest → Nat → BitVec 768

/-- The SHA-384 digest of the certificate chain in slot 0 (R308). -/
opaque Config.chainDigest : Digest

/-- The digests of the measurement blocks 1 to 3 that the board does not compute from its registers (R309):
boot ROM, management firmware image by slot and by how often it has been written, fuse bank. -/
opaque Config.measurement : Nat → Nat → Nat → Digest

/-- Random bits of the die's generator, by draw (R315). -/
opaque Config.random : Nat → BitVec 512

/-- The servo's rate correction, in 2^-32 ns a tick, from the last offset in ps and the correction before it; R212 gives
only the bound of ±100 ppm (DESIGN CHOICE, log 5). -/
opaque Config.servo : Int → Int → Int

/-- The CRC-32 of a profile copy with this sequence number; the flash layout is not given (R339). -/
opaque Config.profileCrc : Nat → Nat → BitVec 32

/-- The FW_RELEASE in the header of the image in a firmware slot, by slot and by how often the image has been written; the
header's layout is not given (R394). -/
opaque Config.fwRelease : Nat → Nat → BitVec 32

/-- The security version number of that image (R394). -/
opaque Config.fwSvn : Nat → Nat → BitVec 8

/-- Activations of a bank after which its DIMM needs a refresh management command; R110 gives no number (DESIGN CHOICE, log 72). -/
opaque Config.rfmLimit : Nat

/-- Nanoseconds between the per-bank refreshes of a half-stack at its temperature readout; R108 gives no number (DESIGN CHOICE, log 72). -/
opaque Config.hbmRefresh : Nat → Nat

end Sys2Proof
end

