-- ==== Sys2Proof/Machine/Table.lean ====
section
/-! DEFINITION. Sparse tables: a list of (key, value) pairs, keys strictly rising, no value equal to the one an unlisted key
reads as. Equal tables are equal data. -/

namespace Sys2Proof

/-- A sparse table of `α` by number. -/
abbrev Tbl (α : Type) : Type := List (Nat × α)

/-- The value at a key; `d` is what an unlisted key reads as. -/
def Tbl.get {α : Type} (t : Tbl α) (d : α) (k : Nat) : α :=
  match t with
  | [] => d
  | (k', v) :: r => if k = k' then v else Tbl.get r d k

/-- Put a value at a key, in the place its key gives it. -/
def Tbl.put {α : Type} (t : Tbl α) (k : Nat) (v : α) : Tbl α :=
  match t with
  | [] => [(k, v)]
  | (k', v') :: r =>
    if k < k' then (k, v) :: (k', v') :: r
    else if k = k' then (k, v) :: r
    else (k', v') :: Tbl.put r k v

/-- Store a value at a key; storing the value of an unlisted key removes the pair. -/
def Tbl.set {α : Type} [DecidableEq α] (t : Tbl α) (d : α) (k : Nat) (v : α) : Tbl α :=
  if v = d then t.filter (fun p => p.1 != k) else t.put k v

/-- Change the value at a key. -/
def Tbl.upd {α : Type} [DecidableEq α] (t : Tbl α) (d : α) (k : Nat) (f : α → α) : Tbl α :=
  t.set d k (f (t.get d k))

/-- All keys listed are at least `lo` and strictly rising, and no value listed is `d`. -/
def Tbl.wfFrom {α : Type} [DecidableEq α] (d : α) : Nat → Tbl α → Bool
  | _, [] => true
  | lo, (k, v) :: r => decide (lo ≤ k) && decide (v ≠ d) && Tbl.wfFrom d (k + 1) r

/-- The canonical form. -/
def Tbl.wf {α : Type} [DecidableEq α] (t : Tbl α) (d : α) : Bool := Tbl.wfFrom d 0 t

end Sys2Proof
end

