-- ==== Sys2Proof/Machine/State.lean ====
section
/-! DEFINITION. The state of the board as plain data, one record for each part of the manual, and the state after reset. -/

namespace Sys2Proof.Machine

/-! ### Codes -/

/-- Status codes (03 Table 3.4). -/
inductive Status where
  | ok | retryBusy | accessDenied | revoked | staleRole | poison | uncorrectable | orphaned | fenced | partialFenced
  | keyRetired | tagExpired | timeout | unsupportedVersion
deriving DecidableEq, Repr, Inhabited

/-- The opcodes of 03 Table 3.3, in the table's order, and the reserved ones by their code. -/
inductive ReqOp where
  | read | write | writeMasked | atomic | reduceWrite | flush | invalidate | hint | cohRead | cohWriteback | snoop
  | doorbell | mark | crierNotify | push | nop
  | reserved (code : Nat)
deriving DecidableEq, Repr, Inhabited

/-! ### Stored lines (06) -/

/-- A stored codeword: the 64 data symbols it encodes and the difference from that codeword, symbol `i` of the 80 in bits
`[8i+7:8i]`; a poisoned line differs by POISON_MASK and a cleared one by CLEAR_MASK in the check symbols. -/
structure SLine where
  data : Line
  err : BitVec 640
deriving DecidableEq, Repr, Inhabited

/-! ### Links (02) -/

/-- LINK_STATUS[31:28] (02 Table 2.11). -/
inductive LinkPhase where
  | disabled | training | up | held
deriving DecidableEq, Repr, Inhabited

/-- Why a link is held down: R41, R50 or R266. -/
inductive HoldCause where
  | none | noVersion | flap | mismatch
deriving DecidableEq, Repr, Inhabited

/-- A response of the board (03 Table 3.2) with its payload units. -/
structure Resp where
  opcode : Nat
  host : Nat
  tag : BitVec 16
  status : Status
  epoch : BitVec 8
  load : Nat
  cached : Bool
  stale : Bool
  result : BitVec 64
  data : List Line
deriving DecidableEq, Repr, Inhabited

/-- A request of the board to a host (03 Table 3.1). -/
structure BoardReq where
  opcode : Nat
  host : Nat
  tag : Nat
  tenant : Nat
  epoch : BitVec 8
  len : Nat
  mod : Nat
  addr : Nat
  data : List Line
deriving DecidableEq, Repr, Inhabited

/-- A management response (16 Table 16.2) with its body bytes as a little-endian number. -/
structure MgmtResp where
  mtag : BitVec 16
  mop : Nat
  index : Nat
  sub : Nat
  count : Nat
  row : Nat
  reqEpoch : Nat
  status : Status
  reason : Nat
  rowOut : Nat
  len : Nat
  body : Nat
deriving DecidableEq, Repr, Inhabited

/-- What a packet of the board carries. -/
inductive TxMsg where
  | resp (r : Resp)
  | req (q : BoardReq)
  | mgmt (host : Nat) (m : MgmtResp)
  | hal (hdr : BitVec 128) (data : List Line)
deriving DecidableEq, Repr, Inhabited

/-- The unit that sent a packet, to which it goes back when its link goes down (R49). -/
inductive Origin where
  | hostPort
  | slice (slice id : Nat)
  | snoop (tag : Nat)
  | push (tag : Nat)
  | crier (tag : Nat)
  | mgmt
  | halyard
  | move
deriving DecidableEq, Repr, Inhabited

/-- A packet in a replay buffer: its SEQ, class, REPLAY flag and content. -/
structure TxPkt where
  seq : BitVec 16
  tc : Nat
  replay : Bool
  origin : Origin
  msg : TxMsg
deriving DecidableEq, Repr, Inhabited

/-- A control block waiting for the next control slot (02 Table 2.5). -/
structure CtlOut where
  ctype : Nat
  body : BitVec 176
deriving DecidableEq, Repr, Inhabited

/-- A lane change under way (R42, R45). -/
structure LaneChange where
  reqId : BitVec 8
  mask : BitVec 4
  emergency : Bool
  mine : Bool
  accepted : Bool
  txSwitched : Bool
  rxSwitched : Bool
  parking : Bool
deriving DecidableEq, Repr, Inhabited

/-- One Waxon link (02); `parked` are the lanes that LANE_PARK keeps out, `parkWant` a park or unpark that waits (18 R370, R372),
`downUntil` and `downReason` the span of the LINK_DOWN blocks (R48), `lost` the lanes of the mask that have lost signal (R48),
`addReady` the lanes that have trained alone and wait to join (R46), `ctlLast` the control block sent last. -/
structure LinkSt where
  phase : LinkPhase := .disabled
  hold : HoldCause := .none
  retrain : Bool := false
  passed : BitVec 4 := 0
  mask : BitVec 4 := 0
  version : Nat := 0
  kind : Nat := 0
  partner : Nat := 0
  partnerVersions : BitVec 8 := 0
  partnerCaps : BitVec 32 := 0
  caps : BitVec 32 := 0
  allowedAtTrain : BitVec 32 := 0
  partnerLanes : BitVec 4 := 0
  gotHello : Bool := false
  seenSent : Bool := false
  seenRecv : Bool := false
  txSeq : BitVec 16 := 0
  rxNext : BitVec 16 := 0
  ackSent : BitVec 16 := 0
  unacked : List TxPkt := []
  timerOn : Bool := false
  expiries : Nat := 0
  inSync : Bool := true
  waitBytes : Nat := 0
  ctlOut : List CtlOut := []
  ctlLast : Option CtlOut := none
  downUntil : Nat := 0
  downReason : Nat := 0
  lost : BitVec 4 := 0
  addReady : BitVec 4 := 0
  change : Option LaneChange := none
  reqId : BitVec 8 := 0
  reqQuietUntil : Nat := 0
  inTest : BitVec 4 := 0
  barred : BitVec 4 := 0
  beforeDrop : BitVec 4 := 0
  afterDrop : BitVec 4 := 0
  parked : BitVec 4 := 0
  parkWant : Option (BitVec 4) := none
  unparking : Bool := false
  xid : BitVec 16 := 0
  exch : Option (BitVec 16 × BitVec 80) := none
  downTimes : List Nat := []
deriving DecidableEq, Repr, Inhabited

/-! ### Stalls (03, 04, 12) -/

/-- Stall state (04 Table 4.1). -/
inductive StallPhase where
  | free | attached | fenced | detaching
deriving DecidableEq, Repr, Inhabited

/-- One slot of the completed-tag cache (R58); `lost` once an error has emptied it (06 Table 6.1). -/
structure TagSlot where
  valid : Bool := false
  tag : BitVec 16 := 0
  opcode : Nat := 0
  status : Status := .ok
  result : BitVec 64 := 0
  lost : Bool := false
deriving DecidableEq, Repr, Inhabited

/-- A crier copy queued for a host (R354): the record, and for a LOST record its count and the newest SEQ it stands for. -/
structure CrierCopy where
  lost : Bool
  seq : Nat
  code : Nat
  unit : Nat
  time : BitVec 128
  detail : BitVec 256
  count : Nat
  newest : Nat
deriving DecidableEq, Repr, Inhabited

/-- One stall (04 Tables 4.1 and 4.2; 03 R57 to R66; 17 R354); `wasFenced` since its host was fenced, through DETACHING (04 R73). -/
structure StallSt where
  phase : StallPhase := .free
  orderMode : Nat := 0
  strictTc : BitVec 8 := 0
  epoch : BitVec 8 := 0
  host : Nat := 0
  caps : BitVec 8 := 0
  linkSet : BitVec 48 := 0
  next : BitVec 16 := 0
  firstSeen : Bool := true
  ahead : List (BitVec 16) := []
  held : List (ReqOp × Req) := []
  tags : Tbl TagSlot := []
  advances : List Nat := []
  sprayPtr : Nat := 0
  slicePtr : Nat := 0
  crierQ : List CrierCopy := []
  wasFenced : Bool := false
deriving DecidableEq, Repr, Inhabited

/-- Shaper row (12 Table 12.1); credits in 2^-16 bytes, `upTo` the AO_TIME in ns they were last brought up to. -/
structure Shaper where
  rateIn : Nat := 0
  rateOut : Nat := 0
  burstIn : Nat := 1048576
  burstOut : Nat := 1048576
  creditIn : Int := 0
  creditOut : Int := 0
  upTo : Nat := 0
deriving DecidableEq, Repr, Inhabited

/-! ### Pitches (04) -/

/-- Granule state (04 Table 4.3). -/
inductive PitchPhase where
  | free | granted | revoking | held
deriving DecidableEq, Repr, Inhabited

/-- Pitch table entry (04 Table 4.3). -/
structure PitchEntry where
  phase : PitchPhase := .free
  pitch : Nat := 0
  tenant : Nat := 0
  acl : Nat := 0
  slot : Nat := 0
  mirrored : Bool := false
  coherent : Bool := false
  hint : Nat := 0
  written : Bool := false
deriving DecidableEq, Repr, Inhabited

/-- Access list entry (04 Table 4.4). -/
structure AclEntry where
  valid : Bool := false
  rd : Bool := false
  wr : Bool := false
  co : Bool := false
  host : Nat := 0
deriving DecidableEq, Repr, Inhabited

/-- What asked for a revoke: the manager, a tenant removal, a profile switch or a retirement. -/
inductive RevokeFor where
  | manager | removal | profile | retirement
deriving DecidableEq, Repr, Inhabited

/-- A revoke match entry (R84). -/
structure RevokeEntry where
  valid : Bool := false
  kind : Nat := 0
  value : Nat := 0
  drained : Nat := 0
  aborted : Nat := 0
  generation : Nat := 0
  expired : Bool := false
  cause : RevokeFor := .manager
  hseq : Option Nat := none
deriving DecidableEq, Repr, Inhabited

/-- A grant being written (R83): its fields and how many granules are done. -/
structure GrantRun where
  entry : PitchEntry
  first : Nat
  count : Nat
  done : Nat
  flags : Nat
  hseq : Option Nat := none
deriving DecidableEq, Repr, Inhabited

/-- A clear that runs (R77): its first granule and count, and the last record it has sent the partner (13 R274). -/
structure ClearRun where
  first : Nat
  count : Nat
  hseq : Option Nat := none
deriving DecidableEq, Repr, Inhabited

/-- The pitch tables (04), with G as trained and the DRAM address order in use (05 R104). -/
structure PitchSt where
  table : Tbl PitchEntry := []
  bad : List Nat := []
  acl : Tbl AclEntry := []
  revokes : Tbl RevokeEntry := []
  grantRun : Option GrantRun := none
  clearRun : Option ClearRun := none
  staleGen : Option Nat := none
  gran : Nat := 0
  order : Nat := 2
deriving DecidableEq, Repr, Inhabited

/-! ### Slices (03, 05, 06, 07, 08, 12) -/

/-- How far an admitted request has got. -/
inductive TrkStage where
  | snooping | queued | done | heldResp | egress | inLink
deriving DecidableEq, Repr, Inhabited

/-- A request tracker entry (R65); `marks` are the revokes that wait for it (04 R85), `left` once its response has left the slice's wheel (12 R246). -/
structure Trk where
  id : Nat
  stall : Nat
  op : ReqOp
  req : Req
  stage : TrkStage
  status : Status
  result : BitVec 64
  units : List Line
  failed : Nat
  stale : Bool
  marks : List Nat
  slot : Option Nat
  hseq : Option Nat
  aborted : Bool
  todo : List Nat
  waits : List (Nat × Nat)
  left : Bool := false
deriving DecidableEq, Repr, Inhabited

/-- Frame states (05 Table 5.1). -/
inductive FramePhase where
  | free | filling | resident | evicting
deriving DecidableEq, Repr, Inhabited

/-- A frame table entry with its 512-bit page map (05 Table 5.1, R93). -/
structure FrameEntry where
  phase : FramePhase := .free
  hint : Nat := 0
  ownHint : Bool := false
  region : Nat := 0
  count : Nat := 0
  pages : BitVec 512 := 0
  pinned : Bool := false
  stall : Nat := 0
deriving DecidableEq, Repr, Inhabited

/-- A candidate table entry (05 Table 5.8): a hinted one has `hinted`. -/
structure Candidate where
  region : Nat
  hinted : Bool
  hint : Nat
  stall : Nat
  misses : Nat
  lastMisses : Nat
deriving DecidableEq, Repr, Inhabited

/-- Directory states (07 Table 7.1). -/
inductive DirPhase where
  | shared | pennant | owned | orphaned | stale
deriving DecidableEq, Repr, Inhabited

/-- A directory entry (07 Tables 7.1 and 7.2); `sharers` holds word 1 as it reads. -/
structure DirEntry where
  valid : Bool := false
  phase : DirPhase := .shared
  busy : Bool := false
  held : Bool := false
  line : Nat := 0
  holder : Nat := 0
  coarse : Bool := false
  sharers : BitVec 64 := 0
deriving DecidableEq, Repr, Inhabited

/-- Why snoops of one line were sent. -/
inductive TxnCause where
  | request (id unit : Nat)
  | recallFor (id : Nat)
  | revoke (entry : Nat)
  | detach (stall : Nat)
  | orphaning
deriving DecidableEq, Repr, Inhabited

/-- Snoops of one line and what they are for (R142 to R151). `waiting`: a recall whose line another request's snoops keep BUSY
(R145); `aborted`: its request ended meanwhile, or a revoke's recall met SNOOP_TIMEOUT; `spared`: the requester, a holder that is not
snooped; `hseq`: a recall's dirty line, written and not yet acknowledged by the partner (R138). -/
structure Txn where
  id : Nat
  line : Nat
  offset : Nat
  cause : TxnCause
  mod : Nat
  aborted : Bool
  waiting : Bool
  spared : Option Nat := none
  hseq : Option Nat := none
deriving DecidableEq, Repr, Inhabited

/-- A SNOOP outstanding (R147): `retry` after an answer RETRY_BUSY, `expired` once SNOOP_TIMEOUT has passed. -/
structure Snoop where
  tag : Nat
  stall : Nat
  slice : Nat
  line : Nat
  mod : Nat
  txn : Nat
  answered : Bool
  present : Bool
  dirty : Bool
  dead : Bool
  retry : Bool
  expired : Bool
  data : Line
deriving DecidableEq, Repr, Inhabited

/-- Region states (08 Table 8.5). -/
inductive RegionPhase where
  | free | armed | closed
deriving DecidableEq, Repr, Inhabited

/-- Accumulation region entry (08 Table 8.5) with its four sticky flags (R190). -/
structure Region where
  phase : RegionPhase := .free
  barrow : Nat := 0
  inFmt : Nat := 0
  exact : Bool := false
  anchor : Int := 0
  expect : Nat := 0
  base : Nat := 0
  count : Nat := 0
  elems : Nat := 0
  adds : Nat := 0
  flags : BitVec 4 := 0
  byCount : Bool := false
deriving DecidableEq, Repr, Inhabited

/-- A packet waiting in a slice for its shaper, gate or turn (R250), or at a crossbar port (R264); `paid` once the OUT shaper has
been charged for it (R246). -/
structure EgPkt where
  stall : Nat
  tc : Nat
  origin : Origin
  msg : TxMsg
  paid : Bool := false
deriving DecidableEq, Repr, Inhabited

/-- An operation waiting at a slice pipeline (R260): who asked, and for how many grants it has waited. -/
structure PipeOp where
  source : Nat
  what : Nat
  wait : Nat
deriving DecidableEq, Repr, Inhabited

/-- The slice pipeline of 12 R260 to R262: the queues of levels 1 to 6, the wait counts of levels 4 to 6, the cc count and
the cc's of recent grants of levels 1 and 2. -/
structure Pipe where
  q1 : List PipeOp := []
  q2 : List PipeOp := []
  q3 : List PipeOp := []
  q4 : List PipeOp := []
  q5 : List PipeOp := []
  q6 : List PipeOp := []
  wait4 : Nat := 0
  wait5 : Nat := 0
  wait6 : Nat := 0
  ptr5 : Nat := 0
  ptr6 : Nat := 0
  cc : Nat := 0
  grants1 : List Nat := []
  grants2 : List Nat := []
  promote4 : Bool := false
  promote5 : Bool := false
  promote6 : Bool := false
deriving DecidableEq, Repr, Inhabited

/-- An error table entry (06 Tables 6.2 and 6.3); KIND 0 CORRECTED, 1 REMAPPED, 2 UNCORRECTABLE, 3 REMAP_FULL. -/
structure ErrEntry where
  valid : Bool := false
  kind : Nat := 0
  unit : Nat := 0
  group : Nat := 0
  host : Nat := 0
  tenant : Nat := 0
  count : Nat := 0
  channel : Nat := 0
  loc : Nat := 0
  time : BitVec 128 := 0
deriving DecidableEq, Repr, Inhabited

/-- A snapshot range registered for a launch (R177): byte offsets on the board, first and one past the last. -/
structure SnapRange where
  barrow : Nat
  lo : Nat
  hi : Nat
deriving DecidableEq, Repr, Inhabited

/-- A line of the snapshot buffer (R177): the line's board offset / 64 and the old line, with the launch it serves. -/
structure SnapLine where
  barrow : Nat
  line : Nat
  old : SLine
deriving DecidableEq, Repr, Inhabited

/-- Parking of a slice (18 R371). -/
inductive ParkPhase where
  | running | parking | parked | waking
deriving DecidableEq, Repr, Inhabited

/-- One logical slice; `waitFills` are the fills whose victim is EVICTING (05 R100): frame, region, pinned, found by the walk. -/
structure SliceSt where
  inService : Bool := true
  stopped : Bool := false
  epoch : BitVec 8 := 0
  physical : Nat := 0
  tracker : List Trk := []
  nextId : Nat := 0
  pipe : Pipe := {}
  frames : Tbl FrameEntry := []
  cands : List Candidate := []
  setPtr : Tbl Nat := []
  walk : Nat := 0
  waitFills : List (Nat × Nat × Bool × Bool) := []
  pinOver : Nat := 0
  pinned : List Nat := []
  dir : Tbl DirEntry := []
  dirPtr : Tbl Nat := []
  dirTold : Tbl Nat := []
  cohPtr : Nat := 0
  txns : List Txn := []
  regions : Tbl Region := []
  program : Tbl (BitVec 512) := []
  barrowPtr : Nat := 0
  keeps : List Nat := []
  treePtr : Nat := 0
  snapRanges : List SnapRange := []
  snapLines : List SnapLine := []
  errors : Tbl ErrEntry := []
  checkerSram : Tbl (BitVec 32 × BitVec 7 × BitVec 20) := []
  egress : List EgPkt := []
  wheel : List (Nat × Nat) := []
  eligible : List Nat := []
  parkedFlows : List Nat := []
  flowPtr : Nat := 0
  park : ParkPhase := .running
  wakeWanted : Bool := false
  passRatio : Nat := 16
deriving DecidableEq, Repr, Inhabited

/-! ### DRAM channels (05, 06) -/

/-- A bank of a channel (R105, R106): its queue (line address, write, level), open row, consecutive hits (DESIGN CHOICE, log 43), and
the activations since its last refresh (R110). -/
structure Bank where
  queue : List (Nat × Bool × Nat) := []
  openRow : Option Nat := none
  hits : Nat := 0
  acts : Nat := 0
deriving DecidableEq, Repr, Inhabited

/-- Channel states (05 Table 5.8). -/
inductive ChanPhase where
  | empty | training | inService | failed | retired
deriving DecidableEq, Repr, Inhabited

/-- A row repair under way (R127): the row and its 128 staged lines by channel line address. -/
structure RowRepair where
  row : Nat
  lines : List (Nat × SLine)
deriving DecidableEq, Repr, Inhabited

/-- A DRAM maintenance command (05 R108, R110): same-bank refresh of a rank's bank index, all-bank refresh of a rank, refresh management
of a bank, a row repair, or a remap copy. -/
inductive MaintOp where
  | sameBank (rank index : Nat)
  | allBank (rank : Nat)
  | manage (bank : Nat)
  | repairRow (row : Nat)
  | remap (line : Nat)
deriving DecidableEq, Repr, Inhabited

/-- One board channel (0–31), or the half-stack of logical slice `n` (32 + n), whose lines are frame × 32768 + line. `delays` are the read
and write delays of its byte lanes as trained (05 R109); `maint` waits at level 1 (R108); `nextRefresh` is the time of the next interval;
`ecsDue` since its scrub gate opened (06 R124); `hard` are the errors that lines show again once rewritten (06 R125, R126), `candidate` a
REMAP_FULL finding that may retire the channel (R128). -/
structure ChanSt where
  phase : ChanPhase := .empty
  stopped : Bool := false
  capacity : Nat := 0
  readEye : Nat := 0
  writeEye : Nat := 0
  delays : List (Nat × Nat) := []
  part : List Byte := []
  mem : Tbl SLine := []
  banks : Tbl Bank := []
  bankPtr : Nat := 0
  wbuf : List Nat := []
  draining : Bool := false
  refreshes : Nat := 0
  nextRefresh : Nat := 0
  maint : List MaintOp := []
  hot : Bool := false
  scrubPos : Nat := 0
  scrubPasses : Nat := 0
  ecsReads : Nat := 0
  ecsDue : Bool := false
  ecsCount : Nat := 0
  hard : Tbl (BitVec 640) := []
  candidate : Bool := false
  remap : List (Nat × SLine) := []
  rowPtr : Nat := 0
  softRepairs : Nat := 0
  usedGroups : List Nat := []
  repair : Option RowRepair := none
  flashRows : List Nat := []
  ueTimes : List Nat := []
deriving DecidableEq, Repr, Inhabited

/-! ### Barrows (08) -/

/-- How a launch was asked for (R159, R161). -/
inductive LaunchKind where
  | doorbell | trigger | schedule
deriving DecidableEq, Repr, Inhabited

/-- A queued launch (R155), with the barrow's fields, DESC_BUDGET and ACTIVE_PROGRAMS as they stood when it was accepted (R182) (DEDUCED,
log 53). -/
structure Launch where
  seq : Nat
  kind : LaunchKind
  host : Nat
  params : List Nat
  base : Nat
  last : Nat
  notify : Bool
  cqOrder : Nat
  cqBase : Nat
  budget : Nat
  gang : Bool
  tenant : Nat
  owner : Nat
  active : Nat
deriving DecidableEq, Repr, Inhabited

/-- Completion causes (08 Table 8.10). -/
inductive Cause where
  | none | operand | malformed | poisoned | storeError | revoked | keyRetiring | budget | snapFull | regionFull
  | memberLost | aborted
deriving DecidableEq, Repr, Inhabited

/-- The norm register (R203): its anchor once a FINALISE_NORM has run, and the accumulator pattern. -/
structure Norm where
  anchor : Option Int := none
  acc : BitVec 128 := 0
deriving DecidableEq, Repr, Inhabited

/-- A descriptor begun in a member (R167, R179): the pages of the driving operand still to be processed, the granules its operands touch,
whether a line without data was met, and the hyperparameter record as it was read. -/
structure DescWork where
  pages : List Nat := []
  grans : List Nat := []
  bad : Bool := false
  recBad : Bool := false
  record : Nat := 0
deriving DecidableEq, Repr, Inhabited

/-- One member of a running launch (R162 to R179): `res0` and `res1` are its last COMPARE's results (`res1` none for all
ones), `hseq` its last forwarded write. -/
structure Member where
  slice : Nat
  row : Nat
  iters : Tbl Nat := []
  flags : BitVec 7 := 0
  norm : Norm := {}
  syncNorm : Option Norm := none
  ended : Bool := false
  atSync : Option Nat := none
  status : Status := .ok
  cause : Cause := .none
  lastRow : Nat := 0
  rows : Nat := 0
  res0 : Nat := 0
  res1 : Option Nat := none
  hseq : Option Nat := none
  work : Option DescWork := none
deriving DecidableEq, Repr, Inhabited

/-- A running launch; `first` is the row at which the first failing member stopped, and why. -/
structure Running where
  launch : Launch
  epoch : BitVec 8
  step : Nat
  phase : Nat
  seed : BitVec 64
  contrib : Option Nat
  first : Option (Nat × Cause)
  members : List Member
deriving DecidableEq, Repr, Inhabited

/-- A barrow entry (08 Table 8.1) with its queue, standing parameters and running launch. -/
structure Barrow where
  epoch : BitVec 8 := 0
  tenant : Nat := 0
  acl : Nat := 0
  owner : Nat := 0
  base : Nat := 0
  last : Nat := 0
  gang : Bool := false
  trigRegion : Bool := false
  trigSchedule : Bool := false
  notify : Bool := false
  enable : Bool := false
  lostSlice : Bool := false
  cqOrder : Nat := 0
  cqBase : Nat := 0
  launchSeq : Nat := 0
  doneSeq : Nat := 0
  queue : List Launch := []
  running : Option Running := none
  standing : List Nat := []
  lastTrigger : Option Nat := none
  advances : List Nat := []
  regionDone : Bool := false
deriving DecidableEq, Repr, Inhabited

/-! ### Bunting (11) -/

/-- What has become of a member of a bunting operation (R234 to R239). -/
inductive BuntMember where
  | active | delivered | failed (st : Status) | pruned
deriving DecidableEq, Repr, Inhabited

/-- A member's progress: the pages it has missed, by slice, while it is in catch-up there, and whether its notice is sent. -/
structure BuntMem where
  stall : Nat
  fate : BuntMember
  missed : List (Nat × Nat)
  noticed : Bool
  poison : Nat
deriving DecidableEq, Repr, Inhabited

/-- A PUSH outstanding (R236): page none for the notice; its request, how many of its lines are zeroed poison, and whether it has been
sent once. -/
structure Push where
  tag : Nat
  tree : Nat
  slice : Nat
  stall : Nat
  page : Option Nat
  req : BoardReq
  poison : Nat
  waiting : Bool
  sent : Bool := false
deriving DecidableEq, Repr, Inhabited

/-- A running bunting operation; `pages` counts the pages of its main pass that each slice has read. -/
structure BuntOp where
  step : Nat
  phase : Nat
  stop : Option Status
  mems : List BuntMem
  members : Nat
  fenced : Nat
  failedCount : Nat
  firstFail : Option Status
  denied : Nat
  absent : Nat
  dropped : Nat
  catchup : Nat
  poison : Nat
  pages : Tbl Nat
deriving DecidableEq, Repr, Inhabited

/-- Tree states (11 Table 11.1). -/
inductive TreePhase where
  | idle | waiting | running
deriving DecidableEq, Repr, Inhabited

/-- A bunting tree (11 Table 11.1) with its member row. -/
structure Tree where
  valid : Bool := false
  onLaunch : Bool := false
  barrow : Nat := 0
  tenant : Nat := 0
  tc : Nat := 0
  cqOrder : Nat := 0
  notify : Bool := false
  lines : Nat := 1
  src : Nat := 0
  dest : Nat := 0
  cqBase : Nat := 0
  opSeq : Nat := 0
  phase : TreePhase := .idle
  member : BitVec 1024 := 0
  op : Option BuntOp := none
  fromLaunch : Option (Status × Nat × Nat) := none
deriving DecidableEq, Repr, Inhabited

/-! ### Step and phase time, gates (10, 12) -/

/-- TIME_STATE (R212). -/
inductive TimePhase where
  | free | acquiring | locked | holdover
deriving DecidableEq, Repr, Inhabited

/-- A MARK held until its APPLY_AT (R216): value STEP × 2^16 + PHASE, and the time in ns. -/
structure HeldMark where
  value : Nat
  applyAt : Nat
deriving DecidableEq, Repr, Inhabited

/-- A schedule entry (10 Tables 10.3 and 10.4). -/
structure Sched where
  valid : Bool := false
  action : Nat := 0
  epoch : Nat := 0
  step : Nat := 0
  phase : Nat := 0
  rep : Nat := 0
  slices : BitVec 8 := 0
  target : Nat := 0
deriving DecidableEq, Repr, Inhabited

/-- A step-keyed gate list entry (12 Table 12.2). -/
structure GateEntry where
  valid : Bool := false
  phase : Nat := 0
  tcOpen : BitVec 8 := 0xFF
  migrate : Nat := 0
  scrub : Nat := 0
deriving DecidableEq, Repr, Inhabited

/-- A fall-back gate list entry (12 Table 12.3). -/
structure FbEntry where
  valid : Bool := false
  duration : Nat := 1000000
  tcOpen : BitVec 8 := 0xFF
  migrate : Bool := false
  scrub : Bool := false
deriving DecidableEq, Repr, Inhabited

/-- The clocks of 10: the raw 1 GHz count, AO_TIME as ns of the PTP timescale with its 2^-32 ns fraction and rate, the
servo, and step time with the count at its last mark cycle. -/
structure TimeSt where
  ticks : Nat := 0
  ao : Nat := 0
  frac : Nat := 0
  rate : Int := 0
  phase : TimePhase := .free
  goodRun : Nat := 0
  badRun : Nat := 0
  lastOffset : Int := 0
  linkOffset : Tbl Int := []
  master : Option (Nat × PtpDataset) := none
  sync : Option (Nat × Nat × Int) := none
  t1t2 : Option (Nat × Nat × Int) := none
  delayReq : Option (Nat × Nat) := none
  delaySeq : Nat := 0
  step : Nat := 0
  mphase : Nat := 0
  heldMarks : List HeldMark := []
  fallback : Bool := false
  lastMark : Option Nat := none
  schedule : Tbl Sched := []
  schedStaged : Tbl Sched := []
deriving DecidableEq, Repr, Inhabited

/-- The gates of 12 R252 to R258; `closing` are the classes that the first held MARK closes, and when, `closingMig` the slices whose
migration gate it closes then (05 R101). -/
structure GateSt where
  lists : Tbl GateEntry := []
  fbStage : Tbl FbEntry := []
  fbList : Tbl FbEntry := []
  fbOffset : Nat := 0
  fbIndex : Nat := 0
  tcOpen : BitVec 8 := 0xFF
  migrate : BitVec 8 := 0
  scrub : BitVec 8 := 0
  schedMigrate : BitVec 8 := 0
  schedScrub : BitVec 8 := 0
  closing : Option (BitVec 8 × Nat) := none
  closingMig : BitVec 8 := 0
deriving DecidableEq, Repr, Inhabited

/-! ### Pairs and moves (13) -/

/-- Pair states (13 Table 13.5). -/
inductive PairPhase where
  | unpaired | syncing | paired | solo | takingOver | servingBoth | relinquishing | relinquished
deriving DecidableEq, Repr, Inhabited

/-- A sequenced halyard packet, kept until MIRROR_ACK covers it (R271). -/
structure HalOut where
  hseq : Nat
  kind : Nat
  sliceEpoch : BitVec 8
  slot : Nat
  keyEpoch : BitVec 8
  offset : Nat
  poisoned : Bool
  cleared : Bool
  data : List Line
  onWire : Bool
deriving DecidableEq, Repr, Inhabited

/-- The image of the partner (R275) and the staged epoch (R276). -/
structure PairImage where
  pitch : Tbl PitchEntry := []
  acl : Tbl AclEntry := []
  stalls : Tbl StallSt := []
  dir : Tbl DirEntry := []
  keys : Tbl (Nat × Nat) := []
  staged : List Line := []
  committed : List Line := []
  epochNo : Nat := 0
deriving DecidableEq, Repr, Inhabited

/-- A relinquish under way (R278): reason, the number given up, whether it is a hand-back, whether its 20 µs have passed and
STREAM_END is sent, and what follows it: a reset (20 R389), or the rails going off (18 R364). -/
structure Relinquish where
  reason : Nat
  number : Nat
  handback : Bool
  expired : Bool
  ended : Bool
  thenReset : Bool
  thenRails : Bool
deriving DecidableEq, Repr, Inhabited

/-- A move-in (R287). -/
structure MoveIn where
  source : Nat
  first : Nat
  count : Nat
  tenant : Nat
  slot : Nat
  tag : Nat
  next : Nat
  ahead : List HalPkt
  applied : Nat
  poisoned : Nat
  finalHseq : Option Nat
deriving DecidableEq, Repr, Inhabited

/-- A move-out (R288): lines are numbered from the first granule's; `sent` holds the packets not acknowledged, by HSEQ and
the line after their last. -/
structure MoveOut where
  link : Nat
  first : Nat
  count : Nat
  dest : Nat
  epoch : Nat
  nextLine : Nat
  nextHseq : Nat
  acked : Nat
  lines : Nat
  poisoned : Nat
  sent : List (Nat × Nat)
  endSent : Bool
deriving DecidableEq, Repr, Inhabited

/-- Pairing and moves (13): `image` is the image of the partner, `handed` what a rejoin brings of the board's own number,
`told` the partner's state and W last reported as a mismatch, `activeSide` a rejoin that this board runs; `presentSince` and
`halDownSince` are when PAIR_PRESENT_N went high and when the last halyard link went down (R279). -/
structure PairSt where
  phase : PairPhase := .unpaired
  enable : Bool := false
  partnerNo : Nat := 0xFF
  window : Nat := 0
  epoch : BitVec 8 := 0
  hseqNext : Nat := 0
  hseqAcked : Option Nat := none
  applyNext : Nat := 0
  sent : List HalOut := []
  rxAhead : List HalPkt := []
  nacked : Option Nat := none
  image : PairImage := {}
  handed : PairImage := {}
  partnerPhase : Nat := 0
  partnerSlices : Nat := 0
  partnerEpochs : BitVec 64 := 0
  partnerW : Nat := 0
  heartbeatSent : Bool := false
  told : Option (Nat × Nat) := none
  partnerReset : Bool := false
  resync : List Nat := []
  copying : Option Nat := none
  copyHseq : Option Nat := none
  activeSide : Bool := false
  relinq : Option Relinquish := none
  takingNumber : Nat := 0
  handbackTake : Bool := false
  takenOn : Bool := false
  takeReason : Nat := 0
  streamEnd : Option Nat := none
  finalHseq : Option Nat := none
  presentHigh : Bool := false
  presentSince : Nat := 0
  halDownSince : Nat := 0
  epochDeferred : Bool := false
  epochCount : Nat := 0
  changedTags : List (Nat × Nat) := []
  changedRows : List (Nat × Nat) := []
  refused : Nat := 0
  halPtr : Nat := 0
  moveEpoch : BitVec 8 := 0
  moveAdvances : List Nat := []
  pairAdvances : List Nat := []
  moveIn : Option MoveIn := none
  moveOut : Option MoveOut := none
deriving DecidableEq, Repr, Inhabited

/-! ### Repair and faults (14) -/

/-- A retirement under way (14 Table 14.2): slice or channel, the pitches whose revoke is still to issue, and whether its
revokes have been issued. -/
structure Retire where
  channel : Bool
  unit : Nat
  todo : List Nat
  issued : Nat
deriving DecidableEq, Repr, Inhabited

/-- A fault log entry (14 Table 14.5). -/
structure FaultEntry where
  valid : Bool := false
  action : Nat := 0
  cls : Nat := 0
  unit : Nat := 0
  repair : Nat := 0
  seq : Nat := 0
  detail : Nat := 0
  time : BitVec 128 := 0
deriving DecidableEq, Repr, Inhabited

/-- An error held in a word of an SRAM structure (06 R120 to R123, R129): the unit code of Table 6.1; the slice of a slice's structure, the
link of a replay buffer, or 8; the word; `double` when SEC-DED cannot correct it, `hard` when it comes back after a rewrite; whether it
has been corrected, and rewritten since. No command of the table makes one: a state may hold any. -/
structure SramErr where
  unit : Nat
  place : Nat
  word : Nat
  double : Bool := false
  hard : Bool := false
  seen : Bool := false
  rewritten : Bool := false
deriving DecidableEq, Repr, Inhabited

/-- Repair state (14); `sram` the errors that SRAM words hold (06 R123), `spareRows` how many spare rows each SRAM has used, and `movedRows`
the words whose row has moved to one (06 R129). -/
structure RepairSt where
  impaired : Bool := false
  foldSlice : Option Nat := none
  foldChannel : Option Nat := none
  busyAtFold : List Nat := []
  moved : Tbl Nat := []
  used : Bool := false
  retiring : Option Retire := none
  retiredUnits : Nat := 0
  clearAtReset : Bool := false
  faultLog : Tbl FaultEntry := []
  faultSeq : Nat := 0
  laneSubs : List (Nat × Nat) := []
  coresUp : Bool := true
  hostPortDead : Bool := false
  commonErrors : Tbl ErrEntry := []
  sram : List SramErr := []
  spareRows : Tbl Nat := []
  movedRows : List (Nat × Nat) := []
deriving DecidableEq, Repr, Inhabited

/-! ### Security (15) -/

/-- Key slot states (15 Table 15.3). -/
inductive KeyPhase where
  | empty | bound | keyed | retiring | zeroised
deriving DecidableEq, Repr, Inhabited

/-- A key slot with its key store content (15 Table 15.3, R306). -/
structure KeySlot where
  phase : KeyPhase := .empty
  importOn : Bool := false
  generated : Bool := false
  epoch : BitVec 8 := 0
  tenant : Nat := 0
  refs : Nat := 0
  kcv : BitVec 24 := 0
  key1 : BitVec 256 := 0
  key2 : BitVec 256 := 0
  advances : List Nat := []
deriving DecidableEq, Repr, Inhabited

/-- Tenant states (15 Table 15.7). -/
inductive TenantPhase where
  | absent | admitted | removing
deriving DecidableEq, Repr, Inhabited

/-- A tenant (15 Table 15.7) and how far its removal has got; `hseq` is the last record of it that the partner has to acknowledge. -/
structure TenantSt where
  phase : TenantPhase := .absent
  root : Digest := 0
  clearing : Bool := false
  cleared : Nat := 0
  hseq : Option Nat := none
deriving DecidableEq, Repr, Inhabited

/-- A ledger entry (15 Table 15.10). -/
structure LedgerEntry where
  seq : Nat := 0
  kind : Nat := 0
  result : Nat := 0
  principal : Nat := 0
  transport : Nat := 0
  source : Nat := 0
  tenant : Nat := 0
  time : BitVec 128 := 0
  step : Nat := 0
  body : BitVec 512 := 0
  chain : Digest := 0
  sig : BitVec 768 := 0
deriving DecidableEq, Repr, Inhabited

/-- An SPDM connection (R307). -/
structure SpdmConn where
  version : Nat := 0
  gotVersion : Bool := false
  gotCaps : Bool := false
  algs : Bool := false
  digests : Bool := false
  challenged : Bool := false
  handshake : Bool := false
  mutualAuth : Bool := false
  established : Bool := false
  root : Digest := 0
  cert : Digest := 0
  measured : BitVec 5 := 0
  keyGen : Nat := 0
  encap : Nat := 0
  heartbeats : Nat := 0
deriving DecidableEq, Repr, Inhabited

/-- An answer of the SPDM responder: connection, request code, whether it is an ERROR, signature and content digest. -/
structure SpdmResp where
  conn : Nat
  code : Nat
  error : Bool
  value : Nat
  digests : List Digest
  signature : Option (BitVec 768)
deriving DecidableEq, Repr, Inhabited

/-- Security (15). -/
structure SecSt where
  keys : Tbl KeySlot := []
  tenants : Tbl TenantSt := []
  conf : Bool := false
  confSource : BitVec 3 := 0
  buffer : List LedgerEntry := []
  ring : Tbl LedgerEntry := []
  nextSeq : Nat := 0
  head : Option Nat := none
  chain : Digest := 0
  lost : Nat := 0
  lostPending : Nat := 0
  flashSeqWord : Option Nat := none
  spdm : Tbl SpdmConn := []
  spdmOut : List SpdmResp := []
  draws : Nat := 0
  sigs : Nat := 0
deriving DecidableEq, Repr, Inhabited

/-! ### Management (16) -/

/-- A principal table row (16 Table 16.3). -/
structure Principal where
  valid : Bool := false
  role : Nat := 0
  inband : Bool := false
  host : Nat := 0
  root : Digest := 0
deriving DecidableEq, Repr, Inhabited

/-- Row 0 of the fall-back list is valid by default, with every class open and both slice gates closed (12 Table 12.3). -/
def fbDefault : Tbl FbEntry := [(0, { valid := true })]

/-- The content of a profile (R339): scalar entries and the persistent windows. -/
structure ProfileData where
  dict : Tbl Nat := []
  acl : Tbl AclEntry := []
  program : Tbl (Tbl (BitVec 512)) := []
  barrows : Tbl Nat := []
  standing : Tbl (List Nat) := []
  seeds : Tbl (BitVec 64) := []
  schedule : Tbl Sched := []
  trees : Tbl Nat := []
  members : Tbl (BitVec 1024) := []
  shapers : Tbl Shaper := []
  lists : Tbl GateEntry := []
  fbStage : Tbl FbEntry := fbDefault
deriving DecidableEq, Repr, Inhabited

/-- One of the two copies of a profile (R339). -/
structure ProfileCopy where
  present : Bool := false
  seq : Nat := 0
  crcOk : Bool := true
  data : ProfileData := {}
deriving DecidableEq, Repr, Inhabited

/-- A profile (R339). -/
structure Profile where
  a : ProfileCopy := {}
  b : ProfileCopy := {}
  crcFailed : Bool := false
  defaulted : Nat := 0
deriving DecidableEq, Repr, Inhabited

/-- The board record area (R339): scalars, BROKER_ROOTs, principals. -/
structure BoardRecords where
  dict : Tbl Nat := []
  roots : Tbl Digest := []
  principals : Tbl Principal := []
deriving DecidableEq, Repr, Inhabited

/-- Management (16): `kept` responses by session, `active` and `selPins`, the profiles and records in flash, `dirty` the keys of
persistent entries written and not yet in flash, `switching` the target, force flag and match entry of a switch. -/
structure MgmtSt where
  principals : Tbl Principal := []
  kept : Tbl (List MgmtResp) := []
  active : Nat := 0
  selPins : Nat := 0
  profiles : Tbl Profile := []
  records : BoardRecords := {}
  dirty : List Nat := []
  switching : Option (Nat × Bool) := none
deriving DecidableEq, Repr, Inhabited

/-! ### Tallies, hoist, crier, trace (17) -/

/-- A crier record (17 Table 17.4). -/
structure CrierRec where
  seq : Nat := 0
  code : Nat := 0
  hostCopy : Bool := false
  unit : Nat := 0
  time : BitVec 128 := 0
  detail : BitVec 256 := 0
deriving DecidableEq, Repr, Inhabited

/-- A CRIER_NOTIFY sent and not yet answered (R354). -/
structure CrierOut where
  tag : Nat
  stall : Nat
  copy : CrierCopy
deriving DecidableEq, Repr, Inhabited

/-- One link's registers in a hoist snapshot (17 Table 17.3). -/
structure HoistLink where
  status : Nat
  occupancy : Nat
  u : Nat
  next : BitVec 16
  ack : BitVec 16
deriving DecidableEq, Repr, Inhabited

/-- One stall's registers in a hoist snapshot. -/
structure HoistStall where
  stall : Nat
  word0 : Nat
  creditIn : Int
  creditOut : Int
  next : BitVec 16
  held : Nat
  tracker : List Nat
deriving DecidableEq, Repr, Inhabited

/-- One slice's registers in a hoist snapshot. -/
structure HoistSlice where
  tracker : Nat
  entryQueue : Nat
  levels : List Nat
  queues : List Nat
  frames : List Nat
  regions : List Nat
deriving DecidableEq, Repr, Inhabited

/-- The hoist snapshot (R350, 17 Table 17.3). -/
structure Snapshot where
  seq : Nat := 0
  sources : Nat := 0
  step : Nat := 0
  phase : Nat := 0
  time : BitVec 128 := 0
  tallies : Tbl (BitVec 64) := []
  resets : List (Nat × BitVec 64) := []
  links : List HoistLink := []
  stalls : List HoistStall := []
  xbar : List (Nat × Nat) := []
  slices : List HoistSlice := []
  barrows : List (Nat × Nat) := []
deriving DecidableEq, Repr, Inhabited

/-- A trace record (R356). -/
structure TraceRec where
  target : BitVec 64 := 0
  kind : Nat := 0
  ns : Nat := 0
deriving DecidableEq, Repr, Inhabited

/-- Instruments (17). -/
structure ObsSt where
  tally : Tbl (BitVec 64) := []
  resetNow : List (Nat × BitVec 64) := []
  ring : Tbl CrierRec := []
  head : Nat := 0
  copies : List CrierOut := []
  held : Bool := false
  hoistSeq : Nat := 0
  sources : Nat := 0
  snap : Snapshot := {}
  missed : Nat := 0
  ignored : Nat := 0
  lastHoist : Option Nat := none
  hoistOutUntil : Nat := 0
  trace : Tbl TraceRec := []
  traceHead : Tbl Nat := []
  frozen : Bool := false
deriving DecidableEq, Repr, Inhabited

/-! ### Power, clocks, reset, firmware (18 to 21) -/

/-- What the core clock runs from and does (R377, R384). -/
inductive CoreSource where
  | corePll | alwaysOn
deriving DecidableEq, Repr, Inhabited

/-- Core PLL states (19 Table 19.3). -/
inductive PllPhase where
  | locked | coasting | relocking
deriving DecidableEq, Repr, Inhabited

/-- A B0/B1 transition (R369): ramp to 1.6 GHz, request for 0.70 V, request for 0.75 V, ramp to 2.0 GHz. -/
inductive PowerStep where
  | none | rampDown | lowerVolt | raiseVolt | rampUp | restoreVolt
deriving DecidableEq, Repr, Inhabited

/-- Power (18) and thermal (21) state. `railsOn` has bit n for order n of Table 18.1; `railMv` and `railDa` are the last
telemetry of each rail, `faulted` the rails that report a fault; `dark` holds from the rails' power-down until RESET_N or a
power cycle. -/
structure PowerSt where
  inputOn : Bool := true
  precharged : Bool := true
  warning : Bool := false
  railsOn : BitVec 16 := 0xFFFF
  railMv : Tbl Nat := []
  railDa : Tbl Nat := []
  faulted : List Nat := []
  feedsTripped : BitVec 32 := 0
  b1 : Bool := false
  step : PowerStep := .none
  heldWant : Option Bool := none
  thermWarn : Bool := false
  thermFault : Bool := false
  die : Nat := 0
  hbm : Nat := 0
  dimm : Nat := 0
  dark : Bool := false
deriving DecidableEq, Repr, Inhabited

/-- Clocks (19). -/
structure ClockSt where
  pll : PllPhase := .locked
  failed : BitVec 2 := 0
  refFailed : Bool := false
  holdover : Bool := false
  source : CoreSource := .corePll
  d : Nat := 16
  target : Nat := 16
  inUse : Nat := 0
  freqRun : Option Nat := none
  stretch : Tbl Nat := []
deriving DecidableEq, Repr, Inhabited

/-- Stages of READY_STATE (20 Table 20.4). -/
inductive Stage where
  | reset | rom | firmware | memory | ready | recovery
deriving DecidableEq, Repr, Inhabited

/-- How far the reset sequence of 20 Table 20.3 has got. -/
inductive BootStep where
  | inReset | released | fused | tested | booted | loaded | initialised | repaired | trained | ready
deriving DecidableEq, Repr, Inhabited

/-- A firmware slot (R394): its status of Table 20.4, its image, and how often the image has been written. -/
structure FwSlot where
  status : Nat := 0
  version : Nat := 0
  image : Tbl (BitVec 32768) := []
deriving DecidableEq, Repr, Inhabited

/-- Reset, bring-up, firmware and the pair-drive pin (20, 21). -/
structure BootSt where
  stage : Stage := .reset
  step : BootStep := .inReset
  profileDefaulted : Bool := false
  fallbackSlot : Bool := false
  chainReset : Bool := false
  repairsDeferred : Bool := false
  noReference : Bool := false
  cause : Nat := 0
  bootCount : Nat := 0
  fw0 : FwSlot := {}
  fw1 : FwSlot := {}
  booted : Nat := 0
  bootSlot : Nat := 0
  fwVerifying : Bool := false
  selfTestFailed : BitVec 8 := 0
  resetAsked : Bool := false
  pairDriveReleased : Bool := true
deriving DecidableEq, Repr, Inhabited

/-- The checker registers and a raw operation under way (R131). -/
structure CheckerSt where
  data : BitVec 512 := 0
  check : BitVec 320 := 0
  running : Option (Nat × Nat) := none
deriving DecidableEq, Repr, Inhabited

/-- Packets waiting at the crossbar's ports, with their pointers (R264): (source, slice or link payload); sources 0 to 47 of a slice's
input are links with a tracker entry, 48 to 55 slices with a barrow; the host port is source 8 of a link's output. `noLink` holds the board's own requests whose host has no live link, `sent` the slices and stalls whose
packets have left in the present cc (R251). -/
structure XbarSt where
  inWait : Tbl (List (Nat × Nat)) := []
  inPtr : Tbl Nat := []
  outWait : Tbl (List (Nat × EgPkt)) := []
  outPtr : Tbl Nat := []
  noLink : List EgPkt := []
  sent : List (Nat × Nat) := []
deriving DecidableEq, Repr, Inhabited

/-- No command stops the machine: every row of the table has an effect the spec gives, so there is no fault. Nothing
raises one. -/
inductive Fault where
deriving DecidableEq, Repr

/-- Why a command has no meaning. -/
inductive Refusal where
  /-- A command not modelled yet; raised by an arm of `exec` alone, and safe: the machine stops. -/
  | notModelled (mnemonic : String)
deriving DecidableEq, Repr

/-- The state of the board and the queue of the commands waiting. -/
structure State where
  pending : List Instr
  dict : Tbl Nat
  links : Tbl LinkSt
  stalls : Tbl StallSt
  shapers : Tbl Shaper
  pitch : PitchSt
  slices : Tbl SliceSt
  chans : Tbl ChanSt
  snoops : List Snoop
  nextTag : Nat
  barrows : Tbl Barrow
  seeds : Tbl (BitVec 64)
  trees : Tbl Tree
  pushes : List Push
  time : TimeSt
  gates : GateSt
  xbar : XbarSt
  checker : CheckerSt
  pair : PairSt
  repair : RepairSt
  sec : SecSt
  mgmt : MgmtSt
  obs : ObsSt
  power : PowerSt
  clock : ClockSt
  boot : BootSt
  orphanRun : Option (Nat × Nat)
  free : Nat
deriving DecidableEq, Repr

/-- Tenant 0 reads ADMITTED (15 Table 15.7). -/
def tenantsDefault : Tbl TenantSt := [(0, { phase := .admitted })]

/-- The machine right after reset (20 R387, Tables 20.1 and 20.4): stage RESET, every table empty, every entry at its
default (DESIGN CHOICE, log 1). -/
def State.reset : State where
  pending := []
  dict := []
  links := []
  stalls := []
  shapers := []
  pitch := {}
  slices := []
  chans := []
  snoops := []
  nextTag := 0
  barrows := []
  seeds := []
  trees := []
  pushes := []
  time := {}
  gates := { fbStage := fbDefault, fbList := fbDefault }
  xbar := {}
  checker := {}
  pair := {}
  repair := {}
  sec := { tenants := tenantsDefault }
  mgmt := {}
  obs := {}
  power := {}
  clock := {}
  boot := {}
  orphanRun := none
  free := 0

end Sys2Proof.Machine
end

