-- ==== Sys2Proof/Machine/Dict.lean ====
section
/-! DEFINITION. The object dictionary (16): every entry's type, access, persistence, default and stated range, as the
entry tables of the chapters give them; reading and writing a single-valued entry that the board stores. -/

namespace Sys2Proof.Machine

/-- Entry types (R335, R338). -/
inductive EntryType where
  | uns8 | uns16 | uns32 | uns64 | int32 | bool | bits32 | string | window
deriving DecidableEq, Repr, Inhabited

/-- Access codes (R338): CONST, RO, RW, WO, RWP. -/
inductive Access where
  | const | ro | rw | wo | rwp
deriving DecidableEq, Repr, Inhabited

/-- One line of an entry table: index, first subindex and how many; persistence 0 none, 1 profile entry, 2 board record
(R338); the default; the stated range, in two parts where the meaning names a value apart; bytes of the value or of a row;
rows. -/
structure Entry where
  index : Nat
  sub : Nat
  subs : Nat
  ty : EntryType
  access : Access
  persist : Nat
  dflt : Nat
  lo : Nat
  hi : Nat
  lo2 : Nat
  hi2 : Nat
  bytes : Nat
  rows : Nat
deriving DecidableEq, Repr, Inhabited

/-- The entries of 0x1000 to 0x1FFF. -/
def entries1 : List Entry := [
  ⟨0x1000, 0, 1, .string, .const, 0, 0, 0, 0, 0, 0, 64, 0⟩ /- VENDOR -/,
  ⟨0x1001, 0, 1, .string, .const, 0, 0, 0, 0, 0, 0, 64, 0⟩ /- ORDER_CODE -/,
  ⟨0x1002, 0, 1, .string, .const, 0, 0, 0, 0, 0, 0, 64, 0⟩ /- BOARD_ISSUE -/,
  ⟨0x1003, 0, 1, .string, .const, 0, 0, 0, 0, 0, 0, 64, 0⟩ /- DIE_STEPPING -/,
  ⟨0x1004, 0, 1, .uns32, .ro, 0, 0, 0, 4294967295, 0, 4294967295, 4, 0⟩ /- FW_RELEASE -/,
  ⟨0x1005, 0, 1, .uns16, .ro, 0, 3, 0, 65535, 0, 65535, 2, 0⟩ /- SCHEMA_VERSION -/,
  ⟨0x1006, 0, 1, .bits32, .ro, 0, 7, 0, 4294967295, 0, 4294967295, 4, 0⟩ /- WAXON_VERSIONS -/,
  ⟨0x1007, 0, 1, .bits32, .ro, 0, 3, 0, 4294967295, 0, 4294967295, 4, 0⟩ /- DESCRIPTOR_SETS -/,
  ⟨0x1008, 0, 1, .bits32, .const, 0, 31, 0, 4294967295, 0, 4294967295, 4, 0⟩ /- FEATURES -/,
  ⟨0x1010, 0, 1, .bits32, .ro, 0, 255, 0, 4294967295, 0, 4294967295, 4, 0⟩ /- SLICES_ENABLED -/,
  ⟨0x1011, 0, 1, .uns8, .ro, 0, 0, 0, 255, 0, 255, 1, 0⟩ /- SPARE_SLICE -/,
  ⟨0x1012, 0, 1, .bits32, .ro, 0, 0, 0, 4294967295, 0, 4294967295, 4, 0⟩ /- SLICE_MAP -/,
  ⟨0x1013, 0, 1, .uns64, .ro, 0, 0, 0, 18446744073709551615, 0, 18446744073709551615, 8, 0⟩ /- FAR_CAPACITY -/,
  ⟨0x1014, 0, 1, .uns64, .ro, 0, 0, 0, 18446744073709551615, 0, 18446744073709551615, 8, 0⟩ /- NEAR_CAPACITY -/,
  ⟨0x1015, 0, 1, .uns64, .ro, 0, 0, 0, 18446744073709551615, 0, 18446744073709551615, 8, 0⟩ /- LINKS_LIVE -/,
  ⟨0x1016, 0, 1, .uns32, .ro, 0, 0, 0, 4294967295, 0, 4294967295, 4, 0⟩ /- READY_STATE -/,
  ⟨0x1017, 0, 1, .uns8, .ro, 0, 0, 0, 255, 0, 255, 1, 0⟩ /- RESET_CAUSE -/,
  ⟨0x1018, 0, 1, .uns32, .ro, 0, 0, 0, 4294967295, 0, 4294967295, 4, 0⟩ /- BOOT_COUNT -/,
  ⟨0x1019, 0, 1, .uns8, .wo, 0, 0, 1, 1, 1, 1, 1, 0⟩ /- RESET_BOARD -/,
  ⟨0x1020, 1, 1, .uns32, .rwp, 2, 0, 0, 4294967295, 0, 4294967295, 4, 0⟩ /- MGMT_IPV4 -/,
  ⟨0x1020, 2, 1, .uns8, .rwp, 2, 16, 8, 30, 8, 30, 1, 0⟩ /- MGMT_PREFIX -/,
  ⟨0x1020, 3, 1, .uns32, .rwp, 2, 0, 0, 4294967295, 0, 4294967295, 4, 0⟩ /- MGMT_GATEWAY -/,
  ⟨0x1020, 4, 1, .uns64, .const, 0, 0, 0, 18446744073709551615, 0, 18446744073709551615, 8, 0⟩ /- MGMT_MAC -/,
  ⟨0x1030, 0, 1, .window, .rwp, 2, 0, 0, 0, 0, 0, 64, 16⟩ /- PRINCIPAL_TABLE -/,
  ⟨0x1031, 0, 1, .uns8, .ro, 0, 0, 0, 255, 0, 255, 1, 0⟩ /- MGMT_SESSIONS -/,
  ⟨0x1040, 0, 1, .uns32, .ro, 0, 0, 0, 4294967295, 0, 4294967295, 4, 0⟩ /- FW_SLOT_STATUS -/,
  ⟨0x1041, 0, 1, .uns8, .ro, 0, 0, 0, 255, 0, 255, 1, 0⟩ /- FW_BOOT_SLOT -/,
  ⟨0x1042, 1, 1, .window, .rwp, 0, 0, 0, 0, 0, 0, 4096, 8192⟩ /- FW_IMAGE -/,
  ⟨0x1042, 2, 1, .uns8, .wo, 0, 0, 1, 1, 1, 1, 1, 0⟩ /- FW_GO -/,
  ⟨0x1042, 3, 1, .uns8, .ro, 0, 0, 0, 255, 0, 255, 1, 0⟩ /- FW_RESULT -/]

/-- The entries of 0x2000 to 0x2FFF. -/
def entries2 : List Entry := [
  ⟨0x2000, 0, 1, .uns8, .ro, 0, 0, 0, 255, 0, 255, 1, 0⟩ /- ACTIVE_PROFILE -/,
  ⟨0x2001, 1, 1, .uns8, .rwp, 0, 0, 0, 3, 0, 3, 1, 0⟩ /- PROFILE_TARGET -/,
  ⟨0x2001, 2, 1, .uns8, .rwp, 0, 1, 1, 3, 1, 3, 1, 0⟩ /- PROFILE_OP -/,
  ⟨0x2001, 3, 1, .bool, .rwp, 0, 0, 0, 1, 0, 1, 1, 0⟩ /- PROFILE_FORCE -/,
  ⟨0x2001, 4, 1, .uns8, .wo, 0, 0, 1, 1, 1, 1, 1, 0⟩ /- PROFILE_GO -/,
  ⟨0x2001, 5, 1, .uns8, .ro, 0, 0, 0, 255, 0, 255, 1, 0⟩ /- PROFILE_RESULT -/,
  ⟨0x2002, 0, 4, .uns32, .ro, 0, 0, 0, 4294967295, 0, 4294967295, 4, 0⟩ /- PROFILE_STATUS -/,
  ⟨0x2003, 0, 4, .uns32, .ro, 0, 0, 0, 4294967295, 0, 4294967295, 4, 0⟩ /- PROFILE_CRC -/,
  ⟨0x2004, 0, 1, .uns8, .ro, 0, 0, 0, 255, 0, 255, 1, 0⟩ /- PROFILE_SEL_PINS -/]

/-- The entries of 0x3000 to 0x3FFF. -/
def entries3 : List Entry := [
  ⟨0x3000, 0, 1, .uns8, .const, 0, 48, 0, 255, 0, 255, 1, 0⟩ /- LINK_COUNT -/,
  ⟨0x3001, 0, 1, .uns64, .rwp, 1, 281474976710655, 0, 18446744073709551615, 0, 18446744073709551615, 8, 0⟩ /- LINK_ENABLE -/,
  ⟨0x3002, 0, 1, .uns32, .rwp, 1, 2000, 500, 20000, 500, 20000, 4, 0⟩ /- ACK_TIMEOUT -/,
  ⟨0x3003, 0, 1, .uns8, .rwp, 1, 8, 2, 32, 2, 32, 1, 0⟩ /- REPLAY_LIMIT -/,
  ⟨0x3004, 0, 1, .uns32, .rwp, 1, 100000, 0, 4294967295, 0, 4294967295, 4, 0⟩ /- LANE_DROP_BER -/,
  ⟨0x3005, 0, 1, .uns8, .rwp, 1, 4, 1, 16, 1, 16, 1, 0⟩ /- FLAP_LIMIT -/,
  ⟨0x3006, 0, 1, .uns32, .rwp, 1, 1000, 100, 100000, 100, 100000, 4, 0⟩ /- TIME_EXCH_INTERVAL -/,
  ⟨0x3010, 0, 48, .uns32, .ro, 0, 0, 0, 4294967295, 0, 4294967295, 4, 0⟩ /- LINK_STATUS -/,
  ⟨0x3011, 0, 48, .bits32, .ro, 0, 0, 0, 4294967295, 0, 4294967295, 4, 0⟩ /- LINK_CAPS -/,
  ⟨0x3012, 0, 48, .bits32, .rwp, 1, 7, 0, 4294967295, 0, 4294967295, 4, 0⟩ /- LINK_VERSIONS_ALLOWED -/,
  ⟨0x3013, 0, 48, .int32, .rwp, 1, 0, 0, 4294967295, 0, 4294967295, 4, 0⟩ /- TIME_ASYMMETRY -/,
  ⟨0x3014, 0, 48, .uns8, .ro, 0, 0, 0, 255, 0, 255, 1, 0⟩ /- LAST_DOWN_REASON -/]

/-- The entries of 0x4000 to 0x4FFF. -/
def entries4 : List Entry := [
  ⟨0x4000, 0, 1, .uns16, .const, 0, 1024, 0, 65535, 0, 65535, 2, 0⟩ /- STALL_COUNT -/,
  ⟨0x4001, 1, 1, .uns16, .rwp, 0, 0, 0, 4095, 0, 4095, 2, 0⟩ /- ATTACH_HOST -/,
  ⟨0x4001, 2, 1, .uns16, .rwp, 0, 65535, 0, 1023, 65535, 65535, 2, 0⟩ /- ATTACH_STALL -/,
  ⟨0x4001, 3, 1, .uns8, .wo, 0, 0, 1, 1, 1, 1, 1, 0⟩ /- ATTACH_GO -/,
  ⟨0x4001, 4, 1, .uns32, .ro, 0, 0, 0, 4294967295, 0, 4294967295, 4, 0⟩ /- ATTACH_RESULT -/,
  ⟨0x4002, 0, 1, .uns16, .wo, 0, 0, 0, 1023, 0, 1023, 2, 0⟩ /- DETACH -/,
  ⟨0x4003, 0, 1, .uns16, .wo, 0, 0, 0, 1023, 0, 1023, 2, 0⟩ /- FENCE -/,
  ⟨0x4004, 0, 1, .uns32, .rwp, 1, 250, 10, 10000, 10, 10000, 4, 0⟩ /- HEARTBEAT_TIMEOUT -/,
  ⟨0x4010, 0, 1, .window, .rwp, 0, 0, 0, 0, 0, 0, 16, 1024⟩ /- STALL_TABLE -/,
  ⟨0x4020, 0, 1, .uns32, .rwp, 1, 2000, 100, 100000, 100, 100000, 4, 0⟩ /- RESPONSE_HOLD -/,
  ⟨0x4021, 0, 1, .uns32, .rwp, 1, 200, 20, 2000, 20, 2000, 4, 0⟩ /- REORDER_TIMEOUT -/,
  ⟨0x4022, 0, 1, .uns16, .rwp, 1, 256, 16, 4096, 16, 4096, 2, 0⟩ /- REORDER_HOLD_LIMIT -/,
  ⟨0x4023, 0, 1, .uns16, .rwp, 1, 512, 16, 16384, 16, 16384, 2, 0⟩ /- STALL_TRACKER_LIMIT -/,
  ⟨0x4024, 0, 1, .uns16, .const, 0, 4096, 0, 65535, 0, 65535, 2, 0⟩ /- TAG_CACHE_SLOTS -/,
  ⟨0x4030, 0, 1, .window, .rwp, 1, 0, 0, 0, 0, 0, 32, 1024⟩ /- SHAPER_TABLE -/,
  ⟨0x4031, 0, 1, .uns16, .const, 0, 512, 0, 65535, 0, 65535, 2, 0⟩ /- ENTRY_QUEUE_DEPTH -/,
  ⟨0x4032, 0, 1, .uns16, .const, 0, 4096, 0, 65535, 0, 65535, 2, 0⟩ /- WHEEL_SLOTS -/]

/-- The entries of 0x5000 to 0x5FFF. -/
def entries5 : List Entry := [
  ⟨0x5001, 0, 1, .uns8, .rwp, 1, 0, 0, 63, 0, 63, 1, 0⟩ /- BOARD_NUMBER -/,
  ⟨0x5010, 0, 1, .window, .ro, 0, 0, 0, 0, 0, 0, 8, 524288⟩ /- PITCH_TABLE -/,
  ⟨0x5011, 0, 1, .window, .rwp, 1, 0, 0, 0, 0, 0, 4, 1048576⟩ /- ACL_TABLE -/,
  ⟨0x5012, 0, 1, .uns32, .ro, 0, 0, 0, 4294967295, 0, 4294967295, 4, 0⟩ /- REACH_GRANULES -/,
  ⟨0x5020, 1, 1, .uns32, .rwp, 0, 0, 0, 1048575, 0, 1048575, 4, 0⟩ /- GRANT_PITCH -/,
  ⟨0x5020, 2, 1, .uns8, .rwp, 0, 0, 0, 255, 0, 255, 1, 0⟩ /- GRANT_TENANT -/,
  ⟨0x5020, 3, 1, .uns32, .rwp, 0, 0, 0, 4294967295, 0, 4294967295, 4, 0⟩ /- GRANT_FIRST -/,
  ⟨0x5020, 4, 1, .uns32, .rwp, 0, 1, 1, 524288, 1, 524288, 4, 0⟩ /- GRANT_COUNT -/,
  ⟨0x5020, 5, 1, .uns16, .rwp, 0, 0, 0, 16383, 0, 16383, 2, 0⟩ /- GRANT_ACL -/,
  ⟨0x5020, 6, 1, .uns8, .rwp, 0, 0, 0, 255, 0, 255, 1, 0⟩ /- GRANT_KEY -/,
  ⟨0x5020, 7, 1, .bits32, .rwp, 0, 0, 0, 4294967295, 0, 4294967295, 4, 0⟩ /- GRANT_FLAGS -/,
  ⟨0x5020, 8, 1, .uns8, .wo, 0, 0, 1, 1, 1, 1, 1, 0⟩ /- GRANT_GO -/,
  ⟨0x5020, 9, 1, .uns8, .ro, 0, 0, 0, 255, 0, 255, 1, 0⟩ /- GRANT_RESULT -/,
  ⟨0x5021, 1, 1, .uns8, .rwp, 0, 0, 0, 2, 0, 2, 1, 0⟩ /- REVOKE_MATCH -/,
  ⟨0x5021, 2, 1, .uns32, .rwp, 0, 0, 0, 4294967295, 0, 4294967295, 4, 0⟩ /- REVOKE_VALUE -/,
  ⟨0x5021, 3, 1, .uns8, .wo, 0, 0, 1, 1, 1, 1, 1, 0⟩ /- REVOKE_GO -/,
  ⟨0x5021, 4, 1, .uns8, .ro, 0, 0, 0, 255, 0, 255, 1, 0⟩ /- REVOKE_RESULT -/,
  ⟨0x5022, 0, 1, .uns32, .rwp, 1, 100, 10, 10000, 10, 10000, 4, 0⟩ /- REVOKE_DEADLINE -/,
  ⟨0x5023, 0, 1, .uns32, .ro, 0, 0, 0, 4294967295, 0, 4294967295, 4, 0⟩ /- PITCH_GENERATION -/,
  ⟨0x5024, 1, 1, .uns32, .rwp, 0, 0, 0, 4294967295, 0, 4294967295, 4, 0⟩ /- CLEAR_FIRST -/,
  ⟨0x5024, 2, 1, .uns32, .rwp, 0, 1, 0, 4294967295, 0, 4294967295, 4, 0⟩ /- CLEAR_COUNT -/,
  ⟨0x5024, 3, 1, .uns8, .wo, 0, 0, 1, 1, 1, 1, 1, 0⟩ /- CLEAR_GO -/,
  ⟨0x5024, 4, 1, .uns8, .ro, 0, 0, 0, 255, 0, 255, 1, 0⟩ /- CLEAR_RESULT -/,
  ⟨0x5030, 0, 1, .uns64, .ro, 0, 0, 0, 18446744073709551615, 0, 18446744073709551615, 8, 0⟩ /- COH_WINDOW_BYTES -/,
  ⟨0x5031, 0, 1, .uns16, .rwp, 1, 512, 0, 4095, 0, 4095, 2, 0⟩ /- COH_HOLD -/,
  ⟨0x5032, 0, 1, .uns32, .rwp, 1, 1000, 100, 100000, 100, 100000, 4, 0⟩ /- SNOOP_TIMEOUT -/,
  ⟨0x5033, 0, 1, .uns8, .rwp, 1, 0, 0, 1, 0, 1, 1, 0⟩ /- ORPHAN_POLICY -/,
  ⟨0x5034, 1, 1, .uns8, .rwp, 0, 0, 0, 2, 0, 2, 1, 0⟩ /- ORPHAN_RELEASE_MATCH -/,
  ⟨0x5034, 2, 1, .uns32, .rwp, 0, 0, 0, 4294967295, 0, 4294967295, 4, 0⟩ /- ORPHAN_RELEASE_VALUE -/,
  ⟨0x5034, 3, 1, .uns8, .wo, 0, 0, 1, 1, 1, 1, 1, 0⟩ /- ORPHAN_RELEASE_GO -/,
  ⟨0x5034, 4, 1, .uns8, .ro, 0, 0, 0, 255, 0, 255, 1, 0⟩ /- ORPHAN_RELEASE_RESULT -/,
  ⟨0x5035, 0, 1, .window, .ro, 0, 0, 0, 0, 0, 0, 16, 2097152⟩ /- DIRECTORY_TABLE -/,
  ⟨0x5036, 0, 8, .uns32, .ro, 0, 0, 0, 4294967295, 0, 4294967295, 4, 0⟩ /- ORPHAN_COUNT -/]

/-- The entries of 0x6000 to 0x6FFF. -/
def entries6 : List Entry := [
  ⟨0x6000, 0, 1, .uns8, .rwp, 1, 2, 0, 2, 0, 2, 1, 0⟩ /- DRAM_ADDR_ORDER -/,
  ⟨0x6001, 0, 1, .uns16, .rwp, 1, 100, 0, 2000, 0, 2000, 2, 0⟩ /- PAGE_IDLE -/,
  ⟨0x6002, 0, 1, .uns8, .rwp, 1, 16, 1, 64, 1, 64, 1, 0⟩ /- ROW_HIT_CAP -/,
  ⟨0x6003, 0, 1, .uns8, .rwp, 1, 16, 8, 64, 8, 64, 1, 0⟩ /- MIN_EYE -/,
  ⟨0x6004, 0, 1, .uns16, .ro, 0, 12800, 0, 65535, 0, 65535, 2, 0⟩ /- DRAM_RATE -/,
  ⟨0x6005, 0, 32, .uns32, .ro, 0, 0, 0, 4294967295, 0, 4294967295, 4, 0⟩ /- CHANNEL_STATUS -/,
  ⟨0x6006, 0, 32, .string, .ro, 0, 0, 0, 0, 0, 0, 64, 0⟩ /- DIMM_PART -/,
  ⟨0x6010, 0, 1, .uns16, .rwp, 1, 64, 1, 65535, 1, 65535, 2, 0⟩ /- MIGRATE_THRESHOLD -/,
  ⟨0x6011, 0, 1, .uns8, .rwp, 1, 2, 1, 4, 1, 4, 1, 0⟩ /- MIGRATE_PARALLEL -/,
  ⟨0x6012, 0, 1, .uns16, .rwp, 1, 12, 6, 1000, 6, 1000, 2, 0⟩ /- MIGRATE_GUARD -/,
  ⟨0x6013, 0, 1, .uns8, .rwp, 1, 12, 0, 15, 0, 15, 1, 0⟩ /- PIN_WAYS -/,
  ⟨0x6014, 0, 1, .uns16, .rwp, 1, 64, 0, 4096, 0, 4096, 2, 0⟩ /- FRAME_HINT_LIMIT -/,
  ⟨0x6015, 0, 1, .window, .ro, 0, 0, 0, 0, 0, 0, 8, 98304⟩ /- FRAME_TABLE -/,
  ⟨0x6016, 0, 1, .window, .ro, 0, 0, 0, 0, 0, 0, 8, 32768⟩ /- CANDIDATE_TABLE -/,
  ⟨0x6020, 0, 1, .uns16, .rwp, 1, 256, 16, 8192, 16, 8192, 2, 0⟩ /- SCRUB_RATE -/,
  ⟨0x6021, 0, 1, .uns16, .rwp, 1, 24, 1, 168, 1, 168, 2, 0⟩ /- SCRUB_PERIOD -/,
  ⟨0x6022, 0, 40, .uns32, .ro, 0, 0, 0, 4294967295, 0, 4294967295, 4, 0⟩ /- SCRUB_PROGRESS -/,
  ⟨0x6023, 0, 32, .uns32, .ro, 0, 0, 0, 4294967295, 0, 4294967295, 4, 0⟩ /- REMAP_STATUS -/,
  ⟨0x6024, 0, 9, .window, .rwp, 0, 0, 0, 0, 0, 0, 32, 32⟩ /- ERROR_TABLE -/,
  ⟨0x6025, 0, 1, .bool, .rwp, 0, 0, 0, 1, 0, 1, 1, 0⟩ /- CHECKER_ENABLE -/,
  ⟨0x6026, 1, 1, .uns64, .rwp, 0, 0, 0, 18446744073709551615, 0, 18446744073709551615, 8, 0⟩ /- CHECKER_ADDR -/,
  ⟨0x6026, 2, 1, .window, .rwp, 0, 0, 0, 0, 0, 0, 64, 1⟩ /- CHECKER_DATA -/,
  ⟨0x6026, 3, 1, .window, .rwp, 0, 0, 0, 0, 0, 0, 40, 1⟩ /- CHECKER_CHECK -/,
  ⟨0x6026, 4, 1, .uns8, .wo, 0, 0, 1, 2, 1, 2, 1, 0⟩ /- CHECKER_OP -/,
  ⟨0x6026, 5, 1, .uns8, .ro, 0, 0, 0, 255, 0, 255, 1, 0⟩ /- CHECKER_RESULT -/]

/-- The entries of 0x7000 to 0x7FFF. -/
def entries7 : List Entry := [
  ⟨0x7000, 0, 1, .uns16, .const, 0, 4096, 0, 65535, 0, 65535, 2, 0⟩ /- BARROW_COUNT -/,
  ⟨0x7001, 0, 1, .uns16, .const, 0, 1024, 0, 65535, 0, 65535, 2, 0⟩ /- PROGRAM_ROWS -/,
  ⟨0x7002, 0, 1, .uns8, .rwp, 1, 16, 1, 16, 1, 16, 1, 0⟩ /- ACTIVE_PROGRAMS -/,
  ⟨0x7003, 0, 1, .uns8, .const, 0, 16, 0, 255, 0, 255, 1, 0⟩ /- BARROW_QUEUE_DEPTH -/,
  ⟨0x7004, 0, 1, .uns32, .rwp, 1, 4194304, 1024, 4194304, 1024, 4194304, 4, 0⟩ /- DESC_BUDGET -/,
  ⟨0x7005, 0, 1, .uns16, .const, 0, 4096, 0, 65535, 0, 65535, 2, 0⟩ /- SNAP_LINES -/,
  ⟨0x7006, 0, 1, .uns8, .const, 0, 64, 0, 255, 0, 255, 1, 0⟩ /- SNAP_RANGES -/,
  ⟨0x7007, 0, 1, .uns8, .const, 0, 64, 0, 255, 0, 255, 1, 0⟩ /- ACC_REGIONS -/,
  ⟨0x7010, 0, 8, .window, .rwp, 1, 0, 0, 0, 0, 0, 64, 1024⟩ /- PROGRAM_STORE -/,
  ⟨0x7011, 0, 1, .window, .rwp, 1, 0, 0, 0, 0, 0, 32, 4096⟩ /- BARROW_TABLE -/,
  ⟨0x7012, 0, 1, .window, .rwp, 1, 0, 0, 0, 0, 0, 64, 4096⟩ /- STANDING_PARAMS -/,
  ⟨0x7013, 0, 1, .uns16, .wo, 0, 0, 0, 4095, 0, 4095, 2, 0⟩ /- BARROW_ABORT -/,
  ⟨0x7014, 0, 1, .window, .ro, 0, 0, 0, 0, 0, 0, 32, 512⟩ /- REGION_TABLE -/,
  ⟨0x7015, 0, 8, .uns16, .ro, 0, 0, 0, 65535, 0, 65535, 2, 0⟩ /- SNAP_IN_USE -/,
  ⟨0x7020, 0, 1, .window, .rwp, 1, 0, 0, 0, 0, 0, 8, 256⟩ /- TENANT_SEED -/,
  ⟨0x7021, 0, 1, .window, .ro, 0, 0, 0, 0, 0, 0, 8, 512⟩ /- REGION_FLAGS -/,
  ⟨0x7022, 0, 1, .bits32, .const, 0, 16383, 0, 4294967295, 0, 4294967295, 4, 0⟩ /- REDUCE_FORMATS -/,
  ⟨0x7030, 0, 1, .uns16, .const, 0, 256, 0, 65535, 0, 65535, 2, 0⟩ /- TREE_COUNT -/,
  ⟨0x7031, 0, 1, .window, .rwp, 1, 0, 0, 0, 0, 0, 40, 256⟩ /- BUNTING_TABLE -/,
  ⟨0x7032, 0, 1, .window, .rwp, 1, 0, 0, 0, 0, 0, 128, 256⟩ /- BUNTING_MEMBERS -/,
  ⟨0x7033, 0, 1, .uns32, .rwp, 1, 1000, 100, 100000, 100, 100000, 4, 0⟩ /- BUNT_TIMEOUT -/,
  ⟨0x7034, 0, 1, .uns16, .rwp, 1, 2, 1, 100, 1, 100, 2, 0⟩ /- CATCHUP_WAIT -/,
  ⟨0x7035, 1, 1, .uns8, .wo, 0, 0, 0, 255, 0, 255, 1, 0⟩ /- BUNT_GO -/,
  ⟨0x7035, 2, 1, .uns8, .ro, 0, 0, 0, 255, 0, 255, 1, 0⟩ /- BUNT_RESULT -/,
  ⟨0x7036, 0, 1, .uns8, .wo, 0, 0, 0, 255, 0, 255, 1, 0⟩ /- BUNT_ABORT -/]

/-- The entries of 0x8000 to 0x8FFF. -/
def entries8 : List Entry := [
  ⟨0x8000, 1, 1, .uns64, .ro, 0, 0, 0, 18446744073709551615, 0, 18446744073709551615, 8, 0⟩ /- STEP -/,
  ⟨0x8000, 2, 1, .uns16, .ro, 0, 0, 0, 65535, 0, 65535, 2, 0⟩ /- PHASE -/,
  ⟨0x8001, 0, 1, .uns64, .rwp, 0, 0, 0, 18446744073709551615, 0, 18446744073709551615, 8, 0⟩ /- STEP_SET -/,
  ⟨0x8002, 0, 1, .uns16, .rwp, 1, 65535, 0, 4095, 65535, 65535, 2, 0⟩ /- MARK_SOURCE -/,
  ⟨0x8003, 0, 1, .uns32, .rwp, 1, 500, 50, 60000, 50, 60000, 4, 0⟩ /- MARK_LOSS_TIMEOUT -/,
  ⟨0x8004, 0, 1, .uns8, .ro, 0, 0, 0, 255, 0, 255, 1, 0⟩ /- MARK_STATE -/,
  ⟨0x8010, 1, 1, .uns64, .ro, 0, 0, 0, 18446744073709551615, 0, 18446744073709551615, 8, 0⟩ /- AO_SECONDS -/,
  ⟨0x8010, 2, 1, .uns32, .ro, 0, 0, 0, 4294967295, 0, 4294967295, 4, 0⟩ /- AO_NANOSECONDS -/,
  ⟨0x8011, 0, 1, .uns8, .rwp, 1, 0, 0, 1, 0, 1, 1, 0⟩ /- TIME_SOURCE -/,
  ⟨0x8012, 0, 1, .uns64, .rwp, 1, 0, 0, 18446744073709551615, 0, 18446744073709551615, 8, 0⟩ /- TIME_LINKS -/,
  ⟨0x8013, 0, 1, .uns8, .rwp, 1, 0, 0, 127, 0, 127, 1, 0⟩ /- TIME_DOMAIN -/,
  ⟨0x8014, 0, 1, .uns8, .ro, 0, 0, 0, 255, 0, 255, 1, 0⟩ /- TIME_STATE -/,
  ⟨0x8015, 0, 1, .int32, .ro, 0, 0, 0, 4294967295, 0, 4294967295, 4, 0⟩ /- TIME_OFFSET -/,
  ⟨0x8016, 0, 48, .int32, .ro, 0, 0, 0, 4294967295, 0, 4294967295, 4, 0⟩ /- LINK_TIME_OFFSET -/,
  ⟨0x8020, 0, 1, .window, .rwp, 1, 0, 0, 0, 0, 0, 16, 1024⟩ /- SCHEDULE_TABLE -/,
  ⟨0x8030, 0, 1, .uns16, .rwp, 1, 64, 0, 10000, 0, 10000, 2, 0⟩ /- GUARD_BAND -/,
  ⟨0x8031, 0, 1, .uns8, .rwp, 1, 0, 0, 15, 0, 15, 1, 0⟩ /- ACTIVE_GATE_LIST -/,
  ⟨0x8032, 0, 1, .window, .rwp, 1, 0, 0, 0, 0, 0, 4, 4096⟩ /- GATE_LISTS -/,
  ⟨0x8033, 0, 1, .window, .rwp, 1, 0, 0, 0, 0, 0, 8, 256⟩ /- FB_GATE_LIST -/,
  ⟨0x8034, 1, 1, .uns32, .rwp, 1, 0, 0, 4294967295, 0, 4294967295, 4, 0⟩ /- FB_OFFSET -/,
  ⟨0x8034, 2, 1, .uns8, .wo, 0, 0, 1, 1, 1, 1, 1, 0⟩ /- FB_COMMIT -/,
  ⟨0x8034, 3, 1, .uns8, .ro, 0, 0, 0, 255, 0, 255, 1, 0⟩ /- FB_RESULT -/,
  ⟨0x8035, 0, 1, .uns32, .ro, 0, 255, 0, 4294967295, 0, 4294967295, 4, 0⟩ /- GATE_STATE -/]

/-- The entries of 0x9000 to 0x9FFF. -/
def entries9 : List Entry := [
  ⟨0x9000, 0, 1, .bool, .rwp, 1, 0, 0, 1, 0, 1, 1, 0⟩ /- PAIR_ENABLE -/,
  ⟨0x9001, 0, 1, .uns8, .rwp, 1, 255, 0, 63, 255, 255, 1, 0⟩ /- PARTNER_BOARD -/,
  ⟨0x9002, 0, 1, .uns32, .rwp, 1, 0, 0, 4294967295, 0, 4294967295, 4, 0⟩ /- MIRROR_GRANULES -/,
  ⟨0x9003, 0, 1, .uns32, .rwp, 1, 50, 10, 1000, 10, 1000, 4, 0⟩ /- MIRROR_EPOCH -/,
  ⟨0x9004, 0, 1, .uns16, .rwp, 1, 5, 2, 100, 2, 100, 2, 0⟩ /- PAIR_DECIDE -/,
  ⟨0x9005, 0, 1, .uns8, .ro, 0, 0, 0, 255, 0, 255, 1, 0⟩ /- PAIR_STATE -/,
  ⟨0x9006, 0, 1, .uns8, .ro, 0, 0, 0, 255, 0, 255, 1, 0⟩ /- PAIR_EPOCH -/,
  ⟨0x9007, 1, 1, .uns8, .wo, 0, 0, 1, 3, 1, 3, 1, 0⟩ /- PAIR_COMMAND -/,
  ⟨0x9007, 2, 1, .uns8, .ro, 0, 0, 0, 255, 0, 255, 1, 0⟩ /- PAIR_RESULT -/,
  ⟨0x9008, 1, 1, .uns32, .ro, 0, 0, 0, 4294967295, 0, 4294967295, 4, 0⟩ /- HSEQ_SENT -/,
  ⟨0x9008, 2, 1, .uns32, .ro, 0, 0, 0, 4294967295, 0, 4294967295, 4, 0⟩ /- HSEQ_ACKED -/,
  ⟨0x9009, 0, 1, .uns16, .const, 0, 16384, 0, 65535, 0, 65535, 2, 0⟩ /- HALYARD_WINDOW -/,
  ⟨0x900A, 0, 1, .uns32, .ro, 0, 0, 0, 4294967295, 0, 4294967295, 4, 0⟩ /- RESYNC_REMAINING -/,
  ⟨0x900B, 0, 1, .uns16, .wo, 0, 0, 0, 1023, 0, 1023, 2, 0⟩ /- PARTNER_FENCE -/,
  ⟨0x900C, 0, 1, .uns16, .wo, 0, 0, 0, 1023, 0, 1023, 2, 0⟩ /- PARTNER_DETACH -/,
  ⟨0x9010, 0, 1, .uns64, .rwp, 1, 0, 0, 18446744073709551615, 0, 18446744073709551615, 8, 0⟩ /- MOVE_LINKS -/,
  ⟨0x9011, 1, 1, .uns8, .rwp, 0, 0, 0, 63, 0, 63, 1, 0⟩ /- MOVE_IN_SOURCE -/,
  ⟨0x9011, 2, 1, .uns32, .rwp, 0, 0, 0, 4294967295, 0, 4294967295, 4, 0⟩ /- MOVE_IN_FIRST -/,
  ⟨0x9011, 3, 1, .uns32, .rwp, 0, 1, 1, 524288, 1, 524288, 4, 0⟩ /- MOVE_IN_COUNT -/,
  ⟨0x9011, 4, 1, .uns8, .rwp, 0, 0, 1, 255, 1, 255, 1, 0⟩ /- MOVE_IN_TENANT -/,
  ⟨0x9011, 5, 1, .uns8, .rwp, 0, 0, 0, 255, 0, 255, 1, 0⟩ /- MOVE_IN_KEY -/,
  ⟨0x9011, 6, 1, .uns16, .rwp, 0, 0, 0, 65535, 0, 65535, 2, 0⟩ /- MOVE_IN_TAG -/,
  ⟨0x9011, 7, 1, .uns32, .rwp, 0, 0, 0, 4294967295, 0, 4294967295, 4, 0⟩ /- MOVE_IN_KCV -/,
  ⟨0x9011, 8, 1, .uns8, .wo, 0, 0, 1, 2, 1, 2, 1, 0⟩ /- MOVE_IN_GO -/,
  ⟨0x9011, 9, 1, .uns8, .ro, 0, 0, 0, 255, 0, 255, 1, 0⟩ /- MOVE_IN_RESULT -/,
  ⟨0x9011, 10, 1, .uns8, .ro, 0, 0, 0, 255, 0, 255, 1, 0⟩ /- MOVE_EPOCH -/,
  ⟨0x9012, 1, 1, .uns8, .rwp, 0, 0, 0, 47, 0, 47, 1, 0⟩ /- MOVE_OUT_LINK -/,
  ⟨0x9012, 2, 1, .uns32, .rwp, 0, 0, 0, 4294967295, 0, 4294967295, 4, 0⟩ /- MOVE_OUT_FIRST -/,
  ⟨0x9012, 3, 1, .uns32, .rwp, 0, 1, 1, 524288, 1, 524288, 4, 0⟩ /- MOVE_OUT_COUNT -/,
  ⟨0x9012, 4, 1, .uns8, .rwp, 0, 0, 0, 63, 0, 63, 1, 0⟩ /- MOVE_OUT_DEST -/,
  ⟨0x9012, 5, 1, .uns8, .rwp, 0, 0, 0, 255, 0, 255, 1, 0⟩ /- MOVE_OUT_EPOCH -/,
  ⟨0x9012, 6, 1, .uns8, .wo, 0, 0, 1, 2, 1, 2, 1, 0⟩ /- MOVE_OUT_GO -/,
  ⟨0x9012, 7, 1, .uns8, .ro, 0, 0, 0, 255, 0, 255, 1, 0⟩ /- MOVE_OUT_RESULT -/,
  ⟨0x9012, 8, 1, .uns32, .ro, 0, 0, 0, 4294967295, 0, 4294967295, 4, 0⟩ /- MOVE_OUT_DONE -/]

/-- The entries of 0xA000 to 0xAFFF. -/
def entriesA : List Entry := [
  ⟨0xA000, 0, 1, .bool, .rwp, 2, 0, 0, 1, 0, 1, 1, 0⟩ /- CONF_MODE -/,
  ⟨0xA001, 0, 1, .bits32, .ro, 0, 0, 0, 4294967295, 0, 4294967295, 4, 0⟩ /- CONF_SOURCE -/,
  ⟨0xA010, 0, 1, .window, .rwp, 2, 0, 0, 0, 0, 0, 56, 256⟩ /- TENANT_TABLE -/,
  ⟨0xA011, 1, 1, .uns8, .rwp, 0, 0, 1, 255, 1, 255, 1, 0⟩ /- TENANT_CMD_ID -/,
  ⟨0xA011, 2, 1, .uns8, .rwp, 0, 0, 1, 2, 1, 2, 1, 0⟩ /- TENANT_CMD -/,
  ⟨0xA011, 3, 1, .uns8, .wo, 0, 0, 1, 1, 1, 1, 1, 0⟩ /- TENANT_GO -/,
  ⟨0xA011, 4, 1, .uns8, .ro, 0, 0, 0, 255, 0, 255, 1, 0⟩ /- TENANT_RESULT -/,
  ⟨0xA020, 0, 1, .window, .ro, 0, 0, 0, 0, 0, 0, 16, 256⟩ /- KEY_TABLE -/,
  ⟨0xA021, 1, 1, .uns8, .rwp, 0, 0, 0, 255, 0, 255, 1, 0⟩ /- KEY_CMD_SLOT -/,
  ⟨0xA021, 2, 1, .uns8, .rwp, 0, 0, 0, 255, 0, 255, 1, 0⟩ /- KEY_CMD_TENANT -/,
  ⟨0xA021, 3, 1, .uns8, .rwp, 0, 0, 0, 255, 0, 255, 1, 0⟩ /- KEY_CMD_EPOCH -/,
  ⟨0xA021, 4, 1, .uns8, .rwp, 0, 0, 1, 5, 1, 5, 1, 0⟩ /- KEY_CMD -/,
  ⟨0xA021, 5, 1, .uns8, .wo, 0, 0, 1, 1, 1, 1, 1, 0⟩ /- KEY_GO -/,
  ⟨0xA021, 6, 1, .uns8, .ro, 0, 0, 0, 255, 0, 255, 1, 0⟩ /- KEY_RESULT -/,
  ⟨0xA022, 0, 1, .uns32, .rwp, 2, 1000, 100, 100000, 100, 100000, 4, 0⟩ /- KEY_RETIRE_DEADLINE -/,
  ⟨0xA030, 0, 1, .window, .ro, 0, 0, 0, 0, 0, 0, 256, 262144⟩ /- LEDGER_TABLE -/,
  ⟨0xA031, 0, 1, .uns64, .ro, 0, 0, 0, 18446744073709551615, 0, 18446744073709551615, 8, 0⟩ /- LEDGER_HEAD -/,
  ⟨0xA032, 0, 1, .uns64, .rwp, 2, 0, 0, 18446744073709551615, 0, 18446744073709551615, 8, 0⟩ /- LEDGER_ACKED -/,
  ⟨0xA033, 0, 1, .uns32, .const, 0, 262144, 0, 4294967295, 0, 4294967295, 4, 0⟩ /- LEDGER_CAPACITY -/,
  ⟨0xA034, 0, 1, .uns32, .ro, 0, 0, 0, 4294967295, 0, 4294967295, 4, 0⟩ /- LEDGER_LOST -/]

/-- The entries of 0xB000 to 0xBFFF. -/
def entriesB : List Entry := [
  ⟨0xB000, 0, 1, .uns32, .wo, 0, 0, 0, 4294967295, 0, 4294967295, 4, 0⟩ /- TALLY_CLEAR -/,
  ⟨0xB010, 0, 1, .window, .ro, 0, 0, 0, 0, 0, 0, 16, 65536⟩ /- STALL_TALLY -/,
  ⟨0xB011, 0, 1, .window, .ro, 0, 0, 0, 0, 0, 0, 16, 1024⟩ /- SLICE_TALLY -/,
  ⟨0xB012, 0, 1, .window, .ro, 0, 0, 0, 0, 0, 0, 16, 768⟩ /- LINK_TALLY -/,
  ⟨0xB013, 0, 1, .window, .ro, 0, 0, 0, 0, 0, 0, 16, 32768⟩ /- BARROW_TALLY -/,
  ⟨0xB014, 0, 1, .window, .ro, 0, 0, 0, 0, 0, 0, 16, 1024⟩ /- KEY_TALLY -/,
  ⟨0xB015, 0, 1, .window, .ro, 0, 0, 0, 0, 0, 0, 16, 4096⟩ /- SCHEDULE_TALLY -/,
  ⟨0xB016, 0, 1, .window, .ro, 0, 0, 0, 0, 0, 0, 16, 64⟩ /- BOARD_TALLY -/,
  ⟨0xB020, 0, 1, .uns8, .wo, 0, 0, 1, 1, 1, 1, 1, 0⟩ /- HOIST_NOW -/,
  ⟨0xB021, 0, 1, .bits32, .rwp, 1, 15488, 0, 4294967295, 0, 4294967295, 4, 0⟩ /- HOIST_FAULT_MASK -/,
  ⟨0xB022, 0, 1, .uns32, .ro, 0, 0, 0, 4294967295, 0, 4294967295, 4, 0⟩ /- HOIST_STATUS -/,
  ⟨0xB023, 0, 1, .uns8, .wo, 0, 0, 1, 1, 1, 1, 1, 0⟩ /- HOIST_RELEASE -/,
  ⟨0xB024, 0, 1, .window, .ro, 0, 0, 0, 0, 0, 0, 16, 108555⟩ /- HOIST_SNAPSHOT -/,
  ⟨0xB025, 0, 1, .uns32, .ro, 0, 0, 0, 4294967295, 0, 4294967295, 4, 0⟩ /- HOIST_MISSED -/,
  ⟨0xB026, 0, 1, .uns32, .rwp, 1, 1000, 200, 100000, 200, 100000, 4, 0⟩ /- HOIST_REARM -/,
  ⟨0xB030, 0, 1, .window, .ro, 0, 0, 0, 0, 0, 0, 64, 4096⟩ /- CRIER_RING -/,
  ⟨0xB031, 0, 1, .uns64, .ro, 0, 0, 0, 18446744073709551615, 0, 18446744073709551615, 8, 0⟩ /- CRIER_HEAD -/,
  ⟨0xB032, 0, 1, .uns64, .rw, 0, 0, 0, 18446744073709551615, 0, 18446744073709551615, 8, 0⟩ /- CRIER_ACKED -/,
  ⟨0xB033, 0, 1, .uns64, .rwp, 1, 541065216, 0, 18446744073709551615, 0, 18446744073709551615, 8, 0⟩ /- ALERT_MASK -/,
  ⟨0xB034, 0, 1, .uns64, .rwp, 1, 148504977, 0, 18446744073709551615, 0, 18446744073709551615, 8, 0⟩ /- HOST_CRIER_MASK -/,
  ⟨0xB040, 0, 1, .bits32, .rwp, 0, 0, 0, 4294967295, 0, 4294967295, 4, 0⟩ /- TRACE_CTRL -/,
  ⟨0xB041, 0, 4, .window, .ro, 0, 0, 0, 0, 0, 0, 16, 4096⟩ /- TRACE_BUFFER -/,
  ⟨0xB042, 0, 4, .uns32, .ro, 0, 0, 0, 4294967295, 0, 4294967295, 4, 0⟩ /- TRACE_HEAD -/]

/-- The entries of 0xC000 to 0xCFFF. -/
def entriesC : List Entry := [
  ⟨0xC000, 0, 1, .uns8, .ro, 0, 0, 0, 255, 0, 255, 1, 0⟩ /- POWER_STATE -/,
  ⟨0xC001, 0, 1, .uns8, .rwp, 1, 0, 0, 1, 0, 1, 1, 0⟩ /- POWER_TARGET -/,
  ⟨0xC002, 0, 1, .bits32, .rwp, 1, 0, 0, 4294967295, 0, 4294967295, 4, 0⟩ /- SLICE_PARK_ENABLE -/,
  ⟨0xC003, 0, 1, .uns32, .rwp, 1, 0, 0, 0, 10, 1000000, 4, 0⟩ /- SLICE_PARK_IDLE -/,
  ⟨0xC004, 0, 1, .bits32, .ro, 0, 0, 0, 4294967295, 0, 4294967295, 4, 0⟩ /- SLICES_PARKED -/,
  ⟨0xC005, 0, 48, .uns8, .rwp, 1, 15, 0, 15, 0, 15, 1, 0⟩ /- LANE_PARK -/,
  ⟨0xC010, 0, 15, .uns32, .ro, 0, 0, 0, 4294967295, 0, 4294967295, 4, 0⟩ /- RAIL_STATUS -/,
  ⟨0xC011, 0, 1, .uns32, .ro, 0, 0, 0, 4294967295, 0, 4294967295, 4, 0⟩ /- DIMM_FEEDS -/,
  ⟨0xC012, 0, 1, .uns32, .ro, 0, 0, 0, 4294967295, 0, 4294967295, 4, 0⟩ /- INPUT_STATUS -/,
  ⟨0xC013, 0, 1, .uns16, .const, 0, 200, 0, 65535, 0, 65535, 2, 0⟩ /- PMBUS_ACK_TIMEOUT -/,
  ⟨0xC020, 0, 1, .uns8, .rwp, 1, 0, 0, 1, 0, 1, 1, 0⟩ /- REF_SELECT -/,
  ⟨0xC021, 0, 1, .bool, .rwp, 1, 1, 0, 1, 0, 1, 1, 0⟩ /- REF_AUTO -/,
  ⟨0xC022, 0, 1, .uns32, .rwp, 1, 1000, 100, 100000, 100, 100000, 4, 0⟩ /- REF_HOLDOFF -/,
  ⟨0xC023, 0, 1, .uns32, .ro, 0, 0, 0, 4294967295, 0, 4294967295, 4, 0⟩ /- CLOCK_STATUS -/,
  ⟨0xC024, 1, 1, .uns8, .rwp, 0, 0, 0, 21, 0, 21, 1, 0⟩ /- FREQ_CLOCK -/,
  ⟨0xC024, 2, 1, .uns8, .rwp, 0, 0, 0, 1, 0, 1, 1, 0⟩ /- FREQ_REF -/,
  ⟨0xC024, 3, 1, .uns8, .rwp, 0, 20, 10, 24, 10, 24, 1, 0⟩ /- FREQ_WINDOW -/,
  ⟨0xC024, 4, 1, .uns8, .wo, 0, 0, 1, 1, 1, 1, 1, 0⟩ /- FREQ_GO -/,
  ⟨0xC024, 5, 1, .uns8, .ro, 0, 0, 0, 255, 0, 255, 1, 0⟩ /- FREQ_RESULT -/,
  ⟨0xC024, 6, 1, .uns64, .ro, 0, 0, 0, 18446744073709551615, 0, 18446744073709551615, 8, 0⟩ /- FREQ_COUNT -/,
  ⟨0xC030, 0, 1, .uns32, .ro, 0, 0, 0, 4294967295, 0, 4294967295, 4, 0⟩ /- THERMAL_STATUS -/,
  ⟨0xC031, 0, 1, .bits32, .ro, 0, 0, 0, 4294967295, 0, 4294967295, 4, 0⟩ /- SIDEBAND_PINS -/]

/-- The entries of 0xD000 to 0xDFFF. -/
def entriesD : List Entry := [
  ⟨0xD000, 0, 1, .uns8, .ro, 0, 0, 0, 255, 0, 255, 1, 0⟩ /- REPAIR_STATE -/,
  ⟨0xD001, 0, 1, .window, .const, 0, 0, 0, 0, 0, 0, 4, 256⟩ /- SHIPPED_REPAIRS -/,
  ⟨0xD002, 0, 1, .uns32, .ro, 2, 0, 0, 4294967295, 0, 4294967295, 4, 0⟩ /- RETIRED_UNITS -/,
  ⟨0xD003, 0, 1, .bits32, .rwp, 1, 1, 0, 4294967295, 0, 4294967295, 4, 0⟩ /- RETIRE_POLICY -/,
  ⟨0xD004, 1, 1, .uns8, .rwp, 0, 0, 1, 3, 1, 3, 1, 0⟩ /- RETIRE_KIND -/,
  ⟨0xD004, 2, 1, .uns8, .rwp, 0, 0, 0, 255, 0, 255, 1, 0⟩ /- RETIRE_UNIT -/,
  ⟨0xD004, 3, 1, .uns8, .wo, 0, 0, 1, 1, 1, 1, 1, 0⟩ /- RETIRE_GO -/,
  ⟨0xD004, 4, 1, .uns8, .ro, 0, 0, 0, 255, 0, 255, 1, 0⟩ /- RETIRE_RESULT -/,
  ⟨0xD005, 0, 1, .uns16, .rwp, 1, 8, 1, 1000, 1, 1000, 2, 0⟩ /- CHANNEL_UE_LIMIT -/,
  ⟨0xD006, 0, 1, .window, .ro, 0, 0, 0, 0, 0, 0, 32, 256⟩ /- FAULT_LOG -/,
  ⟨0xD007, 0, 1, .uns32, .ro, 0, 0, 0, 4294967295, 0, 4294967295, 4, 0⟩ /- FAULT_SEQ -/,
  ⟨0xD008, 0, 1, .uns32, .ro, 0, 0, 0, 4294967295, 0, 4294967295, 4, 0⟩ /- SPARE_LANES -/]

/-- The entries of the 4 KiB of indexes that holds `index`. -/
def entriesOf (index : Nat) : List Entry :=
  match index / 4096 with
  | 1 => entries1
  | 2 => entries2
  | 3 => entries3
  | 4 => entries4
  | 5 => entries5
  | 6 => entries6
  | 7 => entries7
  | 8 => entries8
  | 9 => entries9
  | 10 => entriesA
  | 11 => entriesB
  | 12 => entriesC
  | 13 => entriesD
  | _ => []

/-- The key of an index and subindex. -/
def dkey (index sub : Nat) : Nat := index * 256 + sub

/-- The entry an index and subindex name (R338). -/
def entryAt (index sub : Nat) : Option Entry :=
  (entriesOf index).find? fun e => e.index == index && (decide (e.sub ≤ sub) && decide (sub < e.sub + e.subs))

/-- What an entry reads as that nothing has written. -/
def dfltOf (key : Nat) : Nat :=
  match entryAt (key / 256) (key % 256) with
  | some e => e.dflt
  | none => 0

/-- The value of a stored entry. -/
def State.reg (s : State) (key : Nat) : Nat := s.dict.get (dfltOf key) key

/-- Store the value of an entry. -/
def State.setReg (s : State) (key v : Nat) : State := { s with dict := s.dict.set (dfltOf key) key v }

/-- The stored entries are in canonical form: keys strictly rising, no value equal to its entry's default. -/
def dictWfFrom : Nat → Tbl Nat → Bool
  | _, [] => true
  | lo, (k, v) :: r => decide (lo ≤ k) && (decide (v ≠ dfltOf k) && dictWfFrom (k + 1) r)

/-- The value lies in the entry's stated range (R335). -/
def Entry.inRange (e : Entry) (v : Nat) : Bool :=
  (decide (e.lo ≤ v) && decide (v ≤ e.hi)) || (decide (e.lo2 ≤ v) && decide (v ≤ e.hi2))

/-! ### Keys of the stored entries -/

/-- FW_RELEASE. -/
def kFwRelease : Nat := 0x100400

/-- SCHEMA_VERSION. -/
def kSchemaVersion : Nat := 0x100500

/-- WAXON_VERSIONS. -/
def kWaxonVersions : Nat := 0x100600

/-- DESCRIPTOR_SETS. -/
def kDescriptorSets : Nat := 0x100700

/-- SLICES_ENABLED. -/
def kSlicesEnabled : Nat := 0x101000

/-- SPARE_SLICE. -/
def kSpareSlice : Nat := 0x101100

/-- SLICE_MAP. -/
def kSliceMap : Nat := 0x101200

/-- FAR_CAPACITY. -/
def kFarCapacity : Nat := 0x101300

/-- NEAR_CAPACITY. -/
def kNearCapacity : Nat := 0x101400

/-- LINKS_LIVE. -/
def kLinksLive : Nat := 0x101500

/-- BOARD_NUMBER. -/
def kBoardNumber : Nat := 0x500100

/-- LINK_ENABLE. -/
def kLinkEnable : Nat := 0x300100

/-- ACK_TIMEOUT. -/
def kAckTimeout : Nat := 0x300200

/-- REPLAY_LIMIT. -/
def kReplayLimit : Nat := 0x300300

/-- LANE_DROP_BER. -/
def kLaneDropBer : Nat := 0x300400

/-- FLAP_LIMIT. -/
def kFlapLimit : Nat := 0x300500

/-- TIME_EXCH_INTERVAL. -/
def kTimeExchInterval : Nat := 0x300600

/-- LINK_STATUS, by subindex. -/
def kLinkStatus (n : Nat) : Nat := 0x301000 + n

/-- LINK_CAPS, by subindex. -/
def kLinkCaps (n : Nat) : Nat := 0x301100 + n

/-- LINK_VERSIONS_ALLOWED, by subindex. -/
def kLinkVersionsAllowed (n : Nat) : Nat := 0x301200 + n

/-- TIME_ASYMMETRY, by subindex. -/
def kTimeAsymmetry (n : Nat) : Nat := 0x301300 + n

/-- LAST_DOWN_REASON, by subindex. -/
def kLastDownReason (n : Nat) : Nat := 0x301400 + n

/-- RESPONSE_HOLD. -/
def kResponseHold : Nat := 0x402000

/-- REORDER_TIMEOUT. -/
def kReorderTimeout : Nat := 0x402100

/-- REORDER_HOLD_LIMIT. -/
def kReorderHoldLimit : Nat := 0x402200

/-- STALL_TRACKER_LIMIT. -/
def kStallTrackerLimit : Nat := 0x402300

/-- ATTACH_HOST. -/
def kAttachHost : Nat := 0x400101

/-- ATTACH_STALL. -/
def kAttachStall : Nat := 0x400102

/-- ATTACH_GO. -/
def kAttachGo : Nat := 0x400103

/-- ATTACH_RESULT. -/
def kAttachResult : Nat := 0x400104

/-- DETACH. -/
def kDetach : Nat := 0x400200

/-- FENCE. -/
def kFence : Nat := 0x400300

/-- HEARTBEAT_TIMEOUT. -/
def kHeartbeatTimeout : Nat := 0x400400

/-- REACH_GRANULES. -/
def kReachGranules : Nat := 0x501200

/-- GRANT_PITCH. -/
def kGrantPitch : Nat := 0x502001

/-- GRANT_TENANT. -/
def kGrantTenant : Nat := 0x502002

/-- GRANT_FIRST. -/
def kGrantFirst : Nat := 0x502003

/-- GRANT_COUNT. -/
def kGrantCount : Nat := 0x502004

/-- GRANT_ACL. -/
def kGrantAcl : Nat := 0x502005

/-- GRANT_KEY. -/
def kGrantKey : Nat := 0x502006

/-- GRANT_FLAGS. -/
def kGrantFlags : Nat := 0x502007

/-- GRANT_GO. -/
def kGrantGo : Nat := 0x502008

/-- GRANT_RESULT. -/
def kGrantResult : Nat := 0x502009

/-- REVOKE_MATCH. -/
def kRevokeMatch : Nat := 0x502101

/-- REVOKE_VALUE. -/
def kRevokeValue : Nat := 0x502102

/-- REVOKE_GO. -/
def kRevokeGo : Nat := 0x502103

/-- REVOKE_RESULT. -/
def kRevokeResult : Nat := 0x502104

/-- REVOKE_DEADLINE. -/
def kRevokeDeadline : Nat := 0x502200

/-- PITCH_GENERATION. -/
def kPitchGeneration : Nat := 0x502300

/-- CLEAR_FIRST. -/
def kClearFirst : Nat := 0x502401

/-- CLEAR_COUNT. -/
def kClearCount : Nat := 0x502402

/-- CLEAR_GO. -/
def kClearGo : Nat := 0x502403

/-- CLEAR_RESULT. -/
def kClearResult : Nat := 0x502404

/-- DRAM_ADDR_ORDER. -/
def kDramAddrOrder : Nat := 0x600000

/-- PAGE_IDLE. -/
def kPageIdle : Nat := 0x600100

/-- ROW_HIT_CAP. -/
def kRowHitCap : Nat := 0x600200

/-- MIN_EYE. -/
def kMinEye : Nat := 0x600300

/-- DRAM_RATE. -/
def kDramRate : Nat := 0x600400

/-- CHANNEL_STATUS, by subindex. -/
def kChannelStatus (n : Nat) : Nat := 0x600500 + n

/-- MIGRATE_THRESHOLD. -/
def kMigrateThreshold : Nat := 0x601000

/-- MIGRATE_PARALLEL. -/
def kMigrateParallel : Nat := 0x601100

/-- MIGRATE_GUARD. -/
def kMigrateGuard : Nat := 0x601200

/-- PIN_WAYS. -/
def kPinWays : Nat := 0x601300

/-- FRAME_HINT_LIMIT. -/
def kFrameHintLimit : Nat := 0x601400

/-- SCRUB_RATE. -/
def kScrubRate : Nat := 0x602000

/-- SCRUB_PERIOD. -/
def kScrubPeriod : Nat := 0x602100

/-- SCRUB_PROGRESS, by subindex. -/
def kScrubProgress (n : Nat) : Nat := 0x602200 + n

/-- REMAP_STATUS, by subindex. -/
def kRemapStatus (n : Nat) : Nat := 0x602300 + n

/-- CHECKER_ENABLE. -/
def kCheckerEnable : Nat := 0x602500

/-- CHECKER_ADDR. -/
def kCheckerAddr : Nat := 0x602601

/-- CHECKER_OP. -/
def kCheckerOp : Nat := 0x602604

/-- CHECKER_RESULT. -/
def kCheckerResult : Nat := 0x602605

/-- COH_WINDOW_BYTES. -/
def kCohWindowBytes : Nat := 0x503000

/-- COH_HOLD. -/
def kCohHold : Nat := 0x503100

/-- SNOOP_TIMEOUT. -/
def kSnoopTimeout : Nat := 0x503200

/-- ORPHAN_POLICY. -/
def kOrphanPolicy : Nat := 0x503300

/-- ORPHAN_RELEASE_MATCH. -/
def kOrphanReleaseMatch : Nat := 0x503401

/-- ORPHAN_RELEASE_VALUE. -/
def kOrphanReleaseValue : Nat := 0x503402

/-- ORPHAN_RELEASE_GO. -/
def kOrphanReleaseGo : Nat := 0x503403

/-- ORPHAN_RELEASE_RESULT. -/
def kOrphanReleaseResult : Nat := 0x503404

/-- ORPHAN_COUNT, by subindex. -/
def kOrphanCount (n : Nat) : Nat := 0x503600 + n

/-- ACTIVE_PROGRAMS. -/
def kActivePrograms : Nat := 0x700200

/-- DESC_BUDGET. -/
def kDescBudget : Nat := 0x700400

/-- BARROW_ABORT. -/
def kBarrowAbort : Nat := 0x701300

/-- SNAP_IN_USE, by subindex. -/
def kSnapInUse (n : Nat) : Nat := 0x701500 + n

/-- STEP. -/
def kStep : Nat := 0x800001

/-- PHASE. -/
def kPhase : Nat := 0x800002

/-- STEP_SET. -/
def kStepSet : Nat := 0x800100

/-- MARK_SOURCE. -/
def kMarkSource : Nat := 0x800200

/-- MARK_LOSS_TIMEOUT. -/
def kMarkLossTimeout : Nat := 0x800300

/-- MARK_STATE. -/
def kMarkState : Nat := 0x800400

/-- AO_SECONDS. -/
def kAoSeconds : Nat := 0x801001

/-- AO_NANOSECONDS. -/
def kAoNanoseconds : Nat := 0x801002

/-- TIME_SOURCE. -/
def kTimeSource : Nat := 0x801100

/-- TIME_LINKS. -/
def kTimeLinks : Nat := 0x801200

/-- TIME_DOMAIN. -/
def kTimeDomain : Nat := 0x801300

/-- TIME_STATE. -/
def kTimeState : Nat := 0x801400

/-- TIME_OFFSET. -/
def kTimeOffset : Nat := 0x801500

/-- LINK_TIME_OFFSET, by subindex. -/
def kLinkTimeOffset (n : Nat) : Nat := 0x801600 + n

/-- BUNT_TIMEOUT. -/
def kBuntTimeout : Nat := 0x703300

/-- CATCHUP_WAIT. -/
def kCatchupWait : Nat := 0x703400

/-- BUNT_GO. -/
def kBuntGo : Nat := 0x703501

/-- BUNT_RESULT. -/
def kBuntResult : Nat := 0x703502

/-- BUNT_ABORT. -/
def kBuntAbort : Nat := 0x703600

/-- GUARD_BAND. -/
def kGuardBand : Nat := 0x803000

/-- ACTIVE_GATE_LIST. -/
def kActiveGateList : Nat := 0x803100

/-- FB_OFFSET. -/
def kFbOffset : Nat := 0x803401

/-- FB_COMMIT. -/
def kFbCommit : Nat := 0x803402

/-- FB_RESULT. -/
def kFbResult : Nat := 0x803403

/-- GATE_STATE. -/
def kGateState : Nat := 0x803500

/-- PAIR_ENABLE. -/
def kPairEnable : Nat := 0x900000

/-- PARTNER_BOARD. -/
def kPartnerBoard : Nat := 0x900100

/-- MIRROR_GRANULES. -/
def kMirrorGranules : Nat := 0x900200

/-- MIRROR_EPOCH. -/
def kMirrorEpoch : Nat := 0x900300

/-- PAIR_DECIDE. -/
def kPairDecide : Nat := 0x900400

/-- PAIR_STATE. -/
def kPairState : Nat := 0x900500

/-- PAIR_EPOCH. -/
def kPairEpoch : Nat := 0x900600

/-- PAIR_COMMAND. -/
def kPairCommand : Nat := 0x900701

/-- PAIR_RESULT. -/
def kPairResult : Nat := 0x900702

/-- HSEQ_SENT. -/
def kHseqSent : Nat := 0x900801

/-- HSEQ_ACKED. -/
def kHseqAcked : Nat := 0x900802

/-- RESYNC_REMAINING. -/
def kResyncRemaining : Nat := 0x900A00

/-- PARTNER_FENCE. -/
def kPartnerFence : Nat := 0x900B00

/-- PARTNER_DETACH. -/
def kPartnerDetach : Nat := 0x900C00

/-- MOVE_LINKS. -/
def kMoveLinks : Nat := 0x901000

/-- MOVE_IN_SOURCE. -/
def kMoveInSource : Nat := 0x901101

/-- MOVE_IN_FIRST. -/
def kMoveInFirst : Nat := 0x901102

/-- MOVE_IN_COUNT. -/
def kMoveInCount : Nat := 0x901103

/-- MOVE_IN_TENANT. -/
def kMoveInTenant : Nat := 0x901104

/-- MOVE_IN_KEY. -/
def kMoveInKey : Nat := 0x901105

/-- MOVE_IN_TAG. -/
def kMoveInTag : Nat := 0x901106

/-- MOVE_IN_KCV. -/
def kMoveInKcv : Nat := 0x901107

/-- MOVE_IN_GO. -/
def kMoveInGo : Nat := 0x901108

/-- MOVE_IN_RESULT. -/
def kMoveInResult : Nat := 0x901109

/-- MOVE_EPOCH. -/
def kMoveEpoch : Nat := 0x90110A

/-- MOVE_OUT_LINK. -/
def kMoveOutLink : Nat := 0x901201

/-- MOVE_OUT_FIRST. -/
def kMoveOutFirst : Nat := 0x901202

/-- MOVE_OUT_COUNT. -/
def kMoveOutCount : Nat := 0x901203

/-- MOVE_OUT_DEST. -/
def kMoveOutDest : Nat := 0x901204

/-- MOVE_OUT_EPOCH. -/
def kMoveOutEpoch : Nat := 0x901205

/-- MOVE_OUT_GO. -/
def kMoveOutGo : Nat := 0x901206

/-- MOVE_OUT_RESULT. -/
def kMoveOutResult : Nat := 0x901207

/-- MOVE_OUT_DONE. -/
def kMoveOutDone : Nat := 0x901208

/-- REPAIR_STATE. -/
def kRepairState : Nat := 0xD00000

/-- RETIRED_UNITS. -/
def kRetiredUnits : Nat := 0xD00200

/-- RETIRE_POLICY. -/
def kRetirePolicy : Nat := 0xD00300

/-- RETIRE_KIND. -/
def kRetireKind : Nat := 0xD00401

/-- RETIRE_UNIT. -/
def kRetireUnit : Nat := 0xD00402

/-- RETIRE_GO. -/
def kRetireGo : Nat := 0xD00403

/-- RETIRE_RESULT. -/
def kRetireResult : Nat := 0xD00404

/-- CHANNEL_UE_LIMIT. -/
def kChannelUeLimit : Nat := 0xD00500

/-- FAULT_SEQ. -/
def kFaultSeq : Nat := 0xD00700

/-- SPARE_LANES. -/
def kSpareLanes : Nat := 0xD00800

/-- CONF_MODE. -/
def kConfMode : Nat := 0xA00000

/-- CONF_SOURCE. -/
def kConfSource : Nat := 0xA00100

/-- TENANT_CMD_ID. -/
def kTenantCmdId : Nat := 0xA01101

/-- TENANT_CMD. -/
def kTenantCmd : Nat := 0xA01102

/-- TENANT_GO. -/
def kTenantGo : Nat := 0xA01103

/-- TENANT_RESULT. -/
def kTenantResult : Nat := 0xA01104

/-- KEY_CMD_SLOT. -/
def kKeyCmdSlot : Nat := 0xA02101

/-- KEY_CMD_TENANT. -/
def kKeyCmdTenant : Nat := 0xA02102

/-- KEY_CMD_EPOCH. -/
def kKeyCmdEpoch : Nat := 0xA02103

/-- KEY_CMD. -/
def kKeyCmd : Nat := 0xA02104

/-- KEY_GO. -/
def kKeyGo : Nat := 0xA02105

/-- KEY_RESULT. -/
def kKeyResult : Nat := 0xA02106

/-- KEY_RETIRE_DEADLINE. -/
def kKeyRetireDeadline : Nat := 0xA02200

/-- LEDGER_HEAD. -/
def kLedgerHead : Nat := 0xA03100

/-- LEDGER_ACKED. -/
def kLedgerAcked : Nat := 0xA03200

/-- LEDGER_LOST. -/
def kLedgerLost : Nat := 0xA03400

/-- MGMT_IPV4. -/
def kMgmtIpv4 : Nat := 0x102001

/-- MGMT_PREFIX. -/
def kMgmtPrefix : Nat := 0x102002

/-- MGMT_GATEWAY. -/
def kMgmtGateway : Nat := 0x102003

/-- MGMT_SESSIONS. -/
def kMgmtSessions : Nat := 0x103100

/-- ACTIVE_PROFILE. -/
def kActiveProfile : Nat := 0x200000

/-- PROFILE_TARGET. -/
def kProfileTarget : Nat := 0x200101

/-- PROFILE_OP. -/
def kProfileOp : Nat := 0x200102

/-- PROFILE_FORCE. -/
def kProfileForce : Nat := 0x200103

/-- PROFILE_GO. -/
def kProfileGo : Nat := 0x200104

/-- PROFILE_RESULT. -/
def kProfileResult : Nat := 0x200105

/-- PROFILE_STATUS, by subindex. -/
def kProfileStatus (n : Nat) : Nat := 0x200200 + n

/-- PROFILE_CRC, by subindex. -/
def kProfileCrc (n : Nat) : Nat := 0x200300 + n

/-- PROFILE_SEL_PINS. -/
def kProfileSelPins : Nat := 0x200400

/-- TALLY_CLEAR. -/
def kTallyClear : Nat := 0xB00000

/-- HOIST_NOW. -/
def kHoistNow : Nat := 0xB02000

/-- HOIST_FAULT_MASK. -/
def kHoistFaultMask : Nat := 0xB02100

/-- HOIST_STATUS. -/
def kHoistStatus : Nat := 0xB02200

/-- HOIST_RELEASE. -/
def kHoistRelease : Nat := 0xB02300

/-- HOIST_MISSED. -/
def kHoistMissed : Nat := 0xB02500

/-- HOIST_REARM. -/
def kHoistRearm : Nat := 0xB02600

/-- CRIER_HEAD. -/
def kCrierHead : Nat := 0xB03100

/-- CRIER_ACKED. -/
def kCrierAcked : Nat := 0xB03200

/-- ALERT_MASK. -/
def kAlertMask : Nat := 0xB03300

/-- HOST_CRIER_MASK. -/
def kHostCrierMask : Nat := 0xB03400

/-- TRACE_CTRL. -/
def kTraceCtrl : Nat := 0xB04000

/-- TRACE_HEAD, by subindex. -/
def kTraceHead (n : Nat) : Nat := 0xB04200 + n

/-- POWER_STATE. -/
def kPowerState : Nat := 0xC00000

/-- POWER_TARGET. -/
def kPowerTarget : Nat := 0xC00100

/-- SLICE_PARK_ENABLE. -/
def kSliceParkEnable : Nat := 0xC00200

/-- SLICE_PARK_IDLE. -/
def kSliceParkIdle : Nat := 0xC00300

/-- SLICES_PARKED. -/
def kSlicesParked : Nat := 0xC00400

/-- LANE_PARK, by subindex. -/
def kLanePark (n : Nat) : Nat := 0xC00500 + n

/-- RAIL_STATUS, by subindex. -/
def kRailStatus (n : Nat) : Nat := 0xC01000 + n

/-- DIMM_FEEDS. -/
def kDimmFeeds : Nat := 0xC01100

/-- INPUT_STATUS. -/
def kInputStatus : Nat := 0xC01200

/-- REF_SELECT. -/
def kRefSelect : Nat := 0xC02000

/-- REF_AUTO. -/
def kRefAuto : Nat := 0xC02100

/-- REF_HOLDOFF. -/
def kRefHoldoff : Nat := 0xC02200

/-- CLOCK_STATUS. -/
def kClockStatus : Nat := 0xC02300

/-- FREQ_CLOCK. -/
def kFreqClock : Nat := 0xC02401

/-- FREQ_REF. -/
def kFreqRef : Nat := 0xC02402

/-- FREQ_WINDOW. -/
def kFreqWindow : Nat := 0xC02403

/-- FREQ_GO. -/
def kFreqGo : Nat := 0xC02404

/-- FREQ_RESULT. -/
def kFreqResult : Nat := 0xC02405

/-- FREQ_COUNT. -/
def kFreqCount : Nat := 0xC02406

/-- READY_STATE. -/
def kReadyState : Nat := 0x101600

/-- RESET_CAUSE. -/
def kResetCause : Nat := 0x101700

/-- BOOT_COUNT. -/
def kBootCount : Nat := 0x101800

/-- RESET_BOARD. -/
def kResetBoard : Nat := 0x101900

/-- FW_SLOT_STATUS. -/
def kFwSlotStatus : Nat := 0x104000

/-- FW_BOOT_SLOT. -/
def kFwBootSlot : Nat := 0x104100

/-- FW_GO. -/
def kFwGo : Nat := 0x104202

/-- FW_RESULT. -/
def kFwResult : Nat := 0x104203

/-- THERMAL_STATUS. -/
def kThermalStatus : Nat := 0xC03000

/-- SIDEBAND_PINS. -/
def kSidebandPins : Nat := 0xC03100

end Sys2Proof.Machine
end

