-- ==== Sys2Proof/Machine/Ops.lean ====
section
/-! DEFINITION. The named operations every chapter uses: bit fields, the accessors of the state's tables, time-stamps,
tallies, free values, crier records and their host copies, ledger events, and the queues of the links. -/

namespace Sys2Proof.Machine

/-! ### Bits -/

/-- Field `[lo+n-1:lo]` of a number. -/
def bits (x lo n : Nat) : Nat := x / 2 ^ lo % 2 ^ n

/-- Bit `n` of a number. -/
def bitAt (x n : Nat) : Bool := x / 2 ^ n % 2 == 1

/-- 1 for true. -/
def b2n (b : Bool) : Nat := if b then 1 else 0

/-- A number with bit `n` set or cleared. -/
def setBit (x n : Nat) (v : Bool) : Nat := x - (x / 2 ^ n % 2) * 2 ^ n + b2n v * 2 ^ n

/-- How many of the low `n` bits are set. -/
def popCount (x : Nat) : Nat → Nat
  | 0 => 0
  | n + 1 => popCount x n + b2n (bitAt x n)

/-- The numbers below `n`. -/
def upTo (n : Nat) : List Nat := List.range n

/-- The first number after `from` in rotation over 0 to `n - 1` that passes the test, starting with `from` itself. -/
def rotate (n start : Nat) (p : Nat → Bool) : Option Nat :=
  (upTo n).findSome? fun i => if p ((start + i) % n) then some ((start + i) % n) else none

/-- The two's complement number held in the low `w` bits. -/
def signed (x w : Nat) : Int :=
  if bitAt x (w - 1) then (bits x 0 w : Int) - 2 ^ w else (bits x 0 w : Int)

/-- The low `w` bits of an integer. -/
def unsigned (x : Int) (w : Nat) : Nat := (x % (2 ^ w : Int)).toNat

/-- Little-endian bytes of a number. -/
def leBytes : Nat → Nat → List Byte
  | 0, _ => []
  | n + 1, v => BitVec.ofNat 8 v :: leBytes n (v / 256)

/-- The number that little-endian bytes hold. -/
def leNat (bs : List Byte) : Nat := bs.foldr (fun b acc => b.toNat + 256 * acc) 0

/-- Big-endian bytes of a number. -/
def beBytes (n v : Nat) : List Byte := (leBytes n v).reverse

/-- The number that big-endian bytes hold. -/
def beNat (bs : List Byte) : Nat := bs.foldl (fun acc b => 256 * acc + b.toNat) 0

/-! ### Accessors -/

/-- Link `n`. -/
def State.link (s : State) (n : Nat) : LinkSt := s.links.get {} n

/-- Change link `n`. -/
def State.updLink (s : State) (n : Nat) (f : LinkSt → LinkSt) : State := { s with links := s.links.upd {} n f }

/-- Stall `n`. -/
def State.stall (s : State) (n : Nat) : StallSt := s.stalls.get {} n

/-- Change stall `n`. -/
def State.updStall (s : State) (n : Nat) (f : StallSt → StallSt) : State := { s with stalls := s.stalls.upd {} n f }

/-- Logical slice `n`. -/
def State.slice (s : State) (n : Nat) : SliceSt := s.slices.get {} n

/-- Change logical slice `n`. -/
def State.updSlice (s : State) (n : Nat) (f : SliceSt → SliceSt) : State := { s with slices := s.slices.upd {} n f }

/-- Board channel `n`. -/
def State.chan (s : State) (n : Nat) : ChanSt := s.chans.get {} n

/-- Change board channel `n`. -/
def State.updChan (s : State) (n : Nat) (f : ChanSt → ChanSt) : State := { s with chans := s.chans.upd {} n f }

/-- Barrow `n`. -/
def State.barrow (s : State) (n : Nat) : Barrow := s.barrows.get {} n

/-- Change barrow `n`. -/
def State.updBarrow (s : State) (n : Nat) (f : Barrow → Barrow) : State := { s with barrows := s.barrows.upd {} n f }

/-- Bunting tree `n`. -/
def State.tree (s : State) (n : Nat) : Tree := s.trees.get {} n

/-- Change tree `n`. -/
def State.updTree (s : State) (n : Nat) (f : Tree → Tree) : State := { s with trees := s.trees.upd {} n f }

/-- Key slot `n`. -/
def State.key (s : State) (n : Nat) : KeySlot := s.sec.keys.get {} n

/-- Change key slot `n`. -/
def State.updKey (s : State) (n : Nat) (f : KeySlot → KeySlot) : State :=
  { s with sec := { s.sec with keys := s.sec.keys.upd {} n f } }

/-- Tenant `n`. -/
def State.tenant (s : State) (n : Nat) : TenantSt := s.sec.tenants.get {} n

/-- Change tenant `n`. -/
def State.updTenant (s : State) (n : Nat) (f : TenantSt → TenantSt) : State :=
  { s with sec := { s.sec with tenants := s.sec.tenants.upd {} n f } }

/-- Pitch table entry of granule `g`. -/
def State.granule (s : State) (g : Nat) : PitchEntry := s.pitch.table.get {} g

/-- Change the pitch table entry of granule `g`. -/
def State.updGranule (s : State) (g : Nat) (f : PitchEntry → PitchEntry) : State :=
  { s with pitch := { s.pitch with table := s.pitch.table.upd {} g f } }

/-- Revoke match entry `n` (R84). -/
def State.revoke (s : State) (n : Nat) : RevokeEntry := s.pitch.revokes.get {} n

/-- Change revoke match entry `n`. -/
def State.updRevoke (s : State) (n : Nat) (f : RevokeEntry → RevokeEntry) : State :=
  { s with pitch := { s.pitch with revokes := s.pitch.revokes.upd {} n f } }

/-- Shaper row of stall `n` (12 Table 12.1). -/
def State.shaper (s : State) (n : Nat) : Shaper := s.shapers.get {} n

/-- Change the shaper row of stall `n`. -/
def State.updShaper (s : State) (n : Nat) (f : Shaper → Shaper) : State :=
  { s with shapers := s.shapers.upd {} n f }

/-- The logical slices in service. -/
def State.servingSlices (s : State) : List Nat := (upTo 8).filter fun n => (s.slice n).inService

/-- The board number (R14). -/
def State.board (s : State) : Nat := s.reg kBoardNumber

/-- A firmware slot (20 R394). -/
def State.fwSlot (s : State) (n : Nat) : FwSlot := if n = 0 then s.boot.fw0 else s.boot.fw1

/-- Change a firmware slot. -/
def State.updFwSlot (s : State) (n : Nat) (f : FwSlot → FwSlot) : State :=
  if n = 0 then { s with boot := { s.boot with fw0 := f s.boot.fw0 } }
  else { s with boot := { s.boot with fw1 := f s.boot.fw1 } }

/-- The stall that holds a host, if any: one that is not FREE. -/
def State.stallOfHost (s : State) (h : Nat) : Option Nat :=
  (s.stalls.find? fun p => p.2.phase != .free && p.2.host == h).map Prod.fst

/-- The stall of an ATTACHED host. -/
def State.attachedStall (s : State) (h : Nat) : Option Nat :=
  (s.stalls.find? fun p => p.2.phase == .attached && p.2.host == h).map Prod.fst

/-! ### Free values -/

/-- A fresh free value (DESIGN CHOICE, log 4). -/
def State.freshValue (s : State) : BitVec 256 := Config.freeValue s.free

/-- The state with the free value taken. -/
def State.takeFresh (s : State) : State := { s with free := s.free + 1 }

/-! ### Codes -/

/-- Code of a status (03 Table 3.4). -/
def Status.code : Status → Nat
  | .ok => 0 | .retryBusy => 1 | .accessDenied => 2 | .revoked => 3 | .staleRole => 4 | .poison => 5
  | .uncorrectable => 6 | .orphaned => 7 | .fenced => 8 | .partialFenced => 9 | .keyRetired => 10
  | .tagExpired => 11 | .timeout => 12 | .unsupportedVersion => 13

/-- A status code as a host must read it: an unknown code is UNCORRECTABLE (R55). -/
def Status.ofCode : Nat → Status
  | 0 => .ok | 1 => .retryBusy | 2 => .accessDenied | 3 => .revoked | 4 => .staleRole | 5 => .poison
  | 7 => .orphaned | 8 => .fenced | 9 => .partialFenced | 10 => .keyRetired | 11 => .tagExpired
  | 12 => .timeout | 13 => .unsupportedVersion | _ => .uncorrectable

/-- Precedence of a status (03 Table 3.4): the lower the number the higher it stands; PARTIAL_FENCED stands below every
numbered status and OK below PARTIAL_FENCED (R55). -/
def Status.rank : Status → Nat
  | .unsupportedVersion => 1 | .fenced => 2 | .staleRole => 3 | .tagExpired => 4 | .retryBusy => 5
  | .accessDenied => 6 | .revoked => 7 | .keyRetired => 8 | .orphaned => 9 | .uncorrectable => 10 | .poison => 11
  | .timeout => 12 | .partialFenced => 13 | .ok => 14

/-- The status that stands higher (R55). -/
def Status.join (a b : Status) : Status := if b.rank < a.rank then b else a

/-- Code of a stall state (04 Table 4.1). -/
def StallPhase.code : StallPhase → Nat
  | .free => 0 | .attached => 1 | .fenced => 2 | .detaching => 3

/-- Code of a granule state (04 Table 4.3). -/
def PitchPhase.code : PitchPhase → Nat
  | .free => 0 | .granted => 1 | .revoking => 2 | .held => 3

/-- Code of a key slot state (15 Table 15.3). -/
def KeyPhase.code : KeyPhase → Nat
  | .empty => 0 | .bound => 1 | .keyed => 2 | .retiring => 3 | .zeroised => 4

/-- Code of PAIR_STATE (13 Table 13.5). -/
def PairPhase.code : PairPhase → Nat
  | .unpaired => 0 | .syncing => 1 | .paired => 2 | .solo => 3 | .takingOver => 4 | .servingBoth => 5
  | .relinquishing => 6 | .relinquished => 7

/-- Row of an opcode in the tallies of a stall (03 Table 3.3's order). -/
def ReqOp.row : ReqOp → Nat
  | .read => 0 | .write => 1 | .writeMasked => 2 | .atomic => 3 | .reduceWrite => 4 | .flush => 5 | .invalidate => 6
  | .hint => 7 | .cohRead => 8 | .cohWriteback => 9 | .snoop => 10 | .doorbell => 11 | .mark => 12
  | .crierNotify => 13 | .push => 14 | .nop => 15 | .reserved _ => 15

/-- Opcode byte (03 Table 3.3). -/
def ReqOp.code : ReqOp → Nat
  | .read => 0x01 | .write => 0x02 | .writeMasked => 0x03 | .atomic => 0x04 | .reduceWrite => 0x05 | .flush => 0x06
  | .invalidate => 0x07 | .hint => 0x08 | .cohRead => 0x10 | .cohWriteback => 0x11 | .snoop => 0x18
  | .doorbell => 0x20 | .mark => 0x28 | .crierNotify => 0x30 | .push => 0x38 | .nop => 0x3F | .reserved c => c

/-! ### Time-stamps (10 R224 to R226) -/

/-- Where an event comes from, for the LATE flag: slice 0–7, 8 the host port, 9 the control domain, 10 the refresh
sequencers, 11 the always-on domain. -/
abbrev RegionNo := Nat

/-- The core clock's divider is ramping (R378). -/
def State.coreRamping (s : State) : Bool := s.clock.d != s.clock.target

/-- The region's clock is ramping or stopped (R225). -/
def State.late (s : State) (r : RegionNo) : Bool :=
  if r < 8 then (s.slice r).park != .running || s.coreRamping
  else if r = 8 then s.coreRamping else false

/-- Ramps and stops the region has had (R225). -/
def State.stretchOf (s : State) (r : RegionNo) : Nat := s.clock.stretch.get 0 r

/-- The time-stamp of Table 10.5 (DEDUCED, log 10). -/
def State.stamp (s : State) (r : RegionNo) : BitVec 128 :=
  BitVec.ofNat 128
    (s.time.ao / 1000000000 % 2 ^ 32 * 2 ^ 96 + s.time.ao % 1000000000 * 2 ^ 66 + b2n (s.late r) * 2 ^ 65
      + b2n (s.time.phase != .locked) * 2 ^ 64 + (if s.late r then s.stretchOf r % 16 else 0) * 2 ^ 60
      + b2n s.time.fallback * 2 ^ 59 + s.time.step % 2 ^ 42 * 2 ^ 16 + s.time.mphase % 2 ^ 16)

/-- The AO_TIME of Table 10.7 and R47 as 80 bits: seconds in [79:32], nanoseconds in [31:0]. -/
def aoStamp (ns : Nat) : Nat := ns / 1000000000 % 2 ^ 48 * 2 ^ 32 + ns % 1000000000

/-- The time in ns that an 80-bit stamp holds. -/
def stampNs (v : Nat) : Nat := bits v 32 48 * 1000000000 + bits v 0 32

/-! ### Tallies (17 R345 to R348) -/

/-- Tally groups in the order of 17 Table 17.1. -/
inductive Group where
  | stall | slice | link | barrow | key | sched | board
deriving DecidableEq, Repr

/-- Number of a group. -/
def Group.no : Group → Nat
  | .stall => 0 | .slice => 1 | .link => 2 | .barrow => 3 | .key => 4 | .sched => 5 | .board => 6

/-- Rows of an instance of a group. -/
def groupRows : Nat → Nat
  | 0 => 64 | 1 => 128 | 2 => 16 | 3 => 8 | 4 => 4 | 5 => 4 | _ => 64

/-- Instances of a group. -/
def groupSize : Nat → Nat
  | 0 => 1024 | 1 => 8 | 2 => 48 | 3 => 4096 | 4 => 256 | 5 => 1024 | 6 => 1 | _ => 0

/-- Key of a tally row. -/
def tallyKey (g inst row : Nat) : Nat := (g * 4096 + inst) * 128 + row

/-- Count `n` events in a row, modulo 2^64 (R345). -/
def State.count (s : State) (g : Group) (inst row : Nat) (n : Nat := 1) : State :=
  { s with obs := { s.obs with
      tally := s.obs.tally.upd 0 (tallyKey g.no inst row) (fun v => v + BitVec.ofNat 64 n) } }

/-- The value of a tally row. -/
def State.tallyOf (s : State) (g : Group) (inst row : Nat) : BitVec 64 := s.obs.tally.get 0 (tallyKey g.no inst row)

/-- Reset one tally row; until the next tick of the always-on clock a sample returns the final value (R348). -/
def State.resetTally (s : State) (g inst row : Nat) : State :=
  { s with obs := { s.obs with
      tally := s.obs.tally.set 0 (tallyKey g inst row) 0
      resetNow := (tallyKey g inst row, s.obs.tally.get 0 (tallyKey g inst row))
        :: s.obs.resetNow.filter (fun p => p.1 != tallyKey g inst row) } }

/-- A sample of a tally row (17 Table 17.2): RESET_COINCIDENT in bit 64 (DESIGN CHOICE, log 9). -/
def State.sample (s : State) (g inst row : Nat) : Nat :=
  match s.obs.resetNow.find? (fun p => p.1 == tallyKey g inst row) with
  | some (_, v) => v.toNat + 2 ^ 64
  | none => (s.obs.tally.get 0 (tallyKey g inst row)).toNat

/-! ### Ramps and wakes (18 R371, 19 R379) -/

/-- A ramp or stop of a region begins: its stretch count advances, in the board tally rows 16 to 26 too (19 R379). -/
def State.beginRamp (s : State) (r : RegionNo) : State :=
  let row := if r < 8 then 18 + r else if r = 8 then 16 else if r = 9 then 17 else 26
  ({ s with clock := { s.clock with stretch := s.clock.stretch.upd 0 r (· + 1) } } : State).count .board 0 row

/-- Work for a slice wakes it: a parked one begins to ramp up, one that is parking follows at once. -/
def State.wakeSlice (s : State) (n : Nat) : State :=
  match (s.slice n).park with
  | .parked => (s.beginRamp n).updSlice n fun x => { x with park := .waking, wakeWanted := false }
  | .parking => s.updSlice n fun x => { x with wakeWanted := true }
  | _ => s

/-! ### The crier (17 R353, R354) -/

/-- A LOST copy that stands for one or more copies (R354). -/
def lostCopy (seq count newest : Nat) : CrierCopy :=
  { lost := true, seq := seq, code := 0, unit := 0, time := 0, detail := 0, count := count, newest := newest }

/-- Queue a copy for a stall's host. When 16 or more are queued, the head copy is replaced by a LOST record, or the
oldest copy behind a LOST head is dropped and its count grows (R354, DEDUCED, log 12); answers how many copies were lost. -/
def queueCopy (q : List CrierCopy) (c : CrierCopy) : List CrierCopy × Nat :=
  if q.length < 16 then (q ++ [c], 0)
  else match q with
    | [] => ([c], 0)
    | h :: r =>
      if h.lost then
        match r with
        | o :: r' => ({ h with count := h.count + 1, newest := o.seq } :: (r' ++ [c]), 1)
        | [] => ([h, c], 0)
      else (lostCopy h.seq 1 h.seq :: (r ++ [c]), 1)

/-- Copies of a record go to the hosts named whose stalls are ATTACHED, when the code's bit of HOST_CRIER_MASK is set. -/
def State.copyTargets (s : State) (code : Nat) (hosts : List Nat) : List Nat :=
  if bitAt (s.reg kHostCrierMask) code then hosts.filterMap s.attachedStall else []

/-- Queue a copy for each target stall; lost copies count in board row 6. -/
def State.queueCopies (s : State) (c : CrierCopy) : List Nat → State
  | [] => s
  | st :: r =>
    let q := queueCopy (s.stall st).crierQ c
    State.queueCopies ((s.updStall st fun x => { x with crierQ := q.1 }).count .board 0 6 q.2) c r

/-! ### Words of SRAMs (06 R120, R129) -/

/-- The error is held in a word. -/
def SramErr.isAt (e : SramErr) (unit place word : Nat) : Bool := e.unit == unit && (e.place == place && e.word == word)

/-- Replace or drop the error of a word. -/
def State.updSram (s : State) (unit place word : Nat) (f : SramErr → Option SramErr) : State :=
  { s with repair := { s.repair with sram := s.repair.sram.filterMap fun e => if e.isAt unit place word then f e else some e } }

/-- A word is written: an error that is not hard is gone, a hard one shows again at its next read (R129). -/
def State.sramWrite (s : State) (unit place word : Nat) : State :=
  s.updSram unit place word fun e => if e.hard then some { e with rewritten := e.seen } else none

/-- Make a crier record (R353): the next SEQ, at row SEQ mod 4,096 of the ring, with its host copies. -/
def State.crier (s : State) (region : RegionNo) (code unit detail : Nat) (hosts : List Nat := []) : State :=
  let seq := s.obs.head + 1
  let targets := s.copyTargets code hosts
  let t := s.stamp region
  let rec_ : CrierRec := {
    seq := seq, code := code, hostCopy := !targets.isEmpty, unit := unit % 2 ^ 24, time := t,
    detail := BitVec.ofNat 256 detail }
  let s' := { s.sramWrite 0x0D 8 (seq % 4096) with obs := { s.obs with head := seq, ring := s.obs.ring.set {} (seq % 4096) rec_ } }
  s'.queueCopies {
    lost := false, seq := seq, code := code, unit := unit % 2 ^ 24, time := t,
    detail := BitVec.ofNat 256 detail, count := 0, newest := 0 } targets

/-! ### Ledger events (15 R323, R325) -/

/-- Who caused an event: principal code, transport, in-band source host. -/
structure Actor where
  principal : Nat
  transport : Nat
  source : Nat
deriving DecidableEq, Repr, Inhabited

/-- The board itself. -/
def Actor.board : Actor := { principal := 0, transport := 0, source := 0 }

/-- The first SEQ not covered by LEDGER_ACKED: the entries the manager holds are those up to the acknowledged SEQ, and
none while nothing has been signed. -/
def State.ledgerUncovered (s : State) : Nat :=
  match s.sec.head with
  | none => s.sec.nextSeq
  | some _ => s.sec.nextSeq - min s.sec.nextSeq (s.reg kLedgerAcked + 1)

/-- LEDGER_CAPACITY (15 Table 15.12). -/
def ledgerCapacity : Nat := 262144

/-- Put an entry into the buffer under the next SEQ. -/
def State.ledgerPush (s : State) (kind result : Nat) (a : Actor) (tenant body : Nat) : State :=
  let s1 := s.sramWrite 0x07 8 (s.sec.nextSeq % 1024)
  { s1 with sec := { s1.sec with
      buffer := s1.sec.buffer ++ [{
        seq := s1.sec.nextSeq, kind := kind, result := result, principal := a.principal,
        transport := a.transport, source := a.source, tenant := tenant, time := s.stamp 11,
        step := s.time.step, body := BitVec.ofNat 512 body }]
      nextSeq := s1.sec.nextSeq + 1 } }

/-- The buffer of 1,024 or the reserve of 4,096 entries is full (R325). -/
def State.ledgerFull (s : State) (room : Nat) : Bool :=
  decide (1024 < s.sec.buffer.length + room) || decide (ledgerCapacity < s.ledgerUncovered + room)

/-- An event that takes no SEQ (R325). -/
def State.ledgerMiss (s : State) : State := { s with sec := { s.sec with lost := s.sec.lost + 1, lostPending := s.sec.lostPending + 1 } }

/-- The LOST entry of cause 1 that follows events without a SEQ; FIRST is its own SEQ (R325). -/
def State.ledgerLost (s : State) : State :=
  let s1 := s.ledgerPush 0x0C 0 Actor.board 0 (s.sec.lostPending % 2 ^ 32 + 1 * 2 ^ 32 + s.sec.nextSeq * 2 ^ 64)
  { s1 with sec := { s1.sec with lostPending := 0 } }

/-- Write a ledger entry; one that finds no room is counted in LEDGER_LOST and takes no SEQ, and the next entry written
is then a LOST entry of cause 1 (R325). -/
def State.ledger (s : State) (kind result : Nat) (a : Actor) (tenant body : Nat) : State :=
  if s.ledgerFull 1 then s.ledgerMiss
  else
    let s1 := if s.sec.lostPending = 0 then s else s.ledgerLost
    if s1.ledgerFull 1 then s1.ledgerMiss else s1.ledgerPush kind result a tenant body

/-! ### Packets of the links (02 R25, R29, R33) -/

/-- Payload units of a message. -/
def TxMsg.units : TxMsg → Nat
  | .resp r => r.data.length
  | .req q => q.data.length
  | .mgmt _ m => (m.len + 63) / 64
  | .hal _ d => d.length

/-- Bytes of a packet (R25). -/
def TxMsg.bytes (m : TxMsg) : Nat := 28 + 64 * m.units

/-- The host a message goes to, if it goes to one. -/
def TxMsg.host : TxMsg → Option Nat
  | .resp r => some r.host
  | .req q => some q.host
  | .mgmt h _ => some h
  | .hal _ _ => none

/-- Bytes in a link's replay buffer. -/
def LinkSt.occupancy (l : LinkSt) : Nat := (l.unacked.map fun p => p.msg.bytes).sum

/-- The link is up. -/
def LinkSt.isUp (l : LinkSt) : Bool := l.phase == .up

/-- The link takes a packet of this many bytes: it is up, the 128 KiB replay buffer has room (R33, R35) and fewer than
32,767 packets are unacknowledged (R29). -/
def LinkSt.takes (l : LinkSt) (bytes : Nat) : Bool :=
  l.isUp && (decide (l.occupancy + bytes ≤ 131072) && decide (l.unacked.length < 32767))

/-- Flags a link's version and capabilities do not define are cleared in a response before it is sent (R53). -/
def LinkSt.strip (l : LinkSt) : TxMsg → TxMsg
  | .resp r => .resp { r with stale := r.stale && bitAt l.caps.toNat 11 }
  | m => m

/-- Row of a stall's tally that counts a message as sent: 16 on for responses by STATUS, the opcode's row for SNOOP,
CRIER_NOTIFY and PUSH (17 Table 17.1). -/
def TxMsg.stallRow : TxMsg → Nat
  | .resp r => 16 + r.status.code
  | .req q => if q.opcode = 0x18 then 10 else if q.opcode = 0x30 then 13 else 14
  | _ => 0

/-- The message is one that a stall's tally counts. -/
def TxMsg.counted : TxMsg → Bool
  | .resp _ => true
  | .req _ => true
  | _ => false

/-- Put a packet into a link's replay buffer under the next SEQ; the acknowledgement timer starts when the buffer was
empty (R29, R33). Its header carries the current ACK (R31). -/
def State.transmit (s : State) (n tc : Nat) (origin : Origin) (m : TxMsg) : State :=
  let l := s.link n
  let m' := l.strip m
  let s1 := s.updLink n fun l => { l with
    unacked := l.unacked ++ [{ seq := l.txSeq, tc := tc, replay := false, origin := origin, msg := m' }]
    txSeq := l.txSeq + 1
    waitBytes := l.waitBytes + m'.bytes
    ackSent := l.rxNext
    timerOn := true
    expiries := if l.unacked.isEmpty then 0 else l.expiries }
  let s2 := s1.count .link n 1
  match (m'.host.filter fun h => l.kind != 0 || l.partner == h).bind s.stallOfHost with
  | some st => ((s2.count .stall st 31 m'.bytes).count .stall st m'.stallRow (b2n m'.counted))
  | none => s2

/-- The links of a stall that are up (04 R72), whoever their partner is (DESIGN CHOICE, log 87). -/
def State.liveLinks (s : State) (st : Nat) : List Nat :=
  (upTo 48).filter fun n => bitAt (s.stall st).linkSet.toNat n && (s.link n).isUp

/-- The least-loaded of some links that takes a packet: the fewest bytes waiting for transmission, ties broken by a
rotating pointer (03, "Spraying"). -/
def State.pickLink (s : State) (ptr : Nat) (cands : List Nat) (bytes : Nat) : Option Nat :=
  let ok := cands.filter fun n => (s.link n).takes bytes
  match (ok.map fun n => (s.link n).waitBytes).min? with
  | none => none
  | some m => rotate 48 ptr fun n => ok.contains n && (s.link n).waitBytes == m

/-- The link on which a packet for a stall's host leaves now, by the spray rule. -/
def State.sprayLink (s : State) (st bytes : Nat) : Option Nat :=
  s.pickLink (s.stall st).sprayPtr (s.liveLinks st) bytes

/-- A tracker entry by its number. -/
def SliceSt.trk (x : SliceSt) (id : Nat) : Option Trk := x.tracker.find? fun t => t.id == id

/-- Change a tracker entry. -/
def SliceSt.updTrk (x : SliceSt) (id : Nat) (f : Trk → Trk) : SliceSt :=
  { x with tracker := x.tracker.map fun t => if t.id == id then f t else t }

/-- Remove a tracker entry. -/
def SliceSt.dropTrk (x : SliceSt) (id : Nat) : SliceSt :=
  { x with tracker := x.tracker.filter fun t => t.id != id }

/-- The next board tag (03, board requests): 16 bits, counted on. -/
def State.takeTag (s : State) : State := { s with nextTag := (s.nextTag + 1) % 65536 }

/-! ### Mirror epochs (13 R276) -/

/-- A row of 13 Table 13.4 changed: its kind (1 shapers, 3 schedule, 4 gate lists, 5 the active list, 6 the committed fall-back list, 7 its
offset, 8 TENANT_SEED, 9 ORPHAN_POLICY, COH_HOLD and SNOOP_TIMEOUT) and index. -/
def State.rowChanged (s : State) (kind index : Nat) : State :=
  { s with pair := { s.pair with
      changedRows := if s.pair.changedRows.contains (kind, index) then s.pair.changedRows else s.pair.changedRows ++ [(kind, index)] } }

/-- Several rows changed. -/
def State.rowsChanged (s : State) (rows : List (Nat × Nat)) : State := rows.foldl (fun a k => a.rowChanged k.1 k.2) s

/-! ### Faults that end nothing -/

/-- The next state, for a meaning that only changes the state. -/
abbrev Result := Host.Outcome State Fault Refusal

end Sys2Proof.Machine
end

