-- ==== Sys2Proof/Machine/Operands.lean ====
section
/-! DEFINITION. The operand forms: packet headers, control blocks and the rows of the tables, field by field. -/

namespace Sys2Proof.Machine

/-! ### Link headers and control blocks (02 Tables 2.3 to 2.5) -/

/-- Bytes of a 64-bit link header, byte 0 first. -/
def hdrBytes (h : BitVec 64) : List Byte := beBytes 8 h.toNat

/-- LTYPE of a link header. -/
def hdrLtype (h : BitVec 64) : Nat := bits h.toNat 60 4

/-- TC of a link header. -/
def hdrTc (h : BitVec 64) : Nat := bits h.toNat 57 3

/-- PAYLOAD_UNITS of a link header. -/
def hdrUnits (h : BitVec 64) : Nat := bits h.toNat 49 7

/-- SEQ of a link header. -/
def hdrSeq (h : BitVec 64) : BitVec 16 := h.extractLsb' 24 16

/-- ACK of a link header. -/
def hdrAck (h : BitVec 64) : BitVec 16 := h.extractLsb' 8 16

/-- HCRC over bytes 0 to 6 is right (R26). -/
def hdrOk (h : BitVec 64) : Bool := crc8 ((hdrBytes h).take 7) == h.extractLsb' 0 8

/-- Link header with its HCRC (R25, R26). -/
def mkHdr (ltype tc : Nat) (replay : Bool) (units : Nat) (seq ack : BitVec 16) : BitVec 64 :=
  let v := ltype % 16 * 2 ^ 60 + tc % 8 * 2 ^ 57 + b2n replay * 2 ^ 56 + units % 128 * 2 ^ 49 + seq.toNat * 2 ^ 24
    + ack.toNat * 2 ^ 8
  BitVec.ofNat 64 (v + (crc8 ((beBytes 8 v).take 7)).toNat)

/-- Bytes of a line, byte 0 in bits [7:0]. -/
def lineBytes (l : Line) : List Byte := leBytes 64 l.toNat

/-- Bytes of a packet that its CRC-32 covers (R26). -/
def packetBytes (hdr : BitVec 64) (hdr2 : BitVec 128) (payload : List Line) : List Byte :=
  hdrBytes hdr ++ beBytes 16 hdr2.toNat ++ payload.flatMap lineBytes

/-- The packet's CRC-32 is right. -/
def packetCrcOk (p : RxPacket) : Bool := crc32 (packetBytes p.hdr p.hdr2 p.payload) == p.crc

/-- Bytes 0 to 27 of a control block: CTYPE, RSVD (sent as 0 and not looked at, R10), ACK, RESYNC_OFFSET and the body. -/
def ctlBytes (ctype : BitVec 8) (c : Ctl) : List Byte :=
  ctype :: c.rsvd :: beBytes 2 c.ack.toNat ++ beBytes 2 c.resync.toNat ++ beBytes 22 c.body.toNat

/-- CCRC is right (R28) (DESIGN CHOICE, log 61). -/
def ctlOk (ctype : BitVec 8) (c : Ctl) : Bool := crc32 (ctlBytes ctype c) == c.ccrc

/-- Bytes `i` to `i + n - 1` of a control block body, most significant byte first (R28). -/
def bodyField (b : BitVec 176) (i n : Nat) : Nat := bits b.toNat (8 * (22 - i - n)) (8 * n)

/-- A body built from fields (bytes, value) in order. -/
def mkBody (fs : List (Nat × Nat)) : BitVec 176 :=
  let w := (fs.map Prod.fst).sum
  BitVec.ofNat 176 (fs.foldl (fun a f => a * 256 ^ f.1 + f.2 % 256 ^ f.1) 0 * 256 ^ (22 - w))

/-- Control block types (02 Table 2.5). -/
def ctAckOnly : Nat := 1
/-- ALIGN. -/
def ctAlign : Nat := 2
/-- HELLO. -/
def ctHello : Nat := 3
/-- LANE_REQ. -/
def ctLaneReq : Nat := 4
/-- LANE_ACCEPT. -/
def ctLaneAccept : Nat := 5
/-- LANE_SWITCH. -/
def ctLaneSwitch : Nat := 6
/-- TIME_REQ. -/
def ctTimeReq : Nat := 7
/-- TIME_RESP. -/
def ctTimeResp : Nat := 8
/-- LINK_DOWN. -/
def ctLinkDown : Nat := 9

/-- The control block as sent: ACK is the sender's current E, CCRC over bytes 0 to 27 (R28, R31). -/
def ctlOut (ack resync : BitVec 16) (o : CtlOut) : Ctl :=
  let c : Ctl := { rsvd := 0, ack := ack, resync := resync, body := o.body, ccrc := 0 }
  { c with ccrc := crc32 (ctlBytes (BitVec.ofNat 8 o.ctype) c) }

/-! ### Second headers (03 Tables 3.1 and 3.2, 13 Table 13.1, 16 Table 16.2) -/

/-- Response header (03 Table 3.2). -/
def Resp.hdr (r : Resp) : BitVec 128 :=
  BitVec.ofNat 128 (r.opcode % 256 * 2 ^ 120 + 2 ^ 119 + r.host % 4096 * 2 ^ 104 + r.tag.toNat * 2 ^ 88
    + r.status.code * 2 ^ 80 + r.epoch.toNat * 2 ^ 72 + r.load % 16 * 2 ^ 68 + b2n r.cached * 2 ^ 67
    + b2n r.stale * 2 ^ 66 + r.result.toNat)

/-- Request header of the board (03 Table 3.1). -/
def BoardReq.hdr (q : BoardReq) : BitVec 128 :=
  BitVec.ofNat 128 (q.opcode % 256 * 2 ^ 120 + q.host % 4096 * 2 ^ 104 + q.tag % 65536 * 2 ^ 88
    + q.tenant % 256 * 2 ^ 80 + q.epoch.toNat * 2 ^ 72 + q.len % 128 * 2 ^ 57 + q.mod % 32 * 2 ^ 52 + q.addr % 2 ^ 52)

/-- Management response header (16 Table 16.2). -/
def MgmtResp.hdr (m : MgmtResp) : BitVec 128 :=
  BitVec.ofNat 128 (m.mop % 256 * 2 ^ 120 + 2 ^ 119 + m.mtag.toNat * 2 ^ 88 + m.status.code * 2 ^ 80
    + m.reqEpoch % 512 / 2 * 2 ^ 72 + m.reqEpoch % 2 * 2 ^ 71 + m.reason % 128 * 2 ^ 64 + m.index % 65536 * 2 ^ 48
    + m.sub % 256 * 2 ^ 40 + m.count % 4096 * 2 ^ 28 + m.rowOut % 2 ^ 28)

/-- LTYPE of a message. -/
def TxMsg.ltype : TxMsg → Nat
  | .resp _ => 1
  | .req _ => 1
  | .mgmt _ _ => 2
  | .hal _ _ => 3

/-- Second header of a message. -/
def TxMsg.hdr2 : TxMsg → BitVec 128
  | .resp r => r.hdr
  | .req q => q.hdr
  | .mgmt _ m => m.hdr
  | .hal h _ => h

/-- Payload of a message; a management body is zero-padded to whole units (16 Table 16.1). -/
def TxMsg.payload : TxMsg → List Line
  | .resp r => r.data
  | .req q => q.data
  | .mgmt _ m => (List.range ((m.len + 63) / 64)).map fun i => BitVec.ofNat 512 (m.body / 2 ^ (512 * i))
  | .hal _ d => d

/-- A packet on the wire, with the current ACK and its checks (R25, R26, R33). -/
def TxPkt.wire (p : TxPkt) (ack : BitVec 16) : RxPacket :=
  let h := mkHdr p.msg.ltype p.tc p.replay p.msg.payload.length p.seq ack
  { hdr := h, hdr2 := p.msg.hdr2, payload := p.msg.payload, crc := crc32 (packetBytes h p.msg.hdr2 p.msg.payload) }

/-- The halyard header (13 Table 13.1). -/
structure HalHdr where
  kind : Nat
  poisoned : Bool
  cleared : Bool
  pairEpoch : BitVec 8
  sliceEpoch : BitVec 8
  slot : Nat
  keyEpoch : BitVec 8
  hseq : Nat
  offset : Nat
deriving DecidableEq, Repr, Inhabited

/-- The fields of a halyard header. -/
def halHdr (h : BitVec 128) : HalHdr where
  kind := bits h.toNat 124 4
  poisoned := bitAt h.toNat 123
  cleared := bitAt h.toNat 122
  pairEpoch := h.extractLsb' 112 8
  sliceEpoch := h.extractLsb' 104 8
  slot := bits h.toNat 96 8
  keyEpoch := h.extractLsb' 88 8
  hseq := bits h.toNat 56 32
  offset := bits h.toNat 0 44

/-- A halyard header built from its fields. -/
def HalHdr.pack (h : HalHdr) : BitVec 128 :=
  BitVec.ofNat 128 (h.kind % 16 * 2 ^ 124 + b2n h.poisoned * 2 ^ 123 + b2n h.cleared * 2 ^ 122
    + h.pairEpoch.toNat * 2 ^ 112 + h.sliceEpoch.toNat * 2 ^ 104 + h.slot % 256 * 2 ^ 96 + h.keyEpoch.toNat * 2 ^ 88
    + h.hseq % 2 ^ 32 * 2 ^ 56 + h.offset % 2 ^ 44)

/-! ### Table rows -/

/-- Code of a link's state (02 Table 2.11). -/
def LinkPhase.code : LinkPhase → Nat
  | .disabled => 0 | .training => 1 | .up => 2 | .held => 3

/-- LINK_STATUS (02 Table 2.11). -/
def LinkSt.statusWord (l : LinkSt) : Nat :=
  l.phase.code * 2 ^ 28 + l.mask.toNat * 2 ^ 24 + l.version % 16 * 2 ^ 20 + l.kind % 16 * 2 ^ 16 + l.partner % 4096

/-- Links of LINK_SET that are up. -/
def State.linksUp (s : State) (st : Nat) : Nat := (s.liveLinks st).length

/-- Stall entry word 0 (04 Table 4.1). -/
def State.stallWord0 (s : State) (st : Nat) : Nat :=
  let x := s.stall st
  x.phase.code * 2 ^ 62 + x.orderMode % 4 * 2 ^ 60 + x.strictTc.toNat * 2 ^ 52 + x.epoch.toNat * 2 ^ 44
    + x.host % 4096 * 2 ^ 32 + x.caps.toNat * 2 ^ 24 + s.linksUp st % 64 * 2 ^ 18

/-- Stall entry word 1 (04 Table 4.2). -/
def State.stallWord1 (s : State) (st : Nat) : Nat := (s.stall st).linkSet.toNat

/-- Pitch table entry (04 Table 4.3). -/
def PitchEntry.word (e : PitchEntry) : Nat :=
  e.phase.code * 2 ^ 62 + e.pitch % 2 ^ 20 * 2 ^ 42 + e.tenant % 256 * 2 ^ 34 + e.acl % 2 ^ 14 * 2 ^ 20
    + e.slot % 256 * 2 ^ 12 + b2n e.mirrored * 2 ^ 11 + b2n e.coherent * 2 ^ 10 + e.hint % 8 * 2 ^ 6 + b2n e.written * 2 ^ 5

/-- The pitch entry that a word of Table 4.3 holds. -/
def pitchOfWord (w : Nat) : PitchEntry where
  phase := match bits w 62 2 with | 0 => .free | 1 => .granted | 2 => .revoking | _ => .held
  pitch := bits w 42 20
  tenant := bits w 34 8
  acl := bits w 20 14
  slot := bits w 12 8
  mirrored := bitAt w 11
  coherent := bitAt w 10
  hint := bits w 6 3
  written := bitAt w 5

/-- Access list entry (04 Table 4.4). -/
def AclEntry.word (e : AclEntry) : Nat :=
  b2n e.valid * 2 ^ 31 + b2n e.rd * 2 ^ 30 + b2n e.wr * 2 ^ 29 + b2n e.co * 2 ^ 28 + e.host % 4096

/-- The access list entry that a word holds; RSVD bits are ignored (R10). -/
def aclOfWord (w : Nat) : AclEntry where
  valid := bitAt w 31
  rd := bitAt w 30
  wr := bitAt w 29
  co := bitAt w 28
  host := bits w 0 12

/-- Schedule entry, word 0 in bits [63:0] and word 1 in [127:64] (10 Tables 10.3 and 10.4). -/
def Sched.word (e : Sched) : Nat :=
  b2n e.valid * 2 ^ 63 + e.action % 16 * 2 ^ 59 + e.epoch % 256 * 2 ^ 51 + e.step % 2 ^ 48
    + (e.phase % 2 ^ 16 * 2 ^ 48 + e.rep % 2 ^ 16 * 2 ^ 32 + e.slices.toNat * 2 ^ 24 + e.target % 4096 * 2 ^ 12) * 2 ^ 64

/-- The schedule entry that a row holds. -/
def schedOfWord (w : Nat) : Sched where
  valid := bitAt w 63
  action := bits w 59 4
  epoch := bits w 51 8
  step := bits w 0 48
  phase := bits w 112 16
  rep := bits w 96 16
  slices := BitVec.ofNat 8 (bits w 88 8)
  target := bits w 76 12

/-- Step-keyed gate list entry (12 Table 12.2). -/
def GateEntry.word (e : GateEntry) : Nat :=
  e.phase % 2 ^ 16 + e.tcOpen.toNat * 2 ^ 16 + e.migrate % 4 * 2 ^ 24 + e.scrub % 4 * 2 ^ 26 + b2n e.valid * 2 ^ 31

/-- The gate list entry that a row holds. -/
def gateOfWord (w : Nat) : GateEntry where
  valid := bitAt w 31
  phase := bits w 0 16
  tcOpen := BitVec.ofNat 8 (bits w 16 8)
  migrate := bits w 24 2
  scrub := bits w 26 2

/-- Fall-back gate list entry (12 Table 12.3). -/
def FbEntry.word (e : FbEntry) : Nat :=
  e.duration % 2 ^ 32 + e.tcOpen.toNat * 2 ^ 48 + b2n e.scrub * 2 ^ 61 + b2n e.migrate * 2 ^ 62 + b2n e.valid * 2 ^ 63

/-- The fall-back entry that a row holds. -/
def fbOfWord (w : Nat) : FbEntry where
  valid := bitAt w 63
  duration := bits w 0 32
  tcOpen := BitVec.ofNat 8 (bits w 48 8)
  migrate := bitAt w 62
  scrub := bitAt w 61

/-- Key slot entry (15 Table 15.3). -/
def KeySlot.word (k : KeySlot) : Nat :=
  k.phase.code + b2n k.importOn * 2 ^ 3 + b2n k.generated * 2 ^ 4 + k.epoch.toNat * 2 ^ 8 + k.tenant % 256 * 2 ^ 16
    + k.refs % 2 ^ 24 * 2 ^ 24 + k.kcv.toNat * 2 ^ 48

/-- Code of a tenant's state (15 Table 15.7). -/
def TenantPhase.code : TenantPhase → Nat
  | .absent => 0 | .admitted => 1 | .removing => 2

/-- A digest as a little-endian field: its bytes in their order. -/
def digestWord (d : Digest) : Nat := leNat (beBytes 48 d.toNat)

/-- The digest that a little-endian field holds. -/
def digestOfWord (w : Nat) : Digest := BitVec.ofNat 384 (beNat (leBytes 48 w))

/-- Tenant entry (15 Table 15.7); SLOTS counts the key slots bound to the tenant. -/
def State.tenantWord (s : State) (t : Nat) : Nat :=
  let x := s.tenant t
  x.phase.code + (s.sec.keys.filter fun p => (p.2.phase == .bound || p.2.phase == .keyed) && p.2.tenant == t).length % 256
    * 2 ^ 8 + digestWord x.root * 2 ^ 64

/-- Principal table row (16 Table 16.3). -/
def Principal.word (p : Principal) : Nat :=
  b2n p.valid + p.role % 8 * 2 + b2n p.inband * 2 ^ 4 + p.host % 4096 * 2 ^ 8 + digestWord p.root * 2 ^ 64

/-- The principal that a row holds. -/
def principalOfWord (w : Nat) : Principal where
  valid := bitAt w 0
  role := bits w 1 3
  inband := bitAt w 4
  host := bits w 8 12
  root := digestOfWord (bits w 64 384)

/-- Ledger entry, 256 bytes little-endian (15 Table 15.10). -/
def LedgerEntry.word (e : LedgerEntry) : Nat :=
  e.seq % 2 ^ 64 + e.kind % 256 * 2 ^ 64 + e.result % 256 * 2 ^ 72 + e.principal % 256 * 2 ^ 80 + e.transport % 16 * 2 ^ 88
    + e.source % 4096 * 2 ^ 92 + e.tenant % 256 * 2 ^ 104 + e.time.toNat * 2 ^ 128 + e.step % 2 ^ 48 * 2 ^ 256
    + e.body.toNat * 2 ^ 320 + digestWord e.chain * 2 ^ 832 + leNat (beBytes 96 e.sig.toNat) * 2 ^ 1216

/-- Crier record (17 Table 17.4). -/
def CrierRec.word (r : CrierRec) : Nat :=
  r.seq % 2 ^ 64 + r.code % 2 ^ 16 * 2 ^ 64 + b2n r.hostCopy * 2 ^ 80 + r.unit % 2 ^ 24 * 2 ^ 88 + r.time.toNat * 2 ^ 128
    + r.detail.toNat * 2 ^ 256

/-- Trace record (R356). -/
def TraceRec.word (r : TraceRec) : Nat := r.target.toNat + r.kind % 256 * 2 ^ 64 + r.ns % 2 ^ 32 * 2 ^ 96

/-- Fault log entry (14 Table 14.5): four words. -/
def FaultEntry.word (e : FaultEntry) : Nat :=
  b2n e.valid * 2 ^ 63 + e.action % 8 * 2 ^ 60 + e.cls % 256 * 2 ^ 48 + e.unit % 2 ^ 16 * 2 ^ 32 + e.repair % 16 * 2 ^ 28
    + e.seq % 2 ^ 16 + e.detail % 2 ^ 64 * 2 ^ 64 + e.time.toNat * 2 ^ 128

/-- Error table entry (06 Tables 6.2 and 6.3): four words. -/
def ErrEntry.word (e : ErrEntry) : Nat :=
  b2n e.valid * 2 ^ 63 + e.kind % 8 * 2 ^ 60 + e.unit % 64 * 2 ^ 54 + e.group % 32 * 2 ^ 49 + e.host % 4096 * 2 ^ 37
    + e.tenant % 256 * 2 ^ 29 + e.count % 2 ^ 16 + (e.channel % 32 * 2 ^ 43 + e.loc % 2 ^ 43) * 2 ^ 64
    + e.time.toNat * 2 ^ 128

/-- State of a barrow (08 Table 8.1): 0 DISABLED, 1 IDLE, 2 QUEUED, 3 RUNNING. -/
def Barrow.stateCode (b : Barrow) : Nat :=
  if !b.enable || b.lostSlice then 0
  else if b.running.isSome then 3
  else if b.queue.isEmpty then 1 else 2

/-- Code of a frame state (05 Table 5.1). -/
def FramePhase.code : FramePhase → Nat
  | .free => 0 | .filling => 1 | .resident => 2 | .evicting => 3

/-- Frame table entry (05 Table 5.1). -/
def FrameEntry.word (f : FrameEntry) : Nat :=
  f.phase.code * 2 ^ 62 + f.hint % 8 * 2 ^ 59 + f.region % 2 ^ 19 * 2 ^ 40 + min f.count 65535 * 2 ^ 24
    + popCount f.pages.toNat 512 % 1024 * 2 ^ 14 + b2n f.pinned * 2 ^ 13

/-- Candidate table row (05 Table 5.8). -/
def Candidate.word (c : Candidate) : Nat :=
  c.region % 2 ^ 19 * 2 ^ 45 + c.hint % 8 * 2 ^ 42 + c.stall % 4096 * 2 ^ 30 + c.misses % 2 ^ 16

/-- Code of a region state (08 Table 8.5). -/
def RegionPhase.code : RegionPhase → Nat
  | .free => 0 | .armed => 1 | .closed => 2

/-- Accumulation region entry (08 Table 8.5). -/
def Region.word (r : Region) : Nat :=
  r.phase.code + r.barrow % 4096 * 2 ^ 2 + r.inFmt % 16 * 2 ^ 14 + b2n r.exact * 2 ^ 18 + unsigned r.anchor 8 * 2 ^ 19
    + r.expect % 2 ^ 32 * 2 ^ 27 + r.base % 2 ^ 52 * 2 ^ 64 + r.count % 2 ^ 32 * 2 ^ 128 + r.elems % 2 ^ 32 * 2 ^ 160
    + r.adds % 2 ^ 64 * 2 ^ 192

/-- Code of a tree's state (11 Table 11.1). -/
def TreePhase.code : TreePhase → Nat
  | .idle => 0 | .waiting => 1 | .running => 2

/-- Bunting tree entry (11 Table 11.1). -/
def Tree.word (t : Tree) : Nat :=
  b2n t.valid + b2n t.onLaunch * 2 + t.barrow % 4096 * 2 ^ 2 + t.tenant % 256 * 2 ^ 14 + t.tc % 8 * 2 ^ 22
    + t.cqOrder % 16 * 2 ^ 25 + b2n t.notify * 2 ^ 29 + t.lines % 2 ^ 32 * 2 ^ 32 + t.src % 2 ^ 52 * 2 ^ 64
    + t.dest % 2 ^ 52 * 2 ^ 128 + t.cqBase % 2 ^ 46 * 2 ^ 192 + t.opSeq % 2 ^ 32 * 2 ^ 256 + t.phase.code * 2 ^ 288

/-- A credit's whole bytes as the row shows them, rounded toward minus infinity (R244). -/
def creditBytes (c : Int) : Nat := unsigned (c.fdiv 65536) 32

/-- The load of one shaper (R249). -/
def loadOf (rate burst : Nat) (credit : Int) : Nat :=
  if rate = 0 then 0
  else
    let b := burst * 65536
    min 15 (16 * (b - (max credit 0).toNat) / b)

/-- The credit of a shaper brought up to the present: it rises at RATE and stops at BURST (R244). -/
def creditNow (rate burst : Nat) (credit : Int) (ns : Nat) : Int :=
  if rate = 0 then credit
  else max credit (min ((burst : Int) * 65536) (credit + ((rate * ns * 65536 / 1000 : Nat) : Int)))

/-- CREDIT_IN now, in 2^-16 bytes. -/
def State.creditIn (s : State) (st : Nat) : Int :=
  let r := s.shaper st
  creditNow r.rateIn r.burstIn r.creditIn (s.time.ao - r.upTo)

/-- CREDIT_OUT now, in 2^-16 bytes. -/
def State.creditOut (s : State) (st : Nat) : Int :=
  let r := s.shaper st
  creditNow r.rateOut r.burstOut r.creditOut (s.time.ao - r.upTo)

/-- The stall part of LOAD (R249). -/
def State.loadIn (s : State) (st : Nat) : Nat :=
  let r := s.shaper st
  loadOf r.rateIn r.burstIn (s.creditIn st)

/-- The OUT part of the stall's load (R249). -/
def State.loadOut (s : State) (st : Nat) : Nat :=
  let r := s.shaper st
  loadOf r.rateOut r.burstOut (s.creditOut st)

/-- The stall part of LOAD: the larger of the two (R249). -/
def State.stallLoad (s : State) (st : Nat) : Nat := max (s.loadIn st) (s.loadOut st)

/-- Shaper row (12 Table 12.1). -/
def State.shaperWord (s : State) (st : Nat) : Nat :=
  let r := s.shaper st
  r.rateIn % 2 ^ 32 + r.rateOut % 2 ^ 32 * 2 ^ 32 + r.burstIn % 2 ^ 32 * 2 ^ 64 + r.burstOut % 2 ^ 32 * 2 ^ 96
    + creditBytes (s.creditIn st) * 2 ^ 128 + creditBytes (s.creditOut st) * 2 ^ 160 + s.loadIn st * 2 ^ 192
    + s.loadOut st * 2 ^ 196

end Sys2Proof.Machine
end

