-- ==== Sys2Proof/Machine/PortOps.lean ====
section
/-! DEFINITION. The way out of the board: the shapers' charges and the flows of a slice (12 R244 to R251), entry to a slice's
pipeline queues (R260), and the ports of the crossbar (R264) with the spray rule of 03. -/

namespace Sys2Proof.Machine

/-! ### Shaper charges (R244 to R246) -/

/-- Bring a stall's credits up to the present. -/
def State.freshCredit (s : State) (st : Nat) : State :=
  s.updShaper st fun r => { r with creditIn := s.creditIn st, creditOut := s.creditOut st, upTo := s.time.ao }

/-- Charge the IN shaper, off while RATE_IN is 0; charged bytes count in stall row 30 (DEDUCED, log 49). -/
def State.chargeIn (s : State) (st bytes : Nat) : State :=
  if (s.shaper st).rateIn = 0 then s
  else ((s.freshCredit st).updShaper st fun r => { r with creditIn := r.creditIn - bytes * 65536 }).count .stall st 30 bytes

/-- Charge the OUT shaper, off while RATE_OUT is 0. -/
def State.chargeOut (s : State) (st bytes : Nat) : State :=
  if (s.shaper st).rateOut = 0 then s
  else (s.freshCredit st).updShaper st fun r => { r with creditOut := r.creditOut - bytes * 65536 }

/-- The IN shaper admits a request. -/
def State.admits (s : State) (st : Nat) : Bool := (s.shaper st).rateIn == 0 || decide (0 ≤ s.creditIn st)

/-- The OUT shaper lets a flow be eligible. -/
def State.outOpen (s : State) (st : Nat) : Bool := (s.shaper st).rateOut == 0 || decide (0 ≤ s.creditOut st)

/-! ### Flows (R250) -/

/-- The slot of the wheel in which a flow's credit is back at zero: its start, a multiple of 8 ns; the last slot for a time
beyond the span. -/
def State.wheelSlot (s : State) (st : Nat) : Nat :=
  let now := s.time.ao
  let rate := (s.shaper st).rateOut
  let need := (-(s.creditOut st)).toNat
  let wait := if rate = 0 then 0 else (need * 1000 + rate * 65536 - 1) / (rate * 65536)
  min ((now + wait + 7) / 8 * 8) ((now + 7) / 8 * 8 + 4095 * 8)

/-- The flow is in the wheel, eligible, or parked. -/
def SliceSt.hasFlow (x : SliceSt) (st : Nat) : Bool :=
  x.eligible.contains st || (x.parkedFlows.contains st || x.wheel.any fun w => w.2 == st)

/-- Take a flow out of every place. -/
def SliceSt.leaveFlow (x : SliceSt) (st : Nat) : SliceSt :=
  { x with
    eligible := x.eligible.filter (· ≠ st)
    parkedFlows := x.parkedFlows.filter (· ≠ st)
    wheel := x.wheel.filter fun w => w.2 ≠ st }

/-- Place a flow by its credit: eligible, or in the wheel (R250 steps 1 and 2). -/
def State.placeFlow (s : State) (slice st : Nat) : State :=
  let slot := s.wheelSlot st
  let ready := s.outOpen st
  s.updSlice slice fun x =>
    let y := x.leaveFlow st
    if !(x.egress.any fun p => p.stall == st) then y
    else if ready then { y with eligible := y.eligible ++ [st] }
    else { y with wheel := y.wheel ++ [(slot, st)] }

/-- A packet joins its stall's egress queue in a slice. A parked flow leaves its place when the packet's gate is open (R250). -/
def State.egressPush (s : State) (slice : Nat) (p : EgPkt) : State :=
  let s1 := s.updSlice slice fun x => { x with egress := x.egress ++ [p] }
  let x := s.slice slice
  if x.hasFlow p.stall && !(x.parkedFlows.contains p.stall && s.gates.tcOpen.getLsbD p.tc) then s1
  else s1.placeFlow slice p.stall

/-- A cc in which slices have sent ends: every flow of the stalls they sent to is placed by its credit, and each stall's pointer over
the slices moves one place past the first (R251). -/
def State.endSends (s : State) : State :=
  let sent := s.xbar.sent
  (sent.map Prod.snd).eraseDups.foldl (fun a st =>
    let first := (rotate 8 (a.stall st).slicePtr fun n => sent.contains (n, st)).getD 0
    (upTo 8).foldl (fun b k =>
      if (b.slice k).hasFlow st && !(b.slice k).parkedFlows.contains st then b.placeFlow k st else b)
      (a.updStall st fun x => { x with slicePtr := (first + 1) % 8 }))
    { s with xbar := { s.xbar with sent := [] } }

/-! ### Pipeline queues (R260) -/

/-- A level's queue. -/
def Pipe.level (p : Pipe) (n : Nat) : List PipeOp :=
  match n with | 1 => p.q1 | 2 => p.q2 | 3 => p.q3 | 4 => p.q4 | 5 => p.q5 | _ => p.q6

/-- Replace a level's queue. -/
def Pipe.setLevel (p : Pipe) (n : Nat) (q : List PipeOp) : Pipe :=
  match n with
  | 1 => { p with q1 := q } | 2 => { p with q2 := q } | 3 => { p with q3 := q } | 4 => { p with q4 := q }
  | 5 => { p with q5 := q } | _ => { p with q6 := q }

/-- An operation waits at a level of a slice's pipeline; DRAM maintenance is no work that wakes a slice, and passes by the stopped
clock of a parked one (18 R368, R371). -/
def State.pipePush (s : State) (slice level source what : Nat) : State :=
  if level = 1 ∧ (s.slice slice).park = .parked then s
  else (if level = 1 then s else s.wakeSlice slice).updSlice slice fun x => { x with
    pipe := x.pipe.setLevel level (x.pipe.level level ++ [{ source := source, what := what, wait := 0 }]) }

/-! ### The crossbar's output ports and the spray rule (R264; 03, "Spraying") -/

/-- A marked entry that frees counts as drained in every revoke that marked it (04 R85, R86). -/
def State.drainMarks (s : State) (slice id : Nat) : State :=
  match (s.slice slice).trk id with
  | none => s
  | some t => (t.marks.foldl (fun a m => a.updRevoke m fun r => { r with drained := r.drained + 1 }) s).updSlice slice
      fun x => x.updTrk id fun t => { t with marks := [] }

/-- A tracker entry frees without its response: it is discarded (03 R65, R67). -/
def State.freeTrk (s : State) (slice id : Nat) : State := (s.drainMarks slice id).updSlice slice fun x => x.dropTrk id

/-- A response that is discarded, its entry freed, and the loss counted (03 R67, 04 R73). -/
def State.discardTrk (s : State) (st slice id : Nat) : State := (s.freeTrk slice id).count .stall st 34

/-- A packet enters a link's replay buffer; a slice's response has then left its entry (03 R65), and a PUSH has been sent (11 R236). -/
def State.intoLink (s : State) (n : Nat) (p : EgPkt) : State :=
  let s1 := s.transmit n p.tc p.origin p.msg
  match p.origin with
  | .slice k id => (s1.drainMarks k id).updSlice k fun x => x.updTrk id fun t => { t with stage := .inLink }
  | .push tag => { s1 with pushes := s1.pushes.map fun (q : Push) => if q.tag == tag then { q with sent := true } else q }
  | _ => s1

/-- A packet waits at a link's output port as one of a source. -/
def State.waitAt (s : State) (n src : Nat) (p : EgPkt) : State :=
  { s with xbar := { s.xbar with outWait := s.xbar.outWait.upd [] n fun l => l ++ [(src, p)] } }

/-- The host port hands a packet of its own to a link's output port: it passes at once when nothing waits there and the link takes it,
and waits as source 8 otherwise (R264). -/
def State.wire (s : State) (n : Nat) (p : EgPkt) : State :=
  if (s.xbar.outWait.get [] n).isEmpty && (s.link n).takes p.msg.bytes then s.transmit n p.tc p.origin p.msg else s.waitAt n 8 p

/-- The host port hands a slice's response to a link's output port in the same way. -/
def State.portSend (s : State) (n : Nat) (p : EgPkt) : State :=
  if (s.xbar.outWait.get [] n).isEmpty && (s.link n).takes p.msg.bytes then s.intoLink n p else s.waitAt n 8 p

/-- The least-loaded of some links, ties broken by a rotating pointer, full or not. -/
def State.leastLoaded (s : State) (ptr : Nat) (ls : List Nat) : Option Nat :=
  match (ls.map fun n => (s.link n).waitBytes).min? with
  | none => none
  | some m => rotate 48 ptr fun n => ls.contains n && (s.link n).waitBytes == m

/-- The link that a packet of the host port leaves on: the spray rule's among those that take it, or among the live ones when all
are full. -/
def State.portLink (s : State) (st bytes : Nat) : Option Nat :=
  match s.sprayLink st bytes with
  | some n => some n
  | none => s.leastLoaded (s.stall st).sprayPtr (s.liveLinks st)

/-- Send a packet of the host port's own to a stall's host; answers whether the host has a live link (DEDUCED, log 38). -/
def State.spray (s : State) (st tc : Nat) (origin : Origin) (m : TxMsg) : State × Bool :=
  match s.portLink st m.bytes with
  | some n => ((s.updStall st fun x => { x with sprayPtr := (n + 1) % 48 }).wire n {
      stall := st, tc := tc, origin := origin, msg := m }, true)
  | none => (s, false)

/-- Send a slice's response to a stall's host in the same way. -/
def State.sprayEntry (s : State) (st tc slice id : Nat) (m : TxMsg) : State :=
  match s.portLink st m.bytes with
  | some n => (s.updStall st fun x => { x with sprayPtr := (n + 1) % 48 }).portSend n {
      stall := st, tc := tc, origin := .slice slice id, msg := m }
  | none => s

/-- Send a request of the board's own to a stall's host, or keep it until the host has a live link. -/
def State.sprayReq (s : State) (st tc : Nat) (origin : Origin) (m : TxMsg) : State :=
  match s.spray st tc origin m with
  | (s', true) => s'
  | (s', false) => { s' with xbar := { s'.xbar with
      noLink := s'.xbar.noLink ++ [{ stall := st, tc := tc, origin := origin, msg := m }] } }

/-- The board's requests that waited for a live link of some stalls are sent, and their flows that had none are placed again. -/
def State.sendWaiting (s : State) (stalls : List Nat) : State :=
  let s1 := (s.xbar.noLink.filter fun p => stalls.contains p.stall).foldl (fun a p => a.sprayReq p.stall p.tc p.origin p.msg)
    { s with xbar := { s.xbar with noLink := s.xbar.noLink.filter fun p => !stalls.contains p.stall } }
  stalls.foldl (fun a st => (upTo 8).foldl (fun b n => if (b.slice n).hasFlow st then b else b.placeFlow n st) a) s1

/-- The responses of a stall's entries are discarded: its host is, or was before a detach, fenced (04 R73). -/
def State.silenced (s : State) (st : Nat) : Bool :=
  (s.stall st).phase == .fenced || ((s.stall st).phase == .detaching && (s.stall st).wasFenced)

/-- Packets that pass a test are taken out of the slices' egress, the link ports and those that wait for a live link. -/
def State.dropPackets (s : State) (f : EgPkt → Bool) : State :=
  let s1 := (upTo 8).foldl (fun a n => a.updSlice n fun x => { x with egress := x.egress.filter fun p => !f p }) s
  { s1 with xbar := { s1.xbar with
    outWait := (upTo 48).foldl (fun t n => t.upd [] n fun l => l.filter fun w => !f w.2) s1.xbar.outWait
    noLink := s1.xbar.noLink.filter fun p => !f p } }

/-- The packets that wait in the slices' egress, at the link ports or for a live link. -/
def State.waitingPackets (s : State) : List EgPkt :=
  ((upTo 8).flatMap fun n => (s.slice n).egress) ++ ((upTo 48).flatMap fun n => (s.xbar.outWait.get [] n).map Prod.snd)
    ++ s.xbar.noLink

end Sys2Proof.Machine
end

