-- ==== Sys2Proof/Machine/Fault.lean ====
section
/-! DEFINITION. Hoists (17 R349 to R352) and the fault log (14 R302, R303). -/

namespace Sys2Proof.Machine

/-! ### Hoists -/

/-- Packets waiting at a slice's tracker: entries not yet in a link's replay buffer (R65). -/
def SliceSt.occupied (x : SliceSt) : Nat := (x.tracker.filter fun t => t.stage != .inLink).length

/-- Tracker entries of a stall in a slice (R65). -/
def SliceSt.trackerOf (x : SliceSt) (st : Nat) : Nat :=
  (x.tracker.filter fun t => t.stage != .inLink && t.stall == st).length

/-- Operations waiting at a bank's queue, over a channel (05 R105). -/
def ChanSt.queued (c : ChanSt) : Nat := (c.banks.map fun b => b.2.queue.length).sum

/-- One link's registers (17 Table 17.3). -/
def State.hoistLink (s : State) (n : Nat) : HoistLink :=
  let l := s.link n
  { status := l.statusWord, occupancy := l.occupancy, u := l.unacked.length, next := l.rxNext, ack := l.ackSent }

/-- One stall's registers (17 Table 17.3). -/
def State.hoistStall (s : State) (st : Nat) : HoistStall where
  stall := st
  word0 := s.stallWord0 st
  creditIn := s.creditIn st
  creditOut := s.creditOut st
  next := (s.stall st).next
  held := (s.stall st).held.length
  tracker := (upTo 8).map fun n => (s.slice n).trackerOf st

/-- One slice's registers (17 Table 17.3). -/
def State.hoistSlice (s : State) (n : Nat) : HoistSlice :=
  let x := s.slice n
  let count := fun (p : FramePhase) => (x.frames.filter fun f => f.2.phase == p).length
  { tracker := x.occupied, entryQueue := x.pipe.q3.length
    levels := [x.pipe.q1.length, x.pipe.q2.length, x.pipe.q3.length, x.pipe.q4.length, x.pipe.q5.length, x.pipe.q6.length]
    queues := (upTo 4).map fun c => (s.chan (4 * n + c)).queued
    frames := [12288 - count .filling - count .resident - count .evicting, count .filling, count .resident, count .evicting]
    regions := (upTo 64).map fun r => (x.regions.get {} r).phase.code }

/-- The snapshot of the latch edge (R350). -/
def State.capture (s : State) (seq sources : Nat) : Snapshot where
  seq := seq
  sources := sources
  step := s.time.step
  phase := s.time.mphase
  time := s.stamp 11
  tallies := s.obs.tally
  resets := s.obs.resetNow
  links := (upTo 48).map s.hoistLink
  stalls := s.stalls.map fun p => s.hoistStall p.1
  xbar := ((upTo 8).map fun n => ((s.xbar.inWait.get [] n).length, s.xbar.inPtr.get 0 n))
    ++ ((upTo 48).map fun n => ((s.xbar.outWait.get [] n).length, s.xbar.outPtr.get 0 n))
  slices := (upTo 8).map s.hoistSlice
  barrows := s.barrows.map fun p => (p.1, p.2.stateCode)

/-- A trigger of a hoist: source bits 0 pin, 1 write, 2 schedule, 3 fault; the fault class for the event. While HELD is 1
it latches nothing and counts; otherwise it latches, and the trace buffers freeze when TRACE_CTRL bit 4 is set (R349,
R350, R356). Either way HOIST_OUT is driven for 100 ns (R351). -/
def State.hoist (s : State) (sources cls : Nat) : State :=
  let s0 := { s with obs := { s.obs with lastHoist := some s.time.ticks, hoistOutUntil := s.time.ticks + 100 } }
  if s.obs.held then
    { s0 with obs := { s0.obs with missed := s0.obs.missed + 1 } }.count .board 0 8
  else
    let seq := s.obs.hoistSeq + 1
    let s1 := { s0 with obs := { s0.obs with
      held := true, hoistSeq := seq, sources := sources, snap := s.capture seq sources
      frozen := s.obs.frozen || bitAt (s.reg kTraceCtrl) 4 } }
    (s1.count .board 0 7).crier 11 0x22 (seq % 2 ^ 24) (sources % 16 + (if bitAt sources 3 then cls % 256 * 256 else 0))

/-! ### The fault log -/

/-- Code of REPAIR_STATE (R294). -/
def State.repairCode (s : State) : Nat :=
  if s.repair.impaired then 2 else if s.repair.foldSlice.isSome || s.repair.foldChannel.isSome then 1 else 0

/-- Words 0 and 1 of a fault log entry. -/
def FaultEntry.words (e : FaultEntry) : Nat := e.word % 2 ^ 128

/-- Log a fault: the entry at FAULT_SEQ mod 256, a FAULT crier event carrying words 0 and 1, and a hoist when the class's
bit of HOIST_FAULT_MASK is set (R302, R303, R349). -/
def State.fault (s : State) (region : RegionNo) (cls unit detail action : Nat) : State :=
  let e : FaultEntry := {
    valid := true, action := action, cls := cls, unit := unit, repair := s.repairCode, seq := s.repair.faultSeq % 65536
    detail := detail, time := s.stamp region }
  let s1 := { s with repair := { s.repair with
    faultLog := s.repair.faultLog.set {} (s.repair.faultSeq % 256) e
    faultSeq := s.repair.faultSeq + 1 } }
  let s2 := s1.crier region 0x1D cls e.words
  if bitAt (s.reg kHoistFaultMask) cls then s2.hoist 8 cls else s2

/-- ACTION codes of R303. -/
def actNone : Nat := 0
/-- Contained. -/
def actContained : Nat := 1
/-- Spared. -/
def actSpared : Nat := 2
/-- Retired. -/
def actRetired : Nat := 3
/-- Impaired. -/
def actImpaired : Nat := 4
/-- Relinquished. -/
def actRelinquished : Nat := 5
/-- Board stopped. -/
def actStopped : Nat := 6

/-- The last fault log entry's words 0 and 1, as a REPAIR ledger entry carries them (15 Table 15.13). -/
def State.lastFaultWords (s : State) : Nat := (s.repair.faultLog.get {} ((s.repair.faultSeq + 255) % 256)).words

end Sys2Proof.Machine
end

