-- ==== Sys2Proof/Machine/SramOps.lean ====
section
/-! DEFINITION. The error tables (06 R130), and errors in SRAM words (06 R120 to R123, R129): what reading or writing a word that holds
one leads to. -/

namespace Sys2Proof.Machine

/-! ### Error tables (R130) -/

/-- Error table 0–7 of a slice, 8 the common one. -/
def State.errTable (s : State) (t : Nat) : Tbl ErrEntry := if t < 8 then (s.slice t).errors else s.repair.commonErrors

/-- Replace an error table. -/
def State.setErrTable (s : State) (t : Nat) (e : Tbl ErrEntry) : State :=
  if t < 8 then s.updSlice t fun x => { x with errors := e }
  else { s with repair := { s.repair with commonErrors := e } }

/-- The same location. -/
def ErrEntry.samePlace (a b : ErrEntry) : Bool := a.unit == b.unit && (a.channel == b.channel && a.loc == b.loc)

/-- Seconds and nanoseconds of a time-stamp, for order. -/
def stampOrder (t : BitVec 128) : Nat := t.toNat / 2 ^ 66

/-- The oldest CORRECTED entry, by its time-stamp (DEDUCED, log 16). -/
def oldestCorrected (t : Tbl ErrEntry) : Option Nat :=
  let c := t.filter fun p => p.2.valid && p.2.kind == 0
  match (c.map fun p => stampOrder p.2.time).min? with
  | none => none
  | some m => (c.find? fun p => stampOrder p.2.time == m).map Prod.fst

/-- What a table becomes when an entry is written, and whether the entry was dropped as an overflow. A CORRECTED entry for a location
that some entry holds, of whatever kind, counts in that one. -/
def writeError (t : Tbl ErrEntry) (e : ErrEntry) : Tbl ErrEntry × Bool :=
  match t.find? fun p => p.2.valid && (e.kind == 0 && p.2.samePlace e) with
  | some (k, old) => (t.set {} k { old with count := min 65535 (old.count + 1), time := e.time }, false)
  | none =>
    match (upTo 32).find? fun k => !(t.get {} k).valid with
    | some k => (t.set {} k e, false)
    | none =>
      if e.kind = 0 then (t, true)
      else match oldestCorrected t with
        | some k => (t.set {} k e, false)
        | none => (t, true)

/-- Write an entry to an error table; kinds other than CORRECTED raise an ERROR event (R130, Table 17.7). -/
def State.logError (s : State) (t : Nat) (e : ErrEntry) : State :=
  let region := if t < 8 then t else 8
  let e := { e with valid := true, count := 1, time := s.stamp region }
  let w := writeError (s.errTable t) e
  let s1 := s.setErrTable t w.1
  let s2 := if w.2 then (if t < 8 then s1.count .slice t 96 else s1.count .board 0 14) else s1
  if e.kind = 0 then s2 else s2.crier region 0x0E e.unit (t + e.word % 2 ^ 128 * 2 ^ 64)

/-! ### Words of the SRAM structures (Table 6.1) -/

/-- Unit codes that a slice's error table serves (R130): 0x0F for an SRAM inside a slice. -/
def sramInSlice (unit place : Nat) : Bool :=
  decide (place < 8) && (unit == 0x05 || unit == 0x08 || unit == 0x0B || unit == 0x0C || unit == 0x0E || unit == 0x0F)

/-- Count-and-log structures. -/
def sramLogs (unit : Nat) : Bool := decide (4 ≤ unit ∧ unit ≤ 7)

/-- Structures with spare rows: "Remap" of Table 6.1, 0x0F among them (DESIGN CHOICE, log 73). -/
def sramRemaps (unit : Nat) : Bool :=
  unit == 0x04 || unit == 0x05 || unit == 0x08 || unit == 0x0A || unit == 0x0B || unit == 0x0C || unit == 0x0F

/-- Number of an SRAM among those with spare rows. -/
def sramKey (unit place : Nat) : Nat := unit * 64 + place

/-- The error table entry of a word: group 31 for an SRAM, the slice in CHANNEL where a slice's table holds it; a replay buffer's location
is its link and the packet's SEQ (DESIGN CHOICE, log 73). -/
def sramEntry (unit place word kind host tenant : Nat) : ErrEntry where
  kind := kind
  unit := unit
  group := 31
  host := host
  tenant := tenant
  channel := if sramInSlice unit place then place else 0
  loc := if unit = 0x0A then place * 65536 + word else word

/-- The table that serves a structure (R130). -/
def sramTable (unit place : Nat) : Nat := if sramInSlice unit place then place else 8

/-- The slice whose tally counts a structure's errors: its own, slice 0 for one of the host port (DESIGN CHOICE, log 73). -/
def sramTally (unit place : Nat) : Nat := if sramInSlice unit place then place else 0

/-- The row of a word moves to a spare row, while the SRAM has one of its 16 left (R129); else the error stays. -/
def State.moveRow (s : State) (unit place word : Nat) : State :=
  let used := s.repair.spareRows.get 0 (sramKey unit place)
  if sramRemaps unit && decide (used < 16) then
    { s with repair := { s.repair with
        spareRows := s.repair.spareRows.set 0 (sramKey unit place) (used + 1)
        movedRows := s.repair.movedRows ++ [(sramKey unit place, word)] } }.updSram unit place word fun _ => none
  else s

/-- A CORRECTED word (R122, R129): counted; a count-and-log word is written back, verified and logged, and its row moves when the verify
fails; another's row moves when the correction recurs after a rewrite. -/
def State.sramCorrected (s : State) (e : SramErr) (host tenant : Nat) : State :=
  let s1 := s.count .slice (sramTally e.unit e.place) (63 + e.unit)
  if sramLogs e.unit then
    let s2 := s1.logError (sramTable e.unit e.place) (sramEntry e.unit e.place e.word 0 host tenant)
    if e.hard then s2.moveRow e.unit e.place e.word else s2.updSram e.unit e.place e.word fun _ => none
  else if e.hard && e.rewritten then s1.moveRow e.unit e.place e.word
  else s1.updSram e.unit e.place e.word fun x => some { x with seen := true }

/-- An UNCORRECTABLE word (R123): counted and logged, with a SHARED_SRAM fault for a structure of the host port (14 Table 14.4). Its
outcome is its reader's. -/
def State.sramFailed (s : State) (e : SramErr) (host tenant : Nat) : State :=
  let s1 := (s.count .slice (sramTally e.unit e.place) (79 + e.unit)).logError (sramTable e.unit e.place)
    (sramEntry e.unit e.place e.word 2 host tenant)
  if sramInSlice e.unit e.place then s1 else s1.fault 8 0x08 0 0 actContained

/-- A word is read: what an error in it leads to, and whether it is uncorrectable. -/
def State.sramRead (s : State) (unit place word host tenant : Nat) : State × Bool :=
  match s.repair.sram.find? fun e => e.isAt unit place word with
  | none => (s, false)
  | some e => if e.double then (s.sramFailed e host tenant, true) else (s.sramCorrected e host tenant, false)

end Sys2Proof.Machine
end

