-- ==== Sys2Proof/Machine/Servo.lean ====
section
/-! DEFINITION. The always-on counter and its servo (10 R209 to R213). -/

namespace Sys2Proof.Machine

/-- The largest rate correction, 100 ppm of 1 ns in 2^-32 ns (R212). -/
def maxRate : Int := 429496

/-- The rate correction after a measurement: free within ±100 ppm (R212, DESIGN CHOICE, log 5). -/
def servoRate (offset rate : Int) : Int := max (-maxRate) (min maxRate (Config.servo offset rate))

/-- One tick of the 1 GHz counter: 1 ns plus the rate correction, with a resolution of 2^-32 ns (R209). -/
def TimeSt.tick (t : TimeSt) : TimeSt :=
  let f := (2 : Int) ^ 32 + t.frac + t.rate
  { t with ticks := t.ticks + 1, ao := t.ao + (f / 2 ^ 32).toNat, frac := (f % 2 ^ 32).toNat }

/-- Where a measurement moves TIME_STATE: 16 in a row within ±8 ns lock, 4 in a row beyond unlock (R212). -/
def servoPhase (t : TimeSt) (good : Bool) : TimePhase × Nat × Nat :=
  let g := if good then t.goodRun + 1 else 0
  let b := if good then 0 else t.badRun + 1
  match t.phase with
  | .locked => if 4 ≤ b then (.acquiring, 0, 0) else (.locked, g, b)
  | .acquiring => if 16 ≤ g then (.locked, g, 0) else (.acquiring, g, b)
  | .free => (.acquiring, b2n good, b2n (!good))
  | .holdover => (.acquiring, b2n good, b2n (!good))

/-- A valid measurement: `offset` in ps is the source's time less the board's. In FREE or ACQUIRING an offset beyond 1 µs
steps AO_TIME and raises TIME_STEPPED; otherwise only the rate moves (R212, R213). -/
def State.measure (s : State) (offset : Int) : State :=
  let t := s.time
  let good := decide (-8000 ≤ offset ∧ offset ≤ 8000)
  let p := servoPhase t good
  let step := (t.phase == .free || t.phase == .acquiring) && decide (offset < -1000000 ∨ 1000000 < offset)
  let ns := offset.tdiv 1000
  let s1 := { s with time := { t with
    lastOffset := offset, phase := p.1, goodRun := p.2.1, badRun := p.2.2
    rate := if step then t.rate else servoRate offset t.rate
    ao := if step then (t.ao + ns).toNat else t.ao } }
  if step then s1.crier 11 0x15 0 (unsigned ns 64) else s1

end Sys2Proof.Machine
end

