-- ==== Sys2Proof/Machine/PairOps.lean ====
section
/-! DEFINITION. What other chapters start in a pair or a move: the relinquish and takeover cycles, and the end of a
move-out (13 R278, R279, R290). -/

namespace Sys2Proof.Machine

/-- The halyard: links 44 to 47 while PAIR_ENABLE holds (R266). -/
def State.halyardLinks (s : State) : List Nat := if s.pair.enable then [44, 45, 46, 47] else []

/-- The halyard links that are up. -/
def State.liveHalyard (s : State) : List Nat := s.halyardLinks.filter fun n => (s.link n).isUp

/-- A move link (R286): its bit in MOVE_LINKS, a board as partner, version 1.2. -/
def State.isMoveLink (s : State) (n : Nat) : Bool :=
  bitAt (s.reg kMoveLinks) n && ((s.link n).kind == 2 && ((s.link n).version == 3 && !(s.halyardLinks.contains n)))

/-- REASON codes of RELINQUISH (13 Table 13.2). -/
def relSelfDiag : Nat := 1
/-- Loss of a reference. -/
def relRefclk : Nat := 2
/-- PAIR_COMMAND 1. -/
def relCommand : Nat := 3
/-- Hand-back. -/
def relHandback : Nat := 4
/-- Receipt of TAKEN. -/
def relTaken : Nat := 5

/-- A halyard or move packet that carries no line (Table 13.1). -/
def plainHal (kind hseq : Nat) (epoch : BitVec 8) (data : List Line) : TxMsg :=
  .hal ({ kind := kind, poisoned := false, cleared := false, pairEpoch := epoch, sliceEpoch := 0, slot := 0, keyEpoch := 0
          hseq := hseq, offset := 0 : HalHdr }).pack data

/-- Send an unsequenced packet on each live halyard link that takes it (Table 13.2). -/
def State.sendEach (s : State) (kind hseq : Nat) (data : List Line) : State :=
  let m := plainHal kind hseq s.pair.epoch data
  s.liveHalyard.foldl (fun a n => if (a.link n).takes m.bytes then a.transmit n 0 .move m else a) s

/-- The last HSEQ before a number. -/
def hseqBefore (h : Nat) : Nat := (h + 2 ^ 32 - 1) % 2 ^ 32

/-- RELINQUISH on each live halyard link (Table 13.2). -/
def State.sendRelinquish (s : State) (r : Relinquish) : State :=
  s.sendEach 7 (hseqBefore s.pair.hseqNext) [BitVec.ofNat 512 (r.reason + r.number * 2 ^ 8)]

/-- Bunting is not mirrored: on a board that gives up its own number the operations end unfinished, and no record or notice
follows (11 R240). -/
def State.endTrees (s : State) : State :=
  { s with
    trees := (s.trees.map Prod.fst).foldl (fun t k => t.upd {} k fun x => { x with phase := .idle, op := none, fromLaunch := none }) s.trees
    pushes := [] }.dropPackets fun p => match p.origin with
      | .push _ => true
      | _ => false

/-- The number a relinquish by this cause gives up: the board's own, or by hand-back the partner's. -/
def State.newRelinquish (s : State) (reason number : Nat) (handback : Bool) : State :=
  let r : Relinquish := {
    reason := reason, number := number, handback := handback, expired := false, ended := false, thenReset := false
    thenRails := false }
  let s1 := if handback then s else s.endTrees
  { s1 with pair := { s1.pair with phase := .relinquishing, relinq := some r } }.sendRelinquish r

/-- The relinquish cycle (R278 step 1): from PAIRED the whole board, from SERVING_BOTH the partner's number only by
hand-back. In any other state the event is ignored and counted (R277). -/
def State.relinquishCycle (s : State) (reason : Nat) : State :=
  match s.pair.phase with
  | .paired => s.newRelinquish reason s.board false
  | .servingBoth =>
    if reason = relHandback then s.newRelinquish reason s.pair.partnerNo true
    else { s with pair := { s.pair with refused := s.pair.refused + 1 } }
  | _ => { s with pair := { s.pair with refused := s.pair.refused + 1 } }

/-- The board becomes unfit to serve: a paired board relinquishes (R299); elsewhere the event is refused (R277). -/
def State.unfit (s : State) (reason : Nat) : State := s.relinquishCycle reason

/-- ACTION of a fault that makes a paired board relinquish, and `other` on any other board (R303). -/
def State.actionUnfit (s : State) (other : Nat) : Nat := if s.pair.phase == .paired then actRelinquished else other

/-! ### Epochs (03 R64) -/

/-- Advances of the last RESPONSE_HOLD. -/
def State.recent (s : State) (advances : List Nat) : List Nat :=
  advances.filter fun t => decide (s.time.ticks < t + s.reg kResponseHold * 1000)

/-- An advance would not be the 256th within one RESPONSE_HOLD (03 R64). -/
def State.mayAdvance (s : State) (advances : List Nat) : Bool := decide ((s.recent advances).length < 255)

/-- The list with an advance now. -/
def State.advanced (s : State) (advances : List Nat) : List Nat := s.time.ticks :: s.recent advances

/-! ### Takeover -/

/-- TAKEN on each live halyard link. -/
def State.sendTaken (s : State) : State := s.sendEach 9 0 [BitVec.ofNat 512 s.pair.takingNumber]

/-- The takeover cycle (R279): of the partner's number from PAIRED, or of the board's own in a hand-back. `taken` starts TAKEN
when a halyard link is up. -/
def State.beginTakeover (s : State) (number reason : Nat) (handback taken : Bool) : State :=
  let on := taken && !s.liveHalyard.isEmpty
  let s1 := { s with pair := { s.pair with
    phase := .takingOver, takingNumber := number, handbackTake := handback, takeReason := reason, takenOn := on
    streamEnd := none, finalHseq := none } }
  if on then s1.sendTaken else s1

/-- A takeover from PAIRED; in any other state the event is ignored and counted (R277), and so it is where the pair epoch may not
advance (03 R64) (DEDUCED, log 78). -/
def State.takeoverCycle (s : State) (reason : Nat) (taken : Bool) : State :=
  if s.pair.phase == .paired && s.mayAdvance s.pair.pairAdvances then s.beginTakeover s.pair.partnerNo reason false taken
  else { s with pair := { s.pair with refused := s.pair.refused + 1 } }

/-- PAIR_PRESENT_N went high and the last halyard link went down within PAIR_DECIDE of each other (R279). -/
def State.decided (s : State) : Bool :=
  let a := s.pair.presentSince
  let b := s.pair.halDownSince
  decide (max a b ≤ min a b + s.reg kPairDecide * 1000)

/-- The partner has vanished, with the halyard and its presence: a PAIRED board takes it over, and in another state the event is
refused (R277, R279). -/
def State.partnerGone (s : State) : State :=
  if s.pair.enable && (s.pair.presentHigh && (s.liveHalyard.isEmpty && s.decided)) then s.takeoverCycle 0 false else s

/-- End the move-out with a result; a MOVE_DONE crier event (R290). -/
def State.endMoveOut (s : State) (result : Nat) : State :=
  match s.pair.moveOut with
  | none => s
  | some m =>
    let s1 := ({ s with pair := { s.pair with moveOut := none } }.setReg kMoveOutResult result).setReg kMoveOutDone (m.acked / 2 ^ 18)
    s1.crier 8 0x23 m.first (result % 256 + m.lines % 2 ^ 64 * 2 ^ 64 + m.poisoned % 2 ^ 64 * 2 ^ 128)

end Sys2Proof.Machine
end

