-- ==== Sys2Proof/Machine/HalOps.lean ====
section
/-! DEFINITION. The sequenced stream of the halyard (13 R270 to R274): packets numbered by HSEQ, kept until MIRROR_ACK
covers them, and sent on the least-loaded live halyard link within the window. -/

namespace Sys2Proof.Machine

/-- HALYARD_WINDOW (R271). -/
def halyardWindow : Nat := 16384

/-- The partner's slice that holds a byte offset, by its last HEARTBEAT (R81, Table 13.2). -/
def State.partnerSlice (s : State) (off : Nat) : Nat :=
  let p := bits off 12 32
  match (upTo 8).find? fun n => !bitAt s.pair.partnerSlices n with
  | none => p % 8
  | some r => if p % 8 ≠ r then p % 8 else ((upTo 8).filter (· ≠ r)).getD (p / 8 % 7) 0

/-- The role epoch of that slice, from the latest HEARTBEAT (R272). -/
def State.partnerEpochOf (s : State) (off : Nat) : BitVec 8 :=
  BitVec.ofNat 8 (bits s.pair.partnerEpochs.toNat (8 * s.partnerSlice off) 8)

/-- A sequenced packet with its header (Table 13.1). -/
def State.halMsg (s : State) (o : HalOut) : TxMsg :=
  .hal ({ kind := o.kind, poisoned := o.poisoned, cleared := o.cleared, pairEpoch := s.pair.epoch,
          sliceEpoch := o.sliceEpoch, slot := o.slot, keyEpoch := o.keyEpoch, hseq := o.hseq,
          offset := o.offset : HalHdr }).pack o.data

/-- Send one kept packet that is not on a link, on the live halyard link with the fewest bytes waiting (R271). -/
def State.halSendOne (s : State) (hseq : Nat) : State :=
  match s.pair.sent.find? fun o => o.hseq == hseq && !o.onWire with
  | none => s
  | some o =>
    let m := s.halMsg o
    match s.pickLink s.pair.halPtr s.liveHalyard m.bytes with
    | none => s
    | some n =>
      { s with pair := { s.pair with
          halPtr := (n + 1) % 48
          sent := s.pair.sent.map fun (x : HalOut) => if x.hseq == hseq then { x with onWire := true } else x } }.transmit
        n 0 .halyard m

/-- Send every packet that stands within the window and is not on a link. -/
def State.halFlush (s : State) : State :=
  ((s.pair.sent.take halyardWindow).filter fun o => !o.onWire).foldl (fun a o => a.halSendOne o.hseq) s

/-- Number a packet and keep it until it is acknowledged (R271). -/
def State.halPush (s : State) (kind : Nat) (offset slot : Nat) (poisoned cleared : Bool) (data : List Line) : State :=
  let o : HalOut := {
    hseq := s.pair.hseqNext, kind := kind
    sliceEpoch := if kind = 1 then s.partnerEpochOf offset else 0
    slot := slot, keyEpoch := if kind = 1 then (s.key slot).epoch else 0
    offset := offset, poisoned := poisoned, cleared := cleared, data := data, onWire := false }
  { s with pair := { s.pair with hseqNext := (s.pair.hseqNext + 1) % 2 ^ 32, sent := s.pair.sent ++ [o] } }.halFlush

/-- MIRROR_ACK covers a sequenced packet: it is kept no longer. -/
def State.halCovered (s : State) (h : Option Nat) : Bool :=
  match h with
  | none => true
  | some n => !(s.pair.sent.any fun o => o.hseq == n)

/-- The board keeps its partner's image up to date: in PAIRED, in a relinquish, and on the active side of a rejoin (R274,
R284). -/
def State.mirrors (s : State) : Bool :=
  s.pair.enable && (s.pair.phase == .paired || s.pair.phase == .relinquishing || s.pair.activeSide)

/-- A CONTROL record (Table 13.3): byte 0 TYPE, content from byte 8. -/
def ctlRecord (type content : Nat) : Line := BitVec.ofNat 512 (type + content * 2 ^ 64)

/-- Send a CONTROL record when there is a partner to keep it; answers its HSEQ. -/
def State.halRecord (s : State) (type content : Nat) : State × Option Nat :=
  if s.mirrors then (s.halPush 2 0 0 false false [ctlRecord type content], some s.pair.hseqNext) else (s, none)

/-- The granule is in the mirrored range W to 2W − 1 (R267). -/
def State.inMirrorRange (s : State) (g : Nat) : Bool :=
  decide (s.pair.window ≤ g ∧ g < 2 * s.pair.window)

/-- PITCH record of a granule in the mirrored range (Table 13.3). -/
def State.tellPitch (s : State) (g : Nat) : State × Option Nat :=
  if s.inMirrorRange g then s.halRecord 1 (g + (s.granule g).word * 2 ^ 32) else (s, none)

/-- PITCH or ACL record of the number that the receiver takes back by a rejoin: bit 440 of the content tells it from one of
this board's own number (DESIGN CHOICE, log 22). -/
def ownMark : Nat := 2 ^ 440

/-- PITCH record of a granule served for the partner, as the partner numbers it (R284). -/
def State.tellImagePitch (s : State) (g : Nat) : State × Option Nat :=
  s.halRecord 1 (g + (s.pair.image.pitch.get {} g).word * 2 ^ 32 + ownMark)

/-- ACL record. -/
def State.tellAcl (s : State) (list entry : Nat) : State :=
  (s.halRecord 2 (list + entry * 2 ^ 16 + (s.pitch.acl.get {} (64 * list + entry)).word * 2 ^ 32)).1

/-- KEY_STATE record. -/
def State.tellKey (s : State) (slot : Nat) : State :=
  (s.halRecord 3 (slot + (s.key slot).phase.code * 2 ^ 8 + (s.key slot).epoch.toNat * 2 ^ 16)).1

/-- STALL record. -/
def State.tellStall (s : State) (st : Nat) : State := (s.halRecord 4 (st + s.stallWord0 st * 2 ^ 64)).1

/-- The board serves its partner's number from the window: in SERVING_BOTH, and while it hands that number back for the requests it
has admitted (R278, R282). -/
def State.servesPartner (s : State) : Bool :=
  s.pair.phase == .servingBoth || (s.pair.phase == .relinquishing && s.pair.relinq.any (·.handback))

/-- A granule of the mirror window that the board serves for its partner (R282). -/
def State.servesWindow (s : State) (g : Nat) : Bool := s.servesPartner && decide (g < s.pair.window)

/-- The pitch entry that governs a byte of this board: the table's, or the image's for a window granule served for the
partner (R282). -/
def State.ownerOf (s : State) (off : Nat) : PitchEntry :=
  if s.servesWindow (off / 2 ^ 24) then s.pair.image.pitch.get {} (off / 2 ^ 24 + s.pair.window) else s.granule (off / 2 ^ 24)

/-- The first write to a granule sets WRITTEN in the entry that governs it (04 R76) (DEDUCED, log 36). -/
def State.markWritten (s : State) (off : Nat) : State :=
  if s.servesWindow (off / 2 ^ 24) then
    { s with pair := { s.pair with image := { s.pair.image with
        pitch := s.pair.image.pitch.upd {} (off / 2 ^ 24 + s.pair.window) fun e => { e with written := true } } } }
  else s.updGranule (off / 2 ^ 24) fun e => { e with written := true }

/-- Where a line of this board stands on the partner: the mirrored range in the partner's window, the window in the
partner's range (R267, R284). -/
def State.partnerOffset (s : State) (off : Nat) : Nat :=
  if off / 2 ^ 24 < s.pair.window then off + s.pair.window * 2 ^ 24 else off - s.pair.window * 2 ^ 24

/-- Writes to the granule are forwarded: it is MIRRORED, or it is being copied and served (R273, R284). -/
def State.forwards (s : State) (g : Nat) : Bool :=
  s.pair.enable && ((s.ownerOf (g * 2 ^ 24)).mirrored
    || (s.pair.copying == some g && (decide (s.pair.window ≤ g) || s.servesWindow g)))

/-- A packet of the halyard stream that no live link would take goes out again when one does (R49, R271). -/
def State.halUnsent (s : State) (hdr : BitVec 128) : State :=
  { s with pair := { s.pair with
      sent := s.pair.sent.map fun (o : HalOut) => if o.hseq == (halHdr hdr).hseq then { o with onWire := false } else o } }

end Sys2Proof.Machine
end

