-- ==== Sys2Proof/Machine/Aes.lean ====
section
/-! DEFINITION. AES-256 in XTS mode over one line (15 R310), by the standards that name them. -/

namespace Sys2Proof.Machine

/-- The S-box, entry `i` in bits `[8i+7:8i]`. -/
def sboxBits : BitVec 2048 := 0x16BB54B00F2D99416842E6BF0D89A18CDF2855CEE9871E9B948ED9691198F8E19E1DC186B95735610EF6034866B53E708A8BBD4B1F74DDE8C6B4A61C2E2578BA08AE7A65EAF4566CA94ED58D6D37C8E779E4959162ACD3C25C2406490A3A32E0DB0B5EDE14B8EE4688902A22DC4F816073195D643D7EA7C41744975FEC130CCDD2F3FF1021DAB6BCF5389D928F40A351A89F3C507F02F94585334D43FBAAEFD0CF584C4A39BECB6A5BB1FC20ED00D153842FE329B3D63B52A05A6E1B1A2C830975B227EBE28012079A059618C323C7041531D871F1E5A534CCF73F362693FDB7C072A49CAFA2D4ADF04759FA7DC982CA76ABD7FE2B670130C56F6BF27B777C63

/-- The inverse S-box. -/
def invSboxBits : BitVec 2048 := 0x7D0C2155631469E126D677BA7E042B17619953833CBBEBC8B0F52AAE4D3BE0A0EF9CC9939F7AE52D0D4AB519A97F51605FEC8027591012B131C7078833A8DD1FF45ACD78FEC0DB9A2079D2C64B3E56FC1BBE18AA0E62B76F89C5291D711AF1476EDF751CE837F9E28535ADE72274AC9673E6B4F0CECFF297EADC674F4111913A6B8A130103BDAFC1020F3FCA8F1E2CD00645B3B80558E4F70AD3BC8C00ABD890849D8DA75746155EDAB9EDFD5048706C92B6655DCC5CA4D41698688664F6F87225D18B6D49A25B76B224D92866A12E084EC3FA420B954CEE3D23C2A632947B54CBE9DEC444438E3487FF2F9B8239E37CFBD7F3819EA340BF38A53630D56A0952

/-- The S-box. -/
def sbox (b : Byte) : Byte := sboxBits.extractLsb' (8 * b.toNat) 8

/-- The inverse S-box. -/
def invSbox (b : Byte) : Byte := invSboxBits.extractLsb' (8 * b.toNat) 8

/-- Multiplication by x in GF(2^8) over 0x11B. -/
def xtime (b : Byte) : Byte := if b.msb then (b <<< 1) ^^^ 0x1B else b <<< 1

/-- The byte at a place. -/
def byteAt (l : List Byte) (i : Nat) : Byte := l.getD i 0

/-- Byte-wise XOR. -/
def xorBytes (a b : List Byte) : List Byte := List.zipWith (· ^^^ ·) a b

/-- The next four words of the AES-256 key schedule, from the last eight (32 bytes); `i` numbers the half: an even one
rotates, substitutes and adds the round constant, an odd one substitutes. -/
def keyHalf (k : List Byte) (i : Nat) (rc : Byte) : List Byte :=
  let t := k.drop 28
  let g := if i % 2 = 0 then xorBytes [sbox (byteAt t 1), sbox (byteAt t 2), sbox (byteAt t 3), sbox (byteAt t 0)] [rc, 0, 0, 0]
    else t.map sbox
  let w0 := xorBytes (k.take 4) g
  let w1 := xorBytes ((k.drop 4).take 4) w0
  let w2 := xorBytes ((k.drop 8).take 4) w1
  let w3 := xorBytes ((k.drop 12).take 4) w2
  w0 ++ w1 ++ w2 ++ w3

/-- The round keys from the third on, 16 bytes each. -/
def roundKeysFrom (k : List Byte) (rc : Byte) : Nat → Nat → List (List Byte)
  | 0, _ => []
  | n + 1, i =>
    let h := keyHalf k i rc
    h :: roundKeysFrom (k.drop 16 ++ h) (if i % 2 = 0 then xtime rc else rc) n (i + 1)

/-- The 15 round keys of AES-256. -/
def roundKeys (key : List Byte) : List (List Byte) := key.take 16 :: key.drop 16 :: roundKeysFrom key 1 13 0

/-- ShiftRows on 16 bytes, column by column. -/
def shiftRows (s : List Byte) : List Byte :=
  (List.range 16).map fun i => byteAt s ((i + 4 * (i % 4)) % 16)

/-- The inverse of ShiftRows. -/
def invShiftRows (s : List Byte) : List Byte :=
  (List.range 16).map fun i => byteAt s ((i + 12 * (i % 4)) % 16)

/-- MixColumns, byte `i`. -/
def mixByte (s : List Byte) (i : Nat) : Byte :=
  let c := i / 4 * 4
  let a := fun j => byteAt s (c + (i + j) % 4)
  xtime (a 0) ^^^ (xtime (a 1) ^^^ a 1) ^^^ a 2 ^^^ a 3

/-- The inverse of MixColumns, byte `i`. -/
def invMixByte (s : List Byte) (i : Nat) : Byte :=
  let c := i / 4 * 4
  let a := fun j => byteAt s (c + (i + j) % 4)
  let x2 := fun b => xtime b
  let x4 := fun b => xtime (xtime b)
  let x8 := fun b => xtime (xtime (xtime b))
  (x8 (a 0) ^^^ x4 (a 0) ^^^ x2 (a 0)) ^^^ (x8 (a 1) ^^^ x2 (a 1) ^^^ a 1) ^^^ (x8 (a 2) ^^^ x4 (a 2) ^^^ a 2)
    ^^^ (x8 (a 3) ^^^ a 3)

/-- The rounds after the first key addition; the last has no MixColumns. -/
def encRounds (s : List Byte) : List (List Byte) → List Byte
  | [] => s
  | [k] => xorBytes (shiftRows (s.map sbox)) k
  | k :: k' :: ks =>
    let t := shiftRows (s.map sbox)
    encRounds (xorBytes ((List.range 16).map (mixByte t)) k) (k' :: ks)

/-- AES-256 encryption of a 16-byte block. -/
def aesEnc (key blk : List Byte) : List Byte :=
  match roundKeys key with
  | k0 :: ks => encRounds (xorBytes blk k0) ks
  | [] => blk

/-- The inverse rounds, keys in reverse order; the first has no inverse MixColumns. -/
def decRounds (s : List Byte) : List (List Byte) → List Byte
  | [] => s
  | [k] => xorBytes ((invShiftRows s).map invSbox) k
  | k :: k' :: ks =>
    let t := xorBytes ((invShiftRows s).map invSbox) k
    decRounds ((List.range 16).map (invMixByte t)) (k' :: ks)

/-- AES-256 decryption of a 16-byte block. -/
def aesDec (key blk : List Byte) : List Byte :=
  match (roundKeys key).reverse with
  | k0 :: ks => decRounds (xorBytes blk k0) ks
  | [] => blk

/-- The bytes of a number, least significant first. -/
def bytesOf (n v : Nat) : List Byte := (List.range n).map fun i => BitVec.ofNat 8 (v / 256 ^ i)

/-- The number that bytes hold, least significant first. -/
def natOf (bs : List Byte) : Nat := bs.foldr (fun b a => b.toNat + 256 * a) 0

/-- Multiplication of the XTS tweak by the primitive element: x^128 + x^7 + x^2 + x + 1. -/
def xtsNext (t : BitVec 128) : BitVec 128 := if t.msb then (t <<< 1) ^^^ 0x87 else t <<< 1

/-- One block under a tweak, through `f`. -/
def xtsBlock (f : List Byte → List Byte) (t : BitVec 128) (blk : List Byte) : List Byte :=
  let tb := bytesOf 16 t.toNat
  xorBytes (f (xorBytes blk tb)) tb

/-- The four blocks of a line. -/
def xtsBlocks (f : List Byte → List Byte) : Nat → BitVec 128 → List Byte → List Byte
  | 0, _, _ => []
  | n + 1, t, bs => xtsBlock f t (bs.take 16) ++ xtsBlocks f n (xtsNext t) (bs.drop 16)

/-- The tweak of a line: the encryption under KEY2 of its board offset as a 128-bit little-endian integer (R310). -/
def xtsTweak (key2 : BitVec 256) (off : Nat) : BitVec 128 :=
  BitVec.ofNat 128 (natOf (aesEnc (bytesOf 32 key2.toNat) (bytesOf 16 off)))

/-- AES-256-XTS encryption of a line stored at a board offset (PRESUMED, log 8). -/
def xtsEncrypt (key1 key2 : BitVec 256) (off : Nat) (l : Line) : Line :=
  BitVec.ofNat 512 (natOf (xtsBlocks (aesEnc (bytesOf 32 key1.toNat)) 4 (xtsTweak key2 off) (bytesOf 64 l.toNat)))

/-- AES-256-XTS decryption of a line stored at a board offset. -/
def xtsDecrypt (key1 key2 : BitVec 256) (off : Nat) (l : Line) : Line :=
  BitVec.ofNat 512 (natOf (xtsBlocks (aesDec (bytesOf 32 key1.toNat)) 4 (xtsTweak key2 off) (bytesOf 64 l.toNat)))

/-- KCV: the first three bytes of the encryption of a zero block under KEY1, byte 0 in [23:16] (15 Table 15.3). -/
def kcvOf (key1 : BitVec 256) : BitVec 24 :=
  let e := aesEnc (bytesOf 32 key1.toNat) (List.replicate 16 0)
  byteAt e 0 ++ byteAt e 1 ++ byteAt e 2

end Sys2Proof.Machine
end

