-- ==== Sys2Proof/Machine/LineCode.lean ====
section
/-! DEFINITION. RS(80,64) over GF(2^8) (06 R114, R115): the check bytes of a line, and the error pattern in given symbols that explains
80 bytes. -/

namespace Sys2Proof.Machine

/-! ### GF(2^8) over x^8 + x^4 + x^3 + x^2 + 1 -/

/-- Multiplication by x. -/
def gfDouble (b : Byte) : Byte := if b.msb then (b <<< 1) ^^^ 0x1D else b <<< 1

/-- The product of two elements. -/
def gfMul (a b : Byte) : Byte :=
  ((upTo 8).foldl (fun (p : Byte × Byte) i => (if b.getLsbD i then p.1 ^^^ p.2 else p.1, gfDouble p.2)) (0, a)).1

/-- A power of the primitive element x. -/
def gfAlpha (n : Nat) : Byte := (upTo (n % 255)).foldl (fun a _ => gfDouble a) 1

/-- The inverse of an element, its 254th power. -/
def gfInv (a : Byte) : Byte :=
  ((upTo 7).foldl (fun (p : Byte × Byte) _ => (gfMul p.1 p.1, gfMul p.2 (gfMul p.1 p.1))) (a, 1)).2

/-! ### The code -/

/-- The exponent at which symbol `i` of a codeword stands. -/
def symbolExp (i : Nat) : Nat := if Config.rsDescending then 79 - i else i

/-- The 16 syndromes of 80 bytes: their values at the generator's roots; a codeword's are zero. -/
def syndromes (v : BitVec 640) : List Byte :=
  (upTo 16).map fun j => (upTo 80).foldl (fun a i =>
    a ^^^ gfMul (v.extractLsb' (8 * i) 8) (gfAlpha ((Config.rsFirst + j) * symbolExp i))) 0

/-- The coefficients, lowest first, of the polynomial whose roots are given. -/
def polyOfRoots (rs : List Byte) : List Byte :=
  rs.foldl (fun p r => List.zipWith (· ^^^ ·) (0 :: p) (p.map (gfMul r) ++ [0])) [1]

/-- The value at a symbol of the pattern over `pos` that has given syndromes, if one has. -/
def symbolValue (pos : List Nat) (syn : List Byte) (k : Nat) : Byte :=
  let rest := (pos.filter (· ≠ k)).map fun i => gfAlpha (symbolExp i)
  let scale := rest.foldl (fun a r => gfMul a (gfAlpha (symbolExp k) ^^^ r)) 1
  let sum := (List.zipWith gfMul (polyOfRoots rest) syn).foldl (· ^^^ ·) 0
  gfMul sum (gfInv (gfMul scale (gfAlpha (Config.rsFirst * symbolExp k))))

/-- The pattern over some symbols that would have given syndromes. -/
def patternFor (pos : List Nat) (syn : List Byte) : BitVec 640 :=
  pos.foldl (fun a k => a ||| ((symbolValue pos syn k).setWidth 640 <<< (8 * k))) 0

/-- The 16 check bytes of a line's 64 data bytes (R114). -/
def rsCheck (d : Line) : BitVec 128 :=
  (patternFor ((upTo 16).map (64 + ·)) (syndromes (d.setWidth 640))).extractLsb' 512 128

/-- Symbols of a group (R115). -/
def groupSymbols (g : Nat) : List Nat := (upTo 4).map (4 * g + ·)

/-- The error over some groups that explains 80 bytes, if one does. -/
def errorIn (groups : List Nat) (v : BitVec 640) : Option (BitVec 640) :=
  let syn := syndromes v
  let e := patternFor (groups.flatMap groupSymbols) syn
  if syndromes e = syn then some e else none

/-- The error of at most one group that explains 80 bytes: none where their plain decode fails (R115). -/
def oneGroup (v : BitVec 640) : Option (BitVec 640) := (upTo 20).findSome? fun g => errorIn [g] v

/-- The error of two groups that explains 80 bytes. -/
def twoGroups (v : BitVec 640) : Option (BitVec 640) :=
  (upTo 20).findSome? fun g => (upTo g).findSome? fun h => errorIn [h, g] v

end Sys2Proof.Machine
end

