-- ==== Sys2Proof/Machine/LinkOps.lean ====
section
/-! DEFINITION. The link layer's shared operations: responses and their links (03 R55, R56, R67), acknowledgement and
return of packets (02 R32, R49), training, link-down (02 R38 to R41, R48 to R50). -/

namespace Sys2Proof.Machine

/-! ### Responses -/

/-- The slice part of LOAD (R56). -/
def State.sliceLoad (s : State) (n : Nat) : Nat := min 15 (16 * (s.slice n).occupied / 16384)

/-- LOAD of a response formed in a slice (R56). -/
def State.loadFor (s : State) (slice st : Nat) : Nat := max (s.sliceLoad slice) (s.stallLoad st)

/-- A multi-unit READ (R55). -/
def Trk.multiRead (t : Trk) : Bool := t.op == .read && decide (1 < t.req.len)

/-- The response of a tracker entry (R52, R55): payload only with OK, or for a multi-unit READ that failed in part. -/
def Trk.resp (t : Trk) (load : Nat) : Resp where
  opcode := t.op.code
  host := t.req.host
  tag := t.req.tag
  status := t.status
  epoch := t.req.epoch
  load := load
  cached := false
  stale := t.stale
  result := t.result
  data := if t.status == .ok || t.multiRead then t.units else []

/-- A response formed at the host port. -/
def hostResp (op : Nat) (r : Req) (st : Status) (load : Nat) : Resp where
  opcode := op
  host := r.host
  tag := r.tag
  status := st
  epoch := r.epoch
  load := load
  cached := false
  stale := false
  result := 0
  data := []

/-- LOAD of a response of the host port: the stall part of the host's stall (R56). -/
def State.hostLoad (s : State) (h : Nat) : Nat := ((s.stallOfHost h).map s.stallLoad).getD 0

/-- Send a host-port response on the link the request came in on. -/
def State.answerOn (s : State) (link tc : Nat) (r : Resp) : State :=
  if (s.link link).isUp then s.wire link { stall := (s.stallOfHost r.host).getD 0, tc := tc, origin := .hostPort, msg := .resp r }
  else s

/-- Send a host-port response at once: to the link the spray rule picks for the host's stall, on the link the request
came in on for a host without one (R246). With no live link it is discarded and counted (DESIGN CHOICE, log 68). -/
def State.answer (s : State) (link tc : Nat) (r : Resp) : State :=
  match s.stallOfHost r.host with
  | some st =>
    match s.spray st tc .hostPort (.resp r) with
    | (s', true) => s'
    | (s', false) => if (s'.link link).isUp then s'.answerOn link tc r else s'.count .stall st 34
  | none => s.answerOn link tc r

/-- The response of a slice joins its slice's egress, charged when it leaves unless it has been charged already (12 R246); a host with
no live link leaves it held, and a fenced one has it discarded and counted (R67, 04 R73). The host port answers for a stopped
slice (01 R12). -/
def State.sendHeld (s : State) (slice id : Nat) : State :=
  match (s.slice slice).trk id with
  | none => s
  | some t =>
    let stage := fun (x : State) (g : TrkStage) => x.updSlice slice fun y => y.updTrk id fun t => { t with stage := g }
    if s.silenced t.stall then s.discardTrk t.stall slice id
    else if s.liveLinks t.stall = [] then stage s .heldResp
    else if (s.slice slice).stopped then
      (stage s .egress).sprayEntry t.stall t.req.tc slice id (.resp (t.resp (s.stallLoad t.stall)))
    else (stage s .egress).egressPush slice {
      stall := t.stall, tc := t.req.tc, origin := .slice slice id, msg := .resp (t.resp (s.loadFor slice t.stall)), paid := t.left }

/-- A packet goes back to the unit that sent it when its link goes down (R49): a response of a slice or a PUSH to its slice, which
sends it on another live link of its host (R67, 11 R236); a SNOOP or a CRIER_NOTIFY to the host port, which does so unless the host
is fenced (07 R147, 04 R73); a response of the host port or of management too, discarded when there is no live link (16 R330). -/
def State.returnPacket (s : State) (p : TxPkt) : State :=
  match p.origin with
  | .slice n id => s.sendHeld n id
  | .hostPort =>
    match p.msg.host.bind s.stallOfHost with
    | none => s
    | some st =>
      match s.spray st p.tc p.origin p.msg with
      | (s', true) => s'
      | (s', false) => s'.count .stall st 34
  | .push tag =>
    match s.pushes.find? fun q => q.tag == tag with
    | some q => s.egressPush q.slice { stall := q.stall, tc := p.tc, origin := p.origin, msg := p.msg, paid := true }
    | none => s
  | .snoop _ | .crier _ =>
    match p.msg.host.bind s.stallOfHost with
    | none => s
    | some st => if s.silenced st then s else s.sprayReq st p.tc p.origin p.msg
  | .mgmt =>
    match p.msg.host with
    | none => s
    | some h => match s.stallOfHost h with
      | some st => (s.spray st p.tc p.origin p.msg).1
      | none => match s.leastLoaded 0 ((upTo 48).filter fun n => (s.link n).isUp && ((s.link n).kind == 0 && (s.link n).partner == h)) with
        | some n => s.wire n { stall := 0, tc := p.tc, origin := p.origin, msg := p.msg }
        | none => s
  | .halyard =>
    match s.pickLink s.pair.halPtr s.liveHalyard p.msg.bytes with
    | some n => { s with pair := { s.pair with halPtr := (n + 1) % 48 } }.transmit n p.tc p.origin p.msg
    | none => match p.msg with
      | .hal h _ => s.halUnsent h
      | _ => s
  | .move => s

/-- Return packets in order. -/
def State.returnPackets (s : State) : List TxPkt → State
  | [] => s
  | p :: r => State.returnPackets (s.returnPacket p) r

/-! ### Acknowledgement (R32) -/

/-- How many packets an ACK value releases: those counted from the oldest, when the value lies within them (R32). -/
def LinkSt.released (l : LinkSt) (a : BitVec 16) : Nat :=
  let u := l.unacked.length
  let d := (a - (l.txSeq - BitVec.ofNat 16 u)).toNat
  if 1 ≤ d ∧ d ≤ u then d else 0

/-- The link after an ACK value: released packets leave, the count of expiries restarts, and the timer runs on while any
packet is left (R32, R33). -/
def LinkSt.ackd (l : LinkSt) (a : BitVec 16) : LinkSt :=
  let k := l.released a
  if k = 0 then l
  else { l with unacked := l.unacked.drop k, expiries := 0, timerOn := decide (k < l.unacked.length) }

/-- Entries of a slice's tracker are gone once their response is acknowledged. -/
def State.forget (s : State) : List TxPkt → State
  | [] => s
  | p :: r =>
    match p.origin with
    | .slice n id => State.forget (s.updSlice n fun x => x.dropTrk id) r
    | _ => State.forget s r

/-- Apply a received ACK value to link `n`. -/
def State.applyAck (s : State) (n : Nat) (a : BitVec 16) : State :=
  let l := s.link n
  (s.forget (l.unacked.take (l.released a))).updLink n fun l => l.ackd a

/-! ### Capabilities (02 R39, R40; 03 R66) -/

/-- WAXON_VERSIONS (00 Table 0.1). -/
def waxonVersions : Nat := 7

/-- The versions the board advertises on a link (R39). -/
def State.ourVersions (s : State) (n : Nat) : Nat := (s.link n).allowedAtTrain.toNat &&& waxonVersions

/-- The CAPS the board advertises (R40). -/
def ourCaps (versions : Nat) : Nat := 0x1F + (if bitAt versions 2 then 0xF00 else 0)

/-- The highest version present in both advertisements: 1 for 1.0, 2 for 1.1, 3 for 1.2, 0 for none (R39). -/
def commonVersion (a b : Nat) : Nat :=
  let c := a &&& b
  if bitAt c 2 then 3 else if bitAt c 1 then 2 else if bitAt c 0 then 1 else 0

/-- Capability bits that a version has (02 Table 2.9). -/
def capsOfVersion (v : Nat) : Nat := if v = 3 then 0xFF1F else if v = 2 then 0x1F else if v = 1 then 0x11 else 0

/-- Effective capabilities (R40). -/
def effectiveCaps (ours theirs v : Nat) : Nat := ours &&& theirs &&& capsOfVersion v

/-- The widest valid width of some lanes: all four, two of the lowest when ×2 is allowed, or the lowest (R21, R38). -/
def formMask (lanes : BitVec 4) (x2 : Bool) : BitVec 4 :=
  let l := (upTo 4).filter fun i => lanes.getLsbD i
  match l with
  | [_, _, _, _] => 0xF
  | a :: b :: _ => if x2 then BitVec.ofNat 4 (2 ^ a + 2 ^ b) else BitVec.ofNat 4 (2 ^ a)
  | [a] => BitVec.ofNat 4 (2 ^ a)
  | [] => 0

/-- The link may run at ×2 (CAPS bit 1). -/
def LinkSt.x2 (l : LinkSt) : Bool := bitAt l.caps.toNat 1

/-- Links that are up with a host as partner. -/
def State.hostLinks (s : State) (host : Nat) : BitVec 48 :=
  BitVec.ofNat 48 ((upTo 48).foldl (fun a n =>
    a + (if (s.link n).isUp && ((s.link n).kind == 0 && (s.link n).partner == host) then 2 ^ n else 0)) 0)

/-- The image stall's links: those up with its host, and those that its host's own stall may use (DEDUCED, log 25). -/
def State.imageLinks (s : State) (host : Nat) : BitVec 48 :=
  s.hostLinks host ||| (match s.stalls.find? fun p => decide (p.1 < 1024) && (p.2.phase != .free && p.2.host == host) with
    | some p => p.2.linkSet
    | none => 0)

/-- The AND of CAPS [15:8] over some links, and `old` where there is none (R66). -/
def State.capsOn (s : State) (links : List Nat) (old : BitVec 8) : BitVec 8 :=
  match links with
  | [] => old
  | ls => BitVec.ofNat 8 (ls.foldl (fun a n => a &&& (s.link n).caps.toNat / 256) 0xFF)

/-- Stall capabilities: those of its live links; kept while there is none (R66). -/
def State.capsOver (s : State) (st : Nat) : BitVec 8 := s.capsOn (s.liveLinks st) (s.stall st).caps

/-- Recompute a stall's capabilities; STRICT_LOST when a stall in strict mode loses STRICT_ORDER (R66). -/
def State.recomputeCaps (s : State) (st : Nat) : State :=
  let old := (s.stall st).caps
  let new := s.capsOver st
  let s1 := s.updStall st fun x => { x with caps := new }
  if (s.stall st).orderMode = 2 ∧ old.getLsbD 0 = true ∧ new.getLsbD 0 = false then
    s1.crier 8 0x08 st new.toNat [(s.stall st).host]
  else s1

/-- Stalls in a list. -/
def State.recomputeAll (s : State) : List Nat → State
  | [] => s
  | st :: r => State.recomputeAll (s.recomputeCaps st) r

/-- The stalls whose LINK_SET has a link. -/
def State.stallsOn (s : State) (n : Nat) : List Nat :=
  (s.stalls.filter fun p => bitAt p.2.linkSet.toNat n).map Prod.fst

/-- Set or clear a link's bit in a stall's LINK_SET. -/
def State.setLinkBit (s : State) (st n : Nat) (v : Bool) : State :=
  s.updStall st fun x => { x with linkSet := BitVec.ofNat 48 (setBit x.linkSet.toNat n v) }

/-! ### Training and link-down -/

/-- A link's training from step 1 (R38): the partner unknown, every lane tried, the versions allowed taken now (R51). A lane that
fails training is left out when LANE_SIGNAL_LOSS names it before the link is up (DEDUCED, log 64). -/
def State.startTraining (s : State) (n : Nat) : State :=
  if s.repair.hostPortDead && !s.halyardLinks.contains n then s
  else s.updLink n fun l => { l with
    phase := .training, hold := .none, retrain := false, passed := 0xF, mask := 0, version := 0, kind := 0xF, partner := 0
    partnerVersions := 0, partnerCaps := 0, caps := 0, partnerLanes := 0
    allowedAtTrain := BitVec.ofNat 32 (s.reg (kLinkVersionsAllowed n))
    gotHello := false, seenSent := false, seenRecv := false, inSync := true, change := none, exch := none, ctlOut := []
    downUntil := 0, lost := 0, addReady := 0, barred := 0 }

/-- What a link keeps when it goes down: no packet, sequence number or exchange crosses to its next instance (R49), and the
partner is unknown. LINK_DOWN fills its control slots for 1 µs (R48). -/
def LinkSt.downed (l : LinkSt) (phase : LinkPhase) (hold : HoldCause) (retrain : Bool) (reason now : Nat) : LinkSt :=
  { l with
    phase := phase, hold := hold, retrain := retrain, mask := 0, version := 0, partner := 0, caps := 0
    kind := if phase = .disabled then 0 else 0xF
    txSeq := 0, rxNext := 0, ackSent := 0, unacked := []
    timerOn := false, expiries := 0, inSync := true, waitBytes := 0, change := none, exch := none, parked := 0, parkWant := none, unparking := false
    ctlOut := [], downUntil := now + 1000, downReason := reason, lost := 0, addReady := 0
    downTimes := (now :: l.downTimes).filter (fun t => decide (now < t + 1000000000)) }

/-- Packets read from a replay buffer: those with an uncorrectable error are discarded (06 Table 6.1). Answers the rest, and whether one
was. -/
def State.readReplay (s : State) (n : Nat) : State × Bool :=
  (s.link n).unacked.foldl (fun a p =>
    let f := a.1.sramRead 0x0A n p.seq.toNat 0 0
    if f.2 then ((f.1.sramWrite 0x0A n p.seq.toNat).updLink n fun l => { l with
      unacked := l.unacked.filter fun q => q.seq != p.seq }, true) else (f.1, a.2)) (s, false)

/-- A link leaves service (R48, R49, R50): its packets and numbers go, LAST_DOWN_REASON and a LINK_DOWN crier event say why, and a host's
link leaves its stalls' LINK_SETs (04 R72). -/
def State.linkFalls (s : State) (n reason partner : Nat) : State :=
  let l := s.link n
  let now := s.time.ticks
  let recent := ((now :: l.downTimes).filter fun t => decide (now < t + 1000000000)).length
  let flap := decide (s.reg kFlapLimit ≤ recent)
  let phase := if reason = 4 then LinkPhase.disabled else if flap then .held else .training
  let s1 := s.updLink n fun l => l.downed phase (if flap then .flap else .none) (!flap && reason != 4) reason now
  let s2 := (s1.setReg (kLastDownReason n) reason).count .link n 9
  let s3 := s2.crier 8 0x02 n (reason + partner % 256 * 2 ^ 8)
  if l.kind = 0 then (s.stallsOn n).foldl (fun a st => a.setLinkBit st n false) s3 else s3

/-- Links go down in one cc: of those that are up, each leaves service; capabilities are recomputed, unacknowledged packets go back to the
units that sent them, each makes a LINK fault, a move-out on one of them stops (13 R290), and with the last halyard link the partner may be
gone (13 R279). Times of link-downs are on the raw 1 GHz count (DESIGN CHOICE, log 82). -/
def State.linksDown (s : State) (links : List Nat) (reason partner : Nat) : State :=
  let up := links.filter fun n => (s.link n).isUp
  let s1 := up.foldl (fun a n => a.linkFalls n reason partner) s
  let s2 := s1.recomputeAll (up.flatMap s.stallsOn).eraseDups
  let s3 := s2.returnPackets (up.flatMap fun n => (s.link n).unacked)
  let s4 := up.foldl (fun a n => a.fault 8 0x02 n reason actContained) s3
  let s5 := match s4.pair.moveOut with
    | some m => if up.contains m.link then s4.endMoveOut 3 else s4
    | none => s4
  if up.any (fun n => s5.halyardLinks.contains n) && s5.liveHalyard.isEmpty then
    ({ s5 with pair := { s5.pair with halDownSince := s.time.ticks } } : State).partnerGone
  else s5

/-- One link goes down (R48). -/
def State.linkDown (s : State) (n reason partner : Nat) : State := s.linksDown [n] reason partner

/-- No common version (R41): LINK_DOWN NO_VERSION, a LINK_DOWN crier event, LAST_DOWN_REASON, the hold, and the LINK fault of a
link declared down (R48, 14 R302) (DEDUCED, log 34). -/
def State.noVersion (s : State) (n : Nat) (theirs : Nat) : State :=
  let s1 := s.updLink n fun l => { l with
    phase := .held, hold := .noVersion, seenRecv := false, ctlOut := [], downUntil := s.time.ticks + 1000, downReason := 5 }
  let s2 := ((s1.setReg (kLastDownReason n) 5).count .link n 9).crier 8 0x02 n (5 + theirs % 256 * 2 ^ 16)
  s2.fault 8 0x02 n 5 actContained

/-- Send the held responses of some stalls, slice by slice (R67). -/
def State.sendHeldOf (s : State) (stalls : List Nat) : State :=
  (upTo 8).foldl (fun a sl =>
    ((a.slice sl).tracker.filter fun t => t.stage == .heldResp && stalls.contains t.stall).foldl
      (fun b t => b.sendHeld sl t.id) a) s

/-- The mask that LANE_PARK keeps in service on a link that comes up, where it may be parked (18 R372, DEDUCED, log 30). -/
def State.parkStored (s : State) (n : Nat) : Option (BitVec 4) :=
  let m := BitVec.ofNat 4 (s.reg (kLanePark n))
  if m ≠ 0xF ∧ bitAt (s.link n).caps.toNat 2 = true ∧ s.halyardLinks.contains n = false then some m else none

/-- A link comes up (R38 step 6): its sequence numbers start at 0, a LINK_UP crier event; a host's link enters its stall's
LINK_SET (R72) or raises HOST_SEEN (R70), its stall's capabilities are recomputed and held responses go out (R66, R67).
A halyard link with the wrong partner is held down instead (R266). -/
def State.linkComesUp (s : State) (n : Nat) : State :=
  let l := s.link n
  if s.halyardLinks.contains n && !(l.kind == 2 && (l.partner == s.pair.partnerNo && l.version == 3)) then
    (s.updLink n fun l => { l with phase := .held, hold := .mismatch }).crier 8 0x19 n
      (1 + (if l.kind = 0xF then 0xF else l.kind % 16) * 2 ^ 8 + l.partner % 4096 * 2 ^ 16)
  else
    let s1 := s.updLink n fun l => { l with
      parkWant := s.parkStored n
      phase := .up, txSeq := 0, rxNext := 0, ackSent := 0, unacked := [], timerOn := false, expiries := 0
      inSync := true, waitBytes := 0, hold := .none, retrain := false }
    let s2 := s1.crier 8 0x01 n (s1.link n).statusWord
    let s3 := if l.kind = 0 then
        match s2.stallOfHost l.partner with
        | none => s2.crier 8 0x03 n l.partner
        | some st => s2.setLinkBit st n true
      else s2
    let stalls := s3.stallsOn n
    let s4 := ((s3.recomputeAll stalls).sendHeldOf stalls).sendWaiting stalls
    if s4.halyardLinks.contains n then s4.halFlush else s4

/-- A control block on link `n` (R28): ignored whole when its CCRC fails; otherwise it restores sync when its
RESYNC_OFFSET names a header, and on a link that is up its ACK applies. `f` is what its type then does. -/
def State.control (s : State) (n : Nat) (ctype : BitVec 8) (c : Ctl) (f : State → State) : State :=
  if n < 48 ∧ ctlOk ctype c = true ∧ (s.link n).phase ≠ .disabled then
    let s1 := if (s.link n).isUp then s.applyAck n c.ack else s
    let s2 := if c.resync ≠ 0xFFFF then s1.updLink n fun l => { l with inSync := true } else s1
    f s2
  else s

/-- Queue a control block for the next control slot. -/
def State.queueCtl (s : State) (n ctype : Nat) (body : BitVec 176) : State :=
  s.updLink n fun l => { l with ctlOut := l.ctlOut ++ [{ ctype := ctype, body := body }] }

/-- Put a control block in front of the queue: it goes in the very next control slot. -/
def State.queueFirst (s : State) (n ctype : Nat) (body : BitVec 176) : State :=
  s.updLink n fun l => { l with ctlOut := { ctype := ctype, body := body } :: l.ctlOut }

/-- Start a lane change of the board's own (R42, R45) under the next REQ_ID; its LANE_REQ fills the control slots until it is
answered (`LinkSt.nextCtl`). -/
def startChange (n : Nat) (mask : BitVec 4) (emergency parking : Bool) (s : State) : State :=
  let id := (s.link n).reqId + 1
  let ch : LaneChange := {
    reqId := id, mask := mask, emergency := emergency, mine := true, accepted := false, txSwitched := false
    rxSwitched := false, parking := parking }
  s.updLink n fun l => { l with reqId := id, change := some ch }

/-- A planned change can start: the link is up, none runs, and 100 µs have passed since one was abandoned (R42). -/
def State.canChange (s : State) (n : Nat) : Bool :=
  (s.link n).isUp && ((s.link n).change.isNone && decide ((s.link n).reqQuietUntil ≤ s.time.ticks))

/-- A lane that has trained alone joins by a planned change once the link can change, where it widens the link (R46). -/
def State.joinNext (s : State) (n : Nat) : State :=
  let l := s.link n
  let m := formMask (l.mask ||| l.addReady) l.x2
  if s.canChange n && (l.addReady != 0 && decide (popCount l.mask.toNat 4 < popCount m.toNat 4)) then
    startChange n m false true s
  else s

/-! ### Lane parking (18 R370, R372) -/

/-- A park or unpark that waits begins once the link can change: lanes to park leave by a planned change, parked lanes to return
pass their check first. -/
def State.parkNext (s : State) (n : Nat) : State :=
  let l := s.link n
  match l.parkWant with
  | none => s
  | some m =>
    if !(s.canChange n && !l.unparking) then s
    else
      let s1 := s.updLink n fun l => { l with parkWant := none }
      if m &&& l.parked ≠ 0 then s1.updLink n fun l => { l with unparking := true }
      else if formMask (m &&& l.mask) l.x2 = l.mask ∨ formMask (m &&& l.mask) l.x2 = 0 then s1
      else startChange n (formMask (m &&& l.mask) l.x2) false true s1

/-- An emergency drop unparks every parked lane at once. -/
def State.unparkAll (s : State) (n : Nat) : State :=
  if (s.link n).parked = 0 then s
  else (s.updLink n fun l => { l with unparking := true, parkWant := none }).setReg (kLanePark n) 0xF

end Sys2Proof.Machine
end

