-- ==== Sys2Proof/Machine/MgmtOps.lean ====
section
/-! DEFINITION. A management frame's way through the board (16 R327 to R338): where it may arrive, the kept responses, the
principal and its rights, the entry's checks, the DICT_WRITE ledger entry, and the response. -/

namespace Sys2Proof.Machine

/-! ### The fuse bank (14 R292) -/

/-- The manufacturing spare: the physical slice of the first SPARE_SLICE record of the fuse bank (Table 14.1, 01 R11), slice 8 where it
has none (DESIGN CHOICE, log 4). -/
def fuseSpare : Nat :=
  match (upTo 256).find? fun i => bits (Config.fuse i).toNat 28 4 == 1 with
  | some i => min 8 (bits (Config.fuse i).toNat 0 4)
  | none => 8

/-- The header fields of a frame beside its transport (16 Table 16.2), and its body. -/
structure Ask where
  mop : Nat
  index : Nat
  sub : Nat
  count : Nat
  row : Nat
  body : List Byte
deriving DecidableEq, Repr, Inhabited

/-- What a frame is answered with: status, REASON, ROW, body, and the RESULT of its DICT_WRITE ledger entry (R417). -/
structure Ans where
  status : Status := .ok
  reason : Nat := 0
  rowOut : Nat := 0
  len : Nat := 0
  body : Nat := 0
  result : Nat := 0
deriving DecidableEq, Repr, Inhabited

/-- A refusal with STATUS ACCESS_DENIED and a REASON of 16 Table 16.4; the ledger's RESULT is 3 (R417). -/
def refuse (reason : Nat) : Ans := { status := .accessDenied, reason := reason, result := 3 }

/-- A command accepted, or answered by its RESULT entry, with the code the ledger records (R417) (DEDUCED, log 37). -/
def done (result : Nat) : Ans := { result := result }

/-- Key of a session's or host's kept responses. -/
def frameKey (f : Frame) : Nat :=
  match f.transport with
  | .ethernet => f.sess % 8
  | .mctp => 16 + f.sess % 2
  | .inband => 32 + f.sess % 4096

/-- TRANSPORT code of the ledger (16 Table 16.1). -/
def transportCode : Transport → Nat
  | .ethernet => 1 | .mctp => 2 | .inband => 3

/-- Key of an SPDM connection. -/
def connKey (t : Transport) (conn : Nat) : Nat :=
  match t with
  | .ethernet => conn % 8
  | _ => 16 + conn % 2

/-- Roles of 16 Table 16.3. -/
def roleProvider : Nat := 1
/-- BMC. -/
def roleBmc : Nat := 2
/-- AUDITOR. -/
def roleAuditor : Nat := 3

/-- A VALID PROVIDER row exists (R333). -/
def hasProvider (t : Tbl Principal) : Bool := t.any fun p => p.2.valid && p.2.role == roleProvider

/-- The principal table the board goes by: in stage RECOVERY the boot ROM reads the flash copy (R395). -/
def State.principalTable (s : State) : Tbl Principal :=
  if s.boot.stage == .recovery then s.mgmt.records.principals else s.mgmt.principals

/-- Principal code and role of a frame: row n has code n + 1; code 0 with role 0 for no row; and PROVIDER for every MCTP
session with mutual authentication until a VALID PROVIDER row exists (R331, R333). -/
def State.principalOf (s : State) (f : Frame) : Nat × Nat :=
  let t := s.principalTable
  match f.transport with
  | .inband =>
    match t.find? fun p => p.2.valid && (p.2.inband && p.2.host == f.sess) with
    | some (n, p) => (n + 1, p.role)
    | none => (0, 0)
  | _ =>
    if f.transport == .mctp && !hasProvider t then (0, roleProvider)
    else
      let root := (s.sec.spdm.get {} (frameKey f)).root
      match t.find? fun p => p.2.valid && (!p.2.inband && p.2.root == root) with
      | some (n, p) => (n + 1, p.role)
      | none => (0, 0)

/-- The transport is allowed for a role (16 Table 16.4). -/
def roleOn (role : Nat) (t : Transport) : Bool :=
  if role = roleProvider then true
  else if role = roleBmc then t == .mctp
  else if role = roleAuditor then t != .inband
  else false

/-- A write (R338). -/
def Ask.isWrite (q : Ask) : Bool := q.mop == 2 || q.mop == 4

/-- The identity entries of Table 0.1, readable by every principal over every transport (R7). -/
def isIdentity (index : Nat) : Bool := decide (0x1000 ≤ index ∧ index ≤ 0x1007)

/-- The role may do this to the entry (R332, Table 16.4). -/
def mayDo (role : Nat) (t : Transport) (q : Ask) (e : Entry) : Bool :=
  if role = 0 then false
  else if q.isWrite then
    roleOn role t && match e.access with
      | .const => false
      | .ro => false
      | .rw => role == roleProvider || role == roleBmc
      | .wo => role == roleProvider
      | .rwp => role == roleProvider
  else if isIdentity q.index then true
  else
    roleOn role t && ((q.mop == 5 || e.access != .wo)
      && (role != roleBmc || [0x1, 0xB, 0xC, 0xD].contains (q.index / 4096)))

/-- The frame is served where it arrives: in a running session, or in-band on an up link that has MGMT_INBAND; from stage
MEMORY on while the control cores run (R397, R13), and over MCTP in stage RECOVERY (R395). -/
def State.frameServed (s : State) (f : Frame) : Bool :=
  let stage := match s.boot.stage with
    | .memory => true
    | .ready => true
    | .recovery => f.transport == .mctp
    | _ => false
  let path := match f.transport with
    | .inband => decide (f.link < 48) && ((s.link f.link).isUp && bitAt (s.link f.link).caps.toNat 4)
    | _ => (s.sec.spdm.get {} (frameKey f)).established
  stage && (s.repair.coresUp && path)

/-- The entries the boot ROM offers in stage RECOVERY (R395). -/
def recoveryEntry (index : Nat) : Bool :=
  isIdentity index || [0x1016, 0x1017, 0x1019, 0x1018, 0x1040, 0x1041, 0x1042].contains index

/-- The role epoch of the unit a frame addresses, with its tally row, where it addresses one (R334). -/
def State.frameUnit (s : State) (q : Ask) : Option (BitVec 8 × Group × Nat × Nat) :=
  if [0x5036, 0x6024, 0x7010, 0x7015].contains q.index && decide (q.sub < 8) then
    some ((s.slice q.sub).epoch, .slice, q.sub, 57)
  else if q.mop = 4 ∧ q.count = 1 ∧ q.index = 0x7011 then some ((s.barrow q.row).epoch, .barrow, q.row, 2)
  else if q.mop = 4 ∧ q.count = 1 ∧ q.index = 0x4010 then some ((s.stall q.row).epoch, .stall, q.row, 63)
  else none

/-- A dictionary write that the ledger's state refuses: entries not covered by LEDGER_ACKED have reached
LEDGER_CAPACITY − 4,096 (R325). -/
def State.ledgerNearFull (s : State) : Bool := decide (ledgerCapacity - 4096 ≤ s.ledgerUncovered)

/-- The frame is well formed for its entry (R335, R336, R54 of the header): a READ or WRITE of a single value, a window
operation of whole rows that fits 4,096 bytes. -/
def Ask.formOk (q : Ask) (e : Entry) : Bool :=
  let window := e.ty == .window
  match q.mop with
  | 1 => !window && (q.count == 0 && q.body.isEmpty)
  | 2 => !window && q.body.length == e.bytes
  | 3 => window && (decide (1 ≤ q.count ∧ q.count ≤ 4095 ∧ q.count * e.bytes ≤ 4096) && q.body.isEmpty)
  | 4 => window && (decide (1 ≤ q.count ∧ q.count ≤ 4095 ∧ q.count * e.bytes ≤ 4096)
      && q.body.length == q.count * e.bytes)
  | _ => true

/-- The value of a WRITE, or the rows of a window operation, lie in the entry's range (R335). -/
def Ask.rangeOk (q : Ask) (e : Entry) : Bool :=
  match q.mop with
  | 2 => e.inRange (leNat q.body)
  | 3 => decide (q.row + q.count ≤ e.rows)
  | 4 => decide (q.row + q.count ≤ e.rows)
  | _ => true

/-- A write of a persistent entry is refused during a power-fail warning (18 R365), and one of a profile entry while a switch
holds it (R340). -/
def State.persistCheck (s : State) (q : Ask) (e : Entry) : Option Ans :=
  if q.isWrite && (e.persist != 0 && s.power.warning) then some (refuse 3)
  else if q.isWrite && (e.persist == 1 && s.mgmt.switching.isSome) then
    some { status := .retryBusy, reason := 8, result := 3 }
  else none

/-- The checks of a frame before its entry's own chapter, first failure first (DEDUCED, log 15). -/
def State.precheck (s : State) (f : Frame) (q : Ask) (role : Nat) : Option Ans :=
  if f.transport == .inband && !((s.link f.link).kind == 0 && (s.link f.link).partner == f.sess) then some (refuse 6)
  else if q.index / 4096 = 0xF ∧ s.sec.conf = true then some (refuse 4)
  else match entryAt q.index q.sub with
    | none => some { status := .unsupportedVersion, result := 3 }
    | some e =>
      if q.mop = 0 ∨ 5 < q.mop then some { status := .unsupportedVersion, result := 3 }
      else if s.boot.stage == .recovery && !recoveryEntry q.index then some (refuse 3)
      else if !mayDo role f.transport q e then some (refuse 1)
      else if q.isWrite && (q.index != 0xA032 && s.ledgerNearFull) then some (refuse 5)
      else if !q.formOk e then some (refuse 6)
      else match s.frameUnit q with
        | some (ep, _, _, _) =>
          if f.epochValid = true ∧ ep ≠ f.epoch then some { status := .staleRole, reason := 7, result := 3 }
          else if !q.rangeOk e then some (refuse 2)
          else s.persistCheck q e
        | none =>
          if !q.rangeOk e then some (refuse 2)
          else s.persistCheck q e

/-- BODY of a DICT_WRITE ledger entry (15 Table 15.13). -/
def dictWriteBody (q : Ask) (reason : Nat) : Nat :=
  let long := q.mop == 4 || decide (48 < q.body.length)
  let v := if long then leNat (beBytes 48 (sha384 q.body).toNat) else leNat q.body
  q.index % 65536 + q.sub % 256 * 2 ^ 16 + q.mop % 256 * 2 ^ 24 + (if q.mop = 4 then q.row % 2 ^ 32 * 2 ^ 32 else 0)
    + (if q.mop = 4 then q.count % 2 ^ 16 * 2 ^ 64 else 0) + reason % 256 * 2 ^ 80 + b2n long * 2 ^ 88 + v * 2 ^ 128

/-- A persistent entry is to reach flash. -/
def State.markDirty (s : State) (key : Nat) : State :=
  if s.mgmt.dirty.contains key then s else { s with mgmt := { s.mgmt with dirty := key :: s.mgmt.dirty } }

/-- Persistent entries written reach flash at the next commit (R339). -/
def State.markPersist (s : State) (q : Ask) (a : Ans) : State :=
  if q.isWrite && a.status == .ok then
    match entryAt q.index q.sub with
    | some e => if e.persist = 0 then s else s.markDirty (q.index * 256 + q.sub)
    | none => s
  else s

/-- The response of a frame. -/
def mgmtResp (f : Frame) (q : Ask) (a : Ans) : MgmtResp where
  mtag := f.mtag
  mop := q.mop
  index := q.index
  sub := q.sub
  count := q.count
  row := q.row
  reqEpoch := f.epoch.toNat * 2 + b2n f.epochValid
  status := a.status
  reason := a.reason
  rowOut := a.rowOut
  len := if a.status == .ok then a.len else 0
  body := if a.status == .ok then a.body else 0

/-- The kept response whose MTAG and header match a request (R330). -/
def State.keptFor (s : State) (f : Frame) (q : Ask) : Option MgmtResp :=
  (s.mgmt.kept.get [] (frameKey f)).find? fun m =>
    m.mtag == f.mtag && (m.mop == q.mop && (m.index == q.index && (m.sub == q.sub && (m.count == q.count
      && (m.row == q.row && m.reqEpoch == f.epoch.toNat * 2 + b2n f.epochValid)))))

/-- Send a response: in-band to the frame's host over its links, otherwise in the session, where the kept response stands
for the datagram. -/
def State.sendMgmt (s : State) (f : Frame) (m : MgmtResp) : State :=
  match f.transport with
  | .inband =>
    let sent := match s.stallOfHost f.sess with
      | some st => s.spray st 0 .mgmt (.mgmt f.sess m)
      | none => (s, false)
    if sent.2 then sent.1
    else if (s.link f.link).isUp then
      s.wire f.link { stall := (s.stallOfHost f.sess).getD 0, tc := 0, origin := .mgmt, msg := .mgmt f.sess m }
    else s
  | _ => s

/-- Keep a response: the last 64 of each session and host (R330). -/
def State.keep (s : State) (f : Frame) (m : MgmtResp) : State :=
  { s with mgmt := { s.mgmt with kept := s.mgmt.kept.upd [] (frameKey f) fun l => (m :: l).take 64 } }

/-- Who sent a frame, for the ledger. -/
def frameActor (f : Frame) (code : Nat) : Actor where
  principal := code
  transport := transportCode f.transport
  source := if f.transport == .inband then f.sess else 0

/-- A management frame (R327 to R338). `act` is what its entry's chapter does once every check of this chapter passes: the
new state and the answer. A write makes one DICT_WRITE ledger entry, ahead of the entries its command makes in the same
cc (R323, R338); a request that matches a kept response is answered from it and is not executed again (DESIGN CHOICE, log 13). -/
def State.mgmtFrame (s : State) (f : Frame) (q : Ask) (act : State → State × Ans) : State :=
  if !s.frameServed f then
    if f.transport == .inband && decide (f.link < 48) && (s.link f.link).isUp then s.count .link f.link 11 else s
  else match s.keptFor f q with
    | some m => s.sendMgmt f m
    | none =>
      let p := s.principalOf f
      let pre := s.precheck f q p.2
      let a : Ans := match pre with
        | some a => a
        | none => (act s).2
      let logged := q.isWrite && a.reason != 5
      let s1 := if logged then s.ledger 0x01 a.result (frameActor f p.1) 0 (dictWriteBody q a.reason) else s
      let s2 := match pre with
        | some a =>
          if a.status == Status.staleRole then
            match s.frameUnit q with
            | some (_, g, i, r) => if r = 63 then s1 else s1.count g i r
            | none => s1
          else s1
        | none => (act s1).1
      let m := mgmtResp f q a
      ((s2.markPersist q a).sendMgmt f m).keep f m

/-- A WRITE frame of a single-valued entry: index and subindex from the key, the body from the value. -/
def askWrite (key bytes v : Nat) : Ask where
  mop := 2
  index := key / 256
  sub := key % 256
  count := 0
  row := 0
  body := leBytes bytes v

/-- A WINDOW_WRITE frame of whole rows of `bytes` bytes. -/
def askRows (key bytes row : Nat) (rows : List Nat) : Ask where
  mop := 4
  index := key / 256
  sub := key % 256
  count := rows.length
  row := row
  body := rows.flatMap (leBytes bytes)

/-- The command a WRITE frame is, run by its entry's meaning on the value. -/
def State.write (s : State) (f : Frame) (key bytes v : Nat) (act : Nat → State → State × Ans) : State :=
  s.mgmtFrame f (askWrite key bytes v) (act v)

/-- Rows of a window write in ascending order: the first row refused stops it, and ROW names it (R336). `wr` answers the
REASON, 0 when the row stands. -/
def writeRows (wr : Nat → Nat → State → State × Nat) (row : Nat) : List Nat → State → State × Ans
  | [], s => (s, {})
  | v :: r, s =>
    match wr row v s with
    | (s', 0) => writeRows wr (row + 1) r s'
    | (_, reason) => (s, { status := .accessDenied, reason := reason, rowOut := row, result := 3 })

/-- The command a WINDOW_WRITE frame is. -/
def State.writeWindow (s : State) (f : Frame) (key bytes row : Nat) (rows : List Nat)
    (wr : Nat → Nat → State → State × Nat) : State :=
  s.mgmtFrame f (askRows key bytes row rows) (writeRows wr row rows)

/-- A write that only stores the entry's value, unnamed bits of BITS32 and link masks read back as 0 (R10, DEDUCED, log 11). -/
def storeMask (key : Nat) : Nat :=
  if key = kRetirePolicy then 7
  else if key = kTraceCtrl ∨ key = kGrantFlags then 0x1F
  else if key = kSliceParkEnable then 0xFF
  else if key = kLinkEnable ∨ key = kTimeLinks ∨ key = kMoveLinks then 2 ^ 48 - 1
  else if key = kMoveInKcv then 2 ^ 24 - 1
  else 2 ^ 64 - 1

/-- Store a value and answer OK; a change of ORPHAN_POLICY, COH_HOLD or SNOOP_TIMEOUT is noted for the mirror epoch (13 R276). -/
def storeEntry (key v : Nat) (s : State) : State × Ans :=
  let s1 := s.setReg key (v &&& storeMask key)
  (if key = kOrphanPolicy then s1.rowChanged 9 0
    else if key = kCohHold then s1.rowChanged 9 1
    else if key = kSnoopTimeout then s1.rowChanged 9 2 else s1, {})

end Sys2Proof.Machine
end

