-- ==== Sys2Proof/Machine/MemMap.lean ====
section
/-! DEFINITION. Where a byte of the pool lives: the line code (06 R114 to R119), the interleave and its folded forms (04 R81,
14 R296), the far tier's channels and DRAM addresses (05 R103, R104), frames and the copy of a line that is served
(05 R91, R94; 06 R126, R127). -/

namespace Sys2Proof.Machine

/-! ### The line code -/

/-- What the decoder reports of a line (R116). -/
inductive Decode where
  | clean | corrected (group : Nat) | poisoned | cleared | uncorrectable
deriving DecidableEq, Repr, Inhabited

/-- A byte in each of the 16 check symbols. -/
def checkFill (b : Nat) : BitVec 640 := BitVec.ofNat 640 (b * ((2 ^ 128 - 1) / 255) * 2 ^ 512)

/-- POISON_MASK over the check bytes (R117). -/
def poisonMask : BitVec 640 := checkFill 0x5A

/-- CLEAR_MASK over the check bytes (R119). -/
def clearMask : BitVec 640 := checkFill 0xA5

/-- The symbol groups of R115 that an error pattern touches. -/
def groupsOf (e : BitVec 640) : List Nat := (upTo 20).filter fun g => e.extractLsb' (32 * g) 32 != 0

/-- Decode a stored line (R115 to R119): the report and the 64 data symbols it delivers. An error over exactly two groups
is uncorrectable; one over more is free (DESIGN CHOICE, log 3). -/
def SLine.decode (l : SLine) : Decode × Line :=
  match groupsOf l.err with
  | [] => (.clean, l.data)
  | [g] => (.corrected g, l.data)
  | gs =>
    let p := (groupsOf (l.err ^^^ poisonMask)).length
    let c := (groupsOf (l.err ^^^ clearMask)).length
    if p ≤ 1 then (.poisoned, 0)
    else if c ≤ 1 then (.cleared, 0)
    else if gs.length = 2 ∨ p = 2 ∨ c = 2 then (.uncorrectable, 0)
    else match Config.undetected l.err l.data with
      | some d => (.clean, d)
      | none => (.uncorrectable, 0)

/-- A line as its encoder stores it. -/
def codeword (d : Line) : SLine := { data := d, err := 0 }

/-- The poisoned form (R117). -/
def poisonLine : SLine := { data := 0, err := poisonMask }

/-- The cleared form (R119): what every line reads as until something is written (DESIGN CHOICE, log 1). -/
def clearLine : SLine := { data := 0, err := clearMask }

/-- The line after correction, as a write-back stores it: poisoned and cleared lines keep their form. -/
def SLine.corrected (l : SLine) : SLine :=
  match l.decode with
  | (.poisoned, _) => { l with err := poisonMask }
  | (.cleared, _) => clearLine
  | (.uncorrectable, _) => poisonLine
  | (_, d) => codeword d

/-- The 64 data bytes as they stand in the store. -/
def SLine.rawData (l : SLine) : BitVec 512 := l.data ^^^ l.err.extractLsb' 0 512

/-- The 16 check bytes as they stand in the store. -/
def SLine.rawCheck (l : SLine) : BitVec 128 := rsCheck l.data ^^^ l.err.extractLsb' 512 128

/-- 80 bytes with a form's mask, held as the line and error of at most one group that explain them, if one does. -/
def formOf (v mask : BitVec 640) : Option SLine :=
  (oneGroup (v ^^^ mask)).map fun e => { data := (v ^^^ mask ^^^ e).extractLsb' 0 512, err := mask ^^^ e }

/-- 80 bytes written raw (R131), as the decodes of R117 and R119 read them in turn: plain, poisoned, cleared; then an error of two
groups, which R115 detects; any other is held as it stands. -/
def rawLine (d : Line) (chk : BitVec 128) : SLine :=
  let v : BitVec 640 := chk ++ d
  match formOf v 0, formOf v poisonMask, formOf v clearMask with
  | some l, _, _ => l
  | none, some l, _ => l
  | none, none, some l => l
  | none, none, none =>
    match twoGroups v with
    | some e => { data := (v ^^^ e).extractLsb' 0 512, err := e }
    | none => { data := d, err := (chk ^^^ rsCheck d).setWidth 640 <<< 512 }

/-! ### The interleave -/

/-- REACH_GRANULES (R81, R296). -/
def State.reach (s : State) : Nat :=
  let g := s.pitch.gran
  if s.repair.foldSlice.isSome then 7 * g / 8 else if s.repair.foldChannel.isSome then 3 * g / 4 else g

/-- The slice of an offset and its local page (R81). -/
def State.sliceOf (s : State) (off : Nat) : Nat × Nat :=
  let p := bits off 12 32
  match s.repair.foldSlice with
  | none => (p % 8, p / 8)
  | some r =>
    if p % 8 ≠ r then (p % 8, p / 8)
    else
      let k := p / 8
      (((upTo 8).filter (· ≠ r)).getD (k % 7) 0, 7 * (s.pitch.gran * 4096) / 8 / 8 + k / 7)

/-- The board channel and channel page of a slice's local page (R103, R296). -/
def State.chanOf (s : State) (slice q : Nat) : Nat × Nat :=
  match s.repair.foldChannel with
  | none => (4 * slice + q % 4, q / 4)
  | some ch =>
    if slice = ch / 4 ∧ q % 4 = ch % 4 then
      let k := q / 4
      (4 * slice + ((upTo 4).filter (· ≠ ch % 4)).getD (k % 3) 0, 3 * (s.pitch.gran * 512) / 16 + k / 3)
    else (4 * slice + q % 4, q / 4)

/-- The page number of a slice's local page: the inverse of R81. -/
def State.pageOf (s : State) (slice q : Nat) : Nat :=
  match s.repair.foldSlice with
  | none => q * 8 + slice
  | some r =>
    let top := 7 * (s.pitch.gran * 4096) / 8 / 8
    if q < top then q * 8 + slice
    else 8 * (7 * (q - top) + (((upTo 8).filter (· ≠ r)).idxOf slice)) + r

/-- The local page of a channel's page: the inverse of R103 and R296. -/
def State.localOf (s : State) (chan cp : Nat) : Nat :=
  match s.repair.foldChannel with
  | none => cp * 4 + chan % 4
  | some ch =>
    let top := 3 * (s.pitch.gran * 512) / 16
    if chan / 4 = ch / 4 ∧ top ≤ cp then
      4 * (3 * (cp - top) + (((upTo 4).filter (· ≠ ch % 4)).idxOf (chan % 4))) + ch % 4
    else cp * 4 + chan % 4

/-- The page is one that a fold moved to a new home (R82, R296). -/
def State.movedPage (s : State) (off : Nat) : Bool :=
  let p := bits off 12 32
  match s.repair.foldSlice, s.repair.foldChannel with
  | some r, _ => p % 8 == r
  | none, some ch => p % 8 == ch / 4 && p / 8 % 4 == ch % 4
  | none, none => false

/-- Region of a local page (R90). -/
def regionOf (q : Nat) : Nat := q / 512

/-- Granules that have lines in a slice's region (R90, R81). -/
def State.regionGranules (s : State) (slice region : Nat) : List Nat :=
  match s.repair.foldSlice with
  | none => [region]
  | some _ =>
    let top := 7 * (s.pitch.gran * 4096) / 8 / 8
    if region * 512 < top then [region]
    else
      let lo := s.pageOf slice (region * 512) / 4096
      let hi := s.pageOf slice (region * 512 + 511) / 4096
      (upTo (hi + 1 - lo)).map (lo + ·)

/-- The line of local page `q` at byte `off` within its channel's space: channel address A / 64 (R103). -/
def chanLine (cp off : Nat) : Nat := cp * 64 + bits off 6 6

/-! ### DRAM addresses (R104) -/

/-- K of a channel: 2 for 128 GiB, 3 for 256 GiB (Table 5.5). -/
def ChanSt.k (c : ChanSt) : Nat := Nat.log2 (c.capacity / 32)

/-- Rank, bank and row of a channel line (Table 5.4). -/
def dramOf (order k line : Nat) : Nat × Nat × Nat :=
  let a := line * 64
  if order = 1 then (bits a 30 k, bits a (30 + k) 5, bits a 13 17)
  else
    let row := bits a (18 + k) 17
    let bank := bits a 13 5
    (bits a 18 k, if order = 2 then bank ^^^ bits row 0 5 else bank, row)

/-- The bank of a channel line, numbered over the ranks. -/
def State.bankOf (s : State) (ch line : Nat) : Nat :=
  let d := dramOf s.pitch.order (s.chan ch).k line
  d.1 * 32 + d.2.1

/-- The row of a line within its memory unit, with its rank and bank as one number: the 128 lines of a row share every
address bit above the column (Table 5.4); a half-stack's rows are taken the same way (DESIGN CHOICE, log 17). -/
def rowOf (line : Nat) : Nat := line / 128

/-- The bank group of a row, over the ranks (R127). -/
def State.groupOfRow (s : State) (unit row : Nat) : Nat := s.bankOf unit (row * 128) / 4

/-! ### Frames (R91, R94) -/

/-- Frames of set `region mod 768`. -/
def setFrames (region : Nat) : List Nat := (upTo 16).map fun w => region % 768 * 16 + w

/-- The frame that holds a region, if one does. -/
def SliceSt.frameOf (x : SliceSt) (region : Nat) : Option Nat :=
  (setFrames region).find? fun f => (x.frames.get {} f).phase != .free && (x.frames.get {} f).region == region

/-- Change a frame table entry. -/
def SliceSt.updFrame (x : SliceSt) (f : Nat) (g : FrameEntry → FrameEntry) : SliceSt :=
  { x with frames := x.frames.upd {} f g }

/-- A frame in this state serves reads and writes (Table 5.2). -/
def FramePhase.serves : FramePhase → Bool
  | .resident => true
  | .evicting => true
  | _ => false

/-- The home of a byte offset: slice, local page, frame of its region if any, and the memory unit and line that serve it. -/
structure Home where
  slice : Nat
  page : Nat
  frame : Option Nat
  unit : Nat
  line : Nat
deriving DecidableEq, Repr, Inhabited

/-- Where a line of a frame stands in its half-stack. -/
def nearLine (f q off : Nat) : Nat := f * 32768 + q % 512 * 64 + bits off 6 6

/-- The far-tier unit and line of an offset. -/
def State.farHome (s : State) (off : Nat) : Nat × Nat :=
  let h := s.sliceOf off
  let c := s.chanOf h.1 h.2
  (c.1, chanLine c.2 off)

/-- The home of an offset now (R92, R94) (DEDUCED, log 47). -/
def State.home (s : State) (off : Nat) : Home :=
  let h := s.sliceOf off
  let x := s.slice h.1
  let fr := x.frameOf (regionOf h.2)
  let far := s.farHome off
  match fr with
  | some f =>
    if (x.frames.get {} f).phase.serves then
      { slice := h.1, page := h.2, frame := fr, unit := 32 + h.1, line := nearLine f h.2 off }
    else { slice := h.1, page := h.2, frame := fr, unit := far.1, line := far.2 }
  | none => { slice := h.1, page := h.2, frame := none, unit := far.1, line := far.2 }

/-! ### One memory unit -/

/-- A pair of a list by its key. -/
def lookupLine (l : List (Nat × SLine)) (a : Nat) : Option SLine := (l.find? fun p => p.1 == a).map Prod.snd

/-- Replace or add a pair. -/
def putPair (l : List (Nat × SLine)) (a : Nat) (v : SLine) : List (Nat × SLine) :=
  if l.any (fun p => p.1 == a) then l.map (fun p => if p.1 == a then (a, v) else p) else l ++ [(a, v)]

/-- The copy of a line that is served: the repair's staging buffer's (R127), the remap table's (R126), or the stored one.
A line in the write buffer (R105) reads as written: the buffer holds line numbers, and the line its new content. -/
def ChanSt.lineAt (c : ChanSt) (a : Nat) : SLine :=
  match lookupLine ((c.repair.map (·.lines)).getD []) a, lookupLine c.remap a with
  | some l, _ => l
  | none, some l => l
  | none, none => c.mem.get clearLine a

/-- Write a line where it is served from. -/
def ChanSt.setLine (c : ChanSt) (a : Nat) (l : SLine) : ChanSt :=
  match c.repair with
  | some r =>
    if r.lines.any (fun p => p.1 == a) then { c with repair := some { r with lines := putPair r.lines a l } }
    else if c.remap.any (fun p => p.1 == a) then { c with remap := putPair c.remap a l }
    else { c with mem := c.mem.set clearLine a l }
  | none =>
    if c.remap.any (fun p => p.1 == a) then { c with remap := putPair c.remap a l }
    else { c with mem := c.mem.set clearLine a l }

/-- Drop the copies of a line that stand in front of its place, and the stored one: it then reads as an unlisted one. -/
def ChanSt.wipe (c : ChanSt) (p : Nat → Bool) : ChanSt :=
  { c with
    mem := c.mem.filter fun x => !p x.1
    remap := c.remap.map fun x => if p x.1 then (x.1, clearLine) else x
    repair := c.repair.map fun r => { r with lines := r.lines.map fun x => if p x.1 then (x.1, clearLine) else x } }

/-- The stored line at a unit and line number. -/
def State.unitLine (s : State) (unit a : Nat) : SLine := (s.chan unit).lineAt a

/-- Write a stored line at a unit and line number. -/
def State.setUnitLine (s : State) (unit a : Nat) (l : SLine) : State := s.updChan unit fun c => c.setLine a l

/-- The byte offset of a far-tier line: the inverse of `farHome`. -/
def State.offsetOf (s : State) (chan a : Nat) : Nat :=
  s.pageOf (chan / 4) (s.localOf chan (a / 64)) * 4096 + a % 64 * 64

/-- A line that a fold moved and nothing has written since: CLEARED in a granule that was FREE at the fold, POISON in any
other (R82, R296). -/
def State.movedForm (s : State) (off : Nat) : Option SLine :=
  if s.movedPage off && s.repair.moved.get 0 (off / 64) == 0 then
    some (if s.repair.busyAtFold.contains (off / 2 ^ 24) then poisonLine else clearLine)
  else none

/-- The far-tier copy of a line. -/
def State.farLine (s : State) (off : Nat) : SLine :=
  match s.movedForm off with
  | some l => l
  | none => s.unitLine (s.farHome off).1 (s.farHome off).2

/-- Write the far-tier copy of a line; a moved line is then its new home's. -/
def State.setFarLine (s : State) (off : Nat) (l : SLine) : State :=
  let s1 := s.setUnitLine (s.farHome off).1 (s.farHome off).2 l
  if s.movedPage off then
    { s1 with repair := { s1.repair with moved := s1.repair.moved.set 0 (off / 64) 1 } }
  else s1

/-- The stored copy at a home. -/
def State.at (s : State) (h : Home) (off : Nat) : SLine :=
  if h.unit < 32 then s.farLine off else s.unitLine h.unit h.line

/-- Replace the stored copy at a home. -/
def State.setAt (s : State) (h : Home) (off : Nat) (l : SLine) : State :=
  if h.unit < 32 then s.setFarLine off l else s.setUnitLine h.unit h.line l

/-- The stored copy of a line that requests are served from. -/
def State.stored (s : State) (off : Nat) : SLine := s.at (s.home off) off

/-- Replace the stored copy that requests are served from; nothing else changes. -/
def State.setStored (s : State) (off : Nat) (l : SLine) : State := s.setAt (s.home off) off l

/-- The unit that serves a line is stopped (R295, R296). -/
def State.homeDown (s : State) (off : Nat) : Bool :=
  let h := s.home off
  (s.slice h.slice).stopped || (decide (h.unit < 32) && (s.chan h.unit).stopped)

end Sys2Proof.Machine
end

