-- ==== Sys2Proof/Machine/MemOps.lean ====
section
/-! DEFINITION. Reading and writing stored lines: what a decode leads to (06 R118, R122), hard faults (06 R126), the first write to a
snapshot range (08 R177), the forward to a partner (13 R273), key slots (15 R310 to R316), and poison. -/

namespace Sys2Proof.Machine

/-! ### Hints (R96) -/

/-- The frame-scope hint of a region, where it has one (R97). -/
def SliceSt.ownHint (x : SliceSt) (region : Nat) : Option Nat :=
  match x.frameOf region with
  | some f => if (x.frames.get {} f).ownHint then some (x.frames.get {} f).hint else none
  | none => (x.cands.find? fun c => c.hinted && c.region == region).map (·.hint)

/-- A hinted entry joins the candidate table of 4,096 entries in place of any other of its region; in a full table it displaces an unhinted one
(R97). None when every entry is hinted. -/
def SliceSt.putCand (x : SliceSt) (c : Candidate) : Option SliceSt :=
  let rest := x.cands.filter fun d => d.region != c.region
  if rest.length < 4096 then some { x with cands := rest ++ [c] }
  else match rest.findIdx? fun d => !d.hinted with
    | some i => some { x with cands := rest.eraseIdx i ++ [c] }
    | none => none

/-- The effective hint of a region: its own, else that of the entry that governs its granule (R96). -/
def State.hintOf (s : State) (slice region : Nat) : Nat :=
  ((s.slice slice).ownHint region).getD (s.ownerOf ((s.regionGranules slice region).headD region * 2 ^ 24)).hint

/-- Pinned frames of a region's set. -/
def SliceSt.pinnedIn (x : SliceSt) (region : Nat) : Nat :=
  ((setFrames region).filter fun f => (x.frames.get {} f).phase != .free && (x.frames.get {} f).pinned).length

/-- The frames of a slice follow their regions' hints: one whose hint is not PIN is not pinned, and one whose hint is PIN is, while its set
has a pinned way left (R96, R98). -/
def State.repin (s : State) (slice : Nat) : State :=
  let held := ((s.slice slice).frames.filter fun p => p.2.phase != .free).map Prod.fst
  let s1 := s.updSlice slice fun x => { x with
    frames := held.foldl (fun t f => t.upd {} f fun e => { e with pinned := e.pinned && s.hintOf slice e.region == 3 }) x.frames }
  held.foldl (fun a f =>
    let e := (a.slice slice).frames.get {} f
    if a.hintOf slice e.region == 3 && (!e.pinned && decide ((a.slice slice).pinnedIn e.region < a.reg kPinWays)) then
      a.updSlice slice fun x => x.updFrame f fun e => { e with pinned := true }
    else a) s1

/-- Unit code of a line (Table 6.1): 3 for a line of a pinned frame or a far-tier line whose effective hint is PIN. -/
def State.unitCode (s : State) (h : Home) : Nat :=
  if 32 ≤ h.unit then
    match h.frame with
    | some f => if ((s.slice h.slice).frames.get {} f).pinned then 3 else 2
    | none => 2
  else if s.hintOf h.slice (regionOf h.page) = 3 then 3 else 1

/-- A request's access to a region: the frame's ACCESS_COUNT, or the miss count of a NONE region (R93, R97). -/
def State.touch (s : State) (off : Nat) : State :=
  let h := s.home off
  let x := s.slice h.slice
  let region := regionOf h.page
  match h.frame with
  | some f =>
    if 32 ≤ h.unit then s.updSlice h.slice fun x => x.updFrame f fun e => { e with count := min 65535 (e.count + 1) } else s
  | none =>
    if s.hintOf h.slice region ≠ 0 then s
    else if x.cands.any (fun c => c.region == region) then
      s.updSlice h.slice fun x => { x with
        cands := x.cands.map fun c => if c.region == region then { c with misses := min 65535 (c.misses + 1) } else c }
    else if x.cands.length < 4096 then
      s.updSlice h.slice fun x => { x with
        cands := x.cands ++ [{ region := region, hinted := false, hint := 0, stall := 0, misses := 1, lastMisses := 0 }] }
    else s

/-! ### Reads -/

/-- The entry of a line in its slice's error table. -/
def Home.error (h : Home) (code kind group host tenant : Nat) : ErrEntry where
  kind := kind
  unit := code
  group := group
  host := host
  tenant := tenant
  channel := if h.unit < 32 then h.unit else h.slice
  loc := if h.unit < 32 then h.line * 64 else h.line

/-- The one symbol group in error of a line that a decode corrects. -/
def SLine.group (l : SLine) : Option Nat :=
  match l.decode.1 with
  | .corrected g => some g
  | .cleared => (groupsOf (l.err ^^^ clearMask)).head?
  | _ => none

/-- Remap entries of the table that a line's channel has; a half-stack's lines are spread over its pseudo-channels (DESIGN CHOICE, log 4). -/
def ChanSt.tableOf (c : ChanSt) (unit a : Nat) : List (Nat × SLine) :=
  if unit < 32 then c.remap else c.remap.filter fun p => Config.nearChannel p.1 == Config.nearChannel a

/-- A memory unit's operation of DRAM maintenance waits, in its channel and at level 1 of its slice's pipeline (05 R108, 12 R260). -/
def State.maintain (s : State) (unit : Nat) (m : MaintOp) : State :=
  (s.updChan unit fun c => { c with maint := c.maint ++ [m] }).pipePush (if unit < 32 then unit / 4 else unit - 32) 1 unit 0

/-- A hard fault (R126, R128): the line's value moves to a free remap entry, with an entry of kind REMAPPED; with the table full and no
soft repair left for its bank group it stays, with an entry of kind REMAP_FULL that makes its channel a candidate for retirement. -/
def State.hardFault (s : State) (h : Home) (off group : Nat) (value : SLine) : State :=
  let c := s.chan h.unit
  let code := s.unitCode h
  if c.remap.any fun p => p.1 == h.line then s
  else if (c.tableOf h.unit h.line).length < 16 then
    let s1 := s.updChan h.unit fun c => { c with
      remap := c.remap ++ [(h.line, value)], mem := c.mem.set clearLine h.line clearLine, hard := c.hard.set 0 h.line 0 }
    (s1.maintain h.unit (.remap h.line)).logError h.slice (h.error code 1 group 0xFFF (s.ownerOf off).tenant)
  else if c.usedGroups.contains (s.groupOfRow h.unit (rowOf h.line)) then
    (s.logError h.slice (h.error code 3 group 0xFFF (s.ownerOf off).tenant)).updChan h.unit fun c => { c with candidate := true }
  else s

/-- A line as a second read finds it, after an error `again` in the cells that hold it. -/
def SLine.reread (l : SLine) (again : BitVec 640) : SLine := { l with err := l.err ^^^ again }

/-- The read that verifies a line just written back (R122, R125): an error it meets is a hard fault, and the line's value moves, or the
poison pattern if that read is UNCORRECTABLE (R126). -/
def State.verify (s : State) (h : Home) (off group : Nat) (again : BitVec 640) : State :=
  let bad := again ^^^ (s.chan h.unit).hard.get 0 h.line
  if bad = 0 then s else s.hardFault h off group ((s.at h off).reread bad).corrected

/-- A CORRECTED line (R122): counted, and for a count-and-log line written back, verified and logged. -/
def State.noteCorrected (s : State) (h : Home) (off host : Nat) (g : Nat) : State :=
  let code := s.unitCode h
  let s1 := s.count .slice h.slice (63 + code)
  if code = 3 then
    ((s1.setAt h off (s.at h off).corrected).logError h.slice
      (h.error code 0 g host (s.ownerOf off).tenant)).verify h off g 0
  else s1

/-- An UNCORRECTABLE line (R118, R123): written back poisoned, counted, logged, and counted against its channel. -/
def State.noteUncorrectable (s : State) (h : Home) (off host : Nat) : State :=
  let code := s.unitCode h
  let now := s.time.ticks
  let s1 := (s.setAt h off poisonLine).count .slice h.slice (79 + code)
  let s2 := s1.updChan h.unit fun c => { c with
    ueTimes := (now :: c.ueTimes).filter fun t => decide (now < t + 86400000000000) }
  s2.logError h.slice (h.error code 2 31 host (s.ownerOf off).tenant)

/-- What finding a decode does to the line and the tallies (R118, R122). -/
def State.note (s : State) (h : Home) (off host : Nat) : State :=
  let l := s.at h off
  match l.decode.1 with
  | .uncorrectable => s.noteUncorrectable h off host
  | .poisoned => s.count .slice h.slice 97
  | _ =>
    match l.group with
    | some g => s.noteCorrected h off host g
    | none => s

/-- A line access enters its channel's queues at its level (12 R263): a read its bank's queue, unless the write buffer holds the line; a
write the 64-line write buffer, of which the oldest line leaves when it is full (R105) (DESIGN CHOICE, log 43). One of a descriptor
wakes the slice that holds the line (18 R371). -/
def State.queueDram (s0 : State) (h : Home) (write : Bool) (level : Nat) : State :=
  let s := if level = 5 then s0.wakeSlice h.slice else s0
  if 32 ≤ h.unit then s
  else s.updChan h.unit fun c =>
    let b := s.bankOf h.unit h.line
    let push := fun (c : ChanSt) => { c with
      banks := c.banks.upd {} b fun k => { k with queue := k.queue ++ [(h.line, write, level)] } }
    if c.wbuf.contains h.line then c
    else if write then
      let buf := (if c.wbuf.length < 64 then c.wbuf else c.wbuf.drop 1) ++ [h.line]
      push { c with wbuf := buf, draining := c.draining || decide (48 ≤ buf.length) }
    else push c

/-- Row of the slice tally for a line access of a home: 48 and 49 reads, 50 and 51 writes, near tier first. -/
def Home.row (h : Home) (write : Bool) : Nat := 48 + 2 * b2n write + b2n (decide (h.unit < 32))

/-- Read a stored line for a host (0xFFF for an internal access), at a level of 12 Table 12.4: its decode and its data symbols. -/
def State.readLine (s : State) (off host : Nat) (level : Nat := 3) : State × Decode × Line :=
  let h := s.home off
  (((s.note h off host).count .slice h.slice (h.row false)).queueDram h false level, (s.at h off).decode)

/-! ### Writes -/

/-- The launches whose snapshot needs the old content of a line (R177). -/
def SliceSt.snapNeeds (x : SliceSt) (off : Nat) : List Nat :=
  ((x.snapRanges.filter fun r => decide (r.lo ≤ off ∧ off < r.hi)).map (·.barrow)).eraseDups.filter fun b =>
    !(x.snapLines.any fun l => l.barrow == b && l.line == off / 64)

/-- The snapshot buffer of 4,096 lines has room for the old content (R177). -/
def State.snapRoom (s : State) (off : Nat) : Bool :=
  let x := s.slice (s.sliceOf off).1
  decide (x.snapLines.length + (x.snapNeeds off).length ≤ 4096)

/-- Copy a line's old content for the launches that need it. -/
def State.snapKeep (s : State) (off : Nat) : State :=
  let old := s.stored off
  s.updSlice (s.sliceOf off).1 fun x => { x with
    snapLines := x.snapLines ++ (x.snapNeeds off).map fun b => { barrow := b, line := off / 64, old := old } }

/-- Mark the page of a line written in its region's frame: dirty, dirty again, or pending re-copy (Table 5.2). -/
def State.markPage (s : State) (h : Home) : State :=
  match h.frame with
  | some f => s.updSlice h.slice fun x => x.updFrame f fun e => { e with
      pages := e.pages ||| (1#512 <<< (h.page % 512)) }
  | none => s

/-- Forward a stored line to the partner (R273); answers the HSEQ of the packet (DEDUCED, log 45). -/
def State.forward (s : State) (off : Nat) (l : SLine) : State × Option Nat :=
  if s.forwards (off / 2 ^ 24) then
    let d := l.decode
    let poisoned := d.1 == .poisoned || d.1 == .uncorrectable
    let cleared := d.1 == .cleared
    (s.halPush 1 (s.partnerOffset off) (s.ownerOf off).slot poisoned cleared
      [if poisoned || cleared then 0 else d.2], some s.pair.hseqNext)
  else (s, none)

/-- Write a stored line where requests are served from: the old line is kept for snapshots, the page is marked, WRITTEN is
set (R76), and the line is forwarded. -/
def State.storeLine (s : State) (off : Nat) (l : SLine) (level : Nat := 3) : State × Option Nat :=
  let h := s.home off
  let s1 := ((s.snapKeep off).setStored off l).markPage h
  let s2 := (s1.markWritten off).count .slice h.slice (h.row true)
  (s2.queueDram h true level).forward off l

/-! ### Key slots (15 R310, R313, Table 15.5) -/

/-- The slot decrypts. -/
def KeySlot.reads (k : KeySlot) : Bool := k.phase == .keyed

/-- The slot encrypts partial writes and descriptor destinations. -/
def KeySlot.modifies (k : KeySlot) : Bool := k.phase == .keyed && !k.importOn

/-- The slot takes whole-line writes. -/
def KeySlot.takes (k : KeySlot) : Bool := k.phase == .keyed || (k.phase == .bound && k.importOn)

/-- Ciphertext of a plain line at a board offset (R310). -/
def KeySlot.seal (k : KeySlot) (off : Nat) (plain : Line) : Line := xtsEncrypt k.key1 k.key2 off plain

/-- Plaintext of a stored line at a board offset. -/
def KeySlot.opened (k : KeySlot) (off : Nat) (c : Line) : Line := xtsDecrypt k.key1 k.key2 off c

/-- The offset whose tweak a line of this board is sealed with: a window line served for the partner keeps its partner
offset (R268). -/
def State.tweakOf (s : State) (off : Nat) : Nat :=
  if s.servesWindow (off / 2 ^ 24) then off + s.pair.window * 2 ^ 24 else off

/-- What a read of a line yields: a status and the plaintext (R118, R119, R313). -/
def State.plainOf (s : State) (off slot : Nat) (d : Decode × Line) : Status × Line :=
  match d.1 with
  | .clean => (.ok, (s.key slot).opened (s.tweakOf off) d.2)
  | .corrected _ => (.ok, (s.key slot).opened (s.tweakOf off) d.2)
  | .cleared => (.ok, 0)
  | .poisoned => (.poison, 0)
  | .uncorrectable => (.poison, 0)

/-- Read a line's plaintext: POISON for a line without data, or for one whose unit is stopped (R118, R295, R296). -/
def State.readPlain (s : State) (off slot host : Nat) (level : Nat := 3) : State × Status × Line :=
  if s.homeDown off then (s, .poison, 0)
  else
    let r := s.readLine off host level
    (r.1, s.plainOf off slot r.2)

/-- Write a whole line of plaintext: encrypted, or as received while the slot imports (R313). -/
def State.writePlain (s : State) (off slot : Nat) (plain : Line) (level : Nat := 3) : State × Option Nat :=
  let k := s.key slot
  s.storeLine off (codeword (if k.importOn then plain else k.seal (s.tweakOf off) plain)) level

/-- Write a line back poisoned (R117). -/
def State.poisonAt (s : State) (off : Nat) (level : Nat := 3) : State × Option Nat := s.storeLine off poisonLine level

/-- Merge into a line: the old plaintext of a readable line through `f`; a line without data stays, and the request is
answered UNCORRECTABLE (R118, R119). -/
def State.modifyPlain (s : State) (off slot host : Nat) (f : Line → Line) (level : Nat := 3) : State × Status × Line × Option Nat :=
  if s.homeDown off then (s, .uncorrectable, 0, none)
  else
    let r := s.readLine off host level
    match s.plainOf off slot r.2 with
    | (.ok, old) =>
      let w := r.1.storeLine off (codeword ((s.key slot).seal (s.tweakOf off) (f old))) level
      (w.1, .ok, old, w.2)
    | (_, old) => (r.1, .uncorrectable, old, none)

end Sys2Proof.Machine
end

