-- ==== Sys2Proof/Machine/TrackOps.lean ====
section
/-! DEFINITION. Request tracker entries (03 R65 to R67): their allocation, the completion of a request with its key slot
use, tag record and drain count, and their answers. -/

namespace Sys2Proof.Machine

/-! ### Kinds of request -/

/-- Non-idempotent opcodes (03 Table 3.3). -/
def ReqOp.ni : ReqOp → Bool
  | .atomic => true
  | .reduceWrite => true
  | .doorbell => true
  | _ => false

/-- Write-class requests (R60). -/
def ReqOp.writeClass : ReqOp → Bool
  | .write => true
  | .writeMasked => true
  | .atomic => true
  | .reduceWrite => true
  | .cohWriteback => true
  | .doorbell => true
  | _ => false

/-- A request answered POISON when its unit stops, UNCORRECTABLE otherwise (R12). -/
def ReqOp.isRead : ReqOp → Bool
  | .read => true
  | .cohRead => true
  | _ => false

/-- What a stopped or aborted request answers: reads POISON, any other `other` (R12, R85, R316). -/
def ReqOp.abortStatus (o : ReqOp) (other : Status) : Status := if o.isRead then .poison else other

/-- The statuses of executed requests (03 Table 3.4). -/
def Status.executed : Status → Bool
  | .ok => true
  | .poison => true
  | .uncorrectable => true
  | .orphaned => true
  | .partialFenced => true
  | _ => false

/-- Byte offset of a request's address. -/
def reqOff (r : Req) : Nat := bits r.addr.toNat 0 44

/-- Where a request's bytes stand on this board: a request to the partner's number is served from the window (13 R282). -/
def State.localOff (s : State) (r : Req) : Nat :=
  if bits r.addr.toNat 44 8 = s.board then reqOff r else reqOff r - s.pair.window * 2 ^ 24

/-! ### Tracker -/

/-- An entry for a request, before anything is known of its outcome. -/
def newTrk (stall : Nat) (op : ReqOp) (r : Req) : Trk where
  id := 0
  stall := stall
  op := op
  req := r
  stage := .queued
  status := .ok
  result := 0
  units := []
  failed := 0
  stale := false
  marks := []
  slot := none
  hseq := none
  aborted := false
  todo := []
  waits := []

/-- A use of a key slot begins (15 R316). -/
def State.beginUse (s : State) (slot : Nat) : State :=
  (s.updKey slot fun k => { k with refs := k.refs + 1 }).count .key slot 0

/-- A use of a key slot ends. -/
def State.endUse (s : State) (slot : Nat) : State := s.updKey slot fun k => { k with refs := k.refs - 1 }

/-- Allocate a tracker entry in a slice; the request then waits at the slice's input port (R65, 12 R264). -/
def State.track (s : State) (slice : Nat) (t : Trk) : State :=
  let id := (s.slice slice).nextId
  let s1 := (s.sramWrite 0x08 slice (id % 16384)).updSlice slice fun x => { x with
    tracker := x.tracker ++ [{ t with id := id }], nextId := id + 1 }
  let s2 := match t.slot with
    | some k => s1.beginUse k
    | none => s1
  let s2 := s2.wakeSlice slice
  { s2 with xbar := { s2.xbar with inWait := s2.xbar.inWait.upd [] slice fun l => l ++ [(t.req.link, id)] } }

/-- Number of the entry that `track` allocates. -/
def State.nextTrk (s : State) (slice : Nat) : Nat := (s.slice slice).nextId

/-- Record an executed non-idempotent request in its stall's tag cache (R58). -/
def State.recordTag (s : State) (st : Nat) (t : BitVec 16) (op : Nat) (status : Status) (result : BitVec 64) : State :=
  { (s.sramWrite 0x09 8 (st * 4096 + t.toNat % 4096)).updStall st fun x => { x with tags := x.tags.set {} (t.toNat % 4096) {
        valid := true, tag := t, opcode := op, status := status, result := result } } with
    pair := { s.pair with changedTags := (st, t.toNat % 4096) :: s.pair.changedTags } }

/-- TAG record of a slot (13 Table 13.3). -/
def tagRecord (st : Nat) (x : TagSlot) : Nat :=
  st + x.tag.toNat * 2 ^ 16 + x.opcode * 2 ^ 32 + x.status.code * 2 ^ 40 + x.result.toNat * 2 ^ 64

/-- Forget the TAG record's HSEQ when there is none. -/
def laterHseq (a b : Option Nat) : Option Nat :=
  match b with
  | some h => some h
  | none => a

/-- Record an executed non-idempotent request, with a TAG record when its granule is mirrored (R58, 13 R274). -/
def State.recordDone (s : State) (t : Trk) : State × Option Nat :=
  let s1 := s.recordTag t.stall t.req.tag t.op.code t.status t.result
  if (s1.ownerOf (s1.localOff t.req)).mirrored then
    s1.halRecord 6 (tagRecord t.stall ((s1.stall t.stall).tags.get {} (t.req.tag.toNat % 4096)))
  else (s1, none)

/-- A tracked request is complete: its slot's use ends, and a non-idempotent one is recorded, with a TAG record when its granule is mirrored (R58, 13 R274). `f` sets the outcome. -/
def State.complete (s : State) (slice id : Nat) (f : Trk → Trk) : State :=
  match (s.slice slice).trk id with
  | none => s
  | some t0 =>
    let t := f t0
    let s1 := match t.slot with
      | some k => s.endUse k
      | none => s
    let ni := t.op.ni && (t.status.executed && t.op != .doorbell)
    let rec_ := if ni then s1.recordDone t else (s1, none)
    rec_.1.updSlice slice fun x => x.updTrk id fun _ =>
      { t with slot := none, hseq := laterHseq t.hseq rec_.2 }

/-- A write-class request not yet performed: it waits for snoops, or for MIRROR_ACK (R18). -/
def State.unperformed (s : State) (t : Trk) : Bool :=
  t.op.writeClass && (t.stage == .snooping || (decide (t.hseq.isSome) && !s.halCovered t.hseq && t.stage != .inLink))

/-- Write-class requests not yet performed that pass a test, by slice and number. -/
def State.unperformedOf (s : State) (p : Trk → Bool) : List (Nat × Nat) :=
  (upTo 8).flatMap fun n => ((s.slice n).tracker.filter fun t => p t && s.unperformed t).map fun t => (n, t.id)

/-- The requests an entry waits for are performed or answered (R152). -/
def State.waitsOver (s : State) (t : Trk) : Bool :=
  t.waits.all fun w => match (s.slice w.1).trk w.2 with
    | some u => !s.unperformed u
    | none => true

/-- A request that fails as a whole: nothing is performed and no data is returned. A multi-unit READ whose status counts as executed
carries every unit in its mask, and zeros (R55). -/
def Trk.failWith (t : Trk) (st : Status) : Trk :=
  let n := if t.op == .read && (decide (1 < t.req.len) && st.executed) then t.req.len else 0
  { t with
    status := st, result := BitVec.ofNat 64 (2 ^ n - 1), units := List.replicate n 0, failed := 2 ^ n - 1, stale := false
    stage := .done, todo := [], waits := [], hseq := none }

/-- A tracked request ends early with a status. -/
def State.abortTrk (s : State) (slice id : Nat) (st : Status) : State :=
  s.updSlice slice fun x => x.updTrk id fun t => { t.failWith st with aborted := true }

/-- An abort that also ends the slot's use, withdraws a response already formed, and records an executed non-idempotent request
(R58). -/
def State.abort (s : State) (slice id : Nat) (st : Status) : State :=
  match (s.slice slice).trk id with
  | none => s
  | some t =>
    let s1 := match t.slot with
      | some k => s.endUse k
      | none => s
    let s2 := if t.op.ni && (st.executed && t.op != .doorbell) then (s1.recordDone (t.failWith st)).1 else s1
    ((s2.abortTrk slice id st).dropPackets fun p => p.origin == .slice slice id).updSlice slice fun x => {
      x.updTrk id fun t => { t with slot := none } with
      txns := x.txns.map fun y => match y.cause with
        | .request i _ => if i == id then { y with aborted := true } else y
        | _ => y }

/-- The response of an entry is formed again and sent, or held for a link; any earlier one is withdrawn (R12, R67). -/
def State.answerTrk (s : State) (slice id : Nat) : State :=
  (s.dropPackets fun p => p.origin == .slice slice id).sendHeld slice id

end Sys2Proof.Machine
end

