-- ==== Sys2Proof/Machine/ReqOps.lean ====
section
/-! DEFINITION. What a host request does to one line (03 Table 3.3, R54, R55): reads, whole-line and masked writes, atomics and
write-backs, with the statuses of 06 R118 and R119. -/

namespace Sys2Proof.Machine

/-! ### Values -/

/-- Payload unit `i` of a request. -/
def unitOf (r : Req) (i : Nat) : Line := r.payload.getD i 0

/-- Merge bytes of `new` into `old` under a 64-bit byte-enable mask (WRITE_MASKED). -/
def mergeMask (mask : BitVec 64) (new old : Line) : Line :=
  let full : BitVec 512 := BitVec.ofNat 512
    ((upTo 64).foldl (fun a i => a + (if mask.getLsbD i then 255 * 256 ^ i else 0)) 0)
  (new &&& full) ||| (old &&& ~~~full)

/-- The new value of an ATOMIC by MOD (Table 3.3): FETCH_ADD, SWAP, CAS, FETCH_AND, FETCH_OR, FETCH_MAX, FETCH_MIN. -/
def atomicNew (mod : Nat) (old operand compare : BitVec 64) : BitVec 64 :=
  match mod with
  | 0 => old + operand
  | 1 => operand
  | 2 => if old = compare then operand else old
  | 3 => old &&& operand
  | 4 => old ||| operand
  | 5 => if old < operand then operand else old
  | _ => if operand < old then operand else old

/-- The 64-bit value at byte `b` of a line, little-endian. -/
def lineWord (l : Line) (b : Nat) : BitVec 64 := l.extractLsb' (8 * b) 64

/-- A line with the 64-bit value at byte `b` replaced. -/
def setLineWord (l : Line) (b : Nat) (v : BitVec 64) : Line :=
  (l &&& ~~~((BitVec.allOnes 64).setWidth 512 <<< (8 * b))) ||| (v.setWidth 512 <<< (8 * b))

/-! ### Units -/

/-- Byte offset on this board of unit `u` of a request. -/
def State.unitOff (s : State) (r : Req) (u : Nat) : Nat := s.localOff r / 64 * 64 + 64 * u

/-- The key slot of an offset's granule. -/
def State.slotOf (s : State) (off : Nat) : Nat := (s.ownerOf off).slot

/-- Record a unit's outcome in an entry: the status that stands highest, the unit's bit when it failed, its data. -/
def Trk.unitDone (t : Trk) (u : Nat) (st : Status) (d : Line) : Trk :=
  { t with
    status := t.status.join st
    failed := if st == .ok then t.failed else setBit t.failed u true
    units := t.units.set u (if st == .ok then d else 0)
    todo := t.todo.filter (· ≠ u) }

/-- Note the HSEQ of a forwarded write. -/
def Trk.withHseq (t : Trk) (h : Option Nat) : Trk := { t with hseq := laterHseq t.hseq h }

/-- Read unit `u` from memory (DEDUCED, log 40). -/
def State.unitRead (s : State) (t : Trk) (u : Nat) : State × Trk :=
  let off := s.unitOff t.req u
  let r := s.readPlain off (s.slotOf off) t.req.host
  (r.1, t.unitDone u r.2.1 r.2.2)

/-- Write unit `u` whole (R118: it clears poison); not performed when its home is stopped (R295), or when a snapshot needs a
buffer line and none is free (08 R177). -/
def State.unitWrite (s : State) (t : Trk) (u : Nat) (d : Line) : State × Trk :=
  let off := s.unitOff t.req u
  if s.homeDown off then (s, t.unitDone u .uncorrectable 0)
  else if !s.snapRoom off then (s, t.unitDone u .retryBusy 0)
  else
    let w := s.writePlain off (s.slotOf off) d
    (w.1, (t.unitDone u .ok 0).withHseq w.2)

/-- Merge into unit `u` through `f`. -/
def State.unitModify (s : State) (t : Trk) (u : Nat) (f : Line → Line) : State × Trk × Line :=
  let off := s.unitOff t.req u
  if !s.snapRoom off then (s, t.unitDone u .retryBusy 0, 0)
  else
    let w := s.modifyPlain off (s.slotOf off) t.req.host f
    (w.1, (t.unitDone u w.2.1 0).withHseq w.2.2.2, w.2.2.1)

/-- ATOMIC on the line of the request: RESULT carries the old value (R54). -/
def State.unitAtomic (s : State) (t : Trk) : State × Trk :=
  let b := bits t.req.addr.toNat 0 6
  let f := fun (l : Line) => setLineWord l b
    (atomicNew t.req.mod (lineWord l b) (lineWord (unitOf t.req 0) 0) (lineWord (unitOf t.req 0) 8))
  let w := s.unitModify t 0 f
  (w.1, { w.2.1 with result := if w.2.1.status == .ok then lineWord w.2.2 b else 0 })

/-- WRITE_MASKED on the line of the request. -/
def State.unitMasked (s : State) (t : Trk) : State × Trk :=
  let w := s.unitModify t 0 (mergeMask (lineWord (unitOf t.req 1) 0) (unitOf t.req 0))
  (w.1, w.2.1)

/-- Write a line that a host returned or wrote back: encrypted when the slot still holds a key, else poisoned (07 R418);
lost when the line's home is stopped. -/
def State.writeBack (s : State) (off : Nat) (d : Line) (level : Nat := 3) : State × Option Nat :=
  if s.homeDown off then (s, none)
  else
    let k := s.key (s.slotOf off)
    s.storeLine off (if k.phase == .keyed then codeword (k.seal (s.tweakOf off) d) else poisonLine) level

/-- COH_WRITEBACK's write: a line without data stays as it is, and the request is answered UNCORRECTABLE (R118). -/
def State.unitWriteBack (s : State) (t : Trk) : State × Trk :=
  let w := s.unitModify t 0 (fun _ => unitOf t.req 0)
  (w.1, w.2.1)

/-- Units that an opcode works on. -/
def unitCount (op : ReqOp) (r : Req) : Nat :=
  match op with
  | .read => r.len
  | .write => r.len
  | .flush => r.len
  | .invalidate => r.len
  | .hint => 0
  | _ => 1

/-- What one unit of a request does outside coherent windows, or once its snoops are answered. -/
def State.unitDo (s : State) (t : Trk) (u : Nat) : State × Trk :=
  match t.op with
  | .read => s.unitRead t u
  | .write => s.unitWrite t u (unitOf t.req u)
  | .writeMasked => s.unitMasked t
  | .atomic => s.unitAtomic t
  | .cohRead => s.unitRead t u
  | .cohWriteback => s.unitWriteBack t
  | _ => (s, t.unitDone u .ok 0)

/-- Every unit in order (DESIGN CHOICE, log 44). -/
def State.unitsDo (s : State) (t : Trk) : List Nat → State × Trk
  | [] => (s, t)
  | u :: r =>
    match s.unitDo t u with
    | (s', t') => State.unitsDo s' t' r

/-- RESULT of a finished request: the unit mask for a multi-unit READ that failed (R55), the opcode's own otherwise (DEDUCED,
log 40). -/
def Trk.finalResult (t : Trk) : BitVec 64 :=
  if t.status == .ok then t.result else if t.multiRead then BitVec.ofNat 64 t.failed else 0

end Sys2Proof.Machine
end

