-- ==== Sys2Proof/Machine/CohOps.lean ====
section
/-! DEFINITION. Coherent windows (07): the directory, snoops, and what requests, recalls, time-outs and fences do to a line. -/

namespace Sys2Proof.Machine

/-! ### The directory (R136, R137) -/

/-- Local line number of an offset. -/
def State.lineNo (s : State) (off : Nat) : Nat := (s.sliceOf off).2 * 64 + bits off 6 6

/-- Byte offset of a slice's local line. -/
def State.lineOff (s : State) (slice line : Nat) : Nat := s.pageOf slice (line / 64) * 4096 + line % 64 * 64

/-- Directory set of a local line. -/
def dirSet (line : Nat) : Nat := bits line 0 14 ^^^ bits line 14 14

/-- Ways of a set. -/
def dirWays (line : Nat) : List Nat := (upTo 16).map fun w => dirSet line * 16 + w

/-- Entry `k`. -/
def SliceSt.dirAt (x : SliceSt) (k : Nat) : DirEntry := x.dir.get {} k

/-- Change entry `k`. -/
def SliceSt.updDir (x : SliceSt) (k : Nat) (f : DirEntry → DirEntry) : SliceSt := { x with dir := x.dir.upd {} k f }

/-- The entry of a line. -/
def SliceSt.dirOf (x : SliceSt) (line : Nat) : Option Nat :=
  (dirWays line).find? fun k => (x.dirAt k).valid && (x.dirAt k).line == line

/-- Pointers of pointer form. -/
def DirEntry.pointers (e : DirEntry) : List Nat :=
  (upTo 4).filterMap fun i => if bitAt e.sharers.toNat (11 * i + 10) then some (bits e.sharers.toNat (11 * i) 10) else none

/-- Pointers packed in word 1, at most four. -/
def packPointers (l : List Nat) : BitVec 64 :=
  BitVec.ofNat 64 ((l.zipIdx.take 4).foldl (fun a p => a + (1024 + p.1 % 1024) * 2 ^ (11 * p.2)) 0)

/-- The entry lists no sharer. -/
def DirEntry.unshared (e : DirEntry) : Bool := e.sharers == 0

/-- Sharers listed: pointers, or 16 stalls for each bit of coarse form. -/
def DirEntry.listed (e : DirEntry) : Nat := if e.coarse then 16 * popCount e.sharers.toNat 64 else e.pointers.length

/-- The entry with a sharer added; a fifth turns it to coarse form (R137). -/
def DirEntry.add (e : DirEntry) (st : Nat) : DirEntry :=
  let n := st % 1024
  if e.coarse then { e with sharers := e.sharers ||| (1#64 <<< (n / 16)) }
  else if e.pointers.contains n then e
  else if e.pointers.length < 4 then { e with sharers := packPointers (e.pointers ++ [n]) }
  else { e with coarse := true, sharers := BitVec.ofNat 64 ((e.pointers ++ [n]).foldl (fun a i => a ||| 2 ^ (i / 16)) 0) }

/-- The entry without a stall's pointer; coarse bits stay (R144, R148). -/
def DirEntry.drop (e : DirEntry) (st : Nat) : DirEntry :=
  if e.coarse then e else { e with sharers := packPointers (e.pointers.filter (· ≠ st % 1024)) }

/-- First number of the stalls that a line's entry names: image stalls for lines served for the partner (13 R282). -/
def State.stallBase (s : State) (off : Nat) : Nat := if s.servesWindow (off / 2 ^ 24) then 1024 else 0

/-- Stalls that an entry lists as sharers; a coarse bit stands for the ATTACHED stalls of its group. -/
def State.sharersOf (s : State) (base : Nat) (e : DirEntry) : List Nat :=
  if e.coarse then
    (s.stalls.filter fun p => decide (base ≤ p.1 ∧ p.1 < base + 1024)
      && (p.2.phase == .attached && e.sharers.getLsbD (p.1 % 1024 / 16))).map Prod.fst
  else e.pointers.map (base + ·)

/-- Every stall that may hold the line. -/
def State.holdersOf (s : State) (base : Nat) (e : DirEntry) : List Nat :=
  match e.phase with
  | .shared => s.sharersOf base e
  | .pennant => e.holder :: s.sharersOf base e
  | .owned => [e.holder]
  | _ => []

/-- Code of a directory state (Table 7.1). -/
def DirPhase.code : DirPhase → Nat
  | .shared => 0 | .pennant => 1 | .owned => 2 | .orphaned => 3 | .stale => 4

/-- Word 0 of a directory entry (Table 7.1). -/
def DirEntry.word0 (e : DirEntry) : Nat :=
  b2n e.valid * 2 ^ 63 + e.phase.code * 2 ^ 60 + b2n e.busy * 2 ^ 59 + b2n e.held * 2 ^ 58 + e.line % 2 ^ 34 * 2 ^ 24
    + e.holder % 1024 * 2 ^ 14 + b2n e.coarse * 2 ^ 13

/-- DIRECTORY record of an entry of a mirrored granule (13 Table 13.3); its line is numbered over the receiver's board (DESIGN CHOICE, log 22). -/
def State.tellDir (s : State) (slice line : Nat) : State × Option Nat :=
  let off := s.lineOff slice line
  if (s.ownerOf off).mirrored then
    let e := match (s.slice slice).dirOf line with
      | some k => (s.slice slice).dirAt k
      | none => ({ line := line } : DirEntry)
    s.halRecord 5 (s.partnerOffset off / 64 + e.word0 * 2 ^ 64 + e.sharers.toNat * 2 ^ 128)
  else (s, none)

/-- Free an entry. -/
def State.freeDir (s : State) (slice k : Nat) : State := s.updSlice slice fun x => x.updDir k fun _ => {}

/-- ORPHAN_COUNT of a slice (R148). -/
def SliceSt.orphans (x : SliceSt) : Nat :=
  (x.dir.filter fun p => p.2.valid && (p.2.phase == .orphaned || p.2.phase == .stale)).length

/-! ### Snoops (R147) -/

/-- A stall to which a snoop may go: ATTACHED, or DETACHING for the recalls of R151. -/
def State.snoopable (s : State) (cause : TxnCause) (st : Nat) : Bool :=
  match (s.stall st).phase with
  | .attached => true
  | .detaching => match cause with
    | .revoke _ => true
    | .detach _ => true
    | _ => false
  | _ => false

/-- The SNOOP request to a stall's host. -/
def State.snoopReq (s : State) (st tag mod off : Nat) : BoardReq where
  opcode := 0x18
  host := (s.stall st).host
  tag := tag
  tenant := (s.ownerOf off).tenant
  epoch := (s.stall st).epoch
  len := 0
  mod := mod
  addr := (if s.servesWindow (off / 2 ^ 24) then s.pair.partnerNo else s.board) * 2 ^ 44 + s.tweakOf off
  data := []

/-- Send a SNOOP under a fresh tag. -/
def State.sendSnoop (s : State) (slice line off mod txn st : Nat) : State :=
  let tag := s.nextTag
  let p : Snoop := {
    tag := tag, stall := st, slice := slice, line := line, mod := mod, txn := txn, answered := false, present := false
    dirty := false, dead := false, retry := false, expired := false, data := 0 }
  let s1 := { s.takeTag with snoops := s.snoops ++ [p] }
  s1.sprayReq st 0 (.snoop tag) (.req (s1.snoopReq st tag mod off))

/-- A recall of a directory entry (R138, R151), which the slice's tally counts. -/
def TxnCause.recalls : TxnCause → Bool
  | .recallFor _ => true
  | .revoke _ => true
  | .detach _ => true
  | _ => false

/-- Start snoops of a line: those that may be sent are sent, and the entry is BUSY until all are answered (R142, R145). -/
def State.startTxn (s : State) (slice line mod : Nat) (targets : List Nat) (cause : TxnCause) (spared : Option Nat := none) : State :=
  let off := s.lineOff slice line
  let id := (s.slice slice).nextId
  let s1 := s.updSlice slice fun x =>
    let y := { x with
      nextId := id + 1
      txns := x.txns ++ [{
        id := id, line := line, offset := off, cause := cause, mod := mod, aborted := false, waiting := false, spared := spared }] }
    match x.dirOf line with
    | some k => y.updDir k fun e => { e with busy := true }
    | none => y
  let s2 := if cause.recalls then s1.count .slice slice 55 else s1
  (targets.eraseDups.filter fun st => s.snoopable cause st).foldl (fun a st => a.sendSnoop slice line off mod id st) s2

/-- A recall of a line that another transaction keeps BUSY waits (R145), as does one of a line in its minimum hold (R146). -/
def State.waitTxn (s : State) (slice line : Nat) (cause : TxnCause) : State :=
  s.updSlice slice fun x => { x with
    nextId := x.nextId + 1
    txns := x.txns ++ [{
      id := x.nextId, line := line, offset := s.lineOff slice line, cause := cause, mod := 1, aborted := false
      waiting := true }] }

/-- Snoops of a transaction. -/
def State.snoopsOf (s : State) (slice txn : Nat) : List Snoop := s.snoops.filter fun p => p.slice == slice && p.txn == txn

/-- Every snoop of the transaction is answered, and the partner has acknowledged what it wrote. -/
def State.txnDone (s : State) (slice : Nat) (x : Txn) : Bool :=
  !x.waiting && (s.halCovered x.hseq && (s.snoopsOf slice x.id).all fun p => p.answered)

/-- A transaction keeps its line BUSY: its snoops are out, and no SNOOP_TIMEOUT of a revoke's recall let the line go. -/
def Txn.holds (x : Txn) : Bool :=
  !x.waiting && !(x.aborted && (match x.cause with
    | .revoke _ => true
    | _ => false))

/-- Remove a transaction with its snoops; BUSY clears unless another works on the line. -/
def State.dropTxn (s : State) (slice : Nat) (x : Txn) : State :=
  { s.updSlice slice fun y =>
      let z := { y with txns := y.txns.filter fun u => u.id != x.id }
      match y.dirOf x.line with
      | some k => z.updDir k fun e => { e with busy := z.txns.any fun u => u.line == x.line && u.holds }
      | none => z with
    snoops := s.snoops.filter fun p => !(p.slice == slice && p.txn == x.id) }

/-- The answer of one stall to a transaction. -/
def answerOf (l : List Snoop) (st : Nat) : Option Snoop := l.find? fun p => p.stall == st

/-- The dirty line that a transaction's answers brought. -/
def dirtyOf (l : List Snoop) : Option Line := (l.find? fun p => p.dirty && !p.dead).map (·.data)

/-! ### Grants and outcomes -/

/-- The entry a COH_READ leaves with its requester as owner, or a shared one; the minimum hold of R146 starts. -/
def State.setDir (s : State) (slice line : Nat) (f : DirEntry → DirEntry) : State :=
  s.updSlice slice fun x => match x.dirOf line with
    | some k => x.updDir k f
    | none => x

/-- HELD after a grant, when COH_HOLD is not 0. -/
def State.holdBit (s : State) : Bool := decide (s.reg kCohHold ≠ 0)

/-- Replace an entry of the tracker. -/
def State.putTrk (s : State) (slice : Nat) (t : Trk) : State :=
  s.updSlice slice fun x => x.updTrk t.id fun _ => t

/-- A unit of a request is settled; the request completes with its last unit. -/
def State.settle (s : State) (slice : Nat) (t : Trk) : State :=
  let s1 := s.putTrk slice t
  if t.todo.isEmpty && t.stage == .snooping then
    s1.complete slice t.id fun t => { t with stage := .done, result := t.finalResult }
  else s1

/-- Revoke match entries in use. -/
def State.revokeEntries (s : State) : List (Nat × RevokeEntry) :=
  (upTo 16).filterMap fun n => if (s.revoke n).valid then some (n, s.revoke n) else none

/-- A revoke match entry covers a granule (R84). -/
def RevokeEntry.covers (r : RevokeEntry) (e : PitchEntry) : Bool :=
  match r.kind with
  | 0 => e.pitch == r.value
  | 1 => e.tenant == r.value
  | _ => true

/-- A line of the pool lies in a granule that a revoke covers. -/
def State.lineCovered (s : State) (r : RevokeEntry) (slice : Nat) (e : DirEntry) : Bool :=
  let g := s.lineOff slice e.line / 2 ^ 24
  !s.servesWindow g && r.covers (s.granule g)

/-- A line granted in a granule that a revoke covers, or to a stall that is detaching, is recalled (R151). -/
def State.recallGranted (s : State) (slice line st : Nat) : State :=
  let due := fun (r : RevokeEntry) => s.lineCovered r slice { line := line }
  let s1 := (s.revokeEntries.filter fun p => due p.2).foldl (fun a p => a.waitTxn slice line (.revoke p.1)) s
  if (s.stall st).phase = .detaching then s1.waitTxn slice line (.detach st) else s1

/-- The minimum hold of a granted line starts as the grant's response leaves its slice (R146). -/
def State.startHold (s : State) (slice id : Nat) : State :=
  match (s.slice slice).trk id with
  | none => s
  | some t =>
    let off := s.unitOff t.req 0
    let hold := s.holdBit
    match (s.slice slice).dirOf (s.lineNo off) with
    | none => s
    | some k =>
      if (t.op == .cohRead && t.status == .ok) && (s.holdersOf (s.stallBase off) ((s.slice slice).dirAt k)).contains t.stall then
        s.updSlice slice fun x => x.updDir k fun e => { e with held := hold }
      else s

/-- Grant a COH_READ (R141): RESULT holds the state granted, the entry takes `f`, mirrored granules tell the partner. -/
def State.grantLine (s : State) (slice line : Nat) (t : Trk) (state : Nat) (f : DirEntry → DirEntry) : State :=
  let s1 := s.setDir slice line f
  let s2 := s1.tellDir slice line
  (s2.1.settle slice ({ t with result := BitVec.ofNat 64 state }.withHseq s2.2)).recallGranted slice line t.stall

/-- The entry owned by a stall. It keeps its form until it is freed (R137). -/
def ownedBy (st : Nat) (e : DirEntry) : DirEntry :=
  { e with phase := .owned, holder := st, sharers := 0 }

/-- The fresh entry of a line owned by a stall. -/
def freshFor (st : Nat) (e : DirEntry) : DirEntry := ownedBy st { valid := true, line := e.line }

/-- A shared entry with one more sharer. -/
def sharedWith (st : Nat) (e : DirEntry) : DirEntry := e.add st

/-- A unit answered with a status and no data. -/
def State.failUnit (s : State) (slice u : Nat) (t : Trk) (st : Status) : State := s.settle slice (t.unitDone u st 0)

/-- The stall may be sent STALE (R149). -/
def State.staleOk (s : State) (st : Nat) : Bool := (s.stall st).caps.getLsbD 3

/-- Free the entry of a line, and tell a partner. -/
def State.freeLine (s : State) (slice line : Nat) : State :=
  match (s.slice slice).dirOf line with
  | some k => ((s.freeDir slice k).tellDir slice line).1
  | none => s

/-- The pennant holder lost the newest copy (R142): the line is orphaned, the other sharers are told unless SNOOP MOD 1 has reached them,
and COH_PROTOCOL is raised. -/
def State.lostPennant (s : State) (slice line st : Nat) (told : Bool) : State :=
  let base := s.stallBase (s.lineOff slice line)
  let others := match (s.slice slice).dirOf line with
    | some k => (s.sharersOf base ((s.slice slice).dirAt k)).filter (· ≠ st)
    | none => []
  let s1 := ((s.setDir slice line fun e => { e with phase := .orphaned, holder := st, sharers := 0 }).tellDir slice line).1
  let s2 := if told || others.isEmpty then s1 else s1.startTxn slice line 1 others .orphaning
  s2.crier slice 0x10 st (slice + line * 2 ^ 64)

/-- Grant with data from memory. A line without data answers POISON and grants nothing; `fail` then says what becomes of its
entry, whose holders have answered. -/
def State.grantMemory (s : State) (slice line u : Nat) (t : Trk) (state : Nat) (f : DirEntry → DirEntry)
    (fail : State → State) : State :=
  let r := s.unitRead t u
  if r.2.status == .ok then r.1.grantLine slice line r.2 state f else (fail r.1).settle slice r.2

/-! ### Taking up a request (R142 to R149) -/

/-- The way a new entry takes (R138): a free one, else the victim to recall, else none. -/
def State.pickWay (s : State) (slice line : Nat) : Option (Nat × Bool) :=
  let x := s.slice slice
  match (dirWays line).find? fun k => !(x.dirAt k).valid with
  | some k => some (k, true)
  | none =>
    let ok := (dirWays line).filter fun k =>
      let e := x.dirAt k
      !e.busy && (!e.held && (e.phase != .orphaned && e.phase != .stale))
    let rank := fun k => (x.dirAt k).phase.code * 2048 + (x.dirAt k).listed
    match (ok.map rank).min? with
    | none => none
    | some m =>
      match rotate 16 (x.dirPtr.get 0 (dirSet line)) fun w =>
          ok.contains (dirSet line * 16 + w) && rank (dirSet line * 16 + w) == m with
      | some w => some (dirSet line * 16 + w, false)
      | none => none

/-- DIR_SET_FULL at most once per set in each 1 ms (R138); the time of the last is held one higher, 0 standing for none. -/
def State.tellFull (s : State) (slice line : Nat) : State :=
  let set := dirSet line
  let last := (s.slice slice).dirTold.get 0 set
  if last ≠ 0 ∧ s.time.ticks + 1 < last + 1000000 then s
  else (s.updSlice slice fun x => { x with dirTold := x.dirTold.set 0 set (s.time.ticks + 1) }).crier slice 0x0F slice set

/-- COH_READ of a line with no entry: a free way and a grant of Exclusive, or a recall that the request waits for, or
RETRY_BUSY. -/
def State.cohFresh (s : State) (slice line u : Nat) (t : Trk) : State :=
  match s.pickWay slice line with
  | some (k, true) =>
    let r := s.unitRead t u
    if r.2.status == .ok then
      (r.1.updSlice slice fun x => x.updDir k fun _ => { valid := true, line := line }).grantLine slice line r.2 3
        (ownedBy t.stall)
    else r.1.settle slice r.2
  | some (k, false) =>
    let e := (s.slice slice).dirAt k
    let base := s.stallBase (s.lineOff slice e.line)
    let s1 := s.updSlice slice fun x => { x with dirPtr := x.dirPtr.set 0 (dirSet line) ((k + 1) % 16) }
    s1.startTxn slice e.line 1 (s.holdersOf base e) (.recallFor t.id)
  | none => (s.tellFull slice line).failUnit slice u t .retryBusy

/-- A request that writes a line whose entry ends with it. -/
def ReqOp.overwrites : ReqOp → Bool
  | .write => true
  | .writeMasked => true
  | .atomic => true
  | _ => false

/-- The snoops that a unit of a request needs on its line (Tables 7.4 and 7.5): their MOD and stalls, none where it needs none. In coarse
form the requester is not snooped (R137). -/
def State.cohSnoops (s : State) (u : Nat) (t : Trk) (e : DirEntry) : Option (Nat × List Nat) :=
  let r := t.stall
  let all := s.sharersOf (s.stallBase (s.unitOff t.req u)) e
  let others := all.filter (· ≠ r)
  match e.phase with
  | .shared =>
    if t.op == .cohRead && t.req.mod != 0 then some (1, others)
    else if t.op.overwrites then some (1, if e.coarse then others else all)
    else none
  | .pennant =>
    match t.op with
    | .cohRead => some (if t.req.mod = 0 then (0, [e.holder]) else (1, if e.holder = r then others else e.holder :: others))
    | .read => some (0, [e.holder])
    | .flush => some (0, [e.holder])
    | .invalidate => if e.holder = r then some (1, others) else none
    | _ => if t.op.overwrites then some (1, e.holder :: (if e.coarse then others else all)) else none
  | .owned =>
    match t.op with
    | .cohRead => if e.holder = r then none else some (t.req.mod, [e.holder])
    | .read => if e.holder = r then none else some (0, [e.holder])
    | .flush => some (0, [e.holder])
    | _ => if t.op.overwrites then some (1, [e.holder]) else none
  | _ => none

/-- A unit is carried out in memory and settled; `after` follows where it has status OK. -/
def State.cohMemory (s : State) (slice u : Nat) (t : Trk) (stale : Bool) (after : State → State) : State :=
  let w := s.unitDo t u
  let ok := w.2.status == .ok
  (if ok then after w.1 else w.1).settle slice (if stale && ok then { w.2 with stale := true } else w.2)

/-- A unit of a request on an ORPHANED line, or on a STALE one for a stall that may be sent STALE (Table 7.7). -/
def State.cohLost (s : State) (slice line u : Nat) (t : Trk) (stale : Bool) : State :=
  match t.op with
  | .write => s.cohMemory slice u t false fun x => x.freeLine slice line
  | .invalidate => s.settle slice (t.unitDone u .ok 0)
  | .cohRead =>
    if stale then
      let w := s.unitRead t u
      if w.2.status == .ok then w.1.grantLine slice line { w.2 with stale := true } 3 (freshFor t.stall) else w.1.settle slice w.2
    else s.failUnit slice u t .orphaned
  | .read => if stale then s.cohMemory slice u t true id else s.failUnit slice u t .orphaned
  | .flush => if stale then s.cohMemory slice u t true id else s.failUnit slice u t .orphaned
  | _ => if stale then s.cohMemory slice u t true fun x => x.freeLine slice line else s.failUnit slice u t .orphaned

/-- A COH_WRITEBACK of the holder frees its entry, or leaves the other sharers of a pennant (R143). -/
def State.writebackEntry (s : State) (slice line : Nat) (e : DirEntry) : State :=
  if e.phase == .owned || e.unshared then s.freeLine slice line
  else ((s.setDir slice line fun e => { e with phase := .shared, holder := 0 }).tellDir slice line).1

/-- The line is held by its stall as OWNED or PENNANT. -/
def DirEntry.heldBy (e : DirEntry) (st : Nat) : Bool := (e.phase == .owned || e.phase == .pennant) && e.holder == st

/-- A unit of a request on a held line that needs no snoop (Tables 7.4 and 7.5, R143). -/
def State.cohDirect (s : State) (slice line u : Nat) (t : Trk) (e : DirEntry) : State :=
  match t.op with
  | .cohRead =>
    if e.phase == .owned then s.grantMemory slice line u t 3 (ownedBy t.stall) fun x => x.freeLine slice line
    else s.grantMemory slice line u t 1 (sharedWith t.stall) id
  | .read => s.cohMemory slice u t false id
  | .cohWriteback =>
    if e.heldBy t.stall then
      let w := s.unitDo t u
      (w.1.writebackEntry slice line e).settle slice w.2
    else s.settle slice (t.unitDone u .ok 0)
  | .invalidate =>
    if e.phase == .owned then (if e.holder = t.stall then s.freeLine slice line else s).settle slice (t.unitDone u .ok 0)
    else
      let e' := e.drop t.stall
      (if e.phase == .shared && e'.unshared then s.freeLine slice line
        else ((s.setDir slice line fun e => e.drop t.stall).tellDir slice line).1).settle slice (t.unitDone u .ok 0)
  | _ => s.settle slice (t.unitDone u .ok 0)

/-- A directory entry is looked up (06 Table 6.1, R148): one that an error has spoilt becomes ORPHANED with HOLDER 0. -/
def State.readDir (s : State) (slice k : Nat) (t : Trk) : State :=
  let r := s.sramRead 0x05 slice k t.req.host t.req.tenant
  if r.2 then
    let s1 := (r.1.sramWrite 0x05 slice k).updSlice slice fun x => x.updDir k fun e => { e with
      phase := .orphaned, holder := 0, sharers := 0 }
    (s1.tellDir slice ((s.slice slice).dirAt k).line).1
  else r.1

/-- What a request does on a line whose entry is neither BUSY nor held back by the minimum hold (DEDUCED, log 39). -/
def State.cohTake (s : State) (slice u : Nat) (t : Trk) : State :=
  let off := s.unitOff t.req u
  let line := s.lineNo off
  match (s.slice slice).dirOf line with
  | none =>
    match t.op with
    | .cohRead => s.cohFresh slice line u t
    | .cohWriteback => s.settle slice (t.unitDone u .ok 0)
    | _ => s.cohMemory slice u t false id
  | some k =>
    let s1 := s.readDir slice k t
    let e := (s1.slice slice).dirAt k
    match e.phase with
    | .orphaned => s1.cohLost slice line u t false
    | .stale => s1.cohLost slice line u t (s1.staleOk t.stall)
    | _ =>
      match s1.cohSnoops u t e with
      | some (mod, targets) =>
        let kept := (s1.holdersOf (s1.stallBase off) e).contains t.stall && !targets.contains t.stall
        s1.startTxn slice line mod targets (.request t.id u) (if kept then some t.stall else none)
      | none => s1.cohDirect slice line u t e

/-- The request needs a snoop that lowers the state of the line's holders, which the minimum hold keeps back; an INVALIDATE from the
holder is not (R146). -/
def State.lowers (s : State) (slice u : Nat) (t : Trk) : Bool :=
  match (s.slice slice).dirOf (s.lineNo (s.unitOff t.req u)) with
  | none => false
  | some k =>
    let e := (s.slice slice).dirAt k
    match s.cohSnoops u t e with
    | none => false
    | some (mod, targets) => t.op != .invalidate && (decide (mod = 1 ∨ e.phase = .owned) && !targets.isEmpty)

/-- A request on the line is being worked on: its snoops are out, or it waits for the recall of a way (R145). -/
def State.lineTaken (s : State) (slice line : Nat) : Bool :=
  let x := s.slice slice
  x.txns.any fun y => (y.line == line && y.holds) || (match y.cause with
    | .recallFor id => (x.trk id).any fun t => t.stage == .snooping && s.lineNo (s.unitOff t.req 0) == line
    | _ => false)

/-- A unit of a request may be taken up: no other request is at work on its line, and no minimum hold keeps it back; a write-back is
applied on arrival, whatever the entry's state (R143, R145, R146). -/
def State.ready (s : State) (slice u : Nat) (t : Trk) : Bool :=
  let line := s.lineNo (s.unitOff t.req u)
  !s.lineTaken slice line && (match (s.slice slice).dirOf line with
    | none => true
    | some k =>
      let e := (s.slice slice).dirAt k
      !e.busy && !(e.held && s.lowers slice u t))

/-- A transaction works for the unit, or for the request's way. -/
def SliceSt.workedOn (x : SliceSt) (id u : Nat) : Bool :=
  x.txns.any fun y => match y.cause with
    | .request i v => i == id && v == u
    | .recallFor i => i == id
    | _ => false

/-- A COH_WRITEBACK of the holder that meets a BUSY entry (R143): its line is written and the entry freed, or left to the other sharers; a
later answer of its stall counts for its PRESENT bit only. -/
def State.lateWriteback (s : State) (slice : Nat) (t : Trk) : State :=
  let line := s.lineNo (s.unitOff t.req 0)
  match (s.slice slice).dirOf line with
  | none => s
  | some k =>
    let e := (s.slice slice).dirAt k
    if e.busy && e.heldBy t.stall then
      let w := s.unitDo t 0
      ({ w.1.writebackEntry slice line e with snoops := w.1.snoops.map fun (p : Snoop) =>
          if p.slice == slice && (p.line == line && p.stall == t.stall) then { p with dead := true } else p }).settle slice w.2
    else s

/-! ### The end of a transaction -/

/-- Stale snoops of a slice: answers PRESENT 0 (R141). -/
def State.countStale (s : State) (l : List Snoop) : State :=
  (l.filter fun p => !p.dead).foldl (fun a p => a.count .slice p.slice 56) s

/-- The pennant holder was snooped and did not bring the newest copy (R142). -/
def DirEntry.lost (e : DirEntry) (l : List Snoop) (spared : Option Nat) : Bool :=
  e.phase == .pennant && (match answerOf l e.holder with
    | some p => !(p.present && p.dirty)
    | none => spared != some e.holder)

/-- A snooped line's state after MOD 0 with no requester to add (R418, R144). -/
def State.lowerShared (s : State) (slice line : Nat) (e : DirEntry) (l : List Snoop) : State :=
  if e.phase == .owned then
    match answerOf l e.holder with
    | some p =>
      if p.dirty then ((s.setDir slice line fun e => { e with phase := .pennant, sharers := 0 }).tellDir slice line).1
      else if p.present then
        ((s.setDir slice line fun e => { e with phase := .shared, holder := 0, sharers := 0 }.add e.holder).tellDir slice line).1
      else s.freeLine slice line
    | none => s.freeLine slice line
  else s

/-- A line's state after SNOOP MOD 1 to its holders: freed, or left to the one that was not snooped (R418). -/
def State.lowerFree (s : State) (slice line : Nat) (e : DirEntry) (spared : Option Nat) : State :=
  match spared with
  | none => s.freeLine slice line
  | some r =>
    let one : BitVec 64 := if e.coarse then 1#64 <<< (r % 1024 / 16) else packPointers [r]
    ((s.setDir slice line fun e =>
      if e.heldBy r then { e with sharers := 0 } else { e with phase := .shared, holder := 0, sharers := one }).tellDir slice line).1

/-- Write a transaction's dirty line to memory, if it brought one. -/
def State.takeDirty (s : State) (off : Nat) (d : Option Line) : State × Option Nat :=
  match d with
  | some l => s.writeBack off l 2
  | none => (s, none)

/-- A line that a fence or an error orphaned (R148, R151): the entry stays, and a request meets it as R149 sets out; a revoke frees it, an
ORPHANED line poisoned. -/
def State.endOrphaned (s : State) (slice : Nat) (x : Txn) (e : DirEntry) : State :=
  match x.cause with
  | .revoke m =>
    let s1 := s.freeLine slice x.line
    let s2 := if e.phase == .orphaned then (s1.storeLine x.offset poisonLine 2).1 else s1
    s2.updRevoke m fun r => { r with drained := r.drained + 1 }
  | _ => s

/-- A recall is over: the entry is freed, and a revoke counts it as drained; its completion is an operation of level 2 (12 R260). -/
def State.recallOver (s : State) (slice : Nat) (x : Txn) : State :=
  let s1 := ((s.dropTxn slice x).freeLine slice x.line).pipePush slice 2 0 x.id
  match x.cause with
  | .revoke m => s1.updRevoke m fun r => { r with drained := r.drained + 1 }
  | _ => s1

/-- The end of a recall: the dirty line goes to memory, and the entry is freed once the write is performed, the partner's
acknowledgement included (R138, R151, R18). A lost pennant leaves the line ORPHANED (R142). -/
def State.endRecall (s : State) (slice : Nat) (x : Txn) (e : DirEntry) (l : List Snoop) : State :=
  if x.hseq.isSome then s.recallOver slice x
  else if e.lost l none then
    ((s.dropTxn slice x).lostPennant slice x.line e.holder true).endOrphaned slice x { e with phase := .orphaned }
  else
    let w := s.takeDirty x.offset (dirtyOf l)
    if w.1.halCovered w.2 then w.1.recallOver slice x
    else w.1.updSlice slice fun y => { y with txns := y.txns.map fun (v : Txn) => if v.id == x.id then { v with hseq := w.2 } else v }

/-- A COH_READ goes on with its snoops answered (Table 7.4). -/
def State.cohReadEnd (s : State) (slice u : Nat) (t : Trk) (e : DirEntry) (l : List Snoop) : State :=
  let line := e.line
  let r := t.stall
  let mod0 := t.req.mod = 0
  let free := fun (x : State) => x.freeLine slice line
  let lower := fun (x : State) => x.lowerShared slice line e l
  match e.phase, dirtyOf l with
  | .pennant, some x =>
    if mod0 then s.grantLine slice line (t.unitDone u .ok x) 1 fun e => if e.holder = r then e else e.add r
    else s.grantLine slice line (t.unitDone u .ok x) 4 (ownedBy r)
  | .pennant, none => s.grantLine slice line (t.unitDone u .ok 0) 12 (ownedBy r)
  | .owned, some x =>
    if mod0 then s.grantLine slice line (t.unitDone u .ok x) 1 fun e => { e with phase := .pennant, sharers := 0 }.add r
    else s.grantLine slice line (t.unitDone u .ok x) 4 (ownedBy r)
  | .owned, none =>
    if mod0 && (answerOf l e.holder).any (·.present) then
      s.grantMemory slice line u t 1 (fun e => ({ e with phase := .shared, holder := 0, sharers := 0 }.add e.holder).add r) lower
    else s.grantMemory slice line u t 3 (ownedBy r) free
  | _, _ =>
    if mod0 then s.grantMemory slice line u t 1 (sharedWith r) id else s.grantMemory slice line u t 3 (ownedBy r) free

/-- A request goes on with its snoops answered: `e` is the line's entry, `l` the answers (Tables 7.4 and 7.5). -/
def State.cohEnd (s : State) (slice u : Nat) (t : Trk) (x : Txn) (e : DirEntry) (l : List Snoop) : State :=
  let off := s.unitOff t.req u
  let line := e.line
  let d := dirtyOf l
  if e.lost l x.spared then
    (s.lostPennant slice line e.holder (x.mod == 1)).cohLost slice line u t false
  else match t.op with
  | .cohRead => s.cohReadEnd slice u t e l
  | .read =>
    match d with
    | some v => (s.lowerShared slice line e l).settle slice (t.unitDone u .ok v)
    | none => (s.lowerShared slice line e l).cohMemory slice u t false id
  | .flush =>
    let w := s.takeDirty off d
    (w.1.lowerShared slice line e l).settle slice ((t.unitDone u .ok 0).withHseq w.2)
  | .invalidate => (s.freeLine slice line).settle slice (t.unitDone u .ok 0)
  | .write =>
    let w := s.unitDo t u
    let w1 := if w.2.status == .ok then (w.1, none) else w.1.takeDirty off d
    (w1.1.freeLine slice line).settle slice (w.2.withHseq (laterHseq w1.2 w.2.hseq))
  | _ =>
    let w0 := s.takeDirty off d
    let w := w0.1.unitDo t u
    (w.1.freeLine slice line).settle slice (w.2.withHseq (laterHseq w0.2 w.2.hseq))

/-- A request goes on whose line a COH_WRITEBACK has meanwhile freed (R143): a former holder that answered PRESENT 1 to a COH_READ MOD 0
shares the line; else the request meets a line with no entry. -/
def State.cohGone (s : State) (slice u : Nat) (t : Trk) (line : Nat) (l : List Snoop) : State :=
  match (if t.op == .cohRead && t.req.mod == 0 then l.find? fun p => p.dead && p.present else none), s.pickWay slice line with
  | some p, some (k, true) =>
    let r := s.unitRead t u
    if r.2.status == .ok then
      (r.1.updSlice slice fun x => x.updDir k fun _ => { valid := true, line := line }).grantLine slice line r.2 1
        fun e => (e.add p.stall).add t.stall
    else r.1.settle slice r.2
  | _, _ => s.cohTake slice u t

/-- An aborted request's snoops are answered (R418). -/
def State.endAborted (s : State) (slice : Nat) (x : Txn) (e : DirEntry) (l : List Snoop) : State :=
  if e.lost l x.spared then s.lostPennant slice x.line e.holder (x.mod == 1)
  else
    let w := s.takeDirty x.offset (dirtyOf l)
    if x.mod = 0 then w.1.lowerShared slice x.line e l else w.1.lowerFree slice x.line e x.spared

/-- The request that a transaction works for, while it still waits for it. -/
def State.txnRequest (s : State) (slice : Nat) (x : Txn) : Option (Trk × Nat) :=
  match x.cause with
  | .request id u => ((s.slice slice).trk id).bind fun t => if x.aborted || t.stage != .snooping then none else some (t, u)
  | _ => none

/-- Carry out the end of a transaction whose snoops are all answered. -/
def State.endTxn (s : State) (slice : Nat) (x : Txn) : State :=
  let l := s.snoopsOf slice x.id
  match (s.slice slice).dirOf x.line with
  | none =>
    match s.txnRequest slice x, x.cause with
    | some (t, u), _ => (s.dropTxn slice x).cohGone slice u t x.line l
    | none, .request _ _ => s.dropTxn slice x
    | none, .orphaning => s.dropTxn slice x
    | none, _ => s.recallOver slice x
  | some k =>
    let e := (s.slice slice).dirAt k
    if e.phase == .orphaned || e.phase == .stale then (s.dropTxn slice x).endOrphaned slice x e
    else match s.txnRequest slice x, x.cause with
    | some (t, u), _ => (s.dropTxn slice x).cohEnd slice u t x e l
    | none, .request _ _ => (s.dropTxn slice x).endAborted slice x e l
    | none, .orphaning => s.dropTxn slice x
    | none, _ => s.endRecall slice x e l

/-- Start a recall that waited for its line (R138, R151). One whose entry is gone, or names the leaving stall no longer, is
over. -/
def State.startWaiting (s : State) (slice : Nat) (x : Txn) : State :=
  let s1 := s.dropTxn slice x
  match (s.slice slice).dirOf x.line with
  | none => match x.cause with
    | .revoke m => s1.updRevoke m fun r => { r with drained := r.drained + 1 }
    | _ => s1
  | some k =>
    let e := (s.slice slice).dirAt k
    let names := s.holdersOf (s.stallBase x.offset) e
    let gone := match x.cause with
      | .detach st => !names.contains st
      | _ => false
    if e.phase == .orphaned || e.phase == .stale then s1.endOrphaned slice x e
    else if gone then s1
    else s1.startTxn slice x.line x.mod names x.cause

/-- The entry of a line is in its minimum hold (R146). -/
def SliceSt.heldLine (x : SliceSt) (line : Nat) : Bool := match x.dirOf line with
  | some k => (x.dirAt k).held
  | none => false

/-- The first waiting recall whose line is neither BUSY nor in its minimum hold. -/
def State.nextWaiting (s : State) (slice : Nat) : Option Txn :=
  let x := s.slice slice
  x.txns.find? fun y => y.waiting && (!x.heldLine y.line && !(x.txns.any fun u => u.line == y.line && u.holds))

/-- The next unit of a waiting request that can be taken up, in arrival order (R145). -/
def State.nextReady (s : State) (slice : Nat) : Option (Trk × Nat) :=
  let x := s.slice slice
  x.tracker.findSome? fun t =>
    if t.stage == .snooping then
      (t.todo.find? fun u => !x.workedOn t.id u && s.ready slice u t).map fun u => (t, u)
    else none

/-- Let a slice's coherent work go on until nothing more can be done: ended transactions, then waiting recalls, then waiting
requests; the priority pointer moves one place past the stall of each request taken up (R146). -/
def State.cohRun (slice : Nat) : Nat → State → State
  | 0, s => s
  | n + 1, s =>
    match (s.slice slice).txns.find? fun x => s.txnDone slice x with
    | some x => State.cohRun slice n (s.endTxn slice x)
    | none => match s.nextWaiting slice with
    | some x => State.cohRun slice n (s.startWaiting slice x)
    | none =>
      match s.nextReady slice with
      | some (t, u) =>
        State.cohRun slice n ((s.updSlice slice fun x => { x with cohPtr := (t.stall + 1) % 1024 }).cohTake slice u t)
      | none => s

/-- Steps that a slice's coherent work can take. -/
def SliceSt.cohFuel (x : SliceSt) : Nat := 4 * (x.txns.length + (x.tracker.map fun t => 2 * t.todo.length + 1).sum) + 16

/-- Run a slice's coherent work. -/
def State.cohGo (s : State) (slice : Nat) : State := State.cohRun slice (s.slice slice).cohFuel s

/-- Run every slice's coherent work. -/
def State.cohGoAll (s : State) : State := (upTo 8).foldl (fun a n => a.cohGo n) s

/-! ### Recalls and fences -/

/-- Recall every entry that passes a test; ORPHANED and STALE entries go to `gone`. -/
def State.recallWhere (s : State) (slice : Nat) (p : DirEntry → Bool) (cause : TxnCause)
    (gone : State → DirEntry → State) : State :=
  ((s.slice slice).dir.filter fun q => q.2.valid && p q.2).foldl (fun a q =>
    let e := q.2
    if e.phase == .orphaned || e.phase == .stale then gone a e
    else if (a.slice slice).txns.any fun x => x.line == e.line && (x.waiting || x.holds) then a.waitTxn slice e.line cause
    else if e.held then a.waitTxn slice e.line cause
    else a.startTxn slice e.line 1 (a.holdersOf (a.stallBase (a.lineOff slice e.line)) e) cause) s

/-- Snoops outstanding to a stall count as answered PRESENT 0 (R148). -/
def State.absentStall (s : State) (st : Nat) : State :=
  let out := s.snoops.filter fun p => p.stall == st && !p.answered
  { s with snoops := s.snoops.map fun (p : Snoop) =>
      if p.stall == st && !p.answered then { p with answered := true, present := false, dirty := false } else p }.countStale out

/-- One slice's part of a fence (R148): the stall's OWNED and PENNANT lines become ORPHANED, or STALE by ORPHAN_POLICY; other
sharers of its pennants receive SNOOP MOD 1; pointers naming it are cleared. Each changed entry of a mirrored line is told (13 R274). -/
def State.orphanSlice (s : State) (slice st : Nat) : State :=
  let phase : DirPhase := if s.reg kOrphanPolicy = 1 then .stale else .orphaned
  ((s.slice slice).dir.filter fun q => q.2.valid).foldl (fun a q =>
    let e := q.2
    let base := a.stallBase (a.lineOff slice e.line)
    if e.heldBy st then
      let others := if e.phase == .pennant then (a.sharersOf base e).filter (· ≠ st) else []
      let a1 := ((a.updSlice slice fun x => x.updDir q.1 fun e => { e.drop st with phase := phase }).tellDir slice e.line).1
      if others.isEmpty then a1 else a1.startTxn slice e.line 1 others .orphaning
    else if (base + 1024 ≤ st ∨ st < base) ∨ e.drop st = e then a
    else ((a.updSlice slice fun x => x.updDir q.1 fun e => e.drop st).tellDir slice e.line).1) s

end Sys2Proof.Machine
end

