-- ==== Sys2Proof/Machine/PitchOps.lean ====
section
/-! DEFINITION. Pitch checks (04 R78 to R80), revokes (R84 to R86), the clear of a granule (R77, 05 R102), and fences (R73). -/

namespace Sys2Proof.Machine

/-! ### Rights (R78, R79) -/

/-- The rights that the entry of a host in an access list gives: RD, WR, CO. -/
def rightsIn (acl : Tbl AclEntry) (list host : Nat) : Option (Bool × Bool × Bool) :=
  (upTo 64).findSome? fun i =>
    let e := acl.get {} (64 * list + i)
    if e.valid && e.host == host then some (e.rd, e.wr, e.co) else none

/-- The rights satisfy an opcode (Table 4.5). -/
def rightFor (op : ReqOp) (mod : Nat) (r : Bool × Bool × Bool) : Bool :=
  let (rd, wr, co) := r
  match op with
  | .read => rd
  | .cohRead => if mod = 0 then rd else rd && wr
  | .write => wr
  | .writeMasked => wr
  | .cohWriteback => wr
  | .atomic => rd && wr
  | .invalidate => rd && wr
  | .flush => rd || wr
  | .reduceWrite => co
  | .hint => rd || (wr || co)
  | _ => false

/-- Some revoke in progress covers a granule. -/
def State.revoked (s : State) (e : PitchEntry) : Bool := s.revokeEntries.any fun p => p.2.covers e

/-- The key slot of a granule serves an access (R313). -/
def keyServes (k : KeySlot) (op : ReqOp) : Bool :=
  match op with
  | .read => k.reads
  | .cohRead => k.reads
  | .write => k.takes
  | .writeMasked => k.modifies
  | .atomic => k.modifies
  | .reduceWrite => k.modifies
  | .cohWriteback => k.modifies
  | _ => true

/-- The checks of R80 on one granule, after its board number: `acl` is the access lists gone by. -/
def State.checkEntry (s : State) (e : PitchEntry) (acl : Tbl AclEntry) (op : ReqOp) (mod tenant host : Nat) : Status :=
  if e.phase = .free then .accessDenied
  else if e.tenant ≠ tenant then .accessDenied
  else if !((rightsIn acl e.acl host).any (rightFor op mod)) then .accessDenied
  else if e.phase != .granted || s.revoked e then .revoked
  else if !keyServes (s.key e.slot) op then .keyRetired
  else .ok

/-- R80 for a request to this board's number. -/
def State.pitchCheck (s : State) (op : ReqOp) (mod tenant host off : Nat) : Status :=
  let g := off / 2 ^ 24
  if s.reach ≤ g then .accessDenied
  else s.checkEntry (s.granule g) s.pitch.acl op mod tenant host

/-- R80 for a request to the partner's number, against the image (13 R282): a granule that was not mirrored is refused. -/
def State.imageCheck (s : State) (op : ReqOp) (mod tenant host off : Nat) : Status :=
  let g := off / 2 ^ 24
  if !s.inMirrorRange g then .accessDenied
  else s.checkEntry (s.pair.image.pitch.get {} g) s.pair.image.acl op mod tenant host

/-! ### Descriptors that stop (08 R179, R180) -/

/-- A member stops with a status and a cause at the row it has reached; one that has ended stays as it is (08 R179). -/
def Member.stop (m : Member) (st : Status) (c : Cause) : Member :=
  if m.ended then m else { m with ended := true, atSync := none, work := none, status := st, cause := c, lastRow := m.row }

/-- Members of a running launch that pass a test stop; the first of them to fail is remembered (Table 8.9 LAST_DESC). -/
def Running.stopWhere (r : Running) (p : Member → Bool) (st : Status) (c : Cause) : Running :=
  { r with
    first := if r.first.isSome || st == .ok then r.first
      else (r.members.find? fun m => p m && !m.ended).map fun m => (m.row, c)
    members := r.members.map fun m => if p m then m.stop st c else m }

/-- Every member of a running launch stops. -/
def Barrow.stopAll (b : Barrow) (st : Status) (c : Cause) : Barrow :=
  { b with running := b.running.map fun r => r.stopWhere (fun _ => true) st c }

/-- Change every listed barrow. -/
def State.mapBarrows (s : State) (f : Nat → Barrow → Barrow) : State :=
  (s.barrows.map Prod.fst).foldl (fun a k => a.updBarrow k (f k)) s

/-- A member that works on a descriptor with an operand on a granule that passes a test. -/
def Member.worksOn (m : Member) (p : Nat → Bool) : Bool := !m.ended && m.work.any fun w => w.grans.any p

/-- Members at work on granules that pass a test: between two pages, where they stop (08 Table 8.10). -/
def State.workers (s : State) (p : Nat → Bool) : Nat :=
  (s.barrows.map fun b => match b.2.running with
    | some r => (r.members.filter (·.worksOn p)).length
    | none => 0).sum

/-- Those members stop with a status and a cause. -/
def State.stopWorkers (s : State) (p : Nat → Bool) (st : Status) (c : Cause) : State :=
  s.mapBarrows fun _ b => { b with running := b.running.map fun r => r.stopWhere (·.worksOn p) st c }

/-- Granules of a byte range. -/
def granulesOf (off n : Nat) : List Nat :=
  if n = 0 then [] else (upTo ((off + n - 1) / 2 ^ 24 - off / 2 ^ 24 + 1)).map (off / 2 ^ 24 + ·)

/-! ### Bunting operations that stop (11 R240) -/

/-- Bytes of a tree's source. -/
def Tree.bytes (t : Tree) : Nat := 64 * t.lines

/-- Pages of the source: first byte, lines, and number on the board, for those a slice holds. -/
def State.buntPages (s : State) (t : Tree) (slice : Nat) : List (Nat × Nat) :=
  let lo := bits t.src 0 44
  let hi := lo + t.bytes
  ((upTo (hi / 4096 + 1)).drop (lo / 4096)).filterMap fun p =>
    let a := max lo (p * 4096)
    let b := min hi (p * 4096 + 4096)
    if a < b ∧ (s.sliceOf a).1 = slice then some (a, (b - a) / 64) else none

/-- The main pass of every slice is over. -/
def State.mainDone (s : State) (t : Tree) (o : BuntOp) : Bool :=
  (upTo 8).all fun n => decide ((s.buntPages t n).length ≤ o.pages.get 0 n)

/-- A slice has a bunting page: one of a running operation that it has still to read, or to read again for a member, or one that its
replication point holds (18 R371). -/
def State.buntingIn (s : State) (n : Nat) : Bool :=
  (s.trees.any fun t => t.2.op.any fun o =>
    (o.stop.isNone && decide (o.pages.get 0 n < (s.buntPages t.2 n).length)) || o.mems.any fun m => m.missed.any fun p => p.1 == n)
  || s.pushes.any fun p => p.slice == n && (p.page.isSome && !p.sent)

/-- The operation stops with a status, unless it has been stopped (R240). -/
def BuntOp.stopped (o : BuntOp) (st : Status) : BuntOp := { o with stop := if o.stop.isSome then o.stop else some st }

/-- Pages of the source are still to be read: in a main pass, or for a member in catch-up (R238). -/
def State.sending (s : State) (t : Tree) (o : BuntOp) : Bool :=
  !s.mainDone t o || o.mems.any fun m => m.fate == .active && !m.missed.isEmpty

/-- Change every listed tree. -/
def State.mapTrees (s : State) (f : Tree → Tree) : State := (s.trees.map Prod.fst).foldl (fun a k => a.updTree k f) s

/-- Operations that still read a source on granules that pass a test stop at their slices' next page boundary (R240). -/
def State.stopTrees (s : State) (p : Nat → Bool) (st : Status) : State :=
  s.mapTrees fun t => match t.op with
    | some o => if s.sending t o && (granulesOf (bits t.src 0 44) t.bytes).any p then { t with op := some (o.stopped st) } else t
    | none => t

/-! ### What a revoke stops -/

/-- The descriptors that a revoke marks stop at their page boundary, and count as drained (08 R179, R180); so do the bunting operations
whose source it marks (11 R240). -/
def State.markDescs (s : State) (r : RevokeEntry) (entry : Nat) : State :=
  let p := fun (g : Nat) => r.covers (s.granule g)
  ((s.stopWorkers p .revoked .revoked).stopTrees p .revoked).updRevoke entry fun x => { x with drained := x.drained + s.workers p }

/-! ### Revokes (R84 to R86) -/

/-- Granules listed in the pitch table that pass a test. -/
def State.granulesWhere (s : State) (p : Nat → PitchEntry → Bool) : List Nat :=
  (s.pitch.table.filter fun q => p q.1 q.2).map Prod.fst

/-- Granules a revoke covers that are GRANTED or REVOKING. -/
def State.coveredBy (s : State) (r : RevokeEntry) : List Nat :=
  s.granulesWhere fun _ e => r.covers e && (e.phase == .granted || e.phase == .revoking)

/-- A tracker entry, not yet freed, is on a granule that a revoke covers. -/
def State.trkCovered (s : State) (r : RevokeEntry) (t : Trk) : Bool :=
  t.stage != .inLink && (t.op != .doorbell
    && (decide (t.stall < 1024) && r.covers (s.granule (s.localOff t.req / 2 ^ 24))))

/-- Mark the entries of a slice that a revoke covers, whatever other revokes have marked them (R85). -/
def State.markSlice (s : State) (r : RevokeEntry) (entry slice : Nat) : State :=
  s.updSlice slice fun x => { x with
    tracker := x.tracker.map fun t => if s.trkCovered r t then { t with marks := entry :: t.marks } else t }

/-- Recall the lines of a slice that a revoke covers: orphaned ones are freed with their lines poisoned, stale ones freed
(07 R151) (DEDUCED, log 39). -/
def State.recallRevoked (s : State) (r : RevokeEntry) (entry slice : Nat) : State :=
  s.recallWhere slice (fun e => s.lineCovered r slice e) (.revoke entry) fun a e =>
    let a1 := a.freeLine slice e.line
    if e.phase == .orphaned then (a1.poisonAt (a1.lineOff slice e.line) 2).1 else a1

/-- Rewrite a granule's entry, telling a partner (13 R274); answers the record's HSEQ. -/
def State.setGranule (s : State) (g : Nat) (f : PitchEntry → PitchEntry) : State × Option Nat :=
  ((s.updGranule g f).sramWrite 0x04 8 g).tellPitch g

/-- Rewrite entries in ascending order; answers the last HSEQ. -/
def State.setGranules (s : State) (gs : List Nat) (f : PitchEntry → PitchEntry) : State × Option Nat :=
  gs.foldl (fun a g =>
    let b := a.1.setGranule g f
    (b.1, laterHseq a.2 b.2)) (s, none)

/-- The revoke cycle (R84): the match entry becomes valid, PITCH_GENERATION advances, covered requests and descriptors are marked, covered
lines recalled and covered granules set REVOKING. Answers whether a match entry was free (DEDUCED, log 46). -/
def State.startRevoke (s : State) (kind value : Nat) (cause : RevokeFor) : State × Bool :=
  match (upTo 16).find? fun n => !(s.revoke n).valid with
  | none => (s, false)
  | some n =>
    let gen := (s.reg kPitchGeneration + 1) % 2 ^ 32
    let r : RevokeEntry := {
      valid := true, kind := kind, value := value, drained := 0, aborted := 0, generation := gen, expired := false
      cause := cause, hseq := none }
    let s1 := (s.setReg kPitchGeneration gen).updRevoke n fun _ => r
    let s2 := ((upTo 8).foldl (fun a sl => (a.markSlice r n sl).recallRevoked r n sl) s1).markDescs r n
    let w := s2.setGranules (s2.coveredBy r) fun e => { e with phase := .revoking }
    ((w.1.updRevoke n fun x => { x with hseq := w.2 }).cohGoAll, true)

/-- A marked entry, a recall or a record of the revoke remains (R86). -/
def State.revokePending (s : State) (n : Nat) : Bool :=
  ((upTo 8).any fun sl =>
    ((s.slice sl).tracker.any fun t => t.marks.contains n) || ((s.slice sl).txns.any fun x => x.cause == .revoke n))
  || !s.halCovered (s.revoke n).hseq

/-- Candidate and frame hints of a slice's regions whose granules pass a test are removed (R97). -/
def State.dropHints (s : State) (slice : Nat) (p : Nat → Bool) : State :=
  let hit := fun (r : Nat) => (s.regionGranules slice r).any p
  s.updSlice slice fun x => { x with
    cands := x.cands.filter fun c => !(c.hinted && hit c.region)
    frames := (x.frames.map Prod.fst).foldl (fun t f =>
      t.upd {} f fun e => if hit e.region then { e with ownHint := false, hint := 0 } else e) x.frames }

/-- REVOKE_DONE's unit: the match value, 0 for the whole board. -/
def RevokeEntry.unit (r : RevokeEntry) : Nat := if r.kind = 2 then 0 else r.value

/-- BODY of a REVOKE ledger entry (15 Table 15.13). -/
def RevokeEntry.body (r : RevokeEntry) : Nat :=
  r.kind % 256 + r.value % 2 ^ 32 * 2 ^ 32 + r.drained % 2 ^ 32 * 2 ^ 64 + r.aborted % 2 ^ 32 * 2 ^ 96
    + r.generation % 2 ^ 32 * 2 ^ 128

/-- The revoke completes (R86): its entries become HELD, the match entry frees, RESULT reads 0, and the event and the ledger
entry are made. -/
def State.finishRevoke (s : State) (n : Nat) : State :=
  let r := s.revoke n
  let gs := s.granulesWhere fun _ e => r.covers e && e.phase == .revoking
  let s1 := (s.setGranules gs fun e => { e with phase := .held }).1
  let s2 := (upTo 8).foldl (fun a sl => (a.dropHints sl fun g => gs.contains g).repin sl) s1
  let s3 := (s2.updRevoke n fun _ => {}).setReg kRevokeResult 0
  let s4 := s3.crier 8 0x09 r.unit (r.kind % 4 + r.drained % 2 ^ 32 * 2 ^ 32 + r.aborted % 2 ^ 32 * 2 ^ 64)
  s4.ledger 0x03 0 Actor.board (if r.kind = 1 then r.value else 0) r.body

/-- A request that a revoke's deadline does not abort: a write whose memory write is issued, and any other request but a read that
has been performed (R85). -/
def State.issuedAtDeadline (s : State) (t : Trk) : Bool :=
  if t.op.isRead then false
  else if t.op.writeClass then t.stage != .snooping
  else t.stage != .snooping && (t.stage != .queued && s.waitsOver t)

/-- Abort what a revoke still waits for at its deadline (R85): a read answers POISON, any other request REVOKED; one that has been
performed counts as drained and completes; unrecalled lines are freed and written poisoned (07 R151). -/
def State.expireRevoke (s : State) (n : Nat) : State :=
  let unmark := fun (a : State) (sl id : Nat) => a.updSlice sl fun x => x.updTrk id fun t => { t with marks := t.marks.filter (· ≠ n) }
  let one := fun (a : State) (sl : Nat) =>
    let b := ((a.slice sl).tracker.filter fun t => t.marks.contains n).foldl (fun c t =>
      if c.issuedAtDeadline t then (unmark c sl t.id).updRevoke n fun r => { r with drained := r.drained + 1 }
      else (unmark (c.abort sl t.id (t.op.abortStatus .revoked)) sl t.id).updRevoke n fun r => { r with aborted := r.aborted + 1 }) a
    ((b.slice sl).txns.filter fun x => x.cause == .revoke n).foldl (fun c x =>
      (((c.dropTxn sl x).freeLine sl x.line).poisonAt x.offset 2).1.updRevoke n fun r => { r with aborted := r.aborted + 1 }) b
  (((upTo 8).foldl one s).updRevoke n fun r => { r with expired := true }).cohGoAll

/-! ### Clearing a granule (R77, 05 R102, 14 R296) -/

/-- A memory unit's line lies in a granule. -/
def State.unitIn (s : State) (g unit a : Nat) : Bool :=
  if unit < 32 then s.offsetOf unit a / 2 ^ 24 == g
  else
    let sl := unit - 32
    let f := (s.slice sl).frames.get {} (a / 32768)
    f.phase != .free && s.lineOff sl (f.region * 32768 + a % 32768) / 2 ^ 24 == g

/-- Free the frames of a granule without write-back. -/
def State.freeFrames (s : State) (g : Nat) : State :=
  (upTo 8).foldl (fun a sl => a.updSlice sl fun x => { x with
    frames := x.frames.filter fun p => !(p.2.phase != .free && s.regionGranules sl p.2.region == [g]) }) s

/-- Every line of a granule takes the cleared form, in either tier (R102): unlisted lines read cleared, and moved lines that
nothing has written since a fold no longer read poisoned. -/
def State.clearGranule (s : State) (g : Nat) : State :=
  let s1 := (upTo 40).foldl (fun a u => a.updChan u fun c => c.wipe fun l => s.unitIn g u l) s
  let s2 := { s1 with repair := { s1.repair with
    busyAtFold := s1.repair.busyAtFold.filter (· ≠ g)
    moved := s1.repair.moved.filter fun p => p.1 / 2 ^ 18 != g } }
  s2.freeFrames g

/-- A mirrored granule's clear is forwarded, 64 lines to a packet (13 R273). -/
def State.forwardClear (s : State) (g : Nat) : State :=
  if s.forwards g then
    (upTo 4096).foldl (fun a i => a.halPush 1 (a.partnerOffset (g * 2 ^ 24 + i * 4096)) (a.granule g).slot false true
      (List.replicate 64 0)) s
  else s

/-- Clear a granule and return it to FREE: one access of level 6 in each slice (12 Table 12.4, DESIGN CHOICE, log 76); answers the HSEQ
of the entry's record. -/
def State.clearAndFree (s : State) (g : Nat) : State × Option Nat :=
  let s1 := s.servingSlices.foldl (fun a n => a.pipePush n 6 g 0) s
  ((s1.forwardClear g).clearGranule g).setGranule g fun _ => {}

/-- Clear and free granules in ascending order; answers the last HSEQ. -/
def State.clearAll (s : State) (gs : List Nat) : State × Option Nat :=
  gs.foldl (fun a g =>
    let b := a.1.clearAndFree g
    (b.1, laterHseq a.2 b.2)) (s, none)

/-! ### Fences (R73) -/

/-- The FENCED answer of a packet held in a reorder stage. -/
def State.answerHeld (s : State) (st : Nat) : List (ReqOp × Req) → State
  | [] => s
  | (o, r) :: l => State.answerHeld (s.answer r.link r.tc (hostResp o.code r .fenced (s.stallLoad st))) st l

/-- Pages in a slice's replication point (R238): those with a copy that has not left it. -/
def State.pagesHeld (s : State) (slice : Nat) : Nat :=
  ((s.pushes.filter fun p => p.slice == slice && (p.page.isSome && !p.sent)).map fun p => (p.tree, p.page)).eraseDups.length

/-- Copies of a tree's pages for a stall that have not left the replication points. -/
def State.copiesHeld (s : State) (tree st : Nat) : Nat :=
  (s.pushes.filter fun p => p.tree == tree && (p.stall == st && (p.page.isSome && !p.sent))).length

/-- Prune a stall from the running bunting operations (11 R239): a member not yet delivered counts as fenced, the copies held
for it are dropped and counted. -/
def State.pruneStall (s : State) (st : Nat) : State :=
  let s1 : State := { s with
    trees := (s.trees.map Prod.fst).foldl (fun t k => t.upd {} k fun x => { x with
      op := x.op.map fun o => { o with
        fenced := o.fenced + (o.mems.filter fun m => m.stall == st && m.fate == .active).length
        dropped := o.dropped + s.copiesHeld k st
        mems := o.mems.map fun m => if m.stall == st && m.fate == .active then { m with fate := .pruned } else m } }) s.trees
    pushes := s.pushes.filter fun p => p.stall != st }
  s1.dropPackets fun e => e.stall == st && (match e.origin with
    | .push _ => true
    | _ => false)

/-- New orphans of a fence, per slice. -/
def State.orphanCounts (s : State) : List Nat := (upTo 8).map fun n => (s.slice n).orphans

/-- DETAIL of an ORPHANS event (17 Table 17.7). -/
def orphanDetail (before after : List Nat) : Nat :=
  ((List.zip before after).zipIdx).foldl (fun a p => a + (p.1.2 - p.1.1) % 2 ^ 32 * 2 ^ (32 * p.2)) 0

/-- The responses of a stall's entries that are formed and not yet on a link are discarded and counted, and no request of the
board's own waits for its host any more (R73). -/
def State.discardStall (s : State) (st : Nat) : State :=
  let s1 := s.dropPackets fun p => p.stall == st && (match p.origin with
    | .hostPort => false
    | .mgmt => false
    | _ => true)
  (upTo 8).foldl (fun a n => ((a.slice n).tracker.filter fun t =>
    t.stall == st && (t.stage == .egress || t.stage == .heldResp)).foldl (fun b t => b.discardTrk st n t.id) a) s1

/-- The fence cycle (R73, 07 R148): FENCED, held packets answered, branches pruned, formed responses discarded, lines orphaned, the events, the fault
and the ledger entry. `cause` is 1 FENCE, 2 declared dead, 3 PARTNER_FENCE. -/
def State.fenceStall (s : State) (st cause : Nat) : State :=
  let x := s.stall st
  let before := s.orphanCounts
  let s1 := (s.updStall st fun y => { y with phase := .fenced, wasFenced := true, held := [], crierQ := [] }).answerHeld st x.held
  let s2 := { (s1.pruneStall st).discardStall st with obs := { s1.obs with copies := s1.obs.copies.filter fun c => c.stall != st } }
  let s3 := ((upTo 8).foldl (fun a n => a.orphanSlice n st) s2).absentStall st
  let after := s3.orphanCounts
  let s4 := s3.cohGoAll
  let s5 := (s4.crier 8 0x06 st (x.host + cause * 2 ^ 16)).crier 8 0x12 st (orphanDetail before after)
  let s6 := s5.fault 8 0x03 st 0 actContained
  let s7 := s6.ledger 0x05 0 Actor.board 0
    (st % 2 ^ 16 + x.host * 2 ^ 16 + cause * 2 ^ 32 + (after.sum - before.sum) % 2 ^ 32 * 2 ^ 64)
  if decide (st < 1024) || s7.pair.activeSide then s7.tellStall st else s7

end Sys2Proof.Machine
end

