-- ==== Sys2Proof/Machine/RepairOps.lean ====
section
/-! DEFINITION. Stopping and retiring a slice or a channel (01 R12, 14 R294 to R301): the fault, the batches of revokes, and the
fold. -/

namespace Sys2Proof.Machine

/-! ### Stopping -/

/-- Answer the requests of a stopped slice's tracker (R12): reads POISON, any other request UNCORRECTABLE, not performed; the result
of a non-idempotent one is recorded (03 R58). -/
def State.answerStopped (s : State) (slice : Nat) : State :=
  ((s.slice slice).tracker.filter fun t => t.stage != .inLink).foldl (fun a t =>
    (a.complete slice t.id fun t => t.failWith (t.op.abortStatus .uncorrectable)).answerTrk slice t.id) s

/-- A MIRROR_WRITE that is withdrawn: a KEY_STATE record of its slot takes its HSEQ. -/
def State.withdrawn (s : State) (o : HalOut) : HalOut :=
  { o with
    kind := 2, sliceEpoch := 0, slot := 0, keyEpoch := 0, offset := 0, poisoned := false, cleared := false
    data := [ctlRecord 3 (o.slot + (s.key o.slot).phase.code * 2 ^ 8 + (s.key o.slot).epoch.toNat * 2 ^ 16)] }

/-- The writes of a slice that have been forwarded and are on no halyard link yet are not performed on the partner either (R12)
(DESIGN CHOICE, log 70). -/
def State.withdrawWrites (s : State) (slice : Nat) : State :=
  { s with pair := { s.pair with sent := s.pair.sent.map fun (o : HalOut) =>
      if o.kind = 1 ∧ o.onWire = false ∧ (s.sliceOf (s.partnerOffset o.offset)).1 = slice then s.withdrawn o else o } }

/-- Launches with a member in a slice stop with MEMBER_LOST (08 Table 8.10). -/
def loseMember (slice : Nat) (b : Barrow) : Barrow :=
  if b.running.any fun r => r.members.any fun m => m.slice == slice && !m.ended then b.stopAll .uncorrectable .memberLost else b

/-- Bunting operations stop with UNCORRECTABLE when a slice stops (Table 14.2 step 1). -/
def stopTree (t : Tree) : Tree :=
  { t with op := t.op.map (·.stopped .uncorrectable) }

/-- The head of a gang's launches moves to the lowest-numbered slice left in service, with what is bound to it (08 R156) (DEDUCED,
log 53). -/
def State.moveHead (s : State) (old new : Nat) : State :=
  let x := s.barrow old
  let head := fun (b : Nat) => if b = old then new else b
  let s1 := (s.updBarrow new fun y => { y with
    queue := (x.queue.filter (·.gang)) ++ y.queue, running := if (x.running.any fun r => r.launch.gang) then x.running else y.running
    standing := x.standing, lastTrigger := x.lastTrigger, regionDone := x.regionDone }).updBarrow old fun y => { y with
    queue := y.queue.filter fun l => !l.gang, running := if (y.running.any fun r => r.launch.gang) then none else y.running }
  (upTo 8).foldl (fun a n => a.updSlice n fun y => { y with
    regions := y.regions.map fun p => (p.1, { p.2 with barrow := head p.2.barrow })
    snapRanges := y.snapRanges.map fun r => { r with barrow := head r.barrow }
    snapLines := y.snapLines.map fun r => { r with barrow := head r.barrow }
    keeps := y.keeps.map head }) s1

/-- The gangs whose head a slice held, as it goes out of service. -/
def State.moveHeads (s : State) (n : Nat) : State :=
  match s.servingSlices.head? with
  | none => s
  | some k =>
    if n < k then ((s.barrows.filter fun p => p.1 / 512 == n && p.2.gang).map Prod.fst).foldl (fun a b => a.moveHead b (k * 512 + b % 512)) s
    else s

/-- A slice stops (R12): its requests are answered, its directory and its work are lost. -/
def State.stopSlice (s : State) (n : Nat) : State :=
  let s1 := s.updSlice n fun x => { x with inService := false, stopped := true }
  let s2 := ((s1.withdrawWrites n).dropPackets fun p => match p.origin with
    | .slice k _ => k == n
    | _ => false).answerStopped n
  let s3 := s2.updSlice n fun x => { x with
    pipe := {}, egress := [], wheel := [], eligible := [], parkedFlows := [], dir := [], txns := []
    snapRanges := [], snapLines := [], keeps := [] }
  let s4 := { s3 with
    snoops := s3.snoops.filter fun p => p.slice != n
    xbar := { s3.xbar with inWait := s3.xbar.inWait.set [] n [] } }
  ((s4.mapBarrows fun _ b => loseMember n b).moveHeads n).mapTrees stopTree

/-! ### Retirement -/

/-- Pitches that a retirement revokes (R295, R296), by pitch ID: those granted when it begins (DESIGN CHOICE, log 88). -/
def State.retirePitches (s : State) (channel : Bool) : List Nat :=
  let g := s.pitch.gran
  ((s.pitch.table.filter fun q => (q.2.phase == .granted || q.2.phase == .revoking)
      && (if channel then decide (3 * g / 4 ≤ q.1) else decide (7 * g / 8 ≤ q.1) || q.2.coherent)).map
    fun q => q.2.pitch).eraseDups

/-- A revoke of the retirement is in progress. -/
def State.retireRevokes (s : State) : Bool := s.revokeEntries.any fun p => p.2.cause == .retirement

/-- Issue the next batch of revokes, up to 16 at a time, once the batch before is complete (Table 14.2 steps 2 and 3). -/
def State.issueRetire (s : State) : State :=
  match s.repair.retiring with
  | none => s
  | some r =>
    if s.retireRevokes then s
    else
      let free := ((upTo 16).filter fun n => !(s.revoke n).valid).length
      let batch := r.todo.take free
      let s1 := { s with repair := { s.repair with
        retiring := some { r with todo := r.todo.drop free, issued := r.issued + batch.length } } }
      batch.foldl (fun a p => (a.startRevoke 0 p .retirement).1) s1

/-- Begin the retirement of a unit. -/
def State.beginRetire (s : State) (channel : Bool) (unit : Nat) : State :=
  { s with repair := { s.repair with
      used := true, retiring := some { channel := channel, unit := unit, todo := s.retirePitches channel, issued := 0 } } }.issueRetire

/-- A stopped unit that is neither retired nor being retired. -/
def State.leftStopped (s : State) : Bool :=
  let retired := fun (channel : Bool) (u : Nat) =>
    (match s.repair.retiring with
      | some r => r.channel == channel && r.unit == u
      | none => false)
    || (if channel then s.repair.foldChannel == some u || s.repair.foldSlice == some (u / 4) else s.repair.foldSlice == some u)
  ((upTo 8).any fun n => (s.slice n).stopped && !retired false n)
    || ((upTo 32).any fun c => (s.chan c).stopped && !retired true c)

/-- IMPAIRED while a failed unit is stopped and not retired (R294). -/
def State.reimpair (s : State) : State := { s with repair := { s.repair with impaired := s.leftStopped } }

/-- ACTION of a unit fault (R303). -/
def State.unitAction (s : State) (unfit retire : Bool) : Nat :=
  if unfit && s.pair.phase == .paired then actRelinquished else if retire then actRetired else actImpaired

/-! ### The fold -/

/-- RETIRED_UNITS (14 Table 14.6). -/
def State.retiredWord (s : State) : Nat :=
  match s.repair.foldSlice, s.repair.foldChannel with
  | some r, _ => 2 ^ 31 + r % 8 * 2 ^ 28
  | none, some c => 2 ^ 27 + c % 32 * 2 ^ 22
  | none, none => 0

/-- Granules that are not FREE (R82). -/
def State.busyGranules (s : State) : List Nat := s.granulesWhere fun _ e => e.phase != .free

/-- Wipe the pages that a slice's fold reuses: local pages from 7P/64 up in every slice that stays (R81, R82). -/
def State.wipeTop (s : State) (r : Nat) : State :=
  let top := 7 * (s.pitch.gran * 4096) / 64
  (upTo 32).foldl (fun a c => if c / 4 = r then a
    else a.updChan c fun x => x.wipe fun l => decide (top ≤ s.localOf c (l / 64))) s

/-- Wipe the channel pages that a channel's fold reuses (R296). -/
def State.wipeThird (s : State) (ch : Nat) : State :=
  let top := 3 * (s.pitch.gran * 512) / 16
  (upTo 4).foldl (fun a i => if 4 * (ch / 4) + i = ch then a
    else a.updChan (4 * (ch / 4) + i) fun x => x.wipe fun l => decide (top ≤ l / 64)) s

/-- Free every frame of regions from `lo` up, without write-back. -/
def State.freeFramesFrom (s : State) (lo : Nat) : State :=
  (upTo 8).foldl (fun a n => a.updSlice n fun x => { x with
    frames := x.frames.filter fun p => !(p.2.phase != .free && decide (lo ≤ p.2.region)) }) s

/-- Every accumulation region is freed (R295). -/
def State.freeRegions (s : State) : State := (upTo 8).foldl (fun a n => a.updSlice n fun x => { x with regions := [] }) s

/-- Pages of a retired channel that stand in RESIDENT or EVICTING frames become dirty (R297). -/
def State.dirtyOld (s : State) (ch : Nat) : State :=
  s.updSlice (ch / 4) fun x => { x with
    frames := (x.frames.map Prod.fst).foldl (fun t f => t.upd {} f fun e =>
      if e.phase.serves then { e with
        pages := e.pages ||| BitVec.ofNat 512 ((upTo 128).foldl (fun a i => a + 2 ^ (4 * i + ch % 4)) 0) }
      else e) x.frames }

/-- Granules of this board with MIRRORED set, and the window granules of the image's mirrored entries, in ascending order
(R284, R285). -/
def State.mirroredAll (s : State) : List Nat :=
  ((s.pair.image.pitch.filter fun p => p.2.mirrored && decide (s.pair.window ≤ p.1)).map fun p => p.1 - s.pair.window)
    ++ s.granulesWhere fun _ e => e.mirrored

/-- What follows either fold (Table 14.2 step 5, R285): RETIRED_UNITS, the events, and the resynchronisation of a pair. -/
def State.afterFold (s : State) (unit : Nat) : State :=
  let s0 := s.setReg kRetiredUnits s.retiredWord
  let s1 := if s.reg kRetireResult = 2 then s0.setReg kRetireResult 0 else s0
  let s2 := s1.crier 9 0x1E unit (s1.retiredWord + s1.reach * 2 ^ 32)
  let s3 := s2.ledger 0x07 0 Actor.board 0 s2.lastFaultWords
  { s3 with
    pair := { s3.pair with
      resync := if s3.pair.phase == .paired then s3.mirroredAll else s3.pair.resync }
    repair := { s3.repair with retiredUnits := s3.retiredWord } }

/-- Entries at or above the reach are FREE after a fold (04 R76). -/
def State.freeAboveReach (s : State) : State :=
  (s.setGranules (s.granulesWhere fun g e => decide (s.reach ≤ g) && e.phase != .free) fun _ => {}).1

/-- The fold cycle of a slice (Table 14.2 step 4). -/
def State.foldSliceNow (s : State) (r : Nat) : State :=
  let busy := s.busyGranules
  let s1 := ((s.wipeTop r).freeFramesFrom (7 * s.pitch.gran / 8)).freeRegions
  let s2 := (upTo 8).foldl (fun a n => a.updSlice n fun x => { x with dir := [], txns := [] }) s1
  let s3 := s2.updSlice r fun x => { x with inService := false, stopped := true, epoch := x.epoch + 1 }
  let s4 := (s3.mapBarrows fun k b => if k / 512 = r then { b with lostSlice := true } else b)
  { s4 with
    snoops := []
    repair := { s4.repair with
      foldSlice := some r, used := true, retiring := none, moved := [], busyAtFold := busy } }.freeAboveReach.reimpair

/-- The fold cycle of a channel (R296, R297). -/
def State.foldChannelNow (s : State) (c : Nat) : State :=
  let busy := s.busyGranules
  let s1 := ((s.wipeThird c).freeFramesFrom (3 * s.pitch.gran / 4)).dirtyOld c
  let s2 := s1.updChan c fun x => { x with phase := .retired, stopped := true }
  { s2 with repair := { s2.repair with
      foldChannel := some c, used := true, retiring := none, moved := [], busyAtFold := busy } }.freeAboveReach.reimpair

/-! ### Bring-up (R301, 20 R402) -/

/-- Log a unit's fault with its ledger entry. -/
def State.unitFault (s : State) (region : RegionNo) (cls unit detail action : Nat) : State :=
  let s1 := s.fault region cls unit detail action
  s1.ledger 0x07 0 Actor.board 0 s1.lastFaultWords

/-- A slice that fails before READY is retired at once while the retirement is unused, whatever RETIRE_POLICY holds; otherwise
the board is IMPAIRED. -/
def State.bringUpSlice (s : State) (n detail : Nat) : State :=
  let s1 := s.stopSlice n
  if s1.repair.used then
    let s2 := s1.reimpair
    (s2.unitFault n 0x07 n detail (s2.unitAction true false)).unfit relSelfDiag
  else ((s1.unitFault n 0x07 n detail actRetired).foldSliceNow n).afterFold n

/-- The same for a channel. -/
def State.bringUpChannel (s : State) (c detail : Nat) : State :=
  let s1 := s.updChan c fun x => { x with stopped := true, phase := if x.phase = .empty then .empty else .failed }
  if s1.repair.used then
    let s2 := s1.reimpair
    (s2.unitFault (c / 4) 0x06 c detail (s2.unitAction true false)).unfit relSelfDiag
  else ((s1.unitFault (c / 4) 0x06 c detail actRetired).foldChannelNow c).afterFold c

/-! ### Faults -/

/-- A slice fault of a running board (R295, R298, R299). -/
def State.runningSliceFault (s : State) (n detail : Nat) : State :=
  let retire := bitAt (s.reg kRetirePolicy) 0 && !s.repair.used
  let s1 := s.stopSlice n
  let s2 := if retire then s1 else s1.reimpair
  let s3 := s2.unitFault n 0x07 n detail (s2.unitAction (!retire) retire)
  if retire then s3.beginRetire false n else s3.unfit relSelfDiag

/-- A slice fault: of a slice that has stopped already, nothing. -/
def State.sliceFaultOn (s : State) (n detail : Nat) : State :=
  if (s.slice n).stopped || !(s.slice n).inService then s
  else if s.boot.stage = .ready then s.runningSliceFault n detail
  else s.bringUpSlice n detail

/-- A channel fault of a running board (R296, R298, R299). -/
def State.runningChannelFault (s : State) (c detail : Nat) : State :=
  let retire := bitAt (s.reg kRetirePolicy) 1 && !s.repair.used
  let unfit := !retire || decide (3 * s.pitch.gran / 4 < 2 * s.pair.window)
  let s1 := s.updChan c fun x => { x with stopped := true, phase := .failed }
  let s2 := if retire then s1 else s1.reimpair
  let s3 := s2.unitFault (c / 4) 0x06 c detail (s2.unitAction unfit retire)
  let s4 := if retire then s3.beginRetire true c else s3
  if unfit then s4.unfit relSelfDiag else s4

/-- A channel fault: of a channel that has stopped already, nothing. -/
def State.channelFaultOn (s : State) (c detail : Nat) : State :=
  if (s.chan c).stopped then s
  else if s.boot.stage = .ready then
    if (s.chan c).phase = .inService then s.runningChannelFault c detail else s
  else if (s.chan c).phase = .inService ∨ (s.chan c).phase = .training then s.bringUpChannel c detail
  else s

/-- The REMAP_FULL findings of a slice's units are acted on (06 R128, Table 14.4): each is a REMAP_FULL fault, and a channel fault where
RETIRE_POLICY bit 2 says so. -/
def State.takeCandidates (s : State) (slice : Nat) : State :=
  ((32 + slice) :: (upTo 4).map (4 * slice + ·)).foldl (fun a u =>
    if (a.chan u).candidate then
      let asChannel := bitAt (a.reg kRetirePolicy) 2 && decide (u < 32)
      let retire := bitAt (a.reg kRetirePolicy) 1 && !a.repair.used
      let act := if asChannel then a.unitAction (!retire) retire else actNone
      let b := (a.updChan u fun c => { c with candidate := false }).fault slice 0x05 (if u < 32 then u else slice) 0 act
      if asChannel then b.channelFaultOn u 3 else b
    else a) s

end Sys2Proof.Machine
end

