-- ==== Sys2Proof/Machine/TierOps.lean ====
section
/-! DEFINITION. Migration between the tiers (05 R95 to R101): hints, the order of work of a window, victims, the copies, and
what the close of a migration gate does. -/

namespace Sys2Proof.Machine

/-! ### Ranks (Table 5.3) -/

/-- Victim rank of a frame by its effective hint: COLD 1, STREAM 2, NONE 3, HOT and an unpinned PIN 4. -/
def victimRank (hint : Nat) : Nat :=
  match hint with
  | 2 => 1 | 4 => 2 | 0 => 3 | _ => 4

/-- Frames of a slice that move now. -/
def SliceSt.moving (x : SliceSt) : Nat :=
  (x.frames.filter fun p => p.2.phase == .filling || p.2.phase == .evicting).length

/-- The migration gate of a slice is open (R99). -/
def State.migrateOpen (s : State) (n : Nat) : Bool := s.gates.migrate.getLsbD n

/-- The patrol-scrub gate of a slice is open (06 R124). -/
def State.scrubOpen (s : State) (n : Nat) : Bool := s.gates.scrub.getLsbD n

/-- Valid entries of the committed fall-back list from a row on, around the cycle. -/
def State.fbCycle (s : State) : List FbEntry :=
  let rows := (upTo 256).filterMap fun i => if (s.gates.fbList.get {} i).valid then some (s.gates.fbList.get {} i) else none
  rows.drop s.gates.fbIndex ++ rows.take s.gates.fbIndex

/-- Nanoseconds into the cycle of the fall-back list (12 R257). -/
def State.fbPhase (s : State) : Nat :=
  let cycle := ((s.fbCycle).map (·.duration)).sum
  if cycle = 0 then 0 else (s.time.ao % 1000000000 + 1000000000 - s.gates.fbOffset % 1000000000) % 1000000000 % cycle

/-- Nanoseconds before the row that applies. -/
def State.fbBefore (s : State) : Nat :=
  (((upTo 256).filterMap fun i => if (s.gates.fbList.get {} i).valid then some (s.gates.fbList.get {} i).duration else none).take
    s.gates.fbIndex).sum

/-- Nanoseconds until the open migration window of a slice is known to close: in mark fall-back by the cyclic list, and else by the held
MARK whose gates have been worked out (12 R256). -/
def State.windowLeft (s : State) (slice : Nat) : Option Nat :=
  if s.time.fallback then
    let run := s.fbCycle.takeWhile fun e => e.migrate
    if run.length = s.fbCycle.length then none
    else some ((run.map (·.duration)).sum - (s.fbPhase - s.fbBefore))
  else match s.gates.closing with
    | some (_, at_) => if s.gates.closingMig.getLsbD slice then some (at_ - s.time.ao) else none
    | none => none

/-- The window leaves time for a move (R101). -/
def State.windowOk (s : State) (slice : Nat) : Bool :=
  match s.windowLeft slice with
  | none => true
  | some ns => decide (s.reg kMigrateGuard * 1000 ≤ ns)

/-! ### Regions to fill (R100, R102) -/

/-- Every granule of a region is GRANTED (R102). -/
def State.regionGranted (s : State) (slice region : Nat) : Bool :=
  (s.regionGranules slice region).all fun g => (s.granule g).phase == .granted

/-- Regions of a slice that hold lines of a granule. -/
def State.granuleRegions (s : State) (slice g : Nat) : List Nat :=
  match s.repair.foldSlice with
  | none => [g]
  | some _ =>
    let top := 7 * (s.pitch.gran * 4096) / 64
    [g, regionOf (top + 512 * g / 7), regionOf (top + (512 * g + 511) / 7)].eraseDups.filter fun r =>
      (s.regionGranules slice r).contains g

/-- Regions with hints or granted granules, in the order of the walk (R100). -/
def State.walkOrder (s : State) (slice : Nat) : List Nat :=
  let x := s.slice slice
  let rs := (((s.pitch.table.filter fun q => q.2.phase == .granted).flatMap fun q => s.granuleRegions slice q.1)
    ++ (x.cands.filter fun c => c.hinted).map (·.region)).eraseDups.mergeSort
  rs.filter (fun r => decide (x.walk ≤ r)) ++ rs.filter fun r => decide (r < x.walk)

/-- A fill of the region waits for its victim to leave (R100). -/
def SliceSt.fillWaits (x : SliceSt) (region : Nat) : Bool := x.waitFills.any fun w => w.2.1 == region

/-- Regions that may be filled with a hint, not in any frame and with no fill waiting. -/
def State.fillable (s : State) (slice hint : Nat) : List Nat :=
  (s.walkOrder slice).filter fun r =>
    s.hintOf slice r == hint && (s.regionGranted slice r && (((s.slice slice).frameOf r).isNone && !(s.slice slice).fillWaits r))

/-- NONE candidates that reached MIGRATE_THRESHOLD in the window before, most misses first (R100). -/
def State.noneFills (s : State) (slice : Nat) : List Nat :=
  let c := (s.slice slice).cands.filter fun c => !c.hinted && (decide (s.reg kMigrateThreshold ≤ c.lastMisses)
    && (s.hintOf slice c.region == 0 && (s.regionGranted slice c.region && (((s.slice slice).frameOf c.region).isNone && !(s.slice slice).fillWaits c.region))))
  (c.mergeSort fun a b => decide (b.lastMisses ≤ a.lastMisses)).map (·.region)

/-- The victim of a fill of a region with rank `rank` (R100): the resident, unpinned frame of lowest victim rank below it,
then lowest ACCESS_COUNT, then the first at or after the set's pointer. -/
def State.victim (s : State) (slice region rank : Nat) : Option Nat :=
  let x := s.slice slice
  let ok := (setFrames region).filter fun f =>
    let e := x.frames.get {} f
    e.phase == .resident && (!e.pinned && decide (victimRank (s.hintOf slice e.region) < rank))
  let key := fun f => victimRank (s.hintOf slice (x.frames.get {} f).region) * 65536 + (x.frames.get {} f).count
  match (ok.map key).min? with
  | none => none
  | some m =>
    (rotate 16 (x.setPtr.get 0 (region % 768)) fun w =>
      ok.contains (region % 768 * 16 + w) && key (region % 768 * 16 + w) == m).map fun w => region % 768 * 16 + w

/-! ### Copies -/

/-- Home of a line of a frame. -/
def frameHome (slice f q off : Nat) : Home where
  slice := slice
  page := q
  frame := some f
  unit := 32 + slice
  line := nearLine f q off

/-- Home of a line's far-tier copy. -/
def State.farHomeOf (s : State) (slice q off : Nat) : Home where
  slice := slice
  page := q
  frame := none
  unit := (s.farHome off).1
  line := (s.farHome off).2

/-- Copy one line of a region up into a frame: checked, corrected and re-encoded; poison travels (06 R118). -/
def State.copyUp (s : State) (slice f q i : Nat) : State :=
  let off := s.pageOf slice q * 4096 + i * 64
  let h := s.farHomeOf slice q off
  let l := (s.farLine off).corrected
  ((s.note h off 0xFFF).queueDram h false 6).setUnitLine (32 + slice) (nearLine f q off) l

/-- Copy one line of a frame back to the far tier. -/
def State.copyDown (s : State) (slice f q i : Nat) : State :=
  let off := s.pageOf slice q * 4096 + i * 64
  let h := frameHome slice f q off
  let l := (s.unitLine h.unit h.line).corrected
  ((s.note h off 0xFFF).queueDram (s.farHomeOf slice q off) true 6).setFarLine off l

/-- Copy pages up: 64 lines each, one access of level 6 a page (R99, 12 R260). -/
def State.pagesUp (s : State) (slice f : Nat) (pages : List Nat) : State :=
  pages.foldl (fun a q => (upTo 64).foldl (fun b i => b.copyUp slice f q i) (a.pipePush slice 6 f q)) s

/-- Copy pages down. -/
def State.pagesDown (s : State) (slice f : Nat) (pages : List Nat) : State :=
  pages.foldl (fun a q => (upTo 64).foldl (fun b i => b.copyDown slice f q i) (a.pipePush slice 6 f q)) s

/-- Local pages of a region. -/
def regionPages (region : Nat) : List Nat := (upTo 512).map fun i => region * 512 + i

/-- Pages of a frame whose map bit is set. -/
def FrameEntry.marked (e : FrameEntry) : List Nat := (regionPages e.region).filter fun q => e.pages.getLsbD (q % 512)

/-- A frame is freed; a hint of its own goes back to the candidate table, where it may displace an unhinted entry and is lost when none
is left (R97) (DESIGN CHOICE, log 74). -/
def State.releaseFrame (s : State) (slice f : Nat) : State :=
  s.updSlice slice fun x =>
    let e := x.frames.get {} f
    let y := { x with frames := x.frames.set {} f {} }
    if e.ownHint then
      (y.putCand { region := e.region, hinted := true, hint := e.hint, stall := e.stall, misses := 0, lastMisses := 0 }).getD y
    else y

/-- The lines of a frame are forgotten. -/
def State.wipeFrame (s : State) (slice f : Nat) : State :=
  s.updChan (32 + slice) fun c => c.wipe fun a => decide (a / 32768 = f)

/-! ### Moves -/

/-- A frame begins to fill (R101): a hint of the region's own moves into the frame table, and a walk that found it resumes behind it
(R100). -/
def State.beginFill (s : State) (slice f region : Nat) (pinned walked : Bool) : State :=
  ((s.wipeFrame slice f).sramWrite 0x0E slice f).updSlice slice fun x =>
    let c := x.cands.find? fun c => c.hinted && c.region == region
    { x with
      frames := x.frames.set {} f {
        phase := .filling, hint := (c.map (·.hint)).getD 0, ownHint := c.isSome, region := region, count := 0, pages := 0
        pinned := pinned, stall := (c.map (·.stall)).getD 0 }
      cands := x.cands.filter fun c => c.region != region
      walk := if walked then region + 1 else x.walk }

/-- A resident frame begins to leave: a clean one is FREE at once, a dirty one EVICTING (R100, R101). -/
def State.beginEvict (s : State) (slice f : Nat) : State :=
  if ((s.slice slice).frames.get {} f).pages = 0 then
    ((s.wipeFrame slice f).releaseFrame slice f).count .slice slice 53
  else s.updSlice slice fun x => x.updFrame f fun e => { e with phase := .evicting }

/-- A PIN region over PIN_WAYS is treated as HOT: it is counted once in a window (R98). -/
def State.pinOverflow (s : State) (slice region : Nat) : State :=
  if (s.slice slice).pinned.contains region then s
  else s.updSlice slice fun x => { x with pinned := region :: x.pinned, pinOver := x.pinOver + 1 }

/-- PIN regions of a slice's frames that no pinned way was left for. -/
def State.unpinned (s : State) (slice : Nat) : List Nat :=
  ((s.slice slice).frames.filter fun p => p.2.phase != .free && (!p.2.pinned && s.hintOf slice p.2.region == 3)).map (·.2.region)

/-- Try to fill a region (R100): a FREE way takes it at once; else a victim leaves: a clean one makes room at once, and the fill waits
for a dirty one. Answers none when the region finds neither. -/
def State.tryFill (s : State) (slice region rank : Nat) (pinned : Bool) : Option State :=
  let x := s.slice slice
  let walked := decide (4 ≤ rank) && (x.ownHint region).isNone
  match (setFrames region).find? fun f => (x.frames.get {} f).phase == .free with
  | some f => some (s.beginFill slice f region pinned walked)
  | none =>
    match s.victim slice region rank with
    | none => none
    | some f =>
      let clean := (x.frames.get {} f).pages == 0
      let s1 := (s.updSlice slice fun x => { x with setPtr := x.setPtr.set 0 (region % 768) ((f + 1) % 16) }).beginEvict slice f
      some (if clean then s1.beginFill slice f region pinned walked
        else s1.updSlice slice fun x => { x with waitFills := x.waitFills ++ [(f, region, pinned, walked)] })

/-- The fill that waited for a frame's victim starts (R100), while the window leaves time for it and the region is not in a frame. -/
def State.fillWaiting (s : State) (slice f : Nat) : State :=
  match (s.slice slice).waitFills.find? fun w => w.1 == f with
  | none => s
  | some (_, region, pinned, walked) =>
    let s1 := s.updSlice slice fun x => { x with waitFills := x.waitFills.filter fun w => w.1 != f }
    if s1.migrateOpen slice && (s1.windowOk slice && (s1.regionGranted slice region && ((s1.slice slice).frameOf region).isNone)) then
      s1.beginFill slice f region (pinned && decide ((s1.slice slice).pinnedIn region < s1.reg kPinWays)) walked
    else s1

/-- The first region of a list that can be filled. -/
def State.firstFill (s : State) (slice rank : Nat) (pinned : Bool) : List Nat → Option State
  | [] => none
  | r :: l =>
    match s.tryFill slice r rank pinned with
    | some s' => some s'
    | none => State.firstFill s slice rank pinned l

/-- Fills in the order of R100: PIN regions within PIN_WAYS at rank 5, then HOT and the other PIN regions at rank 4, then
NONE candidates at rank 3. -/
def State.nextFill (s : State) (slice : Nat) : State :=
  let x := s.slice slice
  let pin := s.fillable slice 3
  let room := pin.filter fun r => decide (x.pinnedIn r < s.reg kPinWays)
  let excess := pin.filter fun r => !decide (x.pinnedIn r < s.reg kPinWays)
  let s1 := (excess ++ s.unpinned slice).foldl (fun a r => a.pinOverflow slice r) s
  match s1.firstFill slice 5 true room with
  | some s' => s'
  | none =>
    match s1.firstFill slice 4 false (excess ++ s1.fillable slice 1) with
    | some s' => s'
    | none =>
      match s1.firstFill slice 3 false (s1.noneFills slice) with
      | some s' => s'
      | none => s1

/-- A move that has not finished is abandoned (R101): a fill leaves its frame FREE, an eviction leaves it RESIDENT with its
dirty pages, and no fill waits for it. -/
def State.abandonMove (s : State) (slice f : Nat) : State :=
  let e := (s.slice slice).frames.get {} f
  match e.phase with
  | .filling => ((s.wipeFrame slice f).releaseFrame slice f).count .slice slice 54
  | .evicting =>
    (s.updSlice slice fun x => { x.updFrame f fun e => { e with phase := .resident } with
      waitFills := x.waitFills.filter fun w => w.1 != f }).count .slice slice 54
  | _ => s

/-- A request reads the frame table: a frame whose entry has an uncorrectable error becomes FREE without write-back, and its dirty pages
read POISON until they are written (06 Table 6.1). -/
def State.readFrame (s : State) (off host tenant : Nat) : State :=
  let h := s.home off
  match (s.slice h.slice).frameOf (regionOf h.page) with
  | none => s
  | some f =>
    let r := s.sramRead 0x0E h.slice f host tenant
    if r.2 then
      let s1 := ((((s.slice h.slice).frames.get {} f).marked).flatMap fun q =>
        (upTo 64).map fun i => s.pageOf h.slice q * 4096 + i * 64).foldl (fun a o => a.setFarLine o poisonLine) (r.1.sramWrite 0x0E h.slice f)
      (s1.wipeFrame h.slice f).updSlice h.slice fun x => { x with
        frames := x.frames.set {} f {}, waitFills := x.waitFills.filter fun w => w.1 != f }
    else r.1

/-- The migration gate of a slice closes (R98, R99, R101): running moves are abandoned, ACCESS_COUNTs halve, miss counts clear, and the
window's PIN regions treated as HOT are announced (DEDUCED, log 48). -/
def State.migrateClose (s : State) (slice : Nat) : State :=
  let moving := ((s.slice slice).frames.filter fun p => p.2.phase == .filling || p.2.phase == .evicting).map Prod.fst
  let hot := (s.slice slice).pinOver
  let s1 := (moving.foldl (fun a f => a.abandonMove slice f) s).updSlice slice fun x => { x with
    frames := (x.frames.map Prod.fst).foldl (fun t f => t.upd {} f fun e => { e with count := e.count / 2 }) x.frames
    cands := (x.cands.filter fun c => c.hinted || c.misses != 0).map fun c => { c with lastMisses := c.misses, misses := 0 }
    pinOver := 0, waitFills := [], pinned := [] }
  if hot = 0 then s1 else s1.crier slice 0x0B slice (hot % 2 ^ 32)

end Sys2Proof.Machine
end

