-- ==== Sys2Proof/Machine/EgressOps.lean ====
section
/-! DEFINITION. The gates (12 R252 to R258): the cyclic list, the step-keyed lists, and the state they set. -/

namespace Sys2Proof.Machine

/-! ### The cyclic list (R257, R258) -/

/-- Valid rows of the committed fall-back list in row order. -/
def State.fbRows (s : State) : List FbEntry :=
  (upTo 256).filterMap fun i => if (s.gates.fbList.get {} i).valid then some (s.gates.fbList.get {} i) else none

/-- The row whose span holds an offset, and the offset within it. -/
def fbAt : List FbEntry → Nat → Nat → Nat × Nat
  | [], i, off => (i - 1, off)
  | e :: r, i, off => if off < e.duration ∨ r = [] then (i, off) else fbAt r (i + 1) (off - e.duration)

/-- Nanoseconds until a class closes by the cyclic list; none when no row closes it. -/
def fbCloses (tc : Nat) : List FbEntry → Nat → Option Nat
  | [], _ => none
  | e :: r, acc => if e.tcOpen.getLsbD tc then fbCloses tc r (acc + e.duration) else some acc

/-! ### Gate state -/

/-- The smaller of two times that may be unknown. -/
def sooner (a b : Option Nat) : Option Nat :=
  match a, b with
  | some x, some y => some (min x y)
  | some x, none => some x
  | none, y => y

/-- Nanoseconds until a known closing of a class (R256): by the cyclic list in mark fall-back, and by the held MARK whose gates
have been worked out. -/
def State.closesIn (s : State) (tc : Nat) : Option Nat :=
  let cyclic := if s.time.fallback then
      let rows := s.fbRows
      let p := fbAt rows 0 s.fbPhase
      match rows.drop p.1 ++ rows.take p.1 with
      | [] => none
      | e :: r => fbCloses tc r (e.duration - p.2)
    else none
  let mark := match s.gates.closing with
    | some (mask, at_) => if mask.getLsbD tc then some (at_ - s.time.ao) else none
    | none => none
  sooner cyclic mark

/-- Lanes that carry a link's packets. -/
def LinkSt.lanes (l : LinkSt) : Nat := max 1 (popCount l.mask.toNat 4)

/-- Wire time of a packet in ns at a link's width: 24 bytes a lane in each ns. -/
def LinkSt.wireNs (l : LinkSt) (bytes : Nat) : Nat := (bytes + 24 * l.lanes - 1) / (24 * l.lanes)

/-- A packet may start on its class: the gate is open, and no known closing falls within GUARD_BAND or before its last byte
leaves (R253, R256). -/
def State.mayStart (s : State) (tc bytes link : Nat) : Bool :=
  s.gates.tcOpen.getLsbD tc && (match s.closesIn tc with
    | none => true
    | some d => decide (s.reg kGuardBand < d) && decide ((s.link link).wireNs bytes ≤ d))

/-- A flow has a packet whose class is open. -/
def State.flowOpen (s : State) (slice st : Nat) : Bool :=
  (s.slice slice).egress.any fun p => p.stall == st && s.gates.tcOpen.getLsbD p.tc

/-- Parked flows one of whose gates is open become eligible, or return to the wheel (R250 step 6). -/
def State.unpark (s : State) : State :=
  (upTo 8).foldl (fun a n => ((a.slice n).parkedFlows.filter fun st => a.flowOpen n st).foldl (fun b st =>
    b.placeFlow n st) a) s

/-- A patrol-scrub window of a slice opens: its channels' error check and scrub counts are to be read (06 R124). -/
def State.ecsWindow (s : State) (n : Nat) : State :=
  (upTo 4).foldl (fun a i => a.updChan (4 * n + i) fun c => { c with ecsDue := true }) s

/-- Set the gates; a migration gate that closes ends its slice's window (05 R99, R101), a gate that opens wakes its slice
(18 R371). -/
def State.setGates (s : State) (tc mig scrub : BitVec 8) : State :=
  let was := s.gates.migrate
  let wasScrub := s.gates.scrub
  let s1 := { s with gates := { s.gates with tcOpen := tc, migrate := mig, scrub := scrub } }
  let s2 := (upTo 8).foldl (fun a n => if was.getLsbD n && !mig.getLsbD n then a.migrateClose n else a) s1
  ((upTo 8).foldl (fun a n =>
    let b := if (mig.getLsbD n && !was.getLsbD n) || (scrub.getLsbD n && !wasScrub.getLsbD n) then a.wakeSlice n else a
    if scrub.getLsbD n && !wasScrub.getLsbD n then b.ecsWindow n else b) s2).unpark

/-- Gates of every slice in service. -/
def State.everySlice (s : State) : BitVec 8 := BitVec.ofNat 8 (s.servingSlices.foldl (fun a n => a + 2 ^ n) 0)

/-! ### Step-keyed lists (R253 to R255) -/

/-- Valid entries of a list in row order. -/
def State.gateRows (s : State) (list : Nat) : List GateEntry :=
  (upTo 256).filterMap fun i =>
    let e := s.gates.lists.get {} (256 * list + i)
    if e.valid then some e else none

/-- The entry that applies at a phase (R253). -/
def gateAt (rows : List GateEntry) (phase : Nat) : Option GateEntry :=
  let below := rows.filter fun e => decide (e.phase ≤ phase)
  let from_ := if below.isEmpty then rows else below
  match (from_.map (·.phase)).max? with
  | none => none
  | some m => from_.find? fun e => e.phase == m

/-- Each phase stands above the one before it. -/
def ascending : List Nat → Bool
  | a :: b :: r => decide (a < b) && ascending (b :: r)
  | _ => true

/-- A list may be activated (R255). -/
def gateListOk (rows : List GateEntry) : Bool :=
  ascending (rows.map (·.phase)) && (rows.isEmpty || ((rows.foldl (fun a e => a ||| e.tcOpen) 0) == 0xFF))

/-- The gate state of an entry: classes, migration gates, scrub gates (Table 12.2, R254). -/
def State.gateState (s : State) (e : Option GateEntry) : BitVec 8 × BitVec 8 × BitVec 8 :=
  match e with
  | none => (0xFF, s.gates.schedMigrate, s.gates.schedScrub)
  | some e =>
    let pick := fun (c : Nat) (f : BitVec 8) => match c with
      | 0 => f
      | 1 => s.everySlice
      | _ => 0
    (e.tcOpen, pick e.migrate s.gates.schedMigrate, pick e.scrub s.gates.schedScrub)

/-- The active list sets the gate state at the current PHASE, outside mark fall-back and from READY on (R253). -/
def State.applyGates (s : State) : State :=
  if s.time.fallback ∨ s.boot.stage ≠ .ready then s
  else
    let g := s.gateState (gateAt (s.gateRows (s.reg kActiveGateList)) s.time.mphase)
    s.setGates g.1 g.2.1 g.2.2

/-- The cyclic list's row that holds the current offset sets every gate (R257, R258). -/
def State.applyFallback (s : State) : State :=
  let rows := s.fbRows
  let p := fbAt rows 0 s.fbPhase
  match rows[p.1]? with
  | none => s
  | some e =>
    let every := s.everySlice
    { s with gates := { s.gates with fbIndex := p.1 } }.setGates e.tcOpen (if e.migrate then every else 0)
      (if e.scrub then every else 0)

end Sys2Proof.Machine
end

