-- ==== Sys2Proof/Machine/Numeric.lean ====
section
/-! DEFINITION. Reduction arithmetic (09): element formats, the exact accumulator, conversion with its roundings, MX blocks, the
random bits, and binary32 arithmetic. Finite values are exact: an integer times a power of two. -/

namespace Sys2Proof.Machine

/-- The value of an element: `m` × 2^`e`, or one of the special values. -/
inductive Num where
  | fin (m e : Int)
  | inf (neg : Bool)
  | nan
  | ovf
deriving DecidableEq, Repr, Inhabited

/-! ### Flags (08 Table 8.9) -/

/-- Flag OVERFLOW. -/
def flOverflow : BitVec 7 := 1
/-- Flag BELOW_GRID. -/
def flBelow : BitVec 7 := 2
/-- Flag NAN. -/
def flNan : BitVec 7 := 4
/-- Flag INF. -/
def flInf : BitVec 7 := 8
/-- Flag NE. -/
def flNe : BitVec 7 := 16
/-- Flag CLIPPED. -/
def flClipped : BitVec 7 := 32
/-- Flag SHORT. -/
def flShort : BitVec 7 := 64

/-! ### Formats (R183 to R185) -/

/-- How a format's top codes are used: infinity and NaN at E all ones, NaN at S.1111.111 only, or all finite. -/
inductive Top where
  | ieee | e4m3 | plain
deriving DecidableEq, Repr

/-- A floating-point layout: exponent bits, mantissa bits, bias (Table 9.1). -/
structure Flt where
  eb : Nat
  mb : Nat
  bias : Nat
  top : Top
deriving DecidableEq, Repr

/-- FP32. -/
def fp32 : Flt := ⟨8, 23, 127, .ieee⟩
/-- BF16. -/
def bf16 : Flt := ⟨8, 7, 127, .ieee⟩
/-- FP16. -/
def fp16 : Flt := ⟨5, 10, 15, .ieee⟩
/-- FP8 E4M3. -/
def fp8e4m3 : Flt := ⟨4, 3, 7, .e4m3⟩
/-- FP8 E5M2. -/
def fp8e5m2 : Flt := ⟨5, 2, 15, .ieee⟩
/-- FP6 E2M3. -/
def fp6e2m3 : Flt := ⟨2, 3, 1, .plain⟩
/-- FP6 E3M2. -/
def fp6e3m2 : Flt := ⟨3, 2, 3, .plain⟩
/-- FP4 E2M1. -/
def fp4e2m1 : Flt := ⟨2, 1, 1, .plain⟩

/-- Exponent of the smallest positive value. -/
def Flt.qmin (f : Flt) : Int := 1 - (f.bias : Int) - f.mb

/-- The largest finite code, without the sign. -/
def Flt.maxCode (f : Flt) : Nat :=
  match f.top with
  | .ieee => (2 ^ f.eb - 1) * 2 ^ f.mb - 1
  | .e4m3 => 2 ^ (f.eb + f.mb) - 2
  | .plain => 2 ^ (f.eb + f.mb) - 1

/-- The exponent of the last binade's unit. -/
def Flt.qmax (f : Flt) : Int := f.qmin + (f.maxCode / 2 ^ f.mb : Nat) - 1

/-- The largest finite value in units of the last binade. -/
def Flt.nmax (f : Flt) : Nat := 2 ^ f.mb + f.maxCode % 2 ^ f.mb

/-- The value of a code (R183). -/
def Flt.decode (f : Flt) (x : Nat) : Num :=
  let mag := bits x 0 (f.eb + f.mb)
  let neg := bitAt x (f.eb + f.mb)
  let e := mag / 2 ^ f.mb
  let m := mag % 2 ^ f.mb
  if f.maxCode < mag then (if f.top == .ieee && m == 0 then .inf neg else .nan)
  else
    let n : Int := if e = 0 then m else 2 ^ f.mb + m
    .fin (if neg then -n else n) (f.qmin + (max e 1 : Nat) - 1)

/-- `m` × 2^`e` in units of 2^`q`, rounded to an integer: to nearest even, or with the draw `r` (R194, R196). -/
def roundTo (m e q : Int) (r : Option Nat) : Int :=
  if q ≤ e then m * 2 ^ (e - q).toNat
  else
    let k : Nat := (q - e).toNat
    let f := m.fdiv (2 ^ k)
    let rem := m - f * 2 ^ k
    if rem = 0 then f
    else match r with
      | none =>
        if 2 * rem < 2 ^ k then f else if 2 ^ k < 2 * rem then f + 1 else if f % 2 = 0 then f else f + 1
      | some d => if d < (rem * 2 ^ 32 / 2 ^ k).toNat then f + 1 else f

/-- |`m`| × 2^`e` is at least `n` × 2^`q`. -/
def atLeast (m e : Int) (n : Nat) (q : Int) : Bool :=
  if q ≤ e then decide (n ≤ m.natAbs * 2 ^ (e - q).toNat) else decide (n * 2 ^ (q - e).toNat ≤ m.natAbs)

/-- A finite value rounded onto a format: its code, and whether it lies beyond the largest finite value (R194). -/
def Flt.encode (f : Flt) (m e : Int) (r : Option Nat) : Nat × Bool :=
  if m = 0 then (0, false)
  else
    let q := min (max ((m.natAbs.log2 : Int) + e - f.mb) f.qmin) f.qmax
    let n := roundTo m e q r
    let far := match r with
      | none => atLeast m e (2 * f.nmax + 1) (f.qmax - 1)
      | some _ => decide (q = f.qmax) && decide (f.nmax < n.natAbs)
    let code := (q - f.qmin).toNat * 2 ^ f.mb + n.natAbs
    (if n = 0 then 0 else code + b2n (decide (m < 0)) * 2 ^ (f.eb + f.mb), far)

/-- Sign bit of a format. -/
def Flt.sign (f : Flt) (neg : Bool) : Nat := b2n neg * 2 ^ (f.eb + f.mb)

/-- The code of infinity. -/
def Flt.infCode (f : Flt) (neg : Bool) : Nat := (2 ^ f.eb - 1) * 2 ^ f.mb + f.sign neg

/-- The quiet NaN of Table 9.5. -/
def Flt.nanCode (f : Flt) : Nat := (2 ^ f.eb - 1) * 2 ^ f.mb + 2 ^ (f.mb - 1)

/-- The layout of a plain floating-point format code. -/
def fltOf (code : Nat) : Option Flt :=
  match code with
  | 0 => some fp32
  | 1 => some bf16
  | 2 => some fp16
  | 3 => some fp8e4m3
  | 4 => some fp8e5m2
  | _ => none

/-- An MX format code. -/
def isMx (code : Nat) : Bool := decide (5 ≤ code ∧ code ≤ 10)

/-- Element layout of an MX code; MXINT8 has none. -/
def mxFlt (code : Nat) : Option Flt :=
  match code with
  | 5 => some fp8e4m3
  | 6 => some fp8e5m2
  | 7 => some fp6e2m3
  | 8 => some fp6e3m2
  | 9 => some fp4e2m1
  | _ => none

/-- Element width in bits of an MX code (Table 9.2). -/
def mxBits (code : Nat) : Nat := match code with | 7 => 6 | 8 => 6 | 9 => 4 | _ => 8

/-- Block element bytes (Table 9.2). -/
def mxBytes (code : Nat) : Nat := 4 * mxBits code

/-- emax (Table 9.2). -/
def mxEmax (code : Nat) : Int := match code with | 5 => 8 | 6 => 15 | 7 => 2 | 8 => 4 | 9 => 2 | _ => 0

/-- Tile lines (Table 9.2). -/
def mxLines (code : Nat) : Nat := 1 + mxBytes code

/-- Element size in bytes of a format that is not MX (Table 8.3). -/
def elemBytes (code : Nat) : Nat := match code with | 0 => 4 | 1 => 2 | 2 => 2 | 12 => 4 | 13 => 16 | _ => 1

/-- Bytes of an operand of `n` elements (R174, R185). -/
def footprint (code n : Nat) : Nat :=
  if isMx code then
    let q := n % 2048 / 32
    64 * (n / 2048 * mxLines code + (if q = 0 then 0 else 1 + (q * mxBytes code + 63) / 64))
  else n * elemBytes code

/-- Byte of an operand at which element `i` starts; for an MX format, that of its block's element bytes (R185). -/
def elemAt (code i : Nat) : Nat :=
  if isMx code then i / 2048 * (64 * mxLines code) + 64 + i % 2048 / 32 * mxBytes code else i * elemBytes code

/-- Byte of an MX operand that holds the scale of element `i`'s block. -/
def scaleAt (code i : Nat) : Nat := i / 2048 * (64 * mxLines code) + i % 2048 / 32

/-! ### The exact accumulator (R187 to R189) -/

/-- What a 128-bit accumulator holds. -/
inductive AccVal where
  | fin (n : Int)
  | ovf
  | inf (neg : Bool)
  | nan
deriving DecidableEq, Repr, Inhabited

/-- The largest |N| (R187). -/
def accMax : Nat := 2 ^ 127 - 4

/-- The value a pattern holds; an invalid one is NaN (Table 9.3). -/
def accOf (x : BitVec 128) : AccVal :=
  let v := x.toNat
  if v ≤ accMax then .fin v
  else if v < 2 ^ 127 then .nan
  else match v - 2 ^ 127 with
    | 0 => .nan
    | 1 => .inf false
    | 2 => .inf true
    | 3 => .ovf
    | _ => .fin ((v : Int) - 2 ^ 128)

/-- Reading an invalid pattern sets NAN (R187). -/
def accInvalid (x : BitVec 128) : Bool := decide (accMax < x.toNat ∧ x.toNat < 2 ^ 127)

/-- The pattern of a value. -/
def AccVal.pattern : AccVal → BitVec 128
  | .fin n => BitVec.ofInt 128 n
  | .nan => BitVec.ofNat 128 (2 ^ 127)
  | .inf neg => BitVec.ofNat 128 (2 ^ 127 + 1 + b2n neg)
  | .ovf => BitVec.ofNat 128 (2 ^ 127 + 3)

/-- The value of an accumulator under an anchor. -/
def AccVal.num (a : AccVal) (anchor : Int) : Num :=
  match a with
  | .fin n => .fin n (anchor - 96)
  | .inf neg => .inf neg
  | .nan => .nan
  | .ovf => .ovf

/-- An integer on the grid, or OVF with its flag. -/
def gridFit (n : Int) : AccVal × BitVec 7 := if accMax < n.natAbs then (.ovf, flOverflow) else (.fin n, 0)

/-- An input mapped onto the grid of an anchor (R188). -/
def toGrid (anchor : Int) : Num → AccVal × BitVec 7
  | .fin m e =>
    let n := roundTo m e (anchor - 96) none
    let g := gridFit n
    (g.1, g.2 ||| (if n = 0 ∧ m ≠ 0 then flBelow else 0))
  | .inf neg => (.inf neg, flInf)
  | .nan => (.nan, flNan)
  | .ovf => (.ovf, 0)

/-- Accumulator combination (Table 9.4). -/
def accAdd (a b : AccVal) : AccVal × BitVec 7 :=
  match a, b with
  | .nan, _ => (.nan, 0)
  | _, .nan => (.nan, 0)
  | .inf x, .inf y => if x = y then (.inf x, 0) else (.nan, flNan)
  | .inf x, _ => (.inf x, 0)
  | _, .inf y => (.inf y, 0)
  | .ovf, _ => (.ovf, 0)
  | _, .ovf => (.ovf, 0)
  | .fin x, .fin y => gridFit (x + y)

/-! ### Binary32 (R199) -/

/-- The binary32 NaN. -/
def fNan : Nat := 0x7FC00000

/-- Sign of a binary32 pattern. -/
def fNeg (x : Nat) : Bool := bitAt x 31

/-- Round an exact value to binary32; `z` is the sign of a zero. -/
def fRound (m e : Int) (z : Bool) : Nat :=
  let c := fp32.encode m e none
  if c.2 then fp32.infCode (decide (m < 0))
  else if c.1 = 0 then fp32.sign (if m = 0 then z else decide (m < 0)) else c.1

/-- Product. -/
def fMul (a b : Nat) : Nat :=
  let neg := fNeg a != fNeg b
  match fp32.decode a, fp32.decode b with
  | .fin m1 e1, .fin m2 e2 => fRound (m1 * m2) (e1 + e2) neg
  | .inf _, .fin m _ => if m = 0 then fNan else fp32.infCode neg
  | .fin m _, .inf _ => if m = 0 then fNan else fp32.infCode neg
  | .inf _, .inf _ => fp32.infCode neg
  | _, _ => fNan

/-- Sum. -/
def fAdd (a b : Nat) : Nat :=
  match fp32.decode a, fp32.decode b with
  | .fin m1 e1, .fin m2 e2 =>
    let e := min e1 e2
    fRound (m1 * 2 ^ (e1 - e).toNat + m2 * 2 ^ (e2 - e).toNat) e (fNeg a && fNeg b)
  | .inf x, .inf y => if x = y then fp32.infCode x else fNan
  | .inf x, .fin _ _ => fp32.infCode x
  | .fin _ _, .inf y => fp32.infCode y
  | _, _ => fNan

/-- The pattern with its sign changed. -/
def fFlip (a : Nat) : Nat := if bits a 0 31 ≤ 0x7F800000 then (if fNeg a then a - 2 ^ 31 else a + 2 ^ 31) else fNan

/-- Difference. -/
def fSub (a b : Nat) : Nat := fAdd a (fFlip b)

/-- Quotient: enough bits and a sticky one. -/
def fDiv (a b : Nat) : Nat :=
  let neg := fNeg a != fNeg b
  match fp32.decode a, fp32.decode b with
  | .fin m1 e1, .fin m2 e2 =>
    if m2 = 0 then (if m1 = 0 then fNan else fp32.infCode neg)
    else
      let n := m1.natAbs * 2 ^ 96
      let q : Int := 2 * (n / m2.natAbs : Nat) + (b2n (decide (n % m2.natAbs ≠ 0)) : Nat)
      fRound (if neg then -q else q) (e1 - e2 - 97) neg
  | .fin _ _, .inf _ => fp32.sign neg
  | .inf _, .fin _ _ => fp32.infCode neg
  | _, _ => fNan

/-- The integer square root by bits. -/
def sqrtBits (n : Nat) : Nat → Nat → Nat
  | 0, r => r
  | k + 1, r => if (r + 2 ^ k) * (r + 2 ^ k) ≤ n then sqrtBits n k (r + 2 ^ k) else sqrtBits n k r

/-- Square root, correctly rounded. -/
def fSqrt (a : Nat) : Nat :=
  match fp32.decode a with
  | .fin m e =>
    if m = 0 then a
    else if m < 0 then fNan
    else
      let odd : Nat := (e % 2).toNat
      let n := m.natAbs * 2 ^ (64 + odd)
      let r := sqrtBits n 64 0
      fRound (2 * (r : Int) + (b2n (decide (r * r ≠ n)) : Nat)) ((e - odd - 64) / 2 - 1) false
  | .inf neg => if neg then fNan else a
  | _ => fNan

/-- Less-than of two binary32 values that are not NaN. -/
def fLess (a b : Nat) : Bool :=
  match fp32.decode a, fp32.decode b with
  | .fin m1 e1, .fin m2 e2 =>
    let e := min e1 e2
    decide (m1 * 2 ^ (e1 - e).toNat < m2 * 2 ^ (e2 - e).toNat)
  | .inf x, .inf y => x && !y
  | .inf x, .fin _ _ => x
  | .fin _ _, .inf y => !y
  | _, _ => false

/-- Power by repeated squaring (R200). -/
def fPow (b t : Nat) : Nat :=
  let rec go : Nat → Nat → Nat → Nat → Nat
    | 0, p, _, _ => p
    | n + 1, p, q, t => if t = 0 then p else go n (if t % 2 = 1 then fMul p q else p) (fMul q q) (t / 2)
  go 32 0x3F800000 b t

/-! ### Random bits (R197) -/

/-- mix. -/
def mix (z : BitVec 64) : BitVec 64 :=
  let a := (z ^^^ (z >>> 30)) * 0xBF58476D1CE4E5B9
  let b := (a ^^^ (a >>> 27)) * 0x94D049BB133111EB
  b ^^^ (b >>> 31)

/-- rbits. -/
def rbits (seed step index : BitVec 64) : BitVec 64 := mix (mix (mix (seed + 0x9E3779B97F4A7C15) ^^^ step) ^^^ index)

/-- The draw of an element under ROUND: none for round to nearest even (R196, R198). -/
def draw (round : Nat) (seed : BitVec 64) (step index : Nat) : Option Nat :=
  if round = 0 then none
  else some ((rbits seed (BitVec.ofNat 64 step) (BitVec.ofNat 64 index)) >>> 32).toNat

/-! ### Elements in and out -/

/-- The value of an element that is not MX, and the flag an invalid accumulator sets (R184, R187, R191). -/
def elemIn (code : Nat) (anchor : Int) (x : Nat) : Num × BitVec 7 :=
  match fltOf code with
  | some f => (f.decode x, 0)
  | none =>
    if code = 13 then ((accOf (BitVec.ofNat 128 x)).num anchor, if accInvalid (BitVec.ofNat 128 x) then flNan else 0)
    else (.fin (signed x (8 * elemBytes code)) 0, 0)

/-- A value scaled by a power of two. -/
def Num.scaled (x : Num) (k : Int) : Num :=
  match x with
  | .fin m e => .fin m (e + k)
  | y => y

/-- Element `i` of an MX block from its element bytes and scale (R184, R185). -/
def mxIn (code scale block i : Nat) : Num :=
  if scale = 0xFF then .nan
  else
    let x := bits block (mxBits code * i) (mxBits code)
    match mxFlt code with
    | some f => (f.decode x).scaled ((scale : Int) - 127)
    | none => .fin (signed x 8) (-6 + (scale : Int) - 127)

/-- Conversion to an integer format; half an ulp past its largest magnitude of a sign lies beyond (R194). -/
def intOut (w : Nat) (m e : Int) (r : Option Nat) : Nat × BitVec 7 :=
  let hi : Int := 2 ^ (w - 1) - 1
  let n := roundTo m e 0 r
  let far := match r with
    | none => atLeast m e (if 0 ≤ m then 2 ^ w - 1 else 2 ^ w + 1) (-1)
    | some _ => decide (hi < n ∨ n < -hi - 1)
  (unsigned (max (-hi - 1) (min hi n)) w, if far then flOverflow else 0)

/-- Conversion of a value to a format that is not MX (R194, Table 9.5): its bits and flags. -/
def elemOut (code : Nat) (anchor : Int) (r : Option Nat) (x : Num) : Nat × BitVec 7 :=
  if code = 13 then
    match x with
    | .fin _ _ => let g := toGrid anchor x; (g.1.pattern.toNat, g.2)
    | y => ((toGrid anchor y).1.pattern.toNat, 0)
  else match fltOf code with
    | some f =>
      match x with
      | .fin m e =>
        let c := f.encode m e r
        if c.2 then
          (if f.top == .e4m3 then f.maxCode + f.sign (decide (m < 0)) else f.infCode (decide (m < 0)), flOverflow)
        else (c.1, 0)
      | .inf neg => (if f.top == .e4m3 then 0x7F + f.sign neg else f.infCode neg, 0)
      | _ => (if f.top == .e4m3 then 0x7F else f.nanCode, 0)
    | none =>
      let w := 8 * elemBytes code
      match x with
      | .fin m e => intOut w m e r
      | .inf neg => (if neg then 2 ^ (w - 1) else 2 ^ (w - 1) - 1, 0)
      | _ => (0, 0)

/-- The exponent of a value's leading bit. -/
def Num.lead : Num → Option Int
  | .fin m e => if m = 0 then none else some ((m.natAbs.log2 : Int) + e)
  | _ => none

/-- A value that spoils an MX block. -/
def Num.special : Num → Bool
  | .fin _ _ => false
  | _ => true

/-- One element of an MX output after scaling: rounded and saturated (R195 step 4). -/
def mxElem (code : Nat) (r : Option Nat) (x : Num) : Nat :=
  match x with
  | .fin m e =>
    match mxFlt code with
    | some f =>
      let c := f.encode m e r
      if c.2 then f.maxCode + f.sign (decide (m < 0)) else c.1
    | none => unsigned (max (-128) (min 127 (roundTo m e (-6) r))) 8
  | _ => 0

/-- An MX block's scale, element bytes as one number, and flags (R195); `rs` gives each element's draw. -/
def mxOut (code : Nat) (xs : List Num) (rs : Nat → Option Nat) : Nat × Nat × BitVec 7 :=
  if xs.any Num.special then (0xFF, 0, 0)
  else match (xs.filterMap Num.lead).max? with
    | none => (0, 0, 0)
    | some l =>
      let x := l - mxEmax code + 127
      let c := max 0 (min 254 x)
      let block := (xs.zipIdx.map fun p =>
        mxElem code (rs p.2) (p.1.scaled (127 - c)) * 2 ^ (mxBits code * p.2)).sum
      (c.toNat, block, if 254 < x then flOverflow else 0)

/-! ### Native accumulation (R193) -/

/-- An input converted to binary32 for a native region. -/
def nativeIn (x : Num) : Nat × BitVec 7 :=
  match x with
  | .fin m e =>
    let c := fp32.encode m e none
    if c.2 then (fp32.infCode (decide (m < 0)), flOverflow) else (c.1, 0)
  | .inf neg => (fp32.infCode neg, flInf)
  | _ => (fNan, flNan)

/-- A binary32 pattern is finite. -/
def fFinite (x : Nat) : Bool := decide (bits x 0 31 < 0x7F800000)

/-- A binary32 pattern is NaN. -/
def fIsNan (x : Nat) : Bool := decide (0x7F800000 < bits x 0 31)

/-- Add an input to a native accumulator. -/
def nativeAdd (acc : Nat) (x : Num) : Nat × BitVec 7 :=
  let v := nativeIn x
  let s := fAdd acc v.1
  let past := fFinite acc && (fFinite v.1 && !fFinite s)
  let meet := fIsNan s && (!fIsNan acc && !fIsNan v.1)
  (s, v.2 ||| ((if past then flOverflow else 0) ||| (if meet then flNan else 0)))

/-- Add an input to an exact accumulator; an ACC128 pattern is added as it stands, without the flags of R188 (R191). -/
def exactAdd (anchor : Int) (acc : BitVec 128) (raw : Bool) (x : Num) : BitVec 128 × BitVec 7 :=
  let v := toGrid anchor x
  let a := accAdd (accOf acc) v.1
  (a.1.pattern, (if raw then 0 else v.2) ||| (a.2 ||| (if accInvalid acc then flNan else 0)))

end Sys2Proof.Machine
end

