-- ==== Sys2Proof/Machine/RegionOps.lean ====
section
/-! DEFINITION. Gangs and launches (08 R155 to R161), accumulation regions (R169, R170), and the REDUCE_WRITE of a host. -/

namespace Sys2Proof.Machine

/-! ### Gangs (R156) -/

/-- The lowest-numbered slice in service. -/
def State.firstSlice (s : State) : Nat := s.servingSlices.headD 0

/-- The head of a barrow's gang, or the barrow itself outside a gang. -/
def State.headOf (s : State) (b : Nat) : Nat :=
  let h := s.firstSlice * 512 + b % 512
  if (s.barrow h).gang then h else b

/-- Slices that hold a member of the head's gang; the head's own outside a gang. -/
def State.memberSlices (s : State) (head : Nat) : List Nat :=
  if (s.barrow head).gang && head / 512 == s.firstSlice then s.servingSlices else [head / 512]

/-- The barrow numbers of the members. -/
def State.memberBarrows (s : State) (head : Nat) : List Nat := (s.memberSlices head).map fun n => n * 512 + head % 512

/-- Slices in which a launch of a head runs (R156, R182). -/
def State.launchSlices (s : State) (head : Nat) (l : Launch) : List Nat := if l.gang then s.servingSlices else [head / 512]

/-- A barrow's launch runs in a slice. -/
def State.runsIn (s : State) (h slice : Nat) : Bool :=
  (s.barrow h).running.any fun r => h / 512 == slice || r.members.any fun m => m.slice == slice

/-- The barrow whose launch runs in a barrow's slice: its own, its gang's, or that of the gang it was in when the launch was accepted. -/
def State.runHead (s : State) (b : Nat) : Nat :=
  ((b :: s.headOf b :: (upTo 8).map fun n => n * 512 + b % 512).find? fun h => s.runsIn h (b / 512)).getD (s.headOf b)

/-- The barrow is DISABLED (Table 8.1). -/
def Barrow.disabled (b : Barrow) : Bool := !b.enable || b.lostSlice

/-- SET2_USED: a row of the barrow's program has SET = 2. -/
def State.set2Used (s : State) (b : Nat) : Bool :=
  let x := s.barrow b
  (s.slice (b / 512)).program.any fun p => decide (x.base ≤ p.1 ∧ p.1 ≤ x.last) && bits p.2.toNat 8 2 == 2

/-- A member of the gang has SET2_USED. -/
def State.gangSet2 (s : State) (head : Nat) : Bool := (s.memberBarrows head).any s.set2Used

/-! ### Launches (R155, R160, R161) -/

/-- Queue a launch on a head; answers its LAUNCH_SEQ, none when 16 are queued. -/
def State.queueLaunch (s : State) (head : Nat) (kind : LaunchKind) (host : Nat) (params : List Nat) : State × Option Nat :=
  let b := s.barrow head
  if 16 ≤ b.queue.length then (s, none)
  else
    let seq := (b.launchSeq + 1) % 2 ^ 32
    let l : Launch := {
      seq := seq, kind := kind, host := host, params := params, base := b.base, last := b.last, notify := b.notify
      cqOrder := b.cqOrder, cqBase := b.cqBase, budget := s.reg kDescBudget
      gang := b.gang && head / 512 == s.firstSlice, tenant := b.tenant, owner := b.owner, active := s.reg kActivePrograms }
    let s1 := s.updBarrow head fun b => { b with queue := b.queue ++ [l] }
    ((s.memberBarrows head).foldl (fun a m =>
      (a.updBarrow m fun b => { b with launchSeq := seq }).count .barrow m 0) s1, some seq)

/-- A trigger launch: with the standing parameters, once for each step number; a second is dropped and counted (R161). -/
def State.triggerLaunch (s : State) (head : Nat) (kind : LaunchKind) : State × Bool :=
  let b := s.barrow head
  if b.disabled then (s, false)
  else if b.lastTrigger = some s.time.step then (s.count .barrow head 3, false)
  else match s.queueLaunch head kind b.owner b.standing with
    | (s1, some _) => (s1.updBarrow head fun b => { b with lastTrigger := some s.time.step }, true)
    | (_, none) => (s, false)

/-! ### Accumulation regions -/

/-- Bytes of an accumulator. -/
def Region.size (r : Region) : Nat := if r.exact then 16 else 4

/-- Board offset of a region's first accumulator, and one past its last. -/
def Region.lo (r : Region) : Nat := bits r.base 0 44

/-- One past the region's last accumulator. -/
def Region.hi (r : Region) : Nat := r.lo + r.count * r.size

/-- Entry `i` of a slice's region table. -/
def SliceSt.region (x : SliceSt) (i : Nat) : Region := x.regions.get {} i

/-- Change entry `i`. -/
def State.updRegion (s : State) (slice i : Nat) (f : Region → Region) : State :=
  s.updSlice slice fun x => { x with regions := x.regions.upd {} i f }

/-- A region is freed; its sticky flags stay until the next ARM of its entry (09 R190). -/
def Region.freed (r : Region) : Region := { flags := r.flags }

/-- Flags that reads of a region's accumulators raise are sticky in the part that holds them (09 R187, R190): an address and its flags. -/
def State.stickReads (s : State) (xs : List (Nat × BitVec 7)) : State :=
  xs.foldl (fun a p =>
    if p.2 = 0 then a
    else
      let n := (a.sliceOf p.1).1
      ((a.slice n).regions.filter fun q => q.2.phase != .free && decide (bits q.2.base 0 44 ≤ p.1
        ∧ p.1 < bits q.2.base 0 44 + q.2.count * (if q.2.exact then 16 else 4))).foldl
        (fun b q => b.updRegion n q.1 fun r => { r with flags := r.flags ||| p.2.setWidth 4 }) a) s

/-- Entries of a slice that hold a byte range, or part of it. -/
def SliceSt.regionsAt (x : SliceSt) (lo hi : Nat) : List (Nat × Region) :=
  x.regions.filter fun p => p.2.phase != .free && decide (p.2.lo < hi ∧ lo < p.2.hi)

/-- The parts of a head's regions. -/
def State.partsOf (s : State) (head : Nat) : List (Nat × Nat × Region) :=
  (upTo 8).flatMap fun n => ((s.slice n).regions.filter fun p => p.2.phase != .free && p.2.barrow == head).map
    fun p => (n, p.1, p.2)

/-- Elements of a region whose accumulators a slice holds, E (Table 8.5). -/
def State.elemsIn (s : State) (slice lo count size : Nat) : Nat :=
  ((upTo count).filter fun i => (s.sliceOf (lo + i * size)).1 == slice).length

/-- Every bound region of the head has a part closed by count in every member (R170). -/
def State.regionsDone (s : State) (head : Nat) : Bool :=
  let parts := s.partsOf head
  !parts.isEmpty && (parts.all fun p => (s.memberSlices head).all fun n =>
    parts.any fun q => q.1 == n && (q.2.2.base == p.2.2.base && (q.2.2.phase == .closed && q.2.2.byCount)))

/-- Close a part by count when ADDS has reached EXPECT × E; the trigger launch of a completed barrow is then due (R161). -/
def State.closeByCount (s : State) (slice i : Nat) : State :=
  let r := (s.slice slice).region i
  if r.phase == .armed && decide (r.expect * r.elems ≤ r.adds) then
    let s1 := s.updRegion slice i fun r => { r with phase := .closed, byCount := true }
    if (s1.barrow r.barrow).trigRegion && s1.regionsDone r.barrow then
      s1.updBarrow r.barrow fun b => { b with regionDone := true }
    else s1
  else s

/-- Close every part of the region that starts at `base`, by other means than its count (R170) (DEDUCED, log 41). -/
def State.closeRegion (s : State) (head base : Nat) : State :=
  (s.partsOf head).foldl (fun a p => if p.2.2.base = base ∧ p.2.2.phase = .armed then
    a.updRegion p.1 p.2.1 fun r => { r with phase := .closed, byCount := false } else a) s

/-- The flags a slice's part puts into a flag register: its sticky flags, and SHORT when the part was not closed by count and
some member's ADDS is below EXPECT × E (R170, R190). -/
def State.partFlags (s : State) (head : Nat) (r : Region) : BitVec 7 :=
  let short := !r.byCount && ((s.partsOf head).any fun p =>
    p.2.2.base == r.base && decide (p.2.2.adds < p.2.2.expect * p.2.2.elems))
  r.flags.setWidth 7 ||| (if short then flShort else 0)

/-- Flags of a region entry in the order of Table 8.9. -/
def stickyFlags (f : BitVec 7) : BitVec 4 := f.setWidth 4

/-! ### Accumulation -/

/-- Bytes of a line replaced by `n` bytes of `v` from byte `b`. -/
def putBytes (l : Line) (b n v : Nat) : Line :=
  let mask : BitVec 512 := BitVec.ofNat 512 ((2 ^ (8 * n) - 1) * 2 ^ (8 * b))
  (l &&& ~~~mask) ||| (BitVec.ofNat 512 (v % 2 ^ (8 * n) * 2 ^ (8 * b)))

/-- `n` bytes of a line from byte `b`. -/
def getBytes (l : Line) (b n : Nat) : Nat := bits l.toNat (8 * b) (8 * n)

/-- Add elements to the accumulators of one line from byte `b` on. -/
def accLine (exact : Bool) (anchor : Int) (fmt b : Nat) (xs : List Num) (old : Line) : Line × BitVec 7 :=
  let n := if exact then 16 else 4
  xs.zipIdx.foldl (fun a p =>
    let at_ := b + n * p.2
    let v := getBytes a.1 at_ n
    let r := if exact then
        let e := exactAdd anchor (BitVec.ofNat 128 v) (fmt == 13) p.1
        (e.1.toNat, e.2)
      else nativeAdd v p.1
    (putBytes a.1 at_ n r.1, a.2 ||| r.2)) (old, 0)

/-- Elements cut into the runs that share a 64-byte line, with the byte offset of each run. -/
def lineRuns {α : Type} (size : Nat) : Nat → Nat → List α → List (Nat × List α)
  | 0, _, _ => []
  | fuel + 1, off, xs =>
    match xs with
    | [] => []
    | _ =>
      let k := max 1 ((64 - off % 64) / size)
      (off, xs.take k) :: lineRuns size fuel (off + k * size) (xs.drop k)

/-- The line at an offset can be merged into. -/
def State.mergeable (s : State) (off : Nat) : Bool :=
  !s.homeDown off && ((s.plainOf off (s.slotOf off) (s.stored off).decode).1 == .ok)

/-- Snapshots have room for the old content of these lines of one page. -/
def State.snapRoomFor (s : State) (offs : List Nat) : Bool :=
  let x := s.slice (s.sliceOf (offs.headD 0)).1
  decide (x.snapLines.length + (offs.map fun o => (x.snapNeeds o).length).sum ≤ 4096)

/-- Add an element to an accumulator that crosses a line boundary. -/
def State.accStraddle (s : State) (r : Region) (slice i off host fmt level : Nat) (x : Num) : State :=
  let o := off / 64 * 64
  let n := 64 - off % 64
  let a := s.readLine o host level
  let b := a.1.readLine (o + 64) host level
  let v := getBytes (s.plainOf o (s.slotOf o) a.2).2 (off % 64) n
    + getBytes (s.plainOf (o + 64) (s.slotOf (o + 64)) b.2).2 0 (r.size - n) * 2 ^ (8 * n)
  let f := if r.exact then
      let e := exactAdd r.anchor (BitVec.ofNat 128 v) (fmt == 13) x
      (e.1.toNat, e.2)
    else nativeAdd v x
  let w := b.1.modifyPlain o (s.slotOf o) host (fun l => putBytes l (off % 64) n f.1) level
  let w2 := w.1.modifyPlain (o + 64) (s.slotOf (o + 64)) host (fun l => putBytes l 0 (r.size - n) (f.1 / 2 ^ (8 * n))) level
  w2.1.updRegion slice i fun r => { r with flags := r.flags ||| stickyFlags f.2 }

/-- Add elements to a part's accumulators from board offset `off` on. Accumulation is never
mirrored (13 R269). Counts ADDS, the sticky flags and the element tallies (17 Table 17.1). -/
def State.accumulate (s : State) (slice i off host fmt : Nat) (xs : List Num) (level : Nat := 3) : State :=
  let r := (s.slice slice).region i
  let s1 := (lineRuns r.size xs.length off xs).foldl (fun a run =>
    let o := run.1 / 64 * 64
    if 64 < run.1 % 64 + r.size then run.2.foldl (fun b x => b.accStraddle r slice i run.1 host fmt level x) a
    else
    let f := accLine r.exact r.anchor fmt (run.1 % 64) run.2
    let w := a.modifyPlain o (a.slotOf o) host (fun l => (f l).1) level
    w.1.updRegion slice i fun r => { r with flags := r.flags ||| stickyFlags (f w.2.2.1).2 }) s
  let s2 := s1.updRegion slice i fun r => { r with adds := r.adds + xs.length }
  (s2.count .slice slice (fmt + (if r.exact then 0 else 16)) xs.length).closeByCount slice i

/-! ### REDUCE_WRITE (R170, 09 R186) -/

/-- The payload as one little-endian number. -/
def payloadNat (r : Req) : Nat := r.payload.zipIdx.foldl (fun a p => a + p.1.toNat * 2 ^ (512 * p.2)) 0

/-- Blocks of an MX payload: byte 63 of unit 0. -/
def mxCount (r : Req) : Nat := bits (payloadNat r) 504 8

/-- The payload obeys R186. -/
def reducePayloadOk (r : Req) : Bool :=
  if isMx r.mod then
    let p := payloadNat r
    let b := mxCount r
    let s := mxBytes r.mod
    decide (1 ≤ b ∧ b ≤ 32) && (decide (r.len = 1 + (b * s + 63) / 64)
      && ((bits p (8 * b) (8 * (63 - b)) == 0) && (p / 2 ^ (8 * (64 + b * s)) == 0)))
  else true

/-- The elements of a payload (R186). -/
def reduceElems (r : Req) : List Num :=
  let p := payloadNat r
  if isMx r.mod then
    (upTo (mxCount r)).flatMap fun k =>
      (upTo 32).map fun i => mxIn r.mod (bits p (8 * k) 8) (bits p (8 * (64 + k * mxBytes r.mod)) (8 * mxBytes r.mod)) i
  else
    let w := elemBytes r.mod
    (upTo (64 * r.len / w)).map fun i => (elemIn r.mod 0 (bits p (8 * w * i) (8 * w))).1

/-- The part that a REDUCE_WRITE's accumulators lie in, wholly within one 4 KiB page and starting on an accumulator. -/
def State.reduceTarget (s : State) (r : Req) : Option (Nat × Region) :=
  let off := s.localOff r
  (s.slice (s.sliceOf off).1).regions.find? fun p =>
    let n := (reduceElems r).length * p.2.size
    p.2.phase != .free && (decide (p.2.lo ≤ off ∧ off + n ≤ p.2.hi ∧ off % 4096 + n ≤ 4096)
      && ((off - p.2.lo) % p.2.size == 0))

/-- What a REDUCE_WRITE does in its slice. -/
def State.reduceWrite (s : State) (t : Trk) : State × Trk :=
  let r := t.req
  let off := s.localOff r
  let slice := (s.sliceOf off).1
  match s.reduceTarget r with
  | none => (s, { t with status := .accessDenied })
  | some (i, p) =>
    if p.phase == .closed then (s.count .stall t.stall 36, { t with status := .accessDenied })
    else if p.inFmt ≠ r.mod then (s, { t with status := .accessDenied })
    else
      let xs := reduceElems r
      let lines := (lineRuns p.size xs.length off xs).flatMap fun q =>
        if 64 < q.1 % 64 + p.size then [q.1 / 64 * 64, q.1 / 64 * 64 + 64] else [q.1 / 64 * 64]
      match lines.find? fun o => !s.mergeable o with
      | some o =>
        if s.homeDown o then (s, { t with status := .uncorrectable })
        else ((s.readLine o r.host).1, { t with status := .uncorrectable })
      | none =>
        if s.snapRoomFor lines then (s.accumulate slice i off r.host r.mod xs, t)
        else (s, { t with status := .retryBusy })

end Sys2Proof.Machine
end

