-- ==== Sys2Proof/Machine/BarrowOps.lean ====
section
/-! DEFINITION. Descriptors (08 R164 to R177): their fields, the checks at launch and at a descriptor's start, the operands'
lines as memory or a snapshot holds them, the lines written, and a member's way from row to row. -/

namespace Sys2Proof.Machine

/-! ### Fields (Table 8.2) -/

/-- A descriptor. -/
structure Desc where
  op : Nat
  set : Nat
  cond : Nat
  next : Nat
  alt : Nat
  loops : Nat
  loopStart : Nat
  adv : Nat
  snap : Nat
  mod : Nat
  inFmt : Nat
  outFmt : Nat
  auxFmt : Nat
  anchor : Int
  nanchor : Int
  psel : Nat
  count : Nat
  dst : Nat
  a : Nat
  b : Nat
  c : Nat
  imm : Nat
  expect : Nat
  round : Nat
deriving DecidableEq, Repr, Inhabited

/-- The fields of a row. -/
def descOf (x : BitVec 512) : Desc :=
  let v := x.toNat
  { op := bits v 0 8, set := bits v 8 2, cond := bits v 10 4, next := bits v 14 10, alt := bits v 24 10
    loops := bits v 34 12, loopStart := bits v 46 10, adv := bits v 56 4, snap := bits v 60 4, mod := bits v 64 4
    inFmt := bits v 68 4, outFmt := bits v 72 4, auxFmt := bits v 76 4, anchor := signed (bits v 80 8) 8
    nanchor := signed (bits v 88 8) 8, psel := bits v 96 16, count := bits v 112 32, dst := bits v 144 52
    a := bits v 196 52, b := bits v 248 52, c := bits v 300 52, imm := bits v 352 64, expect := bits v 416 32
    round := bits v 448 4 }

/-- The descriptor of a slice's program row. -/
def SliceSt.desc (x : SliceSt) (row : Nat) : Desc := descOf (x.program.get 0 row)

/-- Opcodes of Table 8.4. -/
def opFill : Nat := 0x01
/-- COPY. -/
def opCopy : Nat := 0x02
/-- COMPARE. -/
def opCompare : Nat := 0x03
/-- DIGEST. -/
def opDigest : Nat := 0x04
/-- REDUCE. -/
def opReduce : Nat := 0x05
/-- CAST. -/
def opCast : Nat := 0x06
/-- SCALE_ADD. -/
def opScaleAdd : Nat := 0x07
/-- UPDATE. -/
def opUpdate : Nat := 0x08
/-- SYNC. -/
def opSync : Nat := 0x10

/-- Bytes of an optimizer state record (Table 8.6). -/
def recordBytes (aux : Nat) : Nat := if aux = 0 then 16 else 8

/-- Bytes of an accumulator by AUX_FMT (R169). -/
def accBytes (aux : Nat) : Nat := if aux = 13 then 16 else 4

/-- Footprint in bytes of operand 0 DST, 1 SRC_A, 2 SRC_B, 3 SRC_C; 0 for one the opcode does not use. -/
def Desc.foot (d : Desc) (i : Nat) : Nat :=
  let n := d.count
  match d.op, i with
  | 0x01, 0 => 64 * n
  | 0x02, 0 => 64 * n
  | 0x02, 1 => 64 * n
  | 0x03, 1 => 64 * n
  | 0x03, 2 => 64 * n
  | 0x04, 0 => n
  | 0x04, 1 => 64 * n
  | 0x05, 0 => if d.mod = 2 ∨ d.mod = 3 then footprint d.outFmt n else 0
  | 0x05, 1 => n * accBytes d.auxFmt
  | 0x05, 2 => if d.mod = 1 then footprint d.inFmt n else 0
  | 0x06, 0 => footprint d.outFmt n
  | 0x06, 1 => footprint d.inFmt n
  | 0x07, 0 => footprint d.outFmt n
  | 0x07, 1 => footprint d.inFmt n
  | 0x07, 2 => if d.mod = 0 then footprint d.auxFmt n else 0
  | 0x08, 0 => footprint d.outFmt n
  | 0x08, 1 => footprint d.inFmt n
  | 0x08, 2 => n * recordBytes d.auxFmt
  | 0x08, 3 => 64
  | _, _ => 0

/-- The address field of an operand. -/
def Desc.field (d : Desc) (i : Nat) : Nat := match i with | 0 => d.dst | 1 => d.a | 2 => d.b | _ => d.c

/-- Effective address in iteration `it` of the block (R166, R174). -/
def Desc.ea (d : Desc) (params : List Nat) (it i : Nat) : Nat :=
  let p := bits d.psel (4 * i) 4
  let add := if p = 0 then 0 else params.getD (p - 1) 0
  (d.field i + add + (if bitAt d.adv i then it * d.foot i else 0)) % 2 ^ 52

/-- Format codes that the descriptor uses. -/
def Desc.formats (d : Desc) : List Nat :=
  match d.op with
  | 0x05 => match d.mod with
    | 0 => [d.inFmt]
    | 1 => [d.inFmt]
    | 2 => [d.outFmt]
    | 3 => [d.outFmt]
    | _ => []
  | 0x06 => [d.inFmt, d.outFmt]
  | 0x07 => [d.inFmt, d.outFmt] ++ (if d.mod = 0 then [d.auxFmt] else [])
  | 0x08 => [d.inFmt, d.outFmt]
  | _ => []

/-- The largest MOD of an opcode; none for an opcode that Table 8.4 does not list. -/
def modMax (op : Nat) : Option Nat :=
  match op with
  | 0x01 => some 0 | 0x02 => some 0 | 0x03 => some 0 | 0x04 => some 0 | 0x05 => some 4 | 0x06 => some 0
  | 0x07 => some 1 | 0x08 => some 3 | 0x10 => some 0 | _ => none

/-- The descriptor uses what only set 2 has (Table 8.4, R165). -/
def Desc.needsSet2 (d : Desc) : Bool :=
  d.formats.any isMx || ((d.op == opReduce && d.mod == 3) || (d.op == opUpdate && (d.mod == 2 || d.mod == 3)))

/-- A field's value is outside those listed for the opcode (R164, R165, R168) (DEDUCED, log 52). -/
def Desc.malformed (d : Desc) : Bool :=
  (match modMax d.op with
    | none => true
    | some m => decide (m < d.mod))
  || (d.set == 0 || (d.set == 3 || (d.set == 1 && d.needsSet2)))
  || (decide (7 < d.cond) || decide (1 < d.round))
  || (upTo 4).any (fun i => decide (8 < bits d.psel (4 * i) 4))
  || d.formats.any (fun f => decide (13 < f))
  || (d.op == opUpdate && decide (1 < d.auxFmt))
  || (d.op == opReduce && (d.mod == 0 && (d.auxFmt != 0 && d.auxFmt != 13)))
  || ((d.op != opReduce || d.mod == 1) && (d.formats.any isMx && decide (d.count % 32 ≠ 0)))

/-! ### Launch checks (R174, R175) -/

/-- Loop blocks of a program: (first row, last row). -/
def SliceSt.blocks (x : SliceSt) (base last : Nat) : List (Nat × Nat) :=
  ((upTo (last + 1)).drop base).filterMap fun r =>
    let d := x.desc r
    if d.op ≠ 0 ∧ d.loops ≠ 0 then some (d.loopStart, r) else none

/-- The block that a row lies in. -/
def SliceSt.blockOf (x : SliceSt) (base last row : Nat) : Option (Nat × Nat) :=
  (x.blocks base last).find? fun b => decide (b.1 ≤ row ∧ row ≤ b.2)

/-- The first row that fails the rules of R174. -/
def SliceSt.badRow (x : SliceSt) (base last : Nat) : Option Nat :=
  let bs := x.blocks base last
  match bs.find? fun b => decide (b.1 < base) || bs.any fun c => c != b && decide (b.1 ≤ c.2 ∧ c.2 ≤ b.2) with
  | some b => some b.2
  | none =>
    ((upTo (last + 1)).drop base).find? fun r =>
      let d := x.desc r
      let top := match bs.find? fun b => decide (b.1 ≤ r ∧ r < b.2) with
        | some b => b.2
        | none => last
      let ok := fun (t : Nat) => decide (r < t ∧ t ≤ top)
      d.op != 0 && (decide (r < d.loopStart) || (!ok d.next || (d.cond != 0 && !ok d.alt)))

/-- Footprints of the SNAP operands of a program over all iterations, as byte ranges (R177). -/
def SliceSt.snapFoot (x : SliceSt) (head base last : Nat) (params : List Nat) : List SnapRange :=
  ((upTo (last + 1)).drop base).flatMap fun r =>
    let d := x.desc r
    let its := match x.blockOf base last r with
      | some b => (x.desc b.2).loops + 1
      | none => 1
    [1, 2, 3].filterMap fun i =>
      if d.op ≠ 0 ∧ bitAt d.snap i = true ∧ d.foot i ≠ 0 then
        let lo := bits (d.ea params 0 i) 0 44
        some { barrow := head, lo := lo, hi := lo + d.foot i * (if bitAt d.adv i then its else 1) }
      else none

/-! ### Operand checks (R166) -/

/-- What an operand is for. -/
inductive Need where
  | source | dest | state | region | free | ring
deriving DecidableEq, Repr

/-- The launching host's rights serve. -/
def Need.allowed (n : Need) (r : Bool × Bool × Bool) : Bool :=
  match n with
  | .source => r.1
  | .dest => r.2.1
  | .state => r.1 && r.2.1
  | .region => r.2.2
  | .free => r.2.2
  | .ring => r.2.1

/-- The key slot serves; a source is read, everything else is written. -/
def Need.keyOk (n : Need) (k : KeySlot) : Bool :=
  match n with
  | .source => k.reads
  | .free => true
  | .ring => k.takes
  | _ => k.modifies

/-- One granule of an operand. -/
def State.operandGranule (s : State) (tenant host : Nat) (rights : Bool) (need : Need) (g : Nat) : Status :=
  let e := s.granule g
  if s.reach ≤ g ∨ e.phase = .free ∨ e.tenant ≠ tenant then .accessDenied
  else if rights && !((rightsIn s.pitch.acl e.acl host).any need.allowed) then .accessDenied
  else if e.phase != .granted || s.revoked e then .revoked
  else if !need.keyOk (s.key e.slot) then .keyRetired
  else if e.coherent then .accessDenied
  else if e.mirrored && (need == .region || need == .free) then .accessDenied
  else .ok

/-- The checks of an operand: the first granule that fails gives the status, as in R80. -/
def State.operandStatus (s : State) (tenant host : Nat) (rights : Bool) (need : Need) (ea n : Nat) : Status :=
  if n = 0 then .ok
  else if bits ea 44 8 ≠ s.board then .accessDenied
  else (((granulesOf (bits ea 0 44) n).map (s.operandGranule tenant host rights need)).find? (· ≠ .ok)).getD .ok

/-- The cause of an operand's status (Table 8.10). -/
def operandCause (st : Status) : Cause := if st = .revoked then .revoked else .operand

/-! ### Rings (R178, 11 R241) -/

/-- Write a 64-byte record into a ring under the rights of a host; answers the status of the checks. -/
def State.ringWrite (s : State) (tenant owner base order seq : Nat) (rec_ : Line) : State × Status :=
  let ea := (base * 64 + 64 * (seq % (16 * 2 ^ order))) % 2 ^ 52
  let st := s.operandStatus tenant owner true .ring ea 64
  if st = .ok then
    let off := bits ea 0 44
    if s.homeDown off then (s, .uncorrectable)
    else if !s.snapRoom off then (s, .retryBusy)
    else ((s.writePlain off (s.slotOf off) rec_ 5).1, .ok)
  else (s, st)

/-- WRAP of a record: 1 on odd passes of the ring. -/
def wrapBit (order seq : Nat) : Nat := seq / (16 * 2 ^ order) % 2

/-! ### Reading operands (R153, R176, R118) -/

/-- Lines read for a descriptor: by line number, whether the line has no data, and its plaintext. -/
abbrev Lines : Type := List (Nat × Bool × Line)

/-- A line as a source sees it: the snapshot's old copy for a SNAP operand, or memory. -/
def State.sourceLine (s : State) (head : Nat) (snap : Bool) (host line : Nat) : State × Bool × Line :=
  let off := line * 64
  let old := if snap then
      (s.slice (s.sliceOf off).1).snapLines.find? fun l => l.barrow == head && l.line == line
    else none
  match old with
  | some l =>
    let p := s.plainOf off (s.slotOf off) l.old.decode
    (s, p.1 != .ok, p.2)
  | none =>
    let r := s.readPlain off (s.slotOf off) host 5
    (r.1, r.2.1 != .ok, r.2.2)

/-- Line numbers that byte ranges touch, each once. -/
def linesOf (spans : List (Nat × Nat)) : List Nat :=
  (spans.flatMap fun p => if p.2 = 0 then [] else (upTo ((p.1 + p.2 - 1) / 64 - p.1 / 64 + 1)).map (p.1 / 64 + ·)).eraseDups

/-- Lines that other slices hold are reached through the crossbar: one packet waits at the input of each such slice, from source 48 and
on, the port of the member's slice (R167, 12 R264). -/
def State.remote (s : State) (slice head : Nat) (lines : List Nat) : State :=
  let others := (lines.map fun l => (s.sliceOf (l * 64)).1).eraseDups.filter (· ≠ slice)
  { s with xbar := { s.xbar with inWait := others.foldl (fun t n => t.upd [] n fun q => q ++ [(48 + slice, head)]) s.xbar.inWait } }

/-- Read the lines of byte ranges for a member in a slice. -/
def State.fetchLines (s : State) (slice head : Nat) (snap : Bool) (host : Nat) (spans : List (Nat × Nat)) : State × Lines :=
  let ls := linesOf spans
  ls.foldl (fun a l =>
    let r := a.1.sourceLine head snap host l
    (r.1, a.2 ++ [(l, r.2)])) (s.remote slice head ls, [])

/-- One line of those read. -/
def lineIn (t : Lines) (l : Nat) : Bool × Line := ((t.find? fun p => p.1 == l).map Prod.snd).getD (true, 0)

/-- `n` bytes from byte `off` as a little-endian number, and whether a line of them has no data. -/
def bytesIn (t : Lines) : Nat → Nat → Nat → Bool × Nat
  | 0, _, _ => (false, 0)
  | fuel + 1, off, n =>
    if n = 0 then (false, 0)
    else
      let l := lineIn t (off / 64)
      let k := min n (64 - off % 64)
      let r := bytesIn t fuel (off + k) (n - k)
      (l.1 || r.1, getBytes l.2 (off % 64) k + r.2 * 2 ^ (8 * k))

/-- `n` bytes, up to a page. -/
def pick (t : Lines) (off n : Nat) : Bool × Nat := bytesIn t 66 off n

/-! ### Writing (R117, R177) -/

/-- What a descriptor writes into a line: the bits it covers, their value, and whether the line is to be poisoned. -/
structure OutLine where
  mask : BitVec 512 := 0
  data : Line := 0
  bad : Bool := false
deriving DecidableEq, Repr, Inhabited

/-- Put `n` bytes of `v` at byte `off`. -/
def putOut (bad : Bool) : Nat → Nat → Nat → Nat → Tbl OutLine → Tbl OutLine
  | 0, _, _, _, t => t
  | fuel + 1, off, n, v, t =>
    if n = 0 then t
    else
      let k := min n (64 - off % 64)
      putOut bad fuel (off + k) (n - k) (v / 2 ^ (8 * k)) (t.upd {} (off / 64) fun o => {
        mask := putBytes o.mask (off % 64) k (2 ^ (8 * k) - 1)
        data := putBytes o.data (off % 64) k v
        bad := o.bad || bad })

/-- Put up to a page. -/
def put (off n v : Nat) (bad : Bool) (t : Tbl OutLine) : Tbl OutLine := putOut bad 66 off n v t

/-- How a descriptor ends: done, with a poisoned line, without snapshot room, or with the member where it stands. -/
inductive WriteEnd where
  | done | poisoned | full | wait
deriving DecidableEq, Repr

/-- Write one line. A line whose unit is stopped is not written, and a merge into a line without data leaves it poisoned. -/
def State.writeOut (s : State) (host : Nat) (line : Nat) (o : OutLine) : State × Option Nat × WriteEnd :=
  let off := line * 64
  if !s.snapRoom off then (s, none, .full)
  else if s.homeDown off then (s, none, .poisoned)
  else if o.bad then
    let w := s.poisonAt off 5
    (w.1, w.2, .poisoned)
  else if o.mask = BitVec.allOnes 512 then
    let w := s.writePlain off (s.slotOf off) o.data 5
    (w.1, w.2, .done)
  else
    let w := s.modifyPlain off (s.slotOf off) host (fun l => (l &&& ~~~o.mask) ||| (o.data &&& o.mask)) 5
    (w.1, w.2.2.2, if w.2.1 = .ok then .done else .poisoned)

/-- Write a descriptor's lines in ascending order, up to one that the snapshot buffer has no room for (R177). -/
def State.writeOuts (s : State) (host : Nat) : Tbl OutLine → State × Option Nat × WriteEnd
  | [] => (s, none, .done)
  | (l, o) :: r =>
    let w := s.writeOut host l o
    if w.2.2 = .full then w
    else
      let z := w.1.writeOuts host r
      (z.1, laterHseq w.2.1 z.2.1, if z.2.2 = .done then w.2.2 else z.2.2)

/-! ### Members -/

/-- The member of a running launch in a slice. -/
def State.member (s : State) (head slice : Nat) : Option Member :=
  (s.barrow head).running.bind fun r => r.members.find? fun m => m.slice == slice

/-- Change the member in a slice. -/
def State.updMember (s : State) (head slice : Nat) (f : Member → Member) : State :=
  s.updBarrow head fun b => { b with running := b.running.map fun r => { r with
    members := r.members.map fun m => if m.slice == slice then f m else m } }

/-- The member in a slice stops. -/
def State.stopMember (s : State) (head slice : Nat) (st : Status) (c : Cause) : State :=
  s.updBarrow head fun b => { b with running := b.running.map fun r => r.stopWhere (fun m => m.slice == slice) st c }

/-- COND holds in a member (Table 8.8). -/
def condHolds (cond : Nat) (flags : BitVec 7) (p0 : Nat) : Bool :=
  let dirty := flags &&& 0xF != 0
  match cond with
  | 0 => true
  | 1 => flags &&& flNe == 0
  | 2 => flags &&& flNe != 0
  | 3 => !dirty
  | 4 => dirty
  | 5 => flags &&& flShort == 0
  | 6 => p0 == 0
  | 7 => p0 != 0
  | _ => true

/-- A row is executed or skipped: it counts against the budget and in barrow row 5 (R175, R347). -/
def State.countRow (s : State) (head slice : Nat) : State :=
  (s.updMember head slice fun m => { m with rows := m.rows + 1 }).count .barrow (slice * 512 + head % 512) 5

/-- Control goes on from a row: to `target`, or round the loop (R174). -/
def State.goOn (s : State) (head slice : Nat) (d : Desc) (row target : Nat) : State :=
  s.updMember head slice fun m =>
    if d.loops = 0 then { m with row := target }
    else if m.iters.get 0 row < d.loops then
      { m with row := d.loopStart, iters := m.iters.set 0 row (m.iters.get 0 row + 1) }
    else { m with row := d.next, iters := m.iters.set 0 row 0 }

/-- Everything a descriptor's meaning goes by; `page` is the page of the driving operand that the member processes. -/
structure Ctx where
  head : Nat
  slice : Nat
  m : Member
  run : Running
  d : Desc
  it : Nat
  first : Nat
  host : Nat
  tenant : Nat
  page : Nat := 0
deriving DecidableEq, Repr, Inhabited

/-- Iterations done of the block that a row lies in. -/
def State.iterOf (s : State) (m : Member) (l : Launch) (slice : Nat) : Nat :=
  match (s.slice slice).blockOf l.base l.last m.row with
  | some b => m.iters.get 0 b.2
  | none => 0

/-- The context of a member that has a row to run, or a page of one: it waits at no SYNC, and for a new row its earlier writes are performed
and its budget is not used up (R167, R175). -/
def State.ctx (s : State) (barrow slice : Nat) : Option Ctx :=
  let head := s.runHead barrow
  match (s.barrow head).running, s.member head slice with
  | some r, some m =>
    if m.ended || (m.atSync.isSome || (m.work.isNone && (!s.halCovered m.hseq || decide (r.launch.budget ≤ m.rows)))) then none
    else
      let d := (s.slice slice).desc m.row
      let it := s.iterOf m r.launch slice
      some {
        head := head, slice := slice, m := m, run := r, d := d, it := it
        first := if bitAt d.adv 0 then it * d.count else 0
        host := r.launch.host, tenant := r.launch.tenant }
  | _, _ => none

/-- The context with its member as it stands now. -/
def State.again (s : State) (c : Ctx) : Ctx := { c with m := (s.member c.head c.slice).getD c.m }

/-- Effective address of operand `i`. -/
def Ctx.ea (c : Ctx) (i : Nat) : Nat := c.d.ea c.run.launch.params c.it i

/-- Board offset of operand `i`. -/
def Ctx.off (c : Ctx) (i : Nat) : Nat := bits (c.ea i) 0 44

/-- Operand `i` is a snapshot input. -/
def Ctx.snap (c : Ctx) (i : Nat) : Bool := bitAt c.d.snap i

/-- The draw for element `i` of this iteration (R172, R198). -/
def Ctx.draw (c : Ctx) (i : Nat) : Option Nat := Sys2Proof.Machine.draw c.d.round c.run.seed c.run.step (c.first + i)

/-- Set flags in the member's register. -/
def State.setFlags (s : State) (c : Ctx) (f : BitVec 7) : State :=
  s.updMember c.head c.slice fun m => { m with flags := m.flags ||| f }

/-- Row of the slice tally for an opcode: the row order of Table 8.4. -/
def descRow (op : Nat) : Nat := if op = opSync then 41 else 32 + op

/-- Count elements or lines in barrow row 6. -/
def State.countElems (s : State) (c : Ctx) (n : Nat) : State := s.count .barrow (c.slice * 512 + c.head % 512) 6 n

/-- What the checks at a descriptor's start say: a status and a cause, or nothing wrong. -/
abbrev Start : Type := Option (Status × Cause)

/-- MALFORMED. -/
def badStart : Start := some (.accessDenied, .malformed)

/-- The checks of a list of operands: (need, operand, bytes); the first that fails gives the status (R166). -/
def State.startStatus (s : State) (c : Ctx) (ops : List (Need × Nat × Nat)) : Start :=
  let st := ((ops.map fun o => s.operandStatus c.tenant c.host true o.1 (c.ea o.2.1) o.2.2).find? (· ≠ .ok)).getD .ok
  if st = .ok then none else some (st, operandCause st)

/-- Key slots of the operands: their uses are counted (15 R316). -/
def State.countUses (s : State) (c : Ctx) (ops : List (Need × Nat × Nat)) : State :=
  ((ops.flatMap fun o => (granulesOf (c.off o.2.1) o.2.2).map fun g => (s.granule g).slot).eraseDups).foldl
    (fun a k => a.count .key k 0) s

/-- What an opcode does: what its start finds and which operands it has, what it does at once when its start passes, the pages of its
driving operand, what it does on one of them (R167), and what it does at its end, with the way its writes ended. -/
structure Kernel where
  start : State → Ctx → Start × List (Need × Nat × Nat) := fun _ _ => (none, [])
  enter : State → Ctx → State := fun s _ => s
  pages : State → Ctx → List Nat := fun _ _ => []
  page : State → Ctx → State × WriteEnd := fun s _ => (s, .done)
  leave : State → Ctx → State × WriteEnd := fun s _ => (s, .done)

/-- A descriptor whose pages are all done: a line without data that it met ends the member (Table 8.10). -/
def State.endDesc (s : State) (c : Ctx) (k : Kernel) (bad : Bool) : State :=
  let w := k.leave (s.updMember c.head c.slice fun m => { m with work := none }) c
  if w.2 = .wait then w.1
  else if bad then w.1.stopMember c.head c.slice .poison .poisoned
  else w.1.goOn c.head c.slice c.d c.m.row c.d.next

/-- One page of a descriptor at work, and its end with the last one (R167, R179) (DESIGN CHOICE, log 51). -/
def State.runPage (s : State) (c0 : Ctx) (k : Kernel) : State :=
  let c := s.again c0
  match c.m.work with
  | none => s
  | some w =>
    match w.pages with
    | [] => s.endDesc c k w.bad
    | p :: rest =>
      let f := s.sramRead 0x0C c.slice (c.head % 512) c.host c.tenant
      if f.2 then f.1.stopMember c.head c.slice .uncorrectable .storeError
      else
        let r := k.page (f.1.pipePush c.slice 5 c.head 0) { c with page := p }
        if r.2 = .full then r.1.stopMember c.head c.slice .retryBusy .snapFull
        else
          let bad := w.bad || r.2 == .poisoned
          let t := r.1.updMember c.head c.slice fun m => { m with work := m.work.map fun x => { x with pages := rest, bad := bad } }
          if rest.isEmpty then t.endDesc (t.again c) k bad else t

/-- Granules that operands touch. -/
def Ctx.grans (c : Ctx) (ops : List (Need × Nat × Nat)) : List Nat :=
  (ops.flatMap fun o => granulesOf (c.off o.2.1) o.2.2).eraseDups

/-- A new row of a member: one whose COND fails is skipped, one that is malformed ends the member (R174, R179); else the start's checks,
and the first page. -/
def State.startDesc (s : State) (c : Ctx) (mine : Desc → Bool) (k : Kernel) : State :=
  let d := c.d
  if decide (d.op ≠ 0) && (decide (d.cond ≤ 7) && !condHolds d.cond c.m.flags (c.run.launch.params.getD 0 0)) then
    if mine d || d.malformed then (s.countRow c.head c.slice).goOn c.head c.slice d c.m.row d.alt else s
  else if decide (d.op ≠ 0) && d.malformed then (s.countRow c.head c.slice).stopMember c.head c.slice .accessDenied .malformed
  else if !mine d then s
  else
    let s1 := (s.countRow c.head c.slice).count .slice c.slice (descRow d.op)
    let b := k.start s1 c
    match b.1 with
    | some (st, cause) => s1.stopMember c.head c.slice st cause
    | none =>
      let s2 := (s1.countUses c b.2).updMember c.head c.slice fun m => { m with work := some { grans := c.grans b.2 } }
      let s3 := k.enter s2 (s2.again c)
      let ps := k.pages s3 (s3.again c)
      (s3.updMember c.head c.slice fun m => { m with work := m.work.map fun x => { x with pages := ps } }).runPage c k

/-- A descriptor of a member: `mine` says whether the row is the command's. One at work goes on with its next page; a new row is read
from the program store, where an uncorrectable error ends the member (06 Table 6.1). -/
def State.descriptor (s : State) (barrow slice : Nat) (mine : Desc → Bool) (k : Kernel) : State :=
  match s.ctx barrow slice with
  | none => s
  | some c =>
    if c.m.work.isSome then (if mine c.d then s.runPage c k else s)
    else
      let f := s.sramRead 0x0B slice c.m.row c.host c.tenant
      if f.2 then f.1.stopMember c.head slice .uncorrectable .storeError else f.1.startDesc c mine k

/-- Write a descriptor's lines and remember the last packet forwarded. -/
def State.finishWrites (s : State) (c : Ctx) (t : Tbl OutLine) (bad : Bool) : State × WriteEnd :=
  let w := (s.remote c.slice c.head (t.map Prod.fst)).writeOuts c.host t
  (w.1.updMember c.head c.slice fun m => { m with hseq := laterHseq m.hseq w.2.1 },
    if w.2.2 = .full then .full else if bad then .poisoned else w.2.2)

/-! ### The elements a member processes (R167) -/

/-- Runs of `u` elements, each the member's whose slice holds the page of its first driving byte. -/
def State.mineOf (s : State) (slice base n u : Nat) (pos : Nat → Nat) : List Nat :=
  (upTo ((n + u - 1) / u)).filter fun k => (s.sliceOf (base + pos (u * k))).1 == slice

/-- The pages that they begin in. -/
def State.pagesOf (s : State) (c : Ctx) (base n u : Nat) (pos : Nat → Nat) : List Nat :=
  ((s.mineOf c.slice base n u pos).map fun k => (base + pos (u * k)) / 4096).eraseDups

/-- Those that begin in the page being processed. -/
def State.onPage (s : State) (c : Ctx) (base n u : Nat) (pos : Nat → Nat) : List Nat :=
  (s.mineOf c.slice base n u pos).filter fun k => (base + pos (u * k)) / 4096 == c.page

/-- A source overlaps a region's accumulators: the region that holds a byte range, on any slice. -/
def State.regionHit (s : State) (lo hi : Nat) : List Region :=
  (upTo 8).flatMap fun n => ((s.slice n).regionsAt lo hi).map Prod.snd

/-- A descriptor that reads a region's accumulators closes the part of its member's slice at its start, and that part's flags
enter the member's register (R170, R173). Where the slice has no part of it, all its parts close. -/
def State.closeRead (s : State) (c : Ctx) (off n : Nat) : State :=
  (s.regionHit off (off + n)).foldl (fun a r =>
    match (a.partsOf r.barrow).find? fun p => p.1 == c.slice && p.2.2.base == r.base with
    | some p =>
      if p.2.2.phase = .armed then
        let b := a.updRegion p.1 p.2.1 fun r => { r with phase := .closed, byCount := false }
        b.setFlags c (b.partFlags r.barrow ((b.slice c.slice).region p.2.1))
      else a
    | none => a.closeRegion r.barrow r.base) s

/-- The anchor of an ACC128 source (R191). -/
def State.anchorOf (s : State) (c : Ctx) (off n : Nat) : Int :=
  match (s.regionHit off (off + 1)).find? fun r => decide (r.lo ≤ off ∧ off + n ≤ r.hi) with
  | some r => r.anchor
  | none => c.d.anchor

/-! ### Elements in memory -/

/-- Byte ranges that elements `i` to `i + n - 1` of an operand occupy, with an MX block's scale byte. -/
def elemSpans (code off i n : Nat) : List (Nat × Nat) :=
  if isMx code then [(off + elemAt code i, mxBytes code), (off + scaleAt code i, 1)]
  else [(off + elemAt code i, n * elemBytes code)]

/-- The values of elements `i` to `i + n - 1` (a whole block for MX), whether a line of them has no data, and flags. -/
def readElems (t : Lines) (code : Nat) (anchor : Int) (off i n : Nat) : List (Num × Bool) × BitVec 7 :=
  if isMx code then
    let blk := pick t (off + elemAt code i) (mxBytes code)
    let sc := pick t (off + scaleAt code i) 1
    ((upTo 32).map fun j => (mxIn code sc.2 blk.2 j, blk.1 || sc.1), 0)
  else
    (upTo n).foldl (fun a j =>
      let x := pick t (off + elemAt code (i + j)) (elemBytes code)
      let v := elemIn code anchor x.2
      (a.1 ++ [(v.1, x.1)], if x.1 then a.2 else a.2 ||| v.2)) ([], 0)

/-- The flags of the units read, at the address of the first element of each. -/
def readFlags (code off u : Nat) (ks : List Nat) (vals : Nat → List (Num × Bool) × BitVec 7) : List (Nat × BitVec 7) :=
  ks.map fun k => (off + elemAt code (u * k), (vals k).2)

/-- Write elements `i` on (a whole block for MX) of DST; a bad element makes its lines poisoned. Answers the flags. -/
def writeElems (c : Ctx) (code off i : Nat) (xs : List (Num × Bool)) (t : Tbl OutLine) : Tbl OutLine × BitVec 7 :=
  if isMx code then
    let bad := xs.any Prod.snd
    let o := mxOut code (xs.map Prod.fst) fun j => c.draw (i + j)
    (put (off + scaleAt code i) 1 o.1 bad (put (off + elemAt code i) (mxBytes code) o.2.1 bad t),
      if bad then 0 else o.2.2)
  else
    xs.zipIdx.foldl (fun a p =>
      let o := elemOut code c.d.anchor (c.draw (i + p.2)) p.1.1
      (put (off + elemAt code (i + p.2)) (elemBytes code) o.1 p.1.2 a.1, if p.1.2 then a.2 else a.2 ||| o.2)) (t, 0)

/-- Elements of a run: 32 where an MX format is used, else 1. -/
def Desc.unit (d : Desc) : Nat := if d.formats.any isMx then 32 else 1

/-- A tile's zero padding behind the last block, and the scale bytes of blocks that are not there (R185). -/
def padOut (code off n : Nat) (t : Tbl OutLine) : Tbl OutLine :=
  let q := n % 2048 / 32
  if isMx code ∧ q ≠ 0 then
    let tile := off + n / 2048 * (64 * mxLines code)
    let used := 64 + q * mxBytes code
    put (tile + used) ((64 - used % 64) % 64) 0 false (put (tile + q) (64 - q) 0 false t)
  else t

/-- Binary32 pattern of an element converted by R194 with ROUND 0 (R199). -/
def toF32 (x : Num) : Nat × BitVec 7 := elemOut 0 0 none x

end Sys2Proof.Machine
end

