-- ==== Sys2Proof/Machine/Stalls.lean ====
section
/-! DEFINITION. The stall commands (04): attach, detach, fence, the stall table, and the board number (01 R14). -/

namespace Sys2Proof.Machine

/-! ### Attach -/

/-- The stall an attach takes: the named one, or the lowest-numbered FREE stall. -/
def State.attachTarget (s : State) : Option Nat :=
  let want := s.reg kAttachStall
  if want = 0xFFFF then (upTo 1024).find? fun n => (s.stall n).phase == .free
  else if want < 1024 ∧ (s.stall want).phase = .free then some want else none

/-- RESULT of an attach that is refused and its stall when it is accepted (R71, Table 4.6). -/
def State.attachCheck (s : State) : Nat × Nat :=
  let host := s.reg kAttachHost
  if (s.stalls.any fun p => decide (p.1 < 1024) && (p.2.phase != .free && p.2.host == host)) then (5, 0)
  else match s.attachTarget with
    | none => (6, 0)
    | some st => if s.mayAdvance (s.stall st).advances then (0, st) else (7, 0)

/-- An accepted attach (R71): the epoch advances, tag cache and reorder state clear, host and links are set (switch links that the
manager wrote in the FREE row stay), both credits are
0 (12 R247), and ATTACHED is sent. -/
def State.attachStall (s : State) (st : Nat) : State :=
  let host := s.reg kAttachHost
  let x := s.stall st
  let ep := x.epoch + 1
  let s1 := s.updStall st fun x => { x with
    phase := .attached, epoch := ep, host := host, linkSet := x.linkSet ||| s.hostLinks host, caps := 0, next := 0, firstSeen := true
    ahead := [], held := [], tags := [], advances := s.advanced x.advances, crierQ := [], wasFenced := false }
  let s2 := s1.recomputeCaps st
  let s3 := s2.updShaper st fun r => { r with creditIn := 0, creditOut := 0, upTo := s2.time.ao }
  (s3.tellStall st).crier 8 0x04 st (ep.toNat + host * 2 ^ 16) [host]

/-- What the write that `execAttach` names does, once it is accepted. -/
def actAttach (_ : Nat) (s : State) : State × Ans :=
  match s.attachCheck with
  | (0, st) =>
    let s1 := s.attachStall st
    (s1.setReg kAttachResult ((s1.stall st).epoch.toNat * 2 ^ 16 + st), done 0)
  | (r, _) => (s.setReg kAttachResult (r * 2 ^ 24), done r)

/-- ATTACH (R71): a refused attach leaves its code in ATTACH_RESULT. -/
def execAttach (f : Frame) (v : Nat) (s : State) : Result :=
  .next (s.write f kAttachGo 1 v actAttach)

/-! ### Detach and fence -/

/-- The entry names a stall as holder or sharer. -/
def State.dirNames (s : State) (slice st : Nat) (e : DirEntry) : Bool :=
  let base := s.stallBase (s.lineOff slice e.line)
  ((e.phase == .owned || e.phase == .pennant) && e.holder == st)
    || (decide (base ≤ st ∧ st < base + 1024) && (if e.coarse then e.sharers.getLsbD (st % 1024 / 16)
      else e.pointers.contains (st % 1024)))

/-- Begin the detach of a stall (R75, 07 R151, 11 R239): held packets are answered FENCED, branches pruned, and the lines an ATTACHED stall holds are
recalled. -/
def State.detachStall (s : State) (st : Nat) : State :=
  let x := s.stall st
  let s1 := ((s.updStall st fun y => { y with phase := .detaching, held := [], crierQ := [] }).answerHeld st x.held).pruneStall st
  let s2 := if x.phase = .attached then
      (upTo 8).foldl (fun a n => a.recallWhere n (fun e => a.dirNames n st e) (.detach st) fun b _ => b) s1
    else s1
  let s3 := s2.cohGoAll
  if decide (st < 1024) || s3.pair.activeSide then s3.tellStall st else s3

/-- What the write that `execDetach` names does, once it is accepted. -/
def actDetach (st : Nat) (s : State) : State × Ans :=
  if st < 1024 ∧ ((s.stall st).phase = .attached ∨ (s.stall st).phase = .fenced) then (s.detachStall st, {})
  else (s, refuse 3)

/-- DETACH (R75): refused with REASON 3 unless the stall is ATTACHED or FENCED. -/
def execDetach (f : Frame) (stall : Nat) (s : State) : Result :=
  .next (s.write f kDetach 2 stall actDetach)

/-- Tracker entries or recalls of a stall remain. -/
def State.stallBusy (s : State) (st : Nat) : Bool :=
  (upTo 8).any fun n =>
    ((s.slice n).trackerOf st != 0) || ((s.slice n).txns.any fun x => x.cause == .detach st)

/-- DETACH_COMPLETE (R75): with its last tracker entry freed the stall goes to FREE, its LINK_SET is cleared, DETACHED is
raised; tallies and epoch stay. -/
def execDetachComplete (stall : Nat) (s : State) : Result :=
  .next (if (s.stall stall).phase = .detaching ∧ s.stallBusy stall = false then
    let host := (s.stall stall).host
    let s1 := s.updStall stall fun x => { x with phase := .free, linkSet := 0, wasFenced := false }
    (if decide (stall < 1024) || s1.pair.activeSide then s1.tellStall stall else s1).crier 8 0x05 stall host
  else s)

/-- What the write that `execFence` names does, once it is accepted. -/
def actFence (st : Nat) (s : State) : State × Ans :=
  if st < 1024 ∧ (s.stall st).phase = .attached then (s.fenceStall st 1, {}) else (s, refuse 3)

/-- FENCE (R73): refused with REASON 3 unless the stall is ATTACHED. -/
def execFence (f : Frame) (stall : Nat) (s : State) : Result :=
  .next (s.write f kFence 2 stall actFence)

/-- HOST_DEAD (R73): an ATTACHED stall none of whose links has been up for HEARTBEAT_TIMEOUT is fenced. -/
def execHostDead (stall : Nat) (s : State) : Result :=
  .next (if (s.stall stall).phase = .attached ∧ s.liveLinks stall = [] then s.fenceStall stall 2 else s)

/-! ### The stall table -/

/-- Key of STALL_TABLE. -/
def kStallTable : Nat := 0x401000

/-- The link is a direct host link (R72). -/
def State.hostLink (s : State) (n : Nat) : Bool := (s.link n).isUp && (s.link n).kind == 0

/-- A LINK_SET write sets a bit that the manager may not set: of a direct host link, or of a link to another board (R72). -/
def State.linkSetBad (s : State) (st v : Nat) : Bool :=
  (upTo 48).any fun n => bitAt v n && (!(s.stall st).linkSet.getLsbD n
    && (s.hostLink n || ((s.link n).isUp && (s.link n).kind == 2)))

/-- LINK_SET after a write: direct host links keep the board's bit (R72). -/
def State.linkSetNew (s : State) (st v : Nat) : BitVec 48 :=
  BitVec.ofNat 48 ((upTo 48).foldl (fun a n =>
    a + (if (if s.hostLink n then (s.stall st).linkSet.getLsbD n else bitAt v n) then 2 ^ n else 0)) 0)

/-- Write one row of STALL_TABLE: ORDER_MODE, STRICT_TC and LINK_SET (Tables 4.1 and 4.2); the reserved mode 3 is refused
(DEDUCED, log 35). -/
def State.writeStallRow (st v : Nat) (s : State) : State × Nat :=
  if bits v 60 2 = 3 then (s, 2)
  else if s.linkSetBad st (v / 2 ^ 64) then (s, 3)
  else
    let s1 := s.updStall st fun x => { x with
      orderMode := bits v 60 2, strictTc := BitVec.ofNat 8 (bits v 52 8), linkSet := s.linkSetNew st (v / 2 ^ 64) }
    ((s1.recomputeCaps st).tellStall st, 0)

/-- STALL_TABLE_WRITE (R72). -/
def execStallTableWrite (f : Frame) (row : Nat) (rows : List Nat) (s : State) : Result :=
  .next (s.writeWindow f kStallTable 16 row rows fun r v s => State.writeStallRow r v s)

/-- BOARD_NUMBER may not change while a pitch is GRANTED or REVOKING, a grant is being written, or a move is open (01 R14). -/
def State.boardNumberFixed (s : State) : Bool :=
  (s.pitch.table.any fun q => q.2.phase == .granted || q.2.phase == .revoking)
    || (s.pitch.grantRun.isSome || (s.pair.moveIn.isSome || s.pair.moveOut.isSome))

/-- What the write that `execBoardNumberWrite` names does, once it is accepted. -/
def actBoardNumberWrite (v : Nat) (s : State) : State × Ans :=
  if s.boardNumberFixed then (s, refuse 3) else storeEntry kBoardNumber v s

/-- BOARD_NUMBER_WRITE (01 R14): refused with REASON 3 while the number is fixed. -/
def execBoardNumberWrite (f : Frame) (v : Nat) (s : State) : Result :=
  .next (s.write f kBoardNumber 1 v actBoardNumberWrite)

end Sys2Proof.Machine
end

