-- ==== Sys2Proof/Machine/Barrows.lean ====
section
/-! DEFINITION. Barrows and their launches (08): the tables, triggers, the launch cycle, END, SYNC, the budget, completion and
aborts. -/

namespace Sys2Proof.Machine

/-! ### The barrow table (R156 to R158) -/

/-- Key of BARROW_TABLE. -/
def kBarrowTable : Nat := 0x701100

/-- The RWP fields of a row (Table 8.1). -/
def Barrow.withRow (b : Barrow) (v : Nat) : Barrow :=
  { b with
    tenant := bits v 10 8, acl := bits v 18 14, owner := bits v 32 12, base := bits v 44 10, last := bits v 54 10
    gang := bitAt v 64, trigRegion := bitAt v 65, trigSchedule := bitAt v 66, notify := bitAt v 67, enable := bitAt v 68
    cqOrder := bits v 80 4, cqBase := bits v 128 46 }

/-- The role fields differ: the write reassigns the barrow (R158). -/
def Barrow.reassigned (a b : Barrow) : Bool := a.tenant != b.tenant || (a.acl != b.acl || a.owner != b.owner)

/-- STATE of a barrow, its gang head's launches counting for every member (R156). -/
def State.barrowState (s : State) (b : Nat) : Nat :=
  let h := s.barrow (s.headOf b)
  let x := s.barrow b
  Barrow.stateCode { x with queue := h.queue ++ x.queue, running := (s.barrow (s.runHead b)).running.or h.running }

/-- Free the regions bound to a barrow (R158). -/
def State.freeBound (s : State) (b : Nat) : State :=
  (upTo 8).foldl (fun a n => a.updSlice n fun x => { x with regions := x.regions.map fun p =>
    if p.2.phase != .free && p.2.barrow == b then (p.1, p.2.freed) else p }) s

/-- Members that a head's row is copied to: the gang's with GANG set, else the barrow itself. -/
def State.rowTargets (s : State) (b : Nat) (gang : Bool) : List Nat :=
  if gang && b / 512 == s.firstSlice then s.servingSlices.map fun n => n * 512 + b % 512 else [b]

/-- Write one row of BARROW_TABLE: refused with 3 on a member that is not the head, for a reassignment while QUEUED or
RUNNING, and under R64; with 2 for a program that ends before it begins, a CQ_ORDER above 12, or an access list above
16,383's end. -/
def State.writeBarrow (b v : Nat) (s : State) : State × Nat :=
  let new := fun (x : Barrow) => x.withRow v
  let old := s.barrow b
  if s.headOf b ≠ b then (s, 3)
  else if (new old).last < (new old).base ∨ 12 < (new old).cqOrder then (s, 2)
  else
    let ts := s.rowTargets b (new old).gang
    let moved := ts.filter fun t => (s.barrow t).reassigned (new (s.barrow t))
    if (moved.any fun t => decide (2 ≤ s.barrowState t)) then (s, 3)
    else if (moved.any fun t => !s.mayAdvance (s.barrow t).advances) then (s, 3)
    else
      let s1 := moved.foldl (fun a t => (a.freeBound t).updBarrow t fun x => { x with
        epoch := x.epoch + 1, advances := s.advanced x.advances }) s
      (ts.foldl (fun a t => a.updBarrow t new) s1, 0)

/-- BARROW_TABLE_WRITE (R156 to R158). -/
def execBarrowTableWrite (f : Frame) (row : Nat) (rows : List Nat) (s : State) : Result :=
  .next (s.writeWindow f kBarrowTable 32 row rows fun r v s => State.writeBarrow r v s)

/-! ### The program store (R163) -/

/-- Bits of a row that the store keeps: SNAP bit 60 and bits 511 to 452 are RSVD (Table 8.2). -/
def descMask : BitVec 512 := BitVec.ofNat 512 (2 ^ 452 - 1 - 2 ^ 60)

/-- A row lies in the range of a barrow of the slice that is QUEUED or RUNNING, or of one of its launches. -/
def State.rowInUse (s : State) (slice row : Nat) : Bool :=
  (upTo 512).any fun i =>
    let b := slice * 512 + i
    let h := s.barrow (s.headOf b)
    let x := s.barrow b
    let run := (s.barrow (s.runHead b)).running
    (decide (2 ≤ s.barrowState b) && decide (x.base ≤ row ∧ row ≤ x.last))
      || (h.queue ++ (x.queue ++ run.toList.map (·.launch))).any fun l => decide (l.base ≤ row ∧ row ≤ l.last)

/-- Write one row. -/
def State.writeProgram (slice row v : Nat) (s : State) : State × Nat :=
  if s.rowInUse slice row then (s, 3)
  else ((s.sramWrite 0x0B slice row).updSlice slice fun x => { x with
    program := x.program.set 0 row (BitVec.ofNat 512 v &&& descMask) }, 0)

/-- PROGRAM_STORE_WRITE (R163). -/
def execProgramStoreWrite (f : Frame) (slice row : Nat) (rows : List Nat) (s : State) : Result :=
  .next (s.writeWindow f (0x701000 + slice) 64 row rows fun r v s => State.writeProgram slice r v s)

/-! ### Completion (R178, Table 8.9) -/

/-- Code of a completion cause (Table 8.10). -/
def Cause.code : Cause → Nat
  | .none => 0 | .operand => 1 | .malformed => 2 | .poisoned => 3 | .storeError => 4 | .revoked => 5 | .keyRetiring => 6
  | .budget => 7 | .snapFull => 8 | .regionFull => 9 | .memberLost => 10 | .aborted => 11

/-- What a completion record says beside the launch. -/
structure Completion where
  status : Status
  cause : Cause
  row : Nat
  epoch : Nat
  step : Nat
  phase : Nat
  slices : Nat
  contrib : Option Nat
  flags : BitVec 7
  res0 : Nat
  res1 : Option Nat
deriving DecidableEq, Repr

/-- The record of Table 8.9. -/
def Completion.record (c : Completion) (head : Nat) (l : Launch) (time : BitVec 128) : Line :=
  BitVec.ofNat 512 (l.seq % 2 ^ 32 + head % 4096 * 2 ^ 32 + c.status.code * 2 ^ 44 + c.cause.code * 2 ^ 52
    + c.row % 1024 * 2 ^ 60 + c.epoch % 256 * 2 ^ 70 + wrapBit l.cqOrder l.seq * 2 ^ 78 + c.step % 2 ^ 48 * 2 ^ 80
    + c.phase % 2 ^ 16 * 2 ^ 128 + c.slices % 2 ^ 64 * 2 ^ 144 + c.contrib.getD (2 ^ 32 - 1) % 2 ^ 32 * 2 ^ 208
    + c.flags.toNat * 2 ^ 240 + c.res0 % 2 ^ 64 * 2 ^ 256 + c.res1.getD (2 ^ 64 - 1) % 2 ^ 64 * 2 ^ 320
    + time.toNat * 2 ^ 384)

/-- Trees bound to a barrow that start with its launches wait for their places (11 R232). -/
def State.wakeTrees (s : State) (head : Nat) (c : Completion) : State :=
  s.mapTrees fun t =>
    if t.valid && (t.onLaunch && (s.headOf t.barrow == head && t.phase == .idle)) then
      { t with phase := .waiting, fromLaunch := some (c.status, c.step, c.phase) }
    else t

/-- A launch completes: the record, DONE_SEQ, the tallies, PROGRAM_DONE, and the trees of R232. -/
def State.finishLaunch (s : State) (head : Nat) (l : Launch) (c : Completion) : State :=
  let region := head / 512
  let w := s.ringWrite l.tenant l.owner l.cqBase l.cqOrder l.seq (c.record head l (s.stamp region))
  let s1 := ((head :: (s.launchSlices head l).map fun n => n * 512 + head % 512).eraseDups).foldl (fun a m =>
    ((a.updBarrow m fun b => { b with doneSeq := l.seq }).count .barrow m 1).count .barrow m 7 (b2n (c.status != .ok))) w.1
  let lost := w.2 != .ok
  let s2 := if l.notify || lost then
      s1.crier region 0x13 head (l.seq % 2 ^ 32 + c.status.code * 2 ^ 32 + c.cause.code * 2 ^ 40 + b2n lost * 2 ^ 48) [l.host]
    else s1
  if lost then s2 else s2.wakeTrees head c

/-- What a launch's record says, from its members. -/
def Running.completion (r : Running) : Completion where
  status := (r.members.map (·.status)).foldl Status.join .ok
  cause := (r.first.map Prod.snd).getD .none
  row := match r.first with
    | some f => f.1
    | none => (r.members.head?.map (·.lastRow)).getD 0
  epoch := r.epoch.toNat
  step := r.step
  phase := r.phase
  slices := (upTo 8).foldl (fun a n => a + (match r.members.find? fun m => m.slice == n with
    | some m => m.status.code
    | none => 0xFF) * 2 ^ (8 * n)) 0
  contrib := r.contrib
  flags := r.members.foldl (fun a m => a ||| m.flags) 0
  res0 := (r.members.map (·.res0)).sum
  res1 := (r.members.filterMap (·.res1)).min?

/-- Snapshot ranges and lines of a launch free. -/
def State.freeSnaps (s : State) (head : Nat) : State :=
  (upTo 8).foldl (fun a n => a.updSlice n fun x => { x with
    snapRanges := x.snapRanges.filter fun r => r.barrow != head
    snapLines := x.snapLines.filter fun r => r.barrow != head }) s

/-- LAUNCH_COMPLETE (R178): every member has ended, and every write of the launch has been performed. -/
def execLaunchComplete (barrow : Nat) (s : State) : Result :=
  .next (
    let head := s.runHead barrow
    match (s.barrow head).running with
    | none => s
    | some r =>
      if r.members.all fun m => m.ended && s.halCovered m.hseq then
        let s1 := (s.freeSnaps head).updBarrow head fun b => { b with running := none }
        s1.finishLaunch head r.launch r.completion
      else s)

/-! ### Aborts (R179) -/

/-- What the record of a launch says that ends unstarted. -/
def unstarted : Completion where
  status := .revoked
  cause := .aborted
  row := 0
  epoch := 0
  step := 0
  phase := 0
  slices := 2 ^ 64 - 1
  contrib := none
  flags := 0
  res0 := 0
  res1 := none

/-- Queued launches end unstarted, each with its record, and no place is kept for them (DEDUCED, log 53). -/
def State.endQueued (s : State) (head : Nat) : State :=
  let q := (s.barrow head).queue
  let s1 := (upTo 8).foldl (fun a n => a.updSlice n fun x => { x with keeps := x.keeps.filter (· ≠ head) }) s
  q.foldl (fun a l => a.finishLaunch head l { unstarted with epoch := (a.barrow head).epoch.toNat })
    (s1.updBarrow head fun b => { b with queue := [] })

/-- The abort of a barrow: queued launches end unstarted, and every member stops (R179, Table 8.10). -/
def State.abortBarrow (s : State) (head : Nat) : State := (s.endQueued head).updBarrow head fun b => b.stopAll .revoked .aborted

/-- The abort of the launches of a barrow's gang, and of those of its own that it accepted outside the gang (R182). -/
def State.abortAll (s : State) (b : Nat) : State :=
  let heads := [b, s.headOf b, s.runHead b].eraseDups
  heads.foldl (fun a h => a.abortBarrow h) s

/-- What the write that `execBarrowAbort` names does, once it is accepted. -/
def actBarrowAbort (v : Nat) (s : State) : State × Ans :=
  if 4096 ≤ v then (s, refuse 2)
  else (s.abortAll v, {})

/-- BARROW_ABORT (R158, R179, Table 8.10): queued launches end unstarted, and every member stops. -/
def execBarrowAbort (f : Frame) (v : Nat) (s : State) : Result :=
  .next (s.write f kBarrowAbort 2 v actBarrowAbort)

/-! ### Launches (R161, R162) -/

/-- TRIGGER_LAUNCH (R161): a barrow all of whose bound regions have closed by count launches with its standing
parameters. -/
def execTriggerLaunch (barrow : Nat) (s : State) : Result :=
  .next (
    let head := s.headOf barrow
    if (s.barrow head).regionDone then
      let s1 := s.updBarrow head fun b => { b with regionDone := false }
      if (s1.barrow head).trigRegion then (s1.triggerLaunch head .trigger).1 else s1
    else s)

/-- Launches running in a slice. -/
def State.activeIn (s : State) (n : Nat) : Nat :=
  (s.barrows.filter fun p => p.2.running.any fun r => r.members.any fun m => m.slice == n).length

/-- A bound tree is WAITING or RUNNING: the barrow's launches stay queued (11 R233). -/
def State.heldByTree (s : State) (head : Nat) : Bool :=
  s.trees.any fun p => p.2.valid && (s.headOf p.2.barrow == head && p.2.phase != .idle)

/-- Snapshot ranges of a launch over all its members, each once (DEDUCED, log 19). -/
def State.launchRanges (s : State) (head : Nat) (l : Launch) : List SnapRange :=
  ((s.launchSlices head l).flatMap fun n => (s.slice n).snapFoot head l.base l.last l.params).eraseDups

/-- The ranges of a launch fit in every slice (R177). -/
def State.rangesFit (s : State) (head : Nat) (l : Launch) : Bool :=
  s.servingSlices.all fun n => decide ((s.slice n).snapRanges.length + (s.launchRanges head l).length ≤ 64)

/-- The barrow's next launch may start but for its places: no member runs one, no bound tree holds it, and outside a gang its ranges
fit. -/
def State.mayRun (s : State) (head : Nat) : Bool :=
  match (s.barrow head).queue with
  | [] => false
  | l :: _ =>
    !(s.barrow head).lostSlice && (!s.heldByTree head && ((l.gang || s.rangesFit head l)
      && (s.launchSlices head l).all fun n => (s.slice n).inService && (s.barrow (s.runHead (n * 512 + head % 512))).running.isNone))

/-- A slice has a free place for a barrow's next launch: places kept for other gangs are not free (R162). -/
def State.hasPlace (s : State) (head n : Nat) : Bool :=
  match (s.barrow head).queue with
  | [] => false
  | l :: _ => decide (s.activeIn n + ((s.slice n).keeps.filter (· ≠ head)).length < l.active)

/-- A slice's pointer may pick the launch of a barrow of an index: the barrow's own or its gang's, with no place kept yet. -/
def State.wants (s : State) (n i : Nat) : Bool :=
  [s.headOf (n * 512 + i), n * 512 + i].any fun h => s.mayRun h && (s.hasPlace h n && (!(s.slice n).keeps.contains h
    && ((s.barrow h).queue.head?.any fun l => (s.launchSlices h l).contains n)))

/-- A slice gives a barrow's next launch a place: one kept for it, or a free one when its rotating pointer over the barrows picks it
(R162). -/
def State.gets (s : State) (head n : Nat) : Bool :=
  (s.slice n).keeps.contains head
    || (s.hasPlace head n && rotate 512 (s.slice n).barrowPtr (s.wants n) == some (head % 512))

/-- The barrow's next launch can start: every member's slice gives it a place, and its ranges fit. -/
def State.canStart (s : State) (head : Nat) : Bool :=
  match (s.barrow head).queue with
  | [] => false
  | l :: _ => s.mayRun head && (s.rangesFit head l && (s.launchSlices head l).all (s.gets head))

/-- A gang's members with a free place keep it for the gang (R162). -/
def State.keepPlaces (s : State) (head : Nat) (l : Launch) : State :=
  (s.launchSlices head l).foldl (fun a n =>
    if s.gets head n && !(s.slice n).keeps.contains head then
      a.updSlice n fun x => { x with keeps := x.keeps ++ [head], barrowPtr := (head % 512 + 1) % 512 }
    else a) s

/-- CONTRIB: the lowest complete contribution count of the regions closed at launch (Table 8.9). -/
def State.contribOf (s : State) (head : Nat) : Option Nat :=
  ((s.partsOf head).filterMap fun p => if p.2.2.phase = .closed ∧ p.2.2.elems ≠ 0 then some (p.2.2.adds / p.2.2.elems) else none).min?

/-- Flags that the launch cycle places in the register of the member in a slice: those of its own parts, SHORT as for the
whole region. -/
def State.launchFlags (s : State) (head n : Nat) : BitVec 7 :=
  ((s.partsOf head).filter fun p => p.1 == n && p.2.2.phase == .closed).foldl
    (fun a p => a ||| s.partFlags head { p.2.2 with
      byCount := (s.partsOf head).all fun q => q.2.2.base != p.2.2.base || q.2.2.byCount }) 0

/-- The launch cycle (R162, R174, R176): regions close, flags, STEP, PHASE and the seed are latched, and a program with a row
that fails R174 ends before any descriptor runs. -/
def State.launchCycle (s : State) (head : Nat) (l : Launch) : State :=
  let slices := s.launchSlices head l
  let ranges := s.launchRanges head l
  let s1 := s.servingSlices.foldl (fun a n => a.updSlice n fun x => { x with snapRanges := x.snapRanges ++ ranges }) s
  let s2 := slices.foldl (fun a n => a.updSlice n fun x => { x with
    barrowPtr := (head % 512 + 1) % 512, keeps := x.keeps.filter (· ≠ head) }) s1
  let s3 := slices.foldl (fun a n =>
    (a.resetTally 3 (n * 512 + head % 512) 5).resetTally 3 (n * 512 + head % 512) 6) s2
  let s4 := if l.kind = .schedule then
      ((s3.partsOf head).map fun p => p.2.2.base).eraseDups.foldl (fun a base => a.closeRegion head base) s3
    else s3
  let bad := slices.findSome? fun n => (s4.slice n).badRow l.base l.last
  let member := fun (n : Nat) =>
    let m : Member := { slice := n, row := l.base, flags := s4.launchFlags head n }
    match bad with
    | some r => { m with ended := true, status := .accessDenied, cause := .malformed, row := r, lastRow := r }
    | none => m
  s4.updBarrow head fun b => { b with
    queue := b.queue.drop 1
    running := some {
      launch := l, epoch := b.epoch, step := s4.time.step, phase := s4.time.mphase, seed := s4.seeds.get 0 l.tenant
      contrib := s4.contribOf head
      first := bad.map fun r => (r, Cause.malformed)
      members := slices.map member } }

/-- LAUNCH_START (R162): the launch starts, or members of a gang with a free place keep it. -/
def execLaunchStart (barrow : Nat) (s : State) : Result :=
  .next (match (s.barrow barrow).queue with
    | [] => s
    | l :: _ =>
      if s.canStart barrow then s.launchCycle barrow l
      else if l.gang && s.mayRun barrow then s.keepPlaces barrow l
      else s)

/-! ### END, SYNC and the budget (R168, R172, R175) -/

/-- END (R168): the program ends in the member. -/
def execDescEnd (barrow slice : Nat) (s : State) : Result :=
  .next (s.descriptor barrow slice (fun d => d.op == 0) {
    leave := fun s c => (s.stopMember c.head c.slice .ok .none, .wait) })

/-- SYNC (R172): the member waits; outside a gang SYNC completes at once. -/
def execDescSync (barrow slice : Nat) (s : State) : Result :=
  .next (s.descriptor barrow slice (isDesc' opSync) {
    leave := fun s c =>
      if c.run.launch.gang then (s.updMember c.head c.slice fun m => { m with atSync := some m.row }, .wait)
      else (s.updMember c.head c.slice fun m => { m with syncNorm := some m.norm }, .done) })
where
  /-- The row has this opcode. -/
  isDesc' (op : Nat) (d : Desc) : Bool := d.op == op

/-- The exact sum of the members' norm registers, with its flags (R172, R203). -/
def normSum (ms : List Member) : BitVec 128 × BitVec 7 :=
  ms.foldl (fun a m =>
    let r := accAdd (accOf a.1) (accOf m.norm.acc)
    (r.1.pattern, a.2 ||| r.2)) (0, 0)

/-- SYNC_COMPLETE (R172): every member has reached the same SYNC row or ended, with its writes performed. Different rows, or
norm registers of different anchors, end the launch MALFORMED. -/
def execSyncComplete (barrow : Nat) (s : State) : Result :=
  .next (
    let head := s.runHead barrow
    match (s.barrow head).running with
    | none => s
    | some r =>
      let ms := r.members.filter fun m => !m.ended
      let rows := (ms.filterMap (·.atSync)).eraseDups
      let anchors := (ms.filterMap fun m => m.norm.anchor).eraseDups
      if ms.isEmpty || (ms.any (fun m => m.atSync.isNone) || r.members.any fun m => !s.halCovered m.hseq) then s
      else if 1 < rows.length ∨ 1 < anchors.length then
        s.updBarrow head fun b => b.stopAll .accessDenied .malformed
      else
        let sum := normSum ms
        let flags := ms.foldl (fun a m => a ||| m.flags) sum.2
        let norm : Norm := { anchor := anchors.head?, acc := sum.1 }
        ms.foldl (fun a m =>
          let d := (a.slice m.slice).desc m.row
          (a.updMember head m.slice fun m => { m with
            atSync := none, flags := flags, norm := norm, syncNorm := some norm }).goOn head m.slice d m.row d.next) s)

/-- DESC_BUDGET_EXCEEDED (R175): a member with its budget used up and a row still to run ends with TIMEOUT. -/
def execDescBudgetExceeded (barrow : Nat) (s : State) : Result :=
  .next (
    let head := s.runHead barrow
    s.updBarrow head fun b => { b with
      running := b.running.map fun r => r.stopWhere (fun m => decide (r.launch.budget ≤ m.rows) && (m.atSync.isNone && m.work.isNone))
        .timeout .budget })

end Sys2Proof.Machine
end

