-- ==== Sys2Proof/Machine/ResetOps.lean ====
section
/-! DEFINITION. A board reset (20 R386 to R389): what flash keeps, what the always-on block keeps, and what clears. -/

namespace Sys2Proof.Machine

/-- The flash repair lists of the channels (06 R127), which no reset clears. -/
def State.flashChans (s : State) : Tbl ChanSt :=
  s.chans.foldl (fun t p => t.set {} p.1 ({ flashRows := p.2.flashRows } : ChanSt)) []

/-- The channels after a reset other than power-on: the devices still hold their content (DEDUCED, log 27). -/
def State.heldChans (s : State) : Tbl ChanSt :=
  s.chans.foldl (fun t p => t.set {} p.1 ({ flashRows := p.2.flashRows, mem := p.2.mem } : ChanSt)) []

/-- Security after any reset: the flash ring and its chain stay, the buffer's SRAM is cleared (06 R121), the SEQ goes on from
the ring (DEDUCED, log 27). -/
def State.secAfterReset (s : State) : SecSt := {
  tenants := tenantsDefault
  ring := s.sec.ring
  head := s.sec.head
  chain := s.sec.chain
  flashSeqWord := s.sec.flashSeqWord
  nextSeq := match s.sec.head with
    | some h => h + 1
    | none => 0
  draws := s.sec.draws
  sigs := s.sec.sigs }

/-- The links after a reset: one that could transmit sends LINK_DOWN with reason DISABLED (R386 step 3) (DEDUCED, log 34). -/
def State.linksAfterReset (s : State) : Tbl LinkSt :=
  s.links.foldl (fun t p =>
    if p.2.isUp then
      t.set {} p.1 ({ downUntil := s.time.ticks + 1000, downReason := 4 } : LinkSt)
    else t) []

/-- What every reset, power-on included, leaves: State.reset with flash, the pins, and the model's own fields. -/
def State.fromFlash (s : State) : State :=
  { State.reset with
    pending := s.pending
    free := s.free
    chans := s.flashChans
    links := s.linksAfterReset
    sec := s.secAfterReset
    mgmt := { profiles := s.mgmt.profiles, records := s.mgmt.records }
    repair := {
      retiredUnits := s.repair.retiredUnits, clearAtReset := s.repair.clearAtReset, laneSubs := s.repair.laneSubs }
    boot := { bootCount := s.boot.bootCount, bootSlot := s.boot.bootSlot, fw0 := s.boot.fw0, fw1 := s.boot.fw1 }
    pair := { presentHigh := s.pair.presentHigh, presentSince := s.pair.presentSince } }

/-- The always-on clock and servo across a reset: step and phase read 0, held MARKs are dropped (Table 20.1). -/
def TimeSt.kept (t : TimeSt) : TimeSt :=
  { t with
    step := 0, mphase := 0, heldMarks := [], fallback := false, schedule := [], schedStaged := []
    linkOffset := [], sync := none, t1t2 := none, delayReq := none }

/-- A reset other than power-on, with its RESET_CAUSE (R386, Table 20.1): AO_TIME, the tallies with the stretch counts, the crier ring with CRIER_HEAD,
the fault log with FAULT_SEQ and LEDGER_LOST stay. Memory keeps its content until the clear of bring-up. -/
def State.boardReset (s : State) (cause : Nat) : State :=
  let b := s.fromFlash
  { b with
    chans := s.heldChans
    time := s.time.kept
    obs := { tally := s.obs.tally, ring := s.obs.ring, head := s.obs.head }
    sec := { b.sec with lost := s.sec.lost, lostPending := s.sec.lostPending }
    repair := { b.repair with faultLog := s.repair.faultLog, faultSeq := s.repair.faultSeq }
    power := {
      inputOn := s.power.inputOn, precharged := s.power.precharged, warning := s.power.warning, railMv := s.power.railMv
      railDa := s.power.railDa, feedsTripped := s.power.feedsTripped }
    clock := { b.clock with stretch := s.clock.stretch }
    boot := { b.boot with cause := cause } }

/-- The rails except 1–4 go off (18 R364, 21 R412): the die loses its state and its links go dark; the standby and always-on
rails keep what a reset keeps. It stays so until RESET_N or a power cycle. -/
def State.goDark (s : State) : State :=
  let b := s.boardReset s.boot.cause
  { b with
    chans := s.flashChans
    links := []
    repair := { b.repair with coresUp := false }
    power := { b.power with railsOn := 0x1F, dark := true, thermFault := s.power.thermFault } }

/-- Power-on (R387): everything that is not in flash clears, and AO_TIME starts at 0 in state FREE. -/
def State.powerReset (s : State) : State := { s.fromFlash with links := [] }

end Sys2Proof.Machine
end

