-- ==== Sys2Proof/Machine/PowerOps.lean ====
section
/-! DEFINITION. Shared operations of power (18), clocks (19) and temperature (21): POWER faults, the B0 and B1 transitions, the
core divider's ramps, and a reference failure's recovery. -/

namespace Sys2Proof.Machine

/-! ### Faults that make the board unfit -/

/-- The rails except 1–4 go off: at once, or on a board that relinquishes in the cc after STREAM_END (21 R412, DEDUCED, log 30). -/
def State.railsOff (s : State) : State :=
  match s.pair.relinq with
  | some r =>
    if r.handback then s.goDark else { s with pair := { s.pair with relinq := some { r with thenRails := true } } }
  | none => s.goDark

/-- A POWER fault that disables nothing (18 R364, 14 R303). -/
def State.powerFault (s : State) : State := (s.fault 9 0x0B 0 0 (s.actionUnfit actNone)).unfit relSelfDiag

/-- A fault that stops the board: POWER of a rail, or THERMAL (14 R303). -/
def State.stoppingFault (s : State) (cls : Nat) : State :=
  ((s.fault 9 cls 0 0 (s.actionUnfit actStopped)).unfit relSelfDiag).railsOff

/-! ### The core divider (19 R377 to R379) -/

/-- Begin a ramp of the core divider: the stretch counts of the host port and of every slice advance. -/
def State.rampCore (s : State) (target : Nat) : State :=
  let s1 := { s with clock := { s.clock with target := target } }
  ((upTo 8).foldl (fun a n => a.beginRamp n) s1).beginRamp 8

/-! ### B0 and B1 (18 R369, R370) -/

/-- A power transition waits: one runs, or the core clock recovers from a reference failure (19 R384). -/
def State.powerBusy (s : State) : Bool := s.power.step != .none || s.clock.source == .alwaysOn || s.coreRamping

/-- Begin a transition: to B1 by the ramp down, to B0 by the request for 0.75 V. -/
def State.beginPower (s : State) (toB1 : Bool) : State :=
  if toB1 then ({ s with power := { s.power with step := .rampDown } } : State).rampCore 20
  else { s with power := { s.power with step := .raiseVolt } }

/-- Ask for a state: held while a transition runs, and a wake is held while a warning holds B1 (21 R412); a request for the state
reached does nothing. -/
def State.askPower (s : State) (toB1 : Bool) : State :=
  if s.powerBusy || (s.power.thermWarn && !toB1) then { s with power := { s.power with heldWant := some toB1 } }
  else
    let s1 := { s with power := { s.power with heldWant := none } }
    if toB1 = s1.power.b1 then s1 else s1.beginPower toB1

/-- The request held acts once nothing holds it. -/
def State.heldPower (s : State) : State :=
  match s.power.heldWant with
  | none => s
  | some w => if s.powerBusy || (s.power.thermWarn && !w) then s else s.askPower w

/-- A transition has ended in a state. -/
def State.powerReached (s : State) (b1 : Bool) : State :=
  ({ s with power := { s.power with step := .none, b1 := b1 } } : State).heldPower

/-! ### References (19 R382 to R384) -/

/-- A reference has failed and is not good again. -/
def State.refBad (s : State) (r : Nat) : Bool := s.clock.failed.getLsbD r

/-- The selected reference is declared failed (R383). -/
def State.refLost (s : State) : State :=
  let s1 := { s with clock := { s.clock with pll := .coasting, holdover := true, refFailed := true } }
  (s1.fault 9 0x0A 0 0 (s1.actionUnfit actContained)).unfit relRefclk

/-- A measurement against a reference that fails ends with result 3 (R381). -/
def State.freqLost (s : State) (r : Nat) : State :=
  match s.clock.freqRun with
  | some n => if n = r then ({ s with clock := { s.clock with freqRun := none } } : State).setReg kFreqResult 3 else s
  | none => s

/-- Recovery begins on a reference (R384 steps 1 and 2): the core domain moves to the always-on clock, with 2.5 times the D in
force, which changes no frequency. -/
def State.recoverRef (s : State) (r : Nat) : State :=
  let d := if s.clock.source = .alwaysOn then s.clock.d else 5 * s.clock.target / 2
  ({ s with clock := { s.clock with
      pll := .relocking, source := .alwaysOn, d := d, target := d, inUse := r, holdover := false } } : State).setReg kRefSelect r

end Sys2Proof.Machine
end

