-- ==== Sys2Proof/Machine/Board.lean ====
section
/-! DEFINITION. The board interface (21): temperature; and the control cores' halt and return (01 R13). -/

namespace Sys2Proof.Machine

/-- Take the sensors' readings: the hottest of each kind, and the DIMMs above 85 °C (05 R108). -/
def State.readSensors (s : State) (die hbm dimm hot85 : Nat) : State :=
  (upTo 32).foldl (fun a c => if (a.chan c).hot = bitAt hot85 c then a else a.updChan c fun x => { x with hot := bitAt hot85 c })
    { s with power := { s.power with die := die % 256, hbm := hbm % 256, dimm := dimm % 256 } }

/-- THERMAL_POLL (R412): at the warning level the board enters B1 whatever POWER_TARGET holds; once every sensor reads 5 °C below
it the state asked for acts. -/
def execThermalPoll (die hbm dimm hot85 : Nat) (s : State) : Result :=
  .next (if !s.power.inputOn || s.power.dark then s
  else
    let s1 := s.readSensors die hbm dimm hot85
    if 100 ≤ die % 256 ∨ 90 ≤ hbm % 256 then
      if s.power.thermWarn then s1
      else ({ s1 with power := { s1.power with thermWarn := true } } : State).askPower true
    else if s.power.thermWarn = true ∧ die % 256 ≤ 95 ∧ hbm % 256 ≤ 85 then
      ({ s1 with power := { s1.power with thermWarn := false } } : State).askPower (decide (s.reg kPowerTarget = 1))
    else s1)

/-- THERMAL_FAULT (R412): a fault level of the last readings has been held for 1 ms. -/
def execThermalFault (s : State) : Result :=
  .next (if s.power.inputOn && !s.power.dark && decide (110 ≤ s.power.die ∨ 100 ≤ s.power.hbm ∨ 95 ≤ s.power.dimm)
      && !s.power.thermFault then
    ({ s with power := { s.power with thermFault := true } } : State).stoppingFault 0x0C
  else s)

/-- CONTROL_CORES_HALT (01 R13): the cores halt of themselves; no fault is logged. -/
def execControlCoresHalt (s : State) : Result := .next { s with repair := { s.repair with coresUp := false } }

/-- CONTROL_CORES_RETURN (01 R13): on a board whose rails are on. -/
def execControlCoresReturn (s : State) : Result :=
  .next (if s.power.inputOn && !s.power.dark then { s with repair := { s.repair with coresUp := true } } else s)

end Sys2Proof.Machine
end

