-- ==== Sys2Proof/Machine/Principals.lean ====
section
/-! DEFINITION. The principal table (16 R331 to R333). -/

namespace Sys2Proof.Machine

/-- Why a row is refused, 0 when it stands (R332): a VALID row of a reserved ROLE, or of ROLE BMC with KIND 1, or a table that
would lose its last VALID PROVIDER row (DEDUCED, log 31). -/
def State.principalBad (s : State) (row : Nat) (p : Principal) : Nat :=
  if p.valid = true ∧ (p.role = 0 ∨ roleAuditor < p.role ∨ (p.role = roleBmc ∧ p.inband = true)) then 3
  else if hasProvider s.mgmt.principals && !hasProvider (s.mgmt.principals.set {} row p) then 3
  else 0

/-- The sessions of a row end, their kept responses with them (R332): those that take it as their principal (R331). -/
def State.endSessions (s : State) (row : Nat) (p : Principal) : State :=
  let mine := fun (c : SpdmConn) => (s.mgmt.principals.find? fun q => q.2.valid && (!q.2.inband && q.2.root == c.root)).any fun q => q.1 == row
  if !p.valid || p.inband then s
  else (s.sec.spdm.filter fun c => c.2.established && mine c.2).foldl (fun (a : State) (c : Nat × SpdmConn) =>
    { a with
      sec := { a.sec with spdm := a.sec.spdm.set {} c.1 { c.2 with
        handshake := false, mutualAuth := false, established := false, root := 0, cert := 0, measured := 0, keyGen := 0
        encap := 0, heartbeats := 0 } }
      mgmt := { a.mgmt with kept := a.mgmt.kept.set [] c.1 [] } }) s

/-- Write one row: a row that changes ends the sessions of the row before. -/
def State.writePrincipal (row v : Nat) (s : State) : State × Nat :=
  let p := principalOfWord v
  match s.principalBad row p with
  | 0 =>
    let old := s.mgmt.principals.get {} row
    let s1 := if p = old then s else s.endSessions row old
    ({ s1 with mgmt := { s1.mgmt with principals := s1.mgmt.principals.set {} row p } }, 0)
  | r + 1 => (s, r + 1)

/-- Key of PRINCIPAL_TABLE. -/
def kPrincipalTable : Nat := 0x103000

/-- PRINCIPAL_TABLE_WRITE (R332): the rows in ascending order. -/
def execPrincipalTableWrite (f : Frame) (row : Nat) (rows : List Nat) (s : State) : Result :=
  .next (s.writeWindow f kPrincipalTable 64 row rows State.writePrincipal)

end Sys2Proof.Machine
end

