-- ==== Sys2Proof/Machine/Bunting.lean ====
section
/-! DEFINITION. Bunting (11): starting an operation, its pages, the answers of its members, catch-up, notices, and the record. -/

namespace Sys2Proof.Machine

/-! ### The tables (R230) -/

/-- Key of BUNTING_TABLE. -/
def kBuntingTable : Nat := 0x703100

/-- Key of BUNTING_MEMBERS. -/
def kBuntingMembers : Nat := 0x703200

/-- The RWP fields of a row (Table 11.1). -/
def Tree.withRow (t : Tree) (v : Nat) : Tree :=
  { t with
    valid := bitAt v 0, onLaunch := bitAt v 1, barrow := bits v 2 12, tenant := bits v 14 8, tc := bits v 22 3
    cqOrder := bits v 25 4, notify := bitAt v 29, lines := bits v 32 32, src := bits v 64 52, dest := bits v 128 52
    cqBase := bits v 192 46 }

/-- Write one row: refused on a RUNNING tree; with 2 for a CQ_ORDER above 12, a line count outside 1 to 0x1000_0000, or a
source that is not 64-byte aligned; with 3 for a VALID tree of another tenant than its barrow's. -/
def State.writeTree (row v : Nat) (s : State) : State × Nat :=
  let t := (s.tree row).withRow v
  if (s.tree row).phase = .running then (s, 3)
  else if 12 < t.cqOrder ∨ t.lines = 0 ∨ 0x10000000 < t.lines ∨ t.src % 64 ≠ 0 then (s, 2)
  else if t.valid = true ∧ (s.barrow t.barrow).tenant ≠ t.tenant then (s, 3)
  else (s.updTree row fun _ => t, 0)

/-- Write one member row. -/
def State.writeMembers (row v : Nat) (s : State) : State × Nat :=
  if (s.tree row).phase = .running then (s, 3)
  else (s.updTree row fun t => { t with member := BitVec.ofNat 1024 v }, 0)

/-- BUNTING_TABLE_WRITE (R230): tree entries, or member rows. -/
def execBuntingTableWrite (f : Frame) (members : Bool) (row : Nat) (rows : List Nat) (s : State) : Result :=
  .next (if members then s.writeWindow f kBuntingMembers 128 row rows fun r v s => State.writeMembers r v s
    else s.writeWindow f kBuntingTable 40 row rows fun r v s => State.writeTree r v s)

/-! ### Starting (R232 to R234) -/

/-- What the write that `execBuntGo` names does, once it is accepted (DEDUCED, log 56). -/
def actBuntGo (v : Nat) (s : State) : State × Ans :=
  let t := s.tree v
  if s.boot.stage ≠ .ready ∨ t.phase ≠ .idle then (s.setReg kBuntResult 1, done 1)
  else if !t.valid then (s.setReg kBuntResult 3, done 3)
  else ((s.updTree v fun t => { t with phase := .waiting, fromLaunch := none }).setReg kBuntResult 2, done 2)

/-- BUNT_GO (R232, R233, 20 R400): result 1 before READY or for a tree that is not IDLE, 3 for one that is not VALID; else
the tree waits for its place. -/
def execBuntGo (f : Frame) (tree : Nat) (s : State) : Result :=
  .next (s.write f kBuntGo 1 tree actBuntGo)

/-- The status of the source check (R234 step 2). -/
def State.sourceStatus (s : State) (t : Tree) : Status := s.operandStatus t.tenant 0 false .source t.src t.bytes

/-- The host holds RD on every granule of the source. -/
def State.mayReadSource (s : State) (t : Tree) (host : Nat) : Bool :=
  (granulesOf (bits t.src 0 44) t.bytes).all fun g => (rightsIn s.pitch.acl (s.granule g).acl host).any fun r => r.1

/-- A live link of the stall has version 1.1 or later. -/
def State.pushLink (s : State) (st : Nat) : Bool := (s.liveLinks st).any fun n => decide (2 ≤ (s.link n).version)

/-- Classes of Table 11.2. -/
inductive BuntClass where
  | absent | fenced | denied | failed | member
deriving DecidableEq, Repr

/-- The class of a set member bit; the rights do not count for an operation that sends no data (DEDUCED, log 56). -/
def State.buntClass (s : State) (t : Tree) (noData : Bool) (st : Nat) : BuntClass :=
  match (s.stall st).phase with
  | .free => .absent
  | .fenced => .fenced
  | .detaching => .fenced
  | .attached =>
    if !noData && !s.mayReadSource t (s.stall st).host then .denied
    else if !s.pushLink st then .failed
    else .member

/-- The operation that a tree starts (R234). -/
def State.newOp (s : State) (t : Tree) : BuntOp :=
  let check := s.sourceStatus t
  let stop : Option Status := match t.fromLaunch with
    | some (st, _, _) => if st ≠ .ok then some st else if check ≠ .ok then some check else none
    | none => if check ≠ .ok then some check else none
  let set := (upTo 1024).filter fun n => t.member.getLsbD n
  let cls := set.map fun n => (n, s.buntClass t stop.isSome n)
  let count := fun (c : BuntClass) => (cls.filter fun p => p.2 == c).length
  { step := match t.fromLaunch with
      | some (_, st, _) => st
      | none => s.time.step
    phase := match t.fromLaunch with
      | some (_, _, ph) => ph
      | none => s.time.mphase
    stop := stop
    mems := (cls.filter fun p => p.2 == .member).map fun p => {
      stall := p.1, fate := .active, missed := [], noticed := false, poison := 0 }
    members := set.length - count .absent
    fenced := count .fenced, failedCount := count .failed
    firstFail := if count .failed = 0 then none else some .unsupportedVersion
    denied := count .denied, absent := count .absent, dropped := 0, catchup := 0, poison := 0, pages := [] }

/-! ### Pages (R235) -/

/-- Change a tree's operation. -/
def State.updOp (s : State) (tree : Nat) (f : BuntOp → BuntOp) : State :=
  s.updTree tree fun t => { t with op := t.op.map f }

/-- Change a member of a tree's operation. -/
def State.updMem (s : State) (tree st : Nat) (f : BuntMem → BuntMem) : State :=
  s.updOp tree fun o => { o with mems := o.mems.map fun m => if m.stall == st then f m else m }

/-- A PUSH joins its stall's egress in a slice. -/
def State.queuePush (s : State) (p : Push) : State :=
  s.egressPush p.slice { stall := p.stall, tc := (s.tree p.tree).tc, origin := .push p.tag, msg := .req p.req }

/-- Send a new PUSH: it takes a board tag and is kept until it is answered. -/
def State.sendPush (s : State) (tree slice st : Nat) (page : Option Nat) (addr mod poison : Nat) (data : List Line) : State :=
  let p : Push := {
    tag := s.nextTag, tree := tree, slice := slice, stall := st, page := page, poison := poison, waiting := false
    req := {
      opcode := 0x38, host := (s.stall st).host, tag := s.nextTag, tenant := (s.tree tree).tenant
      epoch := (s.stall st).epoch, len := data.length, mod := mod, addr := addr % 2 ^ 52, data := data } }
  { s.takeTag with pushes := s.pushes ++ [p] }.queuePush p

/-- Notice payload (Table 11.3). -/
def State.notice (s : State) (tree : Nat) (t : Tree) (o : BuntOp) (m : BuntMem) : Line :=
  let st := match o.stop with
    | some x => x
    | none => if m.poison = 0 then .ok else .poison
  BitVec.ofNat 512 (t.opSeq % 2 ^ 32 + tree % 256 * 2 ^ 32 + st.code * 2 ^ 40 + o.step % 2 ^ 48 * 2 ^ 64
    + o.phase % 2 ^ 16 * 2 ^ 112 + t.lines % 2 ^ 32 * 2 ^ 128 + m.poison % 2 ^ 32 * 2 ^ 160
    + (s.stamp s.firstSlice).toNat * 2 ^ 192)

/-- Send a member its notice when it is due: every data PUSH to it answered OK, or the operation stopped (R237). -/
def State.noticeIfDue (s : State) (tree st : Nat) : State :=
  let t := s.tree tree
  match t.op with
  | none => s
  | some o =>
    match o.mems.find? fun m => m.stall == st with
    | none => s
    | some m =>
      let sent := s.mainDone t o && (m.missed.isEmpty
        && !(s.pushes.any fun p => p.tree == tree && (p.stall == st && p.page.isSome)))
      if m.fate == .active && (!m.noticed && (o.stop.isSome || sent)) then
        (s.updMem tree st fun m => { m with noticed := true }).sendPush tree s.firstSlice st none t.dest 1 0 [s.notice tree t o m]
      else s

/-- Send every notice that is due. -/
def State.noticesDue (s : State) (tree : Nat) : State :=
  match (s.tree tree).op with
  | none => s
  | some o => o.mems.foldl (fun a m => a.noticeIfDue tree m.stall) s

/-- Trees with an operation in progress. -/
def State.runningTrees (s : State) : Nat := (s.trees.filter fun p => p.2.phase == .running).length

/-- BUNTING_START (R234): the tree that the rotating pointer picks takes a place. -/
def execBuntingStart (tree : Nat) (s : State) : Result :=
  .next (
    let t := s.tree tree
    let ptr := (s.slice s.firstSlice).treePtr
    if t.phase ≠ .waiting ∨ rotate 256 ptr (fun k => (s.tree k).phase == .waiting) ≠ some tree then s
    else if !t.valid then s.updTree tree fun t => { t with phase := .idle, fromLaunch := none }
    else if 4 ≤ s.runningTrees then s
    else
      let s1 := s.updTree tree fun t => { t with
        phase := .running, opSeq := (t.opSeq + 1) % 2 ^ 32, op := some (s.newOp t) }
      (s1.servingSlices.foldl (fun a n => a.updSlice n fun x => { x with treePtr := (tree + 1) % 256 }) s1).noticesDue tree)

/-- Read a page's lines; a line without data is sent as zeros and counted (R235). -/
def State.readPage (s : State) (off n : Nat) : State × List Line × Nat :=
  (upTo n).foldl (fun a i =>
    let r := a.1.readPlain (off + 64 * i) (a.1.slotOf (off + 64 * i)) 0xFFF 5
    (r.1, a.2.1 ++ [if r.2.1 = .ok then r.2.2 else 0], a.2.2 + b2n (r.2.1 != .ok))) (s, [], 0)

/-- Stop an operation that has not been stopped (R240). -/
def State.stopOp (s : State) (tree : Nat) (st : Status) : State := s.updOp tree (·.stopped st)

/-- The status of a page of the source as it is about to be read: OK, or what stops the operation (R235, R240). -/
def State.pageStatus (s : State) (t : Tree) (off n : Nat) : Status :=
  s.operandStatus t.tenant 0 false .source (s.board * 2 ^ 44 + off) (64 * n)

/-- BUNTING_PAGE_SEND (R235, R238, R240): the slice's next page goes to every member that is not in catch-up there; a source
that may no longer be read stops the operation, and a stopped one sends its notices. -/
def execBuntingPageSend (tree slice : Nat) (s : State) : Result :=
  .next (
    let t := s.tree tree
    match t.op with
    | none => s
    | some o =>
      if o.stop.isSome then s.noticesDue tree
      else if 16 ≤ s.pagesHeld slice then s
      else match (s.buntPages t slice)[o.pages.get 0 slice]? with
        | none => s.noticesDue tree
        | some (off, n) =>
          let st := s.pageStatus t off n
          if st ≠ .ok then (s.stopOp tree st).noticesDue tree
          else
            let r := ((s.count .key (s.slotOf off) 0).pipePush slice 5 (4096 + tree) 0).readPage off n
            let s1 := r.1.updOp tree fun o => { o with
              pages := o.pages.set 0 slice (o.pages.get 0 slice + 1), poison := o.poison + r.2.2 }
            let live := o.mems.filter fun m => m.fate == .active
            let s2 := live.foldl (fun a m =>
              if m.missed.any (fun p => p.1 == slice) then
                a.updMem tree m.stall fun m => { m with missed := m.missed ++ [(slice, off)] }
              else a.sendPush tree slice m.stall (some off) (t.dest + (off - bits t.src 0 44)) 0 r.2.2 r.2.1) s1
            s2.noticesDue tree)

/-! ### Answers (R236, R237) -/

/-- The PUSH that a host's answer names. -/
def State.pushOf (s : State) (h : HostResp) : Option Push :=
  s.pushes.find? fun p => p.tag == h.tag.toNat && ((s.link h.link).isUp && (s.stall p.stall).host == h.host)

/-- PUSHes that pass a test are given up, with the packets of theirs that are on no link. -/
def State.dropPushes (s : State) (f : Push → Bool) : State :=
  let tags := (s.pushes.filter f).map (·.tag)
  ({ s with pushes := s.pushes.filter fun p => !tags.contains p.tag } : State).dropPackets fun e => match e.origin with
    | .push k => tags.contains k
    | _ => false

/-- A member fails: it receives no further PUSH. -/
def State.failMember (s : State) (tree st : Nat) (status : Status) : State :=
  let s1 := (s.updMem tree st fun m => { m with fate := .failed status }).updOp tree fun o => { o with
    failedCount := o.failedCount + 1, firstFail := if o.firstFail.isSome then o.firstFail else some status }
  s1.dropPushes fun p => p.tree == tree && p.stall == st

/-- PUSH_RESPONSE (R236, R237): OK completes the copy, or delivers the member for its notice; RETRY_BUSY has it sent again;
any other status fails the member. -/
def execPushResponse (h : HostResp) (s : State) : Result :=
  .next (match s.pushOf h with
  | none => s
  | some p =>
    match Status.ofCode h.status with
    | .ok =>
      let s1 := { s with pushes := s.pushes.filter fun q => q.tag != p.tag }
      if p.page.isSome then
        (s1.updMem p.tree p.stall fun m => { m with poison := m.poison + p.poison }).noticeIfDue p.tree p.stall
      else s1.updMem p.tree p.stall fun m => { m with fate := .delivered }
    | .retryBusy =>
      { s with pushes := s.pushes.map fun (q : Push) => if q.tag == p.tag then { q with waiting := true } else q }
    | st => s.failMember p.tree p.stall st)

/-- PUSH_RETRY (R236): the same PUSH with the same tag. -/
def execPushRetry (tag : Nat) (s : State) : Result :=
  .next (match s.pushes.find? fun p => p.tag == tag && p.waiting with
  | none => s
  | some p =>
    { s with pushes := s.pushes.map fun (q : Push) => if q.tag == tag then { q with waiting := false } else q }.queuePush p)

/-- BUNT_TIMEOUT_EXPIRY (R236): the member that has not answered a PUSH since its first send fails with TIMEOUT. -/
def execBuntTimeoutExpiry (tag : Nat) (s : State) : Result :=
  .next (match s.pushes.find? fun p => p.tag == tag && p.sent with
  | none => s
  | some p => s.failMember p.tree p.stall .timeout)

/-! ### Catch-up (R238) -/

/-- CATCHUP_WAIT_EXPIRY: the copies for a member that could not leave the slice are missed pages, and the member is in catch-up
there. -/
def execCatchupWaitExpiry (tree slice stall : Nat) (s : State) : Result :=
  .next (
    let held := fun (p : Push) => p.tree == tree && (p.slice == slice && (p.stall == stall && (p.page.isSome && !p.sent)))
    (s.dropPushes held).updMem tree stall fun m => { m with
      missed := m.missed ++ (s.pushes.filter held).filterMap fun p => p.page.map fun k => (slice, k) })

/-- Lines of the source in the page at an offset. -/
def Tree.pageLines (t : Tree) (off : Nat) : Nat :=
  (min (bits t.src 0 44 + t.bytes) (off / 4096 * 4096 + 4096) - off) / 64

/-- Send a missed page to its member alone. -/
def State.resendPage (s : State) (tree slice st off : Nat) : State :=
  let t := s.tree tree
  let r := ((s.count .key (s.slotOf off) 0).pipePush slice 5 (4096 + tree) 0).readPage off (t.pageLines off)
  (r.1.updOp tree fun o => { o with catchup := o.catchup + 1 }).sendPush tree slice st (some off)
    (t.dest + (off - bits t.src 0 44)) 0 r.2.2 r.2.1

/-- Catch a member up on one page: while the replication point has room, and unless the operation has stopped or stops at this page
boundary (R238, R240). -/
def State.catchUp (s : State) (tree slice st off : Nat) : State :=
  let t := s.tree tree
  let check := s.pageStatus t off (t.pageLines off)
  if t.op.any (·.stop.isSome) || decide (16 ≤ s.pagesHeld slice) then s
  else if check ≠ .ok then s.stopOp tree check
  else (s.updMem tree st fun m => { m with missed := m.missed.erase (slice, off) }).resendPage tree slice st off

/-- CATCHUP_PASS: after its main pass the slice reads again, in order, the pages that members missed, as far as its replication
point holds them. -/
def execCatchupPass (tree slice : Nat) (s : State) : Result :=
  .next (
    let t := s.tree tree
    match t.op with
    | none => s
    | some o =>
      if o.stop.isSome ∨ o.pages.get 0 slice < (s.buntPages t slice).length then s
      else
        ((o.mems.filter fun m => m.fate == .active).foldl (fun a m =>
          (m.missed.filter fun p => p.1 == slice).foldl (fun b p => b.catchUp tree slice m.stall p.2) a) s).noticesDue tree)

/-! ### Completion (R239 to R241) -/

/-- STATUS of the record (R241). -/
def BuntOp.status (o : BuntOp) : Status :=
  match o.stop with
  | some st => st
  | none =>
    if o.denied ≠ 0 then .accessDenied
    else if o.failedCount ≠ 0 then o.firstFail.getD .timeout
    else if o.poison ≠ 0 then .poison
    else if o.fenced ≠ 0 then .partialFenced
    else .ok

/-- The record of Table 11.4. -/
def BuntOp.record (o : BuntOp) (tree : Nat) (t : Tree) (time : BitVec 128) : Line :=
  let delivered := (o.mems.filter fun m => m.fate == .delivered).length
  BitVec.ofNat 512 (t.opSeq % 2 ^ 32 + tree % 256 * 2 ^ 32 + o.status.code * 2 ^ 40 + wrapBit t.cqOrder t.opSeq * 2 ^ 48
    + o.step % 2 ^ 48 * 2 ^ 64 + o.phase % 2 ^ 16 * 2 ^ 112 + o.members % 2 ^ 16 * 2 ^ 128 + delivered % 2 ^ 16 * 2 ^ 144
    + o.fenced % 2 ^ 16 * 2 ^ 160 + o.failedCount % 2 ^ 16 * 2 ^ 176 + o.denied % 2 ^ 16 * 2 ^ 192
    + o.absent % 2 ^ 16 * 2 ^ 208 + o.dropped % 2 ^ 32 * 2 ^ 224 + o.catchup % 2 ^ 32 * 2 ^ 256
    + o.poison % 2 ^ 32 * 2 ^ 288 + time.toNat * 2 ^ 384)

/-- BUNTING_COMPLETE (R241): once no member is active the record is written, the tree is IDLE and BUNT_DONE is raised; notices
that a stop left due are sent first. -/
def execBuntingComplete (tree : Nat) (s : State) : Result :=
  .next (
    let t := s.tree tree
    match t.op with
    | none => s
    | some o =>
      if o.mems.any fun m => m.fate == .active then s.noticesDue tree
      else
        let owner := (s.barrow (s.headOf t.barrow)).owner
        let w := s.ringWrite t.tenant owner t.cqBase t.cqOrder t.opSeq (o.record tree t (s.stamp s.firstSlice))
        let s1 := w.1.updTree tree fun t => { t with phase := .idle, op := none, fromLaunch := none }
        let s2 := { s1 with pushes := s1.pushes.filter fun p => p.tree != tree }
        let s3 := if t.fromLaunch.isNone then s2.setReg kBuntResult 0 else s2
        let lost := w.2 != .ok
        if t.notify || lost then
          s3.crier s.firstSlice 0x14 tree (t.opSeq % 2 ^ 32 + o.status.code * 2 ^ 32 + b2n lost * 2 ^ 48) [owner]
        else s3)

/-- The abort of a tree: a RUNNING operation stops with REVOKED; a WAITING one does not start (R240). -/
def State.abortTree (s : State) (tree : Nat) : State :=
  match (s.tree tree).phase with
  | .idle => s
  | .waiting => s.updTree tree fun t => { t with phase := .idle, fromLaunch := none }
  | .running => (s.stopOp tree .revoked).noticesDue tree

/-- What the write that `execBuntAbort` names does, once it is accepted. -/
def actBuntAbort (v : Nat) (s : State) : State × Ans :=
  (s.abortTree v, {})

/-- BUNT_ABORT (R240). -/
def execBuntAbort (f : Frame) (tree : Nat) (s : State) : Result :=
  .next (s.write f kBuntAbort 1 tree actBuntAbort)

end Sys2Proof.Machine
end

