-- ==== Sys2Proof/Machine/Clocks.lean ====
section
/-! DEFINITION. Clocks (19): the references, the recovery of the core PLL, and frequency measurement. -/

namespace Sys2Proof.Machine

/-! ### References (R382 to R384) -/

/-- What the write that `execRefSelectWrite` names does, once it is accepted. -/
def actRefSelectWrite (v : Nat) (s : State) : State × Ans :=
  if s.refBad v then (s, refuse 3)
  else (({ s with clock := { s.clock with inUse := v, holdover := false } } : State).setReg kRefSelect v, {})

/-- REF_SELECT_WRITE (R382): a failed reference is refused; a good one takes every PLL that is locked or held. -/
def execRefSelectWrite (f : Frame) (v : Nat) (s : State) : Result :=
  .next (s.write f kRefSelect 1 v actRefSelectWrite)

/-- REFCLK_FAIL (R383): of the selected reference, from bring-up step 5 on, the core PLL coasts and a PAIRED board relinquishes;
of the standby, or earlier in the sequence, only the reference's bit is set (20 R402). -/
def execRefclkFail (ref : Nat) (s : State) : Result :=
  .next (if 2 ≤ ref then s
    else
      let s1 := ({ s with clock := { s.clock with failed := s.clock.failed ||| BitVec.ofNat 2 (2 ^ ref) } } : State).freqLost ref
      let late := s.boot.stage == .memory || s.boot.stage == .ready
      if ref ≠ s.clock.inUse then s1
      else if late then s1.refLost
      else if s1.refBad (1 - ref) then { s1 with boot := { s1.boot with noReference := true } }
      else { s1 with clock := { s1.clock with inUse := 1 - ref } })

/-- A board that may recover (R384): not one that has relinquished. -/
def State.mayRecover (s : State) : Bool :=
  s.clock.pll == .coasting && (decide (s.reg kRefAuto = 1) && !s.coreRamping
    && !(s.pair.phase == .relinquishing || s.pair.phase == .relinquished))

/-- REF_HOLDOFF_EXPIRY (R382, R384): the reference is good again; recovery starts on one that the board does not hold on. -/
def execRefHoldoffExpiry (ref : Nat) (s : State) : Result :=
  .next (if 2 ≤ ref then s
    else
      let s1 := { s with clock := { s.clock with failed := s.clock.failed &&& ~~~(BitVec.ofNat 2 (2 ^ ref)) } }
      if s1.boot.noReference then
        { s1 with
          clock := { s1.clock with inUse := ref }
          boot := { s1.boot with noReference := false, step := if s1.boot.step = .released then .fused else s1.boot.step } }
      else if s1.mayRecover && (ref != s1.clock.inUse || !s1.clock.holdover) then s1.recoverRef ref
      else s1)

/-- CORE_PLL_LOCK (R384 steps 4 and 5): the core domain moves to the core PLL with twice the divider of the always-on clock, which
changes no frequency, and ramps down to the divider of its state. -/
def execCorePllLock (s : State) : Result :=
  .next (if s.clock.pll = .relocking then
    ({ s with clock := { s.clock with pll := .locked, source := .corePll, d := 2 * s.clock.d, target := 2 * s.clock.d } } :
      State).rampCore (2 * s.clock.d / 5)
  else s)

/-! ### Frequency measurement (R381) -/

/-- What the write that `execFreqGo` names does, once it is accepted. -/
def actFreqGo (_ : Nat) (s : State) : State × Ans :=
  if s.clock.freqRun.isSome then (s.setReg kFreqResult 1, done 1)
  else if s.refBad (s.reg kFreqRef) then (s.setReg kFreqResult 3, done 3)
  else (({ s with clock := { s.clock with freqRun := some (s.reg kFreqRef) } } : State).setReg kFreqResult 2, done 2)

/-- FREQ_GO (R381): refused with 1 while a measurement runs and with 3 when FREQ_REF names a failed reference. -/
def execFreqGo (f : Frame) (v : Nat) (s : State) : Result :=
  .next (s.write f kFreqGo 1 v actFreqGo)

/-- FREQ_MEASURE_DONE (R381). -/
def execFreqMeasureDone (count : Nat) (s : State) : Result :=
  .next (if s.clock.freqRun.isSome then
    (({ s with clock := { s.clock with freqRun := none } } : State).setReg kFreqCount (count % 2 ^ 64)).setReg kFreqResult 0
  else s)

end Sys2Proof.Machine
end

