-- ==== Sys2Proof/Machine/Coherent.lean ====
section
/-! DEFINITION. The commands of coherent windows (07): the hosts' answers to snoops, their time-outs, the minimum hold, and the
release of orphaned lines. -/

namespace Sys2Proof.Machine

/-! ### Snoops -/

/-- A host's answer arrives on an up link for the board tag of a request to its stall. -/
def State.answersTo (s : State) (h : HostResp) (stall : Nat) : Bool :=
  (s.link h.link).isUp && (s.stall stall).host == h.host

/-- The SNOOP that a host's answer names: outstanding, and its time not over. -/
def State.snoopOf (s : State) (h : HostResp) : Option Snoop :=
  s.snoops.find? fun p => p.tag == h.tag.toNat && (!p.answered && (!p.expired && s.answersTo h p.stall))

/-- Change the SNOOP of a tag. -/
def State.updSnoop (s : State) (tag : Nat) (f : Snoop → Snoop) : State :=
  { s with snoops := s.snoops.map fun (p : Snoop) => if p.tag == tag then f p else p }

/-- A request of the board's own that waits for its first send: its host has had no live link. -/
def State.neverSent (s : State) (o : Origin) : Bool := s.xbar.noLink.any fun p => p.origin == o

/-- SNOOP_RESPONSE (R139, R147): OK brings PRESENT, DIRTY and the dirty line, of which a stall that has written the line back counts for
PRESENT only (R143), and the line's work goes on; the answer enters the slice's pipeline at level 2 (12 R260). RETRY_BUSY lets the SNOOP
be sent again; any other status counts as no answer. -/
def execSnoopResponse (h : HostResp) (s : State) : Result :=
  .next (match s.snoopOf h with
  | none => s
  | some p =>
    match h.status with
    | 0 =>
      let present := h.result.getLsbD 0
      let s1 := (s.updSnoop p.tag fun x => { x with
        answered := true, present := present, dirty := h.result.getLsbD 1 && !p.dead, data := h.data }).pipePush p.slice 2 p.stall p.tag
      (if present then s1 else s1.countStale [p]).cohGo p.slice
    | 1 => s.updSnoop p.tag fun x => { x with retry := true }
    | _ => s)

/-- SNOOP_RETRY (R147): the SNOOP answered RETRY_BUSY goes out again under its tag. -/
def execSnoopRetry (tag : Nat) (s : State) : Result :=
  .next (match s.snoops.find? fun p => p.tag == tag && (p.retry && (!p.answered && !p.expired)) with
  | none => s
  | some p =>
    let off := s.lineOff p.slice p.line
    (s.updSnoop tag fun x => { x with retry := false }).sprayReq p.stall 0 (.snoop tag) (.req (s.snoopReq p.stall tag p.mod off)))

/-- Every request waiting on a line is answered TIMEOUT for its units on it (R147). -/
def State.timeoutLine (s : State) (slice line : Nat) : State :=
  ((s.slice slice).tracker.filter fun t => t.stage == .snooping).foldl (fun a t =>
    (t.todo.filter fun u => s.lineNo (s.unitOff t.req u) == line).foldl (fun b u =>
      match (b.slice slice).trk t.id with
      | some t' => b.failUnit slice u t' .timeout
      | none => b) a) s

/-- The request that waits for a recall is answered TIMEOUT (R138). -/
def State.timeoutRecall (s : State) (slice id : Nat) : State :=
  match (s.slice slice).trk id with
  | some t => if t.stage == .snooping then t.todo.foldl (fun a u => match (a.slice slice).trk id with
      | some t' => a.failUnit slice u t' .timeout
      | none => a) s else s
  | none => s

/-- SNOOP_TIMEOUT (R147, R138, R151): the requests waiting on the line are answered TIMEOUT, the entry keeps its state and
BUSY clears; a recall of a revoke stays open until its deadline, and one of a detach leaves the line ORPHANED (DESIGN
CHOICE, log 7). The time runs from the first send of the tag. -/
def execSnoopTimeout (tag : Nat) (s : State) : Result :=
  .next (match s.snoops.find? fun p => p.tag == tag && (!p.answered && (!p.expired && !s.neverSent (.snoop tag))) with
  | none => s
  | some p =>
    let s0 := s.crier p.slice 0x11 p.stall (p.slice + p.line * 2 ^ 64) [(s.stall p.stall).host]
    match (s.slice p.slice).txns.find? fun x => x.id == p.txn with
    | none => { s0 with snoops := s0.snoops.filter fun q => q.tag != tag }
    | some x =>
      let s1 := s0.dropTxn p.slice x
      (match x.cause with
      | .revoke _ =>
        (((s0.updSnoop tag fun q => { q with expired := true }).updSlice p.slice fun y => { y with
          txns := y.txns.map fun (u : Txn) => if u.id == x.id then { u with aborted := true } else u }).setDir p.slice p.line
            fun e => { e with busy := false }).timeoutLine p.slice p.line
      | .detach st =>
        ((s1.setDir p.slice p.line fun e => { e with
          phase := .orphaned, holder := st, sharers := 0 }).tellDir p.slice p.line).1.timeoutLine p.slice p.line
      | .recallFor id => (s1.timeoutLine p.slice p.line).timeoutRecall p.slice id
      | _ => s1.timeoutLine p.slice p.line).cohGo p.slice)

/-- COH_HOLD_EXPIRY (R146): HELD clears, and requests held back by it go on. -/
def execCohHoldExpiry (slice entry : Nat) (s : State) : Result :=
  .next (if ((s.slice slice).dirAt entry).held then
    (s.updSlice slice fun x => x.updDir entry fun e => { e with held := false }).cohGo slice
  else s)

/-! ### Release (R150) -/

/-- What the write that `execOrphanRelease` names does, once it is accepted. -/
def actOrphanRelease (_ : Nat) (s : State) : State × Ans :=
  if s.orphanRun.isSome then (s.setReg kOrphanReleaseResult 1, done 1)
  else ({ s with orphanRun := some (s.reg kOrphanReleaseMatch, s.reg kOrphanReleaseValue) }.setReg kOrphanReleaseResult 2,
    done 2)

/-- ORPHAN_RELEASE (R150): refused with 1 while one runs. -/
def execOrphanRelease (f : Frame) (v : Nat) (s : State) : Result :=
  .next (s.write f kOrphanReleaseGo 1 v actOrphanRelease)

/-- An entry that a release matches. -/
def State.releases (s : State) (kind value slice : Nat) (e : DirEntry) : Bool :=
  e.valid && ((e.phase == .orphaned || e.phase == .stale) && (match kind with
    | 0 => (s.ownerOf (s.lineOff slice e.line)).pitch == value
    | 1 => e.holder == value
    | _ => true))

/-- ORPHAN_RELEASE_DONE (R150): matching entries are freed with their memory values kept; a ledger entry, and the requests
that waited go on. -/
def execOrphanReleaseDone (s : State) : Result :=
  .next (match s.orphanRun with
  | none => s
  | some (kind, value) =>
    let hits := (upTo 8).flatMap fun n =>
      ((s.slice n).dir.filter fun q => s.releases kind value n q.2).map fun q => (n, q.2.line)
    let s1 := hits.foldl (fun a p => (a.pipePush p.1 6 0 p.2).freeLine p.1 p.2) { s with orphanRun := none }
    ((s1.setReg kOrphanReleaseResult 0).ledger 0x0E 0 Actor.board 0
      (kind % 256 + value % 2 ^ 32 * 2 ^ 32 + hits.length % 2 ^ 32 * 2 ^ 64)).cohGoAll)

end Sys2Proof.Machine
end

