-- ==== Sys2Proof/Machine/SecOps.lean ====
section
/-! DEFINITION. Shared operations of security (15): measurements, key slot changes with their ledger entries, and signing the
ledger. -/

namespace Sys2Proof.Machine

/-! ### Attestation (R309) -/

/-- The measurement blocks of Table 15.2. Blocks 1 to 3 are the board's own; block 4 hashes the CONF_SOURCE byte and the mode
in force, block 5 LEDGER_HEAD and the CHAIN of that entry (PRESUMED, log 29). -/
def State.blockDigest (s : State) : Nat → Digest
  | 1 => Config.measurement 1 0 0
  | 2 => Config.measurement 2 s.boot.booted (s.fwSlot s.boot.booted).version
  | 3 => Config.measurement 3 0 0
  | 4 => sha384 (leBytes 1 s.sec.confSource.toNat ++ leBytes 1 (b2n s.sec.conf))
  | _ => sha384 (leBytes 8 (s.sec.head.getD 0) ++ beBytes 48 s.sec.chain.toNat)

/-- Blocks 1 to `n`, as bytes in index order. -/
def State.blockBytes (s : State) (n : Nat) : List Byte := (upTo n).flatMap fun i => beBytes 48 (s.blockDigest (i + 1)).toNat

/-! ### Key slots (R311 to R316) -/

/-- Make the KEY ledger entry of a slot (Table 15.13). -/
def State.keyLedger (s : State) (slot event result tenant : Nat) (a : Actor) (cert : Digest) : State :=
  let k := s.key slot
  s.ledger 0x04 result a tenant (slot % 256 + event * 2 ^ 8 + k.epoch.toNat * 2 ^ 16 + k.phase.code * 2 ^ 24
    + k.kcv.toNat * 2 ^ 32 + digestWord cert * 2 ^ 64)

/-- Change a slot, tell a partner (13 Table 13.4), and make the ledger entry. -/
def State.changeKey (s : State) (slot event : Nat) (f : KeySlot → KeySlot) : State :=
  let s1 := ((s.sramWrite 0x06 8 slot).updKey slot f).tellKey slot
  s1.keyLedger slot event 0 (s1.key slot).tenant Actor.board 0

/-- A slot whose key and KCV are gone. -/
def KeySlot.erased (k : KeySlot) (p : KeyPhase) : KeySlot := { k with phase := p, kcv := 0, key1 := 0, key2 := 0 }

/-- Descriptors that work with a slot stop at their page boundary (08 Table 8.10, R316). -/
def State.stopSlotWork (s : State) (slot : Nat) : State :=
  (s.stopWorkers (fun g => (s.granule g).slot == slot) .keyRetired .keyRetiring).stopTrees (fun g => (s.granule g).slot == slot) .keyRetired

/-- A slot refuses new uses from now on (R316, R320). -/
def State.startRetire (s : State) (slot : Nat) : State :=
  ((s.updKey slot fun k => { k with phase := .retiring }).tellKey slot).stopSlotWork slot

/-- RETIRE by command: the slot refuses new uses from then on (R316). -/
def State.retireKey (s : State) (slot : Nat) : State := (s.changeKey slot 2 fun k => { k with phase := .retiring }).stopSlotWork slot

/-- The drain of a RETIRING slot is over (R316). -/
def State.zeroiseKey (s : State) (slot : Nat) : State := s.changeKey slot 7 fun k => k.erased .zeroised

/-- Slots whose entry passes a test. -/
def State.slotsWhere (s : State) (p : KeySlot → Bool) : List Nat := (s.sec.keys.filter fun q => p q.2).map Prod.fst

/-- A granule in GRANTED, REVOKING or HELD state names the slot (R312). -/
def State.slotNamed (s : State) (slot : Nat) (p : PitchEntry → Bool) : Bool :=
  s.pitch.table.any fun q => q.2.phase != .free && (q.2.slot == slot && p q.2)

/-- The requests of a slice that use a slot still: one that has been performed, but for a read, has ended its use (R316, 04 R85). -/
def State.users (s : State) (slot slice : Nat) : List Trk :=
  (s.slice slice).tracker.filter fun t => t.slot == some slot && !s.issuedAtDeadline t

/-- The requests that use a slot are aborted. -/
def State.abortUsers (s : State) (slot : Nat) (status : ReqOp → Status) : State :=
  (upTo 8).foldl (fun a sl => (a.users slot sl).foldl (fun b t => b.abort sl t.id (status t.op)) a) s

/-- Abort the uses of a slot still pending at the deadline, as a revoke's deadline aborts requests: reads answer POISON, every other
request KEY_RETIRED (R316). -/
def State.abortUses (s : State) (slot : Nat) : State :=
  (s.abortUsers slot fun op => op.abortStatus .keyRetired).count .key slot 3 ((upTo 8).map fun sl => (s.users slot sl).length).sum

/-- A request reads a key slot: an uncorrectable error zeroises the slot, without drain, and the requests that use it answer KEY_RETIRED
(06 Table 6.1, Table 15.4). -/
def State.readKey (s : State) (slot host tenant : Nat) : State :=
  let f := s.sramRead 0x06 8 slot host tenant
  let p := (s.key slot).phase
  if f.2 && (p != .empty && p != .zeroised) then
    let s1 := (f.1.stopSlotWork slot).abortUsers slot fun _ => .keyRetired
    (s1.sramWrite 0x06 8 slot).changeKey slot 8 fun k => k.erased .zeroised
  else f.1

/-! ### Signing (R324, R325) -/

/-- The signed form of an entry: CHAIN over the CHAIN before and bytes 0 to 103, SIG over the SHA-384 of bytes 0 to 151. -/
def signEntry (e : LedgerEntry) (prev : Digest) (n : Nat) : LedgerEntry :=
  let start := if e.kind = 0x0D ∨ e.seq = 0 then 0 else prev
  let c := sha384 (beBytes 48 start.toNat ++ leBytes 104 (e.word % 2 ^ 832))
  let e1 := { e with chain := c }
  { e1 with sig := Config.sign (sha384 (leBytes 152 (e1.word % 2 ^ 1216))) n }

/-- A CAUSE code for an entry that the buffer lost: the manual gives none, and 2 would say that power was lost (DEDUCED, log 73). -/
def State.lossCode (s : State) : Nat := let v := s.freshValue.toNat % 256; if v = 2 then 1 else v

/-- An entry that an uncorrectable error of the buffer has spoilt is replaced by a LOST entry (06 Table 6.1, Table 15.13). -/
def State.lostEntry (s : State) (e : LedgerEntry) : LedgerEntry :=
  { e with
    kind := 0x0C, result := 0, principal := 0, transport := 0, source := 0, tenant := 0
    body := BitVec.ofNat 512 (1 + s.lossCode * 2 ^ 32 + e.seq * 2 ^ 64) }

/-- The oldest entry as the buffer reads. -/
def State.readOldest (s : State) : State :=
  match s.sec.buffer with
  | [] => s
  | e :: rest =>
    let f := s.sramRead 0x07 8 (e.seq % 1024) 0 0
    if f.2 then
      let s1 := f.1.sramWrite 0x07 8 (e.seq % 1024)
      { s1.takeFresh with sec := { s1.sec with buffer := s1.lostEntry e :: rest } }
    else f.1

/-- Chain and sign the oldest buffered entry and copy it to the flash ring. -/
def State.signOldest (s0 : State) : State :=
  let s := s0.readOldest
  match s.sec.buffer with
  | [] => s
  | e :: rest =>
    let e1 := signEntry e s.sec.chain s.sec.sigs
    { s with sec := { s.sec with
        buffer := rest, ring := s.sec.ring.set {} (e.seq % ledgerCapacity) e1, head := some e.seq, chain := e1.chain
        sigs := s.sec.sigs + 1 } }

/-- Sources that hold confidential mode (R321). -/
def confBits (fuse pin dict : Bool) : BitVec 3 := BitVec.ofNat 3 (b2n fuse + b2n pin * 2 + b2n dict * 4)

/-- A tenant of 1 to 255 that is not ABSENT. -/
def State.anyTenant (s : State) : Bool := s.sec.tenants.any fun p => decide (0 < p.1) && p.2.phase != .absent

end Sys2Proof.Machine
end

