-- ==== Sys2Proof/Machine/TimeOps.lean ====
section
/-! DEFINITION. Mirror epochs (13 R276), marks and the schedule (10 R214 to R223). -/

namespace Sys2Proof.Machine

/-! ### Mirror epochs -/

/-- One unit of epoch content: byte 0 the kind, bytes 4 to 7 an index, the content from byte 8 (DESIGN CHOICE, log 20). -/
def epochUnit (kind index content : Nat) : Line := BitVec.ofNat 512 (kind + index * 2 ^ 32 + content * 2 ^ 64)

/-- A row of Table 13.4 that is no tag slot, as it stands. -/
def State.epochRow (s : State) (kind i : Nat) : Line :=
  epochUnit kind i (match kind with
    | 1 => s.shaperWord i % 2 ^ 128
    | 3 => (s.time.schedStaged.get {} i).word
    | 4 => (s.gates.lists.get {} i).word
    | 5 => s.reg kActiveGateList
    | 6 => (s.gates.fbList.get {} i).word
    | 7 => s.gates.fbOffset
    | 8 => (s.seeds.get 0 i).toNat
    | _ => if i = 0 then s.reg kOrphanPolicy else if i = 1 then s.reg kCohHold else s.reg kSnoopTimeout)

/-- Every row of Table 13.4 that may differ from its default. -/
def State.epochKeys (s : State) : List (Nat × Nat) :=
  (s.shapers.map fun p => (1, p.1)) ++ (s.time.schedStaged.map fun p => (3, p.1)) ++ (s.gates.lists.map fun p => (4, p.1))
    ++ [(5, 0)] ++ (s.gates.fbList.map fun p => (6, p.1)) ++ [(7, 0)] ++ (s.seeds.map fun p => (8, p.1)) ++ [(9, 0), (9, 1), (9, 2)]

/-- The entries changed since the last committed epoch. -/
def State.epochContent (s : State) : List Line :=
  (s.pair.changedTags.eraseDups.map fun p => epochUnit 2 (p.1 * 4096 + p.2) (tagRecord p.1 ((s.stall p.1).tags.get {} p.2)))
    ++ s.pair.changedRows.map fun p => s.epochRow p.1 p.2

/-- Units in packets of at most 64. -/
def packets64 : Nat → List Line → List (List Line)
  | 0, _ => []
  | _ + 1, [] => []
  | n + 1, l => l.take 64 :: packets64 n (l.drop 64)

/-- An EPOCH_END has not been sent yet. -/
def State.epochUnsent (s : State) : Bool := s.pair.sent.any fun o => o.kind == 4 && !o.onWire

/-- The epoch-end cycle (R276): the changed entries as EPOCH_DATA, then EPOCH_END; deferred and counted while the one before
has not been sent. Each packet is one copy at level 4 of the lowest slice in service (12 Table 12.4) (DESIGN CHOICE, log 76). -/
def State.endEpoch (s : State) : State :=
  if !s.mirrors then s
  else if s.epochUnsent then
    { s with pair := { s.pair with epochDeferred := true } }.count .board 0 11
  else
    let units := s.epochContent
    let n := s.pair.epochCount + 1
    let s1 := (packets64 units.length units).foldl (fun a l =>
      (a.pipePush (s.servingSlices.headD 0) 4 0 n).halPush 3 0 0 false false l) s
    let s2 := s1.halPush 4 0 0 false false [BitVec.ofNat 512 (n % 2 ^ 32 + (s.stamp 11).toNat * 2 ^ 128)]
    { s2 with pair := { s2.pair with epochCount := n, epochDeferred := false, changedTags := [], changedRows := [] } }

/-! ### The schedule (R220 to R223) -/

/-- STEP × 2^16 + PHASE. -/
def State.markValue (s : State) : Nat := s.time.step * 65536 + s.time.mphase

/-- Points of an entry at or below a value. -/
def Sched.pointsTo (e : Sched) (v : Nat) : Nat :=
  let b := e.step * 65536 + e.phase
  if v < b then 0 else if e.rep = 0 then 1 else (v - b) / (e.rep * 65536) + 1

/-- Points of an entry in the span of a mark cycle (R221). -/
def Sched.points (e : Sched) (o v : Nat) : Nat := e.pointsTo v - e.pointsTo o

/-- An action not applied is counted (17 Table 17.1). -/
def State.notApplied (s : State) (entry : Nat) : State := s.count .sched entry 2

/-- A schedule launch (08 R158, R161): TARGET's own epoch and state are checked, then the gang that it is in launches (08 R156). -/
def State.scheduleLaunch (s : State) (entry : Nat) (e : Sched) : State :=
  let head := s.headOf e.target
  if (s.barrow e.target).epoch.toNat ≠ e.epoch then (s.count .barrow e.target 4).notApplied entry
  else if (s.barrow e.target).lostSlice || !(s.barrow head).trigSchedule then s.notApplied entry
  else match s.triggerLaunch head .schedule with
    | (s1, true) => s1
    | (s1, false) => s1.notApplied entry

/-- What an entry that fires does (R222). -/
def State.schedAction (s : State) (entry : Nat) (e : Sched) : State :=
  match e.action with
  | 1 => s.scheduleLaunch entry e
  | 2 => s.hoist 4 0
  | 3 =>
    if e.target < 16 ∧ gateListOk (s.gateRows e.target) = true then (s.setReg kActiveGateList e.target).rowChanged 5 0
    else (s.notApplied entry).crier 11 0x18 entry (e.target % 16)
  | 4 => s.endEpoch
  | 5 => { s with gates := { s.gates with schedMigrate := s.gates.schedMigrate ||| e.slices } }
  | 6 => { s with gates := { s.gates with schedMigrate := s.gates.schedMigrate &&& ~~~e.slices } }
  | 7 => { s with gates := { s.gates with schedScrub := s.gates.schedScrub ||| e.slices } }
  | 8 => { s with gates := { s.gates with schedScrub := s.gates.schedScrub &&& ~~~e.slices } }
  | _ => s

/-- Fire one entry: counted, surplus points counted as skipped, a once-only entry no longer VALID. -/
def State.fireEntry (s : State) (o v entry : Nat) (e : Sched) : State :=
  let n := e.points o v
  if e.valid = false ∨ n = 0 then s
  else
    let s1 := (s.count .sched entry 0).count .sched entry 1 (n - 1)
    let s2 := if e.rep = 0 then
        { s1 with time := { s1.time with
            schedule := s1.time.schedule.set {} entry { e with valid := false }
            schedStaged := s1.time.schedStaged.set {} entry { e with valid := false } } }.rowChanged 3 entry
      else s1
    s2.schedAction entry e

/-- Fire every entry with a point in the span, in ascending order. -/
def State.fireSchedule (s : State) (o v : Nat) : State :=
  s.time.schedule.foldl (fun a p => a.fireEntry o v p.1 p.2) s

/-! ### Marks (R216 to R219) -/

/-- The mark cycle: STEP and PHASE take the value, written schedule rows take effect, fall-back ends, entries fire, and the
active gate list sets the gates (R217, R219 to R222, 12 R253, R254). -/
def State.applyMark (s : State) (v : Nat) : State :=
  let o := s.markValue
  let was := s.time.fallback
  let s1 := { s with
    time := { s.time with
      step := v / 65536 % 2 ^ 48, mphase := v % 65536, schedule := s.time.schedStaged, fallback := false
      lastMark := some s.time.ticks }
    gates := { s.gates with
      schedMigrate := if was then 0 else s.gates.schedMigrate
      schedScrub := if was then 0 else s.gates.schedScrub
      closing := none } }.count .board 0 5
  let s2 := (s1.fireSchedule o v).applyGates
  if was then
    s2.crier 11 0x17 0 (v / 65536 % 2 ^ 48 + v % 65536 * 2 ^ 48) [s2.reg kMarkSource]
  else s2

/-- L of R216: the value of the last MARK applied or held, or set. -/
def State.markLast (s : State) : Nat := (s.time.heldMarks.map (·.value)).foldl max s.markValue

/-- What a MARK is answered, by the first row of Table 10.2 that applies: the status, and the state. -/
def State.markTake (s : State) (host v applyAt rest : Nat) : Status × State :=
  if s.reg kMarkSource ≠ host ∨ rest ≠ 0 then (.accessDenied, s.count .board 0 1)
  else if v = s.markLast then (.ok, s)
  else if v < s.markLast then (.accessDenied, s.count .board 0 2)
  else if s.time.ao + s.reg kMarkLossTimeout * 1000000 < applyAt then (.accessDenied, s.count .board 0 4)
  else if applyAt ≠ 0 ∧ (s.time.heldMarks.any fun h => decide (applyAt < h.applyAt)) = true then
    (.accessDenied, s.count .board 0 4)
  else if applyAt ≠ 0 ∧ s.time.ao < applyAt then
    if 4 ≤ s.time.heldMarks.length then (.retryBusy, s)
    else (.ok, { s with time := { s.time with heldMarks := s.time.heldMarks ++ [{ value := v, applyAt := applyAt }] } })
  else (.ok, (if applyAt = 0 then s else s.count .board 0 3).applyMark v)

end Sys2Proof.Machine
end

