-- ==== Sys2Proof/Machine/HostOps.lean ====
section
/-! DEFINITION. The host port (03): where a request comes from, its tag and its place in order, the checks of R56, and how it
reaches its slice. -/

namespace Sys2Proof.Machine

/-! ### Opcode rules (R54) -/

/-- The version code an opcode and MOD need: 1 for 1.0, 2 for 1.1. -/
def needsVersion (op : ReqOp) (mod : Nat) : Nat :=
  match op with
  | .writeMasked => 2
  | .reduceWrite => 2
  | .hint => 2
  | .cohRead => 2
  | .cohWriteback => 2
  | .snoop => 2
  | .push => 2
  | .atomic => if 3 ≤ mod ∧ mod ≤ 6 then 2 else 1
  | _ => 1

/-- A stall capability by its CAPS bit (Table 3.6). -/
def State.hasCap (s : State) (st bit : Nat) : Bool := (s.stall st).caps.getLsbD (bit - 8)

/-- LEN, MOD, alignment and payload obey the opcode's rules (R54, Table 3.3). A WRITE_MASKED is aligned to its line, and payload bytes that
Table 3.3 gives as 0 are ignored (DESIGN CHOICE, log 85). -/
def wellFormedReq (op : ReqOp) (r : Req) : Bool :=
  let off := reqOff r
  let n := r.payload.length
  let page := off % 4096 + 64 * r.len ≤ 4096
  match op with
  | .read => decide (1 ≤ r.len ∧ r.len ≤ 64 ∧ off % 64 = 0 ∧ page) && (r.mod == 0 && n == 0)
  | .write => decide (1 ≤ r.len ∧ r.len ≤ 64 ∧ off % 64 = 0 ∧ page) && (r.mod == 0 && n == r.len)
  | .writeMasked => decide (r.len = 2 ∧ off % 64 = 0) && (r.mod == 0 && n == 2)
  | .atomic => decide (r.len = 1 ∧ off % 8 = 0 ∧ r.mod ≤ 6) && n == 1
  | .reduceWrite =>
    decide (1 ≤ r.len ∧ off % 64 = 0 ∧ page ∧ r.mod ≤ 0xC) && (n == r.len && reducePayloadOk r)
  | .flush => decide (1 ≤ r.len ∧ r.len ≤ 64 ∧ off % 64 = 0 ∧ page) && (r.mod == 0 && n == 0)
  | .invalidate => decide (1 ≤ r.len ∧ r.len ≤ 64 ∧ off % 64 = 0 ∧ page) && (r.mod == 0 && n == 0)
  | .hint => decide (r.len = 0 ∧ r.mod ≤ 4) && n == 0
  | .cohRead => decide (r.len = 1 ∧ off % 64 = 0 ∧ r.mod ≤ 1) && n == 0
  | .cohWriteback => decide (r.len = 1 ∧ off % 64 = 0) && (r.mod == 0 && n == 1)
  | .doorbell => decide (r.len ≤ 1 ∧ (r.mod = 0 ∨ (r.mod = 1 ∧ r.len = 1))) && n == r.len
  | .mark => decide (r.len = 1) && n == 1
  | .nop => decide (r.len = 0) && n == 0
  | _ => false

/-! ### Board numbers (01 R15, 13 R277 to R282) -/

/-- Board number of a request's address. -/
def reqBoard (r : Req) : Nat := bits r.addr.toNat 44 8

/-- The request is for the partner's number, which this board serves. -/
def State.forPartner (s : State) (r : Req) : Bool :=
  s.servesPartner && (reqBoard r == s.pair.partnerNo && reqBoard r != s.board)

/-- A switch-over gap holds for the number a request names: RETRY_BUSY with LOAD 15 (R278, R279, Table 13.5). -/
def State.inGap (s : State) (r : Req) : Bool :=
  match s.pair.phase with
  | .takingOver => reqBoard r == s.pair.takingNumber
  | .relinquishing => match s.pair.relinq with
    | some q => reqBoard r == q.number
    | none => false
  | _ => false

/-- The board serves neither its own number nor its partner's: RELINQUISHED, or SYNCING while the partner serves both. -/
def State.ownServed (s : State) : Bool :=
  match s.pair.phase with
  | .relinquished => false
  | .syncing => s.pair.partnerPhase != 5
  | _ => true

/-- The request's board number is not one this board serves; its own is none while it is SYNCING or RELINQUISHED (DESIGN CHOICE, log 83). -/
def State.wrongBoard (s : State) (op : ReqOp) (r : Req) : Bool :=
  if op == .nop then false
  else if s.forPartner r then op == .doorbell || op == .mark
  else reqBoard r != s.board || !s.ownServed

/-- Descriptors of set 2 behind a DOORBELL of a host without DESC_SET2 (08 R159), for a barrow of this board. -/
def State.unsupportedDoorbell (s : State) (caps : BitVec 8) (op : ReqOp) (r : Req) : Bool :=
  op == .doorbell && (!s.wrongBoard op r && (r.mod == 0 && (!caps.getLsbD 2 && s.gangSet2 (s.headOf (r.addr.toNat % 4096)))))

/-- The request is answered UNSUPPORTED_VERSION to a host with these capabilities (R54, 08 R159). -/
def State.unsupportedBy (s : State) (caps : BitVec 8) (op : ReqOp) (r : Req) : Bool :=
  (match op with | .reserved _ => true | _ => false)
    || (decide ((s.link r.link).version < needsVersion op r.mod)
    || ((r.strict && !caps.getLsbD 0)
      || ((op == .reduceWrite && (isMx r.mod && !caps.getLsbD 1)) || s.unsupportedDoorbell caps op r)))

/-- The request is answered UNSUPPORTED_VERSION. -/
def State.unsupported (s : State) (st : Nat) (op : ReqOp) (r : Req) : Bool := s.unsupportedBy (s.stall st).caps op r

/-- A DOORBELL whose EPOCH is not that of the barrow of this board that it names (R63). -/
def State.staleBarrow (s : State) (op : ReqOp) (r : Req) : Bool :=
  op == .doorbell && (!s.wrongBoard op r && (s.barrow (r.addr.toNat % 4096)).epoch != r.epoch)

/-- The stall of a request's host: the image stall for the partner's number. -/
def State.stallFor (s : State) (r : Req) : Option Nat :=
  let image := s.forPartner r
  (s.stalls.find? fun p => p.2.phase != .free && (p.2.host == r.host && (if image then decide (1024 ≤ p.1) else decide (p.1 < 1024)))).map
    Prod.fst

/-! ### Tags (R57 to R62) -/

/-- A tag lies behind another, in modular order within 32,768. -/
def behind (t n : BitVec 16) : Bool := decide (32768 ≤ (t - n).toNat)

/-- The tag is in flight: in a tracker, or held in the reorder stage. -/
def State.inFlight (s : State) (st : Nat) (t : BitVec 16) : Option (Nat × Trk) :=
  (upTo 8).findSome? fun n => ((s.slice n).tracker.find? fun x =>
    x.stall == st && (x.req.tag == t && x.stage != .inLink)).map fun x => (n, x)

/-- The tag is held in the reorder stage. -/
def StallSt.holds (x : StallSt) (t : BitVec 16) : Bool := x.held.any fun h => h.2.tag == t

/-- Move the next-missing tag over the tags that have arrived. -/
def advanceNext : Nat → BitVec 16 → List (BitVec 16) → BitVec 16 × List (BitVec 16)
  | 0, n, l => (n, l)
  | k + 1, n, l => if l.contains n then advanceNext k (n + 1) (l.filter (· ≠ n)) else (n, l)

/-- A tag has arrived, or was skipped (R59). -/
def StallSt.arrive (x : StallSt) (t : BitVec 16) : StallSt :=
  if behind t x.next then x
  else
    let l := if x.ahead.contains t then x.ahead else t :: x.ahead
    let a := advanceNext l.length x.next l
    { x with next := a.1, ahead := a.2 }

/-- The first request of an image stall sets its next-missing tag (13 R282). -/
def StallSt.firstArrive (x : StallSt) (t : BitVec 16) : StallSt :=
  if x.firstSeen then x.arrive t else { x with firstSeen := true, next := t + 1, ahead := [] }

/-- A slot of the completed-tag cache. -/
def StallSt.slot (x : StallSt) (t : BitVec 16) : TagSlot := x.tags.get {} (t.toNat % 4096)

/-- What the completed-tag cache says of a request: answered from the slot, expired, or to be executed (R58). -/
inductive TagHit where
  | cached (t : TagSlot)
  | expired
  | fresh
deriving DecidableEq, Repr

/-- Look a request up in its stall's cache; a slot that an error emptied expires the replays that meet it. -/
def StallSt.lookup (x : StallSt) (op : ReqOp) (t : BitVec 16) : TagHit :=
  let c := x.slot t
  if c.valid && c.tag == t then .cached c
  else if op.ni && (c.lost || (c.valid && decide (1 ≤ (c.tag - t).toNat ∧ (c.tag - t).toNat < 32768))) then .expired
  else .fresh

/-! ### Order (R60, R61) -/

/-- The stall runs in strict mode: it loses it with STRICT_ORDER (R66). -/
def State.strictMode (s : State) (st : Nat) : Bool := (s.stall st).orderMode == 2 && s.hasCap st 8

/-- The packet follows the strict rule. -/
def State.isStrict (s : State) (st : Nat) (r : Req) : Bool :=
  r.strict || (s.strictMode st && (s.stall st).strictTc.getLsbD r.tc)

/-- Write-class requests of the stall with earlier tags that are held, or admitted and not yet performed. -/
def State.earlierWrites (s : State) (st : Nat) (t : BitVec 16) : Bool :=
  (s.stall st).held.any (fun h => h.1.writeClass && behind h.2.tag t)
    || !(s.unperformedOf fun x => x.stall == st && behind x.req.tag t).isEmpty

/-- A packet must wait in the reorder stage (R60, R61). -/
def State.mustWait (s : State) (st : Nat) (r : Req) : Bool :=
  let x := s.stall st
  (r.fence && (!behind r.tag x.next || s.earlierWrites st r.tag))
    || (s.isStrict st r && (!behind r.tag x.next || x.held.any fun h => h.2.tc == r.tc && behind h.2.tag r.tag))

/-! ### Answers at the host port -/

/-- Answer at the host port. -/
def State.reply (s : State) (st : Nat) (op : ReqOp) (r : Req) (status : Status) (load : Nat) : State :=
  s.answer r.link r.tc (hostResp op.code r status (max load (s.stallLoad st)))

/-- Answer from the completed-tag cache (R58). -/
def State.replyCached (s : State) (st : Nat) (op : ReqOp) (r : Req) (c : TagSlot) : State :=
  s.answer r.link r.tc { hostResp op.code r c.status (s.stallLoad st) with result := c.result, cached := true }

/-! ### RETRY_BUSY checks -/

/-- The slice that a request goes to, where it goes to one. -/
def State.reqSlice (s : State) (op : ReqOp) (r : Req) : Option Nat :=
  match op with
  | .nop => none
  | .mark => none
  | .snoop => none
  | .crierNotify => none
  | .push => none
  | .reserved _ => none
  | .doorbell => some (r.addr.toNat % 4096 / 512)
  | _ => some (s.sliceOf (s.localOff r)).1

/-- Requests that hold a place in a slice's entry queue (R262). -/
def State.entryQueue (s : State) (n : Nat) : Nat :=
  ((s.xbar.inWait.get [] n).filter fun p => decide (p.1 < 48)).length + (s.slice n).pipe.q3.length

/-- The slice has no room for a request of the stall: entry queue, tracker, or the stall's limit as it stands now (R262, R65) (DESIGN
CHOICE, log 86). -/
def State.sliceFull (s : State) (st n : Nat) : Bool :=
  decide (512 ≤ s.entryQueue n) || (decide (16384 ≤ (s.slice n).occupied)
    || decide (s.reg kStallTrackerLimit ≤ (s.slice n).trackerOf st))

/-- The barrow's queue is full, or the board is not READY (08 R155, 20 R400). -/
def State.doorbellBusy (s : State) (r : Req) : Bool :=
  s.boot.stage != .ready || (r.mod == 0 && decide (16 ≤ (s.barrow (s.headOf (r.addr.toNat % 4096))).queue.length))

/-- RETRY_BUSY of a request that came to admission: the LOAD it carries at least, none when it may go on. The shaper is
looked at apart. -/
def State.busyNow (s : State) (st : Nat) (op : ReqOp) (r : Req) : Bool :=
  (match s.reqSlice op r with
    | some n => s.sliceFull st n
    | none => false)
  || (op == .doorbell && s.doorbellBusy r)

/-! ### ACCESS_DENIED to KEY_RETIRED -/

/-- The rights of a DOORBELL (08 R159). -/
def State.doorbellStatus (s : State) (r : Req) : Status :=
  let b := s.barrow (s.headOf (r.addr.toNat % 4096))
  if bits r.addr.toNat 12 32 ≠ 0 ∨ b.tenant ≠ r.tenant then .accessDenied
  else if !((rightsIn s.pitch.acl b.acl r.host).any fun x => x.2.2) then .accessDenied
  else if b.disabled || (s.barrow (r.addr.toNat % 4096)).disabled then .accessDenied
  else .ok

/-- The entry that governs a request's granule. -/
def State.reqEntry (s : State) (r : Req) : PitchEntry := s.ownerOf (s.localOff r)

/-- An entry whose bits an error has spoilt (06 Table 6.1, R123). -/
def State.entryBad (s : State) (r : Req) : Bool :=
  !s.forPartner r && s.pitch.bad.contains (reqOff r / 2 ^ 24)

/-- Key slot that a request's work uses. -/
def ReqOp.usesKey : ReqOp → Bool
  | .read => true
  | .write => true
  | .writeMasked => true
  | .atomic => true
  | .reduceWrite => true
  | .cohRead => true
  | .cohWriteback => true
  | _ => false

/-- The reads of the host port's tables that the checks of R80 need: the pitch table entry, the access list and the key slot, with the
errors they meet (06 Table 6.1). Answers whether the access list could not be read (DESIGN CHOICE, log 73). -/
def State.readTables (s : State) (op : ReqOp) (r : Req) : State × Bool :=
  if op == .nop || (op == .mark || (op == .doorbell || s.forPartner r)) then (s, false)
  else
    let g := reqOff r / 2 ^ 24
    let e := s.sramRead 0x04 8 g r.host r.tenant
    let s1 := if e.2 then { e.1 with pitch := { e.1.pitch with bad := g :: e.1.pitch.bad.filter (· ≠ g) } } else e.1
    let a := s1.sramRead 0x0F 8 (s1.granule g).acl r.host r.tenant
    (if op.usesKey then a.1.readKey (a.1.granule g).slot r.host r.tenant else a.1, a.2)

/-- The read of a slot of a stall's completed-tag cache: one with an uncorrectable error is emptied (06 Table 6.1). -/
def State.readTag (s : State) (st : Nat) (t : BitVec 16) : State :=
  let w := st * 4096 + t.toNat % 4096
  let e := s.sramRead 0x09 8 w (s.stall st).host 0
  if e.2 then (e.1.sramWrite 0x09 8 w).updStall st fun x => { x with tags := x.tags.set {} (t.toNat % 4096) { lost := true } } else e.1

/-- The checks of R80 on a request, after its board number. -/
def State.baseCheck (s : State) (op : ReqOp) (r : Req) : Status :=
  if s.forPartner r then s.imageCheck op r.mod r.tenant r.host (reqOff r)
  else s.pitchCheck op r.mod r.tenant r.host (reqOff r)

/-- COH_READ and COH_WRITEBACK need a coherent window, REDUCE_WRITE refuses one, and a mirrored granule (07 R135, 08 R170). -/
def State.wrongWindow (s : State) (op : ReqOp) (r : Req) : Bool :=
  let e := s.reqEntry r
  match op with
  | .cohRead => !e.coherent
  | .cohWriteback => !e.coherent
  | .reduceWrite => e.coherent || (e.mirrored || s.forPartner r)
  | _ => false

/-- Status of the checks of R80, and of the chapters' own rules on COHERENT and MIRRORED granules, which answer ACCESS_DENIED
before REVOKED and KEY_RETIRED (R56). -/
def State.pitchStatus (s : State) (op : ReqOp) (r : Req) : Status :=
  if s.entryBad r then .uncorrectable
  else
    let c := s.baseCheck op r
    if c ≠ .accessDenied ∧ s.wrongWindow op r = true then .accessDenied else c

/-- COH_READ and COH_WRITEBACK outside coherent windows count as malformed (07 R135). -/
def State.cohMalformed (s : State) (op : ReqOp) (r : Req) : Bool :=
  (op == .cohRead || op == .cohWriteback) && (!s.entryBad r && (s.wrongWindow op r && s.baseCheck op r != .accessDenied))

/-- A switch passed a request that the board refuses (04 R87): counted, and one SWITCH_STALE event per generation. -/
def State.switchMiss (s : State) (st : Nat) (r : Req) : State :=
  if (s.link r.link).kind ≠ 1 then s
  else
    let gen := s.reg kPitchGeneration
    let s1 := s.count .stall st 35
    if s.pitch.staleGen = some gen then s1
    else { s1 with pitch := { s1.pitch with staleGen := some gen } }.crier 8 0x0A st gen

/-! ### HINT (05 R95 to R97) -/

/-- The first granule of the pitch that governs a granule: of the partner's for one that is served for it (13 R282). -/
def State.pitchFirst (s : State) (g : Nat) : Bool :=
  let e := s.ownerOf (g * 2 ^ 24)
  let p := if s.servesWindow g then s.pair.image.pitch.get {} (g + s.pair.window - 1) else s.granule (g - 1)
  g = 0 ∨ p.phase = .free ∨ p.pitch ≠ e.pitch

/-- A frame-scope hint on a region: NONE removes it; a resident region keeps it in its frame entry; otherwise it takes a
candidate entry, within the stall's FRAME_HINT_LIMIT (R97). Answers whether it was recorded. -/
def State.frameHint (s : State) (slice region st mod : Nat) : State × Bool :=
  let x := s.slice slice
  let c : Candidate := { region := region, hinted := true, hint := mod, stall := st, misses := 0, lastMisses := 0 }
  match x.frameOf region with
  | some f => (s.updSlice slice fun x => x.updFrame f fun e => { e with hint := mod, ownHint := decide (mod ≠ 0), stall := st }, true)
  | none =>
    if mod = 0 then
      (s.updSlice slice fun x => { x with cands := x.cands.filter fun c => !(c.hinted && c.region == region) }, true)
    else
      let mine := x.cands.filter fun c => c.hinted && c.stall == st
      if !(mine.any fun c => c.region == region) && decide (s.reg kFrameHintLimit ≤ mine.length) then (s, false)
      else match x.putCand c with
        | some y => (s.updSlice slice fun _ => y, true)
        | none => (s, false)

/-- What an admitted HINT does: its status and the state; resident frames are pinned or not by it (R96). -/
def State.hintDo (s : State) (st : Nat) (r : Req) : State × Status :=
  let off := s.localOff r
  match r.addr.toNat % 4096 with
  | 0 =>
    let g := off / 2 ^ 24
    let e := s.reqEntry r
    if off % 2 ^ 24 = 0 ∧ s.pitchFirst g then
      let t := if s.forPartner r then
        { s with pair := { s.pair with image := { s.pair.image with
            pitch := (s.pair.image.pitch.map Prod.fst).foldl (fun t k => t.upd {} k fun x =>
              if x.pitch = e.pitch then { x with hint := r.mod } else x) s.pair.image.pitch } } }
      else (s.setGranules (s.granulesWhere fun _ x => x.pitch == e.pitch && x.phase == .granted) fun x => { x with hint := r.mod }).1
      ((upTo 8).foldl (fun a n => a.repin n) t, .ok)
    else (s.count .stall st 32, .accessDenied)
  | 1 =>
    let h := s.sliceOf off
    match s.frameHint h.1 (regionOf h.2) st r.mod with
    | (s1, true) => (s1.repin h.1, .ok)
    | (s1, false) => (s1, .retryBusy)
  | _ => (s.count .stall st 32, .accessDenied)

/-! ### Work in the slice -/

/-- Parameters P0 to P7 of a DOORBELL. -/
def paramsOf (r : Req) : List Nat := (upTo 8).map fun i => bits (payloadNat r) (64 * i) 64

/-- What FLUSH and INVALIDATE wait for outside coherent windows (07 R152). -/
def State.flushWaits (s : State) (st : Nat) (op : ReqOp) (r : Req) : List (Nat × Nat) :=
  match op with
  | .flush => s.unperformedOf fun t => t.stall == st
  | .invalidate =>
    let lo := s.localOff r
    s.unperformedOf fun t => decide (t.op ≠ .doorbell)
      && decide (s.localOff t.req < lo + 64 * r.len ∧ lo < s.localOff t.req + 64 * max 1 t.req.len)
  | _ => []

/-- A DOORBELL that passes its checks (08 R159): it launches, or stores the standing parameters; recorded at once. -/
def State.doorbellDo (s : State) (st : Nat) (r : Req) : State × Trk :=
  let head := s.headOf (r.addr.toNat % 4096)
  let t := newTrk st .doorbell r
  if r.mod = 1 then
    let s1 := s.updBarrow head fun b => { b with standing := paramsOf r }
    (s1.recordTag st r.tag 0x20 .ok 0, t)
  else
    let params := if r.len = 1 then paramsOf r else (s.barrow head).standing
    match s.queueLaunch head .doorbell r.host params with
    | (s1, some n) =>
      (s1.recordTag st r.tag 0x20 .ok (BitVec.ofNat 64 n), { t with result := BitVec.ofNat 64 n })
    | (s1, none) => (s1, { t with status := .retryBusy })

/-- Snapshots have room for every line that a WRITE is to write (08 R177). -/
def State.writeRoom (s : State) (r : Req) : Bool :=
  s.snapRoomFor (((upTo r.len).map (s.unitOff r)).filter fun o => !s.homeDown o)

/-- Begin a request in its slice: memory work outside coherent windows is done on arrival, coherent units wait for the
directory (07 R145), a WRITE whose snapshots lack room is not performed (08 R177), and a HINT is carried out when the pipeline grants it. -/
def State.begin (s : State) (st : Nat) (op : ReqOp) (r : Req) : State :=
  let off := s.localOff r
  let slice := (s.reqSlice op r).getD 0
  let base := { newTrk st op r with
    slot := if op.usesKey then some (s.slotOf off) else none
    units := if op == .read || op == .cohRead then List.replicate r.len 0 else [] }
  match op with
  | .doorbell => let d := s.doorbellDo st r; d.1.track slice d.2
  | .hint => s.track slice base
  | .reduceWrite =>
    let w := ((s.readFrame off r.host r.tenant).touch off).reduceWrite base
    w.1.track slice w.2
  | _ =>
    if op == .write && !s.writeRoom r then s.track slice { base with status := .retryBusy }
    else
    let s := s.readFrame off r.host r.tenant
    if (s.reqEntry r).coherent then
      let id := s.nextTrk slice
      let t := { base with stage := .snooping, todo := upTo (unitCount op r) }
      let s1 := (s.touch off).track slice t
      let s2 := if op == .cohWriteback then match (s1.slice slice).trk id with
          | some u => s1.lateWriteback slice u
          | none => s1
        else s1
      s2.cohGo slice
    else
      let w := (s.touch off).unitsDo { base with waits := s.flushWaits st op r, todo := upTo (unitCount op r) } (upTo (unitCount op r))
      w.1.track slice { w.2 with result := w.2.finalResult, todo := [] }

/-! ### Admission -/

/-- The answer of the host port for a request of a stopped slice: reads POISON, with every unit of a multi-unit READ failed (R55),
all others UNCORRECTABLE, recorded for a non-idempotent one (R12, R58). -/
def State.replyStopped (s : State) (st : Nat) (op : ReqOp) (r : Req) : State :=
  let status := op.abortStatus .uncorrectable
  let n := if op == .read && decide (1 < r.len) then r.len else 0
  let s1 := if op.ni then s.recordTag st r.tag op.code status 0 else s
  s1.answer r.link r.tc { hostResp op.code r status (s.stallLoad st) with
    result := BitVec.ofNat 64 (2 ^ n - 1), data := List.replicate n 0 }

/-- An admitted request that every check passes. -/
def State.serve (s : State) (st : Nat) (op : ReqOp) (r : Req) : State :=
  match op with
  | .nop => s.reply st op r .ok 0
  | .mark =>
    let p := payloadNat r
    let m := s.markTake r.host (bits p 0 48 * 65536 + bits p 48 16)
      (let a := bits p 64 80; if a = 0 then 0 else stampNs a) (reqOff r)
    m.2.reply st op r m.1 0
  | _ =>
    match s.reqSlice op r with
    | some n =>
      if (s.slice n).stopped then s.replyStopped st op r
      else s.begin st op r
    | none => s

/-- The checks of R56 from ACCESS_DENIED on, after RETRY_BUSY. An UNCORRECTABLE of a non-idempotent request is recorded (R58). -/
def State.checkRights (s0 : State) (st : Nat) (op : ReqOp) (r : Req) : State :=
  if s0.wrongBoard op r then ((s0.count .stall st 38).switchMiss st r).reply st op r .accessDenied 0
  else if !wellFormedReq op r then (s0.count .stall st 32).reply st op r .accessDenied 0
  else
    let read := s0.readTables op r
    let s := read.1
    let bad := read.2 || s.entryBad r
    let status := match op with
      | .nop => Status.ok
      | .mark => Status.ok
      | .doorbell => s.doorbellStatus r
      | _ => if read.2 then .uncorrectable else s.pitchStatus op r
    if status = .ok then s.serve st op r
    else
      let s1 := if !read.2 && s.cohMalformed op r then s.count .stall st 32 else s
      let s2 := if status = .keyRetired then s1.count .key (s1.reqEntry r).slot 1 else s1
      let s3 := if op.ni && status.executed then s2.recordTag st r.tag op.code status 0 else s2
      let s4 := if op == .doorbell || (bad || s.baseCheck op r == .ok) then s3 else s3.switchMiss st r
      s4.reply st op r status 0

/-- Stall admission (R56, 12 R245): versions, the fence, the role, then RETRY_BUSY, then the rights. -/
def State.enter (s : State) (st : Nat) (op : ReqOp) (r : Req) : State :=
  let free := op == .mark || op == .nop
  let pass := free || s.admits st
  let s1 := if pass then s.chargeIn st (28 + 64 * r.payload.length) else s
  if s.unsupported st op r then s1.reply st op r .unsupportedVersion 0
  else if (s.stall st).phase ≠ .attached then s1.reply st op r .fenced 0
  else if s.staleBarrow op r then (s1.count .barrow (r.addr.toNat % 4096) 2).reply st op r .staleRole 0
  else if !pass then (s.count .stall st 33).reply st op r .retryBusy (if s.inGap r then 15 else 0)
  else if s.inGap r then s1.reply st op r .retryBusy 15
  else if !s.wrongBoard op r && s.busyNow st op r then s1.reply st op r .retryBusy 0
  else s1.checkRights st op r

/-! ### Arrival -/

/-- A request whose refusal stands above TAG_EXPIRED and RETRY_BUSY (R56): it goes on to admission, which refuses it. -/
def State.refusedFirst (s : State) (st : Nat) (op : ReqOp) (r : Req) : Bool := s.unsupported st op r || s.staleBarrow op r

/-- A held response goes out on the link that a replay of its tag came in on (R67): at once if it has left its slice or may leave it
now, charged then (12 R246, R252), and else through the egress of its slice. -/
def State.sendOn (s : State) (slice link : Nat) (t : Trk) : State :=
  let p : EgPkt := {
    stall := t.stall, tc := t.req.tc, origin := .slice slice t.id, msg := .resp (t.resp (s.loadFor slice t.stall)), paid := true }
  let go := fun (x : State) => (x.updSlice slice fun y => y.updTrk t.id fun t => { t with stage := .egress, left := true }).portSend link p
  let out := fun (x : State) => (go x).startHold slice t.id
  if t.left then go s
  else if s.outOpen t.stall && s.mayStart t.req.tc p.msg.bytes link then out (s.chargeOut t.stall p.msg.bytes)
  else (s.updSlice slice fun y => y.updTrk t.id fun t => { t with stage := .egress }).egressPush slice { p with paid := false }

/-- A packet at the reorder stage of an ATTACHED stall whose EPOCH matches (R58 to R61). -/
def State.reorder (s0 : State) (st : Nat) (op : ReqOp) (r : Req) : State :=
  let x0 := s0.stall st
  let old := r.hreplay || (behind r.tag x0.next && x0.firstSeen)
  let s := if old || !x0.firstSeen then s0.readTag st r.tag else s0
  let x := s.stall st
  let hit := if old || !x.firstSeen then x.lookup op r.tag else .fresh
  let s1 := s.updStall st fun x => x.firstArrive r.tag
  match (if old then s.inFlight st r.tag else none) with
  | some (n, t) => if t.stage = .heldResp then s1.sendOn n r.link t else s1
  | none =>
    if old && x.holds r.tag then s1
    else match hit with
      | .cached c => s1.replyCached st op r c
      | .expired => if s1.refusedFirst st op r then s1.enter st op r else s1.reply st op r .tagExpired 0
      | .fresh =>
        if s1.unsupported st op r then s1.enter st op r
        else if s1.mustWait st r then
          if s.reg kReorderHoldLimit ≤ x.held.length then
            if s1.staleBarrow op r then s1.enter st op r else s1.reply st op r .retryBusy 15
          else s1.updStall st fun x => { x with held := x.held ++ [(op, r)] }
        else s1.enter st op r

/-- A packet answered at once at the reorder stage, whose tag does not count (R59). -/
def State.notCounted (s : State) (st : Nat) (op : ReqOp) (r : Req) : State :=
  let stale := op != .doorbell && (s.stall st).epoch != r.epoch
  let status := if s.unsupported st op r then Status.unsupportedVersion
    else if (s.stall st).phase ≠ .attached then .fenced
    else if stale then .staleRole else .fenced
  s.reply st op r status 0

/-- Opcodes that count in their own row of a stall's tally when a host sends them (17 Table 17.1). -/
def ReqOp.counted : ReqOp → Bool
  | .snoop => false
  | .crierNotify => false
  | .push => false
  | .reserved _ => false
  | _ => true

/-- A refusal of a request whose sender no stall admits, on the link it came in on (R68, R70, R72) (DEDUCED, log 69). -/
def State.refuseSender (s : State) (op : ReqOp) (r : Req) : State :=
  s.answerOn r.link r.tc (hostResp op.code r .accessDenied (s.hostLoad (s.link r.link).partner))

/-- The stall by which a host is known for a number that is being taken over, and not served yet: that of the image, or in a hand-back
the one handed back, with the links it would have (R279) (DEDUCED, log 77). -/
def State.gapStall (s : State) (r : Req) : Option StallSt :=
  if s.pair.phase == .takingOver && s.inGap r then
    let m := if s.pair.handbackTake then s.pair.handed else s.pair.image
    (m.stalls.find? fun p => p.2.phase != .free && p.2.host == r.host).map fun p => { p.2 with linkSet := s.imageLinks r.host }
  else none

/-- The answer in the gap, by the order of R56: the request cannot be executed before the serve cycle. -/
def State.gapStatus (s : State) (x : StallSt) (op : ReqOp) (r : Req) : Status :=
  let links := (upTo 48).filter fun n => x.linkSet.getLsbD n && (s.link n).isUp
  if s.unsupportedBy (s.capsOn links x.caps) op r then .unsupportedVersion
  else if x.phase ≠ .attached then .fenced
  else if op ≠ .doorbell ∧ x.epoch ≠ r.epoch then .staleRole
  else .retryBusy

/-- A host request passed up by a link (R68, R70, R72): refused without a matching host, stall or link; else it reaches the
reorder stage, or finds the number it names in a switch-over gap. Links to other boards carry no request. -/
def State.hostRequest (s : State) (op : ReqOp) (r : Req) : State :=
  let l := s.link r.link
  if r.link ≥ 48 ∨ l.isUp = false ∨ 2 ≤ l.kind then s
  else if l.kind = 0 ∧ l.partner ≠ r.host then (s.count .link r.link 14).refuseSender op r
  else match s.gapStall r with
  | some x =>
    if l.kind = 1 ∧ x.linkSet.getLsbD r.link = false then (s.count .link r.link 10).refuseSender op r
    else
      let st := s.gapStatus x op r
      s.answer r.link r.tc (hostResp op.code r st (if st = .retryBusy then 15 else s.hostLoad r.host))
  | none => match s.stallFor r with
    | none =>
      (if l.kind = 1 then (s.count .board 0 0).count .link r.link 10 else s.count .board 0 0).refuseSender op r
    | some st =>
      if l.kind = 1 ∧ (s.stall st).linkSet.getLsbD r.link = false then (s.count .link r.link 10).refuseSender op r
      else
        let s1 := s.count .stall st op.row (b2n op.counted)
        let x := s.stall st
        if x.phase ≠ .attached ∨ (op ≠ .doorbell ∧ x.epoch ≠ r.epoch) then s1.notCounted st op r
        else s1.reorder st op r

end Sys2Proof.Machine
end

