-- ==== Sys2Proof/Machine/Egress.lean ====
section
/-! DEFINITION. Shaping, gates and priorities (12): the shaper table, the timing wheel, the gate lists, the slice pipeline and
the crossbar. -/

namespace Sys2Proof.Machine

/-! ### Shapers (R243, R247) -/

/-- Key of SHAPER_TABLE. -/
def kShaperTable : Nat := 0x403000

/-- A rate that R243 allows. -/
def rateOk (v : Nat) : Bool := v == 0 || decide (100 ≤ v ∧ v ≤ 4608000)

/-- A burst that R243 allows. -/
def burstOk (v : Nat) : Bool := decide (8192 ≤ v ∧ v ≤ 67108864)

/-- Write one row: both credits go to zero (R247). -/
def State.writeShaper (row v : Nat) (s : State) : State × Nat :=
  if rateOk (bits v 0 32) && (rateOk (bits v 32 32) && (burstOk (bits v 64 32) && burstOk (bits v 96 32))) then
    ((s.updShaper row fun _ => {
        rateIn := bits v 0 32, rateOut := bits v 32 32, burstIn := bits v 64 32, burstOut := bits v 96 32
        creditIn := 0, creditOut := 0, upTo := s.time.ao }).rowChanged 1 row, 0)
  else (s, 2)

/-- SHAPER_TABLE_WRITE (R247). -/
def execShaperTableWrite (f : Frame) (row : Nat) (rows : List Nat) (s : State) : Result :=
  .next (s.writeWindow f kShaperTable 32 row rows fun r v s => State.writeShaper r v s)

/-! ### The wheel (R250, R251) -/

/-- WHEEL_SLOT_DUE (R250): the earliest slot comes due; its flows become eligible, or are entered again when their credit is
still below zero (DEDUCED, log 55). -/
def execWheelSlotDue (slice : Nat) (s : State) : Result :=
  .next (match ((s.slice slice).wheel.map Prod.fst).min? with
  | none => s
  | some t =>
    let due := ((s.slice slice).wheel.filter fun w => w.1 == t).map Prod.snd
    let then_ := { s with time := { s.time with ao := max s.time.ao t } }
    due.foldl (fun a st =>
      if then_.outOpen st then a.updSlice slice fun x =>
        let y := x.leaveFlow st
        { y with eligible := y.eligible ++ [st] }
      else a.updSlice slice fun x =>
        let y := x.leaveFlow st
        { y with wheel := y.wheel ++ [(then_.wheelSlot st, st)] }) s)

/-- The stall's oldest packet in a slice that may start on the link the spray rule picks, with that link. -/
def State.nextPacket (s : State) (slice st : Nat) : Option (EgPkt × Nat) :=
  (s.slice slice).egress.findSome? fun p =>
    if p.stall = st then
      match s.sprayLink st p.msg.bytes with
      | some n => if s.mayStart p.tc p.msg.bytes n then some (p, n) else none
      | none => none
    else none

/-- Take a packet out of a slice's egress. -/
def SliceSt.dropPacket (x : SliceSt) (p : EgPkt) : SliceSt := { x with egress := x.egress.erase p }

/-- Every waiting packet of a stall in a slice is discarded, and its responses counted (04 R73). -/
def State.discardFlow (s : State) (slice st : Nat) : State :=
  let ps := (s.slice slice).egress.filter fun p => p.stall == st
  ps.foldl (fun a p => match p.origin with
    | .slice n id => a.discardTrk st n id
    | _ => a) (s.updSlice slice fun x => { x.leaveFlow st with egress := x.egress.filter fun p => p.stall != st })

/-- Responses that find no live link of their host are held in their entries (03 R67); a PUSH stays where it is. -/
def State.holdFlow (s : State) (slice st : Nat) : State :=
  let ps := (s.slice slice).egress.filter fun p => p.stall == st
  ps.foldl (fun a p => match p.origin with
    | .slice n id => (a.updSlice slice fun x => x.dropPacket p).updSlice n fun x => x.updTrk id fun t => { t with stage := .heldResp }
    | _ => a) (s.updSlice slice fun x => x.leaveFlow st)

/-- The packet leaves for the link's output port and is charged once (R246); the stall's other flows are placed by its credit when the
cc ends (R251). -/
def State.sendPacket (s : State) (slice : Nat) (p : EgPkt) (n : Nat) : State :=
  let s1 := (s.updSlice slice fun x => x.dropPacket p).updStall p.stall fun x => { x with sprayPtr := (n + 1) % 48 }
  let s2 := if p.paid then s1 else s1.chargeOut p.stall p.msg.bytes
  let s3 := match p.origin with
    | .slice k id => (s2.updSlice k fun x => x.updTrk id fun t => { t with left := true }).startHold k id
    | _ => s2
  let s4 := if (s3.slice slice).egress.any fun q => q.stall == p.stall then s3 else s3.updSlice slice fun x => x.leaveFlow p.stall
  { s4 with xbar := { s4.xbar with sent := s4.xbar.sent ++ [(slice, p.stall)] } }.waitAt n slice { p with paid := true }

/-- Stalls, and images of the partner's from 1,024 on (DESIGN CHOICE, log 2). -/
def flowCount : Nat := 2048

/-- FLOW_SEND (R250 steps 4 to 6): the first eligible flow at or after the pointer sends its oldest packet whose gate is open;
a flow whose packets all face a closed gate is parked. A slice sends once in a cc: its second send begins the next one (R251). -/
def execFlowSend (slice : Nat) (s : State) : Result :=
  .next (
    let s0 := if s.xbar.sent.any fun e => e.1 == slice then s.endSends else s
    let x := s0.slice slice
    match rotate flowCount x.flowPtr fun st => x.eligible.contains st with
    | none => s0
    | some st =>
      let s1 := s0.updSlice slice fun x => { x with flowPtr := (st + 1) % flowCount }
      if s0.silenced st then s1.discardFlow slice st
      else if s0.liveLinks st = [] then s1.holdFlow slice st
      else match s1.nextPacket slice st with
        | some (p, n) => s1.sendPacket slice p n
        | none =>
          if !(x.egress.any fun p => p.stall == st) then s1.updSlice slice fun x => x.leaveFlow st
          else if (s0.liveLinks st).any (fun n => (s0.link n).takes 4124) then
            s1.updSlice slice fun x =>
              let y := x.leaveFlow st
              { y with parkedFlows := y.parkedFlows ++ [st] }
          else s1)

/-! ### Gate lists (R253 to R258) -/

/-- What the write that `execActiveGateListWrite` names does, once it is accepted. -/
def actActiveGateListWrite (v : Nat) (s : State) : State × Ans :=
  if gateListOk (s.gateRows v) then (((s.setReg kActiveGateList v).rowChanged 5 0).applyGates, {}) else (s, refuse 3)

/-- ACTIVE_GATE_LIST_WRITE (R253, R255): a list that fails the checks is refused; one that passes sets the gates at the
current PHASE. -/
def execActiveGateListWrite (f : Frame) (v : Nat) (s : State) : Result :=
  .next (s.write f kActiveGateList 1 v actActiveGateListWrite)

/-- Key of GATE_LISTS. -/
def kGateLists : Nat := 0x803200

/-- Write one row: refused on the active list, and with 2 for the reserved value of MIGRATE or SCRUB (R255). -/
def State.writeGate (row v : Nat) (s : State) : State × Nat :=
  let e := gateOfWord v
  if row / 256 = s.reg kActiveGateList then (s, 3)
  else if e.migrate = 3 ∨ e.scrub = 3 then (s, 2)
  else ({ s with gates := { s.gates with lists := s.gates.lists.set {} row e } }.rowChanged 4 row, 0)

/-- GATE_LISTS_WRITE (R255). -/
def execGateListsWrite (f : Frame) (row : Nat) (rows : List Nat) (s : State) : Result :=
  .next (s.writeWindow f kGateLists 4 row rows fun r v s => State.writeGate r v s)

/-- FB_OFFSET_WRITE (R257): the staged offset. -/
def execFbOffsetWrite (f : Frame) (v : Nat) (s : State) : Result := .next (s.write f kFbOffset 4 v (storeEntry kFbOffset))

/-- Write one row of the staging copy of the fall-back list: a DURATION below 1,000 ns is refused with 2 (Table 12.3). -/
def State.writeFbRow (row v : Nat) (s : State) : State × Nat :=
  let e := fbOfWord v
  if e.duration < 1000 then (s, 2) else ({ s with gates := { s.gates with fbStage := s.gates.fbStage.set {} row e } }, 0)

/-- The staged list obeys R257. -/
def State.fbStageOk (s : State) : Bool :=
  let n : Nat := ((upTo 256).takeWhile fun i => (s.gates.fbStage.get {} i).valid).length
  let rows : List FbEntry := (upTo n).map fun i => s.gates.fbStage.get {} i
  let cycle : Nat := (rows.map (·.duration)).sum
  ((upTo 256).all fun i => (s.gates.fbStage.get {} i).valid == decide (i < n))
    && (decide (1000 ≤ cycle ∧ cycle ≤ 1000000000) && (1000000000 % cycle == 0
      && (decide (s.reg kFbOffset < cycle) && (rows.foldl (fun a e => a ||| e.tcOpen) 0 == 0xFF))))

/-- What the write that `execFbCommit` names does, once it is accepted. -/
def actFbCommit (_ : Nat) (s : State) : State × Ans :=
  if s.fbStageOk then
    let s1 := { s.setReg kFbResult 0 with gates := { s.gates with fbList := s.gates.fbStage, fbOffset := s.reg kFbOffset } }
    let s2 := s1.rowsChanged ((7, 0) :: ((upTo 256).filter fun i => s.gates.fbStage.get {} i != s.gates.fbList.get {} i).map fun i => (6, i))
    (if s2.time.fallback ∧ s2.boot.stage = .ready then s2.applyFallback else s2, done 0)
  else (s.setReg kFbResult 3, done 3)

/-- FB_COMMIT (R257): the staged list and offset take effect; a list that fails is refused with result 3. -/
def execFbCommit (f : Frame) (v : Nat) (s : State) : Result :=
  .next (s.write f kFbCommit 1 v actFbCommit)

/-- FALLBACK_GATE_ENTRY (R257, R258): the span of a row begins: the row that holds AO_TIME's offset, or the next one (DEDUCED,
log 55). -/
def execFallbackGateEntry (s : State) : Result :=
  .next (if s.time.fallback ∧ s.boot.stage = .ready then
    let rows := s.fbRows
    let now := (fbAt rows 0 s.fbPhase).1
    let k := if now ≠ s.gates.fbIndex then now else (s.gates.fbIndex + 1) % max 1 rows.length
    match rows[k]? with
    | none => s
    | some e =>
      let every := s.everySlice
      { s with gates := { s.gates with fbIndex := k } }.setGates e.tcOpen (if e.migrate then every else 0)
        (if e.scrub then every else 0)
  else s)

/-! ### The pipeline (R260 to R262) -/

/-- Grants of the last 1,024 cc. -/
def recentGrants (g : List Nat) (cc : Nat) : List Nat := g.filter fun t => decide (cc < t + 1024)

/-- Where a response to a SNOOP that waits at level 3 comes from, among the sources of its queue. -/
def cohSource : Nat := 200

/-- A level of 4 to 6 is promoted: it waits, and its wait has reached the promotion time (R261). -/
def Pipe.promoted (p : Pipe) (level : Nat) : Bool :=
  !(p.level level).isEmpty && (match level with
    | 4 => p.promote4 || decide (16 ≤ p.wait4)
    | 5 => p.promote5 || decide (32 ≤ p.wait5)
    | _ => p.promote6 || decide (32 ≤ p.wait6))

/-- The level that the next cc grants. -/
def Pipe.pick (p : Pipe) : Option Nat :=
  if !p.q1.isEmpty && decide ((recentGrants p.grants1 p.cc).length < 64) then some 1
  else if !p.q2.isEmpty && decide ((recentGrants p.grants2 p.cc).length < 128) then some 2
  else if p.promoted 4 then some 4
  else if p.promoted 5 then some 5
  else if p.promoted 6 then some 6
  else [3, 4, 5, 6].find? fun l => !(p.level l).isEmpty

/-- The operation of levels 5 and 6 that the rotating pointer picks: the first source at or after it. -/
def pickSource (q : List PipeOp) (ptr : Nat) : Option PipeOp :=
  let after := q.filter fun o => decide (ptr ≤ o.source)
  let from_ := if after.isEmpty then q else after
  match (from_.map (·.source)).min? with
  | none => none
  | some m => from_.find? fun o => o.source == m

/-- Responses beyond level 2's limit wait at level 3, in arrival order (Table 12.4). -/
def Pipe.overflow (p : Pipe) : Pipe :=
  if p.q2.isEmpty || decide ((recentGrants p.grants2 p.cc).length < 128) then p
  else { p with q2 := [], q3 := p.q3 ++ p.q2.map fun o => { o with source := cohSource } }

/-- The waits of levels 4 to 6 count one cc, from 0 for an empty level. -/
def Pipe.age (p : Pipe) : Pipe :=
  { p with
    cc := p.cc + 1
    wait4 := if p.q4.isEmpty then 0 else p.wait4 + 1
    wait5 := if p.q5.isEmpty then 0 else p.wait5 + 1
    wait6 := if p.q6.isEmpty then 0 else p.wait6 + 1 }

/-- The operation granted at a level, and the pipeline after it; a promoted grant of a level restarts its wait (R261). -/
def Pipe.grant (p : Pipe) (level : Nat) : Option PipeOp × Pipe :=
  match level with
  | 1 => (p.q1.head?, { p with q1 := p.q1.drop 1, grants1 := p.cc :: recentGrants p.grants1 p.cc })
  | 2 => (p.q2.head?, { p with q2 := p.q2.drop 1, grants2 := p.cc :: recentGrants p.grants2 p.cc })
  | 3 => (p.q3.head?, { p with q3 := p.q3.drop 1 })
  | 4 => (p.q4.head?, { p with q4 := p.q4.drop 1, wait4 := if p.promoted 4 then 0 else p.wait4, promote4 := false })
  | 5 =>
    match pickSource p.q5 p.ptr5 with
    | some o => (some o, { p with
        q5 := p.q5.erase o, ptr5 := o.source + 1, wait5 := if p.promoted 5 then 0 else p.wait5, promote5 := false })
    | none => (none, p)
  | _ =>
    match pickSource p.q6 p.ptr6 with
    | some o => (some o, { p with
        q6 := p.q6.erase o, ptr6 := o.source + 1, wait6 := if p.promoted 6 then 0 else p.wait6, promote6 := false })
    | none => (none, p)

/-- A host request is granted: a HINT is carried out now, the request is complete, and what its reads found is acted on. -/
def State.granted (s : State) (slice : Nat) (t : Trk) : State :=
  let h := if t.op == .hint then s.hintDo t.stall t.req else (s, t.status)
  (h.1.complete slice t.id fun t => { t with stage := .done, status := h.2 }).takeCandidates slice

/-- PIPELINE_GRANT (R260, R261): one cc of the slice's pipeline; a host request granted is complete. -/
def execPipelineGrant (slice : Nat) (s : State) : Result :=
  .next (if slice < 8 ∧ (s.slice slice).park ≠ .parked then
    let p := (s.slice slice).pipe.age.overflow
    match p.pick with
    | none => s.updSlice slice fun x => { x with pipe := p }
    | some l =>
      let g := p.grant l
      let s1 := s.updSlice slice fun x => { x with pipe := g.2 }
      match g.1 with
      | some o =>
        if l = 3 ∧ o.source ≠ cohSource then
          match (s1.slice slice).trk o.what with
          | some t => if t.stage = .queued then s1.granted slice t else s1
          | none => s1
        else s1
      | none => s1
  else s)

/-- Cc's of waiting after which a level is promoted (Table 12.4). -/
def promotionTime (level : Nat) : Nat := if level = 4 then 16 else 32

/-- A level's wait count. -/
def Pipe.waited (p : Pipe) (level : Nat) : Nat := match level with | 4 => p.wait4 | 5 => p.wait5 | _ => p.wait6

/-- PRIORITY_PROMOTION (R261): the oldest operation of level 4, 5 or 6 has waited its promotion time; before that it changes
nothing. -/
def execPriorityPromotion (slice level : Nat) (s : State) : Result :=
  .next (if slice < 8 then
    s.updSlice slice fun x =>
      let p := x.pipe
      if (p.level level).isEmpty || decide (p.waited level < promotionTime level) then x
      else match level with
        | 4 => { x with pipe := { p with promote4 := true } }
        | 5 => { x with pipe := { p with promote5 := true } }
        | 6 => { x with pipe := { p with promote6 := true } }
        | _ => x
  else s)

/-! ### The crossbar (R264) -/

/-- The first waiting packet of the source that the pointer picks. -/
def pickFrom {α : Type} (n ptr : Nat) (q : List (Nat × α)) : Option (Nat × α) :=
  match rotate n ptr fun i => q.any fun p => p.1 == i with
  | some i => q.find? fun p => p.1 == i
  | none => none

/-- The input port of a slice moves one request to the entry queue, or one remote access of another slice's member to level 5 (08 R167). -/
def State.xbarIn (s : State) (slice : Nat) : State :=
  match pickFrom 56 (s.xbar.inPtr.get 0 slice) (s.xbar.inWait.get [] slice) with
  | none => s
  | some (src, id) =>
    let s1 := { s with xbar := { s.xbar with
      inWait := s.xbar.inWait.upd [] slice fun l => l.erase (src, id)
      inPtr := s.xbar.inPtr.set 0 slice ((src + 1) % 56) } }
    if 48 ≤ src then s1.pipePush slice 5 id 0
    else match (s1.slice slice).trk id with
      | some _ => s1.pipePush slice 3 src id
      | none => s1

/-- A packet whose link has gone down at the output port goes back to the unit that sent it (03 R49, R67). -/
def State.rerouted (s : State) (p : EgPkt) : State :=
  s.returnPacket { seq := 0, tc := p.tc, replay := false, origin := p.origin, msg := p.msg }

/-- The output port of a link moves one packet into the replay buffer. -/
def State.xbarOut (s : State) (n : Nat) : State :=
  match pickFrom 9 (s.xbar.outPtr.get 0 n) (s.xbar.outWait.get [] n) with
  | none => s
  | some (src, p) =>
    let s1 := { s with xbar := { s.xbar with
      outWait := s.xbar.outWait.upd [] n fun l => l.erase (src, p)
      outPtr := s.xbar.outPtr.set 0 n ((src + 1) % 9) } }
    if !(s.link n).isUp then s1.rerouted p
    else if (s.link n).takes p.msg.bytes then s1.intoLink n p
    else s

/-- CROSSBAR_GRANT (R264). -/
def execCrossbarGrant (output : Bool) (port : Nat) (s : State) : Result :=
  .next (if output then (if port < 48 then s.xbarOut port else s)
    else if port < 8 then s.xbarIn port else s)

end Sys2Proof.Machine
end

