-- ==== Sys2Proof/Machine/Firmware.lean ====
section
/-! DEFINITION. The two firmware slots (20 R394 to R396): loading the slot not booted, and verifying it. -/

namespace Sys2Proof.Machine

/-- The slot that FW_IMAGE and FW_GO act on. -/
def State.spareSlot (s : State) : Nat := 1 - s.boot.booted

/-- A slot is accepted (R394): a valid signature, a security version not below the fuse bank's, and FW_RELEASE of major 4. -/
def State.fwAccepted (s : State) (slot : Nat) (sig : Bool) : Bool :=
  let n := (s.fwSlot slot).version
  sig && (decide (Config.minSvn.toNat ≤ (Config.fwSvn slot n).toNat)
    && decide (bits (Config.fwRelease slot n).toNat 24 8 = 4))

/-- Write one row of the image: the slot's accepted state goes. -/
def State.writeFwRow (row v : Nat) (s : State) : State × Nat :=
  (s.updFwSlot s.spareSlot fun x => {
    status := 0, version := x.version + 1, image := x.image.set 0 row (BitVec.ofNat 32768 v) }, 0)

/-- Key of FW_IMAGE. -/
def kFwImage : Nat := 0x104201

/-- FW_IMAGE_WRITE (R396). -/
def execFwImageWrite (f : Frame) (row : Nat) (rows : List Nat) (s : State) : Result :=
  .next (s.writeWindow f kFwImage 4096 row rows State.writeFwRow)

/-- What the write that `execFwGo` names does, once it is accepted. -/
def actFwGo (_ : Nat) (s : State) : State × Ans :=
  if s.boot.fwVerifying then (s.setReg kFwResult 1, done 1)
  else (({ s with boot := { s.boot with fwVerifying := true } } : State).setReg kFwResult 2, done 2)

/-- FW_GO (R396): FW_RESULT reads 2 while the verification runs, and a second one is refused with 1. -/
def execFwGo (f : Frame) (v : Nat) (s : State) : Result := .next (s.write f kFwGo 1 v actFwGo)

/-- FW_VERIFY_DONE (R396): an accepted image becomes the one that boots next. -/
def execFwVerifyDone (sig : Bool) (s : State) : Result :=
  .next (if s.boot.fwVerifying then
    let ok := s.fwAccepted s.spareSlot sig
    let s1 := s.updFwSlot s.spareSlot fun x => { x with status := if ok then 1 else 2 }
    ({ s1 with boot := { s1.boot with fwVerifying := false, bootSlot := if ok then s.spareSlot else s.boot.bootSlot } } :
      State).setReg kFwResult (if ok then 0 else 3)
  else s)

end Sys2Proof.Machine
end

