-- ==== Sys2Proof/Machine/HalyardOps.lean ====
section
/-! DEFINITION. The halyard's receiver and the changes of pair state (13 R271 to R285, 20 R399): packets applied in HSEQ order,
the image, relinquish, takeover, rejoin and resynchronisation. -/

namespace Sys2Proof.Machine

/-! ### Runs of stored lines (Tables 13.1 and 13.2) -/

/-- Lines that go in one packet: poisoned alone, cleared together, others together. -/
structure LineRun where
  offset : Nat
  poisoned : Bool
  cleared : Bool
  data : List Line
deriving DecidableEq, Repr, Inhabited

/-- A stored line as a packet carries it: poisoned, cleared, and its ciphertext. -/
def SLine.carried (l : SLine) : Bool × Bool × Line :=
  match l.decode with
  | (.poisoned, _) => (true, false, 0)
  | (.uncorrectable, _) => (true, false, 0)
  | (.cleared, _) => (false, true, 0)
  | (_, d) => (false, false, d)

/-- Put a line behind the newest run, or begin a new one: a run stays within 64 lines and one 4 KiB page. -/
def addToRuns (runs : List LineRun) (off : Nat) (c : Bool × Bool × Line) : List LineRun :=
  let fresh : LineRun := { offset := off, poisoned := c.1, cleared := c.2.1, data := [c.2.2] }
  match runs with
  | [] => [fresh]
  | r :: rest =>
    if !c.1 && (!r.poisoned && (r.cleared == c.2.1 && (r.offset + 64 * r.data.length == off && r.offset / 4096 == off / 4096)))
    then { r with data := r.data ++ [c.2.2] } :: rest
    else fresh :: runs

/-- The runs of some lines in ascending order. -/
def State.runsOf (s : State) (offs : List Nat) : List LineRun :=
  (offs.foldl (fun acc off => addToRuns acc off (if s.homeDown off then (true, false, 0) else (s.stored off).carried)) []).reverse

/-- Lines of a page. -/
def pageLines (off : Nat) : List Nat := (upTo 64).map fun i => off / 4096 * 4096 + 64 * i

/-- Read the lines of a run as they are sent (06 R118, R122). -/
def State.readRun (s : State) (r : LineRun) (level : Nat) : State :=
  (upTo r.data.length).foldl (fun a i =>
    if a.homeDown (r.offset + 64 * i) then a else (a.readLine (r.offset + 64 * i) 0xFFF level).1) s

/-! ### The pair epoch (R64, R271) -/

/-- Renumber what waits for MIRROR_ACK: tracked requests, recalls, revokes, the grant, the clear, removals, running launches and the copy. -/
def State.mapHseq (s : State) (f : Nat → Option Nat) : State :=
  let s1 := (upTo 8).foldl (fun a n => a.updSlice n fun x => { x with
    tracker := x.tracker.map fun (t : Trk) => { t with hseq := t.hseq.bind f }
    txns := x.txns.map fun (t : Txn) => { t with hseq := t.hseq.bind f } }) s
  let s2 := (upTo 16).foldl (fun a n => a.updRevoke n fun (r : RevokeEntry) => { r with hseq := r.hseq.bind f }) s1
  let s3 := { s2 with
    pitch := { s2.pitch with
      grantRun := s2.pitch.grantRun.map fun (r : GrantRun) => { r with hseq := r.hseq.bind f }
      clearRun := s2.pitch.clearRun.map fun (r : ClearRun) => { r with hseq := r.hseq.bind f } }
    sec := { s2.sec with tenants := s2.sec.tenants.map fun (p : Nat × TenantSt) => (p.1, { p.2 with hseq := p.2.hseq.bind f }) }
    pair := { s2.pair with copyHseq := s2.pair.copyHseq.bind f } }
  s3.mapBarrows fun _ b => { b with
    running := b.running.map fun (r : Running) => { r with
      members := r.members.map fun (m : Member) => { m with hseq := m.hseq.bind f } } }

/-- Take a pair epoch: HSEQ starts again at 0 both ways, and packets not acknowledged are numbered anew and sent again. -/
def State.takeEpoch (s : State) (e : BitVec 8) : State :=
  let old := s.pair.sent.map (·.hseq)
  let s1 := s.mapHseq fun h => if old.contains h then some (old.findIdx (· == h)) else none
  let s2 := { s1 with pair := { s1.pair with
    epoch := e, hseqNext := s1.pair.sent.length, hseqAcked := none, applyNext := 0, rxAhead := [], nacked := none
    sent := s1.pair.sent.zipIdx.map fun (p : HalOut × Nat) => { p.1 with hseq := p.2, onWire := false }
    image := { s1.pair.image with staged := [] } } }
  s2.halFlush

/-- Advance the pair epoch by 1 modulo 256. -/
def State.advancePair (s : State) : State :=
  { s with pair := { s.pair with pairAdvances := s.advanced s.pair.pairAdvances } }.takeEpoch (s.pair.epoch + 1)

/-! ### The image (R274 to R276) -/

/-- A stall as a STALL record describes it (Table 4.1), with what its image already holds. -/
def StallSt.ofWord (x : StallSt) (w : Nat) : StallSt :=
  { x with
    phase := match bits w 62 2 with | 0 => .free | 1 => .attached | 2 => .fenced | _ => .detaching
    orderMode := bits w 60 2, strictTc := BitVec.ofNat 8 (bits w 52 8), epoch := BitVec.ofNat 8 (bits w 44 8)
    host := bits w 32 12, caps := BitVec.ofNat 8 (bits w 24 8) }

/-- The directory entry that words 0 and 1 of Tables 7.1 and 7.2 hold. -/
def dirOfWords (w0 w1 : Nat) : DirEntry where
  valid := bitAt w0 63
  phase := match bits w0 60 3 with | 0 => .shared | 1 => .pennant | 2 => .owned | 3 => .orphaned | _ => .stale
  busy := false
  held := false
  line := bits w0 24 34
  holder := bits w0 14 10
  coarse := bitAt w0 13
  sharers := BitVec.ofNat 64 w1

/-- A tag slot of a TAG record. -/
def tagOfRecord (c : Nat) : TagSlot where
  valid := true
  tag := BitVec.ofNat 16 (bits c 16 16)
  opcode := bits c 32 8
  status := Status.ofCode (bits c 40 8)
  result := BitVec.ofNat 64 (bits c 64 64)

/-- Put a tag record into a stall's cache. -/
def StallSt.putTag (x : StallSt) (c : Nat) : StallSt :=
  { x with tags := x.tags.set {} (bits c 16 16 % 4096) (tagOfRecord c) }

/-- What a CONTROL record does to an image (Table 13.3). -/
def PairImage.apply (m : PairImage) (type c : Nat) : PairImage :=
  match type with
  | 1 => { m with pitch := m.pitch.set {} (bits c 0 32) (pitchOfWord (bits c 32 64)) }
  | 2 => { m with acl := m.acl.set {} (64 * bits c 0 14 + bits c 16 6) (aclOfWord (bits c 32 32)) }
  | 3 => { m with keys := m.keys.set (0, 0) (bits c 0 8) (bits c 8 8, bits c 16 8) }
  | 4 => { m with stalls := m.stalls.upd {} (bits c 0 16 % 1024) fun x => x.ofWord (bits c 64 64) }
  | 5 => { m with dir := m.dir.set {} (bits c 0 40) (dirOfWords (bits c 64 64) (bits c 128 64)) }
  | 6 => { m with stalls := m.stalls.upd {} (bits c 0 16 % 1024) fun x => x.putTag c }
  | _ => m

/-- A record concerns the number that this board takes back: a marked PITCH or ACL record, an image stall of the sender, a line
of the mirrored range (DESIGN CHOICE, log 22). -/
def State.recordOwn (s : State) (type c : Nat) : Bool :=
  match type with
  | 1 => decide (ownMark ≤ c)
  | 2 => decide (ownMark ≤ c)
  | 4 => decide (1024 ≤ bits c 0 16)
  | 5 => decide (s.pair.window ≤ bits c 0 40 / 2 ^ 18)
  | 6 => decide (1024 ≤ bits c 0 16)
  | _ => false

/-- GRANULE_SYNCED of a granule of this board: the image entry of a window granule, or the entry taken back, reads MIRRORED. -/
def State.granuleSynced (s : State) (g : Nat) : State :=
  if g < s.pair.window then
    { s with pair := { s.pair with image := { s.pair.image with
        pitch := s.pair.image.pitch.upd {} (g + s.pair.window) fun e => { e with mirrored := true } } } }
  else
    { s with pair := { s.pair with handed := { s.pair.handed with
        pitch := s.pair.handed.pitch.upd {} g fun e => { e with mirrored := true } } } }

/-- Store a CONTROL record (R275). -/
def State.applyRecord (s : State) (u : Line) : State :=
  let type := bits u.toNat 0 8
  let c := u.toNat / 2 ^ 64
  if type = 7 then s.granuleSynced (bits c 0 32)
  else if s.recordOwn type c then { s with pair := { s.pair with handed := s.pair.handed.apply type c } }
  else { s with pair := { s.pair with image := s.pair.image.apply type c } }

/-- Commit the staged epoch in the cc in which EPOCH_END is applied (R276): tag slots go to the image stalls, the other rows are
kept by kind and index. -/
def State.commitEpoch (s : State) (n : Nat) : State :=
  let m := s.pair.image
  let put := fun (t : Tbl StallSt) (u : Line) =>
    t.upd {} (bits (u.toNat / 2 ^ 64) 0 16 % 1024) fun x => x.putTag (u.toNat / 2 ^ 64)
  let tags := m.staged.filter fun u => bits u.toNat 0 8 == 2
  let own := fun (u : Line) => decide (1024 ≤ bits (u.toNat / 2 ^ 64) 0 16)
  let rows := m.staged.filter fun u => bits u.toNat 0 8 != 2
  let key := fun (u : Line) => bits u.toNat 0 64
  { s with pair := { s.pair with
      image := { m with
        staged := [], epochNo := n
        stalls := (tags.filter fun u => !own u).foldl put m.stalls
        committed := m.committed.filter (fun u => !(rows.any fun v => key v == key u)) ++ rows }
      handed := { s.pair.handed with stalls := (tags.filter own).foldl put s.pair.handed.stalls } } }

/-! ### Applying packets (R272) -/

/-- The lines of a MIRROR_WRITE stand where it may write: the window always, the mirrored range in a rejoin, and in PAIRED only
a line lost in a fold that nothing has written since (R285, DEDUCED, log 23). -/
def State.mirrorTakes (s : State) (off : Nat) : Bool :=
  let g := off / 2 ^ 24
  if g < s.pair.window then true
  else if 2 * s.pair.window ≤ g then false
  else s.pair.phase == .syncing || (s.pair.phase == .takingOver && s.pair.handbackTake) || (s.movedForm off).isSome

/-- Write one line as stored, and keep WRITTEN of the image's entry (04 R76). -/
def State.applyLine (s : State) (off : Nat) (l : SLine) : State :=
  if s.homeDown off || !s.mirrorTakes off then s
  else
    let s1 := (s.storeLine off l 4).1
    let g := off / 2 ^ 24 + s.pair.window
    if off / 2 ^ 24 < s.pair.window && (s1.pair.image.pitch.get {} g).phase != .free then
      { s1 with pair := { s1.pair with image := { s1.pair.image with
          pitch := s1.pair.image.pitch.upd {} g fun e => { e with written := true } } } }
    else s1

/-- A slot is active with an epoch: bound to a tenant (15 R311). -/
def KeySlot.activeAt (k : KeySlot) (epoch : BitVec 8) : Bool := (k.phase == .bound || k.phase == .keyed) && k.epoch == epoch

/-- KEY_MISMATCH (R272 step 3). -/
def State.keyMismatch (s : State) (h : HalHdr) : State :=
  s.crier 8 0x1A h.slot
    (h.slot + h.keyEpoch.toNat * 2 ^ 8 + (s.key h.slot).epoch.toNat * 2 ^ 16 + h.kind * 2 ^ 24)

/-- Write the lines of a MIRROR_WRITE, at level 4 of the slice's pipeline. -/
def State.applyMirror (s : State) (h : HalHdr) (data : List Line) : State :=
  let bad := !h.cleared && !(s.key h.slot).activeAt h.keyEpoch
  let form := fun (d : Line) => if h.cleared then clearLine else if h.poisoned || bad then poisonLine else codeword d
  let s1 := s.pipePush (s.sliceOf h.offset).1 4 h.slot h.hseq
  let s2 := (data.zipIdx).foldl (fun a p => a.applyLine (h.offset / 64 * 64 + 64 * p.2) (form p.1)) s1
  if bad then s2.keyMismatch h else s2

/-- Apply the packet whose turn it is; none where its slice epoch refuses it (R272 step 2). -/
def State.applyPacket (s : State) (p : HalPkt) : Option State :=
  let h := halHdr p.hdr
  match h.kind with
  | 1 =>
    if (s.slice (s.sliceOf h.offset).1).epoch = h.sliceEpoch then some (s.applyMirror h p.payload) else none
  | 2 => some (p.payload.foldl (fun a u => a.applyRecord u) s)
  | 3 => some { s with pair := { s.pair with image := { s.pair.image with staged := s.pair.image.staged ++ p.payload } } }
  | 4 => some (s.commitEpoch (bits (p.payload.headD 0).toNat 0 32))
  | _ => some s

/-- Apply the packets that stand in turn, from those held. -/
def State.applyTurn : Nat → State → State
  | 0, s => s
  | n + 1, s =>
    match s.pair.rxAhead.find? fun p => (halHdr p.hdr).hseq == s.pair.applyNext with
    | none => s
    | some p =>
      let rest := s.pair.rxAhead.filter fun q => (halHdr q.hdr).hseq != s.pair.applyNext
      let s0 := { s with pair := { s.pair with rxAhead := rest } }
      match s0.applyPacket p with
      | none => { s0 with pair := { s0.pair with nacked := some (halHdr p.hdr).hseq } }
      | some s1 =>
        State.applyTurn n { s1 with pair := { s1.pair with applyNext := (s1.pair.applyNext + 1) % 2 ^ 32, nacked := none } }

/-- A sequenced packet from the halyard (R271, R272): a wrong pair epoch discards it, one applied already is ignored, one ahead
of its turn is held. A SYNCING board takes its active partner's epoch (DEDUCED, log 24). -/
def State.seqReceive (s : State) (kind : Nat) (p : HalPkt) : State :=
  let h := halHdr p.hdr
  if !(s.liveHalyard.contains p.link) || h.kind != kind then s
  else
    let s1 := if s.pair.phase == .syncing && h.pairEpoch != s.pair.epoch then s.takeEpoch h.pairEpoch else s
    if h.pairEpoch ≠ s1.pair.epoch then s1.count .board 0 9
    else
      let d := (h.hseq + 2 ^ 32 - s1.pair.applyNext) % 2 ^ 32
      if 2 ^ 31 ≤ d || s1.pair.rxAhead.any (fun q => (halHdr q.hdr).hseq == h.hseq) then s1
      else
        let s2 := { s1 with pair := { s1.pair with rxAhead := s1.pair.rxAhead ++ [p] } }
        State.applyTurn s2.pair.rxAhead.length s2

/-! ### Entering states -/

/-- PAIR_RESULT reads 0 once a command it showed as running is done. -/
def State.pairDone (s : State) : State := if s.reg kPairResult = 2 then s.setReg kPairResult 0 else s

/-- BODY of a SWITCH_OVER ledger entry (15 Table 15.13). -/
def switchBody (old new : PairPhase) (reason number final : Nat) : Nat :=
  old.code + new.code * 2 ^ 8 + reason % 256 * 2 ^ 16 + number % 256 * 2 ^ 24 + final % 2 ^ 32 * 2 ^ 32

/-- A board without a standby clears MIRRORED in its own entries and lists those granules (Table 13.5, R284); what waited for
MIRROR_ACK waits no longer. -/
def State.unmirror (s : State) (served : List Nat) : State :=
  let own := s.granulesWhere fun _ e => e.mirrored
  let s1 := own.foldl (fun a g => a.updGranule g fun e => { e with mirrored := false }) s
  { s1 with pair := { s1.pair with
      sent := [], activeSide := false, copying := none, copyHseq := none, epochDeferred := false
      resync := served ++ own } }

/-- SOLO (R283). -/
def State.enterSolo (s : State) : State :=
  (({ s with pair := { s.pair with phase := .solo, partnerReset := false } } : State).unmirror []).pairDone

/-- PAIRED: reached from UNPAIRED, or at the end of a rejoin. -/
def State.enterPaired (s : State) : State :=
  ({ s with pair := { s.pair with
      phase := .paired, relinq := none, activeSide := false, copying := none, copyHseq := none, partnerReset := false
      handed := {} } } : State).pairDone

/-- The shaper row of an image stall by the committed epoch data (Table 13.4). -/
def PairImage.shaper (m : PairImage) (st : Nat) : Shaper :=
  match m.committed.find? fun u => bits u.toNat 0 8 == 1 && bits u.toNat 32 32 == st with
  | some u =>
    let w := u.toNat / 2 ^ 64
    { rateIn := bits w 0 32, rateOut := bits w 32 32, burstIn := bits w 64 32, burstOut := bits w 96 32 }
  | none => {}

/-- Make a stall of the image live under a number: no next-missing tag, both credits 0 (R279 step 3). -/
def State.liveStall (s : State) (st : Nat) (x : StallSt) (row : Shaper) : State :=
  let s1 := s.updStall st fun old => { x with
    linkSet := if x.phase == .free then 0 else s.imageLinks x.host
    next := 0, firstSeen := false, ahead := [], held := [], advances := old.advances, crierQ := [] }
  (s1.updShaper st fun _ => { row with creditIn := 0, creditOut := 0, upTo := s.time.ao }).recomputeCaps st

/-- Make a directory entry of the image live in its slice; one whose set has no free way is dropped (DEDUCED, log 25). -/
def State.liveDir (s : State) (base line : Nat) (e : DirEntry) : State :=
  let off := line * 64
  let h := s.sliceOf off
  let n := s.lineNo off
  match (dirWays n).find? fun k => !((s.slice h.1).dirAt k).valid with
  | some k =>
    if e.valid then
      s.updSlice h.1 fun x => x.updDir k fun _ => { e with
        line := n, busy := false, held := false
        holder := if e.phase == .owned || e.phase == .pennant then base + e.holder % 1024 else e.holder }
    else s
  | none => s

/-- Activate the image for the partner's number (R279 step 3). -/
def State.activateImage (s : State) : State :=
  let m := s.pair.image
  let live := (m.pitch.filter fun p => p.2.mirrored && p.2.phase != .free).foldl
    (fun (t : Tbl PitchEntry) p => t.set {} p.1 { p.2 with mirrored := false }) []
  let s1 := { s with pair := { s.pair with phase := .servingBoth, image := { m with pitch := live, staged := [] } } }
  let s2 := m.stalls.foldl (fun a p => a.liveStall (1024 + p.1) p.2 (m.shaper p.1)) s1
  let s3 := m.dir.foldl (fun a p => if p.1 / 2 ^ 18 < a.pair.window then a.liveDir 1024 p.1 p.2 else a) s2
  s3.unmirror (live.map fun p => p.1 - s.pair.window)

/-- Activate what a rejoin brought of the board's own number (R279, hand-back). -/
def State.activateHanded (s : State) : State :=
  let m := s.pair.handed
  let s1 := m.pitch.foldl (fun a p => a.updGranule p.1 fun _ => p.2) s
  let s2 := { s1 with pitch := { s1.pitch with acl := m.acl } }
  let s3 := m.stalls.foldl (fun a p => a.liveStall p.1 p.2 (a.shaper p.1)) s2
  (m.dir.foldl (fun a p => a.liveDir 0 p.1 p.2) s3).enterPaired

/-- Hosts whose own stall, or in a takeover image stall, is ATTACHED. -/
def State.attachedHosts (s : State) (own : Bool) : List Nat :=
  ((s.stalls.filter fun p => p.2.phase == .attached && (!own || decide (p.1 < 1024))).map fun p => p.2.host).eraseDups

/-- The serve cycle (R279 step 4): the image is live, SWITCHED_OVER goes to the hosts, and the ledger entry is made. -/
def State.serveImage (s : State) (final : Nat) : State :=
  let hand := s.pair.handbackTake
  let s1 := if hand then s.activateHanded else s.activateImage
  let s2 := s1.crier 8 0x1B s.pair.takingNumber
    (s.pair.takeReason % 256 + s1.pair.phase.code * 2 ^ 8 + final % 2 ^ 32 * 2 ^ 32) (s1.attachedHosts hand)
  let s3 := s2.ledger 0x08 0 Actor.board 0
    (switchBody .takingOver s1.pair.phase s.pair.takeReason s.pair.takingNumber final)
  ({ s3 with pair := { s3.pair with takenOn := false, streamEnd := none, finalHseq := none } } : State).pairDone

/-! ### Relinquish (R278) -/

/-- The tracker entries of the number given up. -/
def Relinquish.concerns (r : Relinquish) (t : Trk) : Bool := if r.handback then decide (1024 ≤ t.stall) else decide (t.stall < 1024)

/-- Tracker entries that pass a test, by slice. -/
def State.trkWhere (s : State) (p : Trk → Bool) : List (Nat × Trk) :=
  (upTo 8).flatMap fun n => ((s.slice n).tracker.filter p).map fun t => (n, t)

/-- An admitted request that still runs. -/
def Trk.running (t : Trk) : Bool := t.stage == .snooping || t.stage == .queued

/-- An admitted request that is neither performed nor forwarded: it waits for snoops, or it is no write and its slice has yet to
carry it out. -/
def Trk.unforwarded (t : Trk) : Bool := t.stage == .snooping || (t.stage == .queued && !t.op.writeClass)

/-- Abort the requests still not forwarded, 20 µs after the relinquish cycle (R278 step 3). -/
def State.abortUnforwarded (s : State) (r : Relinquish) : State :=
  (s.trkWhere fun t => r.concerns t && t.unforwarded).foldl (fun a p => a.abort p.1 p.2.id (p.2.op.abortStatus .uncorrectable)) s

/-- Answer what the number given up still owes: a write that the final MIRROR_ACK does not cover UNCORRECTABLE (R278 step 4). -/
def State.answerLast (s : State) (r : Relinquish) : State :=
  (s.trkWhere fun t => r.concerns t && (t.stage != .inLink && t.stage != .snooping)).foldl (fun a p =>
    let b := if a.halCovered p.2.hseq then a
      else a.updSlice p.1 fun x => x.updTrk p.2.id fun t => { t with status := .uncorrectable, result := 0, units := [], hseq := none }
    b.answerTrk p.1 p.2.id) s

/-- Take the host links 0–43 down with reason DISABLED; LINK_ENABLE is cleared but not in flash (R278 step 5) (DEDUCED, log 57). -/
def State.dropHostLinks (s : State) : State :=
  let s1 := (s.setReg kLinkEnable (s.reg kLinkEnable / 2 ^ 44 * 2 ^ 44)).linksDown (upTo 44) 4 0
  (upTo 44).foldl (fun a n => a.updLink n fun l => { l with phase := .disabled }) s1

/-- The end of a relinquish, once the final MIRROR_ACK has come or none can come any more: a whole board answers its last
writes, takes its host links down and is RELINQUISHED, releasing PAIR_DRIVE_N (21 R408). -/
def State.endRelinquish (s : State) (r : Relinquish) : State :=
  let final := hseqBefore s.pair.hseqNext
  let s1 := s.answerLast r
  if r.handback then s1
  else
    let s2 := s1.dropHostLinks
    let s3 := { s2 with
      pair := { s2.pair with phase := .relinquished, relinq := none, sent := [] }
      boot := { s2.boot with pairDriveReleased := true } }
    (s3.ledger 0x08 0 Actor.board 0 (switchBody .relinquishing .relinquished r.reason r.number final)).pairDone

/-- The relinquish is over if every packet is acknowledged or no halyard link is up. -/
def State.tryEndRelinquish (s : State) : State :=
  match s.pair.relinq with
  | some r => if r.ended && (s.pair.sent.isEmpty || s.liveHalyard.isEmpty) then s.endRelinquish r else s
  | none => s

/-- STREAM_END on each live halyard link (R278 step 4). -/
def State.sendStreamEnd (s : State) (r : Relinquish) : State :=
  let s1 := s.sendEach 8 (hseqBefore s.pair.hseqNext) []
  { s1 with pair := { s1.pair with relinq := some { r with ended := true } } }

/-- The partner is PAIRED after a hand-back: this board is PAIRED too, at the partner's epoch, and keeps the stalls and lines it
served for the partner as its image again (R284). -/
def State.endHandback (s : State) (r : Relinquish) (epoch : BitVec 8) : State :=
  let final := hseqBefore s.pair.hseqNext
  let s1 := s.answerLast r
  let served := s1.stalls.filter fun p => decide (1024 ≤ p.1)
  let s2 := { s1 with
    stalls := s1.stalls.filter fun p => decide (p.1 < 1024)
    pair := { s1.pair with image := { s1.pair.image with
      stalls := served.foldl (fun (t : Tbl StallSt) (p : Nat × StallSt) =>
        t.set {} (p.1 - 1024) { p.2 with linkSet := 0, held := [], crierQ := [] }) []
      dir := (upTo 8).foldl (fun (t : Tbl DirEntry) (n : Nat) => (s1.slice n).dir.foldl (fun (u : Tbl DirEntry) (p : Nat × DirEntry) =>
        let line := s1.lineOff n p.2.line / 64
        if line / 2 ^ 18 < s1.pair.window then u.set {} line p.2 else u) t) [] } } }
  let s3 := (upTo 8).foldl (fun a n => a.updSlice n fun x => { x with
    dir := x.dir.filter fun p => !(decide (s1.lineOff n p.2.line / 2 ^ 24 < s1.pair.window)) }) s2
  (s3.enterPaired.takeEpoch epoch).ledger 0x08 0 Actor.board 0 (switchBody .relinquishing .paired r.reason r.number final)

/-! ### Rejoin (R284) -/

/-- ACL record of the number the partner takes back. -/
def State.tellImageAcl (s : State) (k : Nat) : State :=
  (s.halRecord 2 (k / 64 + k % 64 * 2 ^ 16 + (s.pair.image.acl.get {} k).word * 2 ^ 32 + ownMark)).1

/-- STALL and TAG records of a stall. -/
def State.tellWholeStall (s : State) (st : Nat) : State :=
  (s.stall st).tags.foldl (fun a p => (a.halRecord 6 (tagRecord st p.2)).1) (s.tellStall st)

/-- DIRECTORY records of the listed granules' lines. -/
def State.tellDirs (s : State) (gs : List Nat) : State :=
  (upTo 8).foldl (fun a n => (a.slice n).dir.foldl (fun b p =>
    let off := b.lineOff n p.2.line
    if gs.contains (off / 2 ^ 24) then
      (b.halRecord 5 (b.partnerOffset off / 64 + p.2.word0 * 2 ^ 64 + p.2.sharers.toNat * 2 ^ 128)).1
    else b) a) s

/-- The full image content, of both numbers where this board serves both. -/
def State.sendImage (s : State) : State :=
  let s1 := (s.granulesWhere fun g _ => s.inMirrorRange g).foldl (fun a g => (a.tellPitch g).1) s
  let s2 := (s1.pitch.acl.map Prod.fst).foldl (fun a k => a.tellAcl (k / 64) (k % 64)) s1
  let s3 := (s2.sec.keys.map Prod.fst).foldl (fun a k => a.tellKey k) s2
  let both := s.pair.phase == .servingBoth
  let s4 := ((s3.stalls.map Prod.fst).filter fun st => both || decide (st < 1024)).foldl (fun a st => a.tellWholeStall st) s3
  let s5 := s4.tellDirs s.pair.resync
  if both then
    let s6 := (s5.pair.image.pitch.map Prod.fst).foldl (fun a g => (a.tellImagePitch g).1) s5
    (s6.pair.image.acl.map Prod.fst).foldl (fun a k => a.tellImageAcl k) s6
  else s5

/-- Begin the rejoin: the epoch advances, the image content goes out, and the first granule's copy starts. -/
def State.beginRejoin (s : State) : State :=
  let s1 := s.advancePair
  let s2 := (({ s1 with pair := { s1.pair with activeSide := true } } : State).rowsChanged s1.epochKeys).sendImage
  { s2 with pair := { s2.pair with copying := s2.pair.resync.head?, copyHseq := none } }

/-- Send a granule's lines: all of it, but for lines that a fold lost and nothing has restored (R285). -/
def State.copyGranule (s : State) (g : Nat) : State :=
  (upTo 4096).foldl (fun a i =>
    let offs := (pageLines (g * 2 ^ 24 + i * 4096)).filter fun o => (a.movedForm o).isNone
    (a.runsOf offs).foldl (fun b r =>
      (b.readRun r 4).halPush 1 (b.partnerOffset r.offset) (b.ownerOf r.offset).slot r.poisoned r.cleared r.data) a) s

/-- The partner's number for a granule of this board (R267). -/
def State.partnerGranule (s : State) (g : Nat) : Nat :=
  if g < s.pair.window then g + s.pair.window else g - s.pair.window

/-- When the list is empty: a SOLO board is PAIRED, a SERVING_BOTH board hands the partner's number back. -/
def State.resyncOver (s : State) : State :=
  if !s.pair.resync.isEmpty || !s.pair.activeSide then s
  else if s.pair.phase == .solo then s.enterPaired
  else if s.pair.phase == .servingBoth then s.relinquishCycle relHandback
  else s

/-- MIRROR_ACK covers GRANULE_SYNCED: MIRRORED is set in the granule's entry, and the next granule's copy starts. -/
def State.granuleCopied (s : State) (g : Nat) : State :=
  let s1 := if s.servesWindow g then
      let m := s.pair.image
      ({ s with pair := { s.pair with image := { m with
          pitch := m.pitch.upd {} (g + s.pair.window) fun e => { e with mirrored := true } } } } : State)
    else if s.pair.window ≤ g then s.updGranule g fun e => { e with mirrored := e.phase != .free }
    else s
  let rest := s1.pair.resync.filter (· ≠ g)
  ({ s1 with pair := { s1.pair with
      resync := rest, copying := if s1.pair.activeSide then rest.head? else none, copyHseq := none } } : State).resyncOver

/-! ### Heartbeats (20 R399) -/

/-- PAIR_STATE of Table 13.5 in a HEARTBEAT that tells of a partner that has reset. -/
def State.partnerFresh (s : State) : Bool := s.pair.partnerPhase == 0 || s.pair.partnerPhase == 1

/-- HALYARD_MISMATCH of cause 2, once for each partner state and W (DEDUCED, log 24). -/
def State.mismatch (s : State) (link phase w : Nat) : State :=
  if s.pair.told = some (phase, w) then s
  else
    let l := s.link link
    ({ s with pair := { s.pair with told := some (phase, w) } } : State).crier 8 0x19 link
      (2 + l.kind % 16 * 2 ^ 8 + l.partner % 4096 * 2 ^ 16 + w % 2 ^ 32 * 2 ^ 64)

/-- Pairing of an UNPAIRED board by its partner's HEARTBEAT. -/
def State.settlePair (s : State) (link phase w : Nat) (epoch : BitVec 8) : State :=
  if w ≠ s.pair.window then s.mismatch link phase w
  else if phase = 0 then
    if s.pair.heartbeatSent && s.mayAdvance s.pair.pairAdvances then s.advancePair.enterPaired else s
  else if phase = 3 ∨ phase = 5 then
    ({ s with pair := { s.pair with phase := .syncing } } : State).takeEpoch epoch
  else s.mismatch link phase w

/-- Slices that a partner no longer has: both boards then list every MIRRORED granule (R285). -/
def State.partnerFolded (s : State) (slices : Nat) : Bool :=
  s.pair.phase == .paired && (s.pair.partnerSlices != 0 && (upTo 8).any fun n =>
    bitAt s.pair.partnerSlices n && !bitAt slices n)

end Sys2Proof.Machine
end

