-- ==== Sys2Proof/Machine/Halyard.lean ====
section
/-! DEFINITION. The commands of a pair (13, 20 R399): halyard packets, the timed sends, PAIR_COMMAND, relinquish, takeover and
resynchronisation. -/

namespace Sys2Proof.Machine

/-! ### Sequenced packets -/

/-- MIRROR_WRITE (R272, R273). -/
def execMirrorWrite (p : HalPkt) (s : State) : Result := .next (s.seqReceive 1 p)

/-- CONTROL (R274, R275). -/
def execControl (p : HalPkt) (s : State) : Result := .next (s.seqReceive 2 p)

/-- EPOCH_DATA (R276). -/
def execEpochData (p : HalPkt) (s : State) : Result := .next (s.seqReceive 3 p)

/-- EPOCH_END (R276): the staged epoch is committed when it is applied. -/
def execEpochEnd (p : HalPkt) (s : State) : Result := .next (s.seqReceive 4 p)

/-! ### MIRROR_ACK -/

/-- An unsequenced packet of this kind has come in on a live halyard link. -/
def State.halArrived (s : State) (kind : Nat) (p : HalPkt) : Bool :=
  s.liveHalyard.contains p.link && (halHdr p.hdr).kind == kind

/-- Packets that an acknowledgement covers are kept no longer (R271). -/
def State.ackHseq (s : State) (h : Nat) : State :=
  let covered := fun (o : HalOut) => decide ((h + 2 ^ 32 - o.hseq) % 2 ^ 32 < 2 ^ 31)
  if s.pair.sent.any covered then
    { s with pair := { s.pair with sent := s.pair.sent.filter (fun o => !covered o), hseqAcked := some h } }
  else s

/-- A refused packet is sent again under its HSEQ with the slice epoch of the latest HEARTBEAT (R272 step 2). -/
def State.resendNacked (s : State) (h : Nat) : State :=
  { s with pair := { s.pair with
      sent := s.pair.sent.map fun (o : HalOut) => if o.hseq == h then
        { o with onWire := false, sliceEpoch := s.partnerEpochOf o.offset } else o } }

/-- What a covered acknowledgement lets go on: held-back packets, a deferred mirror epoch, recalls whose line is forwarded, the granule
being copied, and the end of a relinquish (R271, R276, R278, R284, 07 R138). -/
def State.afterAck (s : State) : State :=
  let s1 := s.halFlush.cohGoAll
  let s2 := if s1.pair.epochDeferred && !s1.epochUnsent then s1.endEpoch else s1
  let s3 := match s2.pair.copyHseq, s2.pair.copying with
    | some h, some g => if s2.halCovered (some h) then s2.granuleCopied g else s2
    | _, _ => s2
  s3.tryEndRelinquish

/-- MIRROR_ACK (R271, R272): of this pair epoch. -/
def execMirrorAck (p : HalPkt) (s : State) : Result :=
  .next (let h := halHdr p.hdr
    if !s.halArrived 5 p || h.pairEpoch != s.pair.epoch then s
    else
      let u := (p.payload.headD 0).toNat
      let s1 := s.ackHseq h.hseq
      (if bits u 32 8 = 4 then s1.resendNacked (bits u 0 32) else s1).afterAck)

/-! ### HEARTBEAT -/

/-- HEARTBEAT (R399): the partner's state, slices, slice epochs and W. An UNPAIRED board settles its pair, a SYNCING board follows
its partner to PAIRED, and a hand-back ends (R284). -/
def execHeartbeat (p : HalPkt) (s : State) : Result :=
  .next (if !s.halArrived 6 p then s
    else
      let u := (p.payload.headD 0).toNat
      let epoch := (halHdr p.hdr).pairEpoch
      let phase := bits u 0 8
      let folded := s.partnerFolded (bits u 8 8)
      let s1 := { s with pair := { s.pair with
        partnerPhase := phase, partnerSlices := bits u 8 8, partnerEpochs := BitVec.ofNat 64 (bits u 64 64)
        partnerW := bits u 128 32, presentHigh := false
        partnerReset := s.pair.partnerReset || decide (phase < 2) } }
      let s2 := if folded then { s1 with pair := { s1.pair with resync := s1.mirroredAll } } else s1
      match s2.pair.phase with
      | .unpaired => s2.settlePair p.link phase (bits u 128 32) epoch
      | .syncing =>
        let s3 := if epoch = s2.pair.epoch then s2 else s2.takeEpoch epoch
        if phase = 2 then s3.enterPaired else s3
      | .relinquishing => match s2.pair.relinq with
        | some r => if r.handback && (r.ended && phase == 2) then s2.endHandback r epoch
          else if phase = 5 ∧ r.ended = true then s2.endRelinquish r else s2
        | none => s2
      | _ => s2)

/-- SLICES_ENABLED of this board. -/
def State.sliceMask (s : State) : Nat := s.servingSlices.foldl (fun a n => a + 2 ^ n) 0

/-- Payload of HEARTBEAT (Table 13.2). -/
def State.heartbeatUnit (s : State) : Line :=
  BitVec.ofNat 512 (s.pair.phase.code + s.sliceMask * 2 ^ 8
    + (upTo 8).foldl (fun a n => a + (s.slice n).epoch.toNat * 2 ^ (64 + 8 * n)) 0 + s.pair.window % 2 ^ 32 * 2 ^ 128)

/-- HEARTBEAT_SEND (Table 13.2): on each live halyard link. -/
def execHeartbeatSend (s : State) : Result :=
  .next (let s1 := s.sendEach 6 0 [s.heartbeatUnit]
    { s1 with pair := { s1.pair with heartbeatSent := s1.pair.heartbeatSent || !s.liveHalyard.isEmpty } })

/-- MIRROR_ACK_SEND (R271, Table 13.2): the highest HSEQ applied in order, and the packet refused, if one is. -/
def execMirrorAckSend (s : State) : Result :=
  .next (let u := match s.pair.nacked with
      | some h => h + 4 * 2 ^ 32
      | none => 0
    let m := plainHal 5 (hseqBefore s.pair.applyNext) s.pair.epoch [BitVec.ofNat 512 u]
    match s.pickLink s.pair.halPtr s.liveHalyard m.bytes with
    | some n => { s with pair := { s.pair with halPtr := (n + 1) % 48 } }.transmit n 0 .move m
    | none => s)

/-- MIRROR_EPOCH_END (R276). -/
def execMirrorEpochEnd (s : State) : Result := .next s.endEpoch

/-! ### Relinquish and takeover -/

/-- RELINQUISH (R279): a PAIRED board takes its partner over, a SYNCING board takes its own number back on REASON 4; TAKEN stops.
In any other state it is refused (R277). -/
def execRelinquish (p : HalPkt) (s : State) : Result :=
  .next (if !s.halArrived 7 p then s
    else
      let reason := bits (p.payload.headD 0).toNat 0 8
      let s1 := { s with pair := { s.pair with takenOn := false } }
      match s1.pair.phase with
      | .paired => s1.takeoverCycle reason false
      | .syncing => if reason = relHandback ∧ s1.mayAdvance s1.pair.pairAdvances = true then s1.beginTakeover s1.board reason true false
        else { s1 with pair := { s1.pair with refused := s1.pair.refused + 1 } }
      | .takingOver => { s1 with pair := { s1.pair with takeReason := reason, refused := s1.pair.refused + 1 } }
      | _ => { s1 with pair := { s1.pair with refused := s1.pair.refused + 1 } })

/-- STREAM_END (R279): its HSEQ ends the partner's stream. -/
def execStreamEnd (p : HalPkt) (s : State) : Result :=
  .next (if s.halArrived 8 p && (s.pair.phase == .takingOver && (halHdr p.hdr).pairEpoch == s.pair.epoch) then
    { s with pair := { s.pair with streamEnd := some (halHdr p.hdr).hseq } }
  else s)

/-- TAKEN (R278): a PAIRED board relinquishes with REASON 5. -/
def execTaken (p : HalPkt) (s : State) : Result :=
  .next (if !s.halArrived 9 p then s
    else if s.pair.phase == .paired then s.relinquishCycle relTaken
    else { s with pair := { s.pair with refused := s.pair.refused + 1 } })

/-- RELINQUISH_REPEAT (Table 13.2): until STREAM_END. -/
def execRelinquishRepeat (s : State) : Result :=
  .next (match s.pair.relinq with
    | some r => if r.ended then s else s.sendRelinquish r
    | none => s)

/-- TAKEN_REPEAT (Table 13.2): until RELINQUISH arrives. -/
def execTakenRepeat (s : State) : Result := .next (if s.pair.takenOn then s.sendTaken else s)

/-- A PAIR_COMMAND refused: RESULT 1 (R277). -/
def pairRefused (s : State) : State × Ans := (s.setReg kPairResult 1, done 1)

/-- A PAIR_COMMAND accepted: RESULT 2 while it runs. -/
def pairRuns (s : State) : State × Ans := (s.setReg kPairResult 2, done 2)

/-- What the write that `execPairCommandRelinquish` names does, once it is accepted. -/
def actPairCommandRelinquish (_ : Nat) (s : State) : State × Ans :=
  if s.pair.phase == .paired then pairRuns (s.relinquishCycle relCommand) else pairRefused s

/-- PAIR_COMMAND 1 (R278): from PAIRED. -/
def execPairCommandRelinquish (f : Frame) (s : State) : Result :=
  .next (s.write f kPairCommand 1 1 actPairCommandRelinquish)

/-- What the write that `execPairCommandTakeover` names does, once it is accepted; result 7 where the pair epoch may not advance
(03 R64, 04 Table 4.6). -/
def actPairCommandTakeover (_ : Nat) (s : State) : State × Ans :=
  if s.pair.phase != .paired then pairRefused s
  else if !s.mayAdvance s.pair.pairAdvances then (s.setReg kPairResult 7, done 7)
  else pairRuns (s.takeoverCycle 0 true)

/-- PAIR_COMMAND 2 (R279): from PAIRED; TAKEN starts when a halyard link is up. -/
def execPairCommandTakeover (f : Frame) (s : State) : Result :=
  .next (s.write f kPairCommand 1 2 actPairCommandTakeover)

/-- What the write that `execPairCommandRejoin` names does, once it is accepted. -/
def actPairCommandRejoin (_ : Nat) (s : State) : State × Ans :=
  if s.pair.activeSide || !(s.pair.phase == .solo || (s.pair.phase == .servingBoth && s.pair.partnerReset)) then pairRefused s
  else if !s.mayAdvance s.pair.pairAdvances then (s.setReg kPairResult 7, done 7)
  else ((s.setReg kPairResult 2).beginRejoin.resyncOver, done 2)

/-- PAIR_COMMAND 3 (R284): from SOLO, or from SERVING_BOTH once the partner has reset. -/
def execPairCommandRejoin (f : Frame) (s : State) : Result :=
  .next (s.write f kPairCommand 1 3 actPairCommandRejoin)

/-- RELINQUISH_DEADLINE (R278 step 3). -/
def execRelinquishDeadline (s : State) : Result :=
  .next (match s.pair.relinq with
    | some r =>
      if r.expired then s
      else
        let s1 := s.abortUnforwarded r
        { s1 with pair := { s1.pair with relinq := some { r with expired := true } } }
    | none => s)

/-- STREAM_END_SEND (R278 steps 4 and 5): with no admitted request of the number left, or at the deadline, which leaves the writes that wait for their acknowledgement. A reset that waited
(20 R389) or the power-down of the rails (21 R412) begins at once. -/
def execStreamEndSend (s : State) : Result :=
  .next (match s.pair.relinq with
    | some r =>
      if r.ended || !(r.expired || (s.trkWhere fun t => r.concerns t && t.running).isEmpty) then s
      else
        let s1 := s.sendStreamEnd r
        if r.thenReset then s1.boardReset 2 else if r.thenRails then s1.goDark else s1.tryEndRelinquish
    | none => s)

/-- PAIR_PRESENT_N_HIGH (R279, R283): a takeover from PAIRED when every halyard link is down, a crier event in SOLO. -/
def execPairPresentNHigh (s : State) : Result :=
  .next (let s1 := { s with pair := { s.pair with
      presentHigh := true, presentSince := if s.pair.presentHigh then s.pair.presentSince else s.time.ticks } }
    if s1.pair.phase == .solo then s1.crier 8 0x1C 0 s1.pair.phase.code else s1.partnerGone)

/-- TAKEOVER_WAIT_END (R279 steps 1 and 2): the highest HSEQ applied in order is final, and the pair epoch advances. -/
def execTakeoverWaitEnd (s : State) : Result :=
  .next (if s.pair.phase == .takingOver && s.pair.finalHseq.isNone then
    let final := hseqBefore s.pair.applyNext
    let s1 := s.advancePair
    { s1 with pair := { s1.pair with finalHseq := some final, takenOn := false } }
  else s)

/-- TAKEOVER_ACTIVATED (R279 steps 3 and 4): the serve cycle. -/
def execTakeoverActivated (s : State) : Result :=
  .next (match s.pair.phase, s.pair.finalHseq with
    | .takingOver, some final => s.serveImage final
    | _, _ => s)

/-- PAIR_DECIDE_EXPIRY (R283): a PAIRED board all of whose halyard links are down enters SOLO; a rejoin that loses the halyard
ends, and a relinquish has no acknowledgement to wait for (DEDUCED, log 25). -/
def execPairDecideExpiry (s : State) : Result :=
  .next (if !s.liveHalyard.isEmpty then s
    else if s.pair.phase == .paired then s.enterSolo
    else if s.pair.activeSide && s.pair.phase != .relinquishing then s.unmirror s.pair.resync
    else s.tryEndRelinquish)

/-- RESYNC_GRANULE_DONE (R284): every line of the granule in turn is sent, then GRANULE_SYNCED. -/
def execResyncGranuleDone (s : State) : Result :=
  .next (if s.pair.copyHseq.isSome || !(s.pair.activeSide || s.pair.phase == .paired) then s
    else match s.pair.resync with
      | [] => s
      | g :: _ =>
        let s0 := { s with pair := { s.pair with copying := some g } }
        let s1 := s0.copyGranule g
        let r := s1.halRecord 7 (s1.partnerGranule g)
        { r.1 with pair := { r.1.pair with copyHseq := r.2 } })

/-- What the write that `execPartnerFence` names does, once it is accepted. -/
def actPartnerFence (st : Nat) (s : State) : State × Ans :=
  if s.pair.phase == .servingBoth && (decide (st < 1024) && (s.stall (1024 + st)).phase == .attached) then
    (s.fenceStall (1024 + st) 3, {})
  else (s, refuse 3)

/-- PARTNER_FENCE (R282): an ATTACHED image stall while both numbers are served. -/
def execPartnerFence (f : Frame) (stall : Nat) (s : State) : Result :=
  .next (s.write f kPartnerFence 2 stall actPartnerFence)

/-- What the write that `execPartnerDetach` names does, once it is accepted. -/
def actPartnerDetach (st : Nat) (s : State) : State × Ans :=
  let p := (s.stall (1024 + st)).phase
  if s.pair.phase == .servingBoth && (decide (st < 1024) && (p == .attached || p == .fenced)) then
    (s.detachStall (1024 + st), {})
  else (s, refuse 3)

/-- PARTNER_DETACH (R282, 04 R75). -/
def execPartnerDetach (f : Frame) (stall : Nat) (s : State) : Result :=
  .next (s.write f kPartnerDetach 2 stall actPartnerDetach)

end Sys2Proof.Machine
end

