-- ==== Sys2Proof/Machine/Links.lean ====
section
/-! DEFINITION. The commands of the Waxon links (02): control blocks, timers, training, lane changes, time exchange and
link loss. -/

namespace Sys2Proof.Machine

/-! ### Control blocks -/

/-- ACK_ONLY, or a reserved CTYPE processed as ACK_ONLY (R28): the ACK applies (R32). -/
def execAckOnly (link : Nat) (ctype : BitVec 8) (c : Ctl) (s : State) : Result :=
  .next (s.control link ctype c id)

/-- ALIGN (R28): it sets codeword and superframe boundaries and lane deskew below the packets this model holds; the fields
every control block carries act as in any other. -/
def execAlign (link : Nat) (c : Ctl) (s : State) : Result :=
  .next (s.control link (BitVec.ofNat 8 ctAlign) c id)

/-- The fields of a HELLO (02 Table 2.5), stored with the version and capabilities they negotiate (R39, R40); the board's own
HELLO carries SEEN = 1 from then on (R38). -/
def helloFields (s : State) (n : Nat) (b : BitVec 176) (l : LinkSt) : LinkSt :=
  let theirs := bodyField b 0 1
  let v := commonVersion (s.ourVersions n) theirs
  let caps := effectiveCaps (ourCaps (s.ourVersions n)) (bodyField b 1 4) v
  { l with
    partnerVersions := BitVec.ofNat 8 theirs
    partnerCaps := BitVec.ofNat 32 (bodyField b 1 4)
    kind := bodyField b 5 1 % 16
    partner := bodyField b 6 2 % 4096
    version := v
    caps := BitVec.ofNat 32 caps
    partnerLanes := BitVec.ofNat 4 (bodyField b 8 1)
    mask := formMask (l.passed &&& BitVec.ofNat 4 (bodyField b 8 1)) (bitAt caps 1)
    gotHello := true
    seenRecv := l.seenRecv || bitAt (bodyField b 9 1) 0 }

/-- HELLO (R39 to R41), in training: the partner's advertisement is taken; with no common version the link is held, and a
held link resumes at step 5 when the partner's VERSIONS changes. -/
def execHello (link : Nat) (c : Ctl) (s : State) : Result :=
  .next (s.control link (BitVec.ofNat 8 ctHello) c fun s1 =>
    let l := s1.link link
    let theirs := bodyField c.body 0 1
    let take := fun (x : State) => x.updLink link fun l => helloFields x link c.body { l with phase := .training, hold := .none }
    let common := commonVersion (s1.ourVersions link) theirs
    if l.phase = .training ∧ l.retrain = false then
      if common = 0 then
        (s1.updLink link fun l => { l with partnerVersions := BitVec.ofNat 8 theirs }).noVersion link theirs
      else take s1
    else if l.phase = .held ∧ l.hold = .noVersion ∧ l.partnerVersions.toNat ≠ theirs then
      if common = 0 then
        (s1.updLink link fun l => { l with partnerVersions := BitVec.ofNat 8 theirs }).noVersion link theirs
      else take s1
    else s1)

/-- The lanes of a link that leave its mask in a drop go to the loopback test of R293. -/
def LinkSt.dropped (l : LinkSt) (mask : BitVec 4) : BitVec 4 := l.mask &&& ~~~mask

/-- A change that drops lanes under R44 or R45: one of the board's own, but to park lanes, or an emergency drop of either board. -/
def LaneChange.tests (ch : LaneChange) : Bool := !ch.parking && (ch.mine || ch.emergency)

/-- A lane change complete in both directions (R42): the new mask holds and link tally row 8 counts it; lanes that left
under R44 or R45 are tested, and are not tried again before the test says so (R293). -/
def finishChange (n : Nat) (ch : LaneChange) (s : State) : State :=
  let s1 := s.updLink n fun l =>
    let out := if ch.tests then l.dropped ch.mask else 0
    { l with
      mask := ch.mask, change := none, lost := l.lost &&& l.mask, addReady := l.addReady &&& ~~~ch.mask
      parked := if ch.mine && ch.parking then (l.parked ||| l.dropped ch.mask) &&& ~~~ch.mask else l.parked &&& ~~~ch.mask
      beforeDrop := if out != 0 then l.mask else l.beforeDrop
      afterDrop := if out != 0 then ch.mask else l.afterDrop
      inTest := l.inTest ||| out, barred := l.barred ||| out }
  s1.count .link n 8

/-- Store a lane change, or finish it when both directions have switched. -/
def setChange (n : Nat) (ch : LaneChange) (s : State) : State :=
  if ch.txSwitched && ch.rxSwitched then finishChange n ch s
  else s.updLink n fun l => { l with change := some ch }

/-- The board answers a lane change of the partner's: LANE_ACCEPT and LANE_SWITCH to a planned one (R42), LANE_SWITCH in the very
next control slot to an emergency (R45); its transmitter switches. -/
def answerChange (n : Nat) (id : BitVec 8) (emergency : Bool) (ch : LaneChange) (s : State) : State :=
  let s1 := setChange n { ch with txSwitched := true } s
  if emergency then s1.queueFirst n ctLaneSwitch (mkBody [(1, id.toNat), (1, ch.mask.toNat)])
  else (s1.queueCtl n ctLaneAccept (mkBody [(1, id.toNat), (1, ch.mask.toNat)])).queueCtl n ctLaneSwitch
    (mkBody [(1, id.toNat), (1, ch.mask.toNat)])

/-- The lanes a partner's LANE_REQ may ask for: a planned change adds lanes only with LANE_ADD (R46), and parked lanes stay out. -/
def LinkSt.allowed (l : LinkSt) (want : BitVec 4) (emergency : Bool) : BitVec 4 :=
  if emergency || bitAt l.caps.toNat 2 then want &&& ~~~l.parked else if want &&& ~~~l.mask = 0 then want else 0

/-- LANE_REQ (R42, R43, R45): a planned one is accepted and the transmitter switches; an emergency one is answered by
LANE_SWITCH at once, also when another change is under way; one that crosses the board's own unanswered request takes the
intersection of the masks. A repeat of a request already answered, and one that leaves no lane, change nothing
(DESIGN CHOICE, log 65). -/
def execLaneReq (link : Nat) (c : Ctl) (s : State) : Result :=
  .next (s.control link (BitVec.ofNat 8 ctLaneReq) c fun s1 =>
    let l := s1.link link
    let id := BitVec.ofNat 8 (bodyField c.body 0 1)
    let want := BitVec.ofNat 4 (bodyField c.body 1 1)
    let emergency := bitAt (bodyField c.body 2 1) 0
    let m := formMask (l.allowed want emergency) l.x2
    let fresh : LaneChange := {
      reqId := id, mask := m, emergency := emergency, mine := false, accepted := true, txSwitched := false
      rxSwitched := false, parking := false }
    if !l.isUp then s1
    else match l.change with
      | some ch =>
        if ch.mine && (!ch.accepted && !ch.txSwitched) then
          let m' := formMask (ch.mask &&& want) l.x2
          if m' = 0 then s1
          else if emergency || ch.emergency then answerChange link id true { ch with mask := m', emergency := true } s1
          else (s1.updLink link fun l => { l with change := some { ch with mask := m' } }).queueCtl link ctLaneAccept
            (mkBody [(1, id.toNat), (1, m'.toNat)])
        else if emergency && (m != 0 && !(!ch.mine && ch.reqId == id)) then answerChange link id true fresh s1
        else s1
      | none => if m = 0 then s1 else answerChange link id emergency fresh s1)

/-- LANE_ACCEPT (R42): the board's request is answered; its transmitter switches. -/
def execLaneAccept (link : Nat) (c : Ctl) (s : State) : Result :=
  .next (s.control link (BitVec.ofNat 8 ctLaneAccept) c fun s1 =>
    let id := BitVec.ofNat 8 (bodyField c.body 0 1)
    match (s1.link link).change with
    | some ch =>
      if ch.mine && (!ch.accepted && ch.reqId == id) then
        let ch' := { ch with accepted := true, mask := BitVec.ofNat 4 (bodyField c.body 1 1), txSwitched := true }
        (setChange link ch' s1).queueCtl link ctLaneSwitch (mkBody [(1, id.toNat), (1, ch'.mask.toNat)])
      else s1
    | none => s1)

/-- LANE_SWITCH (R42, R45): the receiver follows the partner's transmitter; in an emergency drop the board then switches
its own, unless it has. -/
def execLaneSwitch (link : Nat) (c : Ctl) (s : State) : Result :=
  .next (s.control link (BitVec.ofNat 8 ctLaneSwitch) c fun s1 =>
    match (s1.link link).change with
    | some ch =>
      if ch.emergency && (ch.mine && !ch.txSwitched) then
        let m := BitVec.ofNat 4 (bodyField c.body 1 1)
        (setChange link { ch with mask := m, rxSwitched := true, txSwitched := true } s1).queueCtl link ctLaneSwitch
          (mkBody [(1, ch.reqId.toNat), (1, m.toNat)])
      else setChange link { ch with rxSwitched := true } s1
    | none => s1)

/-- TIME_REQ (R47): answered in the next control slot with T2, the time of its arrival, on a link with TIME_EXCH; T3 is put in when
the block leaves (`LinkSt.stamped`). -/
def execTimeReq (link : Nat) (c : Ctl) (s : State) : Result :=
  .next (s.control link (BitVec.ofNat 8 ctTimeReq) c fun s1 =>
    let l := s1.link link
    if l.isUp && bitAt l.caps.toNat 3 then
      s1.queueFirst link ctTimeResp (mkBody [(2, bodyField c.body 0 2), (10, aoStamp s1.time.ao), (10, 0)])
    else s1)

/-- The links set as time sources that are up and have TIME_EXCH (R210). -/
def State.timeLinks (s : State) : List Nat :=
  (upTo 48).filter fun n => bitAt (s.reg kTimeLinks) n && ((s.link n).isUp && bitAt (s.link n).caps.toNat 3)

/-- TIME_RESP (R47): offset = ((T2 − T1) − (T4 − T3)) / 2 − TIME_ASYMMETRY, in ps, recorded for the link; the
lowest-numbered time source disciplines AO_TIME while TIME_SOURCE is 1 (R210). -/
def execTimeResp (link : Nat) (c : Ctl) (s : State) : Result :=
  .next (s.control link (BitVec.ofNat 8 ctTimeResp) c fun s1 =>
    match (s1.link link).exch with
    | some (xid, t1) =>
      if xid.toNat = bodyField c.body 0 2 then
        let ns := fun (x : Nat) => (stampNs x : Int)
        let t2 := ns (bodyField c.body 2 10)
        let t3 := ns (bodyField c.body 12 10)
        let t4 := (s1.time.ao : Int)
        let off := ((t2 - ns t1.toNat) - (t4 - t3)) * 500 - signed (s1.reg (kTimeAsymmetry link)) 32
        let s2 := s1.updLink link fun l => { l with exch := none }
        let s3 := { s2 with time := { s2.time with linkOffset := s2.time.linkOffset.set 0 link off } }
        if s3.reg kTimeSource = 1 ∧ s3.timeLinks.head? = some link then s3.measure off else s3
      else s1
    | none => s1)

/-- LINK_DOWN from the partner (R48): the link is down with reason PARTNER. -/
def execLinkDown (link : Nat) (c : Ctl) (s : State) : Result :=
  .next (s.control link (BitVec.ofNat 8 ctLinkDown) c fun s1 => s1.linkDown link 6 (bodyField c.body 0 1))

/-! ### Timers and replay -/

/-- ACK_TIMEOUT passes with packets unacknowledged (R33): every one is sent again from the oldest with REPLAY = 1, and the
timer restarts (DESIGN CHOICE, log 7); one that cannot be read takes the link down with reason REPLAY (06 Table 6.1). -/
def execAckTimeoutExpiry (link : Nat) (s : State) : Result :=
  .next (
    let l := s.link link
    let u := l.unacked.length
    if !(l.isUp && (l.timerOn && decide (0 < u))) then s
    else if s.reg kReplayLimit ≤ l.expiries + 1 then s.updLink link fun l => { l with expiries := l.expiries + 1 }
    else
      let r := s.readReplay link
      if r.2 then r.1.linkDown link 3 0
      else
      ((r.1.updLink link fun l => { l with
        unacked := l.unacked.map fun p => { p with replay := true }
        expiries := l.expiries + 1
        ackSent := l.rxNext
        waitBytes := l.waitBytes + l.occupancy }).count .link link 6 u).count .link link 1 u)

/-- REPLAY_LIMIT consecutive expiries without a releasing ACK (R34): the link is down with reason REPLAY. -/
def execReplayLimitReached (link : Nat) (s : State) : Result :=
  .next (
    let l := s.link link
    if l.isUp && (l.timerOn && decide (s.reg kReplayLimit ≤ l.expiries)) then s.linkDown link 3 0 else s)

/-! ### Training and loss -/

/-- Training completes (R38 step 6): both sides have sent and received SEEN = 1 on a valid width. -/
def execLinkUp (link : Nat) (s : State) : Result :=
  .next (
    let l := s.link link
    if link < 48 ∧ l.phase = .training ∧ l.retrain = false ∧ l.seenSent = true ∧ l.seenRecv = true ∧ l.version ≠ 0
        ∧ l.mask ≠ 0 then s.linkComesUp link
    else s)

/-- A lane change not complete within 2 µs is abandoned; no new request for 100 µs (R42). -/
def execLaneChangeAbandon (link : Nat) (s : State) : Result :=
  .next (
    match (s.link link).change with
    | some ch =>
      if ch.emergency then s
      else s.updLink link fun l => { l with change := none, reqQuietUntil := s.time.ticks + 100000 }
    | none => s)

/-- A mask without one lane, and without those already lost, in the widest valid width that is left. -/
def LinkSt.without (l : LinkSt) (lane : Nat) : BitVec 4 :=
  formMask (l.mask &&& ~~~l.lost &&& ~~~(BitVec.ofNat 4 (2 ^ (lane % 4)))) l.x2

/-- A lane's bit error ratio over 10 ms exceeds LANE_DROP_BER, unless that is 0: a planned drop (R44). -/
def execLaneDropBerExceeded (link lane errors : Nat) (s : State) : Result :=
  .next (
    let l := s.link link
    let limit := s.reg kLaneDropBer
    if s.canChange link && (l.mask.getLsbD lane && (decide (0 < limit) && (decide (limit < errors) && l.without lane != 0)))
    then startChange link (l.without lane) false false s
    else s)

/-- A lane fails in training: it is left out, and the width follows (R38). -/
def LinkSt.laneFailed (l : LinkSt) (lane : Nat) : LinkSt :=
  let p := l.passed &&& ~~~(BitVec.ofNat 4 (2 ^ (lane % 4)))
  { l with passed := p, mask := formMask (p &&& l.partnerLanes) l.x2 }

/-- Signal or symbol lock lost on a receive lane: an emergency drop, which unparks every parked lane (18 R372), or link-down SIGNAL
when every lane of the mask has lost it (R45, R48). On a link in training, or held at step 5 under R41, the lane has failed
training (R38) (DEDUCED, log 64). -/
def execLaneSignalLoss (link lane : Nat) (s : State) : Result :=
  .next (
    let l := s.link link
    if l.isUp && l.mask.getLsbD lane then
      if l.without lane = 0 then s.linkDown link 1 0
      else ((startChange link (l.without lane) true false s).updLink link fun l => { l with
        lost := l.lost ||| BitVec.ofNat 4 (2 ^ (lane % 4)) }).unparkAll link
    else if lane < 4 ∧ (l.phase = .training ∧ l.retrain = false ∨ l.phase = .held ∧ l.hold = .noVersion) then
      s.updLink link fun l => l.laneFailed lane
    else s)

/-- An emergency drop, either side's, not complete within 10 µs: link-down SIGNAL (R45). -/
def execEmergencyDropTimeout (link : Nat) (s : State) : Result :=
  .next (
    match (s.link link).change with
    | some ch => if ch.emergency then s.linkDown link 1 0 else s
    | none => s)

/-- A lane added has trained alone (R46), a spare in the place of a dropped one (R293): on a link with LANE_ADD it joins by a planned change, at once or when the link can
change and the lanes that have trained widen it. -/
def execLaneAddTrained (link lane : Nat) (s : State) : Result :=
  .next (
    let l := s.link link
    if l.isUp && (decide (lane < 4) && (bitAt l.caps.toNat 2 && (!l.mask.getLsbD lane && !l.barred.getLsbD lane))) then
      (s.updLink link fun l => { l with
        addReady := l.addReady ||| BitVec.ofNat 4 (2 ^ (lane % 4)), lost := l.lost &&& ~~~(BitVec.ofNat 4 (2 ^ (lane % 4)))
        }).joinNext link
    else s)

/-- Start one exchange on each of some links: TIME_REQ with the next XID; T1 is put in when the block leaves (R47). -/
def startExchanges : List Nat → State → State
  | [], s => s
  | n :: r, s =>
    let xid := (s.link n).xid + 1
    let s1 := s.updLink n fun l => { l with xid := xid, exch := some (xid, BitVec.ofNat 80 (aoStamp s.time.ao)) }
    startExchanges r (s1.queueCtl n ctTimeReq (mkBody [(2, xid.toNat), (10, aoStamp s.time.ao)]))

/-- TIME_EXCH_INTERVAL passes: one exchange on every link chosen as a time source (R47, R210). -/
def execTimeExchInitiate (s : State) : Result :=
  .next (if s.reg kTimeSource = 1 then startExchanges s.timeLinks s else s)

/-- An exchange not answered within 10 µs is discarded (R47). -/
def execTimeExchDiscard (link : Nat) (s : State) : Result :=
  .next (if (s.link link).exch.isSome then s.updLink link fun l => { l with exch := none } else s)

/-- Codeword lock lost for 1 µs: link-down LOCK (R48). -/
def execCodewordLockLoss (link : Nat) (s : State) : Result := .next (s.linkDown link 2 0)

/-- Retraining begins 10 µs after a link-down, except while the link is held (R48). -/
def execLinkRetrain (link : Nat) (s : State) : Result :=
  .next (
    let l := s.link link
    if l.phase = .training ∧ l.retrain = true then s.startTraining link else s)

/-- The 1 s hold of a link that went down FLAP_LIMIT times within 1 s ends; the link trains, if it is enabled (R50). -/
def execFlapHoldExpiry (link : Nat) (s : State) : Result :=
  .next (
    let l := s.link link
    if l.phase = .held ∧ l.hold = .flap then s.startTraining link
    else if l.phase = .disabled ∧ l.hold = .flap then s.updLink link fun l => { l with hold := .none }
    else s)

/-! ### Dictionary writes -/

/-- Links the board trains: none before stage MEMORY, and none outside it (R399). -/
def State.linksServed (s : State) : Bool := s.boot.stage == .memory || s.boot.stage == .ready

/-- Bring one link to the state its LINK_ENABLE bit asks for. A flap hold (R50) outlives a clearing of the bit; a link that is
not up is disabled without a link-down (DESIGN CHOICE, log 66). -/
def enableLink (on : Bool) (n : Nat) (s : State) : State :=
  let l := s.link n
  if on then
    if l.phase = .disabled ∧ s.linksServed = true then
      if l.hold = .flap then s.updLink n fun l => { l with phase := .held, kind := 0xF } else s.startTraining n
    else s
  else if l.isUp then s.linkDown n 4 0
  else if l.phase = .disabled then s
  else s.updLink n fun l => { l with
    phase := .disabled, hold := if l.hold = .flap then .flap else .none, retrain := false, mask := 0, version := 0, kind := 0
    partner := 0, caps := 0 }

/-- LINK_ENABLE (02 Table 2.11): a bit cleared takes that link down with reason DISABLED; a bit set lets it train. -/
def actLinkEnable (v : Nat) (s : State) : State × Ans :=
  let m := v &&& storeMask kLinkEnable
  let s1 := (s.setReg kLinkEnable m).linksDown ((upTo 48).filter fun n => !bitAt m n) 4 0
  ((upTo 48).foldl (fun a n => enableLink (bitAt m n) n a) s1, {})

/-- LINK_ENABLE_WRITE (R51). -/
def execLinkEnableWrite (f : Frame) (v : Nat) (s : State) : Result :=
  .next (s.write f kLinkEnable 8 v actLinkEnable)

/-- LINK_VERSIONS_ALLOWED: the value is stored for the next training; a link held with NO_VERSION retrains at once with
it, whether or not it changes (R41, R51). -/
def actVersionsAllowed (link v : Nat) (s : State) : State × Ans :=
  let s1 := s.setReg (kLinkVersionsAllowed link) v
  let l := s1.link link
  (if l.phase = .held ∧ l.hold = .noVersion then s1.startTraining link else s1, {})

/-- LINK_VERSIONS_ALLOWED_WRITE (R41). -/
def execLinkVersionsAllowedWrite (f : Frame) (link v : Nat) (s : State) : Result :=
  .next (s.write f (kLinkVersionsAllowed link) 4 v (actVersionsAllowed link))

end Sys2Proof.Machine
end

