-- ==== Sys2Proof/Machine/Pitches.lean ====
section
/-! DEFINITION. The pitch commands (04): grant, revoke, clear, and the access lists. -/

namespace Sys2Proof.Machine

/-- Listed granules of a run that fail a test; a granule not listed is FREE. -/
def State.runAny (s : State) (first count : Nat) (p : PitchEntry → Bool) : Bool :=
  s.pitch.table.any fun q => decide (first ≤ q.1 ∧ q.1 < first + count) && p q.2

/-- Granules of a run that pass a test. -/
def State.runWhere (s : State) (first count : Nat) (p : PitchEntry → Bool) : List Nat :=
  s.granulesWhere fun g e => decide (first ≤ g ∧ g < first + count) && p e

/-- A slot bound to a tenant (15 R311). -/
def KeySlot.boundTo (k : KeySlot) (t : Nat) : Bool := (k.phase == .bound || k.phase == .keyed) && k.tenant == t

/-- The run meets an open move-in (13 R287). -/
def State.meetsMoveIn (s : State) (first count : Nat) : Bool :=
  match s.pair.moveIn with
  | some m => decide (first < m.first + m.count ∧ m.first < first + count)
  | none => false

/-- Granules that count as coherent windows: GRANTED or REVOKING (R83, R134). -/
def State.coherentGranules (s : State) : Nat :=
  (s.pitch.table.filter fun q => q.2.coherent && (q.2.phase == .granted || q.2.phase == .revoking)).length

/-- The grant's fields (Table 4.8). -/
def State.grantFields (s : State) : PitchEntry where
  phase := .granted
  pitch := s.reg kGrantPitch
  tenant := s.reg kGrantTenant
  acl := s.reg kGrantAcl
  slot := s.reg kGrantKey
  mirrored := bitAt (s.reg kGrantFlags) 0
  coherent := bitAt (s.reg kGrantFlags) 1
  hint := bits (s.reg kGrantFlags) 2 3
  written := false

/-- RESULT of a grant that is refused, 0 of one that is accepted (R83, R89; 13 R267, R287; 15 R315; 20 R400). -/
def State.grantCheck (s : State) : Nat :=
  let e := s.grantFields
  let first := s.reg kGrantFirst
  let count := s.reg kGrantCount
  let k := s.key e.slot
  if s.boot.stage != .ready || (s.pitch.grantRun.isSome || s.meetsMoveIn first count) then 1
  else if s.reach < first + count ∨ (s.pair.enable = true ∧ first < s.pair.window) then 3
  else if s.runAny first count (fun x => !(x.phase == .free || (x.phase == .held && x.tenant == e.tenant))) then 3
  else if e.mirrored && !(s.pair.phase == .paired && decide (s.pair.window ≤ first ∧ first + count ≤ 2 * s.pair.window)) then 3
  else if s.pitch.table.any (fun q => q.2.pitch == e.pitch && (q.2.phase == .granted || q.2.phase == .revoking)) then 5
  else if !k.boundTo e.tenant || (e.mirrored && k.generated) then 4
  else if e.coherent && decide (4096 < s.coherentGranules + count) then 8
  else 0

/-- What the write that `execGrant` names does, once it is accepted. -/
def actGrant (_ : Nat) (s : State) : State × Ans :=
  match s.grantCheck with
  | 0 =>
    ({ s with pitch := { s.pitch with grantRun := some {
        entry := s.grantFields, first := s.reg kGrantFirst, count := s.reg kGrantCount, done := 0
        flags := s.reg kGrantFlags, hseq := none } } }.setReg kGrantResult 2, done 2)
  | r + 1 => (s.setReg kGrantResult (r + 1), done (r + 1))

/-- GRANT (R83): an accepted grant begins to write its entries; a refused one leaves its code in GRANT_RESULT. -/
def execGrant (f : Frame) (v : Nat) (s : State) : Result :=
  .next (s.write f kGrantGo 1 v actGrant)

/-- Write one granule of a grant: straight to GRANTED, WRITTEN kept from a HELD granule (R76, R83). -/
def State.grantOne (s : State) (e : PitchEntry) (g : Nat) : State × Option Nat :=
  s.setGranule g fun old => { e with written := old.written }

/-- The rest of a grant's granules, in ascending order. -/
def State.grantRest (s : State) (r : GrantRun) : State × Option Nat :=
  (upTo (r.count - r.done)).foldl (fun a i =>
    let b := a.1.grantOne r.entry (r.first + r.done + i)
    (b.1, laterHseq a.2 b.2)) (s, r.hseq)

/-- BODY of a GRANT ledger entry (15 Table 15.13). -/
def grantBody (r : GrantRun) (gen : Nat) : Nat :=
  r.entry.pitch % 2 ^ 32 + r.entry.tenant % 256 * 2 ^ 32 + r.entry.slot % 256 * 2 ^ 40 + r.entry.acl % 65536 * 2 ^ 48
    + r.first % 2 ^ 32 * 2 ^ 64 + r.count % 2 ^ 32 * 2 ^ 96 + r.flags % 2 ^ 32 * 2 ^ 128 + gen % 2 ^ 32 * 2 ^ 160

/-- GRANT_COMPLETE (R83): the last entries are written; once a partner has acknowledged their records (13 R274),
PITCH_GENERATION advances, the GRANT entry is made and RESULT reads 0. -/
def execGrantComplete (s : State) : Result :=
  .next (match s.pitch.grantRun with
    | none => s
    | some r =>
      let w := s.grantRest r
      if w.1.halCovered w.2 then
        let gen := (w.1.reg kPitchGeneration + 1) % 2 ^ 32
        let s1 := { w.1 with pitch := { w.1.pitch with grantRun := none } }
        ((s1.setReg kPitchGeneration gen).setReg kGrantResult 0).ledger 0x02 0 Actor.board r.entry.tenant (grantBody r gen)
      else { w.1 with pitch := { w.1.pitch with grantRun := some { r with done := r.count, hseq := w.2 } } })

/-- What the write that `execRevoke` names does, once it is accepted. -/
def actRevoke (_ : Nat) (s : State) : State × Ans :=
  if s.pitch.grantRun.isSome then (s.setReg kRevokeResult 1, done 1)
  else match s.startRevoke (s.reg kRevokeMatch) (s.reg kRevokeValue) .manager with
    | (s', true) => (s'.setReg kRevokeResult 2, done 2)
    | (s', false) => (s'.setReg kRevokeResult 1, done 1)

/-- REVOKE (R84): refused with RESULT 1 while a grant is being written or when all 16 match entries are in use. -/
def execRevoke (f : Frame) (v : Nat) (s : State) : Result :=
  .next (s.write f kRevokeGo 1 v actRevoke)

/-- REVOKE_DEADLINE_EXPIRY (R85): of a match entry whose revoke is in progress (DESIGN CHOICE, log 7). -/
def execRevokeDeadlineExpiry (entry : Nat) (s : State) : Result :=
  .next (if (s.revoke entry).valid && !(s.revoke entry).expired then s.expireRevoke entry else s)

/-- REVOKE_DONE (R86): a revoke that waits for nothing more completes; a retirement's next batch follows (14 Table 14.2). -/
def execRevokeDone (entry : Nat) (s : State) : Result :=
  .next (if (s.revoke entry).valid && !s.revokePending entry then (s.finishRevoke entry).issueRetire else s)

/-- What the write that `execClear` names does, once it is accepted. -/
def actClear (_ : Nat) (s : State) : State × Ans :=
  let first := s.reg kClearFirst
  let count := s.reg kClearCount
  let held := s.runWhere first count fun e => e.phase == .held
  if s.boot.stage != .ready || s.pitch.clearRun.isSome then (s.setReg kClearResult 1, done 1)
  else if held.length ≠ count ∨ s.reach < first + count then (s.setReg kClearResult 3, done 3)
  else
    let s1 := match s.pair.moveOut with
      | some m => if first < m.first + m.count ∧ m.first < first + count then s.endMoveOut 3 else s
      | none => s
    let fresh := s1.runWhere first count fun e => e.phase == .held && !e.written
    let s2 := s1.clearAll fresh
    ({ s2.1 with pitch := { s2.1.pitch with clearRun := some { first := first, count := count, hseq := s2.2 } } }.setReg kClearResult 2, done 2)

/-- CLEAR (R77): refused with 1 while a clear runs or before READY (20 R400), and with 3 unless every granule named is HELD; granules never written
return to FREE at once; a move-out of a named granule stops (13 R290). -/
def execClear (f : Frame) (v : Nat) (s : State) : Result :=
  .next (s.write f kClearGo 1 v actClear)

/-- CLEAR_DONE (R102): every line of the granules is in the cleared form and the granules are FREE; RESULT reads 0 once the partner
has acknowledged their records (13 R274). -/
def execClearDone (s : State) : Result :=
  .next (match s.pitch.clearRun with
    | none => s
    | some r =>
      let w := s.clearAll (s.runWhere r.first r.count fun e => e.phase == .held)
      let h := laterHseq r.hseq w.2
      if w.1.halCovered h then { w.1 with pitch := { w.1.pitch with clearRun := none } }.setReg kClearResult 0
      else { w.1 with pitch := { w.1.pitch with clearRun := some { r with hseq := h } } })

/-- Key of ACL_TABLE. -/
def kAclTable : Nat := 0x501100

/-- A row would place a host in a second valid entry of its list (R78). -/
def State.aclClash (s : State) (row : Nat) (e : AclEntry) : Bool :=
  e.valid && (upTo 64).any fun i =>
    let o := s.pitch.acl.get {} (64 * (row / 64) + i)
    64 * (row / 64) + i != row && (o.valid && o.host == e.host)

/-- Write one row of ACL_TABLE (R78). -/
def State.writeAcl (row v : Nat) (s : State) : State × Nat :=
  let e := aclOfWord v
  if s.aclClash row e then (s, 3)
  else (({ s with pitch := { s.pitch with acl := s.pitch.acl.set {} row e } } : State).tellAcl (row / 64) (row % 64), 0)

/-- ACL_TABLE_WRITE (R78): pitch checks made from then on use the new rows. -/
def execAclTableWrite (f : Frame) (row : Nat) (rows : List Nat) (s : State) : Result :=
  .next (s.writeWindow f kAclTable 4 row rows fun r v s => State.writeAcl r v s)

end Sys2Proof.Machine
end

