-- ==== Sys2Proof/Machine/Memory.lean ====
section
/-! DEFINITION. The commands of the tiers and of stored-data protection (05, 06): migration moves, DRAM commands, refresh,
patrol scrub, row repair, the error tables and the checker. -/

namespace Sys2Proof.Machine

/-! ### Migration (05) -/

/-- MIGRATE_MOVE_START (R99 to R101): while the gate is open, MIGRATE_PARALLEL is not reached and MIGRATE_GUARD is left, the
next eviction of a COLD frame begins, or the next fill. -/
def execMigrateMoveStart (slice : Nat) (s : State) : Result :=
  .next (
    let x := s.slice slice
    if slice < 8 && (x.inService && (s.migrateOpen slice && (decide (x.moving < s.reg kMigrateParallel) && s.windowOk slice))) then
      match (x.frames.find? fun p => p.2.phase == .resident && s.hintOf slice p.2.region == 2).map Prod.fst with
      | some f => s.beginEvict slice f
      | none => s.nextFill slice
    else s)

/-- FILL_COMPLETE (R101): every page is copied, written pages again, and the frame is RESIDENT. -/
def execFillComplete (slice frame : Nat) (s : State) : Result :=
  .next (
    let e := (s.slice slice).frames.get {} frame
    if e.phase = .filling then
      ((s.pagesUp slice frame (regionPages e.region)).updSlice slice fun x => x.updFrame frame fun e => { e with
        phase := .resident, pages := 0 }).count .slice slice 52
    else s)

/-- EVICTION_COMPLETE (R100, R101): every dirty page is written back, the frame is FREE, and the fill that waited for it starts. -/
def execEvictionComplete (slice frame : Nat) (s : State) : Result :=
  .next (
    let e := (s.slice slice).frames.get {} frame
    if e.phase = .evicting then
      ((((s.pagesDown slice frame e.marked).wipeFrame slice frame).releaseFrame slice frame).count .slice slice 53).fillWaiting slice frame
    else s)

/-- MOVE_ABANDON (R101): a move not finished after four passes. -/
def execMoveAbandon (slice frame : Nat) (s : State) : Result :=
  .next (s.abandonMove slice frame)

/-! ### DRAM commands (05 R105, R106, R108) -/

/-- A queue entry may issue: a read, or a write while the buffer drains. -/
def ChanSt.issuable (c : ChanSt) (q : Nat × Bool × Nat) : Bool := !q.2.1 || c.draining

/-- The write buffer drains at 48 lines, or when no read waits. -/
def ChanSt.drains (c : ChanSt) : Bool :=
  decide (48 ≤ c.wbuf.length) || !(c.banks.any fun b => b.2.queue.any fun q => !q.2.1)

/-- The highest level that waits, as its number. -/
def ChanSt.topLevel (c : ChanSt) : Option Nat :=
  (c.banks.flatMap fun b => (b.2.queue.filter c.issuable).map fun q => q.2.2).min?

/-- The entry a bank serves (R105): within the level, the open row first, but the oldest after ROW_HIT_CAP hits. -/
def Bank.pick (b : Bank) (ok : Nat × Bool × Nat → Bool) (cap : Nat) : Option (Nat × Bool × Nat) :=
  let l := b.queue.filter ok
  if cap ≤ b.hits then l.head?
  else match l.find? fun q => b.openRow == some (rowOf q.1) with
    | some q => some q
    | none => l.head?

/-- Remove the first pair equal to one. -/
def dropFirst (q : Nat × Bool × Nat) : List (Nat × Bool × Nat) → List (Nat × Bool × Nat)
  | [] => []
  | h :: t => if h == q then t else h :: dropFirst q t

/-- A bank after serving an entry; with PAGE_IDLE 0 its row closes (R106). -/
def Bank.serve (b : Bank) (q : Nat × Bool × Nat) (idle : Nat) : Bank :=
  let row := rowOf q.1
  { queue := dropFirst q b.queue
    openRow := if idle = 0 then none else some row
    hits := if b.openRow == some row then b.hits + 1 else 0
    acts := if b.openRow == some row then b.acts else b.acts + 1 }

/-- A bank whose row a refresh or another maintenance command closes. -/
def Bank.closed (b : Bank) : Bank := { b with openRow := none, hits := 0, acts := 0 }

/-- The banks that a maintenance command takes, numbered as 32 × rank + 4 × bank group + bank (R104, R108). -/
def State.takesBank (s : State) (channel : Nat) (m : MaintOp) (b : Nat) : Bool :=
  match m with
  | .sameBank rank i => b / 32 == rank && b % 4 == i
  | .allBank rank => b / 32 == rank
  | .manage k => b == k
  | .repairRow row => s.bankOf channel (row * 128) == b
  | .remap line => s.bankOf channel line == b

/-- A maintenance command is issued: the rows of the banks it takes close, and no other bank is held up (R108). -/
def State.maintIssue (s : State) (channel : Nat) (m : MaintOp) : State :=
  s.updChan channel fun c => { c with
    maint := c.maint.drop 1
    banks := (c.banks.map Prod.fst).foldl (fun t b => if s.takesBank channel m b then t.upd {} b Bank.closed else t) c.banks }

/-- A bank that has had as many activations as its DIMM allows gets a refresh management command (R110) (DESIGN CHOICE, log 72). -/
def State.manageBank (s : State) (channel b : Nat) : State :=
  if Config.rfmLimit + 1 ≤ ((s.chan channel).banks.get {} b).acts then
    (s.updChan channel fun c => { c with banks := c.banks.upd {} b fun k => { k with acts := 0 } }).maintain channel (.manage b)
  else s

/-- DRAM_COMMAND_ISSUE (R105, R108): a waiting maintenance command, of level 1, goes first; else the bank picked by the rotating pointer
within the highest level serves one access, and a write leaves the write buffer. -/
def execDramCommandIssue (channel : Nat) (s : State) : Result :=
  .next (
    if channel < 32 then
      let c0 := s.chan channel
      let c := { c0 with draining := c0.drains }
      match c0.maint.head? with
      | some m => s.maintIssue channel m
      | none =>
      match c.topLevel with
      | none => s.updChan channel fun _ => c
      | some lv =>
        let ok := fun (q : Nat × Bool × Nat) => c.issuable q && q.2.2 == lv
        match rotate 256 c.bankPtr fun b => (c.banks.get {} b).queue.any ok with
        | none => s
        | some b =>
          match (c.banks.get {} b).pick ok (s.reg kRowHitCap) with
          | none => s
          | some q =>
            let idle := s.reg kPageIdle
            (s.updChan channel fun _ => { c with
              banks := c.banks.upd {} b fun k => k.serve q idle
              bankPtr := (b + 1) % 256
              wbuf := if q.2.1 then c.wbuf.filter (· ≠ q.1) else c.wbuf }).manageBank channel b
    else s)

/-- PAGE_IDLE_CLOSE (R106): a bank's row closes. -/
def execPageIdleClose (channel bank : Nat) (s : State) : Result :=
  .next (if channel < 32 ∧ bank < 256 then
      s.updChan channel fun c => { c with banks := c.banks.upd {} bank fun b => { b with openRow := none, hits := 0 } }
    else s)

/-- The refresh commands of one interval of a DDR5 channel (R108, R110): for each rank one same-bank command for each of its four bank
indices, all-bank during bring-up. -/
def State.refreshOps (s : State) (unit : Nat) : List MaintOp :=
  let ranks := upTo (2 ^ (s.chan unit).k)
  if s.boot.stage = .ready then ranks.flatMap fun r => (upTo 4).map fun i => .sameBank r i else ranks.map .allBank

/-- Nanoseconds to the unit's next refresh interval: 3.9 µs, 1.95 µs while the DIMM's sensor reads above 85 °C, and at a half-stack what
its temperature readout requires (R108). -/
def State.refreshNs (s : State) (hbm : Bool) (unit : Nat) : Nat :=
  if hbm then Config.hbmRefresh unit else if (s.chan unit).hot then 1950 else 3900

/-- REFRESH_INTERVAL (R108): the interval's commands wait at DRAM maintenance priority; of a half-stack's per-bank refresh the entry at
level 1 of its slice's pipeline is all that is modelled (DESIGN CHOICE, log 72). -/
def execRefreshInterval (hbm : Bool) (unit : Nat) (s : State) : Result :=
  .next (
    let n := if hbm then 32 + unit else unit
    let slice := if hbm then unit else unit / 4
    if slice < 8 then
      let s1 := s.updChan n fun c => { c with refreshes := c.refreshes + 1, nextRefresh := s.time.ticks + s.refreshNs hbm n }
      if hbm then s1.pipePush slice 1 n 0 else (s.refreshOps n).foldl (fun a m => a.maintain n m) s1
    else s)

/-! ### Patrol scrub (06 R124 to R126) -/

/-- Lines of a channel. -/
def ChanSt.lines (c : ChanSt) : Nat := c.capacity * 2 ^ 24

/-- The line a scrub engine reads next: of a channel in ascending address, of a half-stack over the RESIDENT frames. -/
def State.scrubNext (s : State) (near : Bool) (unit : Nat) : Option (Home × Nat) :=
  if near then
    let x := s.slice unit
    let pos := (s.chan (32 + unit)).scrubPos
    match x.frames.find? fun p => p.2.phase == .resident && decide (pos < (p.1 + 1) * 32768) with
    | none => none
    | some (f, e) =>
      let a := max pos (f * 32768)
      let q := e.region * 512 + a % 32768 / 64
      let off := s.pageOf unit q * 4096 + a % 64 * 64
      some (frameHome unit f q off, off)
  else
    let c := s.chan unit
    if c.scrubPos < c.lines then
      let off := s.offsetOf unit c.scrubPos
      some ({ slice := unit / 4, page := s.localOf unit (c.scrubPos / 64), frame := none, unit := unit, line := c.scrubPos }, off)
    else none

/-- What a scrub read does with its line (R125): a CORRECTED line is written back and read again, `again` being what that read finds wrong
beside the unit's hard errors; an UNCORRECTABLE line is written back poisoned. -/
def State.scrubLine (s : State) (h : Home) (off : Nat) (again : BitVec 640) : State :=
  let l := s.at h off
  let s1 := (s.note h off 0xFFF).queueDram h false 6
  match l.group with
  | some g => ((s1.setAt h off l.corrected).queueDram h true 6).verify h off g again
  | none => s1

/-- SCRUB_READ (R124, R125): the engine reads its next line, at the migration and scrub priority; the first read of a window takes the
DDR5 error check and scrub counts, which are free values (R110) (DESIGN CHOICE, log 72). -/
def execScrubRead (near : Bool) (unit : Nat) (again : BitVec 640) (s : State) : Result :=
  .next (
    let slice := if near then unit else unit / 4
    let n := if near then 32 + unit else unit
    if slice < 8 && (s.scrubOpen slice && (!(s.chan n).stopped && !(s.slice slice).stopped)) then
      match s.scrubNext near unit with
      | none => s
      | some (h, off) =>
        let s1 := (s.pipePush slice 6 n h.line).scrubLine h off again
        let due := (s1.chan n).ecsDue
        let s2 := if due then s1.takeFresh else s1
        (s2.updChan n fun c => { c with
          scrubPos := h.line + 1
          scrubPasses := if !near && decide (c.lines ≤ h.line + 1) then (c.scrubPasses + 1) % 256 else c.scrubPasses
          ecsReads := if due then c.ecsReads + 1 else c.ecsReads
          ecsCount := if due then s1.freshValue.toNat % 2 ^ 32 else c.ecsCount
          ecsDue := false }).takeCandidates slice
    else s)

/-- SCRUB_PROGRESS of a unit (06 Table 6.4): passes and the pass's progress in units of 2^-24. -/
def State.scrubProgress (s : State) (n : Nat) : Nat :=
  let c := s.chan n
  let total := if n < 32 then c.lines else 12288 * 32768
  c.scrubPasses % 256 * 2 ^ 24 + (if total = 0 then 0 else min (2 ^ 24 - 1) (c.scrubPos * 2 ^ 24 / total))

/-- Nothing is left for the engine to read in its pass. -/
def State.scrubDone (s : State) (near : Bool) (unit : Nat) : Bool := (s.scrubNext near unit).isNone

/-- SCRUB_PERIOD_END (R124): a pass not finished raises SCRUB_BEHIND naming the channel; the new pass starts at address 0. -/
def execScrubPeriodEnd (near : Bool) (unit : Nat) (s : State) : Result :=
  .next (
    let n := if near then 32 + unit else unit
    if n < 40 then
      let s1 := if s.scrubDone near unit then s
        else s.crier (if near then unit else unit / 4) 0x0C n (s.scrubProgress n)
      s1.updChan n fun c => { c with
        scrubPos := 0
        scrubPasses := if near && s.scrubDone near unit then (c.scrubPasses + 1) % 256 else c.scrubPasses }
    else s)

/-! ### Row repair (06 R127) -/

/-- The entries of a remap entry's own table that lie in its row. -/
def ChanSt.besides (c : ChanSt) (unit line : Nat) : Nat := ((c.tableOf unit line).filter fun p => rowOf p.1 == rowOf line).length

/-- The row that a repair takes: of the rows with four entries of a table, or with any of a table that holds 12, the one with the most
entries, ties by the rotating pointer; its bank group has a soft repair left (R127). -/
def State.repairRow (s : State) (n : Nat) : Option Nat :=
  let c := s.chan n
  let due := c.remap.filter fun p => decide (4 ≤ c.besides n p.1 ∨ 12 ≤ (c.tableOf n p.1).length)
  match (due.map fun p => c.besides n p.1).max? with
  | none => none
  | some m =>
    let best := ((due.filter fun p => c.besides n p.1 == m).map fun p => rowOf p.1).eraseDups.mergeSort
    match (best.filter fun r => decide (c.rowPtr ≤ r)).head?.orElse fun _ => best.head? with
    | some r => if c.usedGroups.contains (s.groupOfRow n r) then none else some r
    | none => none

/-- Slice of a memory unit. -/
def unitSlice (n : Nat) : Nat := if n < 32 then n / 4 else n - 32

/-- ROW_REPAIR_START (R127 steps 1 and 2): in a patrol-scrub window the row's 128 lines are copied to the staging buffer,
which then serves them, and the repair waits at DRAM maintenance priority. -/
def execRowRepairStart (channel : Nat) (s : State) : Result :=
  .next (
    let c := s.chan channel
    if channel < 40 && (s.scrubOpen (unitSlice channel) && (c.repair.isNone && !c.stopped)) then
      match s.repairRow channel with
      | none => s
      | some row =>
        (s.updChan channel fun c => { c with
          rowPtr := row + 1
          repair := some { row := row, lines := (upTo 128).map fun i => (row * 128 + i, c.lineAt (row * 128 + i)) } }).maintain channel
            (.repairRow row)
    else s)

/-- The row written back from the staging buffer, its remap entries free, the row on the repair list (R127 steps 3 and 4). -/
def ChanSt.repaired (c : ChanSt) (r : RowRepair) (group : Nat) : ChanSt :=
  { c with
    repair := none
    remap := c.remap.filter fun p => rowOf p.1 != r.row
    mem := r.lines.foldl (fun m p => m.set clearLine p.1 p.2) c.mem
    hard := c.hard.filter fun p => rowOf p.1 != r.row
    usedGroups := group :: c.usedGroups
    softRepairs := c.softRepairs + 1
    flashRows := if c.flashRows.contains r.row then c.flashRows else c.flashRows ++ [r.row] }

/-- ROW_REPAIR_DONE (R127): soft post-package repair is applied; a ROW_REPAIR fault and its ledger entry. -/
def execRowRepairDone (channel : Nat) (s : State) : Result :=
  .next (match (s.chan channel).repair with
    | none => s
    | some r =>
      let g := s.groupOfRow channel r.row
      let s1 := s.updChan channel fun c => c.repaired r g
      let s2 := s1.fault (unitSlice channel) 0x04 channel 0 actSpared
      s2.ledger 0x07 0 Actor.board 0 s2.lastFaultWords)

/-! ### Tables (06 R123, R130) -/

/-- PITCH_ENTRY_REWRITE (R123, Table 6.1): while the cores run they rewrite a bad entry from their grant records, and the
granule's requests are served again. -/
def execPitchEntryRewrite (granule : Nat) (s : State) : Result :=
  .next (if s.repair.coresUp then
    { s.sramWrite 0x04 8 granule with pitch := { s.pitch with bad := s.pitch.bad.filter (· ≠ granule) } } else s)

/-- Write one row of ERROR_TABLE: 1 to VALID frees the entry, and all of it then reads 0 (R130) (DESIGN CHOICE, log 75). -/
def State.writeErrorRow (table row v : Nat) (s : State) : State × Nat :=
  (if bitAt v 63 then s.setErrTable table ((s.errTable table).set {} row {}) else s, 0)

/-- ERROR_TABLE_WRITE (R130). -/
def execErrorTableWrite (f : Frame) (table row : Nat) (rows : List Nat) (s : State) : Result :=
  .next (s.writeWindow f (0x602400 + table) 32 row rows fun r v s => State.writeErrorRow table r v s)

/-! ### The checker (06 R131, R132) -/

/-- What the write that `execCheckerEnableWrite` names does, once it is accepted. -/
def actCheckerEnableWrite (v : Nat) (s : State) : State × Ans :=
  if v = 1 ∧ s.sec.conf = true then (s, refuse 4) else storeEntry kCheckerEnable v s

/-- CHECKER_ENABLE_WRITE (R132): refused in confidential mode. -/
def execCheckerEnableWrite (f : Frame) (v : Nat) (s : State) : Result :=
  .next (s.write f kCheckerEnable 1 v actCheckerEnableWrite)

/-- First address of the checker SRAM (Table 6.4). -/
def checkerSramBase : Nat := 0xFFFFFFFFFFF00000

/-- The refusal code of a raw operation at an address: 3 off the board, unaligned, or in a stopped slice; 4 outside a GRANTED granule of
tenant 0 (R131, Table 6.4). -/
def State.checkerAt (s : State) (a : Nat) : Nat :=
  if checkerSramBase ≤ a then
    if a < checkerSramBase + 256 ∧ (s.slice ((a - checkerSramBase) / 32)).stopped = false then 0 else 3
  else if a % 64 ≠ 0 ∨ a / 2 ^ 52 ≠ 0 ∨ bits a 44 8 ≠ s.board then 3
  else
    let e := s.granule (bits a 24 20)
    if bits a 24 20 < s.reach ∧ e.phase = .granted ∧ e.tenant = 0 then 0 else 4

/-- The refusal code of a raw operation, 0 when it may run: 3 without CHECKER_ENABLE or while one runs, else its address's. -/
def State.checkerCheck (s : State) : Nat :=
  if s.reg kCheckerEnable ≠ 1 ∨ s.sec.conf = true ∨ s.checker.running.isSome = true then 3 else s.checkerAt (s.reg kCheckerAddr)

/-- Start a raw operation on the address in CHECKER_ADDR: 1 write, 2 read. -/
def State.checkerStart (op : Nat) (s : State) : State × Ans :=
  match s.checkerCheck with
  | 0 => ({ s with checker := { s.checker with running := some (op, s.reg kCheckerAddr) } }.setReg kCheckerResult 2, done 2)
  | r + 1 => (s.setReg kCheckerResult (r + 1), done (r + 1))

/-- What the write that `execCheckerRawWrite` names does, once it is accepted. -/
def actCheckerRawWrite (_ : Nat) (s : State) : State × Ans :=
  State.checkerStart 1 s

/-- CHECKER_RAW_WRITE (R131): CHECKER_OP 1. -/
def execCheckerRawWrite (f : Frame) (s : State) : Result :=
  .next (s.write f kCheckerOp 1 1 actCheckerRawWrite)

/-- What the write that `execCheckerRawRead` names does, once it is accepted. -/
def actCheckerRawRead (_ : Nat) (s : State) : State × Ans :=
  State.checkerStart 2 s

/-- CHECKER_RAW_READ (R131): CHECKER_OP 2. -/
def execCheckerRawRead (f : Frame) (s : State) : Result :=
  .next (s.write f kCheckerOp 1 2 actCheckerRawRead)

/-- A raw DRAM write: the 80 bytes as given, where requests are served from; no encryption, no code. It is a write to its granule (04
R76). -/
def State.rawWriteLine (s : State) (off : Nat) : State :=
  let l := rawLine s.checker.data (s.checker.check.extractLsb' 0 128)
  let h := s.home off
  ((s.setAt h off l).markPage h).markWritten off

/-- A raw read of a line into CHECKER_DATA and CHECKER_CHECK. -/
def State.rawReadLine (s : State) (off : Nat) : State :=
  let l := s.stored off
  { s with checker := { s.checker with data := l.rawData, check := l.rawCheck.setWidth 320 } }

/-- The eight words of a slice's checker SRAM group that an address names, as data, word check bytes and byte check bytes
(Table 6.4). -/
def State.sramWords (s : State) (slice word : Nat) : List (BitVec 32 × BitVec 7 × BitVec 20) :=
  (upTo 8).map fun i => (s.slice slice).checkerSram.get (0, 0, 0) (8 * word + i)

/-- A raw write of the checker SRAM: 32 data bytes, 8 word check bytes, 32 byte check bytes. -/
def State.rawWriteSram (s : State) (slice word : Nat) : State :=
  let c := s.checker
  s.updSlice slice fun x => { x with
    checkerSram := (upTo 8).foldl (fun t i =>
      let byteChecks := (upTo 4).foldl (fun a j => a + bits c.check.toNat (64 + 8 * (4 * i + j)) 5 * 2 ^ (5 * j)) 0
      t.set (0, 0, 0) (8 * word + i)
        (c.data.extractLsb' (32 * i) 32, c.check.extractLsb' (8 * i) 7, BitVec.ofNat 20 byteChecks)) x.checkerSram }

/-- A raw read of the checker SRAM. -/
def State.rawReadSram (s : State) (slice word : Nat) : State :=
  let w := (s.sramWords slice word).zipIdx
  let d := w.foldl (fun a p => a + p.1.1.toNat * 2 ^ (32 * p.2)) 0
  let k := w.foldl (fun a p => a + p.1.2.1.toNat * 2 ^ (8 * p.2)
    + ((upTo 4).foldl (fun b j => b + bits p.1.2.2.toNat (5 * j) 5 * 2 ^ (64 + 8 * (4 * p.2 + j))) 0)) 0
  { s with checker := { s.checker with data := BitVec.ofNat 512 d, check := BitVec.ofNat 320 k } }

/-- What a raw operation that runs does at its address. -/
def State.rawDo (s : State) (op a : Nat) : State :=
  if checkerSramBase ≤ a then
    let n := (a - checkerSramBase) / 32
    let w := (a - checkerSramBase) % 32
    if op = 1 then s.rawWriteSram n w else s.rawReadSram n w
  else if op = 1 then s.rawWriteLine (bits a 0 44) else s.rawReadLine (bits a 0 44)

/-- CHECKER_RAW_DONE (R131, R132): the raw operation takes effect at the address it started with, and CHECKER_RESULT reads 0; it has no
effect where the address has meanwhile left tenant 0, and CHECKER_RESULT says so; one still pending when confidential mode is entered was
refused there. -/
def execCheckerRawDone (s : State) : Result :=
  .next (match s.checker.running with
    | none => s
    | some (op, a) =>
      let s0 := { s with checker := { s.checker with running := none } }
      let code := s.checkerAt a
      if code = 0 then (s0.rawDo op a).setReg kCheckerResult 0 else s0.setReg kCheckerResult code)

end Sys2Proof.Machine
end

