-- ==== Sys2Proof/Machine/Moves.lean ====
section
/-! DEFINITION. Pool-to-pool moves (13 R286 to R290). -/

namespace Sys2Proof.Machine

/-! ### The receiver -/

/-- Granules of a run, in ascending order. -/
def runGranules (first count : Nat) : List Nat := (upTo count).map (first + ·)

/-- A granule may take part in a move-in: below the reach, outside the mirror window, FREE or HELD for the tenant (R287). -/
def State.moveInTakes (s : State) (tenant g : Nat) : Bool :=
  let e := s.granule g
  decide (g < s.reach) && (!(s.pair.enable && decide (g < s.pair.window))
    && (e.phase == .free || (e.phase == .held && e.tenant == tenant)))

/-- RESULT of a move-in that is refused, 0 of one that is accepted (R287, Table 4.6). -/
def State.moveInCheck (s : State) : Nat :=
  let t := s.reg kMoveInTenant
  let k := s.key (s.reg kMoveInKey)
  if s.pair.moveIn.isSome then 1
  else if !((runGranules (s.reg kMoveInFirst) (s.reg kMoveInCount)).all fun g => s.moveInTakes t g) then 3
  else if !((s.tenant t).phase == .admitted && (k.phase == .keyed && (k.tenant == t && k.kcv.toNat == s.reg kMoveInKcv))) then 4
  else if !s.mayAdvance s.pair.moveAdvances then 7
  else 0

/-- A granule HELD for the move's tenant with its key slot and WRITTEN = 1. -/
def moveInEntry (tenant slot : Nat) (e : PitchEntry) : PitchEntry :=
  { e with phase := .held, tenant := tenant, slot := slot, written := true }

/-- What the write that `execMoveInOpen` names does, once it is accepted. -/
def actMoveInOpen (_ : Nat) (s : State) : State × Ans :=
  match s.moveInCheck with
  | 0 =>
    let first := s.reg kMoveInFirst
    let count := s.reg kMoveInCount
    let t := s.reg kMoveInTenant
    let slot := s.reg kMoveInKey
    let s1 := ((runGranules first count).foldl (fun a g => (a.setGranule g (moveInEntry t slot)).1) s)
    let m : MoveIn := {
      source := s.reg kMoveInSource, first := first, count := count, tenant := t, slot := slot, tag := s.reg kMoveInTag
      next := 0, ahead := [], applied := 0, poisoned := 0, finalHseq := none }
    (({ s1 with pair := { s1.pair with
        moveIn := some m, moveEpoch := s1.pair.moveEpoch + 1, moveAdvances := s1.advanced s1.pair.moveAdvances } } : State).setReg
      kMoveInResult 2, done 2)
  | r + 1 => (s.setReg kMoveInResult (r + 1), done (r + 1))

/-- MOVE_IN_OPEN (R287): MOVE_EPOCH advances, the granules are HELD for the tenant, the move-in opens. -/
def execMoveInOpen (f : Frame) (s : State) : Result :=
  .next (s.write f kMoveInGo 1 1 actMoveInOpen)

/-- Close the move-in with a result; a MOVE_DONE crier event of the receiver (R290). -/
def State.endMoveIn (s : State) (m : MoveIn) (result : Nat) : State :=
  (({ s with pair := { s.pair with moveIn := none } } : State).setReg kMoveInResult result).crier 8 0x23 m.first
    (result % 256 + 2 ^ 8 + m.applied % 2 ^ 64 * 2 ^ 64 + m.poisoned % 2 ^ 64 * 2 ^ 128)

/-- A result code that a cancelled move-in reads: the manual gives none, and 2 would say that it is open (DEDUCED, log 26). -/
def State.cancelCode (s : State) : Nat := let v := s.freshValue.toNat % 8; if v = 2 then 8 else v

/-- What the write that `execMoveInCancel` names does, once it is accepted. -/
def actMoveInCancel (_ : Nat) (s : State) : State × Ans :=
  match s.pair.moveIn with
  | some m => (s.takeFresh.endMoveIn m s.cancelCode, done 0)
  | none => (s, done 0)

/-- MOVE_IN_CANCEL (R287): the granules stay HELD with WRITTEN = 1. -/
def execMoveInCancel (f : Frame) (s : State) : Result :=
  .next (s.write f kMoveInGo 1 2 actMoveInCancel)

/-- The packet belongs to the open move-in (R289). -/
def MoveIn.takes (m : MoveIn) (epoch : BitVec 8) (partner : Nat) (h : HalHdr) : Bool :=
  h.pairEpoch == epoch && (partner == m.source && (h.slot * 256 + h.keyEpoch.toNat == m.tag
    && (decide (m.first ≤ h.offset / 2 ^ 24) && decide (h.offset / 2 ^ 24 < m.first + m.count))))

/-- Write the lines of a MOVE_WRITE to the far tier as stored; poisoned when the slot has left KEYED (R289). -/
def State.applyMove (s : State) (m : MoveIn) (h : HalHdr) (data : List Line) : State :=
  let k := s.key m.slot
  let bad := !h.cleared && !(k.phase == .keyed && k.tenant == m.tenant)
  let form := fun (d : Line) => if h.cleared then clearLine else if h.poisoned || bad then poisonLine else codeword d
  let s1 := s.pipePush (s.sliceOf h.offset).1 6 h.slot h.hseq
  let s2 := (data.zipIdx).foldl (fun a p =>
    let off := h.offset / 64 * 64 + 64 * p.2
    if a.homeDown off then a else (a.storeLine off (form p.1) 6).1) s1
  let s3 := if bad then s2.keyMismatch h else s2
  let poisoned := if h.cleared then 0 else if h.poisoned || bad then data.length else 0
  { s3 with pair := { s3.pair with moveIn := some { m with
      next := (m.next + 1) % 2 ^ 32, applied := m.applied + data.length, poisoned := m.poisoned + poisoned } } }

/-- MOVE_ACK of the receiver's progress (Table 13.2). -/
def State.sendMoveAck (s : State) (link next : Nat) : State :=
  let m := plainHal 0xB (hseqBefore next) s.pair.moveEpoch [0]
  if (s.link link).takes m.bytes then s.transmit link 0 .move m else s

/-- The move-in closes once its final HSEQ is applied (R290). -/
def State.tryEndMoveIn (s : State) (link : Nat) : State :=
  match s.pair.moveIn with
  | some m =>
    if m.finalHseq = some (hseqBefore m.next) then (s.endMoveIn m 0).sendMoveAck link m.next else s
  | none => s

/-- Apply the packets of the move that stand in turn. -/
def State.applyMoves (link : Nat) : Nat → State → State
  | 0, s => s
  | n + 1, s =>
    match s.pair.moveIn with
    | none => s
    | some m =>
      match m.ahead.find? fun p => (halHdr p.hdr).hseq == m.next with
      | none => s
      | some p =>
        let m' := { m with ahead := m.ahead.filter fun q => (halHdr q.hdr).hseq != m.next }
        State.applyMoves link n ((s.applyMove m' (halHdr p.hdr) p.payload).tryEndMoveIn link)

/-- MOVE_WRITE (R289): on a move link only; one that does not belong to the open move-in is discarded and counted in board
row 12. -/
def execMoveWrite (p : HalPkt) (s : State) : Result :=
  .next (let h := halHdr p.hdr
    if !s.isMoveLink p.link || h.kind != 0xA then s
    else match s.pair.moveIn with
      | none => s.count .board 0 12
      | some m =>
        if !m.takes s.pair.moveEpoch (s.link p.link).partner h then s.count .board 0 12
        else if 2 ^ 31 ≤ (h.hseq + 2 ^ 32 - m.next) % 2 ^ 32 || m.ahead.any (fun q => (halHdr q.hdr).hseq == h.hseq) then s
        else State.applyMoves p.link (m.ahead.length + 1)
          { s with pair := { s.pair with moveIn := some { m with ahead := m.ahead ++ [p] } } })

/-- MOVE_END (R290): the final HSEQ of the open move-in's stream; one that is of no open move-in is discarded and counted as any packet
of a move is (R289). -/
def execMoveEnd (p : HalPkt) (s : State) : Result :=
  .next (let h := halHdr p.hdr
    if !s.isMoveLink p.link || h.kind != 0xC then s
    else match s.pair.moveIn with
      | none => s.count .board 0 12
      | some m =>
        if h.pairEpoch = s.pair.moveEpoch ∧ (s.link p.link).partner = m.source then
          ({ s with pair := { s.pair with moveIn := some { m with finalHseq := some h.hseq } } } : State).tryEndMoveIn p.link
        else s.count .board 0 12)

/-- MOVE_ACK_SEND (Table 13.2): on a live move link to the source of the open move-in. -/
def execMoveAckSend (s : State) : Result :=
  .next (match s.pair.moveIn with
    | some m =>
      match (upTo 48).find? fun n => (s.link n).isUp && (s.isMoveLink n && (s.link n).partner == m.source) with
      | some n => s.sendMoveAck n m.next
      | none => s
    | none => s)

/-! ### The sender -/

/-- RESULT of a move-out that is refused, 0 of one that is accepted (R288). -/
def State.moveOutCheck (s : State) : Nat :=
  let n := s.reg kMoveOutLink
  let first := s.reg kMoveOutFirst
  let t := (s.granule first).tenant
  if s.pair.moveOut.isSome then 1
  else if !((s.link n).isUp && (s.isMoveLink n && (s.link n).partner == s.reg kMoveOutDest)) then 1
  else if !((runGranules first (s.reg kMoveOutCount)).all fun g => (s.granule g).phase == .held && (s.granule g).tenant == t) then 3
  else 0

/-- What the write that `execMoveOutStart` names does, once it is accepted. -/
def actMoveOutStart (_ : Nat) (s : State) : State × Ans :=
  match s.moveOutCheck with
  | 0 =>
    let m : MoveOut := {
      link := s.reg kMoveOutLink, first := s.reg kMoveOutFirst, count := s.reg kMoveOutCount, dest := s.reg kMoveOutDest
      epoch := s.reg kMoveOutEpoch, nextLine := 0, nextHseq := 0, acked := 0, lines := 0, poisoned := 0, sent := []
      endSent := false }
    ((({ s with pair := { s.pair with moveOut := some m } } : State).setReg kMoveOutResult 2).setReg kMoveOutDone 0, done 2)
  | r + 1 => (s.setReg kMoveOutResult (r + 1), done (r + 1))

/-- MOVE_OUT_START (R288). -/
def execMoveOutStart (f : Frame) (s : State) : Result :=
  .next (s.write f kMoveOutGo 1 1 actMoveOutStart)

/-- What the write that `execMoveOutStop` names does, once it is accepted. -/
def actMoveOutStop (_ : Nat) (s : State) : State × Ans :=
  (s.endMoveOut 3, done 0)

/-- MOVE_OUT_STOP (R290): RESULT 3 and no MOVE_END. -/
def execMoveOutStop (f : Frame) (s : State) : Result :=
  .next (s.write f kMoveOutGo 1 2 actMoveOutStop)

/-- MOVE_PROGRESS_TIMEOUT (R290). -/
def execMoveProgressTimeout (s : State) : Result := .next (s.endMoveOut 3)

/-- Lines of the move-out's granules. -/
def MoveOut.total (m : MoveOut) : Nat := m.count * 2 ^ 18

/-- The next run of lines, within one page (R289) (DEDUCED, log 26). -/
def State.nextRun (s : State) (m : MoveOut) : Option LineRun :=
  let off := m.first * 2 ^ 24 + m.nextLine * 64
  (s.runsOf ((pageLines off).filter fun o => decide (off ≤ o))).head?

/-- MOVE_END with the final HSEQ (R290). -/
def State.sendMoveEnd (s : State) (m : MoveOut) : State :=
  let pkt := plainHal 0xC (hseqBefore m.nextHseq) (BitVec.ofNat 8 m.epoch) []
  if (s.link m.link).takes pkt.bytes then
    let s1 := s.transmit m.link 0 .move pkt
    { s1 with pair := { s1.pair with moveOut := some { m with endSent := true } } }
  else { s with pair := { s.pair with moveOut := some m } }

/-- MOVE_WRITE_SEND (R289): the next lines go out on the move link when the window and the link have room; a MOVE_END that found
no room goes out here. -/
def execMoveWriteSend (s : State) : Result :=
  .next (match s.pair.moveOut with
    | none => s
    | some m =>
      if m.total ≤ m.nextLine then (if m.acked = m.total ∧ m.endSent = false then s.sendMoveEnd m else s)
      else if halyardWindow ≤ m.sent.length then s
      else match s.nextRun m with
        | none => s
        | some r =>
          let slot := (s.ownerOf r.offset).slot
          let pkt := TxMsg.hal ({
            kind := 0xA, poisoned := r.poisoned, cleared := r.cleared, pairEpoch := BitVec.ofNat 8 m.epoch, sliceEpoch := 0
            slot := slot, keyEpoch := (s.key slot).epoch, hseq := m.nextHseq, offset := r.offset : HalHdr }).pack r.data
          if !(s.link m.link).takes pkt.bytes then s
          else
            let s1 := ((s.pipePush (s.sliceOf r.offset).1 6 slot m.nextHseq).readRun r 6).transmit m.link 0 .move pkt
            { s1 with pair := { s1.pair with moveOut := some { m with
                nextLine := m.nextLine + r.data.length, nextHseq := (m.nextHseq + 1) % 2 ^ 32
                lines := m.lines + r.data.length, poisoned := m.poisoned + (if r.poisoned then 1 else 0)
                sent := m.sent ++ [(m.nextHseq, m.nextLine + r.data.length)] } } })

/-- MOVE_ACK (R290): covered packets leave the window; with the last MOVE_WRITE covered MOVE_END is sent, and the first MOVE_ACK
after it that covers the final HSEQ ends the move-out with RESULT 0 (DEDUCED, log 26). -/
def execMoveAck (p : HalPkt) (s : State) : Result :=
  .next (let h := halHdr p.hdr
    match s.pair.moveOut with
    | none => s
    | some m =>
      if p.link ≠ m.link ∨ h.kind ≠ 0xB ∨ h.pairEpoch ≠ BitVec.ofNat 8 m.epoch then s
      else
        let covered := fun (x : Nat × Nat) => decide ((h.hseq + 2 ^ 32 - x.1) % 2 ^ 32 < 2 ^ 31)
        let m1 := { m with
          sent := m.sent.filter fun x => !covered x
          acked := (m.sent.filter covered).foldl (fun (a : Nat) (x : Nat × Nat) => max a x.2) m.acked }
        if m1.endSent then (if h.hseq = hseqBefore m1.nextHseq then s.endMoveOut 0 else s)
        else if m1.acked = m1.total then s.sendMoveEnd m1
        else { s with pair := { s.pair with moveOut := some m1 } })

/-- What the write that `execMoveLinksWrite` names does, once it is accepted. -/
def actMoveLinksWrite (v : Nat) (s : State) : State × Ans :=
  if s.reg kPairEnable = 1 ∧ bits v 44 4 ≠ 0 then (s, refuse 3) else storeEntry kMoveLinks v s

/-- MOVE_LINKS_WRITE (R286): refused while PAIR_ENABLE is 1 when it sets a bit of links 44–47. -/
def execMoveLinksWrite (f : Frame) (v : Nat) (s : State) : Result :=
  .next (s.write f kMoveLinks 8 v actMoveLinksWrite)

end Sys2Proof.Machine
end

