-- ==== Sys2Proof/Machine/Observe.lean ====
section
/-! DEFINITION. Instruments (17): clearing tallies, hoist triggers, the crier's host copies and its acknowledgement, and
control-core trace. -/

namespace Sys2Proof.Machine

/-! ### Tallies (R358) -/

/-- Reset every row of one group instance. -/
def State.clearTallies (s : State) (g inst : Nat) : State :=
  (upTo (groupRows g)).foldl (fun a r => if a.obs.tally.get 0 (tallyKey g inst r) = 0 then a else a.resetTally g inst r) s

/-- What the write that `execTallyClear` names does, once it is accepted. -/
def actTallyClear (v : Nat) (s : State) : State × Ans :=
  if 7 ≤ v / 2 ^ 24 ∨ groupSize (v / 2 ^ 24) ≤ v % 2 ^ 24 then (s, refuse 2)
  else (s.clearTallies (v / 2 ^ 24) (v % 2 ^ 24), {})

/-- TALLY_CLEAR (R358): group in [31:24], instance in [23:0]. -/
def execTallyClear (f : Frame) (v : Nat) (s : State) : Result :=
  .next (s.write f kTallyClear 4 v actTallyClear)

/-! ### Hoists (R349 to R352) -/

/-- What the write that `execHoistNow` names does, once it is accepted. -/
def actHoistNow (_ : Nat) (s : State) : State × Ans :=
  (s.hoist 2 0, {})

/-- HOIST_NOW (R349). -/
def execHoistNow (f : Frame) (v : Nat) (s : State) : Result :=
  .next (s.write f kHoistNow 1 v actHoistNow)

/-- The last latch or missed trigger lies within HOIST_REARM (R352). -/
def State.rearming (s : State) : Bool :=
  match s.obs.lastHoist with
  | some t => decide (s.time.ticks - t < s.reg kHoistRearm)
  | none => false

/-- HOIST_IN (R349, R352): an edge within HOIST_REARM is ignored and counted. -/
def execHoistIn (s : State) : Result :=
  .next (if !s.power.inputOn || s.power.dark then s
  else if s.rearming then { s with obs := { s.obs with ignored := s.obs.ignored + 1 } } else s.hoist 1 0)

/-- What the write that `execHoistRelease` names does, once it is accepted. -/
def actHoistRelease (_ : Nat) (s : State) : State × Ans :=
  ({ s with obs := { s.obs with held := false, frozen := false } }, {})

/-- HOIST_RELEASE (R350, R356): HELD clears and the trace buffers resume. -/
def execHoistRelease (f : Frame) (v : Nat) (s : State) : Result :=
  .next (s.write f kHoistRelease 1 v actHoistRelease)

/-! ### The crier (R354, R355) -/

/-- The record a copy carries; a LOST record takes its time as it is sent (R354, Table 17.7). -/
def State.copyRecord (s : State) (c : CrierCopy) : CrierRec where
  seq := c.seq
  code := c.code
  hostCopy := true
  unit := c.unit
  time := if c.lost then s.stamp 11 else c.time
  detail := if c.lost then BitVec.ofNat 256 (c.count % 2 ^ 32 + c.newest % 2 ^ 64 * 2 ^ 64) else c.detail

/-- The CRIER_NOTIFY of a copy (03 Table 3.3). -/
def State.notifyReq (s : State) (stall tag : Nat) (c : CrierCopy) : BoardReq where
  opcode := 0x30
  host := (s.stall stall).host
  tag := tag
  tenant := 0
  epoch := (s.stall stall).epoch
  len := 1
  mod := 0
  addr := 0
  data := [BitVec.ofNat 512 (s.copyRecord c).word]

/-- CRIER_NOTIFY_SEND (R354): the copy at the head of an ATTACHED stall's queue, when one of its links takes it. -/
def execCrierNotifySend (stall : Nat) (s : State) : Result :=
  .next (match (s.stall stall).phase, (s.stall stall).crierQ with
    | .attached, c :: rest =>
      match s.takeTag.spray stall 0 (.crier s.nextTag) (.req (s.notifyReq stall s.nextTag c)) with
      | (s1, true) =>
        let s2 := s1.updStall stall fun x => { x with crierQ := rest }
        { s2 with obs := { s2.obs with copies := s2.obs.copies ++ [{ tag := s.nextTag, stall := stall, copy := c }] } }
      | (_, false) => s
    | _, _ => s)

/-- A copy sent is over; one not answered OK counts in board row 6. -/
def State.endCopy (s : State) (tag : Nat) (ok : Bool) : State :=
  let s1 := { s with obs := { s.obs with copies := s.obs.copies.filter fun c => c.tag != tag } }
  if ok then s1 else s1.count .board 0 6

/-- CRIER_NOTIFY_RESPONSE (R354): the answer of the copy's host. -/
def execCrierNotifyResponse (h : HostResp) (s : State) : Result :=
  .next (match s.obs.copies.find? fun c => c.tag == h.tag.toNat with
    | none => s
    | some c =>
      if (s.link h.link).isUp && (s.stall c.stall).host == h.host then s.endCopy c.tag (h.status == 0) else s)

/-- CRIER_NOTIFY_TIMEOUT (R354): a copy outstanding is dropped. -/
def execCrierNotifyTimeout (tag : Nat) (s : State) : Result :=
  .next (if s.obs.copies.any fun c => c.tag == tag then s.endCopy tag false else s)

/-- What the write that `execCrierAckedWrite` names does, once it is accepted. -/
def actCrierAckedWrite (v : Nat) (s : State) : State × Ans :=
  if s.obs.head < v then (s, refuse 3) else (s.setReg kCrierAcked v, {})

/-- CRIER_ACKED_WRITE (R355): a value above CRIER_HEAD is refused. -/
def execCrierAckedWrite (f : Frame) (v : Nat) (s : State) : Result :=
  .next (s.write f kCrierAcked 8 v actCrierAckedWrite)

/-! ### Control-core trace (R356, R357) -/

/-- Set TRACE_CTRL; TRACE_HEAD counts anew for a core whose trace is newly enabled. -/
def State.setTrace (s : State) (v : Nat) : State :=
  let fresh := (upTo 4).filter fun n => bitAt v n && !bitAt (s.reg kTraceCtrl) n
  let s1 := { s with obs := { s.obs with traceHead := fresh.foldl (fun t n => t.set 0 n 0) s.obs.traceHead } }
  s1.setReg kTraceCtrl (v &&& storeMask kTraceCtrl)

/-- What the write that `execTraceCtrlWrite` names does, once it is accepted. -/
def actTraceCtrlWrite (v : Nat) (s : State) : State × Ans :=
  if s.sec.conf then (s, refuse 4) else (s.setTrace v, {})

/-- TRACE_CTRL_WRITE (R357). -/
def execTraceCtrlWrite (f : Frame) (v : Nat) (s : State) : Result :=
  .next (s.write f kTraceCtrl 4 v actTraceCtrlWrite)

/-- TRACE_RECORD (R356): a taken branch, exception or interrupt of a traced core, while the cores run and the buffers are not
frozen. -/
def execTraceRecord (core : Nat) (target : BitVec 64) (kind : Nat) (s : State) : Result :=
  .next (if decide (core < 4 ∧ kind < 3) && (bitAt (s.reg kTraceCtrl) core && (s.repair.coresUp && !(s.obs.frozen || s.sec.conf))) then
    let h := s.obs.traceHead.get 0 core
    { s with obs := { s.obs with
        trace := s.obs.trace.set {} (core * 4096 + h % 4096) { target := target, kind := kind, ns := s.time.ao % 1000000000 }
        traceHead := s.obs.traceHead.set 0 core ((h + 1) % 2 ^ 32) } }
  else s)

end Sys2Proof.Machine
end

