-- ==== Sys2Proof/Machine/Power.lean ====
section
/-! DEFINITION. Power (18): the input, the rails and PMBus, B0 and B1, slice park and lane park. -/

namespace Sys2Proof.Machine

/-! ### Input and rails (R359 to R366) -/

/-- POWER_ON (R390): an unpowered board runs up to power-on reset, with everything that is not in flash clear. -/
def execPowerOn (s : State) : Result := .next (if s.power.inputOn then s else s.powerReset)

/-- POWER_OFF (R359): the board turns off; what is left is flash. -/
def execPowerOff (s : State) : Result :=
  .next (if s.power.inputOn then
    { s.powerReset with power := { inputOn := false, precharged := false, railsOn := 0 } }
  else s)

/-- POWER_FAIL_WARNING (R365): a POWER fault that disables nothing; the highest SEQ assigned goes to the reserved flash word. -/
def execPowerFailWarning (s : State) : Result :=
  .next (if s.power.inputOn && (!s.power.warning && !s.power.dark) then
    let s1 := ({ s with power := { s.power with warning := true } } : State).powerFault
    { s1 with sec := { s1.sec with flashSeqWord := if s1.sec.nextSeq = 0 then none else some (s1.sec.nextSeq - 1) } }
  else s)

/-- POWER_RESTORE (R365). -/
def execPowerRestore (s : State) : Result := .next { s with power := { s.power with warning := false } }

/-- RAIL_FAULT (R364): of rails 0 and 4–14. -/
def execRailFault (rail : Nat) (s : State) : Result :=
  .next (if decide (rail = 0 ∨ (4 ≤ rail ∧ rail ≤ 14)) && (s.power.railsOn.getLsbD rail && !s.power.dark) then s.stoppingFault 0x0B
    else s)

/-- PMBUS_POLL (R366, R364): telemetry of a rail; a fault newly reported is a POWER fault that disables nothing. -/
def execPmbusPoll (rail : Nat) (faulted : Bool) (mv da : Nat) (s : State) : Result :=
  .next (if decide (rail < 15) && (s.power.railsOn.getLsbD rail && s.repair.coresUp) then
    let was := s.power.faulted.contains rail
    let s1 := { s with power := { s.power with
      railMv := s.power.railMv.set 0 rail (mv % 2 ^ 14), railDa := s.power.railDa.set 0 rail (da % 2 ^ 16)
      faulted := if faulted then (if was then s.power.faulted else rail :: s.power.faulted) else s.power.faulted.filter (· ≠ rail) } }
    if faulted && !was then s1.powerFault else s1
  else s)

/-- EFUSE_TRIP (R364): the socket's channel fails with detail 1, no answer. -/
def execEfuseTrip (socket : Nat) (s : State) : Result :=
  .next (if socket < 32 ∧ s.power.railsOn.getLsbD 15 = true then
    ({ s with power := { s.power with feedsTripped := s.power.feedsTripped ||| BitVec.ofNat 32 (2 ^ socket) } } : State).channelFaultOn
      socket 1
  else s)

/-! ### Voltage requests and B0, B1 (R367 to R370) -/

/-- VOUT_ACK (R367, R369). -/
def execVoutAck (s : State) : Result :=
  .next (match s.power.step with
    | .lowerVolt => s.powerReached true
    | .raiseVolt => ({ s with power := { s.power with step := .rampUp } } : State).rampCore 16
    | .restoreVolt => s.powerReached true
    | _ => s)

/-- VCORE's regulator reports the fault (R364). -/
def State.vcoreFault (s : State) : State :=
  ({ s with power := { s.power with faulted := if s.power.faulted.contains 8 then s.power.faulted else 8 :: s.power.faulted } } :
    State).powerFault

/-- PMBUS_ACK_TIMEOUT (R367, R369): the request fails. After a failed lowering the board rewrites 0.75 V, and POWER_STATE reads B1. -/
def execPmbusAckTimeout (s : State) : Result :=
  .next (match s.power.step with
    | .lowerVolt =>
      let s1 := s.vcoreFault
      { s1 with power := { s1.power with step := .restoreVolt, b1 := true } }
    | .raiseVolt => s.vcoreFault.powerReached true
    | .restoreVolt => s.vcoreFault.powerReached true
    | _ => s)

/-- What the write that `execPowerTargetWrite` names does, once it is accepted. -/
def actPowerTargetWrite (v : Nat) (s : State) : State × Ans :=
  ((s.setReg kPowerTarget v).askPower (v == 1), {})

/-- POWER_TARGET_WRITE (R370). -/
def execPowerTargetWrite (f : Frame) (v : Nat) (s : State) : Result :=
  .next (s.write f kPowerTarget 1 v actPowerTargetWrite)

/-! ### Ramps (19 R378) -/

/-- The core divider has reached its target: the transition or the recovery goes on. -/
def State.coreRampDone (s : State) : State :=
  let s1 := { s with clock := { s.clock with d := s.clock.target } }
  match s.power.step with
  | .rampDown => { s1 with power := { s1.power with step := .lowerVolt } }
  | .rampUp => s1.powerReached false
  | _ => ({ s1 with clock := { s1.clock with refFailed := s1.clock.pll != .locked } } : State).heldPower

/-- A slice's pass ratio has reached its end: stopped, with a wake that came meanwhile following at once, or running. -/
def State.sliceRampDone (s : State) (n : Nat) : State :=
  match (s.slice n).park with
  | .parking =>
    let s1 := s.updSlice n fun x => { x with park := .parked, passRatio := 0 }
    if (s.slice n).wakeWanted then s1.wakeSlice n else s1
  | .waking => s.updSlice n fun x => { x with park := .running, passRatio := 16 }
  | _ => s

/-- CLOCK_RAMP_DONE (19 R378). -/
def execClockRampDone (unit : Nat) (s : State) : Result :=
  .next (if unit < 8 then s.sliceRampDone unit else if unit = 8 ∧ s.coreRamping = true then s.coreRampDone else s)

/-! ### Slice park (R371) -/

/-- A barrow of a slice is QUEUED or RUNNING, by a launch of its own or of its gang. -/
def State.barrowsBusy (s : State) (n : Nat) : Bool :=
  s.barrows.any fun b => s.runsIn b.1 n || (!b.2.queue.isEmpty && (b.1 / 512 == n || s.headOf (n * 512 + b.1 % 512) == b.1))

/-- A slice has nothing that keeps it from parking. -/
def State.sliceIdle (s : State) (n : Nat) : Bool :=
  (s.slice n).occupied == 0 && ((s.slice n).pipe.q3.isEmpty
    && (!s.barrowsBusy n && (!s.buntingIn n && (!s.gates.migrate.getLsbD n && !s.gates.scrub.getLsbD n))))

/-- SLICE_PARK_ENTRY (R371): the slice has been idle for SLICE_PARK_IDLE. -/
def execSliceParkEntry (slice : Nat) (s : State) : Result :=
  .next (if decide (slice < 8) && (bitAt (s.reg kSliceParkEnable) slice && (decide (s.reg kSliceParkIdle ≠ 0)
      && ((s.slice slice).park == .running && s.sliceIdle slice))) then
    (s.beginRamp slice).updSlice slice fun x => { x with park := .parking, wakeWanted := false }
  else s)

/-! ### Lane park (R372) -/

/-- What the write that `execLaneParkWrite` names does, once it is accepted. -/
def actLaneParkWrite (link : Nat) (v : Nat) (s : State) : State × Ans :=
  let l := s.link link
  let m := BitVec.ofNat 4 v
  let s1 := s.setReg (kLanePark link) v
  if v = 0xF then
    (if l.isUp then (s1.updLink link fun l => { l with parkWant := some m }).parkNext link else s1, {})
  else if s.halyardLinks.contains link || (!(l.isUp && bitAt l.caps.toNat 2)
      || (m == 0 || formMask (m &&& l.passed) l.x2 != m)) then (s, refuse 3)
  else ((s1.updLink link fun l => { l with parkWant := some m }).parkNext link, {})

/-- LANE_PARK_WRITE (R372): 0xF unparks; any other mask is refused unless it is a width of the link, whose effective capabilities
have LANE_ADD and which is no halyard link. A request during a lane change is held (R370). -/
def execLaneParkWrite (f : Frame) (link v : Nat) (s : State) : Result :=
  .next (s.write f (kLanePark link) 1 v (actLaneParkWrite link))

/-- LANE_UNPARK_CHECK_DONE (R372): the parked lanes rejoin by a planned change. -/
def execLaneUnparkCheckDone (link : Nat) (s : State) : Result :=
  .next (if (s.link link).unparking && s.canChange link then
    let l := s.link link
    startChange link (formMask (l.mask ||| l.parked) l.x2) false true (s.updLink link fun l => { l with unparking := false })
  else s)

end Sys2Proof.Machine
end

