-- ==== Sys2Proof/Machine/Repair.lean ====
section
/-! DEFINITION. Self-repair and faults (14): the loopback test of a dropped lane, slice and channel faults with their folds, the
RETIRE command, and the faults of the control cores and the host port. -/

namespace Sys2Proof.Machine

/-! ### Spare lanes (R292, R293) -/

/-- Spare lanes of a connector that a record of the fuse bank uses (Table 14.1). -/
def fusedSpare (connector spare : Nat) : Bool :=
  (upTo 256).any fun i =>
    let r := (Config.fuse i).toNat
    bits r 28 4 == 2 && (bits r 25 3 == connector && bits r 24 1 == spare)

/-- Spares of a connector still free: neither fused nor substituted. -/
def State.spares (s : State) (connector : Nat) : List Nat :=
  (upTo 2).filter fun k => !fusedSpare connector k && !(s.repair.laneSubs.any fun p => p.1 / 32 == connector && p.2 == k)

/-- Log a LANE fault (Table 14.4, Table 14.5). -/
def State.laneFault (s : State) (link action : Nat) : State :=
  let l := s.link link
  s.fault 8 0x01 link (l.beforeDrop.toNat * 16 + l.afterDrop.toNat) action

/-- A lane whose circuits failed the test takes a spare, which stays in flash. -/
def State.takeSpare (s : State) (link lane k : Nat) : State :=
  let s1 := ({ s with repair := { s.repair with laneSubs := s.repair.laneSubs ++ [(link * 4 + lane, k)] } } : State).updLink link fun l => {
    l with barred := l.barred &&& ~~~(1#4 <<< lane) }
  let s2 := s1.laneFault link actSpared
  let s3 := s2.crier 8 0x1F (link / 8) (link + lane * 2 ^ 8 + k * 2 ^ 16 + (s1.spares (link / 8)).length * 2 ^ 24)
  s3.ledger 0x07 0 Actor.board 0 s3.lastFaultWords

/-- LANE_LOOPBACK_DONE (R293): of a lane under test. -/
def execLaneLoopbackDone (link lane : Nat) (pass : Bool) (s : State) : Result :=
  .next (if decide (lane < 4) && (s.link link).inTest.getLsbD lane then
    let s1 := s.updLink link fun l => { l with inTest := l.inTest &&& ~~~(1#4 <<< lane) }
    if pass then s1.laneFault link actContained
    else match s1.spares (link / 8) with
      | k :: _ => s1.takeSpare link lane k
      | [] => s1.laneFault link actContained
  else s)

/-! ### Faults and folds -/

/-- SLICE_FAULT (R295, R298). -/
def execSliceFault (slice detail : Nat) (s : State) : Result := .next (if slice < 8 then s.sliceFaultOn slice detail else s)

/-- CHANNEL_FAULT (R296, R298). -/
def execChannelFault (channel detail : Nat) (s : State) : Result :=
  .next (if channel < 32 then s.channelFaultOn channel detail else s)

/-- PIPELINE_HANG (Table 14.4): a slice fault while the entry queue is not empty. -/
def execPipelineHang (slice : Nat) (s : State) : Result :=
  .next (if slice < 8 ∧ (s.slice slice).pipe.q3 ≠ [] then s.sliceFaultOn slice 4 else s)

/-- The fold cycle may come: every revoke of the retirement is complete (Table 14.2). -/
def State.foldDue (s : State) (channel : Bool) : Option Nat :=
  match s.repair.retiring with
  | some r => if r.channel == channel && (r.todo.isEmpty && !s.retireRevokes) then some r.unit else none
  | none => none

/-- SLICE_FOLD (R295, Table 14.2 steps 4 and 5). -/
def execSliceFold (s : State) : Result :=
  .next (match s.foldDue false with
    | some n => (s.foldSliceNow n).afterFold n
    | none => s)

/-- CHANNEL_FOLD (R296, R297). -/
def execChannelFold (s : State) : Result :=
  .next (match s.foldDue true with
    | some c => (s.foldChannelNow c).afterFold c
    | none => s)

/-! ### The RETIRE command (R304) -/

/-- RESULT of a RETIRE of kind 1 or 2 that is refused, 0 of one that is accepted. -/
def State.retireCheck (s : State) (channel : Bool) (u : Nat) : Nat :=
  if s.repair.retiring.isSome then 1
  else if s.repair.used then 3
  else if channel then
    (if 32 ≤ u ∨ (s.chan u).phase = .retired ∨ (s.chan u).phase = .empty ∨ s.repair.foldSlice = some (u / 4) then 3 else 0)
  else if 8 ≤ u ∨ s.repair.foldSlice = some u then 3 else 0

/-- A unit still in service is stopped, logged and told as in Table 14.2 step 1. -/
def State.stopForRetire (s : State) (channel : Bool) (u : Nat) : State :=
  if channel then
    if (s.chan u).stopped then s
    else
      let s1 := (s.updChan u fun x => { x with stopped := true, phase := .failed }).fault (u / 4) 0x06 u 0 actRetired
      s1.ledger 0x07 0 Actor.board 0 s1.lastFaultWords
  else if (s.slice u).stopped then s
  else
    let s1 := (s.stopSlice u).fault u 0x07 u 0 actRetired
    s1.ledger 0x07 0 Actor.board 0 s1.lastFaultWords

/-- Retire a unit by command. -/
def State.retireUnit (s : State) (channel : Bool) : State × Ans :=
  let u := s.reg kRetireUnit
  match s.retireCheck channel u with
  | 0 => (((s.stopForRetire channel u).beginRetire channel u).setReg kRetireResult 2, done 2)
  | r + 1 => (s.setReg kRetireResult (r + 1), done (r + 1))

/-- Kind 3: the record is cleared at the next reset (R300). -/
def State.retireClear (s : State) : State × Ans :=
  if s.retiredWord = 0 then (s.setReg kRetireResult 3, done 3)
  else (({ s with repair := { s.repair with clearAtReset := true } } : State).setReg kRetireResult 0, done 0)

/-- RETIRE_GO acts by RETIRE_KIND; a kind that is none of the three is refused with result 3 (DEDUCED, log 28). -/
def State.retireGo (s : State) : State × Ans :=
  match s.reg kRetireKind with
  | 1 => s.retireUnit false
  | 2 => s.retireUnit true
  | 3 => s.retireClear
  | _ => (s.setReg kRetireResult 3, done 3)

/-- What a write of RETIRE_GO does. -/
def actRetireGo (_ : Nat) (s : State) : State × Ans := s.retireGo

/-- RETIRE_SLICE (R304): RETIRE_GO with RETIRE_KIND 1. -/
def execRetireSlice (f : Frame) (v : Nat) (s : State) : Result :=
  .next (s.write f kRetireGo 1 v actRetireGo)

/-- RETIRE_CHANNEL (R304): RETIRE_GO with RETIRE_KIND 2. -/
def execRetireChannel (f : Frame) (v : Nat) (s : State) : Result :=
  .next (s.write f kRetireGo 1 v actRetireGo)

/-- RETIRE_CLEAR (R300): RETIRE_GO with RETIRE_KIND 3. -/
def execRetireClear (f : Frame) (v : Nat) (s : State) : Result :=
  .next (s.write f kRetireGo 1 v actRetireGo)

/-! ### Control cores and host port -/

/-- CONTROL_WATCHDOG (R302, 01 R13): the cores are reset; management, signing and attestation stop until they return. -/
def execControlWatchdog (s : State) : Result :=
  .next (({ s with repair := { s.repair with coresUp := false } } : State).fault 9 0x09 0 0 actContained)

/-- HOST_PORT_FAULT (R302): all host links go down and stay down, and the board stops serving; the faults of one cc are logged in
ascending class (R303) (DEDUCED, log 28). -/
def execHostPortFault (s : State) : Result :=
  .next (let s1 := { s with repair := { s.repair with hostPortDead := true } }
    let host := (upTo 48).filter fun n => !s1.halyardLinks.contains n
    let s2 := host.foldl (fun a n => a.updLink n fun l => { l with phase := .disabled }) (s1.linksDown host 1 0)
    (s2.fault 8 0x0D 0 0 (s1.actionUnfit actStopped)).unfit relSelfDiag)

end Sys2Proof.Machine
end

