-- ==== Sys2Proof/Machine/Security.lean ====
section
/-! DEFINITION. Security (15): the SPDM responder, key release, key slots, tenants, confidential mode and the ledger. -/

namespace Sys2Proof.Machine

/-! ### SPDM (R307 to R309)

The board acts on what a message says; its wire form, its transcripts and the order in which the protocol's own standard lets
requests follow one another are taken from that standard as far as they decide what the board does (PRESUMED, log 29). -/

/-- The responder of a connection serves (20 R395, R397; 01 R13). -/
def State.spdmServed (s : State) (m : SpdmMsg) : Bool :=
  s.repair.coresUp && (m.transport != .inband && match s.boot.stage with
    | .memory => true
    | .ready => true
    | .recovery => m.transport == .mctp
    | _ => false)

/-- The connection of a message. -/
def State.conn (s : State) (m : SpdmMsg) : SpdmConn := s.sec.spdm.get {} (connKey m.transport m.conn)

/-- Record a connection. -/
def State.setConn (s : State) (m : SpdmMsg) (c : SpdmConn) : State :=
  { s with sec := { s.sec with spdm := s.sec.spdm.set {} (connKey m.transport m.conn) c } }

/-- Send an answer. -/
def State.spdmSend (s : State) (m : SpdmMsg) (code : Nat) (error : Bool) (value : Nat) (ds : List Digest)
    (sig : Option (BitVec 768)) : State :=
  { s with sec := { s.sec with spdmOut := s.sec.spdmOut ++ [{
      conn := connKey m.transport m.conn, code := code, error := error, value := value, digests := ds, signature := sig }] } }

/-- A request the responder does not serve in its state is answered ERROR. -/
def State.spdmError (s : State) (m : SpdmMsg) (code : Nat) : State := s.spdmSend m code true 0 [] none

/-- A request served when `ok` holds of its connection. -/
def State.spdm (s : State) (m : SpdmMsg) (code : Nat) (ok : SpdmConn → Bool) (act : SpdmConn → State) : State :=
  if !s.spdmServed m then s
  else if ok (s.conn m) then act (s.conn m)
  else s.spdmError m code

/-- The signature of the attestation key over digests answered under a nonce; the next signature has the next number
(PRESUMED, log 29). -/
def State.spdmSign (s : State) (m : SpdmMsg) (ds : List Digest) : BitVec 768 :=
  Config.sign (sha384 (leBytes 32 m.nonce.toNat ++ ds.flatMap fun d => beBytes 48 d.toNat)) s.sec.sigs

/-- Count a signature. -/
def State.spdmSigned (s : State) : State := { s with sec := { s.sec with sigs := s.sec.sigs + 1 } }

/-- The end of a session: its principal and kept responses go with it. -/
def State.dropSession (s : State) (m : SpdmMsg) (c : SpdmConn) : State :=
  let s1 := s.setConn m { c with
    handshake := false, mutualAuth := false, established := false, root := 0, cert := 0, measured := 0, keyGen := 0, encap := 0
    heartbeats := 0 }
  { s1 with mgmt := { s1.mgmt with kept := s1.mgmt.kept.set [] (connKey m.transport m.conn) [] } }

/-- GET_VERSION: versions 1.2 and 1.3; the connection starts anew. -/
def execGetVersion (m : SpdmMsg) (s : State) : Result :=
  .next (s.spdm m 0x84 (fun _ => true) fun _ =>
    (s.dropSession m { gotVersion := true }).spdmSend m 0x84 false (0x12 + 0x13 * 2 ^ 8) [] none)

/-- GET_CAPABILITIES, at a version the board has. -/
def execGetCapabilities (m : SpdmMsg) (s : State) : Result :=
  .next (s.spdm m 0xE1 (fun c => c.gotVersion && (m.version == 0x12 || m.version == 0x13)) fun c =>
    (s.setConn m { c with gotCaps := true, version := m.version }).spdmSend m 0xE1 false m.version [] none)

/-- NEGOTIATE_ALGORITHMS: only those of R307. -/
def execNegotiateAlgorithms (m : SpdmMsg) (s : State) : Result :=
  .next (s.spdm m 0xE3 (fun c => c.gotCaps && (m.algOk && m.version == c.version)) fun c =>
    (s.setConn m { c with algs := true }).spdmSend m 0xE3 false 0 [] none)

/-- GET_DIGESTS: slot 0 alone. -/
def execGetDigests (m : SpdmMsg) (s : State) : Result :=
  .next (s.spdm m 0x81 (fun c => c.algs) fun c =>
    (s.setConn m { c with digests := true }).spdmSend m 0x81 false 1 [Config.chainDigest] none)

/-- GET_CERTIFICATE: slot 0 alone. -/
def execGetCertificate (m : SpdmMsg) (s : State) : Result :=
  .next (s.spdm m 0x82 (fun c => c.algs && m.slot == 0) fun _ => s.spdmSend m 0x82 false 0 [Config.chainDigest] none)

/-- CHALLENGE: signed by the attestation key (R308). -/
def execChallenge (m : SpdmMsg) (s : State) : Result :=
  .next (s.spdm m 0x83 (fun c => c.algs && m.slot == 0) fun c =>
    ((s.setConn m { c with challenged := true }).spdmSend m 0x83 false 0 [Config.chainDigest]
      (some (s.spdmSign m [Config.chainDigest]))).spdmSigned)

/-- The blocks that GET_MEASUREMENTS names: 0 asks for their number, 0xFF for all. -/
def blocksAsked (n : Nat) : List Nat :=
  if n = 0xFF then [1, 2, 3, 4, 5] else if 1 ≤ n ∧ n ≤ 5 then [n] else []

/-- GET_MEASUREMENTS (R309): the value is the number of blocks. A signed answer that covers every block, carried in a session,
is what KEY_LOAD asks for (R317). -/
def execGetMeasurements (m : SpdmMsg) (s : State) : Result :=
  .next (s.spdm m 0x60 (fun c => c.algs && decide (m.blocks ≤ 5 ∨ m.blocks = 0xFF)) fun c =>
    let ds := (blocksAsked m.blocks).map s.blockDigest
    let all := m.signed && (m.secured && (c.established && m.blocks == 0xFF))
    let s1 := s.setConn m { c with measured := if all then 31#5 else c.measured }
    if m.signed then (s1.spdmSend m 0x60 false 5 ds (some (s.spdmSign m ds))).spdmSigned
    else s1.spdmSend m 0x60 false 5 ds none)

/-- KEY_EXCHANGE: opens a handshake, with mutual authentication asked for. -/
def execKeyExchange (m : SpdmMsg) (s : State) : Result :=
  .next (s.spdm m 0x64 (fun c => c.algs && (!c.established && m.slot == 0)) fun c =>
    ((s.setConn m { c with handshake := true, mutualAuth := m.mutualAuth, encap := 0, root := 0, cert := 0, measured := 0 }).spdmSend
      m 0x64 false 0 [] (some (s.spdmSign m [Config.chainDigest]))).spdmSigned)

/-- ENCAPSULATED_REQUEST: the requester's chain reaches the board in the handshake. -/
def execEncapsulatedRequest (m : SpdmMsg) (s : State) : Result :=
  .next (s.spdm m 0x6A (fun c => c.handshake && c.mutualAuth) fun c =>
    (s.setConn m { c with encap := c.encap + 1, root := m.root, cert := m.cert }).spdmSend m 0x6A false 0 [] none)

/-- FINISH: completes a handshake whose requester has shown its certificate; without mutual authentication there is no
session. -/
def execFinish (m : SpdmMsg) (s : State) : Result :=
  .next (s.spdm m 0x65 (fun c => c.handshake && (c.mutualAuth && (m.mutualAuth && decide (0 < c.encap)))) fun c =>
    let s1 := s.setConn m { c with handshake := false, established := true, keyGen := 0, heartbeats := 0 }
    ({ s1 with mgmt := { s1.mgmt with kept := s1.mgmt.kept.set [] (connKey m.transport m.conn) [] } } : State).spdmSend m 0x65 false 0
      [] none)

/-- HEARTBEAT, in a session. -/
def execSpdmHeartbeat (m : SpdmMsg) (s : State) : Result :=
  .next (s.spdm m 0x68 (fun c => c.established && m.secured) fun c =>
    (s.setConn m { c with heartbeats := c.heartbeats + 1 }).spdmSend m 0x68 false 0 [] none)

/-- KEY_UPDATE, in a session: its keys move on. -/
def execKeyUpdate (m : SpdmMsg) (s : State) : Result :=
  .next (s.spdm m 0x69 (fun c => c.established && m.secured) fun c =>
    (s.setConn m { c with keyGen := c.keyGen + 1 }).spdmSend m 0x69 false 0 [] none)

/-- END_SESSION. -/
def execEndSession (m : SpdmMsg) (s : State) : Result :=
  .next (s.spdm m 0x6C (fun c => c.established && m.secured) fun c =>
    (s.dropSession m c).spdmSend m 0x6C false 0 [] none)

/-! ### KEY_LOAD (R317) -/

/-- The status of a KEY_LOAD: the checks in the order listed, the first that fails decides. -/
def State.keyLoadCheck (s : State) (m : SpdmMsg) (slot tenant : Nat) (epoch : BitVec 8) (key1 key2 : BitVec 256) : Status :=
  let c := s.conn m
  let k := s.key slot
  if !(c.established && (c.mutualAuth && m.secured)) then .accessDenied
  else if c.root ≠ (s.tenant tenant).root then .accessDenied
  else if c.measured ≠ 31 then .accessDenied
  else if (s.tenant tenant).phase ≠ .admitted then .accessDenied
  else if !((k.phase == .bound || k.phase == .zeroised) && k.tenant == tenant) then .accessDenied
  else if k.epoch ≠ epoch then .staleRole
  else if key1 = key2 then .accessDenied
  else .ok

/-- Who sent a KEY_LOAD. -/
def State.spdmActor (s : State) (m : SpdmMsg) : Actor where
  principal := (s.principalOf ({
    transport := m.transport, sess := connKey m.transport m.conn, link := 0, mtag := 0, epochValid := false, epoch := 0 } : Frame)).1
  transport := transportCode m.transport
  source := 0

/-- KEY_LOAD (R317, Table 15.6): the response body is OP, STATUS and KCV; the attempt is in the ledger either way. The key is not one drawn
on the board (Table 15.3) (DEDUCED, log 80). -/
def execKeyLoad (m : SpdmMsg) (slot tenant : Nat) (epoch : BitVec 8) (key1 key2 : BitVec 256) (s : State) : Result :=
  .next (if !s.spdmServed m then s
    else
      let st := s.keyLoadCheck m slot tenant epoch key1 key2
      let s1 := if st = .ok then
          ((s.sramWrite 0x06 8 slot).updKey slot fun k => {
            k with phase := .keyed, generated := false, key1 := key1, key2 := key2, kcv := kcvOf key1 }).tellKey slot
        else if st = .staleRole then s.count .key slot 2 else s
      let s2 := s1.keyLedger slot 6 st.code tenant (s.spdmActor m) (s.conn m).cert
      s2.spdmSend m 0x7E false (1 + st.code * 2 ^ 8 + (if st = .ok then (kcvOf key1).toNat * 2 ^ 16 else 0)) [] none)

/-! ### Key commands (R312, Table 15.4) -/

/-- RESULT of an ASSIGN: wrong state, slot named by the pitch table, tenant not ADMITTED, epoch advance (R312, R64, R89). -/
def State.assignCheck (s : State) (slot : Nat) : Nat :=
  let k := s.key slot
  if !(k.phase == .empty || k.phase == .zeroised) then 3
  else if s.slotNamed slot (fun _ => true) then 5
  else if (s.tenant (s.reg kKeyCmdTenant)).phase ≠ .admitted then 4
  else if !s.mayAdvance k.advances then 7
  else 0

/-- ASSIGN: TENANT set, EPOCH advances, key zero, IMPORT and GENERATED cleared. -/
def State.assignKey (s : State) (slot : Nat) : State :=
  s.changeKey slot 1 fun k => {
    phase := .bound, importOn := false, generated := false, epoch := k.epoch + 1, tenant := s.reg kKeyCmdTenant, refs := k.refs
    kcv := 0, key1 := 0, key2 := 0, advances := s.advanced k.advances }

/-- A mirrored pitch, or an entry of the partner's image on a paired board, names the slot (R315). -/
def State.slotMirrored (s : State) (slot : Nat) : Bool :=
  s.slotNamed slot (fun e => e.mirrored)
    || (s.pair.enable && s.pair.image.pitch.any fun q => q.2.phase != .free && q.2.slot == slot)

/-- GENERATE: the key is drawn from the die's random bit generator. -/
def State.generateKey (s : State) (slot : Nat) : State :=
  let r := Config.random s.sec.draws
  let k1 := r.extractLsb' 0 256
  let s1 := { s with sec := { s.sec with draws := s.sec.draws + 1 } }
  s1.changeKey slot 3 fun k =>
    { k with phase := .keyed, generated := true, key1 := k1, key2 := r.extractLsb' 256 256, kcv := kcvOf k1 }

/-- RESULT of a key command other than ASSIGN. -/
def State.keyCheck (s : State) (cmd slot : Nat) : Nat :=
  let p := (s.key slot).phase
  match cmd with
  | 2 => if p = .bound ∨ p = .keyed then 0 else 3
  | 3 => if p ≠ .bound then 3 else if s.slotMirrored slot then 5 else 0
  | 4 => if p = .bound ∨ p = .keyed then 0 else 3
  | 5 => if p = .bound ∨ p = .keyed then 0 else 3
  | _ => 3

/-- The effect of a key command accepted. -/
def State.keyAct (s : State) (cmd slot : Nat) : State :=
  match cmd with
  | 1 => s.assignKey slot
  | 2 => s.retireKey slot
  | 3 => s.generateKey slot
  | 4 => s.changeKey slot 4 fun k => { k with importOn := true }
  | 5 => s.changeKey slot 5 fun k => { k with importOn := false }
  | _ => s

/-- KEY_GO acts by KEY_CMD. Every command but ASSIGN carries the epoch expected (R312). -/
def State.keyGo (s : State) : State × Ans :=
  let slot := s.reg kKeyCmdSlot
  let cmd := s.reg kKeyCmd
  if cmd ≠ 1 ∧ (s.key slot).epoch.toNat ≠ s.reg kKeyCmdEpoch then
    (s.count .key slot 2, { status := .staleRole, reason := 7, result := 3 })
  else
    match if cmd = 1 then s.assignCheck slot else s.keyCheck cmd slot with
    | 0 => ((s.keyAct cmd slot).setReg kKeyResult 0, done 0)
    | r + 1 => (s.setReg kKeyResult (r + 1), done (r + 1))

/-- What a write of KEY_GO does. -/
def actKeyGo (_ : Nat) (s : State) : State × Ans := s.keyGo

/-- ASSIGN (R312): KEY_GO with KEY_CMD 1. -/
def execKeyAssign (f : Frame) (v : Nat) (s : State) : Result :=
  .next (s.write f kKeyGo 1 v actKeyGo)

/-- RETIRE (R316): KEY_GO with KEY_CMD 2. -/
def execKeyRetire (f : Frame) (v : Nat) (s : State) : Result :=
  .next (s.write f kKeyGo 1 v actKeyGo)

/-- GENERATE (R315): KEY_GO with KEY_CMD 3. -/
def execKeyGenerate (f : Frame) (v : Nat) (s : State) : Result :=
  .next (s.write f kKeyGo 1 v actKeyGo)

/-- IMPORT_ON (R313): KEY_GO with KEY_CMD 4. -/
def execImportOn (f : Frame) (v : Nat) (s : State) : Result :=
  .next (s.write f kKeyGo 1 v actKeyGo)

/-- IMPORT_OFF (R313): KEY_GO with KEY_CMD 5. -/
def execImportOff (f : Frame) (v : Nat) (s : State) : Result :=
  .next (s.write f kKeyGo 1 v actKeyGo)

/-- KEY_DRAIN_DONE (R316): REFCOUNT of a RETIRING slot is zero. -/
def execKeyDrainDone (slot : Nat) (s : State) : Result :=
  .next (if (s.key slot).phase = .retiring ∧ (s.key slot).refs = 0 then s.zeroiseKey slot else s)

/-- KEY_RETIRE_DEADLINE_EXPIRY (R316): uses still pending are aborted and the slot is zeroised. -/
def execKeyRetireDeadlineExpiry (slot : Nat) (s : State) : Result :=
  .next (if (s.key slot).phase = .retiring then (s.abortUses slot).zeroiseKey slot else s)

/-! ### Tenants (R319, R320) -/

/-- BODY of a TENANT ledger entry (Table 15.13). -/
def tenantBody (t event cleared : Nat) (root : Digest) : Nat :=
  t % 256 + event * 2 ^ 8 + cleared % 2 ^ 32 * 2 ^ 32 + digestWord root * 2 ^ 128

/-- ADMIT (R319): refused with result 5 unless the tenant is ABSENT. -/
def State.admitTenant (s : State) : State × Ans :=
  let t := s.reg kTenantCmdId
  if (s.tenant t).phase ≠ .absent then (s.setReg kTenantResult 5, done 5)
  else
    let s1 := s.updTenant t fun x => { x with phase := .admitted }
    ((s1.ledger 0x09 0 Actor.board t (tenantBody t 1 0 (s.tenant t).root)).setReg kTenantResult 0, done 0)

/-- The rest of the revoke cycle of a removal (R320 step 1): bound slots retire, barrows and trees of the tenant are aborted, a
move-out of the tenant stops (13 R290) (DEDUCED, log 42). -/
def State.leaveTenant (s : State) (t : Nat) : State :=
  let s1 := (s.slotsWhere fun k => (k.phase == .bound || k.phase == .keyed) && k.tenant == t).foldl (fun a n => a.startRetire n) s
  let s2 := (s1.barrows.filter fun p => p.2.tenant == t).foldl (fun a p => a.abortBarrow (a.headOf p.1)) s1
  let s3 := (s2.trees.filter fun p => p.2.tenant == t).foldl (fun a p => a.abortTree p.1) s2
  let s4 := s3.updTenant t fun x => { x with phase := .removing, clearing := false, cleared := 0, hseq := none }
  match s4.pair.moveOut with
  | some m => if (s4.granule m.first).tenant = t then s4.endMoveOut 3 else s4
  | none => s4

/-- RESULT of a REMOVE that is refused before its revoke: busy first (04 R89), then the tenant's state; tenant 0 cannot be
removed (PRESUMED, log 29). -/
def State.removeCheck (s : State) (t : Nat) : Nat :=
  if s.pitch.grantRun.isSome then 1
  else if !((upTo 16).any fun n => !(s.revoke n).valid) then 1
  else if t = 0 then 3
  else if (s.tenant t).phase ≠ .admitted then 5
  else 0

/-- REMOVE (R320). -/
def State.removeTenant (s : State) : State × Ans :=
  let t := s.reg kTenantCmdId
  match s.removeCheck t with
  | 0 => (((s.startRevoke 1 t .removal).1.leaveTenant t).setReg kTenantResult 2, done 2)
  | r + 1 => (s.setReg kTenantResult (r + 1), done (r + 1))

/-- TENANT_GO acts by TENANT_CMD; a command that is neither is refused with result 3 (PRESUMED, log 29). -/
def State.tenantGo (s : State) : State × Ans :=
  match s.reg kTenantCmd with
  | 1 => s.admitTenant
  | 2 => s.removeTenant
  | _ => (s.setReg kTenantResult 3, done 3)

/-- What a write of TENANT_GO does. -/
def actTenantGo (_ : Nat) (s : State) : State × Ans := s.tenantGo

/-- ADMIT (R319): TENANT_GO with TENANT_CMD 1. -/
def execTenantAdmit (f : Frame) (v : Nat) (s : State) : Result :=
  .next (s.write f kTenantGo 1 v actTenantGo)

/-- REMOVE (R320): TENANT_GO with TENANT_CMD 2. -/
def execTenantRemove (f : Frame) (v : Nat) (s : State) : Result :=
  .next (s.write f kTenantGo 1 v actTenantGo)

/-- HELD granules of a tenant. -/
def State.heldOf (s : State) (t : Nat) : List Nat := s.granulesWhere fun _ e => e.phase == .held && e.tenant == t

/-- The revoke and the drain of a removal are over. -/
def State.removeReady (s : State) (t : Nat) : Bool :=
  !(s.revokeEntries.any fun p => p.2.cause == .removal && p.2.value == t)
    && (s.slotsWhere fun k => k.phase == .retiring && k.tenant == t).isEmpty

/-- REMOVE_CLEAR_START (R320 step 3): CLEAR begins on every HELD granule of the tenant; those never written return to FREE at
once (04 R77). -/
def execRemoveClearStart (tenant : Nat) (s : State) : Result :=
  .next (if (s.tenant tenant).phase = .removing ∧ (s.tenant tenant).clearing = false ∧ s.removeReady tenant = true then
    let gs := s.heldOf tenant
    let w := s.clearAll (gs.filter fun g => !(s.granule g).written)
    w.1.updTenant tenant fun x => { x with clearing := true, cleared := gs.length, hseq := w.2 }
  else s)

/-- TENANT_REMOVE_DONE (R320 step 4): the granules are cleared and FREE; the removal ends once the partner has acknowledged their records
(13 R274). -/
def execTenantRemoveDone (tenant : Nat) (s : State) : Result :=
  .next (let x := s.tenant tenant
    if x.phase = .removing ∧ x.clearing = true then
      let w := s.clearAll (s.heldOf tenant)
      let h := laterHseq x.hseq w.2
      if !w.1.halCovered h then w.1.updTenant tenant fun y => { y with hseq := h }
      else
      let s1 := w.1
      let s2 := (s1.slotsWhere fun k => k.phase == .zeroised && k.tenant == tenant).foldl (fun a n =>
        ((a.updKey n fun k => { k with phase := .empty, tenant := 0 }).tellKey n).keyLedger n 9 0 tenant Actor.board 0) s1
      let s3 := (({ s2 with seeds := s2.seeds.set 0 tenant 0 } : State).rowChanged 8 tenant).markDirty 0x702000
      let s4 := (s3.updTenant tenant fun y => { y with phase := .absent, clearing := false, cleared := 0, hseq := none }).setReg kTenantResult 0
      (s4.crier 8 0x20 tenant (x.cleared % 2 ^ 32)).ledger 0x09 0 Actor.board tenant (tenantBody tenant 2 x.cleared x.root)
    else s)

/-- Key of TENANT_TABLE. -/
def kTenantTable : Nat := 0xA01000

/-- Write one row of TENANT_TABLE: BROKER_ROOT, while the tenant is ABSENT or is tenant 0 (Table 15.7). -/
def State.writeTenant (row v : Nat) (s : State) : State × Nat :=
  if row ≠ 0 ∧ (s.tenant row).phase ≠ .absent then (s, 3)
  else (s.updTenant row fun x => { x with root := digestOfWord (bits v 64 384) }, 0)

/-- TENANT_TABLE_WRITE (R319). -/
def execTenantTableWrite (f : Frame) (row : Nat) (rows : List Nat) (s : State) : Result :=
  .next (s.writeWindow f kTenantTable 56 row rows State.writeTenant)

/-! ### Confidential mode (R321) -/

/-- A change of CONF_SOURCE by the dictionary, with its ledger entry; entry to the mode clears the trace buffers and TRACE_CTRL
(17 R357), and ends a raw operation with result 3 and CHECKER_ENABLE (06 R132). -/
def State.enterConf (s : State) : State :=
  let src := s.sec.confSource ||| 4#3
  let s0 := ({ s with
    sec := { s.sec with conf := true, confSource := src }
    obs := { s.obs with trace := [], traceHead := [] }
    checker := { s.checker with running := none } } : State).setReg kTraceCtrl 0
  let s1 := (if s.checker.running.isSome then s0.setReg kCheckerResult 3 else s0).setReg kCheckerEnable 0
  if src = s.sec.confSource then s1 else s1.ledger 0x0A 0 Actor.board 0 src.toNat

/-- What the write that `execConfModeWrite` names does, once it is accepted. -/
def actConfModeWrite (v : Nat) (s : State) : State × Ans :=
  if s.anyTenant then (s, refuse 3)
  else if v = 1 then (s.enterConf.setReg kConfMode 1, {})
  else if s.sec.confSource &&& 3#3 ≠ 0 then (s, refuse 3)
  else (s.setReg kConfMode 0, {})

/-- CONF_MODE_WRITE (R321). -/
def execConfModeWrite (f : Frame) (v : Nat) (s : State) : Result :=
  .next (s.write f kConfMode 1 v actConfModeWrite)

/-! ### The ledger (R325) -/

/-- LEDGER_SIGN (R324, R325): the running cores sign the oldest entry of the buffer. -/
def execLedgerSign (s : State) : Result :=
  .next (if s.repair.coresUp && (s.boot.stage == .memory || s.boot.stage == .ready) then s.signOldest else s)

/-- What the write that `execLedgerAckedWrite` names does, once it is accepted. -/
def actLedgerAckedWrite (v : Nat) (s : State) : State × Ans :=
  if s.sec.head.getD 0 < v then (s, refuse 3) else (s.setReg kLedgerAcked v, {})

/-- LEDGER_ACKED_WRITE (R325): a value above LEDGER_HEAD is refused. -/
def execLedgerAckedWrite (f : Frame) (v : Nat) (s : State) : Result :=
  .next (s.write f kLedgerAcked 8 v actLedgerAckedWrite)

end Sys2Proof.Machine
end

