-- ==== Sys2Proof/Machine/StepTime.lean ====
section
/-! DEFINITION. Step and phase time (10): the PTP messages, holdover, held marks, mark loss, STEP_SET and the schedule table. -/

namespace Sys2Proof.Machine

/-! ### PTP (R211, R212) -/

/-- A message of the clock's domain, while PTP is the source. -/
def State.ptpTaken (s : State) (m : PtpMsg) : Bool := s.reg kTimeSource == 0 && m.domain == s.reg kTimeDomain

/-- A message of the selected master. -/
def State.ptpMaster (s : State) (m : PtpMsg) : Bool := s.ptpTaken m && s.time.master.any fun x => x.1 == m.master

/-- T1 and T2 are known: a Delay_Req goes out, stamped T3 (R211). -/
def State.ptpGotT1 (s : State) (t1 t2 : Nat) (corr : Int) : State :=
  { s with time := { s.time with
      sync := none, t1t2 := some (t1, t2, corr), delaySeq := (s.time.delaySeq + 1) % 65536
      delayReq := some ((s.time.delaySeq + 1) % 65536, s.time.ao) } }

/-- PTP_SYNC (R211): from a one-step master it brings T1 and T2, from a two-step master T2. -/
def execPtpSync (m : PtpMsg) (s : State) : Result :=
  .next (if s.ptpMaster m then
    if m.twoStep then { s with time := { s.time with sync := some (m.seq, m.arrival, m.correction) } }
    else s.ptpGotT1 m.origin m.arrival m.correction
  else s)

/-- PTP_FOLLOW_UP (R211): the T1 of the Sync with its sequence number. -/
def execPtpFollowUp (m : PtpMsg) (s : State) : Result :=
  .next (if s.ptpMaster m then
    match s.time.sync with
    | some (seq, t2, corr) => if seq = m.seq then s.ptpGotT1 m.origin t2 (corr + m.correction) else s
    | none => s
  else s)

/-- The source's time less the board's, in ps, from the four stamps and the corrections of both ways. -/
def ptpOffset (t1 t2 : Nat) (c1 : Int) (t3 t4 : Nat) (c2 : Int) : Int :=
  (((t1 : Int) + c1 - t2) + ((t4 : Int) - c2 - t3)) * 500

/-- PTP_DELAY_RESP (R211, R212): T4 of the Delay_Req with its sequence number completes a measurement. -/
def execPtpDelayResp (m : PtpMsg) (s : State) : Result :=
  .next (if s.ptpMaster m then
    match s.time.t1t2, s.time.delayReq with
    | some (t1, t2, c1), some (seq, t3) =>
      if seq = m.seq then
        { s with time := { s.time with delayReq := none, t1t2 := none } }.measure
          (ptpOffset t1 t2 c1 t3 m.origin m.correction)
      else s
    | _, _ => s
  else s)

/-- One list of numbers stands before another of its length. -/
def before : List Nat → List Nat → Bool
  | a :: r, b :: q => decide (a < b) || (a == b && before r q)
  | _, _ => false

/-- The data set comparison of IEEE 1588-2019 (R211) (PRESUMED, log 71): of two grandmasters the one that comes first by priority1,
class, accuracy, variance, priority2 and identity; of two ways to one grandmaster the one with fewer steps, then the lower sender. -/
def ptpBetter (a : PtpDataset) (ida : Nat) (b : PtpDataset) (idb : Nat) : Bool :=
  if a.gm = b.gm then before [a.steps, ida] [b.steps, idb]
  else before [a.priority1, a.cls, a.accuracy, a.variance, a.priority2, a.gm] [b.priority1, b.cls, b.accuracy, b.variance, b.priority2, b.gm]

/-- The announced master replaces the selected one: it is better, or it is the same one. -/
def betterMaster (m : PtpMsg) (cur : Option (Nat × PtpDataset)) : Bool :=
  match cur with
  | none => true
  | some (id, d) => id == m.master || ptpBetter m.dataset m.master d id

/-- PTP_ANNOUNCE (R211): the best master of the domain is selected; a new one starts a new exchange. -/
def execPtpAnnounce (m : PtpMsg) (s : State) : Result :=
  .next (if s.ptpTaken m && betterMaster m s.time.master then
    let same := s.time.master.any fun x => x.1 == m.master
    { s with time := { s.time with
        master := some (m.master, m.dataset)
        sync := if same then s.time.sync else none
        t1t2 := if same then s.time.t1t2 else none
        delayReq := if same then s.time.delayReq else none } }
  else s)

/-- TIME_HOLDOVER (R212): no valid measurement for 4 intervals; FREE lasts until the first. The silent PTP master is dropped, and the
next Announce chooses one (DESIGN CHOICE, log 71). -/
def execTimeHoldover (s : State) : Result :=
  .next (if s.time.phase = .acquiring ∨ s.time.phase = .locked then
    { s with time := { s.time with
        phase := .holdover, goodRun := 0, badRun := 0
        master := if s.reg kTimeSource = 0 then none else s.time.master } }
  else s)

/-! ### Marks (R216 to R219) -/

/-- MARK_APPLY_AT (R216): the first held MARK is applied if it stands above the current value, else discarded and counted. -/
def execMarkApplyAt (s : State) : Result :=
  .next (match s.time.heldMarks with
  | [] => s
  | h :: r =>
    let s1 := { s with
      time := { s.time with heldMarks := r }
      gates := { s.gates with closing := none } }
    if s.markValue < h.value then s1.applyMark h.value else s1.count .board 0 2)

/-- GUARD_BAND_PREVIEW (12 R256): the classes and migration gates that the first held MARK will close, with any GATE_LIST action it will fire. -/
def execGuardBandPreview (s : State) : Result :=
  .next (match s.time.heldMarks with
  | [] => s
  | h :: _ =>
    if s.markValue < h.value then
      let after := (s.applyMark h.value).gates
      { s with gates := { s.gates with
          closing := some (s.gates.tcOpen &&& ~~~after.tcOpen, h.applyAt), closingMig := s.gates.migrate &&& ~~~after.migrate } }
    else s)

/-- MARK_LOSS (R219): mark fall-back begins; the cyclic list takes every gate. A MARK applied at the same time prevents it (12
R258). -/
def execMarkLoss (s : State) : Result :=
  .next (if s.time.fallback || (s.boot.stage != .ready || s.time.lastMark == some s.time.ticks) then s
  else
    let s1 := { s with
      time := { s.time with fallback := true }
      gates := { s.gates with schedMigrate := 0, schedScrub := 0 } }
    let s2 := s1.applyFallback
    s2.crier 11 0x16 0 (s.time.step % 2 ^ 48 + s.time.mphase * 2 ^ 48) [s2.reg kMarkSource])

/-- What the write that `execStepSet` names does, once it is accepted. -/
def actStepSet (v : Nat) (s : State) : State × Ans :=
  ({ s.setReg kStepSet v with
      time := { s.time with step := v / 65536 % 2 ^ 48, mphase := v % 65536, heldMarks := [] }
      gates := { s.gates with closing := none } }, {})

/-- STEP_SET (R218): STEP and PHASE take the value, held MARKs are discarded, nothing fires. -/
def execStepSet (f : Frame) (v : Nat) (s : State) : Result :=
  .next (s.write f kStepSet 8 v actStepSet)

/-! ### The schedule table (R220) -/

/-- Key of SCHEDULE_TABLE. -/
def kScheduleTable : Nat := 0x802000

/-- Write one row: a reserved ACTION, or a VALID once-only point that has passed, is refused; the row acts from the next mark
cycle. -/
def State.writeSchedule (row v : Nat) (s : State) : State × Nat :=
  let e := schedOfWord v
  if 8 < e.action then (s, 3)
  else if e.valid = true ∧ (e.rep = 0 ∧ e.step * 65536 + e.phase ≤ s.markValue) then (s, 3)
  else ({ s with time := { s.time with schedStaged := s.time.schedStaged.set {} row e } }.rowChanged 3 row, 0)

/-- SCHEDULE_TABLE_WRITE (R220). -/
def execScheduleTableWrite (f : Frame) (row : Nat) (rows : List Nat) (s : State) : Result :=
  .next (s.writeWindow f kScheduleTable 16 row rows fun r v s => State.writeSchedule r v s)

end Sys2Proof.Machine
end

