-- ==== Sys2Proof/Machine/Entries.lean ====
section
/-! DEFINITION. What a write of any entry does once the checks of 16 have passed: by the entry's own chapter, or the value is
stored after the checks that its Meaning states. -/

namespace Sys2Proof.Machine

/-! ### Single values -/

/-- What a write does to a state. -/
abbrev Act : Type := Nat → State → State × Ans

/-- Entries whose chapter gives a write an effect, by key. -/
def entryActs : List (Nat × Act) := [
  (kLinkEnable, actLinkEnable), (kAttachGo, actAttach), (kDetach, actDetach), (kFence, actFence),
  (kBoardNumber, actBoardNumberWrite), (kGrantGo, actGrant), (kRevokeGo, actRevoke), (kClearGo, actClear),
  (kOrphanReleaseGo, actOrphanRelease), (kCheckerEnable, actCheckerEnableWrite), (kBarrowAbort, actBarrowAbort),
  (kBuntGo, actBuntGo), (kBuntAbort, actBuntAbort), (kStepSet, actStepSet), (kActiveGateList, actActiveGateListWrite),
  (kFbCommit, actFbCommit), (kPartnerFence, actPartnerFence), (kPartnerDetach, actPartnerDetach),
  (kMoveLinks, actMoveLinksWrite), (kConfMode, actConfModeWrite), (kTenantGo, actTenantGo), (kKeyGo, actKeyGo),
  (kLedgerAcked, actLedgerAckedWrite), (kTallyClear, actTallyClear), (kHoistNow, actHoistNow),
  (kHoistRelease, actHoistRelease), (kCrierAcked, actCrierAckedWrite), (kTraceCtrl, actTraceCtrlWrite),
  (kPowerTarget, actPowerTargetWrite), (kRefSelect, actRefSelectWrite), (kFreqGo, actFreqGo), (kRetireGo, actRetireGo),
  (kFwGo, actFwGo)]

/-- Commands whose value names what to do. -/
def actByValue (key v : Nat) : Option Act :=
  if key = kPairCommand then
    some (if v = 1 then actPairCommandRelinquish else if v = 2 then actPairCommandTakeover else actPairCommandRejoin)
  else if key = kMoveInGo then some (if v = 1 then actMoveInOpen else actMoveInCancel)
  else if key = kMoveOutGo then some (if v = 1 then actMoveOutStart else actMoveOutStop)
  else if key = kCheckerOp then some (if v = 1 then actCheckerRawWrite else actCheckerRawRead)
  else if kLinkVersionsAllowed 0 ≤ key ∧ key < kLinkVersionsAllowed 48 then
    some (actVersionsAllowed (key - kLinkVersionsAllowed 0))
  else if kLanePark 0 ≤ key ∧ key < kLanePark 48 then some (actLaneParkWrite (key - kLanePark 0))
  else none

/-- R62: a write of one of the three would leave REORDER_TIMEOUT (µs) below 2 × ACK_TIMEOUT (ns) × REPLAY_LIMIT. -/
def State.reorderShort (s : State) (key v : Nat) : Bool :=
  let val := fun k => if key = k then v else s.reg k
  decide (key = kReorderTimeout ∨ key = kAckTimeout ∨ key = kReplayLimit)
    && decide (1000 * val kReorderTimeout < 2 * val kAckTimeout * val kReplayLimit)

/-- A rule of the entry's chapter refuses the value: R62, or W beyond 7G/16 (13 R267). -/
def State.ruleBad (s : State) (key v : Nat) : Bool :=
  s.reorderShort key v || (key == kMirrorGranules && decide (s.pitch.gran ≠ 0 ∧ 7 * s.pitch.gran / 8 < 2 * v))

/-- The stated range of a value that the entry tables put in words: HINT of GRANT_FLAGS (04 Table 4.8), a partner or source
that is not the board itself (13 Table 13.7), and the alignment of CHECKER_ADDR (06 Table 6.4). -/
def State.valueBad (s : State) (key v : Nat) : Bool :=
  if key = kGrantFlags then decide (5 ≤ bits v 2 3)
  else if key = kPartnerBoard ∨ key = kMoveInSource then decide (v = s.board)
  else if key = kCheckerAddr then
    !(v % 64 == 0 || (decide (checkerSramBase ≤ v) && decide (v < checkerSramBase + 256)))
  else false

/-- A write of a value by its entry's meaning. -/
def actEntry (key v : Nat) (s : State) : State × Ans :=
  match actByValue key v with
  | some a => a v s
  | none =>
    match entryActs.find? fun p => p.1 == key with
    | some p => p.2 v s
    | none =>
      if s.valueBad key v then (s, refuse 2) else if s.ruleBad key v then (s, refuse 3) else storeEntry key v s

/-! ### Windows -/

/-- STANDING_PARAMS: a barrow's standing parameter block as eight words (08 R160). -/
def State.writeStanding (row v : Nat) (s : State) : State × Nat :=
  (s.updBarrow row fun b => { b with standing := (upTo 8).map fun i => bits v (64 * i) 64 }, 0)

/-- TENANT_SEED (09 R206). -/
def State.writeSeed (row v : Nat) (s : State) : State × Nat :=
  (({ s with seeds := s.seeds.set 0 row (BitVec.ofNat 64 v) } : State).rowChanged 8 row, 0)

/-- Key of STANDING_PARAMS. -/
def kStandingParams : Nat := 0x701200

/-- Key of FB_GATE_LIST. -/
def kFbGateList : Nat := 0x803300

/-- Key of TENANT_SEED. -/
def kTenantSeed : Nat := 0x702000

/-- Key of CHECKER_DATA. -/
def kCheckerData : Nat := 0x602602

/-- Key of CHECKER_CHECK. -/
def kCheckerCheck : Nat := 0x602603

/-- A row of CHECKER_DATA. -/
def State.writeCheckerData (_ v : Nat) (s : State) : State × Nat :=
  ({ s with checker := { s.checker with data := BitVec.ofNat 512 v } }, 0)

/-- A row of CHECKER_CHECK. -/
def State.writeCheckerCheck (_ v : Nat) (s : State) : State × Nat :=
  ({ s with checker := { s.checker with check := BitVec.ofNat 320 v } }, 0)

/-- What a write of one row does. -/
abbrev RowAct : Type := Nat → Nat → State → State × Nat

/-- Windows that may be written. -/
def windowActs : List (Nat × RowAct) := [
  (kPrincipalTable, State.writePrincipal), (kFwImage, State.writeFwRow), (kStallTable, State.writeStallRow),
  (kShaperTable, State.writeShaper), (kAclTable, State.writeAcl), (kCheckerData, State.writeCheckerData),
  (kCheckerCheck, State.writeCheckerCheck), (kBarrowTable, State.writeBarrow), (kStandingParams, State.writeStanding),
  (kTenantSeed, State.writeSeed), (kBuntingTable, State.writeTree), (kBuntingMembers, State.writeMembers),
  (kScheduleTable, State.writeSchedule), (kGateLists, State.writeGate), (kFbGateList, State.writeFbRow),
  (kTenantTable, State.writeTenant)]

/-- What a write of a row of a window does: PROGRAM_STORE by slice, ERROR_TABLE by table, any other by its key. No other window
takes a write. -/
def writeWindowRow (key row v : Nat) (s : State) : State × Nat :=
  if 0x701000 ≤ key ∧ key < 0x701008 then State.writeProgram (key - 0x701000) row v s
  else if 0x602400 ≤ key ∧ key < 0x602409 then State.writeErrorRow (key - 0x602400) row v s
  else match windowActs.find? fun p => p.1 == key with
    | some p => p.2 row v s
    | none => (s, 3)

end Sys2Proof.Machine
end

