-- ==== Sys2Proof/Machine/Profiles.lean ====
section
/-! DEFINITION. Profiles and board records in flash (16 R339 to R342): what a commit stores, and what a load does. -/

namespace Sys2Proof.Machine

/-! ### Copies (R339) -/

/-- A copy that a load may use. -/
def ProfileCopy.good (c : ProfileCopy) : Bool := c.present && c.crcOk

/-- Copy A is the newer good one. -/
def Profile.aNewest (p : Profile) : Bool := p.a.good && (!p.b.good || decide (p.b.seq ≤ p.a.seq))

/-- The newer copy whose CRC passes. -/
def Profile.newest (p : Profile) : Option ProfileCopy :=
  if p.aNewest then some p.a else if p.b.good then some p.b else none

/-- Write the older copy. -/
def Profile.put (p : Profile) (d : ProfileData) : Profile :=
  let c : ProfileCopy := {
    present := true, seq := match p.newest with | some c => c.seq + 1 | none => 1, crcOk := true, data := d }
  if p.aNewest then { p with b := c, crcFailed := false } else { p with a := c, crcFailed := false }

/-- Profile `n`. -/
def State.profile (s : State) (n : Nat) : Profile := s.mgmt.profiles.get {} n

/-- Change profile `n`. -/
def State.updProfile (s : State) (n : Nat) (f : Profile → Profile) : State :=
  { s with mgmt := { s.mgmt with profiles := s.mgmt.profiles.upd {} n f } }

/-- What a profile holds: no good copy, every default. -/
def Profile.content (p : Profile) : ProfileData := match p.newest with | some c => c.data | none => {}

/-- PROFILE_STATUS (16 Table 16.7). -/
def Profile.status (p : Profile) : Nat :=
  (if p.newest.isSome then 1 else if p.crcFailed || (p.a.present || p.b.present) then 2 else 0) * 2 ^ 30 + p.defaulted % 2 ^ 16

/-! ### Storing -/

/-- Persistence of an entry: 0 none, 1 profile entry, 2 board record. -/
def persistOf (key : Nat) : Nat :=
  match entryAt (key / 256) (key % 256) with
  | some e => e.persist
  | none => 0

/-- The RWP fields of a barrow's row (08 Table 8.1). -/
def Barrow.rowWord (b : Barrow) : Nat :=
  b.tenant % 256 * 2 ^ 10 + b.acl % 2 ^ 14 * 2 ^ 18 + b.owner % 4096 * 2 ^ 32 + b.base % 1024 * 2 ^ 44 + b.last % 1024 * 2 ^ 54
    + b2n b.gang * 2 ^ 64 + b2n b.trigRegion * 2 ^ 65 + b2n b.trigSchedule * 2 ^ 66 + b2n b.notify * 2 ^ 67 + b2n b.enable * 2 ^ 68
    + b.cqOrder % 16 * 2 ^ 80 + b.cqBase % 2 ^ 46 * 2 ^ 128

/-- The RWP fields of a tree's row (11 Table 11.1). -/
def Tree.rowWord (t : Tree) : Nat := ({ t with opSeq := 0, phase := .idle } : Tree).word

/-- The RWP fields of a shaper row (12 Table 12.1). -/
def Shaper.rowWord (r : Shaper) : Nat :=
  r.rateIn % 2 ^ 32 + r.rateOut % 2 ^ 32 * 2 ^ 32 + r.burstIn % 2 ^ 32 * 2 ^ 64 + r.burstOut % 2 ^ 32 * 2 ^ 96

/-- One column of a table, as a table of its own. -/
def column {α β : Type} [DecidableEq β] (t : Tbl α) (d : β) (f : α → β) : Tbl β :=
  t.foldl (fun (a : Tbl β) (p : Nat × α) => a.set d p.1 (f p.2)) []

/-- Put the present value of a profile entry into a profile's data. -/
def State.putEntry (s : State) (key : Nat) (d : ProfileData) : ProfileData :=
  if key = kAclTable then { d with acl := s.pitch.acl }
  else if 0x701000 ≤ key ∧ key < 0x701008 then
    { d with program := d.program.set [] (key - 0x701000) (s.slice (key - 0x701000)).program }
  else if key = kBarrowTable then { d with barrows := column s.barrows (Barrow.rowWord {}) Barrow.rowWord }
  else if key = kStandingParams then { d with standing := column s.barrows [] fun b => b.standing }
  else if key = kTenantSeed then { d with seeds := s.seeds }
  else if key = kBuntingTable then { d with trees := column s.trees (Tree.rowWord {}) Tree.rowWord }
  else if key = kBuntingMembers then { d with members := column s.trees 0 fun t => t.member }
  else if key = kScheduleTable then { d with schedule := s.time.schedStaged }
  else if key = kShaperTable then
    { d with shapers := column s.shapers {} fun r => { r with creditIn := 0, creditOut := 0, upTo := 0 } }
  else if key = kGateLists then { d with lists := s.gates.lists }
  else if key = kFbGateList then { d with fbStage := s.gates.fbStage }
  else { d with dict := d.dict.set (dfltOf key) key (s.reg key) }

/-- Put the present value of a board record into the record area. -/
def State.putRecord (s : State) (key : Nat) (r : BoardRecords) : BoardRecords :=
  if key = kTenantTable then { r with roots := column s.sec.tenants 0 fun t => t.root }
  else if key = kPrincipalTable then { r with principals := s.mgmt.principals }
  else { r with dict := r.dict.set (dfltOf key) key (s.reg key) }

/-- The active profile's content with every accepted write. -/
def State.activeData (s : State) : ProfileData :=
  (s.mgmt.dirty.filter fun k => persistOf k == 1).foldl (fun d k => s.putEntry k d) (s.profile s.mgmt.active).content

/-- Every accepted persistent write reaches flash (R339). -/
def State.commit (s : State) : State :=
  let s1 := if s.mgmt.dirty.any fun k => persistOf k == 1 then s.updProfile s.mgmt.active fun p => p.put s.activeData else s
  { s1 with mgmt := { s1.mgmt with
      records := (s.mgmt.dirty.filter fun k => persistOf k == 2).foldl (fun r k => s.putRecord k r) s1.mgmt.records
      dirty := [] } }

/-! ### Loading (R341) -/

/-- Write rows as the board does; a row that fails its check stays at its default and is counted. -/
def loadRows (wr : RowAct) (rows : List (Nat × Nat)) (p : State × Nat) : State × Nat :=
  rows.foldl (fun (a : State × Nat) (r : Nat × Nat) =>
    match wr r.1 r.2 a.1 with
    | (s', 0) => (s', a.2)
    | _ => (a.1, a.2 + 1)) p

/-- Keys of a first table that a second does not list, and then those of the second. -/
def keysOf {α β : Type} (a : Tbl α) (b : Tbl β) : List Nat :=
  ((a.map Prod.fst).filter fun k => !(b.any fun q => q.1 == k)) ++ b.map Prod.fst

/-- ACL_TABLE and SHAPER_TABLE. -/
def State.loadLists (s : State) (d : ProfileData) : State × Nat :=
  let acls := (keysOf s.pitch.acl d.acl).map fun k => (k, (d.acl.get {} k).word)
  let s1 := { s with shapers := [], pitch := { s.pitch with acl := [] } }
  loadRows State.writeAcl acls (loadRows State.writeShaper (d.shapers.map fun p => (p.1, p.2.rowWord)) (s1, 0))

/-- One row of BARROW_TABLE, with its standing parameters: a reassignment advances the epoch, but for the load at reset. -/
def State.loadBarrow (d : ProfileData) (atReset : Bool) (a : State × Nat) (b : Nat) : State × Nat :=
  let x := a.1.barrow b
  let y := x.withRow (d.barrows.get (Barrow.rowWord {}) b)
  let ok := decide (y.base ≤ y.last ∧ y.cqOrder ≤ 12)
  let z := if ok then y else x.withRow (Barrow.rowWord {})
  let moved := x.reassigned z && !atReset
  let s1 := if moved then a.1.freeBound b else a.1
  (s1.updBarrow b fun _ => { z with
    standing := d.standing.get [] b
    epoch := if moved then x.epoch + 1 else x.epoch
    advances := if moved then a.1.advanced x.advances else x.advances }, a.2 + b2n !ok)

/-- PROGRAM_STORE, BARROW_TABLE, STANDING_PARAMS and TENANT_SEED. -/
def State.loadPrograms (s : State) (d : ProfileData) (atReset : Bool) : State × Nat :=
  let s1 := (upTo 8).foldl (fun a n => a.updSlice n fun x => { x with program := d.program.get [] n }) s
  let listed : List Nat := keysOf d.standing d.barrows
  (((s.barrows.map Prod.fst).filter fun k => !listed.contains k) ++ listed).foldl
    (fun a b => State.loadBarrow d atReset a b) ({ s1 with seeds := d.seeds }, 0)

/-- BUNTING_TABLE and BUNTING_MEMBERS. -/
def State.loadTrees (s : State) (d : ProfileData) : State × Nat :=
  let s1 := s.mapTrees fun t => { t.withRow (Tree.rowWord {}) with member := 0 }
  loadRows State.writeMembers (d.members.map fun p => (p.1, p.2.toNat)) (loadRows State.writeTree d.trees (s1, 0))

/-- SCHEDULE_TABLE, where a once-only point that has passed clears VALID (R341), GATE_LISTS and the staging copy of
FB_GATE_LIST. -/
def State.loadTimes (s : State) (d : ProfileData) : State :=
  { s with
    time := { s.time with
      schedStaged := column d.schedule {} fun e =>
        if e.rep = 0 ∧ e.step * 65536 + e.phase ≤ s.markValue then { e with valid := false } else e }
    gates := { s.gates with lists := d.lists, fbStage := d.fbStage } }

/-- Single-valued profile entries that the state or the profile holds. -/
def State.loadKeys (s : State) (d : ProfileData) : List Nat :=
  ((keysOf s.dict d.dict).foldl (fun (t : Tbl Nat) k => if persistOf k = 1 then t.set 0 k 1 else t) []).map Prod.fst

/-- The value that a profile gives an entry, its default where the value is out of range. -/
def loadValue (d : ProfileData) (key : Nat) : Nat × Bool :=
  let v := d.dict.get (dfltOf key) key
  match entryAt (key / 256) (key % 256) with
  | some e => if v = dfltOf key ∨ e.inRange v = true then (v, true) else (dfltOf key, false)
  | none => (dfltOf key, true)

/-- An entry whose loaded value its chapter's effect waits for or does not refuse: BOARD_NUMBER (R341), and LANE_PARK of a link
that is not up (18 R372). -/
def State.loadStores (s : State) (key : Nat) : Bool :=
  key == kBoardNumber || (decide (kLanePark 0 ≤ key ∧ key < kLanePark 48) && !(s.link (key - kLanePark 0)).isUp)

/-- Apply one staged value as a write by the board; a value refused goes back to its default and is counted. -/
def State.loadEntry (old : State) (a : State × Nat) (key : Nat) : State × Nat :=
  let v := a.1.reg key
  if v = old.reg key ∨ a.1.loadStores key = true then a
  else match actEntry key v a.1 with
    | (s', { status := .ok, .. }) => (s', a.2)
    | _ =>
      match actEntry key (dfltOf key) (a.1.setReg key (dfltOf key)) with
      | (s', { status := .ok, .. }) => (s', a.2 + 1)
      | _ => (a.1.setReg key (dfltOf key), a.2 + 1)

/-- The single-valued entries: all staged, then the checks of their Meanings, then their effects in ascending order. -/
def State.loadScalars (s : State) (d : ProfileData) : State × Nat :=
  let keys := s.loadKeys d
  let s1 := keys.foldl (fun (a : State) k => a.setReg k (loadValue d k).1) s
  let low := (keys.filter fun k => !(loadValue d k).2).length
  let bad := keys.filter fun k => s1.valueBad k (s1.reg k) || s1.ruleBad k (s1.reg k)
  let s2 := bad.foldl (fun (a : State) k => a.setReg k (dfltOf k)) s1
  keys.foldl (fun a k => State.loadEntry s a k) (s2, low + bad.length)

/-- The load of a profile's content; answers how many values were left at their defaults (DEDUCED, log 32). The rows of 13 Table 13.4
that it changes are noted for the mirror epoch. -/
def State.loadProfile (s : State) (d : ProfileData) (atReset : Bool) : State × Nat :=
  let a := s.loadLists d
  let b := a.1.loadPrograms d atReset
  let c := b.1.loadTrees d
  let e := (c.1.loadTimes d).loadScalars d
  let rows := (s.epochKeys ++ e.1.epochKeys).filter fun k => s.epochRow k.1 k.2 != e.1.epochRow k.1 k.2
  (e.1.rowsChanged rows, a.2 + b.2 + c.2 + e.2)

/-- The board records as bring-up loads them (20 R397). -/
def State.loadRecords (s : State) : State :=
  let r := s.mgmt.records
  let s1 := r.dict.foldl (fun (a : State) (p : Nat × Nat) => a.setReg p.1 p.2) s
  let s2 := r.roots.foldl (fun (a : State) (p : Nat × Digest) => a.updTenant p.1 fun t => { t with root := p.2 }) s1
  { s2 with mgmt := { s2.mgmt with principals := r.principals } }

/-- The load at reset of the profile that the pins select (R342) (DEDUCED, log 32). -/
def State.loadAtReset (s : State) : State :=
  let n := s.mgmt.selPins
  let p := s.profile n
  let l := s.loadProfile p.content true
  let s1 := { l.1 with mgmt := { l.1.mgmt with active := n } }
  if p.newest.isSome then s1.updProfile n fun q => { q with defaulted := l.2, crcFailed := false }
  else
    let s2 := { s1.updProfile n fun q => { q with defaulted := 0, crcFailed := true } with
      boot := { s1.boot with profileDefaulted := true } }
    s2.crier 9 0x21 n (n + n * 2 ^ 8 + 2 ^ 17 + (s2.profile n).status * 2 ^ 32)

end Sys2Proof.Machine
end

