-- ==== Sys2Proof/Machine/BringupOps.lean ====
section
/-! DEFINITION. Shared operations of reset and bring-up (20). -/

namespace Sys2Proof.Machine

/-! ### Resets (R386, R389) -/

/-- RESET_BOARD: the reset begins in the cc after, or on a PAIRED board once it has relinquished. -/
def actResetBoard (_ : Nat) (s : State) : State × Ans :=
  if s.pair.phase = .paired then
    let s1 := s.relinquishCycle relCommand
    ({ s1 with pair := { s1.pair with relinq := s1.pair.relinq.map fun r => { r with thenReset := true } } }, {})
  else ({ s with boot := { s.boot with resetAsked := true } }, {})

/-- A reset that a write has asked for. -/
def State.resetIfAsked (s : State) : State := if s.boot.resetAsked then s.boardReset 2 else s

/-! ### The sequence (R391 to R402) -/

/-- The sequence may go on: powered, with no power-fail warning (R402). -/
def State.bootGoes (s : State) (step : BootStep) : Bool :=
  s.boot.step == step && (s.power.inputOn && (!s.power.dark && !s.power.warning))

/-- Move to a step. -/
def State.bootTo (s : State) (step : BootStep) : State := { s with boot := { s.boot with step := step } }

/-- The physical slice of a logical one: the nine in order without the spare (R11). -/
def physicalOf (n : Nat) : Nat := if n < fuseSpare then n else n + 1

/-- Apply the unit that RETIRED_UNITS records (14 R300): a slice or a channel out of service. -/
def State.applyRetired (s : State) : State :=
  let w := s.repair.retiredUnits
  if bitAt w 31 then
    let r := bits w 28 3
    { s.updSlice r fun x => { x with inService := false, stopped := true } with
      repair := { s.repair with foldSlice := some r, used := true } }
  else if bitAt w 27 then
    let c := bits w 22 5
    { s.updChan c fun x => { x with phase := .retired, stopped := true } with
      repair := { s.repair with foldChannel := some c, used := true } }
  else s

/-- RETIRED_UNITS at a reset: applied, or cleared by the command before, when a retired slice comes back with its role epoch
advanced (14 R300). -/
def State.retiredAtReset (s : State) : State :=
  let w := s.repair.retiredUnits
  let s1 :=
    if s.repair.clearAtReset then
      let s0 := { s with repair := { s.repair with clearAtReset := false, retiredUnits := 0 } }
      if bitAt w 31 then s0.updSlice (bits w 28 3) fun x => { x with epoch := x.epoch + 1 } else s0
    else s.applyRetired
  s1.setReg kRetiredUnits s1.retiredWord

/-- The references at reset release (R392): whether each passes is a free value (DESIGN CHOICE, log 4); the PLLs lock on REFCLK_A if it passes,
and otherwise on REFCLK_B. -/
def State.lockPlls (s : State) : State :=
  let a := s.freshValue.getLsbD 0
  let b := s.freshValue.getLsbD 1
  let s1 := s.takeFresh
  let s2 := { s1 with clock := { s1.clock with
    failed := BitVec.ofNat 2 (b2n (!a) + 2 * b2n (!b)), inUse := if a then 0 else 1 } }
  { s2 with boot := { s2.boot with noReference := !a && !b, step := if a || b then .fused else .released } }

/-- Reset release (R391, R392): the pins latched, the fuse bank applied. -/
def State.resetRelease (s : State) (sel : Nat) (confModeN : Bool) : State :=
  let src := confBits Config.confFuse (!confModeN) (s.mgmt.records.dict.get 0 kConfMode == 1)
  let s1 := { s with
    mgmt := { s.mgmt with selPins := sel % 4 }
    sec := { s.sec with confSource := src, conf := src != 0 }
    boot := { s.boot with stage := .rom, pairDriveReleased := false } }
  let s2 := (upTo 8).foldl (fun a n => a.updSlice n fun x => { x with physical := physicalOf n }) s1
  s2.retiredAtReset.lockPlls

/-- Self-test (R393): a failed slice is out of service; R301 treats it once memory is trained. -/
def State.selfTested (s : State) (failed : Nat) : State :=
  let bad := (upTo 8).filter fun n => bitAt failed n && (s.slice n).inService
  let s1 := bad.foldl (fun a n => a.updSlice n fun x => { x with inService := false, stopped := true }) s
  { s1 with boot := { s1.boot with
    step := .tested, selfTestFailed := BitVec.ofNat 8 (bad.foldl (fun a n => a + 2 ^ n) 0) } }

/-- Verify a slot (R394). -/
def State.verifySlot (s : State) (slot : Nat) (sig : Bool) : State :=
  s.updFwSlot slot fun x => { x with status := if s.fwAccepted slot sig then 1 else 2 }

/-- The boot ROM verifies the slot that FW_BOOT_SLOT names, then the other; with neither, stage RECOVERY (R394, R395). -/
def State.bootFirmware (s : State) (sig0 sig1 : Bool) : State :=
  let n := s.boot.bootSlot
  let sig := fun k => if k = 0 then sig0 else sig1
  let s1 := s.verifySlot n (sig n)
  if s.fwAccepted n (sig n) then
    { s1 with boot := { s1.boot with stage := .firmware, step := .booted, booted := n } }
  else
    let s2 := s1.verifySlot (1 - n) (sig (1 - n))
    if s.fwAccepted (1 - n) (sig (1 - n)) then
      { s2 with boot := { s2.boot with stage := .firmware, step := .booted, booted := 1 - n, fallbackSlot := true } }
    else { s2 with boot := { s2.boot with stage := .recovery, booted := n } }

/-- The SEQs between LEDGER_HEAD in flash and the reserved word are accounted for by a LOST entry of cause 2, which takes the SEQ
after the highest assigned (15 R325, 18 R365). -/
def State.ledgerGap (s : State) : State :=
  let first := match s.sec.head with
    | some h => h + 1
    | none => 0
  match s.sec.flashSeqWord with
  | some w =>
    if first ≤ w then
      ({ s with sec := { s.sec with nextSeq := w + 1 } } : State).ledgerPush 0x0C 0 Actor.board 0
        ((w + 1 - first) % 2 ^ 32 + 2 * 2 ^ 32 + first % 2 ^ 64 * 2 ^ 64)
    else s
  | none => s

/-- A ring that fails its checks is followed by a CHAIN_RESET entry; which SEQ passed last is a free value (DEDUCED, log 33). -/
def State.chainReset (s : State) : State :=
  let s1 := s.takeFresh.ledger 0x0D 0 Actor.board 0 (s.freshValue.toNat % 2 ^ 64)
  { s1 with boot := { s1.boot with chainReset := true } }

/-- The BOOT entry (15 Table 15.13). -/
def State.bootEntry (s : State) : State :=
  let release := (Config.fwRelease s.boot.booted (s.fwSlot s.boot.booted).version).toNat
  s.ledger 0x0B 0 Actor.board 0 (release + s.boot.cause % 256 * 2 ^ 32 + s.boot.booted % 256 * 2 ^ 40
    + s.boot.bootCount % 2 ^ 32 * 2 ^ 64 + digestWord (sha384 (s.blockBytes 4)) * 2 ^ 128)

/-- Pairing takes its entries' values at a reset (13 R266); REF_SELECT takes a reference that is good (R397). -/
def State.applyLoaded (s : State) : State :=
  let r := s.reg kRefSelect
  { s with
    pair := { s.pair with
      enable := decide (s.reg kPairEnable = 1), partnerNo := s.reg kPartnerBoard, window := s.reg kMirrorGranules }
    clock := { s.clock with inUse := if s.refBad r then s.clock.inUse else r } }

/-- Channels of slices in service that are not retired begin to train (05 Table 5.8). -/
def State.chansTrain (s : State) : State :=
  (upTo 32).foldl (fun a c => if (a.chan c).stopped || !(a.slice (c / 4)).inService then a
    else a.updChan c fun x => { x with phase := .training }) s

/-- Links that LINK_ENABLE names start training (R399). -/
def State.linksTrain (s : State) : State := (upTo 48).foldl (fun a n => enableLink (bitAt (a.reg kLinkEnable) n) n a) s

/-- Firmware bring-up (R397): records and profile, the ledger's entries, BOOT_COUNT, stage MEMORY. -/
def State.firmwareUp (s : State) (ledgerOk : Bool) : State :=
  let s1 := s.loadRecords.loadAtReset.applyLoaded.ledgerGap
  let s2 := if ledgerOk then s1 else s1.chainReset
  let s3 := ({ s2 with boot := { s2.boot with bootCount := (s2.boot.bootCount + 1) % 2 ^ 32 } } : State).bootEntry
  ({ s3 with boot := { s3.boot with stage := .memory, step := .loaded } } : State).chansTrain.linksTrain

/-- Hard repairs (R398 step 2): at most four rows in each channel and in each stack. -/
def State.hardRepaired (s : State) : State :=
  let s1 := (upTo 32).foldl (fun a c => if (a.chan c).flashRows = [] then a
    else a.updChan c fun x => { x with flashRows := x.flashRows.drop 4 }) s
  let s2 := (upTo 4).foldl (fun a k =>
    let lower := min 4 (a.chan (32 + 2 * k)).flashRows.length
    if (a.chan (32 + 2 * k)).flashRows = [] ∧ (a.chan (33 + 2 * k)).flashRows = [] then a
    else (a.updChan (32 + 2 * k) fun x => { x with flashRows := x.flashRows.drop 4 }).updChan (33 + 2 * k)
      fun x => { x with flashRows := x.flashRows.drop (4 - lower) }) s1
  { s2 with boot := { s2.boot with
    step := .repaired, repairsDeferred := (upTo 40).any fun c => (s2.chan c).flashRows != [] } }

/-! ### Training (05 R109, R111, R398 step 3) -/

/-- The widest run of passing steps of a sweep, the first of the widest: its first step and its length (R109). -/
def widestRun (sweep : BitVec 128) : Nat × Nat :=
  ((upTo 128).foldl (fun (p : (Nat × Nat) × (Nat × Nat)) i =>
    if sweep.getLsbD i then
      let run := if p.1.2 = 0 then (i, 1) else (p.1.1, p.1.2 + 1)
      (run, if p.2.2 < run.2 then run else p.2)
    else ((0, 0), p.2)) ((0, 0), (0, 0))).2

/-- The delay that a sweep sets: the centre of its widest run (R109). -/
def sweepDelay (sweep : BitVec 128) : Nat := (widestRun sweep).1 + (widestRun sweep).2 / 2

/-- The narrowest of the lanes' widest runs, 0 with no lane. -/
def narrowest (sweeps : List (BitVec 128)) : Nat := ((sweeps.map fun w => (widestRun w).2).min?).getD 0

/-- A lane fails training: its widest run in a sweep is shorter than MIN_EYE (R109). -/
def State.laneFails (s : State) (l : LaneSweep) : Bool :=
  decide ((widestRun l.read).2 < s.reg kMinEye ∨ (widestRun l.write).2 < s.reg kMinEye)

/-- A channel has trained: a qualified capacity (05 Table 5.5), and byte lanes of which none failed. -/
def State.trainOk (s : State) (r : TrainResult) : Bool :=
  (r.capacity == 128 || r.capacity == 256) && (!r.lanes.isEmpty && !(r.lanes.any s.laneFails))

/-- What training leaves of a channel: in service, failed, or empty. -/
def State.trainChan (s : State) (results : List TrainResult) (c : Nat) : State :=
  if (s.chan c).phase ≠ .training then s
  else match results.find? fun r => r.channel == c with
    | none => s.updChan c fun x => { x with phase := .empty }
    | some r =>
      s.updChan c fun x => { x with
        phase := if s.trainOk r then .inService else .failed
        capacity := if s.trainOk r then r.capacity else 0
        readEye := narrowest (r.lanes.map (·.read)), writeEye := narrowest (r.lanes.map (·.write))
        delays := r.lanes.map fun l => (sweepDelay l.read, sweepDelay l.write), part := r.part.take 64 }

/-- What training leaves of the half-stacks. -/
def State.trainStack (s : State) (hbm : List (List LaneSweep)) (n : Nat) : State :=
  let lanes := hbm.getD n []
  s.updChan (32 + n) fun x => { x with
    readEye := narrowest (lanes.map (·.read)), writeEye := narrowest (lanes.map (·.write))
    delays := lanes.map fun l => (sweepDelay l.read, sweepDelay l.write) }

/-- Slices of which an HBM lane failed, as bits. -/
def State.hbmFailed (s : State) (hbm : List (List LaneSweep)) : Nat :=
  (upTo 8).foldl (fun a n => if (hbm.getD n []).any s.laneFails then a + 2 ^ n else a) 0

/-- Channels in service. -/
def State.chansIn (s : State) : List Nat := (upTo 32).filter fun c => (s.chan c).phase == .inService

/-- The smallest trained capacity in GiB, 0 with no channel. -/
def State.smallest (s : State) : Nat := ((s.chansIn.map fun c => (s.chan c).capacity).min?).getD 0

/-- DIMM_MISMATCH (05 R111, 17 Table 17.5): of the lowest channel above the smallest capacity. -/
def State.tellMismatch (s : State) : State :=
  match s.chansIn.find? fun c => decide (s.smallest < (s.chan c).capacity) with
  | some c => s.crier (c / 4) 0x0D c (s.smallest % 65536 + (s.chan c).capacity % 65536 * 65536)
  | none => s

/-- G and the address order that the trained memory gives (05 R104, Table 5.5). -/
def State.setCapacity (s : State) : State :=
  { s with pitch := { s.pitch with gran := 2048 * s.smallest, order := s.reg kDramAddrOrder } }

/-- A slice failed its self-test or has a failed HBM lane, and is not retired. -/
def State.sliceFailed (s : State) (hbmFailed n : Nat) : Bool :=
  s.repair.foldSlice != some n && (s.boot.selfTestFailed.getLsbD n || (bitAt hbmFailed n && (s.slice n).inService))

/-- Bring-up retirements, in ascending order of slice, then channel (14 R298, R301) (DEDUCED, log 33). -/
def State.failUnits (s : State) (hbmFailed : Nat) : State :=
  (upTo 8).foldl (fun a n =>
    if a.sliceFailed hbmFailed n then a.bringUpSlice n (if a.boot.selfTestFailed.getLsbD n then 0 else 5)
    else (upTo 4).foldl (fun b i =>
      let c := 4 * n + i
      if (b.slice n).inService && !(b.chan c).stopped && ((b.chan c).phase == .empty || (b.chan c).phase == .failed) then b.bringUpChannel c 0 else b) a) s

/-- Training ends (R398 step 3) (DEDUCED, log 33). -/
def State.trained (s : State) (results : List TrainResult) (hbm : List (List LaneSweep)) : State :=
  let s1 := (((upTo 32).foldl (fun a c => a.trainChan results c) s).setCapacity.tellMismatch)
  let s2 := (upTo 8).foldl (fun a n => a.trainStack hbm n) s1
  (s2.failUnits (s2.hbmFailed hbm)).bootTo .trained

/-- The clear ends (R398 step 4, R400): every line stored is in the cleared form, and the board is READY, with the gates that its active
list sets (12 R253). -/
def State.memoryCleared (s : State) : State :=
  let s1 := (s.chans.map Prod.fst).foldl (fun (a : State) c => a.updChan c fun x => { x with mem := [] }) s
  { s1 with boot := { s1.boot with stage := .ready, step := .ready } }.applyGates

end Sys2Proof.Machine
end

