-- ==== Sys2Proof/Machine/Bringup.lean ====
section
/-! DEFINITION. Reset and bring-up (20): the reset sources and the steps of the reset sequence. A step that comes out of its turn,
or while a power-fail warning or the loss of power stops the sequence, changes nothing (R402). -/

namespace Sys2Proof.Machine

/-- RESET_N (R386): it also brings back rails that a fault has turned off (18 R364, 21 R412). -/
def execResetN (s : State) : Result := .next (if s.power.inputOn then s.boardReset 1 else s)

/-- RESET_BOARD (R386, R389). -/
def execResetBoard (f : Frame) (v : Nat) (s : State) : Result := .next (s.write f kResetBoard 1 v actResetBoard).resetIfAsked

/-- RESET_RELEASE (R391, R392). -/
def execResetRelease (profileSel : Nat) (confModeN : Bool) (s : State) : Result :=
  .next (if s.bootGoes .inReset then s.resetRelease profileSel confModeN else s)

/-- SELF_TEST_DONE (R393). -/
def execSelfTestDone (failed : Nat) (s : State) : Result := .next (if s.bootGoes .fused then s.selfTested failed else s)

/-- BOOT_SLOT_VERIFY_DONE (R394, R395). -/
def execBootSlotVerifyDone (sig0 sig1 : Bool) (s : State) : Result :=
  .next (if s.bootGoes .tested && s.boot.stage == .rom then s.bootFirmware sig0 sig1 else s)

/-- FIRMWARE_BRING_UP_DONE (R397). -/
def execFirmwareBringUpDone (ledgerOk : Bool) (s : State) : Result :=
  .next (if s.bootGoes .booted then s.firmwareUp ledgerOk else s)

/-- MEMORY_INIT_DONE (R398 step 1). -/
def execMemoryInitDone (s : State) : Result := .next (if s.bootGoes .loaded then s.bootTo .initialised else s)

/-- HARD_REPAIR_DONE (R398 step 2). -/
def execHardRepairDone (s : State) : Result := .next (if s.bootGoes .initialised then s.hardRepaired else s)

/-- MEMORY_TRAINING_DONE (R398 step 3). -/
def execMemoryTrainingDone (results : List TrainResult) (hbm : List (List LaneSweep)) (s : State) : Result :=
  .next (if s.bootGoes .repaired then s.trained results hbm else s)

/-- MEMORY_CLEAR_DONE (R398 step 4, R400). -/
def execMemoryClearDone (s : State) : Result := .next (if s.bootGoes .trained then s.memoryCleared else s)

end Sys2Proof.Machine
end

