-- ==== Sys2Proof/Machine/Kernels.lean ====
section
/-! DEFINITION. The descriptors (08 R168 to R172, 09 R187 to R204): one meaning for each row of Table 8.4 and of its modes. A
descriptor runs page by page in its member, on its member's pages. -/

namespace Sys2Proof.Machine

/-! ### Lines: FILL, COPY, COMPARE, DIGEST -/

/-- The row is a descriptor of this opcode and MOD. -/
def isDesc (op mod : Nat) (d : Desc) : Bool := d.op == op && d.mod == mod

/-- A start that checks operands only. -/
def plainStart (ops : Ctx → List (Need × Nat × Nat)) (s : State) (c : Ctx) : Start × List (Need × Nat × Nat) :=
  (s.startStatus c (ops c), ops c)

/-- Operands of a list with their footprints. -/
def Ctx.ops (c : Ctx) (l : List (Need × Nat)) : List (Need × Nat × Nat) := l.map fun p => (p.1, p.2, c.d.foot p.2)

/-- The line indices on the page being processed, and the member's pages, by operand `i`. -/
def State.myLines (s : State) (c : Ctx) (i : Nat) : List Nat := s.onPage c (c.off i) c.d.count 1 (64 * ·)

/-- The member's pages of a descriptor that goes by lines of operand `i`. -/
def State.linePages (i : Nat) (s : State) (c : Ctx) : List Nat := s.pagesOf c (c.off i) c.d.count 1 (64 * ·)

/-- FILL. -/
def State.fillWork (s : State) (c : Ctx) : State × WriteEnd :=
  let ks := s.myLines c 0
  let v := (upTo 8).foldl (fun a i => a + c.d.imm * 2 ^ (64 * i)) 0
  (s.countElems c ks.length).finishWrites c (ks.foldl (fun t k => put (c.off 0 + 64 * k) 64 v false t) []) false

/-- What FILL does. -/
def fillKernel : Kernel where
  start := plainStart fun c => c.ops [(.dest, 0)]
  pages := State.linePages 0
  page := State.fillWork

/-- FILL (R168): COUNT lines of DST are written with IMM. -/
def execDescFill (barrow slice : Nat) (s : State) : Result :=
  .next (s.descriptor barrow slice (isDesc opFill 0) fillKernel)

/-- Byte ranges of 64 bytes at an operand's lines. -/
def lineSpans (off : Nat) (ks : List Nat) : List (Nat × Nat) := ks.map fun k => (off + 64 * k, 64)

/-- COPY. -/
def State.copyWork (s : State) (c : Ctx) : State × WriteEnd :=
  let ks := s.myLines c 1
  let r := s.fetchLines c.slice c.head (c.snap 1) c.host (lineSpans (c.off 1) ks)
  let out := ks.foldl (fun t k =>
    let x := pick r.2 (c.off 1 + 64 * k) 64
    put (c.off 0 + 64 * k) 64 x.2 x.1 t) []
  (r.1.countElems c ks.length).finishWrites c out (ks.any fun k => (pick r.2 (c.off 1 + 64 * k) 64).1)

/-- Overlapping ranges are malformed (Table 8.4). -/
def State.copyStart (s : State) (c : Ctx) : Start × List (Need × Nat × Nat) :=
  let n := 64 * c.d.count
  let ops := c.ops [(.source, 1), (.dest, 0)]
  if c.off 1 < c.off 0 + n ∧ c.off 0 < c.off 1 + n then (badStart, ops) else (s.startStatus c ops, ops)

/-- Close the regions that sources of line descriptors read: operands and their bytes (R170). -/
def closeSources (ops : Ctx → List (Nat × Nat)) (s : State) (c : Ctx) : State :=
  (ops c).foldl (fun a o => a.closeRead c (c.off o.1) o.2) s

/-- What COPY does. -/
def copyKernel : Kernel where
  start := State.copyStart
  enter := closeSources fun c => [(1, c.d.foot 1)]
  pages := State.linePages 1
  page := State.copyWork

/-- COPY (R168). -/
def execDescCopy (barrow slice : Nat) (s : State) : Result :=
  .next (s.descriptor barrow slice (isDesc opCopy 0) copyKernel)

/-- COMPARE begins: its results and flag NE start anew. -/
def State.compareEnter (s : State) (c : Ctx) : State :=
  (closeSources (fun c => [(1, c.d.foot 1), (2, c.d.foot 2)]) s c).updMember c.head c.slice fun m => { m with
    res0 := 0, res1 := none, flags := m.flags &&& ~~~flNe }

/-- COMPARE: the differing lines, the lowest differing offset, and flag NE. -/
def State.compareWork (s : State) (c : Ctx) : State × WriteEnd :=
  let ks := s.myLines c 1
  let a := s.fetchLines c.slice c.head (c.snap 1) c.host (lineSpans (c.off 1) ks)
  let b := a.1.fetchLines c.slice c.head (c.snap 2) c.host (lineSpans (c.off 2) ks)
  let line := fun (k : Nat) => (pick a.2 (c.off 1 + 64 * k) 64, pick b.2 (c.off 2 + 64 * k) 64)
  let bad := fun (k : Nat) => (line k).1.1 || (line k).2.1
  let diff := ks.filter fun k => bad k || (line k).1.2 != (line k).2.2
  ((b.1.updMember c.head c.slice fun m => { m with
      res0 := m.res0 + diff.length, res1 := m.res1.or (diff.head?.map (64 * ·))
      flags := m.flags ||| (if diff.isEmpty then 0 else flNe) }).countElems c ks.length,
    if ks.any bad then .poisoned else .done)

/-- What COMPARE does. -/
def compareKernel : Kernel where
  start := plainStart fun c => c.ops [(.source, 1), (.source, 2)]
  enter := State.compareEnter
  pages := State.linePages 1
  page := State.compareWork

/-- COMPARE (R168). -/
def execDescCompare (barrow slice : Nat) (s : State) : Result :=
  .next (s.descriptor barrow slice (isDesc opCompare 0) compareKernel)

/-- DIGEST: one entry of 64 bytes for each page. -/
def State.digestWork (s : State) (c : Ctx) : State × WriteEnd :=
  let js := s.onPage c (c.off 1) (c.d.count / 64) 1 (4096 * ·)
  let r := s.fetchLines c.slice c.head (c.snap 1) c.host
    (js.map fun j => (c.off 1 + 4096 * j, 4096))
  let page := fun (j : Nat) => pick r.2 (c.off 1 + 4096 * j) 4096
  let out := js.foldl (fun t j =>
    put (c.off 0 + 64 * j) 64 (leNat (beBytes 48 (sha384 (leBytes 4096 (page j).2)).toNat)) (page j).1 t) []
  (r.1.countElems c (64 * js.length)).finishWrites c out (js.any fun j => (page j).1)

/-- SRC_A must be 4 KiB aligned and COUNT a multiple of 64. -/
def State.digestStart (s : State) (c : Ctx) : Start × List (Need × Nat × Nat) :=
  let ops := c.ops [(.source, 1), (.dest, 0)]
  if c.off 1 % 4096 ≠ 0 ∨ c.d.count % 64 ≠ 0 then (badStart, ops) else (s.startStatus c ops, ops)

/-- What DIGEST does. -/
def digestKernel : Kernel where
  start := State.digestStart
  enter := closeSources fun c => [(1, c.d.foot 1)]
  page := State.digestWork
  pages := fun s c => s.pagesOf c (c.off 1) (c.d.count / 64) 1 (4096 * ·)

/-- DIGEST (R168). -/
def execDescDigest (barrow slice : Nat) (s : State) : Result :=
  .next (s.descriptor barrow slice (isDesc opDigest 0) digestKernel)

/-! ### REDUCE (R169, R170, R191, R203) -/

/-- The barrow's region that starts at SRC_A, in the member's slice. -/
def State.accRegion (s : State) (c : Ctx) : Option (Nat × Region) :=
  (s.slice c.slice).regions.find? fun p => p.2.phase != .free && (p.2.barrow == c.head && p.2.lo == c.off 1)

/-- The entry an ARM takes: the member's own part of the region, or the lowest-numbered free one. -/
def State.armEntry (s : State) (c : Ctx) : Option Nat :=
  match s.accRegion c with
  | some (i, _) => some i
  | none => (upTo 64).find? fun i => ((s.slice c.slice).region i).phase == .free

/-- An ARM overlaps a region that is not FREE: one that is not the barrow's own at the same address, or the member's own part
still ARMED. -/
def State.armOverlaps (s : State) (c : Ctx) : Bool :=
  (upTo 8).any fun n => ((s.slice n).regionsAt (c.off 1) (c.off 1 + c.d.foot 1)).any fun p =>
    !(p.2.barrow == c.head && (p.2.lo == c.off 1 && (n != c.slice || p.2.phase == .closed)))

/-- What an ARM's start finds. -/
def State.armStart (s : State) (c : Ctx) : Start × List (Need × Nat × Nat) :=
  let ops := c.ops [(.region, 1)]
  match s.startStatus c ops with
  | some x => (some x, ops)
  | none =>
    if s.armOverlaps c then (some (.accessDenied, .operand), ops)
    else if (s.armEntry c).isNone then (some (.retryBusy, .regionFull), ops)
    else (none, ops)

/-- ARM begins: it takes its entry, which is ARMED once its accumulators are zero (DESIGN CHOICE, log 51). -/
def State.armEnter (s : State) (c : Ctx) : State :=
  s.updRegion c.slice ((s.armEntry c).getD 0) fun _ => {
    phase := .closed, barrow := c.head, inFmt := c.d.inFmt, exact := c.d.auxFmt == 13, anchor := c.d.anchor
    expect := c.d.expect, base := c.ea 1, count := c.d.count, adds := 0, flags := 0, byCount := false
    elems := (s.mineOf c.slice (c.off 1) c.d.count 1 (accBytes c.d.auxFmt * ·)).length }

/-- ARM: the accumulators of a page set to zero. -/
def State.armWork (s : State) (c : Ctx) : State × WriteEnd :=
  let n := accBytes c.d.auxFmt
  let ks := s.onPage c (c.off 1) c.d.count 1 (n * ·)
  (s.countElems c ks.length).finishWrites c (ks.foldl (fun t k => put (c.off 1 + n * k) n 0 false t) []) false

/-- ARM ends: its part is ARMED, and closes at once when it expects nothing. -/
def State.armLeave (s : State) (c : Ctx) : State × WriteEnd :=
  match s.accRegion c with
  | none => (s, .done)
  | some (i, _) => ((s.updRegion c.slice i fun r => { r with phase := .armed }).closeByCount c.slice i, .done)

/-- What REDUCE ARM does. -/
def armKernel : Kernel where
  start := State.armStart
  enter := State.armEnter
  page := State.armWork
  leave := State.armLeave
  pages := fun s c => s.pagesOf c (c.off 1) c.d.count 1 (accBytes c.d.auxFmt * ·)

/-- REDUCE ARM (R169). -/
def execReduceArm (barrow slice : Nat) (s : State) : Result :=
  .next (s.descriptor barrow slice (isDesc opReduce 0) armKernel)

/-- What an ADD's start finds: no region, ACC128 input of another anchor or into a native region (R191), or more elements than the region
has. -/
def State.addStart (s : State) (c : Ctx) : Start × List (Need × Nat × Nat) :=
  match s.accRegion c with
  | none => (some (.accessDenied, .operand), [])
  | some (_, r) =>
    let ops : List (Need × Nat × Nat) := [(.region, 1, c.d.count * r.size), (.source, 2, c.d.foot 2)]
    if c.d.inFmt = 13 ∧ (r.exact = false ∨ r.anchor ≠ s.anchorOf c (c.off 2) (c.d.foot 2)) then (badStart, ops)
    else if r.count < c.d.count then (badStart, ops)
    else (s.startStatus c ops, ops)

/-- Consecutive indices gathered into runs: first index and length. -/
def indexRuns : List Nat → List (Nat × Nat)
  | [] => []
  | k :: r =>
    match indexRuns r with
    | (j, n) :: t => if j = k + 1 then (k, n + 1) :: t else (k, 1) :: (j, n) :: t
    | [] => [(k, 1)]

/-- Add one line's elements: a line without data, or elements from one, leave the line poisoned. -/
def State.addLine (s : State) (c : Ctx) (i off : Nat) (xs : List (Num × Bool)) : State × WriteEnd :=
  let size := ((s.slice c.slice).region i).size
  let os := if 64 < off % 64 + size then [off / 64 * 64, off / 64 * 64 + 64] else [off / 64 * 64]
  if !s.snapRoomFor os then (s, .full)
  else if xs.any Prod.snd || os.any (fun o => !s.mergeable o) then
    ((os.filter fun o => !s.homeDown o).foldl (fun a o => (a.poisonAt o 5).1) s, .poisoned)
  else (s.accumulate c.slice i off c.host c.d.inFmt (xs.map Prod.fst) 5, .done)

/-- Add lines in ascending order, up to one that the snapshot buffer has no room for. -/
def State.addLines (s : State) (c : Ctx) (i : Nat) : List (Nat × List (Num × Bool)) → State × WriteEnd
  | [] => (s, .done)
  | (o, xs) :: r =>
    let w := s.addLine c i o xs
    if w.2 = .full then w
    else
      let z := w.1.addLines c i r
      (z.1, if z.2 = .done then w.2 else z.2)

/-- ADD: COUNT elements of SRC_B as one contribution. -/
def State.addWork (s : State) (c : Ctx) : State × WriteEnd :=
  match s.accRegion c with
  | none => (s, .done)
  | some (i, r) =>
    let u := c.d.unit
    let ks := s.onPage c (c.off 1) c.d.count u (r.size * ·)
    let f := s.fetchLines c.slice c.head (c.snap 2) c.host (ks.flatMap fun k => elemSpans c.d.inFmt (c.off 2) (u * k) u)
    let vals := fun (k : Nat) => readElems f.2 c.d.inFmt (s.anchorOf c (c.off 2) (c.d.foot 2)) (c.off 2) (u * k) u
    let lines := (indexRuns ks).flatMap fun q =>
      let xs := ((upTo q.2).flatMap fun j => (vals (q.1 + j)).1)
      lineRuns r.size xs.length (c.off 1 + r.size * (u * q.1)) xs
    let flags := ks.foldl (fun a k => a ||| (vals k).2) (0 : BitVec 7)
    let s1 := ((f.1.stickReads (readFlags c.d.inFmt (c.off 2) u ks vals)).updRegion c.slice i fun r => { r with
      flags := r.flags ||| stickyFlags flags }).countElems c (u * ks.length)
    s1.addLines c i lines

/-- The member's pages of the region that starts at SRC_A, `n` of its elements. -/
def State.regionPages (n : Ctx → Region → Nat) (s : State) (c : Ctx) : List Nat :=
  match s.accRegion c with
  | none => []
  | some (_, r) => s.pagesOf c (c.off 1) (n c r) c.d.unit (r.size * ·)

/-- What REDUCE ADD does. -/
def addKernel : Kernel where
  start := State.addStart
  enter := closeSources fun c => [(2, c.d.foot 2)]
  pages := State.regionPages fun c _ => c.d.count
  page := State.addWork

/-- REDUCE ADD (R169, R191). -/
def execReduceAdd (barrow slice : Nat) (s : State) : Result :=
  .next (s.descriptor barrow slice (isDesc opReduce 1) addKernel)

/-- The square of a value as the norm takes it (R203). -/
def Num.square : Num → Num
  | .fin m e => .fin (m * m) (2 * e)
  | .inf _ => .inf false
  | x => x

/-- The values that a run's outputs hold. -/
def outValues (c : Ctx) (code i : Nat) (xs : List (Num × Bool)) : List Num :=
  if xs.any Prod.snd && isMx code then []
  else if isMx code then
    let o := mxOut code (xs.map Prod.fst) fun j => c.draw (i + j)
    (upTo 32).map fun j => mxIn code o.1 o.2.1 j
  else
    (xs.zipIdx.filter fun p => !p.1.2).map fun p =>
      (elemIn code c.d.anchor (elemOut code c.d.anchor (c.draw (i + p.2)) p.1.1).1).1

/-- Squares added into the norm register, with their flags. -/
def normAdd (anchor : Int) (acc : BitVec 128) (xs : List Num) : BitVec 128 × BitVec 7 :=
  xs.foldl (fun a x =>
    let e := exactAdd anchor a.1 false x.square
    (e.1, a.2 ||| e.2)) (acc, 0)

/-- What a FINALISE's start finds; `norm` for FINALISE_NORM, whose NANCHOR must be the register's (R203). -/
def State.finaliseStart (norm : Bool) (s : State) (c : Ctx) : Start × List (Need × Nat × Nat) :=
  match s.accRegion c with
  | none => (some (.accessDenied, .operand), [])
  | some (_, r) =>
    let ops : List (Need × Nat × Nat) := [(.region, 1, r.count * r.size), (.dest, 0, footprint c.d.outFmt r.count)]
    if isMx c.d.outFmt = true ∧ r.count % 32 ≠ 0 then (badStart, ops)
    else if norm && (match c.m.norm.anchor with
      | some a => a != c.d.nanchor
      | none => false) then (badStart, ops)
    else (s.startStatus c ops, ops)

/-- FINALISE begins: the region closes, and its flags enter the register. -/
def State.finaliseEnter (s : State) (c : Ctx) : State :=
  match s.accRegion c with
  | none => s
  | some (i, r) =>
    let s1 := s.closeRead c (c.off 1) (r.count * r.size)
    s1.setFlags c (s1.partFlags c.head ((s1.slice c.slice).region i))

/-- FINALISE: a page of the region to DST, and for FINALISE_NORM the squares into the norm register. -/
def State.finaliseWork (norm : Bool) (s : State) (c : Ctx) : State × WriteEnd :=
  match s.accRegion c with
  | none => (s, .done)
  | some (_, r) =>
    let code := if r.exact then 13 else 0
    let u := c.d.unit
    let ks := s.onPage c (c.off 1) r.count u (r.size * ·)
    let f := s.fetchLines c.slice c.head (c.snap 1) c.host (ks.map fun k => (c.off 1 + r.size * (u * k), r.size * u))
    let vals := fun (k : Nat) => readElems f.2 code r.anchor (c.off 1) (u * k) u
    let w := ks.foldl (fun a k =>
      let o := writeElems c c.d.outFmt (c.off 0) (u * k) (vals k).1 a.1
      (o.1, a.2 ||| ((vals k).2 ||| o.2))) (([] : Tbl OutLine), (0 : BitVec 7))
    let out := if ks.contains ((r.count - 1) / u) then padOut c.d.outFmt (c.off 0) r.count w.1 else w.1
    let n := normAdd c.d.nanchor c.m.norm.acc (ks.flatMap fun k => outValues c c.d.outFmt (u * k) (vals k).1)
    let s3 := (f.1.stickReads (readFlags code (c.off 1) u ks vals)).setFlags c (w.2 ||| (if norm then n.2 else 0))
    let s4 := if norm then
        s3.updMember c.head c.slice fun m => { m with norm := { anchor := some c.d.nanchor, acc := n.1 } }
      else s3
    (s4.countElems c (u * ks.length)).finishWrites c out (ks.any fun k => (vals k).1.any Prod.snd)

/-- The kernel of FINALISE and FINALISE_NORM. -/
def finaliseKernel (norm : Bool) : Kernel where
  start := State.finaliseStart norm
  enter := State.finaliseEnter
  pages := State.regionPages fun _ r => r.count
  page := State.finaliseWork norm

/-- REDUCE FINALISE (R169, R194). -/
def execReduceFinalise (barrow slice : Nat) (s : State) : Result :=
  .next (s.descriptor barrow slice (isDesc opReduce 2) (finaliseKernel false))

/-- REDUCE FINALISE_NORM (R203). -/
def execReduceFinaliseNorm (barrow slice : Nat) (s : State) : Result :=
  .next (s.descriptor barrow slice (isDesc opReduce 3) (finaliseKernel true))

/-- What a RELEASE's start finds. -/
def State.releaseStart (s : State) (c : Ctx) : Start × List (Need × Nat × Nat) :=
  match s.accRegion c with
  | none => (some (.accessDenied, .operand), [])
  | some (_, r) => (s.startStatus c [(.free, 1, r.count * r.size)], [])

/-- RELEASE frees the entry. -/
def State.releaseWork (s : State) (c : Ctx) : State × WriteEnd :=
  match s.accRegion c with
  | none => (s, .done)
  | some (i, _) => (s.updRegion c.slice i Region.freed, .done)

/-- What REDUCE RELEASE does. -/
def releaseKernel : Kernel where
  start := State.releaseStart
  leave := State.releaseWork

/-- REDUCE RELEASE (R169). -/
def execReduceRelease (barrow slice : Nat) (s : State) : Result :=
  .next (s.descriptor barrow slice (isDesc opReduce 4) releaseKernel)

/-! ### CAST and SCALE_ADD (R204) -/

/-- CAST. -/
def State.castWork (s : State) (c : Ctx) : State × WriteEnd :=
  let u := c.d.unit
  let n := c.d.count
  let ks := s.onPage c (c.off 1) n u (elemAt c.d.inFmt)
  let f := s.fetchLines c.slice c.head (c.snap 1) c.host (ks.flatMap fun k => elemSpans c.d.inFmt (c.off 1) (u * k) u)
  let vals := fun (k : Nat) => readElems f.2 c.d.inFmt (s.anchorOf c (c.off 1) (c.d.foot 1)) (c.off 1) (u * k) u
  let w := ks.foldl (fun a k =>
    let o := writeElems c c.d.outFmt (c.off 0) (u * k) (vals k).1 a.1
    (o.1, a.2 ||| ((vals k).2 ||| o.2))) (([] : Tbl OutLine), (0 : BitVec 7))
  let out := if ks.contains ((n - 1) / u) then padOut c.d.outFmt (c.off 0) n w.1 else w.1
  (((f.1.stickReads (readFlags c.d.inFmt (c.off 1) u ks vals)).setFlags c w.2).countElems c (u * ks.length)).finishWrites c out
    (ks.any fun k => (vals k).1.any Prod.snd)

/-- What CAST does. -/
def castKernel : Kernel where
  start := plainStart fun c => c.ops [(.source, 1), (.dest, 0)]
  enter := closeSources fun c => [(1, c.d.foot 1)]
  pages := fun s c => s.pagesOf c (c.off 1) c.d.count c.d.unit (elemAt c.d.inFmt)
  page := State.castWork

/-- CAST (R204). -/
def execDescCast (barrow slice : Nat) (s : State) : Result :=
  .next (s.descriptor barrow slice (isDesc opCast 0) castKernel)

/-- One result of SCALE_ADD, with the conversions' flags. -/
def scaleOne (alpha beta : Nat) (a : Num) (b : Option Num) : Num × BitVec 7 :=
  let x := toF32 a
  let p := fMul alpha x.1
  match b with
  | none => (fp32.decode p, x.2)
  | some b =>
    let y := toF32 b
    (fp32.decode (fAdd p (fMul beta y.1)), x.2 ||| y.2)

/-- SCALE_ADD. -/
def State.scaleWork (s : State) (c : Ctx) : State × WriteEnd :=
  let u := c.d.unit
  let n := c.d.count
  let two := c.d.mod == 0
  let ks := s.onPage c (c.off 0) n u (elemAt c.d.outFmt)
  let fa := s.fetchLines c.slice c.head (c.snap 1) c.host (ks.flatMap fun k => elemSpans c.d.inFmt (c.off 1) (u * k) u)
  let fb := fa.1.fetchLines c.slice c.head (c.snap 2) c.host
    (if two then ks.flatMap fun k => elemSpans c.d.auxFmt (c.off 2) (u * k) u else [])
  let va := fun (k : Nat) => readElems fa.2 c.d.inFmt (s.anchorOf c (c.off 1) (c.d.foot 1)) (c.off 1) (u * k) u
  let vb := fun (k : Nat) => readElems fb.2 c.d.auxFmt (s.anchorOf c (c.off 2) (c.d.foot 2)) (c.off 2) (u * k) u
  let res := fun (k : Nat) =>
    if two then ((va k).1.zip (vb k).1).map fun p =>
      (scaleOne (bits c.d.imm 32 32) (bits c.d.imm 0 32) p.1.1 (some p.2.1), p.1.2 || p.2.2)
    else (va k).1.map fun p => (scaleOne (bits c.d.imm 32 32) 0 p.1 none, p.2)
  let w := ks.foldl (fun a k =>
    let o := writeElems c c.d.outFmt (c.off 0) (u * k) ((res k).map fun p => (p.1.1, p.2)) a.1
    let fl := (res k).foldl (fun x p => if p.2 then x else x ||| p.1.2) (0 : BitVec 7)
    (o.1, a.2 ||| ((va k).2 ||| ((if two then (vb k).2 else 0) ||| (fl ||| o.2))))) (([] : Tbl OutLine), (0 : BitVec 7))
  let out := if ks.contains ((n - 1) / u) then padOut c.d.outFmt (c.off 0) n w.1 else w.1
  let s1 := (fb.1.stickReads (readFlags c.d.inFmt (c.off 1) u ks va)).stickReads
    (if two then readFlags c.d.auxFmt (c.off 2) u ks vb else [])
  ((s1.setFlags c w.2).countElems c (u * ks.length)).finishWrites c out (ks.any fun k => (res k).any Prod.snd)

/-- What SCALE_ADD does. -/
def scaleAddKernel : Kernel where
  start := plainStart fun c => c.ops [(.source, 1), (.source, 2), (.dest, 0)]
  enter := closeSources fun c => [(1, c.d.foot 1), (2, c.d.foot 2)]
  pages := fun s c => s.pagesOf c (c.off 0) c.d.count c.d.unit (elemAt c.d.outFmt)
  page := State.scaleWork

/-- SCALE_ADD (R204). -/
def execScaleAdd (barrow slice : Nat) (s : State) : Result :=
  .next (s.descriptor barrow slice (fun d => d.op == opScaleAdd) scaleAddKernel)

/-! ### UPDATE (R171, R199 to R203) -/

/-- The hyperparameters (Table 8.7) and the constants of R200. -/
structure Hyper where
  lr : Nat
  beta1 : Nat
  beta2 : Nat
  eps : Nat
  decay : Nat
  mom : Nat
  maxNorm : Nat
  t : Nat
deriving DecidableEq, Repr, Inhabited

/-- The record's fields. -/
def hyperOf (v : Nat) : Hyper where
  lr := bits v 0 32
  beta1 := bits v 32 32
  beta2 := bits v 64 32
  eps := bits v 96 32
  decay := bits v 128 32
  mom := bits v 160 32
  maxNorm := bits v 192 32
  t := bits v 224 32

/-- 1.0. -/
def fOne : Nat := 0x3F800000

/-- One step of SGD with momentum: m and w (R201). -/
def sgdStep (h : Hyper) (g m w : Nat) : Nat × Nat :=
  let m1 := fAdd (fMul h.mom m) g
  (m1, fSub w (fMul h.lr (fAdd m1 (fMul h.decay w))))

/-- One step of Adam: m, v and w (R200, R201). -/
def adamStep (h : Hyper) (g m v w : Nat) : Nat × Nat × Nat :=
  let m1 := fAdd (fMul h.beta1 m) (fMul (fSub fOne h.beta1) g)
  let v1 := fAdd (fMul h.beta2 v) (fMul (fSub fOne h.beta2) (fMul g g))
  let b1 := fSub fOne (fPow h.beta1 h.t)
  let b2 := fSub fOne (fPow h.beta2 h.t)
  let q := fDiv (fDiv m1 b1) (fAdd (fSqrt (fDiv v1 b2)) h.eps)
  (m1, v1, fSub w (fMul h.lr (fAdd q (fMul h.decay w))))

/-- A zero as it is written: +0 (R194). -/
def plusZero (x : Nat) : Nat := if x = 0x80000000 then 0 else x

/-- The new state record and weight of an element (R202); `adam` picks the kernel. Answers the record, w and flags (DESIGN
CHOICE, log 18). -/
def updateOne (adam : Bool) (aux : Nat) (h : Hyper) (g rec_ : Nat) : Nat × Nat × BitVec 7 :=
  let w := bits rec_ 0 32
  let wide := aux == 0
  let m := if wide then bits rec_ 32 32 else bits rec_ 32 16 * 65536
  let v := if wide then bits rec_ 64 32 else bits rec_ 48 16 * 65536
  let n := if adam then adamStep h g m v w else ((sgdStep h g m w).1, v, (sgdStep h g m w).2)
  let wf : BitVec 7 := (if fIsNan n.2.2 then flNan else 0) ||| (if fIsNan n.2.2 || fFinite n.2.2 then 0 else flInf)
  if wide then
    (plusZero n.2.2 + plusZero n.1 * 2 ^ 32 + (if adam then plusZero n.2.1 else bits rec_ 64 32) * 2 ^ 64 + bits rec_ 96 32 * 2 ^ 96,
      n.2.2, wf)
  else
    let mo := elemOut 1 0 none (fp32.decode n.1)
    let vo := elemOut 1 0 none (fp32.decode n.2.1)
    (plusZero n.2.2 + mo.1 * 2 ^ 32 + (if adam then vo.1 else bits rec_ 48 16) * 2 ^ 48, n.2.2,
      wf ||| (mo.2 ||| (if adam then vo.2 else 0)))

/-- The clip factor by the norm register after the last SYNC, or the flag that keeps the descriptor from writing (R203). -/
def clipFactor (h : Hyper) (n : Option Norm) : Nat ⊕ BitVec 7 :=
  let acc := (n.getD {}).acc
  match accOf acc with
  | .nan => .inr flNan
  | .ovf => .inr flOverflow
  | .inf _ => .inr flInf
  | .fin k =>
    let x := (elemOut 0 0 none (.fin k (((n.getD {}).anchor.getD 0) - 96))).1
    let q := fDiv h.maxNorm (fSqrt x)
    .inl (if fLess q fOne then q else fOne)

/-- The hyperparameter record of a descriptor. -/
def State.hyper (s : State) (c : Ctx) : State × Bool × Hyper :=
  let r := s.fetchLines c.slice c.head (c.snap 3) c.host [(c.off 3, 64)]
  let v := pick r.2 (c.off 3) 64
  (r.1, v.1, hyperOf v.2)

/-- What an UPDATE's start finds: T = 0, or a MAX_NORM that is not positive and finite, is malformed (R200). -/
def State.updateStart (clip : Bool) (s : State) (c : Ctx) : Start × List (Need × Nat × Nat) :=
  let ops := c.ops [(.source, 1), (.state, 2), (.source, 3), (.dest, 0)]
  match s.startStatus c ops with
  | some x => (some x, ops)
  | none =>
    let h := (s.hyper c).2
    if h.1 then (none, ops)
    else if h.2.t = 0 ∨ (clip = true ∧ ¬(0 < h.2.maxNorm ∧ h.2.maxNorm < 0x7F800000)) then (badStart, ops)
    else (none, ops)

/-- One element's new record, weight and flags; none when a line of its inputs has no data. -/
def updateElem (adam : Bool) (aux : Nat) (h : Hyper) (clip : Option Nat) (g : Num × Bool) (rec_ : Bool × Nat) :
    Option (Nat × Nat × BitVec 7) :=
  if g.2 || rec_.1 then none
  else
    let x := toF32 g.1
    let y := match clip with
      | some f => fMul f x.1
      | none => x.1
    let r := updateOne adam aux h y rec_.2
    some (r.1, r.2.1, x.2 ||| r.2.2)

/-- The elements of a page of UPDATE, with a clip factor, or none for the kernels without. -/
def State.updateBody (adam : Bool) (s : State) (c : Ctx) (hbad : Bool) (h : Hyper) (clip : Option Nat) : State × WriteEnd :=
  let u := c.d.unit
  let n := c.d.count
  let size := recordBytes c.d.auxFmt
  let ks := s.onPage c (c.off 2) n u (size * ·)
  let fg := s.fetchLines c.slice c.head (c.snap 1) c.host (ks.flatMap fun k => elemSpans c.d.inFmt (c.off 1) (u * k) u)
  let fr := fg.1.fetchLines c.slice c.head (c.snap 2) c.host (ks.map fun k => (c.off 2 + size * (u * k), size * u))
  let vg := fun (k : Nat) => readElems fg.2 c.d.inFmt (s.anchorOf c (c.off 1) (c.d.foot 1)) (c.off 1) (u * k) u
  let res := fun (k : Nat) => (vg k).1.zipIdx.map fun p =>
    updateElem adam c.d.auxFmt h clip (p.1.1, p.1.2 || hbad) (pick fr.2 (c.off 2 + size * (u * k + p.2)) size)
  let w := ks.foldl (fun a k =>
    let t := (res k).zipIdx.foldl (fun t p => match p.1 with
      | some x => put (c.off 2 + size * (u * k + p.2)) size x.1 false t
      | none => t) a.1
    let xs := (res k).map fun x => match x with
      | some y => (fp32.decode y.2.1, false)
      | none => (Num.fin 0 0, true)
    let o := writeElems c c.d.outFmt (c.off 0) (u * k) xs t
    let fl := (res k).foldl (fun x y => match y with
      | some z => x ||| z.2.2
      | none => x) (0 : BitVec 7)
    (o.1, a.2 ||| ((vg k).2 ||| (fl ||| o.2)))) (([] : Tbl OutLine), (0 : BitVec 7))
  let out := if ks.contains ((n - 1) / u) then padOut c.d.outFmt (c.off 0) n w.1 else w.1
  (((fr.1.stickReads (readFlags c.d.inFmt (c.off 1) u ks vg)).setFlags c w.2).countElems c (u * ks.length)).finishWrites c out
    (ks.any fun k => (res k).any Option.isNone)

/-- The hyperparameters as they were read at the descriptor's start (R171), and whether their line had no data. -/
def Ctx.record (c : Ctx) : Bool × Hyper := let w := c.m.work.getD {}; (w.recBad, hyperOf w.record)

/-- UPDATE begins: the record is read once, the sources' regions close, and a clipped kernel sets the flag of its norm: CLIPPED below 1,
or that of a norm that is no finite number (R203). -/
def State.updateEnter (clip : Bool) (s : State) (c : Ctx) : State :=
  let s1 := closeSources (fun c => [(1, c.d.foot 1), (2, c.d.foot 2), (3, 64)]) s c
  let r := s1.fetchLines c.slice c.head (c.snap 3) c.host [(c.off 3, 64)]
  let v := pick r.2 (c.off 3) 64
  let s2 := r.1.updMember c.head c.slice fun m => { m with work := m.work.map fun w => { w with recBad := v.1, record := v.2 } }
  if clip then match clipFactor (hyperOf v.2) c.m.syncNorm with
    | .inr f => s2.setFlags c f
    | .inl q => s2.setFlags c (if fLess q fOne then flClipped else 0)
  else s2

/-- The member's pages of an UPDATE: none for a clipped kernel whose norm is no finite number, which writes nothing (R203). -/
def State.updatePages (clip : Bool) (s : State) (c : Ctx) : List Nat :=
  if clip && (clipFactor c.record.2 c.m.syncNorm).isRight then []
  else s.pagesOf c (c.off 2) c.d.count c.d.unit (recordBytes c.d.auxFmt * ·)

/-- A page of UPDATE. -/
def State.updateWork (adam clip : Bool) (s : State) (c : Ctx) : State × WriteEnd :=
  let h := c.record
  if clip then
    match clipFactor h.2 c.m.syncNorm with
    | .inr _ => (s, .done)
    | .inl q => s.updateBody adam c h.1 h.2 (some q)
  else s.updateBody adam c h.1 h.2 none

/-- The kernel of an UPDATE. -/
def updateKernel (adam clip : Bool) : Kernel where
  start := State.updateStart clip
  enter := State.updateEnter clip
  pages := State.updatePages clip
  page := State.updateWork adam clip

/-- UPDATE MOD 0 (R201): SGD with momentum. -/
def execUpdateSgd (barrow slice : Nat) (s : State) : Result :=
  .next (s.descriptor barrow slice (isDesc opUpdate 0) (updateKernel false false))

/-- UPDATE MOD 1 (R201): Adam with decoupled weight decay. -/
def execUpdateAdam (barrow slice : Nat) (s : State) : Result :=
  .next (s.descriptor barrow slice (isDesc opUpdate 1) (updateKernel true false))

/-- UPDATE MOD 2 (R203): clipped SGD. -/
def execUpdateClippedSgd (barrow slice : Nat) (s : State) : Result :=
  .next (s.descriptor barrow slice (isDesc opUpdate 2) (updateKernel false true))

/-- UPDATE MOD 3 (R203): clipped Adam. -/
def execUpdateClippedAdam (barrow slice : Nat) (s : State) : Result :=
  .next (s.descriptor barrow slice (isDesc opUpdate 3) (updateKernel true true))

end Sys2Proof.Machine
end

