-- ==== Sys2Proof/Machine/Readings.lean ====
section
/-! DEFINITION. What every entry reads as (16 R335, R336): the single values that the board computes, and the rows of the windows. -/

namespace Sys2Proof.Machine

/-! ### Codes -/

/-- Stage in READY_STATE (20 Table 20.4). -/
def Stage.code : Stage → Nat
  | .reset => 0 | .rom => 1 | .firmware => 2 | .memory => 3 | .ready => 4 | .recovery => 5

/-- TIME_STATE (10 Table 10.7). -/
def TimePhase.code : TimePhase → Nat
  | .free => 0 | .acquiring => 1 | .locked => 2 | .holdover => 3

/-- Core PLL in CLOCK_STATUS (19 Table 19.3). -/
def PllPhase.code : PllPhase → Nat
  | .locked => 0 | .coasting => 1 | .relocking => 2

/-- Channel state in CHANNEL_STATUS (05 Table 5.8). -/
def ChanPhase.code : ChanPhase → Nat
  | .empty => 0 | .training => 1 | .inService => 2 | .failed => 3 | .retired => 4

/-! ### The identity and configuration entries (00 Table 0.1, 01 Table 1.6, 20 Table 20.4) -/

/-- READY_STATE; bits 4 and 5 report REPAIR_STATE. -/
def State.readyState (s : State) : Nat :=
  let b := s.boot
  b.stage.code + (if s.repairCode = 2 then 2 ^ 4 else 0) + (if s.repairCode = 1 then 2 ^ 5 else 0) + b2n b.profileDefaulted * 2 ^ 6
    + b2n b.fallbackSlot * 2 ^ 7 + b2n b.chainReset * 2 ^ 8 + b2n b.repairsDeferred * 2 ^ 9 + b2n b.noReference * 2 ^ 10

/-- A sum over numbers that pass a test. -/
def sumWhere (n : Nat) (p : Nat → Bool) (f : Nat → Nat) : Nat := (upTo n).foldl (fun a i => if p i then a + f i else a) 0

/-- FAR_CAPACITY (01 R20): the bytes that the trained channels of the slices in service hold. -/
def State.farCapacity (s : State) : Nat :=
  sumWhere 32 (fun c => (s.chan c).capacity != 0 && (s.slice (c / 4)).inService) fun _ => s.pitch.gran / 2048 * 2 ^ 30

/-- FW_SLOT_STATUS. -/
def State.fwSlotStatus (s : State) : Nat :=
  s.boot.fw0.status % 4 * 2 ^ 30 + s.boot.fw1.status % 4 * 2 ^ 28 + s.boot.booted % 2 * 2 ^ 24 + Config.minSvn.toNat * 2 ^ 16

/-! ### Power, clocks and temperature (18, 19, 21) -/

/-- A rail's voltage in mV and its tolerance in percent (18 Table 18.1). -/
def State.railNominal (s : State) : Nat → Nat × Nat
  | 0 => (12000, 5) | 1 => (3300, 3) | 2 => (1800, 3) | 3 => (1000, 3) | 4 => (800, 3) | 5 => (800, 3) | 6 => (1800, 3)
  | 7 => (850, 2) | 8 => (if s.power.b1 then 700 else 750, 2) | 9 => (900, 2) | 10 => (1200, 3) | 11 => (1100, 3)
  | 12 => (1800, 3) | 13 => (1100, 3) | _ => (400, 3)

/-- A rail's last reading lies within its tolerance; one never read counts as within. -/
def State.railInTolerance (s : State) (r : Nat) : Bool :=
  let v := s.power.railMv.get 0 r
  let n := s.railNominal r
  v == 0 || (decide (n.1 * (100 - n.2) ≤ v * 100) && decide (v * 100 ≤ n.1 * (100 + n.2)))

/-- RAIL_STATUS. -/
def State.railStatus (s : State) (r : Nat) : Nat :=
  (if !s.power.railsOn.getLsbD r then 0 else if s.power.faulted.contains r then 3 else if s.railInTolerance r then 1 else 2) * 2 ^ 30
    + s.power.railMv.get 0 r % 2 ^ 14 * 2 ^ 16 + s.power.railDa.get 0 r % 2 ^ 16

/-- INPUT_STATUS; the volts and the current are free values (DEDUCED, log 30). -/
def State.inputStatus (s : State) : Nat :=
  s.freshValue.toNat % 2 ^ 24 * 2 ^ 8 + b2n s.power.warning * 4 + b2n s.power.precharged * 2

/-- CLOCK_STATUS. -/
def State.clockStatus (s : State) : Nat :=
  let c := s.clock
  c.pll.code * 2 ^ 30 + b2n (c.failed.getLsbD 0) * 2 ^ 29 + b2n (c.failed.getLsbD 1) * 2 ^ 28 + b2n c.refFailed * 2 ^ 27
    + b2n c.holdover * 2 ^ 26 + c.d % 256 * 2 ^ 16

/-- THERMAL_STATUS. -/
def State.thermalStatus (s : State) : Nat :=
  let p := s.power
  b2n p.thermWarn * 2 ^ 31 + b2n p.thermFault * 2 ^ 30 + p.die % 256 * 2 ^ 22 + p.hbm % 256 * 2 ^ 14 + p.dimm % 256 * 2 ^ 6

/-- SIDEBAND_PINS: RESET_N is high on a board that serves; the levels of contacts 3 to 5 and 7 are free values (DEDUCED, log 30). -/
def State.sidebandPins (s : State) : Nat :=
  1 + s.freshValue.toNat % 16 * 2 + b2n s.pair.presentHigh * 2 ^ 5 + b2n s.boot.pairDriveReleased * 2 ^ 6

/-! ### Links, time, pair and instruments -/

/-- Last HSEQ assigned, 0 before the first. -/
def State.hseqSent (s : State) : Nat :=
  if s.pair.hseqNext = 0 ∧ s.pair.sent = [] ∧ s.pair.hseqAcked = none then 0 else hseqBefore s.pair.hseqNext

/-- GATE_STATE (12 Table 12.7). -/
def State.gateWord (s : State) : Nat :=
  s.gates.tcOpen.toNat + s.gates.migrate.toNat * 2 ^ 8 + s.gates.scrub.toNat * 2 ^ 16 + b2n s.time.fallback * 2 ^ 24

/-- HOIST_STATUS (17 Table 17.8). -/
def State.hoistStatus (s : State) : Nat := s.obs.hoistSeq % 65536 * 2 ^ 16 + s.obs.sources % 16 * 2 ^ 8 + b2n s.obs.held

/-- CHANNEL_STATUS (05 Table 5.8). -/
def State.channelStatus (s : State) (c : Nat) : Nat :=
  let x := s.chan c
  x.phase.code * 2 ^ 28 + x.capacity % 4096 * 2 ^ 16 + x.readEye % 256 * 2 ^ 8 + x.writeEye % 256

/-- REMAP_STATUS (06 Table 6.4). -/
def State.remapStatus (s : State) (c : Nat) : Nat :=
  let x := s.chan c
  x.remap.length % 32 * 2 ^ 27 + x.softRepairs % 256 * 2 ^ 19 + x.flashRows.length % 256 * 2 ^ 11

/-- PROFILE_CRC (16 Table 16.7). -/
def State.profileCrc (s : State) (n : Nat) : Nat :=
  match (s.profile n).newest with
  | some c => (Config.profileCrc n c.seq).toNat
  | none => 0

/-- SPARE_LANES (14 Table 14.6). -/
def State.spareLanes (s : State) : Nat := sumWhere 6 (fun _ => true) fun n => (s.spares n).length * 4 ^ n

/-- Entries by key that the board computes. NEAR_CAPACITY counts slices in service also before the near tier is trained (DESIGN CHOICE,
log 84). -/
def computedValues : List (Nat × (State → Nat)) := [
  (0x100000, fun _ => 0x7865626C6559),
  (0x100100, fun _ => 0x412D303038344259),
  (0x100200, fun _ => 0x43),
  (0x100300, fun _ => 0x3042),
  (kFwRelease, fun s => (Config.fwRelease s.boot.booted (s.fwSlot s.boot.booted).version).toNat),
  (kSlicesEnabled, fun s => sumWhere 8 (fun n => (s.slice n).inService) fun n => 2 ^ n),
  (kSpareSlice, fun _ => fuseSpare),
  (kSliceMap, fun s => sumWhere 8 (fun _ => true) fun n => (s.slice n).physical % 16 * 16 ^ n),
  (kFarCapacity, State.farCapacity),
  (kNearCapacity, fun s => s.servingSlices.length * 24 * 2 ^ 30),
  (kLinksLive, fun s => sumWhere 48 (fun n => (s.link n).isUp) fun n => 2 ^ n),
  (kReadyState, State.readyState),
  (kResetCause, fun s => s.boot.cause),
  (kBootCount, fun s => s.boot.bootCount),
  (0x102004, fun _ => Config.mac.toNat),
  (kMgmtSessions, fun s => (s.sec.spdm.filter fun c => c.2.established).length),
  (kFwSlotStatus, State.fwSlotStatus),
  (kFwBootSlot, fun s => s.boot.bootSlot),
  (kActiveProfile, fun s => s.mgmt.active),
  (kProfileSelPins, fun s => s.mgmt.selPins),
  (kReachGranules, State.reach),
  (kCohWindowBytes, fun s => s.coherentGranules * 2 ^ 24),
  (kStep, fun s => s.time.step),
  (kPhase, fun s => s.time.mphase),
  (kMarkState, fun s => b2n s.time.fallback + s.time.heldMarks.length % 8 * 2),
  (kAoSeconds, fun s => s.time.ao / 1000000000 % 2 ^ 48),
  (kTimeState, fun s => s.time.phase.code),
  (kTimeOffset, fun s => unsigned s.time.lastOffset 32),
  (kGateState, State.gateWord),
  (kPairState, fun s => s.pair.phase.code),
  (kPairEpoch, fun s => s.pair.epoch.toNat),
  (kHseqSent, State.hseqSent),
  (kHseqAcked, fun s => s.pair.hseqAcked.getD 0),
  (kResyncRemaining, fun s => s.pair.resync.length),
  (kMoveEpoch, fun s => s.pair.moveEpoch.toNat),
  (kConfSource, fun s => s.sec.confSource.toNat),
  (kLedgerHead, fun s => s.sec.head.getD 0),
  (kLedgerLost, fun s => s.sec.lost % 2 ^ 32),
  (kHoistStatus, State.hoistStatus),
  (kHoistMissed, fun s => s.obs.missed % 2 ^ 32),
  (kCrierHead, fun s => s.obs.head),
  (kPowerState, fun s => b2n s.power.b1 + b2n (s.power.step != .none) * 128),
  (kSlicesParked, fun s => sumWhere 8 (fun n => (s.slice n).park != .running) fun n => 2 ^ n),
  (kDimmFeeds, fun s => s.power.feedsTripped.toNat),
  (kInputStatus, State.inputStatus),
  (kClockStatus, State.clockStatus),
  (kThermalStatus, State.thermalStatus),
  (kSidebandPins, State.sidebandPins),
  (kRepairState, State.repairCode),
  (kFaultSeq, fun s => s.repair.faultSeq % 2 ^ 32),
  (kSpareLanes, State.spareLanes)]

/-- Entries with a subindex for each unit that the board computes: the first key, how many, and the value. -/
def computedRanges : List (Nat × Nat × (State → Nat → Nat)) := [
  (kProfileStatus 0, 4, fun s n => (s.profile n).status),
  (kProfileCrc 0, 4, State.profileCrc),
  (kLinkStatus 0, 48, fun s n => (s.link n).statusWord),
  (kLinkCaps 0, 48, fun s n => (s.link n).caps.toNat),
  (kOrphanCount 0, 8, fun s n => (s.slice n).orphans),
  (kChannelStatus 0, 32, State.channelStatus),
  (0x600600, 32, fun s n => leNat (s.chan n).part),
  (kScrubProgress 0, 40, State.scrubProgress),
  (kRemapStatus 0, 32, State.remapStatus),
  (kSnapInUse 0, 8, fun s n => (s.slice n).snapLines.length),
  (kLinkTimeOffset 0, 48, fun s n => unsigned (s.time.linkOffset.get 0 n) 32),
  (kTraceHead 0, 4, fun s n => if s.sec.conf then 0 else s.obs.traceHead.get 0 n % 2 ^ 32),
  (kRailStatus 0, 15, State.railStatus)]

/-- What an entry reads as. -/
def State.readValue (s : State) (key : Nat) : Nat :=
  match computedValues.find? fun p => p.1 == key with
  | some p => p.2 s
  | none =>
    match computedRanges.find? fun p => decide (p.1 ≤ key ∧ key < p.1 + p.2.1) with
    | some p => p.2.2 s (key - p.1)
    | none => s.reg key

/-- What a read does beside answering: AO_SECONDS latches AO_NANOSECONDS (10 Table 10.7), the entries of one slice wake it (18 R371),
and a value that is free takes the next one. -/
def State.afterRead (s : State) (key : Nat) : State :=
  if key = kAoSeconds then s.setReg kAoNanoseconds (s.time.ao % 1000000000)
  else if key = kInputStatus ∨ key = kSidebandPins then s.takeFresh
  else if kOrphanCount 0 ≤ key ∧ key < kOrphanCount 8 then s.wakeSlice (key - kOrphanCount 0)
  else if kSnapInUse 0 ≤ key ∧ key < kSnapInUse 8 then s.wakeSlice (key - kSnapInUse 0)
  else s

/-! ### Rows of the windows -/

/-- A barrow's row (08 Table 8.1). -/
def State.barrowWord (s : State) (b : Nat) : Nat :=
  let x := s.barrow b
  x.rowWord + s.barrowState b + x.epoch.toNat * 2 ^ 2 + b2n (s.set2Used b) * 2 ^ 69
    + (s.barrow (s.headOf b)).queue.length % 32 * 2 ^ 70 + x.launchSeq % 2 ^ 32 * 2 ^ 192 + x.doneSeq % 2 ^ 32 * 2 ^ 224

/-- A parameter block as a row of 64 bytes. -/
def paramsWord (ps : List Nat) : Nat := (upTo 8).foldl (fun a i => a + ps.getD i 0 % 2 ^ 64 * 2 ^ (64 * i)) 0

/-- Group, instance and row of a row of all tallies in the order of 17 Table 17.1. -/
def tallyAt (i : Nat) : Nat × Nat × Nat :=
  let go := fun (g base : Nat) => (g, (i - base) / groupRows g, (i - base) % groupRows g)
  if i < 65536 then go 0 0 else if i < 66560 then go 1 65536 else if i < 67328 then go 2 66560
  else if i < 100096 then go 3 67328 else if i < 101120 then go 4 100096 else if i < 105216 then go 5 101120 else go 6 105216

/-- A tally row as the snapshot holds it (17 Table 17.2). -/
def Snapshot.sample (x : Snapshot) (i : Nat) : Nat :=
  let t := tallyAt i
  let k := tallyKey t.1 t.2.1 t.2.2
  match x.resets.find? fun p => p.1 == k with
  | some p => p.2.toNat + 2 ^ 64
  | none => (x.tallies.get 0 k).toNat

/-- One of the three rows of a stall in the snapshot. -/
def HoistStall.row (h : HoistStall) (i : Nat) : Nat :=
  if i = 0 then h.word0 + creditBytes h.creditIn * 2 ^ 64 + creditBytes h.creditOut * 2 ^ 96
  else if i = 1 then h.next.toNat + h.held % 65536 * 2 ^ 16
  else (upTo 8).foldl (fun a k => a + h.tracker.getD k 0 % 65536 * 2 ^ (16 * k)) 0

/-- One of the four rows of a slice in the snapshot. -/
def HoistSlice.row (h : HoistSlice) (i : Nat) : Nat :=
  let cols := fun (l : List Nat) (n w : Nat) => (upTo n).foldl (fun a k => a + l.getD k 0 % 2 ^ w * 2 ^ (w * k)) 0
  if i = 0 then h.tracker % 65536 + h.entryQueue % 65536 * 2 ^ 16 + cols h.levels 6 16 * 2 ^ 32
  else if i = 1 then cols h.queues 4 32
  else if i = 2 then cols h.frames 4 32
  else cols h.regions 64 2

/-- First row of the link block of the snapshot: the rows before it are the header's and the tallies'. -/
def snapLinkRow : Nat := 105283

/-- A row of HOIST_SNAPSHOT; the layout is the model's (DESIGN CHOICE, log 14). -/
def Snapshot.row (x : Snapshot) (r : Nat) : Nat :=
  if r = 0 then x.seq % 2 ^ 64 + x.sources % 16 * 2 ^ 64
  else if r = 1 then x.step % 2 ^ 48 + x.phase % 2 ^ 16 * 2 ^ 48
  else if r = 2 then x.time.toNat
  else if r < 105283 then x.sample (r - 3)
  else if r < 105331 then
    match x.links[r - 105283]? with
    | some l => l.status % 2 ^ 32 + l.occupancy % 2 ^ 32 * 2 ^ 32 + l.u % 65536 * 2 ^ 64 + l.next.toNat * 2 ^ 80 + l.ack.toNat * 2 ^ 96
    | none => 0
  else if r < 108403 then
    match x.stalls.find? fun h => h.stall == (r - 105331) / 3 with
    | some h => h.row ((r - 105331) % 3)
    | none => 0
  else if r < 108459 then
    match x.xbar[r - 108403]? with
    | some p => p.1 % 2 ^ 32 + p.2 % 2 ^ 32 * 2 ^ 32
    | none => 0
  else if r < 108491 then
    match x.slices[(r - 108459) / 4]? with
    | some h => h.row ((r - 108459) % 4)
    | none => 0
  else (upTo 64).foldl (fun a i =>
    a + ((x.barrows.find? fun p => p.1 == (r - 108491) * 64 + i).map Prod.snd).getD 0 % 4 * 4 ^ i) 0

/-- A row of FRAME_TABLE: HINT reads the region's effective hint (05 Table 5.1, R96). -/
def State.frameRow (s : State) (r : Nat) : Nat :=
  let n := r / 12288
  let e := (s.slice n).frames.get {} (r % 12288)
  (if e.phase = .free then e else { e with hint := s.hintOf n e.region }).word

/-- Windows by key. -/
def windowRows : List (Nat × (State → Nat → Nat)) := [
  (kPrincipalTable, fun s r => (s.mgmt.principals.get {} r).word),
  (kFwImage, fun s r => ((s.fwSlot s.spareSlot).image.get 0 r).toNat),
  (kStallTable, fun s r => s.stallWord0 r + s.stallWord1 r * 2 ^ 64),
  (kShaperTable, State.shaperWord),
  (0x501000, fun s r => (s.granule r).word),
  (kAclTable, fun s r => (s.pitch.acl.get {} r).word),
  (0x503500, fun s r => let e := (s.slice (r / 262144)).dir.get {} (r % 262144); e.word0 + e.sharers.toNat * 2 ^ 64),
  (0x601500, State.frameRow),
  (0x601600, fun s r => (((s.slice (r / 4096)).cands[r % 4096]?).map Candidate.word).getD 0),
  (kCheckerData, fun s _ => s.checker.data.toNat),
  (kCheckerCheck, fun s _ => s.checker.check.toNat),
  (kBarrowTable, State.barrowWord),
  (kStandingParams, fun s r => paramsWord (s.barrow r).standing),
  (0x701400, fun s r => ((s.slice (r / 64)).regions.get {} (r % 64)).word),
  (kTenantSeed, fun s r => (s.seeds.get 0 r).toNat),
  (0x702100, fun s r => ((s.slice (r / 64)).regions.get {} (r % 64)).flags.toNat),
  (kBuntingTable, fun s r => (s.tree r).word),
  (kBuntingMembers, fun s r => (s.tree r).member.toNat),
  (kScheduleTable, fun s r => (s.time.schedStaged.get {} r).word),
  (kGateLists, fun s r => (s.gates.lists.get {} r).word),
  (kFbGateList, fun s r => (s.gates.fbStage.get {} r).word),
  (kTenantTable, State.tenantWord),
  (0xA02000, fun s r => (s.key r).word),
  (0xA03000, fun s r => (s.sec.ring.get {} r).word),
  (0xB02400, fun s r => s.obs.snap.row r),
  (0xB03000, fun s r => (s.obs.ring.get {} r).word),
  (0xD00100, fun _ r => (Config.fuse r).toNat),
  (0xD00600, fun s r => (s.repair.faultLog.get {} r).word)]

/-- A row of a window. -/
def State.readRow (s : State) (key r : Nat) : Nat :=
  if 0x701000 ≤ key ∧ key < 0x701008 then ((s.slice (key - 0x701000)).program.get 0 r).toNat
  else if 0x602400 ≤ key ∧ key < 0x602408 then ((s.slice (key - 0x602400)).errors.get {} r).word
  else if key = 0x602408 then (s.repair.commonErrors.get {} r).word
  else if 0xB01000 ≤ key ∧ key < 0xB01700 then
    let g := (key - 0xB01000) / 256
    s.sample g (r / groupRows g) (r % groupRows g)
  else if 0xB04100 ≤ key ∧ key < 0xB04104 then
    (if s.sec.conf then 0 else (s.obs.trace.get {} ((key - 0xB04100) * 4096 + r)).word)
  else match windowRows.find? fun p => p.1 == key with
    | some p => p.2 s r
    | none => 0

/-- The slice whose table a row belongs to. -/
def rowSlice (key r : Nat) : Option Nat :=
  if 0x701000 ≤ key ∧ key < 0x701008 then some (key - 0x701000)
  else if 0x602400 ≤ key ∧ key < 0x602408 then some (key - 0x602400)
  else if key = 0x503500 then some (r / 262144)
  else if key = 0x601500 then some (r / 12288)
  else if key = 0x601600 then some (r / 4096)
  else if key = 0x701400 ∨ key = 0x702100 then some (r / 64)
  else none

/-- A read of rows of slice tables wakes their slices (18 R371). -/
def State.wakeForRows (s : State) (key row count : Nat) : State :=
  (upTo 8).foldl (fun a n => if (upTo count).any fun i => rowSlice key (row + i) == some n then a.wakeSlice n else a) s

end Sys2Proof.Machine
end

