-- ==== Sys2Proof/Machine/Mgmt.lean ====
section
/-! DEFINITION. Management frames that name an entry by its index (16): reads, writes, windows, DESCRIBE; flash commits and the
profile commands. -/

namespace Sys2Proof.Machine

/-! ### Reads (R335, R336) -/

/-- Key of a frame's entry. -/
def Ask.key (q : Ask) : Nat := q.index * 256 + q.sub

/-- READ: the entry's value. -/
def actRead (key bytes : Nat) (s : State) : State × Ans := (s.afterRead key, { len := bytes, body := s.readValue key })

/-- A frame without a body. -/
def askRead (mop index sub count row : Nat) : Ask where
  mop := mop
  index := index
  sub := sub
  count := count
  row := row
  body := []

/-- Bytes of an entry's value, or of a row. -/
def entryBytes (index sub : Nat) : Nat :=
  match entryAt index sub with
  | some e => e.bytes
  | none => 0

/-- MGMT_READ (R335). -/
def execMgmtRead (f : Frame) (index sub : Nat) (s : State) : Result :=
  .next (s.mgmtFrame f (askRead 1 index sub 0 0) (actRead (index * 256 + sub) (entryBytes index sub)))

/-- The crier ring is read: a record with an uncorrectable error is replaced by a LOST record of 1 (17 R353, 06 Table 6.1). -/
def State.readRing (s : State) (row count : Nat) : State :=
  (upTo count).foldl (fun a i =>
    let w := row + i
    let f := a.sramRead 0x0D 8 w 0 0
    if f.2 then
      let t := f.1.stamp 11
      let s1 := f.1.sramWrite 0x0D 8 w
      { s1 with obs := { s1.obs with ring := s1.obs.ring.upd {} w fun x => {
          seq := x.seq, code := 0, hostCopy := false, unit := 0, time := t, detail := 1 } } }
    else f.1) s

/-- WINDOW_READ: whole rows; the blocks of a hoist snapshot beyond the tallies are refused in confidential mode (17 Table 17.3). -/
def actWindowRead (key bytes row count : Nat) (s : State) : State × Ans :=
  if key = 0xB02400 ∧ s.sec.conf = true ∧ snapLinkRow < row + count then (s, refuse 4)
  else
    let s := if key = 0xB03000 then s.readRing row count else s
    (s.wakeForRows key row count, {
    len := count * bytes
    body := (upTo count).foldl (fun a i => a + s.readRow key (row + i) % 256 ^ bytes * 256 ^ (bytes * i)) 0 })

/-- WINDOW_READ (R336). -/
def execWindowRead (f : Frame) (index sub row count : Nat) (s : State) : Result :=
  .next (s.mgmtFrame f (askRead 3 index sub count row) (actWindowRead (index * 256 + sub) (entryBytes index sub) row count))

/-! ### DESCRIBE (R338) -/

/-- Type code. -/
def EntryType.code : EntryType → Nat
  | .uns8 => 1 | .uns16 => 2 | .uns32 => 3 | .uns64 => 4 | .int32 => 7 | .bool => 9 | .bits32 => 10 | .string => 11 | .window => 12

/-- Access code. -/
def Access.code : Access → Nat
  | .const => 0 | .ro => 1 | .rw => 2 | .wo => 3 | .rwp => 4

/-- The 16 bytes of a DESCRIBE response. -/
def Entry.describe (e : Entry) : Nat :=
  e.ty.code + e.access.code * 2 ^ 8 + e.persist * 2 ^ 16 + 3 * 2 ^ 24
    + (if e.ty = .window then e.bytes * 2 ^ 32 + e.rows * 2 ^ 64 else 0)

/-- DESCRIBE of a defined entry. -/
def actDescribe (index sub : Nat) (s : State) : State × Ans :=
  match entryAt index sub with
  | some e => (s, { len := 16, body := e.describe })
  | none => (s, { status := .unsupportedVersion })

/-- DESCRIBE (R338). -/
def execDescribe (f : Frame) (index sub : Nat) (s : State) : Result :=
  .next (s.mgmtFrame f (askRead 5 index sub 0 0) (actDescribe index sub))

/-! ### The profile commands (R340) -/

/-- A pitch is GRANTED or REVOKING. -/
def State.anyPitch (s : State) : Bool := s.pitch.table.any fun q => q.2.phase == .granted || q.2.phase == .revoking

/-- RESULT of a switch that is refused, 0 of one that may start but for its revoke; busy first (04 R89). -/
def State.switchCheck (s : State) (target : Nat) (force : Bool) : Nat :=
  if [PairPhase.syncing, .takingOver, .servingBoth, .relinquishing].contains s.pair.phase then 1
  else if force && ((upTo 16).all fun n => (s.revoke n).valid) then 1
  else if target = s.mgmt.active ∨ (s.anyPitch && !force) = true then 3
  else if (s.profile target).newest.isNone then 9
  else 0

/-- The accepted switch (Table 16.6 step 1): the whole-board revoke if forced, and every barrow and tree stops. -/
def State.beginSwitch (s : State) (target : Nat) (force : Bool) : State :=
  let s1 := if force then (s.startRevoke 2 0 .profile).1 else s
  let s2 := (s1.barrows.map Prod.fst).foldl (fun (a : State) b =>
    if decide (2 ≤ a.barrowState b) && a.headOf b == b then a.abortBarrow b else a) s1
  let s3 := (s2.trees.map Prod.fst).foldl (fun (a : State) t => a.abortTree t) s2
  { s3 with mgmt := { s3.mgmt with switching := some (target, force) } }

/-- Operation 1: a switch. -/
def State.profileSwitch (s : State) : State × Ans :=
  let t := s.reg kProfileTarget
  let force := decide (s.reg kProfileForce = 1)
  match s.switchCheck t force with
  | 0 => ((s.beginSwitch t force).setReg kProfileResult 2, done 2)
  | r + 1 => (s.setReg kProfileResult (r + 1), done (r + 1))

/-- Operation 2: the active profile, with every accepted write, into the target. -/
def State.profileCopy (s : State) : State × Ans :=
  ((s.updProfile (s.reg kProfileTarget) fun p => p.put s.activeData).setReg kProfileResult 0, done 0)

/-- Operation 3: the target is erased; refused for the active profile. -/
def State.profileErase (s : State) : State × Ans :=
  if s.reg kProfileTarget = s.mgmt.active then (s.setReg kProfileResult 3, done 3)
  else ((s.updProfile (s.reg kProfileTarget) fun _ => {}).setReg kProfileResult 0, done 0)

/-- PROFILE_GO: refused with 1 while a switch runs (DEDUCED, log 32); else by PROFILE_OP. -/
def actProfileGo (_ : Nat) (s : State) : State × Ans :=
  if s.mgmt.switching.isSome then (s.setReg kProfileResult 1, done 1)
  else match s.reg kProfileOp with
    | 1 => s.profileSwitch
    | 2 => s.profileCopy
    | _ => s.profileErase

/-- PROFILE_SWITCH (R340): PROFILE_GO with PROFILE_OP 1. -/
def execProfileSwitch (f : Frame) (v : Nat) (s : State) : Result := .next (s.write f kProfileGo 1 v actProfileGo)

/-- PROFILE_COPY (R340): PROFILE_GO with PROFILE_OP 2. -/
def execProfileCopy (f : Frame) (v : Nat) (s : State) : Result := .next (s.write f kProfileGo 1 v actProfileGo)

/-- PROFILE_ERASE (R340): PROFILE_GO with PROFILE_OP 3. -/
def execProfileErase (f : Frame) (v : Nat) (s : State) : Result := .next (s.write f kProfileGo 1 v actProfileGo)

/-- The revoke of a switch is complete, and every barrow and tree is idle (Table 16.6 step 2). -/
def State.switchReady (s : State) : Bool :=
  !(s.revokeEntries.any fun p => p.2.cause == .profile)
    && (!(s.barrows.any fun b => !b.2.queue.isEmpty || b.2.running.isSome) && !(s.trees.any fun t => t.2.phase != .idle))

/-- The switch cycle (Table 16.6 step 4). -/
def State.switchNow (s : State) (target : Nat) (force : Bool) : State :=
  let old := s.mgmt.active
  let l := s.commit.loadProfile (s.profile target).content false
  let s1 := ({ l.1 with mgmt := { l.1.mgmt with active := target, switching := none } } : State).updProfile target fun p =>
    { p with defaulted := l.2, crcFailed := false }
  let st := (s1.profile target).status
  let s2 := (s1.setReg kProfileResult 0).ledger 0x06 0 Actor.board 0
    (old + target * 2 ^ 8 + b2n force * 2 ^ 16 + st * 2 ^ 32)
  s2.crier 9 0x21 target (old + target * 2 ^ 8 + b2n force * 2 ^ 16 + st * 2 ^ 32)

/-- PROFILE_SWITCH_CYCLE (R340). -/
def execProfileSwitchCycle (s : State) : Result :=
  .next (match s.mgmt.switching with
    | some (target, force) => if s.switchReady && s.repair.coresUp then s.switchNow target force else s
    | none => s)

/-! ### Flash (R339) -/

/-- FLASH_COMMIT (R339): every accepted persistent write reaches flash. -/
def execFlashCommit (s : State) : Result := .next (if s.mgmt.dirty = [] then s else s.commit)

/-! ### Writes (R336, R337) -/

/-- A WRITE of any entry by its own meaning (DEDUCED, log 58). -/
def actWrite (key v : Nat) (s : State) : State × Ans :=
  if key = kProfileGo then actProfileGo v s
  else if key = kResetBoard then actResetBoard v s
  else actEntry key v s

/-- MGMT_WRITE (R337): `len` body bytes that hold `v`. -/
def execMgmtWrite (f : Frame) (index sub len v : Nat) (s : State) : Result :=
  .next (s.mgmtFrame f { mop := 2, index := index, sub := sub, count := 0, row := 0, body := leBytes len v }
    (actWrite (index * 256 + sub) (v % 256 ^ len))).resetIfAsked

/-- WINDOW_WRITE (R336). -/
def execWindowWrite (f : Frame) (index sub row : Nat) (rows : List Nat) (s : State) : Result :=
  .next (s.writeWindow f (index * 256 + sub) (entryBytes index sub) row rows (writeWindowRow (index * 256 + sub)))

end Sys2Proof.Machine
end

