-- ==== Sys2Proof/Machine/Requests.lean ====
section
/-! DEFINITION. The commands of transactions (03): packets received (02 R30), the host requests, the reorder stage's release and
time-out, and the responses of the slices. -/

namespace Sys2Proof.Machine

/-! ### Packets (02 R27, R30, R49) -/

/-- The request fields of a second header (03 Table 3.1), as far as a refusal needs them. -/
def reqOfHdr (link : Nat) (p : RxPacket) : Req :=
  let h := p.hdr2.toNat
  { link := link, tc := hdrTc p.hdr, host := bits h 104 12, tag := p.hdr2.extractLsb' 88 16, tenant := bits h 80 8
    epoch := p.hdr2.extractLsb' 72 8, fence := bitAt h 71, strict := bitAt h 70, hreplay := bitAt h 69
    len := bits h 57 7, mod := bits h 52 5, addr := p.hdr2.setWidth 52, payload := p.payload }

/-- Opcodes a host may send, by code. -/
def hostOpcode (c : Nat) : Bool :=
  [0x01, 0x02, 0x03, 0x04, 0x05, 0x06, 0x07, 0x08, 0x10, 0x11, 0x20, 0x28, 0x3F].contains c

/-- The opcode that no command of its own stands for: one that only the board sends, or a reserved one (03 R54). -/
def ReqOp.ofCode (c : Nat) : ReqOp :=
  if c = 0x18 then .snoop else if c = 0x30 then .crierNotify else if c = 0x38 then .push else .reserved c

/-- What an accepted packet is passed up to (02 Table 2.6; 13 R270, R286): the transaction or frame it carries is a command
of its own (DESIGN CHOICE, log 21); opcodes that no command stands for are answered here. -/
def State.passUp (s : State) (n : Nat) (p : RxPacket) : State :=
  let h := p.hdr2.toNat
  match hdrLtype p.hdr with
  | 1 =>
    if bitAt h 119 = false ∧ hostOpcode (bits h 120 8) = false then s.hostRequest (ReqOp.ofCode (bits h 120 8)) (reqOfHdr n p) else s
  | 2 => s
  | 3 =>
    let k := bits h 124 4
    let hal := s.halyardLinks.contains n
    if !hal && !s.isMoveLink n then s.count .board 0 13
    else if hal && decide (10 ≤ k ∧ k ≤ 12) then s.count .board 0 13
    else if k = 0 ∨ 13 ≤ k then s.count .board 0 10
    else s
  | _ => s.count .link n 7

/-- LINK_PACKET_RECEIVE (R27, R30, Table 2.6): a header whose HCRC fails or whose PAYLOAD_UNITS exceeds 64 ends sync; a bad CRC-32,
or bytes that do not make up the length the header gives (R25), drop the packet whole; its ACK applies; the expected one is accepted and passed up, one ahead is dropped, one behind is acknowledged again. -/
def execLinkPacketReceive (link : Nat) (p : RxPacket) (s : State) : Result :=
  .next (
    let l := s.link link
    if !l.isUp || !l.inSync then s
    else if !hdrOk p.hdr || decide (64 < hdrUnits p.hdr) then (s.updLink link fun l => { l with inSync := false }).count .link link 3
    else if !packetCrcOk p || p.payload.length != hdrUnits p.hdr then s.count .link link 2
    else
      let s1 := s.applyAck link (hdrAck p.hdr)
      let d := (hdrSeq p.hdr - l.rxNext).toNat
      if d = 0 then
        ((s1.updLink link fun l => { l with rxNext := l.rxNext + 1 }).count .link link 0).passUp link p
      else if d < 32768 then s1.count .link link 4
      else (s1.count .link link 5).queueCtl link ctAckOnly 0)

/-! ### Host requests -/

/-- READ (R54, R55). -/
def execRead (r : Req) (s : State) : Result := .next (s.hostRequest .read r)

/-- WRITE (R18, R54). -/
def execWrite (r : Req) (s : State) : Result := .next (s.hostRequest .write r)

/-- WRITE_MASKED (R54). -/
def execWriteMasked (r : Req) (s : State) : Result := .next (s.hostRequest .writeMasked r)

/-- ATOMIC (R54). -/
def execAtomic (r : Req) (s : State) : Result := .next (s.hostRequest .atomic r)

/-- REDUCE_WRITE (08 R170, 09 R186). -/
def execReduceWrite (r : Req) (s : State) : Result := .next (s.hostRequest .reduceWrite r)

/-- FLUSH (07 R144, R152). -/
def execFlush (r : Req) (s : State) : Result := .next (s.hostRequest .flush r)

/-- INVALIDATE (07 R144, R152). -/
def execInvalidate (r : Req) (s : State) : Result := .next (s.hostRequest .invalidate r)

/-- HINT (05 R95). -/
def execHint (r : Req) (s : State) : Result := .next (s.hostRequest .hint r)

/-- COH_READ (07 R142). -/
def execCohRead (r : Req) (s : State) : Result := .next (s.hostRequest .cohRead r)

/-- COH_WRITEBACK (07 R143). -/
def execCohWriteback (r : Req) (s : State) : Result := .next (s.hostRequest .cohWriteback r)

/-- DOORBELL MOD 0 (08 R159). -/
def execDoorbellLaunch (r : Req) (s : State) : Result :=
  .next (if r.mod = 1 then s else s.hostRequest .doorbell r)

/-- DOORBELL MOD 1 (08 R159). -/
def execDoorbellStandingParams (r : Req) (s : State) : Result :=
  .next (if r.mod = 1 then s.hostRequest .doorbell r else s)

/-- MARK (10 R216). -/
def execMark (r : Req) (s : State) : Result := .next (s.hostRequest .mark r)

/-- NOP (Table 3.3). -/
def execNop (r : Req) (s : State) : Result := .next (s.hostRequest .nop r)

/-! ### The reorder stage -/

/-- The earliest held packet that need not wait any more. -/
def State.nextHeld (s : State) (st : Nat) : Option (ReqOp × Req) :=
  let x := s.stall st
  let ok := x.held.filter fun h => !s.mustWait st h.2
  match (ok.map fun h => (h.2.tag - x.next + 32768).toNat).min? with
  | none => none
  | some m => ok.find? fun h => (h.2.tag - x.next + 32768).toNat == m

/-- Release held packets in tag order while their conditions hold (R59). -/
def State.release (st : Nat) : Nat → State → State
  | 0, s => s
  | n + 1, s =>
    match s.nextHeld st with
    | some (op, r) =>
      State.release st n ((s.updStall st fun x => { x with held := x.held.filter fun h => h.2.tag != r.tag }).enter st op r)
    | none => s

/-- REORDER_RELEASE (R59, R60). -/
def execReorderRelease (stall : Nat) (s : State) : Result := .next (s.release stall (s.stall stall).held.length)

/-- REORDER_TIMEOUT_EXPIRY (R62): with a later tag arrived and N unchanged, tag N is skipped: its slot takes TIMEOUT, N
advances, held packets go on, and REORDER_SKIP is raised. -/
def execReorderTimeoutExpiry (stall : Nat) (s : State) : Result :=
  .next (
    let x := s.stall stall
    if x.phase = .attached ∧ x.ahead ≠ [] then
      let s1 := (s.recordTag stall x.next 0 .timeout 0).updStall stall fun x => x.arrive x.next
      let s2 := (s1.count .stall stall 37).release stall x.held.length
      s2.crier 8 0x07 stall x.next.toNat [x.host]
    else s)

/-! ### Responses of the slices (R65, R67) -/

/-- LOAD of a slice's response: 15 with RETRY_BUSY of a write that a snapshot keeps out (08 R177). -/
def State.trkLoad (s : State) (slice : Nat) (t : Trk) : Nat :=
  if t.status == .retryBusy && t.op.writeClass then 15 else s.loadFor slice t.stall

/-- A finished request's entry is read: with an uncorrectable error the request answers as in R12 (06 Table 6.1). -/
def State.readTrk (s : State) (slice : Nat) (t : Trk) : State :=
  let f := s.sramRead 0x08 slice (t.id % 16384) t.req.host t.req.tenant
  if f.2 then (f.1.sramWrite 0x08 slice (t.id % 16384)).abort slice t.id (t.op.abortStatus .uncorrectable) else f.1

/-- The response of a finished request into the egress of its slice, or held where its host has no live link, or discarded (04 R73). -/
def State.respond (s : State) (slice id : Nat) : State :=
  match (s.slice slice).trk id with
  | none => s
  | some t =>
    if s.silenced t.stall then s.discardTrk t.stall slice id
    else if s.liveLinks t.stall = [] then
      s.updSlice slice fun x => x.updTrk id fun t => { t with stage := .heldResp }
    else
      (s.updSlice slice fun x => x.updTrk id fun t => { t with stage := .egress }).egressPush slice {
        stall := t.stall, tc := t.req.tc, origin := .slice slice id, msg := .resp (t.resp (s.trkLoad slice t)) }

/-- SLICE_RESPONSE_READY (R65, R18, 07 R152, 13 R273): a finished request, its writes acknowledged by the partner and its
waits over, is answered: into the egress of its slice, held where its host has no live link, discarded where the host is
fenced, or was before its detach (04 R73). -/
def execSliceResponseReady (slice id : Nat) (s : State) : Result :=
  .next (match (s.slice slice).trk id with
  | none => s
  | some t =>
    if t.stage ≠ .done ∨ s.halCovered t.hseq = false ∨ s.waitsOver t = false then s
    else (s.readTrk slice t).respond slice id)

/-- RESPONSE_HOLD_EXPIRY (R67): a held response is discarded, its entry freed, and the loss counted (DESIGN CHOICE, log 7). -/
def execResponseHoldExpiry (slice id : Nat) (s : State) : Result :=
  .next (match (s.slice slice).trk id with
  | none => s
  | some t =>
    if t.stage = .heldResp then s.discardTrk t.stall slice id else s)

end Sys2Proof.Machine
end

