-- ==== Sys2Proof/Machine/Dispatch.lean ====
section
/-! DEFINITION. One arm for each command: a direct call of its meaning. -/

namespace Sys2Proof.Machine

def exec (i : Instr) (s : State) : Host.Outcome State Fault Refusal :=
  match i with
  | .linkPacketReceive link p => Sys2Proof.Machine.execLinkPacketReceive link p s
  | .ackOnly link ctype c => Sys2Proof.Machine.execAckOnly link ctype c s
  | .align link c => Sys2Proof.Machine.execAlign link c s
  | .hello link c => Sys2Proof.Machine.execHello link c s
  | .laneReq link c => Sys2Proof.Machine.execLaneReq link c s
  | .laneAccept link c => Sys2Proof.Machine.execLaneAccept link c s
  | .laneSwitch link c => Sys2Proof.Machine.execLaneSwitch link c s
  | .timeReq link c => Sys2Proof.Machine.execTimeReq link c s
  | .timeResp link c => Sys2Proof.Machine.execTimeResp link c s
  | .linkDown link c => Sys2Proof.Machine.execLinkDown link c s
  | .ackTimeoutExpiry link => Sys2Proof.Machine.execAckTimeoutExpiry link s
  | .replayLimitReached link => Sys2Proof.Machine.execReplayLimitReached link s
  | .linkUp link => Sys2Proof.Machine.execLinkUp link s
  | .laneChangeAbandon link => Sys2Proof.Machine.execLaneChangeAbandon link s
  | .laneDropBerExceeded link lane errors => Sys2Proof.Machine.execLaneDropBerExceeded link lane errors s
  | .laneSignalLoss link lane => Sys2Proof.Machine.execLaneSignalLoss link lane s
  | .emergencyDropTimeout link => Sys2Proof.Machine.execEmergencyDropTimeout link s
  | .laneAddTrained link lane => Sys2Proof.Machine.execLaneAddTrained link lane s
  | .timeExchInitiate => Sys2Proof.Machine.execTimeExchInitiate s
  | .timeExchDiscard link => Sys2Proof.Machine.execTimeExchDiscard link s
  | .codewordLockLoss link => Sys2Proof.Machine.execCodewordLockLoss link s
  | .linkRetrain link => Sys2Proof.Machine.execLinkRetrain link s
  | .flapHoldExpiry link => Sys2Proof.Machine.execFlapHoldExpiry link s
  | .linkEnableWrite f v => Sys2Proof.Machine.execLinkEnableWrite f v s
  | .linkVersionsAllowedWrite f link v => Sys2Proof.Machine.execLinkVersionsAllowedWrite f link v s
  | .read r => Sys2Proof.Machine.execRead r s
  | .write r => Sys2Proof.Machine.execWrite r s
  | .writeMasked r => Sys2Proof.Machine.execWriteMasked r s
  | .atomic r => Sys2Proof.Machine.execAtomic r s
  | .reduceWrite r => Sys2Proof.Machine.execReduceWrite r s
  | .flush r => Sys2Proof.Machine.execFlush r s
  | .invalidate r => Sys2Proof.Machine.execInvalidate r s
  | .hint r => Sys2Proof.Machine.execHint r s
  | .cohRead r => Sys2Proof.Machine.execCohRead r s
  | .cohWriteback r => Sys2Proof.Machine.execCohWriteback r s
  | .doorbellLaunch r => Sys2Proof.Machine.execDoorbellLaunch r s
  | .doorbellStandingParams r => Sys2Proof.Machine.execDoorbellStandingParams r s
  | .mark r => Sys2Proof.Machine.execMark r s
  | .nop r => Sys2Proof.Machine.execNop r s
  | .snoopResponse h => Sys2Proof.Machine.execSnoopResponse h s
  | .snoopRetry tag => Sys2Proof.Machine.execSnoopRetry tag s
  | .snoopTimeout tag => Sys2Proof.Machine.execSnoopTimeout tag s
  | .cohHoldExpiry slice entry => Sys2Proof.Machine.execCohHoldExpiry slice entry s
  | .crierNotifyResponse h => Sys2Proof.Machine.execCrierNotifyResponse h s
  | .pushResponse h => Sys2Proof.Machine.execPushResponse h s
  | .reorderRelease stall => Sys2Proof.Machine.execReorderRelease stall s
  | .reorderTimeoutExpiry stall => Sys2Proof.Machine.execReorderTimeoutExpiry stall s
  | .sliceResponseReady slice id => Sys2Proof.Machine.execSliceResponseReady slice id s
  | .responseHoldExpiry slice id => Sys2Proof.Machine.execResponseHoldExpiry slice id s
  | .attach f v => Sys2Proof.Machine.execAttach f v s
  | .detach f stall => Sys2Proof.Machine.execDetach f stall s
  | .detachComplete stall => Sys2Proof.Machine.execDetachComplete stall s
  | .fence f stall => Sys2Proof.Machine.execFence f stall s
  | .hostDead stall => Sys2Proof.Machine.execHostDead stall s
  | .stallTableWrite f row rows => Sys2Proof.Machine.execStallTableWrite f row rows s
  | .boardNumberWrite f v => Sys2Proof.Machine.execBoardNumberWrite f v s
  | .grant f v => Sys2Proof.Machine.execGrant f v s
  | .grantComplete => Sys2Proof.Machine.execGrantComplete s
  | .revoke f v => Sys2Proof.Machine.execRevoke f v s
  | .revokeDeadlineExpiry entry => Sys2Proof.Machine.execRevokeDeadlineExpiry entry s
  | .revokeDone entry => Sys2Proof.Machine.execRevokeDone entry s
  | .clear f v => Sys2Proof.Machine.execClear f v s
  | .clearDone => Sys2Proof.Machine.execClearDone s
  | .aclTableWrite f row rows => Sys2Proof.Machine.execAclTableWrite f row rows s
  | .migrateMoveStart slice => Sys2Proof.Machine.execMigrateMoveStart slice s
  | .fillComplete slice frame => Sys2Proof.Machine.execFillComplete slice frame s
  | .evictionComplete slice frame => Sys2Proof.Machine.execEvictionComplete slice frame s
  | .moveAbandon slice frame => Sys2Proof.Machine.execMoveAbandon slice frame s
  | .dramCommandIssue channel => Sys2Proof.Machine.execDramCommandIssue channel s
  | .pageIdleClose channel bank => Sys2Proof.Machine.execPageIdleClose channel bank s
  | .refreshInterval hbm unit => Sys2Proof.Machine.execRefreshInterval hbm unit s
  | .scrubRead near unit again => Sys2Proof.Machine.execScrubRead near unit again s
  | .scrubPeriodEnd near unit => Sys2Proof.Machine.execScrubPeriodEnd near unit s
  | .rowRepairStart channel => Sys2Proof.Machine.execRowRepairStart channel s
  | .rowRepairDone channel => Sys2Proof.Machine.execRowRepairDone channel s
  | .pitchEntryRewrite granule => Sys2Proof.Machine.execPitchEntryRewrite granule s
  | .errorTableWrite f table row rows => Sys2Proof.Machine.execErrorTableWrite f table row rows s
  | .checkerEnableWrite f v => Sys2Proof.Machine.execCheckerEnableWrite f v s
  | .checkerRawWrite f => Sys2Proof.Machine.execCheckerRawWrite f s
  | .checkerRawRead f => Sys2Proof.Machine.execCheckerRawRead f s
  | .orphanRelease f v => Sys2Proof.Machine.execOrphanRelease f v s
  | .orphanReleaseDone => Sys2Proof.Machine.execOrphanReleaseDone s
  | .barrowTableWrite f row rows => Sys2Proof.Machine.execBarrowTableWrite f row rows s
  | .barrowAbort f v => Sys2Proof.Machine.execBarrowAbort f v s
  | .programStoreWrite f slice row rows => Sys2Proof.Machine.execProgramStoreWrite f slice row rows s
  | .triggerLaunch barrow => Sys2Proof.Machine.execTriggerLaunch barrow s
  | .launchStart barrow => Sys2Proof.Machine.execLaunchStart barrow s
  | .descEnd barrow slice => Sys2Proof.Machine.execDescEnd barrow slice s
  | .descFill barrow slice => Sys2Proof.Machine.execDescFill barrow slice s
  | .descCopy barrow slice => Sys2Proof.Machine.execDescCopy barrow slice s
  | .descCompare barrow slice => Sys2Proof.Machine.execDescCompare barrow slice s
  | .descDigest barrow slice => Sys2Proof.Machine.execDescDigest barrow slice s
  | .reduceArm barrow slice => Sys2Proof.Machine.execReduceArm barrow slice s
  | .reduceAdd barrow slice => Sys2Proof.Machine.execReduceAdd barrow slice s
  | .reduceFinalise barrow slice => Sys2Proof.Machine.execReduceFinalise barrow slice s
  | .reduceFinaliseNorm barrow slice => Sys2Proof.Machine.execReduceFinaliseNorm barrow slice s
  | .reduceRelease barrow slice => Sys2Proof.Machine.execReduceRelease barrow slice s
  | .descCast barrow slice => Sys2Proof.Machine.execDescCast barrow slice s
  | .scaleAdd barrow slice => Sys2Proof.Machine.execScaleAdd barrow slice s
  | .updateSgd barrow slice => Sys2Proof.Machine.execUpdateSgd barrow slice s
  | .updateAdam barrow slice => Sys2Proof.Machine.execUpdateAdam barrow slice s
  | .updateClippedSgd barrow slice => Sys2Proof.Machine.execUpdateClippedSgd barrow slice s
  | .updateClippedAdam barrow slice => Sys2Proof.Machine.execUpdateClippedAdam barrow slice s
  | .descSync barrow slice => Sys2Proof.Machine.execDescSync barrow slice s
  | .syncComplete barrow => Sys2Proof.Machine.execSyncComplete barrow s
  | .descBudgetExceeded barrow => Sys2Proof.Machine.execDescBudgetExceeded barrow s
  | .launchComplete barrow => Sys2Proof.Machine.execLaunchComplete barrow s
  | .ptpSync m => Sys2Proof.Machine.execPtpSync m s
  | .ptpFollowUp m => Sys2Proof.Machine.execPtpFollowUp m s
  | .ptpDelayResp m => Sys2Proof.Machine.execPtpDelayResp m s
  | .ptpAnnounce m => Sys2Proof.Machine.execPtpAnnounce m s
  | .timeHoldover => Sys2Proof.Machine.execTimeHoldover s
  | .markApplyAt => Sys2Proof.Machine.execMarkApplyAt s
  | .guardBandPreview => Sys2Proof.Machine.execGuardBandPreview s
  | .markLoss => Sys2Proof.Machine.execMarkLoss s
  | .stepSet f v => Sys2Proof.Machine.execStepSet f v s
  | .scheduleTableWrite f row rows => Sys2Proof.Machine.execScheduleTableWrite f row rows s
  | .buntGo f tree => Sys2Proof.Machine.execBuntGo f tree s
  | .buntingStart tree => Sys2Proof.Machine.execBuntingStart tree s
  | .buntingPageSend tree slice => Sys2Proof.Machine.execBuntingPageSend tree slice s
  | .pushRetry tag => Sys2Proof.Machine.execPushRetry tag s
  | .buntTimeoutExpiry tag => Sys2Proof.Machine.execBuntTimeoutExpiry tag s
  | .catchupWaitExpiry tree slice stall => Sys2Proof.Machine.execCatchupWaitExpiry tree slice stall s
  | .catchupPass tree slice => Sys2Proof.Machine.execCatchupPass tree slice s
  | .buntingComplete tree => Sys2Proof.Machine.execBuntingComplete tree s
  | .buntAbort f tree => Sys2Proof.Machine.execBuntAbort f tree s
  | .buntingTableWrite f members row rows => Sys2Proof.Machine.execBuntingTableWrite f members row rows s
  | .shaperTableWrite f row rows => Sys2Proof.Machine.execShaperTableWrite f row rows s
  | .wheelSlotDue slice => Sys2Proof.Machine.execWheelSlotDue slice s
  | .flowSend slice => Sys2Proof.Machine.execFlowSend slice s
  | .activeGateListWrite f v => Sys2Proof.Machine.execActiveGateListWrite f v s
  | .gateListsWrite f row rows => Sys2Proof.Machine.execGateListsWrite f row rows s
  | .fbOffsetWrite f v => Sys2Proof.Machine.execFbOffsetWrite f v s
  | .fbCommit f v => Sys2Proof.Machine.execFbCommit f v s
  | .fallbackGateEntry => Sys2Proof.Machine.execFallbackGateEntry s
  | .pipelineGrant slice => Sys2Proof.Machine.execPipelineGrant slice s
  | .priorityPromotion slice level => Sys2Proof.Machine.execPriorityPromotion slice level s
  | .crossbarGrant output port => Sys2Proof.Machine.execCrossbarGrant output port s
  | .mirrorWrite p => Sys2Proof.Machine.execMirrorWrite p s
  | .control p => Sys2Proof.Machine.execControl p s
  | .epochData p => Sys2Proof.Machine.execEpochData p s
  | .epochEnd p => Sys2Proof.Machine.execEpochEnd p s
  | .mirrorAck p => Sys2Proof.Machine.execMirrorAck p s
  | .heartbeat p => Sys2Proof.Machine.execHeartbeat p s
  | .relinquish p => Sys2Proof.Machine.execRelinquish p s
  | .streamEnd p => Sys2Proof.Machine.execStreamEnd p s
  | .taken p => Sys2Proof.Machine.execTaken p s
  | .moveWrite p => Sys2Proof.Machine.execMoveWrite p s
  | .moveAck p => Sys2Proof.Machine.execMoveAck p s
  | .moveEnd p => Sys2Proof.Machine.execMoveEnd p s
  | .mirrorEpochEnd => Sys2Proof.Machine.execMirrorEpochEnd s
  | .heartbeatSend => Sys2Proof.Machine.execHeartbeatSend s
  | .mirrorAckSend => Sys2Proof.Machine.execMirrorAckSend s
  | .relinquishRepeat => Sys2Proof.Machine.execRelinquishRepeat s
  | .takenRepeat => Sys2Proof.Machine.execTakenRepeat s
  | .moveAckSend => Sys2Proof.Machine.execMoveAckSend s
  | .moveWriteSend => Sys2Proof.Machine.execMoveWriteSend s
  | .pairCommandRelinquish f => Sys2Proof.Machine.execPairCommandRelinquish f s
  | .pairCommandTakeover f => Sys2Proof.Machine.execPairCommandTakeover f s
  | .pairCommandRejoin f => Sys2Proof.Machine.execPairCommandRejoin f s
  | .relinquishDeadline => Sys2Proof.Machine.execRelinquishDeadline s
  | .streamEndSend => Sys2Proof.Machine.execStreamEndSend s
  | .pairPresentNHigh => Sys2Proof.Machine.execPairPresentNHigh s
  | .takeoverWaitEnd => Sys2Proof.Machine.execTakeoverWaitEnd s
  | .takeoverActivated => Sys2Proof.Machine.execTakeoverActivated s
  | .pairDecideExpiry => Sys2Proof.Machine.execPairDecideExpiry s
  | .resyncGranuleDone => Sys2Proof.Machine.execResyncGranuleDone s
  | .partnerFence f stall => Sys2Proof.Machine.execPartnerFence f stall s
  | .partnerDetach f stall => Sys2Proof.Machine.execPartnerDetach f stall s
  | .moveInOpen f => Sys2Proof.Machine.execMoveInOpen f s
  | .moveInCancel f => Sys2Proof.Machine.execMoveInCancel f s
  | .moveOutStart f => Sys2Proof.Machine.execMoveOutStart f s
  | .moveOutStop f => Sys2Proof.Machine.execMoveOutStop f s
  | .moveProgressTimeout => Sys2Proof.Machine.execMoveProgressTimeout s
  | .moveLinksWrite f v => Sys2Proof.Machine.execMoveLinksWrite f v s
  | .laneLoopbackDone link lane pass => Sys2Proof.Machine.execLaneLoopbackDone link lane pass s
  | .sliceFault slice detail => Sys2Proof.Machine.execSliceFault slice detail s
  | .sliceFold => Sys2Proof.Machine.execSliceFold s
  | .channelFault channel detail => Sys2Proof.Machine.execChannelFault channel detail s
  | .channelFold => Sys2Proof.Machine.execChannelFold s
  | .pipelineHang slice => Sys2Proof.Machine.execPipelineHang slice s
  | .retireSlice f v => Sys2Proof.Machine.execRetireSlice f v s
  | .retireChannel f v => Sys2Proof.Machine.execRetireChannel f v s
  | .retireClear f v => Sys2Proof.Machine.execRetireClear f v s
  | .controlWatchdog => Sys2Proof.Machine.execControlWatchdog s
  | .hostPortFault => Sys2Proof.Machine.execHostPortFault s
  | .getVersion m => Sys2Proof.Machine.execGetVersion m s
  | .getCapabilities m => Sys2Proof.Machine.execGetCapabilities m s
  | .negotiateAlgorithms m => Sys2Proof.Machine.execNegotiateAlgorithms m s
  | .getDigests m => Sys2Proof.Machine.execGetDigests m s
  | .getCertificate m => Sys2Proof.Machine.execGetCertificate m s
  | .challenge m => Sys2Proof.Machine.execChallenge m s
  | .getMeasurements m => Sys2Proof.Machine.execGetMeasurements m s
  | .keyExchange m => Sys2Proof.Machine.execKeyExchange m s
  | .finish m => Sys2Proof.Machine.execFinish m s
  | .spdmHeartbeat m => Sys2Proof.Machine.execSpdmHeartbeat m s
  | .keyUpdate m => Sys2Proof.Machine.execKeyUpdate m s
  | .endSession m => Sys2Proof.Machine.execEndSession m s
  | .encapsulatedRequest m => Sys2Proof.Machine.execEncapsulatedRequest m s
  | .keyLoad m slot tenant epoch key1 key2 => Sys2Proof.Machine.execKeyLoad m slot tenant epoch key1 key2 s
  | .keyAssign f v => Sys2Proof.Machine.execKeyAssign f v s
  | .keyRetire f v => Sys2Proof.Machine.execKeyRetire f v s
  | .keyGenerate f v => Sys2Proof.Machine.execKeyGenerate f v s
  | .importOn f v => Sys2Proof.Machine.execImportOn f v s
  | .importOff f v => Sys2Proof.Machine.execImportOff f v s
  | .keyDrainDone slot => Sys2Proof.Machine.execKeyDrainDone slot s
  | .keyRetireDeadlineExpiry slot => Sys2Proof.Machine.execKeyRetireDeadlineExpiry slot s
  | .tenantAdmit f v => Sys2Proof.Machine.execTenantAdmit f v s
  | .tenantRemove f v => Sys2Proof.Machine.execTenantRemove f v s
  | .removeClearStart tenant => Sys2Proof.Machine.execRemoveClearStart tenant s
  | .tenantRemoveDone tenant => Sys2Proof.Machine.execTenantRemoveDone tenant s
  | .tenantTableWrite f row rows => Sys2Proof.Machine.execTenantTableWrite f row rows s
  | .confModeWrite f v => Sys2Proof.Machine.execConfModeWrite f v s
  | .ledgerSign => Sys2Proof.Machine.execLedgerSign s
  | .ledgerAckedWrite f v => Sys2Proof.Machine.execLedgerAckedWrite f v s
  | .mgmtRead f index sub => Sys2Proof.Machine.execMgmtRead f index sub s
  | .mgmtWrite f index sub len v => Sys2Proof.Machine.execMgmtWrite f index sub len v s
  | .windowRead f index sub row count => Sys2Proof.Machine.execWindowRead f index sub row count s
  | .windowWrite f index sub row rows => Sys2Proof.Machine.execWindowWrite f index sub row rows s
  | .describe f index sub => Sys2Proof.Machine.execDescribe f index sub s
  | .principalTableWrite f row rows => Sys2Proof.Machine.execPrincipalTableWrite f row rows s
  | .flashCommit => Sys2Proof.Machine.execFlashCommit s
  | .profileSwitch f v => Sys2Proof.Machine.execProfileSwitch f v s
  | .profileCopy f v => Sys2Proof.Machine.execProfileCopy f v s
  | .profileErase f v => Sys2Proof.Machine.execProfileErase f v s
  | .profileSwitchCycle => Sys2Proof.Machine.execProfileSwitchCycle s
  | .tallyClear f v => Sys2Proof.Machine.execTallyClear f v s
  | .hoistNow f v => Sys2Proof.Machine.execHoistNow f v s
  | .hoistIn => Sys2Proof.Machine.execHoistIn s
  | .hoistRelease f v => Sys2Proof.Machine.execHoistRelease f v s
  | .crierNotifySend stall => Sys2Proof.Machine.execCrierNotifySend stall s
  | .crierNotifyTimeout tag => Sys2Proof.Machine.execCrierNotifyTimeout tag s
  | .crierAckedWrite f v => Sys2Proof.Machine.execCrierAckedWrite f v s
  | .traceCtrlWrite f v => Sys2Proof.Machine.execTraceCtrlWrite f v s
  | .traceRecord core target kind => Sys2Proof.Machine.execTraceRecord core target kind s
  | .powerOn => Sys2Proof.Machine.execPowerOn s
  | .powerFailWarning => Sys2Proof.Machine.execPowerFailWarning s
  | .powerRestore => Sys2Proof.Machine.execPowerRestore s
  | .powerOff => Sys2Proof.Machine.execPowerOff s
  | .railFault rail => Sys2Proof.Machine.execRailFault rail s
  | .pmbusPoll rail faulted mv da => Sys2Proof.Machine.execPmbusPoll rail faulted mv da s
  | .voutAck => Sys2Proof.Machine.execVoutAck s
  | .pmbusAckTimeout => Sys2Proof.Machine.execPmbusAckTimeout s
  | .efuseTrip socket => Sys2Proof.Machine.execEfuseTrip socket s
  | .powerTargetWrite f v => Sys2Proof.Machine.execPowerTargetWrite f v s
  | .clockRampDone unit => Sys2Proof.Machine.execClockRampDone unit s
  | .sliceParkEntry slice => Sys2Proof.Machine.execSliceParkEntry slice s
  | .laneParkWrite f link v => Sys2Proof.Machine.execLaneParkWrite f link v s
  | .laneUnparkCheckDone link => Sys2Proof.Machine.execLaneUnparkCheckDone link s
  | .refSelectWrite f v => Sys2Proof.Machine.execRefSelectWrite f v s
  | .refclkFail ref => Sys2Proof.Machine.execRefclkFail ref s
  | .refHoldoffExpiry ref => Sys2Proof.Machine.execRefHoldoffExpiry ref s
  | .corePllLock => Sys2Proof.Machine.execCorePllLock s
  | .freqGo f v => Sys2Proof.Machine.execFreqGo f v s
  | .freqMeasureDone count => Sys2Proof.Machine.execFreqMeasureDone count s
  | .resetN => Sys2Proof.Machine.execResetN s
  | .resetBoard f v => Sys2Proof.Machine.execResetBoard f v s
  | .resetRelease profileSel confModeN => Sys2Proof.Machine.execResetRelease profileSel confModeN s
  | .selfTestDone failed => Sys2Proof.Machine.execSelfTestDone failed s
  | .bootSlotVerifyDone sig0 sig1 => Sys2Proof.Machine.execBootSlotVerifyDone sig0 sig1 s
  | .firmwareBringUpDone ledgerOk => Sys2Proof.Machine.execFirmwareBringUpDone ledgerOk s
  | .memoryInitDone => Sys2Proof.Machine.execMemoryInitDone s
  | .hardRepairDone => Sys2Proof.Machine.execHardRepairDone s
  | .memoryTrainingDone results hbm => Sys2Proof.Machine.execMemoryTrainingDone results hbm s
  | .memoryClearDone => Sys2Proof.Machine.execMemoryClearDone s
  | .fwImageWrite f row rows => Sys2Proof.Machine.execFwImageWrite f row rows s
  | .fwGo f v => Sys2Proof.Machine.execFwGo f v s
  | .fwVerifyDone sig => Sys2Proof.Machine.execFwVerifyDone sig s
  | .thermalPoll die hbm dimm hot85 => Sys2Proof.Machine.execThermalPoll die hbm dimm hot85 s
  | .thermalFault => Sys2Proof.Machine.execThermalFault s
  | .checkerRawDone => Sys2Proof.Machine.execCheckerRawDone s
  | .controlCoresHalt => Sys2Proof.Machine.execControlCoresHalt s
  | .controlCoresReturn => Sys2Proof.Machine.execControlCoresReturn s

end Sys2Proof.Machine
end

