-- ==== Sys2Proof/Machine/Flags.lean ====
section
/-! DEFINITION. The levels that the board drives on its output pins, as functions of the state (17 R351, R355; 21 R408). -/

namespace Sys2Proof.Machine

/-- ALERT_N is low: some record above CRIER_ACKED has a CODE whose bit is set in ALERT_MASK (R355). -/
def State.alertLow (s : State) : Bool :=
  s.obs.ring.any fun p => decide (s.reg kCrierAcked < p.2.seq) && bitAt (s.reg kAlertMask) p.2.code

/-- HOIST_OUT is high, for 100 ns from each latch edge and each missed trigger (R351). -/
def State.hoistOutHigh (s : State) : Bool := decide (s.time.ticks < s.obs.hoistOutUntil)

/-- PAIR_DRIVE_N is low, from reset release to the next reset or to RELINQUISHED (21 R408). -/
def State.pairDriveLow (s : State) : Bool := !s.boot.pairDriveReleased

end Sys2Proof.Machine
end

