-- ==== Sys2Proof/Machine/Tick.lean ====
section
/-! DEFINITION. One tick of the 1 GHz always-on clock, which passes while no command waits (DESIGN CHOICE, log 6): the counter counts, the links'
control slots and packet bytes pass, and a grant writes granules. -/

namespace Sys2Proof.Machine

/-- Lanes that carry blocks: all four until a width is set. -/
def LinkSt.wireLanes (l : LinkSt) : Nat := if l.mask = 0 then 4 else popCount l.mask.toNat 4

/-- A control slot passes: one block slot in 25, every 8 ns at ×4 (02 R23, R31). -/
def LinkSt.ctlSlot (l : LinkSt) (now : Nat) : Bool := now % (32 / l.wireLanes) == 0

/-- The board's HELLO (R38, R39): VERSIONS, CAPS, PARTNER_KIND 2, BOARD_NUMBER, the lanes that passed training and SEEN. -/
def LinkSt.helloOut (l : LinkSt) (board : Nat) : CtlOut :=
  let v := l.allowedAtTrain.toNat &&& waxonVersions
  { ctype := ctHello
    body := mkBody [(1, v), (4, ourCaps v), (1, 2), (2, board), (1, l.passed.toNat), (1, b2n l.gotHello)] }

/-- ALIGN: bytes 0x5A and 0xC3 alternating (02 Table 2.5). -/
def alignOut : CtlOut := { ctype := ctAlign, body := mkBody ((upTo 11).map fun _ => (2, 0x5AC3)) }

/-- Slot 0 of a superframe in 256: every 1,024th control slot (R23, Table 2.5). -/
def LinkSt.alignSlot (l : LinkSt) (now : Nat) : Bool := now % (1024 * (32 / l.wireLanes)) == 0

/-- The board's own lane change that the partner has not answered (R42, R45). -/
def LinkSt.asking (l : LinkSt) : Option LaneChange :=
  l.change.filter fun ch => ch.mine && (!ch.accepted && (!ch.txSwitched && !ch.rxSwitched))

/-- The control block that the next control slot carries, by 02 Table 2.5: LINK_DOWN for 1 µs after a link-down (R48), none on a
link that is down and not training, ALIGN in its slot, then a block that waits, LANE_REQ until it is answered (R42, R45), HELLO in
training and while held without a common version (R38, R41), and ACK_ONLY (DESIGN CHOICE, log 67). -/
def LinkSt.nextCtl (l : LinkSt) (board now : Nat) : Option CtlOut :=
  let hello := l.phase == .training && !l.retrain || l.phase == .held && l.hold == .noVersion
  if now < l.downUntil then some { ctype := ctLinkDown, body := mkBody [(1, l.downReason)] }
  else if !l.isUp && !hello then none
  else if l.alignSlot now then some alignOut
  else match l.ctlOut, l.asking with
    | o :: _, _ => some o
    | [], some ch =>
      some { ctype := ctLaneReq, body := mkBody [(1, ch.reqId.toNat), (1, ch.mask.toNat), (1, b2n ch.emergency)] }
    | [], none => some (if hello then l.helloOut board else { ctype := ctAckOnly, body := 0 })

/-- T1 of a TIME_REQ and T3 of a TIME_RESP mark the moment the block leaves (R47). -/
def LinkSt.stamped (l : LinkSt) (o : CtlOut) (ao : Nat) : LinkSt × CtlOut :=
  if o.ctype = ctTimeReq then
    ({ l with exch := l.exch.map fun e => (e.1, BitVec.ofNat 80 (aoStamp ao)) },
      { o with body := mkBody [(2, bodyField o.body 0 2), (10, aoStamp ao)] })
  else if o.ctype = ctTimeResp then
    (l, { o with body := mkBody [(2, bodyField o.body 0 2), (10, bodyField o.body 2 10), (10, aoStamp ao)] })
  else (l, o)

/-- The link after a control slot: the block sent leaves its queue, with the current ACK (R31); a HELLO sent with SEEN = 1 counts
for R38 step 6. -/
def LinkSt.sendCtl (l : LinkSt) (board ao now : Nat) : LinkSt :=
  match l.nextCtl board now with
  | none => l
  | some o =>
    let l1 := if l.ctlOut.head? = some o then { l with ctlOut := l.ctlOut.drop 1 } else l
    let p := l1.stamped o ao
    { p.1 with
      ctlLast := some p.2, ackSent := l.rxNext
      seenSent := l.seenSent || (o.ctype == ctHello && l.gotHello) }

/-- 1 ns on a link: 24 bytes of packets leave on each lane (02 Table 2.1), and in a control slot the next control block leaves
(R28, R31). -/
def LinkSt.tick (l : LinkSt) (board ao now : Nat) : LinkSt :=
  let l1 := { l with waitBytes := l.waitBytes - 24 * l.wireLanes }
  if l.ctlSlot now then l1.sendCtl board ao now else l1

/-- The next granule of a grant that runs (04 R83). -/
def State.grantNext (s : State) : State :=
  match s.pitch.grantRun with
  | some r =>
    if r.done < r.count then
      let b := s.grantOne r.entry (r.first + r.done)
      { b.1 with pitch := { b.1.pitch with grantRun := some { r with done := r.done + 1, hseq := laterHseq r.hseq b.2 } } }
    else s
  | none => s

/-- Core-clock cycles in 10 ns at D = 1: from the core PLL 320, from the always-on clock 160, coasting at 400 MHz 64 (19 R377,
R383, R384). -/
def ClockSt.coreRate (c : ClockSt) : Nat :=
  match c.source, c.pll with
  | .alwaysOn, _ => 160
  | .corePll, .coasting => 64
  | .corePll, _ => 320

/-- Core-clock cycles in this nanosecond: 2 at 2.0 GHz with D = 16. -/
def State.coreEdges (s : State) : Nat :=
  let n := s.clock.coreRate
  let q := 10 * s.clock.d
  (s.time.ticks + 1) * n / q - s.time.ticks * n / q

/-- One tick of the always-on clock (10 R209). -/
def State.tick (s : State) : State :=
  if s.power.inputOn then
    let s0 := s.endSends
    let s1 := { s0 with
      time := s.time.tick
      obs := { s.obs with resetNow := [] }
      links := s.links.foldl (fun t p => t.set {} p.1 (p.2.tick s.board s.time.ao s.time.ticks)) [] }
    let s2 := (upTo s.coreEdges).foldl (fun a _ => a.grantNext) s1
    (upTo 48).foldl (fun a n => (a.parkNext n).joinNext n) s2
  else s

end Sys2Proof.Machine
end

