-- ==== Sys2Proof/Machine/Step.lean ====
section
/-! DEFINITION. One step: the command at the front of the queue, or one tick of the always-on clock. -/

namespace Sys2Proof.Machine

/-- Take the command at the front of the queue and carry it out on the rest; with none waiting, a tick of the always-on clock
passes (DESIGN CHOICE, log 6). -/
def step (s : State) : Host.Outcome State Fault Refusal :=
  match s.pending with
  | [] => .next s.tick
  | c :: rest => exec c { s with pending := rest }

/-- The state with the command that a word spells in front of its queue: no row of the table gives bits, so no word
spells one (DESIGN CHOICE, log 59). -/
def State.withFetchWord (s : State) (nbits w : Nat) : State :=
  match decodeTableWord nbits w with
  | some c => { s with pending := c :: s.pending }
  | none => s

end Sys2Proof.Machine
end

