-- ==== Sys2Proof/WellFormed.lean ====
section
/-! DEFINITION. The commands whose operands lie in the ranges that the spec gives the units, rows, values and packets they name.
`exec` is total on the others too: a command that names a unit the board has not changes nothing (DESIGN CHOICE, log 2). -/

namespace Sys2Proof

/-- A Waxon link, 0–47 (02). -/
def linkOk (n : Nat) : Bool := decide (n < 48)

/-- A lane of a link, 0–3 (02). -/
def laneOk (n : Nat) : Bool := decide (n < 4)

/-- A logical slice, 0–7 (R11). -/
def sliceOk (n : Nat) : Bool := decide (n < 8)

/-- A stall of this board, or the image of one of the partner's from 1,024 on (R63, R282). -/
def stallOk (n : Nat) : Bool := decide (n < 2048)

/-- A board channel, 0–31 (R103). -/
def channelOk (n : Nat) : Bool := decide (n < 32)

/-- A barrow, 0–4,095 (R155). -/
def barrowOk (n : Nat) : Bool := decide (n < 4096)

/-- A rail of Table 18.1 that the poll reads. -/
def railOk (n : Nat) : Bool := decide (n < 15)

/-- A number below the count of its kind. -/
def unitOk (n count : Nat) : Bool := decide (n < count)

/-- A value that fits an entry of so many bytes (R335). -/
def valueOk (bytes v : Nat) : Bool := decide (v < 256 ^ bytes)

/-- Rows of a window that exist, each of the window's width, in at most 4,096 bytes (R336). -/
def rowsOk (count bytes row : Nat) (rows : List Nat) : Bool :=
  decide (row + rows.length ≤ count ∧ rows.length * bytes ≤ 4096) && rows.all fun v => valueOk bytes v

/-- A dictionary index and subindex (R331). -/
def entryOk (index sub : Nat) : Bool := decide (index < 2 ^ 16 ∧ sub < 256)

/-- The control types that Table 2.5 assigns. -/
def knownCtypes : List (BitVec 8) := [1#8, 2#8, 3#8, 4#8, 5#8, 6#8, 7#8, 8#8, 9#8]

/-- A packet of at most 64 units (R25). -/
def RxPacket.wf (p : RxPacket) : Bool :=
  decide (p.payload.length ≤ 64 ∧ ((p.hdr.extractLsb' 49 7).toNat ≤ 64 → p.payload.length = (p.hdr.extractLsb' 49 7).toNat))

/-- A request that fits its header (03 Table 3.1). -/
def Req.wf (r : Req) : Bool :=
  linkOk r.link && decide (r.tc < 8 ∧ r.host < 4096 ∧ r.tenant < 256 ∧ r.len < 128 ∧ r.mod < 32 ∧ r.payload.length ≤ 64)

/-- An answer that fits its header (03 Table 3.2). -/
def HostResp.wf (h : HostResp) : Bool := linkOk h.link && decide (h.host < 4096 ∧ h.status < 256)

/-- A management frame: an in-band one names its host and link (16 Table 16.1). -/
def Frame.wf (f : Frame) : Bool := match f.transport with
  | .inband => linkOk f.link && decide (f.sess < 4096)
  | _ => true

/-- A halyard packet of at most 64 units (13 Table 13.1). -/
def HalPkt.wf (p : HalPkt) : Bool := linkOk p.link && decide (p.payload.length ≤ 64)

/-- A PTP message (R211). -/
def PtpMsg.wf (m : PtpMsg) : Bool := decide (m.domain < 256 ∧ m.seq < 65536 ∧ m.dataset.priority1 < 256 ∧ m.dataset.priority2 < 256)

/-- An SPDM message: over Ethernet or MCTP (R307). -/
def SpdmMsg.wf (m : SpdmMsg) : Bool := m.transport != .inband && decide (m.version < 256 ∧ m.slot < 256 ∧ m.blocks < 256)

/-- The outcome of training one channel (R414). -/
def TrainResult.wf (r : TrainResult) : Bool := channelOk r.channel

/-- The command's operands lie in their ranges. -/
def Instr.wf : Instr → Bool
  | .linkPacketReceive link p => linkOk link && p.wf
  | .ackOnly link ctype _ => linkOk link && (ctype == 1#8 || !knownCtypes.contains ctype)
  | .align link _ => linkOk link
  | .hello link _ => linkOk link
  | .laneReq link _ => linkOk link
  | .laneAccept link _ => linkOk link
  | .laneSwitch link _ => linkOk link
  | .timeReq link _ => linkOk link
  | .timeResp link _ => linkOk link
  | .linkDown link _ => linkOk link
  | .ackTimeoutExpiry link => linkOk link
  | .replayLimitReached link => linkOk link
  | .linkUp link => linkOk link
  | .laneChangeAbandon link => linkOk link
  | .laneDropBerExceeded link lane _ => linkOk link && laneOk lane
  | .laneSignalLoss link lane => linkOk link && laneOk lane
  | .emergencyDropTimeout link => linkOk link
  | .laneAddTrained link lane => linkOk link && laneOk lane
  | .timeExchDiscard link => linkOk link
  | .codewordLockLoss link => linkOk link
  | .linkRetrain link => linkOk link
  | .flapHoldExpiry link => linkOk link
  | .linkEnableWrite f v => f.wf && valueOk 8 v
  | .linkVersionsAllowedWrite f link v => f.wf && (linkOk link && valueOk 4 v)
  | .read r => r.wf
  | .write r => r.wf
  | .writeMasked r => r.wf
  | .atomic r => r.wf
  | .reduceWrite r => r.wf
  | .flush r => r.wf
  | .invalidate r => r.wf
  | .hint r => r.wf
  | .cohRead r => r.wf
  | .cohWriteback r => r.wf
  | .doorbellLaunch r => r.wf
  | .doorbellStandingParams r => r.wf
  | .mark r => r.wf
  | .nop r => r.wf
  | .snoopResponse h => h.wf
  | .snoopRetry tag => decide (tag < 2 ^ 16)
  | .snoopTimeout tag => decide (tag < 2 ^ 16)
  | .cohHoldExpiry slice entry => sliceOk slice && unitOk entry 262144
  | .crierNotifyResponse h => h.wf
  | .pushResponse h => h.wf
  | .reorderRelease stall => stallOk stall
  | .reorderTimeoutExpiry stall => stallOk stall
  | .sliceResponseReady slice _ => sliceOk slice
  | .responseHoldExpiry slice _ => sliceOk slice
  | .attach f v => f.wf && valueOk 1 v
  | .detach f stall => f.wf && decide (stall < 2 ^ 16)
  | .detachComplete stall => stallOk stall
  | .fence f stall => f.wf && decide (stall < 2 ^ 16)
  | .hostDead stall => stallOk stall
  | .stallTableWrite f row rows => f.wf && rowsOk 1024 16 row rows
  | .boardNumberWrite f v => f.wf && valueOk 1 v
  | .grant f v => f.wf && valueOk 1 v
  | .revoke f v => f.wf && valueOk 1 v
  | .revokeDeadlineExpiry entry => unitOk entry 16
  | .revokeDone entry => unitOk entry 16
  | .clear f v => f.wf && valueOk 1 v
  | .aclTableWrite f row rows => f.wf && rowsOk 1048576 4 row rows
  | .migrateMoveStart slice => sliceOk slice
  | .fillComplete slice frame => sliceOk slice && unitOk frame 12288
  | .evictionComplete slice frame => sliceOk slice && unitOk frame 12288
  | .moveAbandon slice frame => sliceOk slice && unitOk frame 12288
  | .dramCommandIssue channel => channelOk channel
  | .pageIdleClose channel bank => channelOk channel && unitOk bank 256
  | .refreshInterval hbm unit => if hbm then unitOk unit 8 else channelOk unit
  | .scrubRead near unit _ => if near then sliceOk unit else channelOk unit
  | .scrubPeriodEnd near unit => if near then sliceOk unit else channelOk unit
  | .rowRepairStart channel => channelOk channel
  | .rowRepairDone channel => channelOk channel
  | .pitchEntryRewrite granule => unitOk granule 524288
  | .errorTableWrite f table row rows => f.wf && (unitOk table 9 && rowsOk 32 32 row rows)
  | .checkerEnableWrite f v => f.wf && valueOk 1 v
  | .checkerRawWrite f => f.wf
  | .checkerRawRead f => f.wf
  | .orphanRelease f v => f.wf && valueOk 1 v
  | .barrowTableWrite f row rows => f.wf && rowsOk 4096 32 row rows
  | .barrowAbort f v => f.wf && valueOk 2 v
  | .programStoreWrite f slice row rows => f.wf && (sliceOk slice && rowsOk 1024 64 row rows)
  | .triggerLaunch barrow => barrowOk barrow
  | .launchStart barrow => barrowOk barrow
  | .descEnd barrow slice => barrowOk barrow && sliceOk slice
  | .descFill barrow slice => barrowOk barrow && sliceOk slice
  | .descCopy barrow slice => barrowOk barrow && sliceOk slice
  | .descCompare barrow slice => barrowOk barrow && sliceOk slice
  | .descDigest barrow slice => barrowOk barrow && sliceOk slice
  | .reduceArm barrow slice => barrowOk barrow && sliceOk slice
  | .reduceAdd barrow slice => barrowOk barrow && sliceOk slice
  | .reduceFinalise barrow slice => barrowOk barrow && sliceOk slice
  | .reduceFinaliseNorm barrow slice => barrowOk barrow && sliceOk slice
  | .reduceRelease barrow slice => barrowOk barrow && sliceOk slice
  | .descCast barrow slice => barrowOk barrow && sliceOk slice
  | .scaleAdd barrow slice => barrowOk barrow && sliceOk slice
  | .updateSgd barrow slice => barrowOk barrow && sliceOk slice
  | .updateAdam barrow slice => barrowOk barrow && sliceOk slice
  | .updateClippedSgd barrow slice => barrowOk barrow && sliceOk slice
  | .updateClippedAdam barrow slice => barrowOk barrow && sliceOk slice
  | .descSync barrow slice => barrowOk barrow && sliceOk slice
  | .syncComplete barrow => barrowOk barrow
  | .descBudgetExceeded barrow => barrowOk barrow
  | .launchComplete barrow => barrowOk barrow
  | .ptpSync m => m.wf
  | .ptpFollowUp m => m.wf
  | .ptpDelayResp m => m.wf
  | .ptpAnnounce m => m.wf
  | .stepSet f v => f.wf && valueOk 8 v
  | .scheduleTableWrite f row rows => f.wf && rowsOk 1024 16 row rows
  | .buntGo f tree => f.wf && decide (tree < 256)
  | .buntingStart tree => unitOk tree 256
  | .buntingPageSend tree slice => unitOk tree 256 && sliceOk slice
  | .pushRetry tag => decide (tag < 2 ^ 16)
  | .buntTimeoutExpiry tag => decide (tag < 2 ^ 16)
  | .catchupWaitExpiry tree slice stall => unitOk tree 256 && (sliceOk slice && stallOk stall)
  | .catchupPass tree slice => unitOk tree 256 && sliceOk slice
  | .buntingComplete tree => unitOk tree 256
  | .buntAbort f tree => f.wf && decide (tree < 256)
  | .buntingTableWrite f members row rows => f.wf && rowsOk 256 (if members then 128 else 40) row rows
  | .shaperTableWrite f row rows => f.wf && rowsOk 1024 32 row rows
  | .wheelSlotDue slice => sliceOk slice
  | .flowSend slice => sliceOk slice
  | .activeGateListWrite f v => f.wf && valueOk 1 v
  | .gateListsWrite f row rows => f.wf && rowsOk 1024 4 row rows
  | .fbOffsetWrite f v => f.wf && valueOk 4 v
  | .fbCommit f v => f.wf && valueOk 1 v
  | .pipelineGrant slice => sliceOk slice
  | .priorityPromotion slice level => sliceOk slice && unitOk level 7
  | .crossbarGrant output port => if output then linkOk port else sliceOk port
  | .mirrorWrite p => p.wf
  | .control p => p.wf
  | .epochData p => p.wf
  | .epochEnd p => p.wf
  | .mirrorAck p => p.wf
  | .heartbeat p => p.wf
  | .relinquish p => p.wf
  | .streamEnd p => p.wf
  | .taken p => p.wf
  | .moveWrite p => p.wf
  | .moveAck p => p.wf
  | .moveEnd p => p.wf
  | .pairCommandRelinquish f => f.wf
  | .pairCommandTakeover f => f.wf
  | .pairCommandRejoin f => f.wf
  | .partnerFence f stall => f.wf && decide (stall < 2 ^ 16)
  | .partnerDetach f stall => f.wf && decide (stall < 2 ^ 16)
  | .moveInOpen f => f.wf
  | .moveInCancel f => f.wf
  | .moveOutStart f => f.wf
  | .moveOutStop f => f.wf
  | .moveLinksWrite f v => f.wf && valueOk 8 v
  | .laneLoopbackDone link lane _ => linkOk link && laneOk lane
  | .sliceFault slice detail => sliceOk slice && decide (detail < 2 ^ 32)
  | .channelFault channel detail => channelOk channel && decide (detail < 2 ^ 32)
  | .pipelineHang slice => sliceOk slice
  | .retireSlice f v => f.wf && valueOk 1 v
  | .retireChannel f v => f.wf && valueOk 1 v
  | .retireClear f v => f.wf && valueOk 1 v
  | .getVersion m => m.wf
  | .getCapabilities m => m.wf
  | .negotiateAlgorithms m => m.wf
  | .getDigests m => m.wf
  | .getCertificate m => m.wf
  | .challenge m => m.wf
  | .getMeasurements m => m.wf
  | .keyExchange m => m.wf
  | .finish m => m.wf
  | .spdmHeartbeat m => m.wf
  | .keyUpdate m => m.wf
  | .endSession m => m.wf
  | .encapsulatedRequest m => m.wf
  | .keyLoad m slot tenant _ _ _ => m.wf && (unitOk slot 256 && unitOk tenant 256)
  | .keyAssign f v => f.wf && valueOk 1 v
  | .keyRetire f v => f.wf && valueOk 1 v
  | .keyGenerate f v => f.wf && valueOk 1 v
  | .importOn f v => f.wf && valueOk 1 v
  | .importOff f v => f.wf && valueOk 1 v
  | .keyDrainDone slot => unitOk slot 256
  | .keyRetireDeadlineExpiry slot => unitOk slot 256
  | .tenantAdmit f v => f.wf && valueOk 1 v
  | .tenantRemove f v => f.wf && valueOk 1 v
  | .removeClearStart tenant => unitOk tenant 256
  | .tenantRemoveDone tenant => unitOk tenant 256
  | .tenantTableWrite f row rows => f.wf && rowsOk 256 56 row rows
  | .confModeWrite f v => f.wf && valueOk 1 v
  | .ledgerAckedWrite f v => f.wf && valueOk 8 v
  | .mgmtRead f index sub => f.wf && entryOk index sub
  | .mgmtWrite f index sub len v => f.wf && (entryOk index sub && (decide (len ≤ 4096) && decide (v < 256 ^ len)))
  | .windowRead f index sub row count => f.wf && (entryOk index sub && decide (row + count ≤ 2 ^ 32))
  | .windowWrite f index sub row rows => f.wf && (entryOk index sub && decide (row + rows.length ≤ 2 ^ 32 ∧ rows.length ≤ 4096))
  | .describe f index sub => f.wf && entryOk index sub
  | .principalTableWrite f row rows => f.wf && rowsOk 16 64 row rows
  | .profileSwitch f v => f.wf && valueOk 1 v
  | .profileCopy f v => f.wf && valueOk 1 v
  | .profileErase f v => f.wf && valueOk 1 v
  | .tallyClear f v => f.wf && valueOk 4 v
  | .hoistNow f v => f.wf && valueOk 1 v
  | .hoistRelease f v => f.wf && valueOk 1 v
  | .crierNotifySend stall => stallOk stall
  | .crierNotifyTimeout tag => decide (tag < 2 ^ 16)
  | .crierAckedWrite f v => f.wf && valueOk 8 v
  | .traceCtrlWrite f v => f.wf && valueOk 4 v
  | .traceRecord core _ kind => unitOk core 4 && unitOk kind 3
  | .railFault rail => railOk rail
  | .pmbusPoll rail _ mv da => railOk rail && (decide (mv < 2 ^ 16) && decide (da < 2 ^ 16))
  | .efuseTrip socket => unitOk socket 32
  | .powerTargetWrite f v => f.wf && valueOk 1 v
  | .clockRampDone unit => unitOk unit 9
  | .sliceParkEntry slice => sliceOk slice
  | .laneParkWrite f link v => f.wf && (linkOk link && valueOk 1 v)
  | .laneUnparkCheckDone link => linkOk link
  | .refSelectWrite f v => f.wf && valueOk 1 v
  | .refclkFail ref => unitOk ref 2
  | .refHoldoffExpiry ref => unitOk ref 2
  | .freqGo f v => f.wf && valueOk 1 v
  | .freqMeasureDone count => decide (count < 2 ^ 32)
  | .resetBoard f v => f.wf && valueOk 1 v
  | .resetRelease profileSel _ => unitOk profileSel 4
  | .selfTestDone failed => unitOk failed 256
  | .bootSlotVerifyDone _ _ => true
  | .firmwareBringUpDone _ => true
  | .memoryTrainingDone results hbm => (results.all fun r => r.wf) && decide (hbm.length ≤ 8)
  | .fwImageWrite f row rows => f.wf && rowsOk 8192 4096 row rows
  | .fwGo f v => f.wf && valueOk 1 v
  | .fwVerifyDone _ => true
  | .thermalPoll die hbm dimm hot85 => unitOk die 256 && (unitOk hbm 256 && (unitOk dimm 256 && decide (hot85 < 2 ^ 32)))
  | .timeExchInitiate => true
  | .grantComplete => true
  | .clearDone => true
  | .orphanReleaseDone => true
  | .timeHoldover => true
  | .markApplyAt => true
  | .guardBandPreview => true
  | .markLoss => true
  | .fallbackGateEntry => true
  | .mirrorEpochEnd => true
  | .heartbeatSend => true
  | .mirrorAckSend => true
  | .relinquishRepeat => true
  | .takenRepeat => true
  | .moveAckSend => true
  | .moveWriteSend => true
  | .relinquishDeadline => true
  | .streamEndSend => true
  | .pairPresentNHigh => true
  | .takeoverWaitEnd => true
  | .takeoverActivated => true
  | .pairDecideExpiry => true
  | .resyncGranuleDone => true
  | .moveProgressTimeout => true
  | .sliceFold => true
  | .channelFold => true
  | .controlWatchdog => true
  | .hostPortFault => true
  | .ledgerSign => true
  | .flashCommit => true
  | .profileSwitchCycle => true
  | .hoistIn => true
  | .powerOn => true
  | .powerFailWarning => true
  | .powerRestore => true
  | .powerOff => true
  | .voutAck => true
  | .pmbusAckTimeout => true
  | .corePllLock => true
  | .resetN => true
  | .memoryInitDone => true
  | .hardRepairDone => true
  | .memoryClearDone => true
  | .thermalFault => true
  | .checkerRawDone => true
  | .controlCoresHalt => true
  | .controlCoresReturn => true

end Sys2Proof
end

