-- ==== Sys2Proof/Safety.lean ====
section
/-! DEFINITION. What claims about the machine are stated in: the parts of the state a command may touch, the canonical form
of memory, and when a command is taken. -/

namespace Sys2Proof.Machine

/-- The links without their transmit side: what sending a packet leaves alone. -/
def LinkSt.face (l : LinkSt) : LinkSt := { l with
  txSeq := 0, unacked := [], timerOn := false, expiries := 0, waitBytes := 0, ackSent := 0 }

/-- A stall without its spray pointer and its crier copies. -/
def StallSt.face (x : StallSt) : StallSt := { x with sprayPtr := 0, crierQ := [] }

/-- Security without the ledger's buffer. -/
def SecSt.face (x : SecSt) : SecSt := { x with buffer := [], nextSeq := 0, lost := 0, lostPending := 0 }

/-- Repair without the fault log, the common error table, and what the SRAM words hold of errors. -/
def RepairSt.face (x : RepairSt) : RepairSt := { x with
  faultLog := [], faultSeq := 0, commonErrors := [], sram := [], spareRows := [], movedRows := [] }

/-- Management without the kept responses and the list of entries to store. -/
def MgmtSt.face (x : MgmtSt) : MgmtSt := { x with kept := [], dirty := [] }

/-- The parts of the state: its fields by name, and what sending, the ledger, a logged error and an answer leave alone of five of
them. -/
inductive Part where
  | pending | dict | links | stalls | shapers | pitch | slices | chans | snoops | nextTag | barrows | seeds | trees | pushes
  | time | gates | xbar | checker | pair | repair | sec | mgmt | obs | power | clock | boot | orphanRun | free
  | linkFace | stallFace | secFace | repairFace | mgmtFace
deriving DecidableEq, Repr

/-- One part of two states is the same. -/
def State.same (s t : State) : Part → Prop
  | .pending => t.pending = s.pending
  | .dict => t.dict = s.dict
  | .links => t.links = s.links
  | .stalls => t.stalls = s.stalls
  | .shapers => t.shapers = s.shapers
  | .pitch => t.pitch = s.pitch
  | .slices => t.slices = s.slices
  | .chans => t.chans = s.chans
  | .snoops => t.snoops = s.snoops
  | .nextTag => t.nextTag = s.nextTag
  | .barrows => t.barrows = s.barrows
  | .seeds => t.seeds = s.seeds
  | .trees => t.trees = s.trees
  | .pushes => t.pushes = s.pushes
  | .time => t.time = s.time
  | .gates => t.gates = s.gates
  | .xbar => t.xbar = s.xbar
  | .checker => t.checker = s.checker
  | .pair => t.pair = s.pair
  | .repair => t.repair = s.repair
  | .sec => t.sec = s.sec
  | .mgmt => t.mgmt = s.mgmt
  | .obs => t.obs = s.obs
  | .power => t.power = s.power
  | .clock => t.clock = s.clock
  | .boot => t.boot = s.boot
  | .orphanRun => t.orphanRun = s.orphanRun
  | .free => t.free = s.free
  | .linkFace => ∀ n, (t.link n).face = (s.link n).face
  | .stallFace => ∀ n, (t.stall n).face = (s.stall n).face
  | .secFace => t.sec.face = s.sec.face
  | .repairFace => t.repair.face = s.repair.face
  | .mgmtFace => t.mgmt.face = s.mgmt.face

/-- Every part of the state but those listed is the same: what a command leaves unchanged. -/
def State.frame (s t : State) (ps : List Part) : Prop := ∀ p, p ∉ ps → s.same t p

/-- The memory of every channel and half-stack is in its canonical form (unit lines strictly rising, none listed that reads
cleared), and so is the table of channels. -/
def State.memOk (s : State) : Prop :=
  Tbl.wf s.chans ({} : ChanSt) = true ∧ ∀ n, Tbl.wf (s.chan n).mem clearLine = true

/-- No word of an SRAM holds an error (06 R120 to R123): none does at reset, and no command makes one (log 73). -/
def State.sramOk (s : State) : Prop := s.repair.sram = []

/-! ### Management frames -/

/-- A frame is taken: it arrives where it is served, no kept response answers it, and the checks of 16 find nothing. -/
def State.accepts (s : State) (f : Frame) (q : Ask) : Prop :=
  s.frameServed f = true ∧ s.keptFor f q = none ∧ s.precheck f q (s.principalOf f).2 = none

/-- The state that a taken frame's entry acts on: the DICT_WRITE ledger entry of a write is made (15 R417). -/
def State.logged (s : State) (f : Frame) (q : Ask) (a : Ans) : State :=
  if q.isWrite && a.reason != 5 then
    s.ledger 0x01 a.result (frameActor f (s.principalOf f).1) 0 (dictWriteBody q a.reason)
  else s

/-- The state once a taken frame is answered: a persistent entry is to reach flash, and the response is sent and kept. -/
def State.answered (s : State) (f : Frame) (q : Ask) (a : Ans) : State :=
  ((s.markPersist q a).sendMgmt f (mgmtResp f q a)).keep f (mgmtResp f q a)

/-! ### Host requests -/

/-- The state once a request that arrives in order is counted and its tag has arrived (03 R59). -/
def State.arrived (s : State) (st : Nat) (op : ReqOp) (r : Req) : State :=
  (s.count .stall st op.row).updStall st fun x => x.firstArrive r.tag

/-- The state in which the rights of such a request are checked: its bytes are charged too (12 R245). -/
def State.entered (s : State) (st : Nat) (op : ReqOp) (r : Req) : State :=
  (s.arrived st op r).chargeIn st (28 + 64 * r.payload.length)

/-- A request of a stall's host that arrives in order, while no SRAM word holds an error: on a link of the stall that is up, for an
ATTACHED stall under its epoch, under a tag not seen before, or as the first of an image stall. -/
def State.inOrder (s : State) (st : Nat) (op : ReqOp) (r : Req) : Prop :=
  r.link < 48 ∧ (s.link r.link).isUp = true ∧
  ((s.link r.link).kind = 0 ∧ (s.link r.link).partner = r.host ∨
    (s.link r.link).kind = 1 ∧ (s.stall st).linkSet.getLsbD r.link = true) ∧
  s.gapStall r = none ∧ s.stallFor r = some st ∧ (s.stall st).phase = .attached ∧
  (op ≠ .doorbell → (s.stall st).epoch = r.epoch) ∧ r.hreplay = false ∧
  (if (s.stall st).firstSeen then behind r.tag (s.stall st).next = false else (s.stall st).lookup op r.tag = .fresh) ∧ s.sramOk

/-- None of the checks of R56 before ACCESS_DENIED stops the request, and nothing makes it wait. -/
def State.goesOn (s : State) (st : Nat) (op : ReqOp) (r : Req) : Prop :=
  s.unsupported st op r = false ∧ s.mustWait st r = false ∧ s.staleBarrow op r = false ∧ s.inGap r = false ∧
  (op = .mark ∨ op = .nop ∨ s.admits st = true) ∧ s.wrongBoard op r = false ∧ s.busyNow st op r = false

/-- What the checks of a request's rights answer (R56, 04 R80, 08 R159). -/
def State.rightsOf (s : State) (op : ReqOp) (r : Req) : Status :=
  match op with
  | .nop => .ok
  | .mark => .ok
  | .doorbell => s.doorbellStatus r
  | _ => s.pitchStatus op r

/-- A request in order that passes every check. -/
def State.takes (s : State) (st : Nat) (op : ReqOp) (r : Req) : Prop :=
  s.inOrder st op r ∧ (s.arrived st op r).goesOn st op r ∧ wellFormedReq op r = true ∧
  (s.entered st op r).rightsOf op r = .ok

/-! ### Host requests by command -/

/-- The host request that a command delivers: its opcode, and the packet. -/
def requestOf : Instr → Option (ReqOp × Req)
  | .read r => some (.read, r)
  | .write r => some (.write, r)
  | .writeMasked r => some (.writeMasked, r)
  | .atomic r => some (.atomic, r)
  | .reduceWrite r => some (.reduceWrite, r)
  | .flush r => some (.flush, r)
  | .invalidate r => some (.invalidate, r)
  | .hint r => some (.hint, r)
  | .cohRead r => some (.cohRead, r)
  | .cohWriteback r => some (.cohWriteback, r)
  | .doorbellLaunch r => if r.mod = 1 then none else some (.doorbell, r)
  | .doorbellStandingParams r => if r.mod = 1 then some (.doorbell, r) else none
  | .mark r => some (.mark, r)
  | .nop r => some (.nop, r)
  | _ => none

/-! ### SPDM -/

/-- The message of an SPDM command, and the code its answer carries. -/
def spdmAsk : Instr → Option (SpdmMsg × Nat)
  | .getVersion m => some (m, 0x84)
  | .getCapabilities m => some (m, 0xE1)
  | .negotiateAlgorithms m => some (m, 0xE3)
  | .getDigests m => some (m, 0x81)
  | .getCertificate m => some (m, 0x82)
  | .challenge m => some (m, 0x83)
  | .getMeasurements m => some (m, 0x60)
  | .keyExchange m => some (m, 0x64)
  | .encapsulatedRequest m => some (m, 0x6A)
  | .finish m => some (m, 0x65)
  | .spdmHeartbeat m => some (m, 0x68)
  | .keyUpdate m => some (m, 0x69)
  | .endSession m => some (m, 0x6C)
  | _ => none

/-- The responder serves the message with this answer, and its connection is then this one. -/
def State.answersSpdm (s : State) (i : Instr) (m : SpdmMsg) (c : SpdmConn) (value : Nat) (ds : List Digest)
    (sig : Option (BitVec 768)) : Prop :=
  ∃ t code, spdmAsk i = some (m, code) ∧ exec i s = .next t ∧ s.frame t [.sec, .secFace, .mgmt] ∧ t.conn m = c ∧
    t.sec.spdmOut = s.sec.spdmOut ++ [(⟨connKey m.transport m.conn, code, false, value, ds, sig⟩ : SpdmResp)] ∧
    (∀ j, j ≠ connKey m.transport m.conn → t.sec.spdm.get {} j = s.sec.spdm.get {} j) ∧
    t.sec.keys = s.sec.keys ∧ t.sec.tenants = s.sec.tenants ∧ t.sec.buffer = s.sec.buffer

/-- The responder answers the message ERROR, and its connections are as before. -/
def State.refusesSpdm (s : State) (i : Instr) (m : SpdmMsg) : Prop :=
  ∃ t code, spdmAsk i = some (m, code) ∧ exec i s = .next t ∧ s.frame t [.sec, .secFace] ∧ t.sec.spdm = s.sec.spdm ∧
    t.sec.spdmOut = s.sec.spdmOut ++ [(⟨connKey m.transport m.conn, code, true, 0, [], none⟩ : SpdmResp)]

/-! ### Frames by command, and the rows of a window write -/

/-- The frame a management command is: who sends it and what it asks; none of a command that is no frame. -/
def askOf : Instr → Option (Frame × Ask)
  | .linkEnableWrite f v => some (f, askWrite kLinkEnable 8 v)
  | .linkVersionsAllowedWrite f link v => some (f, askWrite (kLinkVersionsAllowed link) 4 v)
  | .attach f v => some (f, askWrite kAttachGo 1 v)
  | .detach f stall => some (f, askWrite kDetach 2 stall)
  | .fence f stall => some (f, askWrite kFence 2 stall)
  | .stallTableWrite f row rows => some (f, askRows kStallTable 16 row rows)
  | .boardNumberWrite f v => some (f, askWrite kBoardNumber 1 v)
  | .grant f v => some (f, askWrite kGrantGo 1 v)
  | .revoke f v => some (f, askWrite kRevokeGo 1 v)
  | .clear f v => some (f, askWrite kClearGo 1 v)
  | .aclTableWrite f row rows => some (f, askRows kAclTable 4 row rows)
  | .errorTableWrite f table row rows => some (f, askRows (0x602400 + table) 32 row rows)
  | .checkerEnableWrite f v => some (f, askWrite kCheckerEnable 1 v)
  | .checkerRawWrite f => some (f, askWrite kCheckerOp 1 1)
  | .checkerRawRead f => some (f, askWrite kCheckerOp 1 2)
  | .orphanRelease f v => some (f, askWrite kOrphanReleaseGo 1 v)
  | .barrowTableWrite f row rows => some (f, askRows kBarrowTable 32 row rows)
  | .barrowAbort f v => some (f, askWrite kBarrowAbort 2 v)
  | .programStoreWrite f slice row rows => some (f, askRows (0x701000 + slice) 64 row rows)
  | .stepSet f v => some (f, askWrite kStepSet 8 v)
  | .scheduleTableWrite f row rows => some (f, askRows kScheduleTable 16 row rows)
  | .buntGo f tree => some (f, askWrite kBuntGo 1 tree)
  | .buntAbort f tree => some (f, askWrite kBuntAbort 1 tree)
  | .buntingTableWrite f members row rows =>
    some (f, if members then askRows kBuntingMembers 128 row rows else askRows kBuntingTable 40 row rows)
  | .shaperTableWrite f row rows => some (f, askRows kShaperTable 32 row rows)
  | .activeGateListWrite f v => some (f, askWrite kActiveGateList 1 v)
  | .gateListsWrite f row rows => some (f, askRows kGateLists 4 row rows)
  | .fbOffsetWrite f v => some (f, askWrite kFbOffset 4 v)
  | .fbCommit f v => some (f, askWrite kFbCommit 1 v)
  | .pairCommandRelinquish f => some (f, askWrite kPairCommand 1 1)
  | .pairCommandTakeover f => some (f, askWrite kPairCommand 1 2)
  | .pairCommandRejoin f => some (f, askWrite kPairCommand 1 3)
  | .partnerFence f stall => some (f, askWrite kPartnerFence 2 stall)
  | .partnerDetach f stall => some (f, askWrite kPartnerDetach 2 stall)
  | .moveInOpen f => some (f, askWrite kMoveInGo 1 1)
  | .moveInCancel f => some (f, askWrite kMoveInGo 1 2)
  | .moveOutStart f => some (f, askWrite kMoveOutGo 1 1)
  | .moveOutStop f => some (f, askWrite kMoveOutGo 1 2)
  | .moveLinksWrite f v => some (f, askWrite kMoveLinks 8 v)
  | .retireSlice f v => some (f, askWrite kRetireGo 1 v)
  | .retireChannel f v => some (f, askWrite kRetireGo 1 v)
  | .retireClear f v => some (f, askWrite kRetireGo 1 v)
  | .keyAssign f v => some (f, askWrite kKeyGo 1 v)
  | .keyRetire f v => some (f, askWrite kKeyGo 1 v)
  | .keyGenerate f v => some (f, askWrite kKeyGo 1 v)
  | .importOn f v => some (f, askWrite kKeyGo 1 v)
  | .importOff f v => some (f, askWrite kKeyGo 1 v)
  | .tenantAdmit f v => some (f, askWrite kTenantGo 1 v)
  | .tenantRemove f v => some (f, askWrite kTenantGo 1 v)
  | .tenantTableWrite f row rows => some (f, askRows kTenantTable 56 row rows)
  | .confModeWrite f v => some (f, askWrite kConfMode 1 v)
  | .ledgerAckedWrite f v => some (f, askWrite kLedgerAcked 8 v)
  | .mgmtRead f index sub => some (f, askRead 1 index sub 0 0)
  | .mgmtWrite f index sub len v => some (f, ⟨2, index, sub, 0, 0, leBytes len v⟩)
  | .windowRead f index sub row count => some (f, askRead 3 index sub count row)
  | .windowWrite f index sub row rows => some (f, askRows (index * 256 + sub) (entryBytes index sub) row rows)
  | .describe f index sub => some (f, askRead 5 index sub 0 0)
  | .principalTableWrite f row rows => some (f, askRows kPrincipalTable 64 row rows)
  | .profileSwitch f v => some (f, askWrite kProfileGo 1 v)
  | .profileCopy f v => some (f, askWrite kProfileGo 1 v)
  | .profileErase f v => some (f, askWrite kProfileGo 1 v)
  | .tallyClear f v => some (f, askWrite kTallyClear 4 v)
  | .hoistNow f v => some (f, askWrite kHoistNow 1 v)
  | .hoistRelease f v => some (f, askWrite kHoistRelease 1 v)
  | .crierAckedWrite f v => some (f, askWrite kCrierAcked 8 v)
  | .traceCtrlWrite f v => some (f, askWrite kTraceCtrl 4 v)
  | .powerTargetWrite f v => some (f, askWrite kPowerTarget 1 v)
  | .laneParkWrite f link v => some (f, askWrite (kLanePark link) 1 v)
  | .refSelectWrite f v => some (f, askWrite kRefSelect 1 v)
  | .freqGo f v => some (f, askWrite kFreqGo 1 v)
  | .resetBoard f v => some (f, askWrite kResetBoard 1 v)
  | .fwImageWrite f row rows => some (f, askRows kFwImage 4096 row rows)
  | .fwGo f v => some (f, askWrite kFwGo 1 v)
  | _ => none

/-- The rows of a window write up to the first that is refused (R336): `n` rows stand in turn and leave `u`, and the
answer is OK, or names the row that is refused and its REASON. -/
def rowsRun (wr : Nat → Nat → State → State × Nat) (row : Nat) (rows : List Nat) (s u : State)
    (a : Ans) : Prop :=
  ∃ (n : Nat) (us : Nat → State), n ≤ rows.length ∧ us 0 = s ∧ us n = u ∧
    (∀ k, k < n → wr (row + k) (rows.getD k 0) (us k) = (us (k + 1), 0)) ∧
    (n = rows.length ∧ a = ({} : Ans) ∨
     n < rows.length ∧ (wr (row + n) (rows.getD n 0) u).2 ≠ 0 ∧ a.status = .accessDenied ∧ a.result = 3 ∧
       a.reason = (wr (row + n) (rows.getD n 0) u).2 ∧ a.rowOut = row + n)

/-! ### Descriptors -/

/-- A command that runs a descriptor in a member: whose, which rows are its, and what it does. -/
structure DescCmd where
  barrow : Nat
  slice : Nat
  mine : Desc → Bool
  kernel : Kernel

/-- The operation that a command runs in a member (08 Table 8.4). -/
def descCmdOf : Instr → Option DescCmd
  | .descFill b n => some ⟨b, n, isDesc opFill 0, fillKernel⟩
  | .descCopy b n => some ⟨b, n, isDesc opCopy 0, copyKernel⟩
  | .descCompare b n => some ⟨b, n, isDesc opCompare 0, compareKernel⟩
  | .descDigest b n => some ⟨b, n, isDesc opDigest 0, digestKernel⟩
  | .reduceArm b n => some ⟨b, n, isDesc opReduce 0, armKernel⟩
  | .reduceAdd b n => some ⟨b, n, isDesc opReduce 1, addKernel⟩
  | .reduceFinalise b n => some ⟨b, n, isDesc opReduce 2, finaliseKernel false⟩
  | .reduceFinaliseNorm b n => some ⟨b, n, isDesc opReduce 3, finaliseKernel true⟩
  | .reduceRelease b n => some ⟨b, n, isDesc opReduce 4, releaseKernel⟩
  | .descCast b n => some ⟨b, n, isDesc opCast 0, castKernel⟩
  | .scaleAdd b n => some ⟨b, n, fun d => d.op == opScaleAdd, scaleAddKernel⟩
  | .updateSgd b n => some ⟨b, n, isDesc opUpdate 0, updateKernel false false⟩
  | .updateAdam b n => some ⟨b, n, isDesc opUpdate 1, updateKernel true false⟩
  | .updateClippedSgd b n => some ⟨b, n, isDesc opUpdate 2, updateKernel false true⟩
  | .updateClippedAdam b n => some ⟨b, n, isDesc opUpdate 3, updateKernel true true⟩
  | _ => none

/-- A member whose row's condition holds and that is well-formed (R168, R174). -/
def Ctx.runs (c : Ctx) : Prop :=
  c.d.malformed = false ∧ condHolds c.d.cond c.m.flags (c.run.launch.params.getD 0 0) = true

/-! ### Halyard packets -/

/-- A packet of this message went out on every live halyard link that takes it. -/
def State.sentOn (s t : State) (m : TxMsg) : Prop :=
  ∀ n ∈ s.liveHalyard, (s.link n).takes m.bytes = true → ∃ q, (t.link n).unacked = (s.link n).unacked ++ [q] ∧ q.msg = m

/-- The commands that bring a sequenced halyard packet, by its kind. -/
def seqCmd (kind : Nat) (p : HalPkt) : Option Instr :=
  match kind with
  | 1 => some (.mirrorWrite p)
  | 2 => some (.control p)
  | 3 => some (.epochData p)
  | 4 => some (.epochEnd p)
  | _ => none

/-! ### Moves -/

/-- The state with this move-in open. -/
def State.withMoveIn (s : State) (m : MoveIn) : State :=
  { s with pair := { s.pair with moveIn := some m } }

/-- A move-in with these packets held ahead of their turn. -/
def MoveIn.held (m : MoveIn) (ps : List HalPkt) : MoveIn := { m with ahead := ps }

/-! ### Resets -/

/-- `t` is the board in the first cc of a reset other than power-on that begins in `s`, by Table 20.1. -/
def State.startsAnew (s t : State) (cause : Nat) : Prop :=
  t.pending = s.pending ∧ t.boot.stage = .reset ∧ t.boot.step = .inReset ∧ t.boot.cause = cause ∧
  t.boot.bootCount = s.boot.bootCount ∧
  (t.time.ao = s.time.ao ∧ t.time.phase = s.time.phase ∧ t.time.step = 0 ∧ t.time.mphase = 0 ∧ t.time.heldMarks = []) ∧
  (t.obs.tally = s.obs.tally ∧ t.obs.ring = s.obs.ring ∧ t.obs.head = s.obs.head ∧ t.obs.held = false) ∧
  (t.repair.faultLog = s.repair.faultLog ∧ t.repair.faultSeq = s.repair.faultSeq) ∧
  (t.mgmt.profiles = s.mgmt.profiles ∧ t.mgmt.records = s.mgmt.records) ∧
  (t.sec.ring = s.sec.ring ∧ t.sec.head = s.sec.head ∧ t.sec.lost = s.sec.lost ∧ t.sec.buffer = []) ∧
  (t.dict = [] ∧ t.pitch = {} ∧ t.stalls = [] ∧ t.slices = [] ∧ t.barrows = [] ∧ t.trees = [] ∧ t.pushes = [] ∧
    t.snoops = []) ∧
  (∀ n, (t.key n).phase = .empty ∧ (t.key n).key1 = 0 ∧ (t.key n).key2 = 0) ∧
  (∀ n, (t.tenant n).phase = if n = 0 then .admitted else .absent) ∧
  (∀ n, (t.stall n).epoch = 0 ∧ (t.key n).epoch = 0 ∧ (t.barrow n).epoch = 0 ∧ (t.slice n).epoch = 0) ∧
  ∀ n, (t.link n).isUp = false

end Sys2Proof.Machine
end

