-- ==== Sys2Proof/Certificates/Slice0/Obligations.lean ====
section
/-! DEFINITION. The statements about the model, for the provers: one definition each, in the order of the spec's
chapters. Rule numbers are those of spec/; a statement that rests on a choice of the model names its log entry. -/

open Sys2Proof Sys2Proof.Machine

/-- A step takes the command at the front of the queue and runs exec on it, on the state with the queue's rest. That
commands wait in a queue is the model's form (log 6). -/
def Obligations.StepRunsTheFrontCommand : Prop :=
  ∀ (s : State) (c : Instr) (rest : List Instr),
    step { s with pending := c :: rest } = exec c { s with pending := rest }

/-- With no command waiting, a step is a tick of the always-on clock (the model's choice, log 6): the counter moves 1 ns
while the board is powered, and nothing but time, the links, the granules a grant writes with what it forwards of them,
and what the links' changes bring with them changes. -/
def Obligations.IdleStepsAreTicks : Prop :=
  ∀ (s : State), s.pending = [] →
    step s = .next s.tick ∧
    (s.power.inputOn = false → s.tick = s) ∧
    (s.power.inputOn = true → s.tick.time.ticks = s.time.ticks + 1) ∧
    s.frame s.tick [.links, .linkFace, .stalls, .stallFace, .pitch, .slices, .time, .xbar, .pair, .repair, .obs]

/-- Every command completes: from every state it answers a next state, and the commands that wait are as they were; a step
only ever takes the front of the queue. The queue is the model's form (log 6). -/
def Obligations.CommandsCompleteAndLeaveTheQueue : Prop :=
  (∀ (i : Instr) (s : State), ∃ t, exec i s = .next t ∧ t.pending = s.pending) ∧
  (∀ (s t : State), step s = .next t → t.pending = s.pending.tail)

/-- The invariants that every step keeps: the memory of every channel and half-stack stays in its canonical form, unit
lines strictly rising and none listed that reads as cleared memory does; and no step makes an error in an SRAM word (06
R120 to R123) where none holds one. The form is the model's (log 17), and so is that no command makes such an error (log
73). -/
def Obligations.StepsKeepMemoryCanonical : Prop :=
  ∀ (s t : State), step s = .next t → (s.memOk → t.memOk) ∧ (s.sramOk → t.sramOk)

/-- Memory is in its canonical form at reset, no SRAM word holds an error, and no command waits. -/
def Obligations.ResetMemoryIsCanonical : Prop := State.reset.memOk ∧ State.reset.sramOk ∧ State.reset.pending = []

/-- R32: an acknowledgement releases the packets it covers, counted from the oldest, and no other value does anything; the
rest of the state is as before, but for the tracker entries whose responses it covers. It restores sync where it names a
header (R28). -/
def Obligations.AcknowledgementReleasesPackets : Prop :=
  ∀ (s : State) (n : Nat) (ctype : BitVec 8) (c : Ctl) (i : Instr), n < 48 → (s.link n).isUp = true →
    (i = .ackOnly n ctype c ∧ ctlOk ctype c = true ∨ i = .align n c ∧ ctlOk 2 c = true) →
    ∃ t, exec i s = .next t ∧
      (let u := (s.link n).unacked.length
       let k := (c.ack - ((s.link n).txSeq - BitVec.ofNat 16 u)).toNat
       (t.link n).unacked = if 1 ≤ k ∧ k ≤ u then (s.link n).unacked.drop k else (s.link n).unacked) ∧
      (t.link n).txSeq = (s.link n).txSeq ∧
      (t.link n).inSync = ((s.link n).inSync || c.resync != 0xFFFF) ∧
      (∀ j, j ≠ n → t.link j = s.link j) ∧ s.frame t [.links, .slices, .linkFace]

/-- R34: after REPLAY_LIMIT consecutive expiries without a releasing ACK, 8 by default, the board declares the link down
with reason REPLAY: an expiry counts, a releasing ACK begins the count anew, and short of the limit the link stays. 06
Table 6.1: a packet that cannot be read from the replay buffer takes the link down too. -/
def Obligations.ReplayLimitTakesTheLinkDown : Prop :=
  dfltOf kReplayLimit = 8 ∧
  (∀ (s : State) (n : Nat), n < 48 → (s.link n).isUp = true → (s.link n).timerOn = true → (s.link n).unacked ≠ [] →
    s.reg kReplayLimit ≤ (s.link n).expiries + 1 ∨ (s.readReplay n).2 = false →
    ∃ t, exec (.ackTimeoutExpiry n) s = .next t ∧ (t.link n).expiries = (s.link n).expiries + 1 ∧ (t.link n).isUp = true) ∧
  (∀ (s : State) (n : Nat), n < 48 → (s.link n).isUp = true → (s.link n).timerOn = true → (s.link n).unacked ≠ [] →
    (s.link n).expiries + 1 < s.reg kReplayLimit → (s.readReplay n).2 = true →
    ∃ t, exec (.ackTimeoutExpiry n) s = .next t ∧ (t.link n).isUp = false ∧ t.reg (kLastDownReason n) = 3) ∧
  (∀ (s : State) (n : Nat) (ctype : BitVec 8) (c : Ctl), n < 48 → (s.link n).isUp = true → ctlOk ctype c = true →
    ∃ t, exec (.ackOnly n ctype c) s = .next t ∧
      (let u := (s.link n).unacked.length
       let k := (c.ack - ((s.link n).txSeq - BitVec.ofNat 16 u)).toNat
       (t.link n).expiries = if 1 ≤ k ∧ k ≤ u then 0 else (s.link n).expiries)) ∧
  (∀ (s : State) (n : Nat), n < 48 → (s.link n).isUp = true → (s.link n).timerOn = true →
    s.reg kReplayLimit ≤ (s.link n).expiries →
    ∃ t, exec (.replayLimitReached n) s = .next t ∧ (t.link n).isUp = false ∧ t.reg (kLastDownReason n) = 3) ∧
  (∀ (s : State) (n : Nat), (s.link n).expiries < s.reg kReplayLimit → exec (.replayLimitReached n) s = .next s)

/-- R38 to R41: a HELLO at step 5 settles the version and the capabilities the two sides share, the partner's kind and
number and the lanes; without a common version the link is held with reason NO_VERSION until the partner's VERSIONS
changes. A lane that fails in training is left out. R42 to R46, 18 R372: how a lane change starts, is answered, crosses
another and completes. R47: a time exchange is answered, completed, begun and discarded; T1 and T3 are those of the
control slot. -/
def Obligations.LinkControlRuns : Prop :=
  (∀ (s : State) (n : Nat) (c : Ctl), n < 48 → ctlOk 3 c = true →
    let theirs := bodyField c.body 0 1
    ((s.link n).phase = .training ∧ (s.link n).retrain = false ∨
      (s.link n).phase = .held ∧ (s.link n).hold = .noVersion ∧ (s.link n).partnerVersions.toNat ≠ theirs) →
    let v := commonVersion ((s.link n).allowedAtTrain.toNat &&& 7) theirs
    let caps := effectiveCaps (ourCaps ((s.link n).allowedAtTrain.toNat &&& 7)) (bodyField c.body 1 4) v
    ∃ t, exec (.hello n c) s = .next t ∧
      (v ≠ 0 →
        (t.link n).phase = .training ∧ (t.link n).version = v ∧ (t.link n).caps = BitVec.ofNat 32 caps ∧
        (t.link n).kind = bodyField c.body 5 1 % 16 ∧ (t.link n).partner = bodyField c.body 6 2 % 4096 ∧
        (t.link n).mask = formMask ((s.link n).passed &&& BitVec.ofNat 4 (bodyField c.body 8 1)) (bitAt caps 1) ∧
        (t.link n).gotHello = true ∧
        (t.link n).seenRecv = ((s.link n).seenRecv || bitAt (bodyField c.body 9 1) 0) ∧
        (∀ j, j ≠ n → t.link j = s.link j) ∧ s.frame t [.links, .slices, .linkFace]) ∧
      (v = 0 →
        (t.link n).phase = .held ∧ (t.link n).hold = .noVersion ∧ t.reg (kLastDownReason n) = 5)) ∧
  (∀ (s : State) (n lane : Nat), lane < 4 →
    ((s.link n).phase = .training ∧ (s.link n).retrain = false ∨ (s.link n).phase = .held ∧ (s.link n).hold = .noVersion) →
    ∃ t, exec (.laneSignalLoss n lane) s = .next t ∧ (t.link n).passed.getLsbD lane = false ∧
      (t.link n).mask = formMask ((t.link n).passed &&& (s.link n).partnerLanes) (s.link n).x2 ∧
      (∀ k, k < 4 → k ≠ lane → (t.link n).passed.getLsbD k = (s.link n).passed.getLsbD k) ∧
      (∀ j, j ≠ n → t.link j = s.link j) ∧ s.frame t [.links, .linkFace]) ∧
  ((∀ (s : State) (n : Nat) (c : Ctl), n < 48 → ctlOk 4 c = true → (s.link n).isUp = true → (s.link n).change = none →
    let em := bitAt (bodyField c.body 2 1) 0
    let m := formMask ((s.link n).allowed (BitVec.ofNat 4 (bodyField c.body 1 1)) em) (s.link n).x2
    m ≠ 0 →
    ∃ t, exec (.laneReq n c) s = .next t ∧ ∃ ch, (t.link n).change = some ch ∧ ch.mask = m ∧ ch.mine = false ∧
      ch.emergency = em ∧ ch.txSwitched = true ∧ ch.rxSwitched = false ∧ (t.link n).mask = (s.link n).mask ∧
      (t.link n).ctlOut.map (·.ctype) = (if em then 6 :: (s.link n).ctlOut.map (·.ctype)
        else (s.link n).ctlOut.map (·.ctype) ++ [5, 6]) ∧
      s.frame t [.links, .slices, .linkFace, .obs]) ∧
  (∀ (s : State) (n : Nat) (c : Ctl) (ch : LaneChange), n < 48 → ctlOk 4 c = true → (s.link n).isUp = true →
    (s.link n).change = some ch → ch.mine = true → ch.accepted = false → ch.txSwitched = false → ch.rxSwitched = false →
    let em := bitAt (bodyField c.body 2 1) 0 || ch.emergency
    let m := formMask (ch.mask &&& BitVec.ofNat 4 (bodyField c.body 1 1)) (s.link n).x2
    m ≠ 0 →
    ∃ t, exec (.laneReq n c) s = .next t ∧
      (t.link n).change = some (if em then { ch with mask := m, emergency := true, txSwitched := true } else { ch with mask := m }) ∧
      (t.link n).mask = (s.link n).mask ∧
      (t.link n).ctlOut.map (·.ctype) = (if em then 6 :: (s.link n).ctlOut.map (·.ctype)
        else (s.link n).ctlOut.map (·.ctype) ++ [5]) ∧
      s.frame t [.links, .slices, .linkFace, .obs]) ∧
  (∀ (s : State) (n : Nat) (c : Ctl) (ch : LaneChange), n < 48 → ctlOk 5 c = true → (s.link n).isUp = true →
    (s.link n).change = some ch → ch.mine = true → ch.accepted = false → ch.rxSwitched = false →
    ch.reqId = BitVec.ofNat 8 (bodyField c.body 0 1) →
    ∃ t, exec (.laneAccept n c) s = .next t ∧
      (t.link n).change = some { ch with
        accepted := true, mask := BitVec.ofNat 4 (bodyField c.body 1 1), txSwitched := true } ∧
      (t.link n).ctlOut.map (·.ctype) = (s.link n).ctlOut.map (·.ctype) ++ [6] ∧
      s.frame t [.links, .slices, .linkFace, .obs]) ∧
  (∀ (s : State) (n : Nat) (c : Ctl) (ch : LaneChange), n < 48 → ctlOk 6 c = true → (s.link n).isUp = true →
    (s.link n).change = some ch →
    let first := ch.emergency && (ch.mine && !ch.txSwitched)
    ∃ t, exec (.laneSwitch n c) s = .next t ∧
      (ch.txSwitched = true ∨ first = true →
        (t.link n).mask = (if first then BitVec.ofNat 4 (bodyField c.body 1 1) else ch.mask) ∧ (t.link n).change = none ∧
        t.tallyOf .link n 8 = s.tallyOf .link n 8 + 1) ∧
      (ch.txSwitched = false → first = false →
        (t.link n).mask = (s.link n).mask ∧ (t.link n).change = some { ch with rxSwitched := true }) ∧
      (t.link n).ctlOut.map (·.ctype) = (s.link n).ctlOut.map (·.ctype) ++ (if first then [6] else []) ∧
      s.frame t [.links, .slices, .linkFace, .obs]) ∧
  (∀ (s : State) (n : Nat) (ch : LaneChange), (s.link n).change = some ch → ch.emergency = false →
    ∃ t, exec (.laneChangeAbandon n) s = .next t ∧ (t.link n).change = none ∧
      (t.link n).reqQuietUntil = s.time.ticks + 100000 ∧ (t.link n).mask = (s.link n).mask ∧
      (∀ j, j ≠ n → t.link j = s.link j) ∧ s.frame t [.links, .linkFace]) ∧
  (∀ (s : State) (n lane errors : Nat) (i : Instr) (m : BitVec 4) (em : Bool), (s.link n).isUp = true →
    (i = .laneDropBerExceeded n lane errors ∧ em = false ∧ m = (s.link n).without lane ∧ s.canChange n = true ∧
        (s.link n).mask.getLsbD lane = true ∧ 0 < s.reg kLaneDropBer ∧ s.reg kLaneDropBer < errors ∧ m ≠ 0 ∨
      i = .laneAddTrained n lane ∧ em = false ∧ lane < 4 ∧ s.canChange n = true ∧ bitAt (s.link n).caps.toNat 2 = true ∧
        (s.link n).mask.getLsbD lane = false ∧ (s.link n).barred.getLsbD lane = false ∧
        m = formMask ((s.link n).mask ||| ((s.link n).addReady ||| BitVec.ofNat 4 (2 ^ lane))) (s.link n).x2 ∧
        popCount (s.link n).mask.toNat 4 < popCount m.toNat 4 ∨
      i = .laneSignalLoss n lane ∧ em = true ∧ (s.link n).mask.getLsbD lane = true ∧ m = (s.link n).without lane ∧ m ≠ 0) →
    ∃ t, exec i s = .next t ∧ ∃ ch, (t.link n).change = some ch ∧ ch.mask = m ∧ ch.mine = true ∧ ch.emergency = em ∧
      ch.accepted = false ∧ ch.txSwitched = false ∧ ch.rxSwitched = false ∧
      (t.link n).reqId = (s.link n).reqId + 1 ∧ ch.reqId = (t.link n).reqId ∧ (t.link n).asking = some ch ∧
      (t.link n).ctlOut = (s.link n).ctlOut ∧
      (∀ j, j ≠ n → t.link j = s.link j) ∧ s.frame t [.links, .linkFace, .dict]) ∧
  (∀ (l : LinkSt) (ch : LaneChange) (board now : Nat), l.asking = some ch → l.isUp = true → l.downUntil ≤ now →
    l.alignSlot now = false → l.ctlOut = [] →
    l.nextCtl board now =
      some { ctype := 4, body := mkBody [(1, ch.reqId.toNat), (1, ch.mask.toNat), (1, b2n ch.emergency)] })) ∧
  ((∀ (s : State) (n : Nat) (c : Ctl), n < 48 → ctlOk 7 c = true → (s.link n).isUp = true →
    bitAt (s.link n).caps.toNat 3 = true →
    ∃ t, exec (.timeReq n c) s = .next t ∧
      (let b := mkBody [(2, bodyField c.body 0 2), (10, aoStamp s.time.ao), (10, 0)]
       (t.link n).ctlOut = { ctype := 8, body := b } :: (s.link n).ctlOut) ∧
      s.frame t [.links, .slices, .linkFace]) ∧
  (∀ (l : LinkSt) (o : CtlOut) (rest : List CtlOut) (board ao now : Nat), l.ctlOut = o :: rest → l.isUp = true →
    l.downUntil ≤ now → l.alignSlot now = false →
    (l.sendCtl board ao now).ctlOut = rest ∧
    (o.ctype = 8 → (l.sendCtl board ao now).ctlLast = some { o with
      body := mkBody [(2, bodyField o.body 0 2), (10, bodyField o.body 2 10), (10, aoStamp ao)] }) ∧
    (o.ctype = 7 → (l.sendCtl board ao now).exch = l.exch.map (fun e => (e.1, BitVec.ofNat 80 (aoStamp ao))) ∧
      (l.sendCtl board ao now).ctlLast = some { o with body := mkBody [(2, bodyField o.body 0 2), (10, aoStamp ao)] })) ∧
  (∀ (s : State) (n : Nat) (c : Ctl) (xid : BitVec 16) (t1 : BitVec 80), n < 48 → ctlOk 8 c = true →
    (s.link n).isUp = true → (s.link n).exch = some (xid, t1) → xid.toNat = bodyField c.body 0 2 →
    s.reg kTimeSource ≠ 1 →
    ∃ t, exec (.timeResp n c) s = .next t ∧ (t.link n).exch = none ∧
      t.time.linkOffset.get 0 n =
        ((stampNs (bodyField c.body 2 10) - stampNs t1.toNat : Int) - (s.time.ao - stampNs (bodyField c.body 12 10))) * 500
          - signed (s.reg (kTimeAsymmetry n)) 32 ∧
      t.time.ao = s.time.ao ∧ s.frame t [.links, .slices, .linkFace, .time]) ∧
  (∀ (s : State) (n : Nat), s.reg kTimeSource = 1 → n < 48 → bitAt (s.reg kTimeLinks) n = true →
    (s.link n).isUp = true → bitAt (s.link n).caps.toNat 3 = true →
    ∃ t, exec .timeExchInitiate s = .next t ∧ (t.link n).xid = (s.link n).xid + 1 ∧
      (t.link n).exch = some ((s.link n).xid + 1, BitVec.ofNat 80 (aoStamp s.time.ao)) ∧
      (t.link n).ctlOut.map (·.ctype) = (s.link n).ctlOut.map (·.ctype) ++ [7] ∧ s.frame t [.links, .linkFace]) ∧
  (∀ (s : State) (n : Nat), (s.link n).exch.isSome = true →
    ∃ t, exec (.timeExchDiscard n) s = .next t ∧ t.link n = { s.link n with exch := none } ∧
      (∀ j, j ≠ n → t.link j = s.link j) ∧ s.frame t [.links, .linkFace]))

/-- R38, R48, R50, R51: when training starts and when a link comes up: its numbers start at 0; a write of LINK_ENABLE lets
the links of its set bits train, and one of LINK_VERSIONS_ALLOWED is stored for the next training. R34, R45, R48 to R50:
every way a link that is up goes down, with its reason of Table 2.10: its receiver's numbers restart at 0, its partner's
capabilities are gone, the reason is recorded, and it is held after FLAP_LIMIT downs within 1 s; a clearing of its
LINK_ENABLE bit does not end that hold. -/
def Obligations.LinksTrainComeUpAndGoDown : Prop :=
  ((∀ (s : State) (n : Nat), n < 48 → (s.link n).phase = .training → (s.link n).retrain = false →
    (s.link n).seenSent = true → (s.link n).seenRecv = true → (s.link n).version ≠ 0 → (s.link n).mask ≠ 0 →
    s.halyardLinks.contains n = false →
    ∃ t, exec (.linkUp n) s = .next t ∧ (t.link n).phase = .up ∧ (t.link n).rxNext = 0 ∧ (t.link n).version = (s.link
      n).version ∧ (t.link n).mask = (s.link n).mask ∧
      (∀ j, j ≠ n → (t.link j).face = (s.link j).face) ∧
        s.frame t [.links, .linkFace, .stalls, .stallFace, .pitch, .slices, .pushes,
        .xbar, .repair, .obs]) ∧
  (∀ (s : State) (n : Nat) (i : Instr), s.repair.hostPortDead = false →
    (i = .linkRetrain n ∧ (s.link n).phase = .training ∧ (s.link n).retrain = true ∨
      i = .flapHoldExpiry n ∧ (s.link n).phase = .held ∧ (s.link n).hold = .flap) →
    ∃ t, exec i s = .next t ∧ (t.link n).phase = .training ∧ (t.link n).retrain = false ∧ (t.link n).version = 0 ∧
      (t.link n).allowedAtTrain = BitVec.ofNat 32 (s.reg (kLinkVersionsAllowed n)) ∧
      (∀ j, j ≠ n → t.link j = s.link j) ∧ s.frame t [.links, .linkFace]) ∧
  (∀ (s : State) (f : Frame) (v : Nat), s.accepts f (askWrite kLinkEnable 8 v) →
    ∃ t, exec (.linkEnableWrite f v) s = .next t ∧ t.reg kLinkEnable = v % 2 ^ 48 ∧
      ∀ n, n < 48 → (s.link n).phase = .disabled → s.linksServed = true → s.repair.hostPortDead = false →
        bitAt v n = true → (t.link n).phase = if (s.link n).hold = .flap then .held else .training) ∧
  (∀ (s : State) (f : Frame) (n v : Nat), n < 48 → s.accepts f (askWrite (kLinkVersionsAllowed n) 4 v) →
    s.repair.hostPortDead = false →
    ∃ t, exec (.linkVersionsAllowedWrite f n v) s = .next t ∧ t.reg (kLinkVersionsAllowed n) = v ∧
      (∀ k, k ≠ kLinkVersionsAllowed n → t.reg k = s.reg k) ∧
      ((s.link n).phase = .held → (s.link n).hold = .noVersion →
        (t.link n).phase = .training ∧ (t.link n).allowedAtTrain = BitVec.ofNat 32 v) ∧
      s.frame t [.dict, .links, .linkFace, .stalls, .xbar, .repair, .sec, .mgmt, .obs])) ∧
  (∀ (s : State) (n reason : Nat) (i : Instr), n < 48 → (s.link n).isUp = true →
    ((∃ c, i = .linkDown n c ∧ ctlOk 9 c = true ∧ reason = 6) ∨
      (i = .replayLimitReached n ∧ (s.link n).timerOn = true ∧ s.reg kReplayLimit ≤ (s.link n).expiries ∧ reason = 3) ∨
      (∃ ch, i = .emergencyDropTimeout n ∧ (s.link n).change = some ch ∧ ch.emergency = true ∧ reason = 1) ∨
      (∃ lane, i = .laneSignalLoss n lane ∧ (s.link n).mask.getLsbD lane = true ∧ (s.link n).without lane = 0 ∧
        reason = 1) ∨
      i = .codewordLockLoss n ∧ reason = 2) →
    ∃ t, exec i s = .next t ∧
      (t.link n).phase = (if s.reg kFlapLimit ≤
        (((s.time.ticks :: (s.link n).downTimes).filter fun d => decide (s.time.ticks < d + 1000000000)).length)
        then .held else .training) ∧
      (t.link n).rxNext = 0 ∧ (t.link n).mask = 0 ∧ (t.link n).caps = 0 ∧ (t.link n).version = 0 ∧
        (t.link n).change = none ∧
      t.reg (kLastDownReason n) = reason ∧
      (∀ j, j ≠ n → (t.link j).face = (s.link j).face) ∧
      s.frame t [.dict, .links, .linkFace, .stalls, .stallFace, .pitch, .slices, .pushes, .xbar, .pair, .repair, .obs])

/-- R25, R27, R29, R30, R33: what a packet that arrives does to the receiver's sync and numbers, by its header, its length
and its distance from the expected one, and what an acknowledgement timer's expiry does to the packets that wait. -/
def Obligations.PacketsAreTakenInSequence : Prop :=
  (∀ (s : State) (n : Nat) (p : RxPacket), (s.link n).isUp = true → (s.link n).inSync = true →
    let good := hdrOk p.hdr && decide (hdrUnits p.hdr ≤ 64)
    let whole := packetCrcOk p && p.payload.length == hdrUnits p.hdr
    let d := (hdrSeq p.hdr - (s.link n).rxNext).toNat
    ∃ t, exec (.linkPacketReceive n p) s = .next t ∧
      (good = false → (t.link n).inSync = false ∧ (t.link n).rxNext = (s.link n).rxNext ∧
        t.tallyOf .link n 3 = s.tallyOf .link n 3 + 1) ∧
      (good = true → whole = false → t.link n = s.link n ∧ t.tallyOf .link n 2 = s.tallyOf .link n 2 + 1) ∧
      (good = true → whole = true →
        (d = 0 → (t.link n).rxNext = (s.link n).rxNext + 1) ∧
        (0 < d → d < 32768 → (t.link n).rxNext = (s.link n).rxNext ∧ t.tallyOf .link n 4 = s.tallyOf .link n 4 + 1) ∧
        (32768 ≤ d → (t.link n).rxNext = (s.link n).rxNext ∧ t.tallyOf .link n 5 = s.tallyOf .link n 5 + 1 ∧
          (t.link n).ctlOut = (s.link n).ctlOut ++ [{ ctype := 1, body := 0 }])) ∧
      (good = false ∨ whole = false ∨ d ≠ 0 → s.frame t [.links, .linkFace, .slices, .obs])) ∧
  (∀ (s : State) (n : Nat), (s.link n).isUp = true → (s.link n).timerOn = true → 0 < (s.link n).unacked.length →
    (s.link n).expiries + 1 < s.reg kReplayLimit → s.sramOk →
    ∃ t, exec (.ackTimeoutExpiry n) s = .next t ∧
      (t.link n).unacked = (s.link n).unacked.map (fun p => { p with replay := true }) ∧
      (t.link n).expiries = (s.link n).expiries + 1 ∧ (t.link n).txSeq = (s.link n).txSeq ∧
      (∀ j, j ≠ n → t.link j = s.link j) ∧ s.frame t [.links, .obs])

/-- R54, R65: a READ, WRITE, WRITE_MASKED, ATOMIC, FLUSH or INVALIDATE outside a coherent window that passes every check
does the work of its units in order on arrival, and its tracker entry holds the outcome and waits at its slice's input. 08
R177: a WRITE for whose lines the snapshot buffer has no room is not performed, and its entry answers RETRY_BUSY. -/
def Obligations.OrdinaryRequestsDoTheirUnits : Prop :=
  ∀ (s : State) (st : Nat) (op : ReqOp) (r : Req) (i : Instr), requestOf i = some (op, r) → s.takes st op r →
    op ∈ [ReqOp.read, .write, .writeMasked, .atomic, .flush, .invalidate] →
    let u := s.entered st op r
    let off := u.localOff r
    let n := (u.sliceOf off).1
    let b : Trk := { newTrk st op r with
      slot := if op.usesKey then some (u.slotOf off) else none
      units := if op == .read || op == .cohRead then List.replicate r.len 0 else [] }
    (u.slice n).stopped = false →
    ∃ t, exec i s = .next t ∧
      (op = .write → u.writeRoom r = false →
        (t.slice n).tracker = (u.slice n).tracker ++ [{ b with status := .retryBusy, id := (u.slice n).nextId }] ∧
        t.chans = u.chans ∧ t.xbar.inWait.get [] n = u.xbar.inWait.get [] n ++ [(r.link, (u.slice n).nextId)]) ∧
      ((op = .write → u.writeRoom r = true) → (u.reqEntry r).coherent = false →
        let w := (u.touch off).unitsDo { b with waits := u.flushWaits st op r, todo := upTo (unitCount op r) } (upTo (unitCount op r))
        (t.slice n).tracker = (w.1.slice n).tracker ++
          [{ w.2 with result := w.2.finalResult, todo := [], id := (w.1.slice n).nextId }] ∧
        t.chans = w.1.chans ∧ t.xbar.inWait.get [] n = w.1.xbar.inWait.get [] n ++ [(r.link, (w.1.slice n).nextId)]) ∧
      (op = .write ∧ u.writeRoom r = false ∨ (u.reqEntry r).coherent = false →
        s.frame t [.links, .stalls, .stallFace, .shapers, .pitch, .slices, .chans, .xbar, .pair, .repair, .repairFace,
          .sec, .secFace, .obs, .clock])

/-- The memory frame of a host request: every line but those of its own units is served as before, in every channel and
half-stack; and a FLUSH or INVALIDATE outside a coherent window leaves all of them. R117 to R119: storing a line puts it
where its offset is served from, at that line alone. -/
def Obligations.RequestsStoreOnlyToTheirLines : Prop :=
  (∀ (s : State) (st : Nat) (op : ReqOp) (r : Req) (i : Instr), requestOf i = some (op, r) → s.takes st op r →
    op ∈ [ReqOp.read, .write, .writeMasked, .atomic, .flush, .invalidate] →
    let u := s.entered st op r
    (u.slice (u.sliceOf (u.localOff r)).1).stopped = false → (u.reqEntry r).coherent = false →
    ∃ t, exec i s = .next t ∧
      ∀ c k, (op = .flush ∨ op = .invalidate ∨
          ∀ j, j < unitCount op r → (c, k) ≠ ((u.home (u.unitOff r j)).unit, (u.home (u.unitOff r j)).line)) →
        t.unitLine c k = s.unitLine c k) ∧
  (∀ (s : State) (off : Nat) (l : SLine),
    (s.storeLine off l).1.stored off = l ∧
    ∀ c k, (c, k) ≠ ((s.home off).unit, (s.home off).line) → (s.storeLine off l).1.unitLine c k = s.unitLine c k)

/-- R54: the old value that an ATOMIC answers, and what it stores, by its MOD. -/
def Obligations.AtomicsComputeTheirResult : Prop :=
  ∀ (s : State) (t : Trk), t.op = .atomic → t.status = .ok →
    let off := s.unitOff t.req 0
    let b := t.req.addr.toNat % 64
    s.homeDown off = false → s.snapRoom off = true →
    ∀ old, (s.plainOf off (s.slotOf off) (s.stored off).decode) = (.ok, old) →
      (s.unitDo t 0).2.status = .ok ∧ (s.unitDo t 0).2.result = lineWord old b ∧
      (let x := lineWord old b
       let y := lineWord (unitOf t.req 0) 0
       let z := lineWord (unitOf t.req 0) 8
       let new := match t.req.mod with
         | 0 => x + y | 1 => y | 2 => if x = z then y else x | 3 => x &&& y | 4 => x ||| y
         | 5 => if x.ult y then y else x | _ => if y.ult x then y else x
       (s.unitDo t 0).1.stored off = codeword ((s.key (s.slotOf off)).seal (s.tweakOf off) (setLineWord old b new)))

/-- R158, R159, R161: a DOORBELL that passes every check: MOD 0 queues a launch under the barrow's next LAUNCH_SEQ, with
the packet's parameters or the standing ones, and its tag is recorded with that number; MOD 1 replaces the standing
parameters. R182: the launch keeps the configuration it was accepted under. -/
def Obligations.DoorbellsQueueLaunches : Prop :=
  ∀ (s : State) (st : Nat) (r : Req) (i : Instr), requestOf i = some (.doorbell, r) → s.takes st .doorbell r →
    let u := s.entered st .doorbell r
    let head := u.headOf (r.addr.toNat % 4096)
    (u.slice (r.addr.toNat % 4096 / 512)).stopped = false →
    ∃ t, exec i s = .next t ∧
      (r.mod = 0 → ∃ l, (t.barrow head).queue = (s.barrow head).queue ++ [l] ∧
        l.seq = ((s.barrow head).launchSeq + 1) % 2 ^ 32 ∧ l.host = r.host ∧ l.kind = .doorbell ∧
        l.params = (if r.len = 1 then paramsOf r else (s.barrow head).standing) ∧
        l.base = (s.barrow head).base ∧ l.last = (s.barrow head).last ∧ l.tenant = (s.barrow head).tenant ∧
        l.owner = (s.barrow head).owner ∧ l.budget = s.reg kDescBudget ∧ l.active = s.reg kActivePrograms ∧
        l.gang = ((s.barrow head).gang && head / 512 == s.firstSlice) ∧
        (t.stall st).slot r.tag = ({
          valid := true, tag := r.tag, opcode := 0x20, status := .ok, result := BitVec.ofNat 64 l.seq } : TagSlot)) ∧
      (r.mod = 1 → t.barrow head = { s.barrow head with standing := paramsOf r } ∧
        (t.stall st).slot r.tag = ({ valid := true, tag := r.tag, opcode := 0x20, status := .ok, result := 0 } : TagSlot)) ∧
      s.frame t [.stalls, .stallFace, .shapers, .slices, .barrows, .xbar, .pair, .sec, .secFace, .obs, .clock]

/-- R216, Table 10.2, and the NOP of Table 3.3: a MARK above the last one from the set source, to apply at once, becomes
the step number and phase; every other MARK and a NOP are answered at the host port and leave the step number. R95, R97: a
HINT is entered in its slice's tracker, and is carried out when the pipeline grants it: at pitch scope it names its hint
in every granule of the pitch, when its address is the first byte of the pitch's first granule; and REDUCE_WRITE does what
its accumulation region does with its elements (09 R186). -/
def Obligations.MarksNopsAndHintsTakeEffect : Prop :=
  ((∀ (s : State) (st : Nat) (r : Req), s.takes st .nop r →
    ∃ t, exec (.nop r) s = .next t ∧ t = (s.entered st .nop r).reply st .nop r .ok 0 ∧
      s.frame t [.links, .stalls, .stallFace, .shapers, .xbar, .obs]) ∧
  (∀ (s : State) (st : Nat) (r : Req), s.takes st .mark r →
    let u := s.entered st .mark r
    let p := payloadNat r
    let v := bits p 0 48 * 65536 + bits p 48 16
    ∃ t, exec (.mark r) s = .next t ∧
      (s.reg kMarkSource = r.host → reqOff r = 0 → bits p 64 80 = 0 → s.markLast < v →
        t = (u.applyMark v).reply st .mark r .ok 0 ∧ t.time.step = bits p 0 48 ∧ t.time.mphase = bits p 48 16) ∧
      (s.reg kMarkSource ≠ r.host ∨ v ≤ s.markLast →
        t.time.step = s.time.step ∧ t.time.mphase = s.time.mphase ∧ t.tallyOf .board 0 5 = s.tallyOf .board 0 5))) ∧
  ((∀ (s : State) (st : Nat) (r : Req), s.takes st .hint r →
    let u := s.entered st .hint r
    let n := (u.sliceOf (u.localOff r)).1
    (u.slice n).stopped = false →
    ∃ t, exec (.hint r) s = .next t ∧
      (t.slice n).tracker = (u.slice n).tracker ++ [{ newTrk st .hint r with id := (u.slice n).nextId }] ∧
      t.xbar.inWait.get [] n = u.xbar.inWait.get [] n ++ [(r.link, (u.slice n).nextId)] ∧
      s.frame t [.stalls, .stallFace, .shapers, .slices, .xbar, .sec, .secFace, .obs, .clock]) ∧
  (∀ (s : State) (n : Nat) (o : PipeOp) (h : Trk), n < 8 → (s.slice n).park ≠ .parked →
    let p := (s.slice n).pipe.age.overflow
    p.pick = some 3 → (p.grant 3).1 = some o → o.source ≠ cohSource → (s.slice n).trk o.what = some h →
    h.stage = .queued → h.op = .hint →
    let u := s.updSlice n fun x => { x with pipe := (p.grant 3).2 }
    let off := u.localOff h.req
    ∃ t, exec (.pipelineGrant n) s = .next t ∧
      (∃ e, (t.slice n).trk o.what = some e ∧ e.stage = .done ∧ e.status = (u.hintDo h.stall h.req).2) ∧
      (h.req.addr.toNat % 4096 = 0 → off % 2 ^ 24 = 0 → u.pitchFirst (off / 2 ^ 24) = true → u.forPartner h.req = false →
        ∀ g, (s.granule g).phase = .granted → (s.granule g).pitch = (s.ownerOf off).pitch →
          (t.granule g).hint = h.req.mod)) ∧
  (∀ (s : State) (st : Nat) (r : Req), s.takes st .reduceWrite r →
    let u := s.entered st .reduceWrite r
    let off := u.localOff r
    let n := (u.sliceOf off).1
    (u.slice n).stopped = false →
    ∃ t, exec (.reduceWrite r) s = .next t ∧
      (let b := { newTrk st .reduceWrite r with slot := some (u.slotOf off) }
       let w := (u.touch off).reduceWrite b
       (t.slice n).tracker = (w.1.slice n).tracker ++ [{ w.2 with id := (w.1.slice n).nextId }] ∧ t.chans = w.1.chans)))

/-- R145: a request to a coherent window that passes every check is entered in its slice's tracker with its units to do,
and the slice's coherent work runs; a write-back is applied first where a snoop of its line is out. -/
def Obligations.CoherentRequestsMeetTheDirectory : Prop :=
  ∀ (s : State) (st : Nat) (op : ReqOp) (r : Req) (i : Instr), requestOf i = some (op, r) → s.takes st op r →
    op ∈ [ReqOp.read, .write, .writeMasked, .atomic, .flush, .invalidate, .cohRead, .cohWriteback] →
    let u := s.entered st op r
    let off := u.localOff r
    let n := (u.sliceOf off).1
    (u.slice n).stopped = false → (u.reqEntry r).coherent = true → (op = .write → u.writeRoom r = true) →
    ∃ (t v : State) (e : Trk), exec i s = .next t ∧ t = v.cohGo n ∧ e ∈ (v.slice n).tracker ∧ e.id = (u.slice n).nextId ∧
      e.op = op ∧ e.req = r ∧
      (op ≠ .cohWriteback → e.stage = .snooping ∧ e.todo = upTo (unitCount op r) ∧
        v.chans = u.chans ∧ v.snoops = u.snoops ∧ ∀ k, (v.slice n).dirAt k = (u.slice n).dirAt k) ∧
      s.frame t [.links, .stalls, .stallFace, .shapers, .pitch, .slices, .chans, .snoops, .nextTag, .xbar, .pair,
        .repair, .repairFace, .sec, .secFace, .obs, .clock]

/-- R56, R59, R15, 12 R245: a request of a stall that is not ATTACHED, one its stall's IN shaper does not admit, one for a
board number that the board does not serve, a malformed one, and one whose rights fail are answered with that check's
status, and do none of their work. -/
def Obligations.RefusedRequestsDoNoWork : Prop :=
  ∀ (s : State) (st : Nat) (op : ReqOp) (r : Req) (i : Instr), requestOf i = some (op, r) →
    (r.link < 48 → (s.link r.link).isUp = true →
      ((s.link r.link).kind = 0 ∧ (s.link r.link).partner = r.host ∨
        (s.link r.link).kind = 1 ∧ (s.stall st).linkSet.getLsbD r.link = true) →
      s.gapStall r = none → s.stallFor r = some st → (s.stall st).phase ≠ .attached → s.unsupported st op r = false →
      ∃ t, exec i s = .next t ∧ t = (s.count .stall st op.row).reply st op r .fenced 0 ∧
        s.frame t [.links, .stalls, .xbar, .obs]) ∧
    (s.inOrder st op r →
      let a := s.arrived st op r
      a.unsupported st op r = false → a.mustWait st r = false → a.staleBarrow op r = false →
      (op ≠ .mark → op ≠ .nop → a.admits st = false →
        ∃ t, exec i s = .next t ∧ t = (a.count .stall st 33).reply st op r .retryBusy (if a.inGap r then 15 else 0) ∧
          s.frame t [.links, .stalls, .stallFace, .xbar, .obs]) ∧
      (a.inGap r = false → (op = .mark ∨ op = .nop ∨ a.admits st = true) → a.wrongBoard op r = true →
        ∃ t, exec i s = .next t ∧
          t = (((s.entered st op r).count .stall st 38).switchMiss st r).reply st op r .accessDenied 0 ∧
          s.frame t [.links, .stalls, .stallFace, .shapers, .pitch, .xbar, .repair, .obs])) ∧
    (s.inOrder st op r → (s.arrived st op r).goesOn st op r → wellFormedReq op r = false →
      ∃ t, exec i s = .next t ∧ t = ((s.entered st op r).count .stall st 32).reply st op r .accessDenied 0 ∧
        s.frame t [.links, .stalls, .stallFace, .shapers, .xbar, .obs]) ∧
    (s.inOrder st op r → (s.arrived st op r).goesOn st op r → wellFormedReq op r = true →
      (s.entered st op r).rightsOf op r ≠ .ok →
      ∃ t, exec i s = .next t ∧ (∃ x, t = State.reply x st op r ((s.entered st op r).rightsOf op r) 0) ∧
        s.frame t [.links, .stalls, .stallFace, .shapers, .pitch, .xbar, .pair, .repair, .obs])

/-- R59 to R62, R65, R67, R73: with no packet that may go, a release changes nothing; otherwise the earliest one goes to
the checks and, passing them, is charged and served, then the others in their turn. A skipped tag's slot takes TIMEOUT and
N moves past it. A finished request's response joins its slice's egress, is held without a live link, or is dropped where
its stall is fenced; a held one is dropped at its expiry. -/
def Obligations.HeldRequestsAndResponsesMoveOn : Prop :=
  (∀ (s : State) (st : Nat),
    (s.nextHeld st = none → exec (.reorderRelease st) s = .next s) ∧
    ∀ op r u, s.nextHeld st = some (op, r) →
      u = s.updStall st (fun x => { x with held := x.held.filter fun h => h.2.tag != r.tag }) →
      (u.stall st).phase = .attached → u.goesOn st op r → wellFormedReq op r = true → s.sramOk →
      (u.chargeIn st (28 + 64 * r.payload.length)).rightsOf op r = .ok →
      ∃ t, exec (.reorderRelease st) s = .next t ∧ s.frame t [.dict, .links, .stalls, .stallFace, .shapers, .pitch,
        .slices, .chans, .snoops, .nextTag, .barrows, .trees, .time, .gates, .xbar, .pair, .repair, .repairFace, .sec,
          .secFace,
        .obs, .clock] ∧
        t = State.release st ((s.stall st).held.length - 1) ((u.chargeIn st (28 + 64 * r.payload.length)).serve st op r)) ∧
  (∀ (s : State) (st : Nat), (s.stall st).phase = .attached → (s.stall st).ahead ≠ [] →
    ∃ u t, exec (.reorderTimeoutExpiry st) s = .next t ∧ s.frame t [.dict, .links, .stalls, .stallFace, .shapers, .pitch,
      .slices, .chans, .snoops, .nextTag, .barrows, .trees, .time, .gates, .xbar, .pair, .repair, .repairFace, .sec,
        .secFace,
      .obs, .clock] ∧
      s.frame u [.stalls, .stallFace, .pair, .repair, .obs] ∧
      (let x := s.stall st
       (u.stall st).tags.get {} (x.next.toNat % 4096) =
         ({ valid := true, tag := x.next, opcode := 0, status := .timeout, result := 0 } : TagSlot) ∧
       (u.stall st).next = (x.arrive x.next).next ∧
       (x.next ∉ x.ahead → x.next + 1 ∉ x.ahead → (u.stall st).next = x.next + 1) ∧
       (u.stall st).held = x.held ∧
       t = (State.release st x.held.length u).crier 8 0x07 st x.next.toNat [x.host] ∧
       s.tallyOf .stall st 37 + 1 = u.tallyOf .stall st 37)) ∧
  (∀ (s : State) (k id : Nat) (e : Trk), (s.slice k).trk id = some e → e.stage = .done → s.halCovered e.hseq = true →
    s.waitsOver e = true → s.sramOk →
    let silent := (s.stall e.stall).phase = .fenced ∨ (s.stall e.stall).phase = .detaching ∧
      (s.stall e.stall).wasFenced = true
    ∃ t, exec (.sliceResponseReady k id) s = .next t ∧ s.frame t [.pitch, .slices, .obs] ∧
      (silent → (t.slice k).trk id = none ∧ (t.slice k).egress = (s.slice k).egress) ∧
      (¬ silent → s.liveLinks e.stall = [] →
        (t.slice k).trk id = some { e with stage := .heldResp } ∧ (t.slice k).egress = (s.slice k).egress) ∧
      (¬ silent → s.liveLinks e.stall ≠ [] →
        (t.slice k).trk id = some { e with stage := .egress } ∧
        (t.slice k).egress = (s.slice k).egress ++ [({
          stall := e.stall, tc := e.req.tc, origin := .slice k id, msg := .resp (e.resp (s.trkLoad k e)) } : EgPkt)])) ∧
  (∀ (s : State) (k id : Nat) (e : Trk), (s.slice k).trk id = some e → e.stage = .heldResp →
    ∃ t, exec (.responseHoldExpiry k id) s = .next t ∧ s.frame t [.pitch, .slices, .obs] ∧ (t.slice k).trk id = none ∧
      ∀ j, j ≠ id → (t.slice k).trk j = (s.slice k).trk j)

/-- R64, R71: an attach takes the stall it chooses through its steps, epoch, reorder state, HOST_ID and links, and records
the new epoch; one that is refused leaves its code and changes no stall. -/
def Obligations.StallsAttach : Prop :=
  ∀ (s : State) (f : Frame) (v : Nat), s.accepts f (askWrite kAttachGo 1 v) →
    ∃ t, exec (.attach f v) s = .next t ∧
      (∀ st, s.attachCheck = (0, st) →
        (t.stall st).phase = .attached ∧ (t.stall st).epoch = (s.stall st).epoch + 1 ∧
        (t.stall st).host = s.reg kAttachHost ∧
          (t.stall st).linkSet = (s.stall st).linkSet ||| s.hostLinks (s.reg kAttachHost) ∧
        (t.stall st).next = 0 ∧ (t.stall st).ahead = [] ∧ (t.stall st).held = [] ∧ (t.stall st).tags = [] ∧
        t.reg kAttachResult = ((s.stall st).epoch + 1).toNat * 2 ^ 16 + st ∧
        (t.shaper st).creditIn = 0 ∧ (t.shaper st).creditOut = 0 ∧
        ∀ j, j ≠ st → (t.stall j).face = (s.stall j).face) ∧
      (∀ r st, s.attachCheck = (r + 1, st) →
        t.reg kAttachResult = (r + 1) * 2 ^ 24 ∧ ∀ j, (t.stall j).face = (s.stall j).face) ∧
      s.frame t [.dict, .links, .stalls, .stallFace, .shapers, .xbar, .pair, .repair, .sec, .mgmt, .obs]

/-- R73, R75: FENCE, a host declared dead, DETACH and its completion move a stall through its states and empty its reorder
stage; FENCE and DETACH of a stall in another state are refused and change no stall. R72, 01 R14: a STALL_TABLE row sets
the order mode, the strict classes and LINK_SET, of which direct host links keep the board's bit; the reserved mode and a
bit the manager may not set are refused. BOARD_NUMBER is written unless a grant, a pitch or a move fixes it. -/
def Obligations.StallsAreFencedAndDetached : Prop :=
  ((∀ (s : State) (f : Frame) (st : Nat), st < 1024 → s.accepts f (askWrite kFence 2 st) →
    ∃ t, exec (.fence f st) s = .next t ∧
      ((s.stall st).phase = .attached → (t.stall st).phase = .fenced ∧ (t.stall st).held = []) ∧
      ((s.stall st).phase ≠ .attached → s.frame t [.links, .stalls, .xbar, .repair, .sec, .mgmt, .obs]) ∧
      s.frame t [.links, .stalls, .stallFace, .pitch, .slices, .chans, .snoops, .nextTag, .trees, .pushes, .xbar,
        .pair, .repair, .repairFace, .sec, .secFace, .mgmt, .obs, .clock]) ∧
  (∀ (s : State) (st : Nat), (s.stall st).phase = .attached → s.liveLinks st = [] →
    ∃ t, exec (.hostDead st) s = .next t ∧ (t.stall st).phase = .fenced ∧ (t.stall st).held = [] ∧
      s.frame t [.links, .stalls, .stallFace, .pitch, .slices, .chans, .snoops, .nextTag, .trees, .pushes, .xbar,
        .pair, .repair, .repairFace, .sec, .secFace, .obs, .clock]) ∧
  (∀ (s : State) (f : Frame) (st : Nat), st < 1024 → s.accepts f (askWrite kDetach 2 st) →
    ∃ t, exec (.detach f st) s = .next t ∧
      ((s.stall st).phase = .attached ∨ (s.stall st).phase = .fenced →
        (t.stall st).phase = .detaching ∧ (t.stall st).held = []) ∧
      ((s.stall st).phase = .free ∨ (s.stall st).phase = .detaching →
        s.frame t [.links, .stalls, .xbar, .repair, .sec, .mgmt, .obs]) ∧
      s.frame t [.links, .stalls, .stallFace, .pitch, .slices, .chans, .snoops, .nextTag, .trees, .pushes, .xbar,
        .pair, .repair, .repairFace, .sec, .secFace, .mgmt, .obs, .clock]) ∧
  (∀ (s : State) (st : Nat), (s.stall st).phase = .detaching → s.stallBusy st = false →
    ∃ t, exec (.detachComplete st) s = .next t ∧ (t.stall st).phase = .free ∧ (t.stall st).linkSet = 0 ∧
      (t.stall st).epoch = (s.stall st).epoch ∧ (t.stall st).host = (s.stall st).host ∧
      s.frame t [.links, .stalls, .stallFace, .pair, .repair, .obs])) ∧
  ((∀ (s : State) (f : Frame) (st v : Nat), s.accepts f (askRows kStallTable 16 st [v]) →
    ∃ t, exec (.stallTableWrite f st [v]) s = .next t ∧
      (bits v 60 2 ≠ 3 → s.linkSetBad st (v / 2 ^ 64) = false →
        (t.stall st).orderMode = bits v 60 2 ∧ (t.stall st).strictTc = BitVec.ofNat 8 (bits v 52 8) ∧
        (t.stall st).phase = (s.stall st).phase ∧ (t.stall st).epoch = (s.stall st).epoch ∧
        (∀ n, n < 48 → (t.stall st).linkSet.getLsbD n = if s.hostLink n then (s.stall st).linkSet.getLsbD n
          else bitAt (v / 2 ^ 64) n) ∧
        ∀ j, j ≠ st → (t.stall j).face = (s.stall j).face) ∧
      (bits v 60 2 = 3 ∨ s.linkSetBad st (v / 2 ^ 64) = true → ∀ j, (t.stall j).face = (s.stall j).face) ∧
      s.frame t [.links, .stalls, .stallFace, .xbar, .pair, .repair, .sec, .mgmt, .obs]) ∧
  (∀ (s : State) (f : Frame) (v : Nat), v < 256 → s.accepts f (askWrite kBoardNumber 1 v) →
    ∃ t, exec (.boardNumberWrite f v) s = .next t ∧
      (s.boardNumberFixed = false → t.board = v ∧ ∀ k, k ≠ kBoardNumber → t.reg k = s.reg k) ∧
      (s.boardNumberFixed = true → t.dict = s.dict) ∧
      s.frame t [.dict, .links, .stalls, .xbar, .pair, .repair, .sec, .mgmt, .obs]))

/-- R83: an accepted GRANT begins, a refused one leaves its code; the completed grant has written every granule of its run
GRANTED with its fields, keeping WRITTEN, and nothing else of the table, and PITCH_GENERATION has advanced. -/
def Obligations.GrantsWriteTheirGranules : Prop :=
  (∀ (s : State) (f : Frame) (v : Nat), s.accepts f (askWrite kGrantGo 1 v) →
    ∃ t, exec (.grant f v) s = .next t ∧
      (s.grantCheck = 0 → t.reg kGrantResult = 2 ∧ t.pitch.grantRun = some
        (⟨s.grantFields, s.reg kGrantFirst, s.reg kGrantCount, 0, s.reg kGrantFlags, none⟩ : GrantRun)) ∧
      (s.grantCheck ≠ 0 → t.reg kGrantResult = s.grantCheck ∧ t.pitch = s.pitch) ∧
      s.frame t [.dict, .links, .stalls, .pitch, .xbar, .repair, .sec, .mgmt, .obs]) ∧
  (∀ (s : State) (r : GrantRun), s.pitch.grantRun = some r → r.done ≤ r.count → (s.grantRest r).1.halCovered (s.grantRest
    r).2 = true →
    ∃ t, exec .grantComplete s = .next t ∧
      (∀ g, r.first + r.done ≤ g → g < r.first + r.count → t.granule g = { r.entry with written := (s.granule g).written
        }) ∧
      (∀ g, g < r.first + r.done ∨ r.first + r.count ≤ g → t.granule g = s.granule g) ∧
      t.pitch.grantRun = none ∧ t.reg kPitchGeneration = (s.reg kPitchGeneration + 1) % 2 ^ 32 ∧ t.reg kGrantResult = 0 ∧
      s.frame t [.dict, .links, .pitch, .pair, .repair, .sec, .obs])

/-- R84 to R86: in its cycle a revoke takes a match entry, advances PITCH_GENERATION and sets the granules it covers
REVOKING; at its end they are HELD, the entry is free and RESULT reads 0; without a free entry, or during a grant, it is
refused with 1. R77, R102, R78: CLEAR runs over a run of HELD granules alone, of which those never written are FREE at
once; at its end all are FREE, their entries as at reset, and its result waits for the partner's acknowledgement (13
R274). An access-list row is written unless it gives a host a second valid entry of its list. -/
def Obligations.GranulesAreHeldAndFreed : Prop :=
  ((∀ (s : State) (f : Frame) (v : Nat), s.accepts f (askWrite kRevokeGo 1 v) →
    ∃ t, exec (.revoke f v) s = .next t ∧
      (s.pitch.grantRun = none → (∃ n, n < 16 ∧ (s.revoke n).valid = false) →
        t.reg kRevokeResult = 2 ∧ t.reg kPitchGeneration = (s.reg kPitchGeneration + 1) % 2 ^ 32 ∧
        (∃ n, n < 16 ∧ (s.revoke n).valid = false ∧ (t.revoke n).valid = true ∧
          (t.revoke n).kind = s.reg kRevokeMatch ∧ (t.revoke n).value = s.reg kRevokeValue) ∧
        ∀ g, (s.granule g).phase = .granted →
          (s.reg kRevokeMatch = 0 ∧ (s.granule g).pitch = s.reg kRevokeValue ∨
            s.reg kRevokeMatch = 1 ∧ (s.granule g).tenant = s.reg kRevokeValue ∨ 2 ≤ s.reg kRevokeMatch) →
          (t.granule g).phase = .revoking) ∧
      (s.pitch.grantRun.isSome = true ∨ (∀ n, n < 16 → (s.revoke n).valid = true) →
        t.reg kRevokeResult = 1 ∧ t.pitch = s.pitch) ∧
      s.frame t [.dict, .links, .stalls, .stallFace, .pitch, .slices, .chans, .snoops, .nextTag, .barrows, .trees,
        .xbar, .pair, .repair, .repairFace, .sec, .secFace, .mgmt, .obs, .clock]) ∧
  (∀ (s : State) (n : Nat), (s.revoke n).valid = true → (s.revoke n).expired = false →
    ∃ t, exec (.revokeDeadlineExpiry n) s = .next t ∧ (t.revoke n).expired = true ∧ (t.revoke n).valid = true ∧
      s.frame t [.links, .stalls, .stallFace, .pitch, .slices, .chans, .snoops, .nextTag, .xbar, .pair, .repair,
        .repairFace, .sec, .secFace, .obs, .clock]) ∧
  (∀ (s : State) (n : Nat), (s.revoke n).valid = true → s.revokePending n = false → s.repair.retiring = none →
    ∃ t, exec (.revokeDone n) s = .next t ∧ t.revoke n = {} ∧ t.reg kRevokeResult = 0 ∧
      (∀ g, (s.granule g).phase = .revoking → (s.revoke n).covers (s.granule g) = true →
        t.granule g = { s.granule g with phase := .held }) ∧
      (∀ g, (∀ q ∈ s.pitch.table, q.1 = g → q.2.phase ≠ .revoking ∨ (s.revoke n).covers q.2 = false) →
        t.granule g = s.granule g) ∧
      s.frame t [.dict, .links, .stalls, .pitch, .slices, .pair, .repair, .sec, .obs])) ∧
  ((∀ (s : State) (f : Frame) (v : Nat), s.accepts f (askWrite kClearGo 1 v) →
    ∃ t, exec (.clear f v) s = .next t ∧
      (let first := s.reg kClearFirst
       let count := s.reg kClearCount
       let held := (s.runWhere first count fun e => e.phase == .held).length
       (s.boot.stage = .ready → s.pitch.clearRun = none → held = count → first + count ≤ s.reach →
         (∃ r, t.pitch.clearRun = some r ∧ r.first = first ∧ r.count = count) ∧ t.reg kClearResult = 2 ∧
         ∀ g, first ≤ g → g < first + count → (s.granule g).phase = .held → (s.granule g).written = false →
           t.granule g = {}) ∧
       (s.boot.stage = .ready → s.pitch.clearRun = none → held ≠ count ∨ s.reach < first + count →
         t.reg kClearResult = 3 ∧ t.pitch = s.pitch ∧ t.chans = s.chans) ∧
       (s.boot.stage ≠ .ready ∨ s.pitch.clearRun.isSome = true →
         t.reg kClearResult = 1 ∧ t.pitch = s.pitch ∧ t.chans = s.chans)) ∧
      s.frame t [.dict, .links, .stalls, .pitch, .slices, .chans, .xbar, .pair, .repair, .repairFace, .sec, .mgmt, .obs,
        .clock]) ∧
  (∀ (s : State) (r : ClearRun), s.pitch.clearRun = some r →
    let w := s.clearAll (s.runWhere r.first r.count fun e => e.phase == .held)
    let h := laterHseq r.hseq w.2
    ∃ t, exec .clearDone s = .next t ∧
      (w.1.halCovered h = true → t.pitch.clearRun = none ∧ t.reg kClearResult = 0) ∧
      (w.1.halCovered h = false → t.pitch.clearRun = some { r with hseq := h } ∧ t.dict = s.dict) ∧
      (∀ g, r.first ≤ g → g < r.first + r.count → (s.granule g).phase = .held → t.granule g = {}) ∧
      (∀ g, g < r.first ∨ r.first + r.count ≤ g ∨ (∀ q ∈ s.pitch.table, q.1 = g → q.2.phase ≠ .held) →
        t.granule g = s.granule g) ∧
      s.frame t [.dict, .links, .pitch, .slices, .chans, .pair, .repair, .repairFace, .obs, .clock]) ∧
  (∀ (s : State) (f : Frame) (row v : Nat), s.accepts f (askRows kAclTable 4 row [v]) →
    ∃ t, exec (.aclTableWrite f row [v]) s = .next t ∧
      (s.aclClash row (aclOfWord v) = false → t.pitch.acl.get {} row = aclOfWord v ∧
        (∀ j, j ≠ row → t.pitch.acl.get {} j = s.pitch.acl.get {} j) ∧ t.pitch.table = s.pitch.table) ∧
      (s.aclClash row (aclOfWord v) = true → t.pitch = s.pitch) ∧
      s.frame t [.links, .stalls, .pitch, .xbar, .pair, .repair, .sec, .mgmt, .obs]))

/-- R99 to R102: a move starts only in an open window: the first COLD resident frame leaves, clean at once or EVICTING;
with none a HOT region fills a free way, or waits for a dirty victim to leave. A finished fill is RESIDENT and clean, a
finished eviction FREE, or filling for the region that waited; a move abandoned leaves its frame as R101 says. -/
def Obligations.RegionsMoveBetweenTiers : Prop :=
  (∀ (s : State) (n : Nat), n < 8 → (s.slice n).inService = true → s.migrateOpen n = true →
    (s.slice n).moving < s.reg kMigrateParallel → s.windowOk n = true →
    ∃ t, exec (.migrateMoveStart n) s = .next t ∧
      (∀ f e, (s.slice n).frames.find? (fun p => p.2.phase == .resident && s.hintOf n p.2.region == 2) = some (f, e) →
        ((s.slice n).frames.get {} f).pages = 0 → (t.slice n).frames.get {} f = {} ∧ t.tallyOf .slice n 53 = s.tallyOf
          .slice n 53 + 1) ∧
      (∀ f e, (s.slice n).frames.find? (fun p => p.2.phase == .resident && s.hintOf n p.2.region == 2) = some (f, e) →
        ((s.slice n).frames.get {} f).pages ≠ 0 →
        (t.slice n).frames.get {} f = { (s.slice n).frames.get {} f with phase := .evicting } ∧ t.chans = s.chans) ∧
      (∀ r l f, (s.slice n).frames.find? (fun p => p.2.phase == .resident && s.hintOf n p.2.region == 2) = none →
        s.fillable n 3 = [] → s.fillable n 1 = r :: l →
        (setFrames r).find? (fun f => ((s.slice n).frames.get {} f).phase == .free) = some f →
        ((t.slice n).frames.get {} f).phase = .filling ∧ ((t.slice n).frames.get {} f).region = r ∧
        ((t.slice n).frames.get {} f).pages = 0 ∧ ((t.slice n).frames.get {} f).pinned = false ∧
        (t.slice n).walk = if ((s.slice n).ownHint r).isNone then r + 1 else (s.slice n).walk) ∧
      (∀ r l f, (s.slice n).frames.find? (fun p => p.2.phase == .resident && s.hintOf n p.2.region == 2) = none →
        s.fillable n 3 = [] → s.fillable n 1 = r :: l →
        (setFrames r).find? (fun f => ((s.slice n).frames.get {} f).phase == .free) = none → s.victim n r 4 = some f →
        ((s.slice n).frames.get {} f).pages ≠ 0 →
        ((t.slice n).frames.get {} f).phase = .evicting ∧
        (t.slice n).waitFills = (s.slice n).waitFills ++ [(f, r, false, ((s.slice n).ownHint r).isNone)]) ∧
      s.frame t [.slices, .chans, .repair, .obs]) ∧
  (∀ (s : State) (n f : Nat), ((s.slice n).frames.get {} f).phase = .filling →
    ∃ t, exec (.fillComplete n f) s = .next t ∧
      (t.slice n).frames.get {} f = { (s.slice n).frames.get {} f with phase := .resident, pages := 0 } ∧
      t.tallyOf .slice n 52 = s.tallyOf .slice n 52 + 1 ∧ s.frame t [.stalls, .slices, .chans, .repair, .repairFace,
        .obs, .clock]) ∧
  (∀ (s : State) (n f : Nat), ((s.slice n).frames.get {} f).phase = .evicting →
    ∃ t, exec (.evictionComplete n f) s = .next t ∧
      ((s.slice n).waitFills.find? (fun w => w.1 == f) = none → (t.slice n).frames.get {} f = {}) ∧
      (∀ k r pinned walked, (s.slice n).waitFills.find? (fun w => w.1 == f) = some (k, r, pinned, walked) →
        s.migrateOpen n = true → s.windowOk n = true → s.regionGranted n r = true → (s.slice n).frameOf r = none →
        ((t.slice n).frames.get {} f).phase = .filling ∧ ((t.slice n).frames.get {} f).region = r) ∧
      t.tallyOf .slice n 53 = s.tallyOf .slice n 53 + 1 ∧ s.frame t [.stalls, .slices, .chans, .repair, .repairFace,
        .obs, .clock]) ∧
  (∀ (s : State) (n f : Nat), ((s.slice n).frames.get {} f).phase = .filling ∨ ((s.slice n).frames.get {} f).phase =
    .evicting →
    ∃ t, exec (.moveAbandon n f) s = .next t ∧
      (((s.slice n).frames.get {} f).phase = .filling → (t.slice n).frames.get {} f = {}) ∧
      (((s.slice n).frames.get {} f).phase = .evicting →
        (t.slice n).frames.get {} f = { (s.slice n).frames.get {} f with phase := .resident } ∧ t.chans = s.chans) ∧
      t.tallyOf .slice n 54 = s.tallyOf .slice n 54 + 1 ∧ s.frame t [.slices, .chans, .obs])

/-- R105, R106, R108: a DRAM command issues a waiting maintenance command, which closes the rows of the banks it takes and
holds up no other, or serves one waiting access of the highest level that waits, from its bank's queue; a row closes when
it is idle; a refresh interval makes its commands wait, and the next interval follows the DIMM's temperature; none of them
changes a stored line. -/
def Obligations.ChannelsServeTheirQueues : Prop :=
  (∀ (s : State) (n lv : Nat), n < 32 →
    let c := { s.chan n with draining := (s.chan n).drains }
    (s.chan n).maint = [] → c.topLevel = some lv → (∃ b, b < 256 ∧ ∃ q ∈ (c.banks.get {} b).queue, c.issuable q = true ∧
      q.2.2 = lv) →
    ∃ t, exec (.dramCommandIssue n) s = .next t ∧
      (∃ b q, b < 256 ∧ q ∈ (c.banks.get {} b).queue ∧ c.issuable q = true ∧ q.2.2 = lv ∧
        ((t.chan n).banks.get {} b).queue = dropFirst q (c.banks.get {} b).queue ∧
        (∀ j, j ≠ b → (t.chan n).banks.get {} j = (s.chan n).banks.get {} j) ∧
        (t.chan n).wbuf = (if q.2.1 then (s.chan n).wbuf.filter (· ≠ q.1) else (s.chan n).wbuf)) ∧
      (t.chan n).mem = (s.chan n).mem ∧ (∀ j, j ≠ n → t.chan j = s.chan j) ∧ s.frame t [.slices, .chans, .obs, .clock]) ∧
  (∀ (s : State) (n : Nat) (m : MaintOp) (l : List MaintOp), n < 32 → (s.chan n).maint = m :: l →
    ∃ t, exec (.dramCommandIssue n) s = .next t ∧ (t.chan n).maint = l ∧
      (∀ b, (t.chan n).banks.get {} b = if s.takesBank n m b then ((s.chan n).banks.get {} b).closed
        else (s.chan n).banks.get {} b) ∧
      (t.chan n).mem = (s.chan n).mem ∧ (t.chan n).wbuf = (s.chan n).wbuf ∧ (∀ j, j ≠ n → t.chan j = s.chan j) ∧
      s.frame t [.chans]) ∧
  (∀ (s : State) (n b : Nat), n < 32 → b < 256 →
    ∃ t, exec (.pageIdleClose n b) s = .next t ∧
      (t.chan n).banks.get {} b = { (s.chan n).banks.get {} b with openRow := none, hits := 0 } ∧
      (∀ j, j ≠ b → (t.chan n).banks.get {} j = (s.chan n).banks.get {} j) ∧
      (t.chan n).mem = (s.chan n).mem ∧ (∀ j, j ≠ n → t.chan j = s.chan j) ∧ s.frame t [.chans]) ∧
  (∀ (s : State) (hbm : Bool) (unit : Nat), unit < (if hbm then 8 else 32) →
    let n := if hbm then 32 + unit else unit
    ∃ t, exec (.refreshInterval hbm unit) s = .next t ∧
      (t.chan n).refreshes = (s.chan n).refreshes + 1 ∧
      (t.chan n).maint = (s.chan n).maint ++ (if hbm then [] else s.refreshOps n) ∧
      (t.chan n).nextRefresh = s.time.ticks + s.refreshNs hbm n ∧ (t.chan n).banks = (s.chan n).banks ∧
      (t.chan n).mem = (s.chan n).mem ∧ (∀ j, j ≠ n → t.chan j = s.chan j) ∧ s.frame t [.chans, .slices, .obs, .clock])

/-- R118, R124, R125: a scrub read writes the line back corrected, poisoned when it is uncorrectable, and moves on; where
the read that follows finds an error, the value moves to a remap entry (R126). Its period's end starts the next pass, and
raises SCRUB_BEHIND when the pass was not finished. -/
def Obligations.PatrolScrubCorrectsLines : Prop :=
  (∀ (s : State) (near : Bool) (unit off : Nat) (h : Home) (again : BitVec 640),
    let slice := if near then unit else unit / 4
    let n := if near then 32 + unit else unit
    slice < 8 → s.scrubOpen slice = true → (s.chan n).stopped = false → (s.slice slice).stopped = false →
    s.scrubNext near unit = some (h, off) →
    ∃ t v, exec (.scrubRead near unit again) s = .next t ∧ t = v.takeCandidates slice ∧
      (again = 0 → (s.chan n).hard.get 0 h.line = 0 →
        v.at h off = (match (s.at h off).decode.1 with
          | .uncorrectable => poisonLine
          | _ => if (s.at h off).group.isSome then (s.at h off).corrected else s.at h off)) ∧
      (again ≠ 0 → (s.chan n).hard.get 0 h.line = 0 → (s.at h off).group.isSome = true →
        (∀ p ∈ (s.chan n).remap, p.1 ≠ h.line) → ((s.chan n).tableOf n h.line).length < 16 →
        (v.chan n).remap = (s.chan n).remap ++ [(h.line, ((s.at h off).corrected.reread again).corrected)]) ∧
      (v.chan n).scrubPos = h.line + 1 ∧ (v.chan n).ecsDue = false ∧
      s.frame v [.stalls, .slices, .chans, .repair, .repairFace, .obs, .clock, .free]) ∧
  (∀ (s : State) (near : Bool) (unit : Nat), unit < (if near then 8 else 32) →
    let n := if near then 32 + unit else unit
    ∃ t, exec (.scrubPeriodEnd near unit) s = .next t ∧ (t.chan n).scrubPos = 0 ∧
      t.obs.head = s.obs.head + (if s.scrubDone near unit then 0 else 1) ∧
      (t.chan n).mem = (s.chan n).mem ∧ (∀ j, j ≠ n → t.chan j = s.chan j) ∧ s.frame t [.stalls, .chans, .repair, .obs])

/-- R127: a row repair begins by staging the row's lines as they are served, and ends with the staged lines in the
repaired row, the row's remap entries free and its bank group used. -/
def Obligations.RowsAreRepaired : Prop :=
  (∀ (s : State) (n row : Nat), n < 40 → s.scrubOpen (unitSlice n) = true → (s.chan n).repair = none →
    (s.chan n).stopped = false → s.repairRow n = some row →
    ∃ t, exec (.rowRepairStart n) s = .next t ∧
      (∃ r, (t.chan n).repair = some r ∧ r.row = row ∧ r.lines.map Prod.fst = (upTo 128).map fun i => row * 128 + i) ∧
      (∀ c a, t.unitLine c a = s.unitLine c a) ∧ (t.chan n).rowPtr = row + 1 ∧
      (t.chan n).maint = (s.chan n).maint ++ [.repairRow row] ∧ s.frame t [.slices, .chans, .obs, .clock]) ∧
  (∀ (s : State) (n : Nat) (r : RowRepair), (s.chan n).repair = some r →
    ∃ t, exec (.rowRepairDone n) s = .next t ∧ (t.chan n).repair = none ∧
      (t.chan n).remap = (s.chan n).remap.filter (fun p => rowOf p.1 != r.row) ∧
      (t.chan n).softRepairs = (s.chan n).softRepairs + 1 ∧
      (t.chan n).usedGroups = s.groupOfRow n r.row :: (s.chan n).usedGroups ∧
      ((r.lines.map Prod.fst).Nodup → ∀ p ∈ r.lines, rowOf p.1 = r.row → t.unitLine n p.1 = p.2) ∧
      t.repair.faultSeq = s.repair.faultSeq + 1 ∧ (∀ j, j ≠ n → t.chan j = s.chan j) ∧ s.frame t [.stalls, .chans,
        .repair, .sec, .obs])

/-- R123, R130 to R132: the cores rewrite a bad pitch entry; an ERROR_TABLE row is freed by 1 in VALID; the checker's raw
operations start only as CHECKER_RESULT says and then act, at the address they started with, on the line or the checker
SRAM as it stands, unless that address has meanwhile left tenant 0; CHECKER_ENABLE is refused in confidential mode. That a
freed row reads 0 is the model's choice (log 75). -/
def Obligations.TheCheckerActsRaw : Prop :=
  (∀ (s : State) (g : Nat), s.repair.coresUp = true →
    ∃ t, exec (.pitchEntryRewrite g) s = .next t ∧ t.pitch = { s.pitch with bad := s.pitch.bad.filter (· ≠ g) } ∧
      s.frame t [.pitch, .repair]) ∧
  (∀ (s : State) (f : Frame) (tb row v : Nat), s.accepts f (askRows (0x602400 + tb) 32 row [v]) →
    ∃ t, exec (.errorTableWrite f tb row [v]) s = .next t ∧
      (bitAt v 63 = true → (t.errTable tb).get {} row = {} ∧ ∀ j, j ≠ row → (t.errTable tb).get {} j = (s.errTable
        tb).get {} j) ∧
      (bitAt v 63 = false → t.errTable tb = s.errTable tb) ∧ s.frame t [.links, .stalls, .slices, .xbar, .repair,
        .sec, .mgmt, .obs]) ∧
  (∀ (s : State) (f : Frame) (v : Nat), v < 2 → s.accepts f (askWrite kCheckerEnable 1 v) →
    ∃ t, exec (.checkerEnableWrite f v) s = .next t ∧
      (v = 1 → s.sec.conf = true → t.dict = s.dict) ∧
      (v = 0 ∨ s.sec.conf = false → t.reg kCheckerEnable = v) ∧
        s.frame t [.dict, .links, .stalls, .xbar, .pair, .repair, .sec, .mgmt, .obs]) ∧
  (∀ (s : State) (f : Frame) (i : Instr) (op : Nat), s.accepts f (askWrite kCheckerOp 1 op) →
    (i = .checkerRawWrite f ∧ op = 1 ∨ i = .checkerRawRead f ∧ op = 2) →
    ∃ t, exec i s = .next t ∧
      (s.checkerCheck = 0 → t.checker = { s.checker with running := some (op, s.reg kCheckerAddr) } ∧
        t.reg kCheckerResult = 2) ∧
      (s.checkerCheck ≠ 0 → t.checker = s.checker ∧ t.reg kCheckerResult = s.checkerCheck) ∧
      s.frame t [.dict, .links, .stalls, .xbar, .checker, .repair, .sec, .mgmt, .obs]) ∧
  (∀ (s : State) (op a : Nat), s.checker.running = some (op, a) →
    ∃ t, exec .checkerRawDone s = .next t ∧ t.checker.running = none ∧ t.reg kCheckerResult = s.checkerAt a ∧
      (s.checkerAt a = 0 → a < checkerSramBase → op = 1 →
        t.stored (bits a 0 44) = rawLine s.checker.data (s.checker.check.extractLsb' 0 128) ∧
        (t.granule (bits a 24 20)).written = true) ∧
      (s.checkerAt a = 0 → a < checkerSramBase → op = 2 →
        t.checker.data = (s.stored (bits a 0 44)).rawData ∧ t.chans = s.chans) ∧
      (checkerSramBase ≤ a ∨ s.checkerAt a ≠ 0 → t.chans = s.chans) ∧
      s.frame t [.dict, .pitch, .slices, .chans, .checker, .pair, .repair, .repairFace])

/-- R139, R141 to R144, R149: what a unit of a request that is taken up does to the directory entry of its line, by opcode
and the entry's state: grants, the snoops it sends, and what ORPHANED lines answer. -/
def Obligations.DirectoryAnswersByState : Prop :=
  ∀ (s : State) (n u : Nat) (t : Trk) (k : Nat), (s.slice n).trk t.id = some t → t.stage = .snooping → t.todo = [u] →
    let off := s.unitOff t.req u
    let line := s.lineNo off
    let e := (s.slice n).dirAt k
    let w := s.cohTake n u t
    (s.slice n).dirOf line = some k → s.sramOk →
    (t.op = .cohRead → t.req.mod = 0 → e.phase = .shared → (s.readPlain off (s.slotOf off) t.req.host).2.1 = .ok →
      t.status = .ok →
      (w.slice n).dirAt k = e.add t.stall ∧
      ∃ x, (w.slice n).trk t.id = some x ∧ x.stage = .done ∧ x.status = .ok ∧ x.result = 1) ∧
    (t.op ∈ [ReqOp.read, .cohRead] → e.phase = .owned → e.holder ≠ t.stall → s.snoopable (.request t.id u) e.holder = true →
      ((w.slice n).dirAt k).busy = true ∧
      ∃ p, w.snoops = s.snoops ++ [p] ∧ p.stall = e.holder ∧ p.line = line ∧ p.slice = n ∧ p.answered = false ∧
        p.mod = (if t.op = .cohRead then t.req.mod else 0)) ∧
    (t.op ∈ [ReqOp.read, .writeMasked, .atomic, .flush, .cohRead, .cohWriteback] → e.phase = .orphaned → t.status = .ok →
      (∀ j, (w.slice n).dirAt j = (s.slice n).dirAt j) ∧
      ∃ x, (w.slice n).trk t.id = some x ∧ x.stage = .done ∧ x.status = .orphaned) ∧
    (t.op = .write → e.phase = .orphaned → t.status = .ok → s.homeDown off = false → s.snapRoom off = true →
      ((w.slice n).dirAt k).valid = false) ∧
    (t.op = .invalidate → e.phase = .owned → e.holder = t.stall → t.status = .ok →
      ((w.slice n).dirAt k).valid = false ∧ w.chans = s.chans)

/-- R139, R146, R147: a host's answer settles its snoop and its slice's work goes on; RETRY_BUSY has the snoop sent again;
SNOOP_TIMEOUT answers the requests that wait on the line TIMEOUT; COH_HOLD's end frees the line for requests that lower
it. -/
def Obligations.SnoopsAreAnsweredAndRetried : Prop :=
  (∀ (s : State) (h : HostResp) (p : Snoop), s.snoopOf h = some p →
    ∃ t, exec (.snoopResponse h) s = .next t ∧
      (h.status = 0 → ∃ v : State, t = v.cohGo p.slice ∧ s.frame v [.slices, .snoops, .obs, .clock] ∧
        (v.snoops = s.snoops.map fun (q : Snoop) => if q.tag = p.tag then { q with
          answered := true, present := h.result.getLsbD 0, dirty := h.result.getLsbD 1 && !p.dead,
            data := h.data } else q) ∧
        (∀ m k, (v.slice m).dirAt k = (s.slice m).dirAt k) ∧
        v.tallyOf .slice p.slice 56 = s.tallyOf .slice p.slice 56 + b2n (!h.result.getLsbD 0 && !p.dead)) ∧
      (h.status = 1 → s.frame t [.snoops] ∧
        t.snoops = s.snoops.map fun (q : Snoop) => if q.tag = p.tag then { q with retry := true } else q) ∧
      (2 ≤ h.status → t = s)) ∧
  (∀ (s : State) (tag : Nat) (p : Snoop), s.snoops.find? (fun q => q.tag == tag) = some p →
    p.retry = true → p.answered = false → p.expired = false →
    ∃ t, exec (.snoopRetry tag) s = .next t ∧
      t.snoops = (s.snoops.map fun (q : Snoop) => if q.tag = tag then { q with retry := false } else q) ∧
      s.frame t [.links, .stalls, .snoops, .xbar, .obs]) ∧
  (∀ (s : State) (n k : Nat), ((s.slice n).dirAt k).held = true →
    ∃ t, exec (.cohHoldExpiry n k) s = .next t ∧ ∃ v : State, t = v.cohGo n ∧ s.frame v [.slices] ∧
      (v.slice n).dirAt k = { (s.slice n).dirAt k with held := false } ∧
      (∀ j, j ≠ k → (v.slice n).dirAt j = (s.slice n).dirAt j) ∧ ∀ m, m ≠ n → v.slice m = s.slice m) ∧
  (∀ (s : State) (tag : Nat) (p : Snoop) (x : Txn) (id u : Nat), s.snoops.find? (fun q => q.tag == tag) = some p →
    p.answered = false → p.expired = false → (s.slice p.slice).txns.find? (fun y => y.id == p.txn) = some x →
    x.cause = .request id u → s.neverSent (.snoop tag) = false →
    ∃ t, exec (.snoopTimeout tag) s = .next t ∧ ∃ v : State, t = v.cohGo p.slice ∧ v.chans = s.chans ∧
      v.snoops = s.snoops.filter (fun q => !(q.slice == p.slice && q.txn == x.id)) ∧
      s.obs.head + 1 ≤ v.obs.head ∧
      (∀ e w, (s.slice p.slice).trk e.id = some e → e.stage = .snooping → e.todo = [w] → e.status = .ok →
        s.lineNo (s.unitOff e.req w) = p.line →
        ∃ y, (v.slice p.slice).trk e.id = some y ∧ y.stage = .done ∧ y.status = .timeout) ∧
      (∀ m, m ≠ p.slice → v.slice m = s.slice m))

/-- R150: a release starts unless one runs; at its end the entries that match are freed, with the values of memory kept.
-/
def Obligations.OrphansAreReleased : Prop :=
  (∀ (s : State) (f : Frame) (v : Nat), s.accepts f (askWrite kOrphanReleaseGo 1 v) →
    ∃ t, exec (.orphanRelease f v) s = .next t ∧
      (s.orphanRun = none → t.orphanRun = some (s.reg kOrphanReleaseMatch, s.reg kOrphanReleaseValue) ∧
        t.reg kOrphanReleaseResult = 2) ∧
      (s.orphanRun.isSome = true → t.orphanRun = s.orphanRun ∧ t.reg kOrphanReleaseResult = 1) ∧
      s.frame t [.dict, .links, .stalls, .xbar, .repair, .sec, .mgmt, .obs, .orphanRun]) ∧
  (∀ (s : State) (kind value : Nat), s.orphanRun = some (kind, value) →
    ∃ t, exec .orphanReleaseDone s = .next t ∧ t.orphanRun = none ∧ t.reg kOrphanReleaseResult = 0 ∧
      ∃ v : State, t = v.cohGoAll ∧ v.chans = s.chans ∧
        ∀ n k line, n < 8 → (s.slice n).dirOf line = some k → s.releases kind value n ((s.slice n).dirAt k) = true →
          (∀ j, ((s.slice n).dirAt j).valid = true → ((s.slice n).dirAt j).line = line → j = k) →
          (v.slice n).dirOf line = none)

/-- R156 to R158, R163: a row of BARROW_TABLE is written for the head of its launches and, with GANG, for every member; a
reassignment while nothing is queued or running advances the epoch; a member that is no head, a program that ends before
it begins and a store row in use are refused. -/
def Obligations.BarrowRowsAndPrograms : Prop :=
  (∀ (s : State) (f : Frame) (b v : Nat), s.accepts f (askRows kBarrowTable 32 b [v]) →
    let ts := s.rowTargets b (bitAt v 64)
    let moved := fun (j : Nat) => (s.barrow j).reassigned ((s.barrow j).withRow v)
    let ok := s.headOf b = b ∧ ((s.barrow b).withRow v).base ≤ ((s.barrow b).withRow v).last ∧
      ((s.barrow b).withRow v).cqOrder ≤ 12
    ∃ t, exec (.barrowTableWrite f b [v]) s = .next t ∧
      (¬ ok ∨ (∃ j ∈ ts, moved j = true ∧ (2 ≤ s.barrowState j ∨ s.mayAdvance (s.barrow j).advances = false)) →
        t.barrows = s.barrows ∧ t.slices = s.slices) ∧
      (ok → (∀ j ∈ ts, moved j = true → s.barrowState j < 2 ∧ s.mayAdvance (s.barrow j).advances = true) →
        ∀ j ∈ ts, t.barrow j = if moved j then { (s.barrow j).withRow v with
          epoch := (s.barrow j).epoch + 1, advances := s.advanced (s.barrow j).advances } else (s.barrow j).withRow v) ∧
      (∀ j, j ∉ ts → t.barrow j = s.barrow j) ∧
        s.frame t [.links, .stalls, .slices, .barrows, .xbar, .repair, .sec, .mgmt, .obs]) ∧
  (∀ (s : State) (f : Frame) (n row v : Nat), s.accepts f (askRows (0x701000 + n) 64 row [v]) →
    ∃ t, exec (.programStoreWrite f n row [v]) s = .next t ∧
      (s.rowInUse n row = true → t.slices = s.slices) ∧
      (s.rowInUse n row = false → (t.slice n).program.get 0 row = BitVec.ofNat 512 v &&& descMask ∧
        (∀ j, j ≠ row → (t.slice n).program.get 0 j = (s.slice n).program.get 0 j) ∧ ∀ m, m ≠ n → t.slice m = s.slice m) ∧
      s.frame t [.links, .stalls, .slices, .xbar, .repair, .sec, .mgmt, .obs])

/-- R163: each slice's program store holds 1,024 rows of one descriptor each; a write to a row in the range of a barrow
that is QUEUED or RUNNING is refused and stores nothing; a row never written reads as zero, and zero is opcode END (code
0x00, Table 8.4). -/
def Obligations.ProgramStoreRefusesRowsInUse : Prop :=
  (∀ slice, slice < 8 → ∃ e, entryAt 0x7010 slice = some e ∧ e.rows = 1024 ∧ e.bytes = 64) ∧
  (∀ (s : State) (f : Frame) (slice row v i : Nat), slice < 8 → i < 512 →
    s.accepts f (askRows (0x701000 + slice) 64 row [v]) →
    2 ≤ s.barrowState (slice * 512 + i) → (s.barrow (slice * 512 + i)).base ≤ row → row ≤ (s.barrow (slice * 512 +
      i)).last →
    ∃ t, exec (.programStoreWrite f slice row [v]) s = .next t ∧ t.slices = s.slices ∧
      ∃ m r, t.mgmt.kept.get [] (frameKey f) = m :: r ∧ m.status = .accessDenied ∧ m.rowOut = row) ∧
  (∀ slice row, (State.reset.slice slice).program.get 0 row = 0) ∧ (descOf 0).op = 0

/-- R161, R162, R175, R178, R179: a trigger queues a launch with the standing parameters; the first queued launch starts
with a member in each slice of its gang, under the step, phase and seed of that cycle, and until then a gang keeps the
places it gets; it completes when every member has ended; the budget and BARROW_ABORT end members. -/
def Obligations.LaunchesRunTheirCourse : Prop :=
  (∀ (s : State) (b : Nat),
    let h := s.headOf b
    (s.barrow h).regionDone = true → (s.barrow h).trigRegion = true → (s.barrow h).disabled = false →
    (s.barrow h).lastTrigger ≠ some s.time.step → (s.barrow h).queue.length < 16 →
    ∃ t, exec (.triggerLaunch b) s = .next t ∧ (∃ l, (t.barrow h).queue = (s.barrow h).queue ++ [l] ∧ l.kind = .trigger ∧
      l.params = (s.barrow h).standing ∧ l.host = (s.barrow h).owner ∧ l.seq = ((s.barrow h).launchSeq + 1) % 2 ^ 32) ∧
      (t.barrow h).lastTrigger = some s.time.step ∧ s.frame t [.barrows, .obs]) ∧
  (∀ (s : State) (b : Nat) (l : Launch) (q : List Launch), (s.barrow b).queue = l :: q → s.canStart b = true →
    ∃ t, exec (.launchStart b) s = .next t ∧ (t.barrow b).queue = q ∧
      (∃ r, (t.barrow b).running = some r ∧ r.launch = l ∧ r.step = s.time.step ∧ r.phase = s.time.mphase ∧
        r.seed = s.seeds.get 0 l.tenant ∧ r.members.map (·.slice) = s.launchSlices b l ∧
        ∀ m ∈ r.members, m.rows = 0 ∧ (m.ended = false → m.row = l.base)) ∧
      s.frame t [.slices, .barrows, .obs]) ∧
  (∀ (s : State) (b : Nat) (l : Launch) (q : List Launch), (s.barrow b).queue = l :: q → s.canStart b = false →
    l.gang = true →
    s.mayRun b = true →
    ∃ t, exec (.launchStart b) s = .next t ∧
      (∀ n ∈ s.launchSlices b l, s.gets b n = true → (t.slice n).keeps.contains b = true) ∧ s.frame t [.slices]) ∧
  (∀ (s : State) (b : Nat) (r : Running),
    let h := s.runHead b
    (s.barrow h).running = some r → (∀ m ∈ r.members, m.ended = true ∧ s.halCovered m.hseq = true) →
    ∃ t, exec (.launchComplete b) s = .next t ∧ (t.barrow h).running = none ∧ (t.barrow h).doneSeq = r.launch.seq ∧
      (∀ n ∈ s.launchSlices h r.launch, (t.barrow (n * 512 + h % 512)).doneSeq = r.launch.seq) ∧
      s.frame t [.links, .stalls, .pitch, .slices, .chans, .barrows, .trees, .pair, .repair, .repairFace, .obs, .clock]) ∧
  (∀ (s : State) (b : Nat) (r : Running),
    let h := s.runHead b
    (s.barrow h).running = some r →
    ∃ t, exec (.descBudgetExceeded b) s = .next t ∧ (∃ r', (t.barrow h).running = some r' ∧
      r'.members = r.members.map fun m =>
        if r.launch.budget ≤ m.rows ∧ m.atSync = none ∧ m.work = none ∧ m.ended = false then
          { m with ended := true, status := .timeout, cause := .budget, lastRow := m.row } else m) ∧
      (∀ j, j ≠ h → t.barrow j = s.barrow j) ∧ s.frame t [.barrows]) ∧
  (∀ (s : State) (f : Frame) (v : Nat), v < 4096 → s.accepts f (askWrite kBarrowAbort 2 v) →
    ∃ t, exec (.barrowAbort f v) s = .next t ∧
      (∀ h ∈ [v, s.headOf v, s.runHead v], (t.barrow h).queue = [] ∧
        ∀ r, (t.barrow h).running = some r → ∀ m ∈ r.members, m.ended = true) ∧
      s.frame t [.links, .stalls, .pitch, .slices, .chans, .barrows, .trees, .xbar, .pair, .repair, .repairFace, .sec,
        .mgmt,
        .obs, .clock])

/-- R166 to R168, R174, R175, R179: a member's new row that is well-formed, whose condition holds and whose start finds
nothing wrong begins, and its pages follow one by one, each by its operation's work; the last one sends the member on, or
ends it where a line without data was met; a start that finds something stops the member with it, a malformed row ends it,
a row whose condition fails is skipped to ALT, and a snapshot without room ends it. That a command does one page is the
model's choice (log 51). -/
def Obligations.DescriptorsRunInTheirMember : Prop :=
  ∀ (s : State) (i : Instr) (k : DescCmd) (c : Ctx), descCmdOf i = some k → s.ctx k.barrow k.slice = some c → s.sramOk →
    let holds := condHolds c.d.cond c.m.flags (c.run.launch.params.getD 0 0)
    ∃ t, exec i s = .next t ∧
      (c.m.work = none → k.mine c.d = true → c.runs →
        let s1 := (s.countRow c.head k.slice).count .slice k.slice (descRow c.d.op)
        let b := k.kernel.start s1 c
        (∀ st cause, b.1 = some (st, cause) → t = s1.stopMember c.head k.slice st cause) ∧
        (b.1 = none →
          let s2 := (s1.countUses c b.2).updMember c.head k.slice fun m => { m with work := some { grans := c.grans b.2 } }
          let s3 := k.kernel.enter s2 (s2.again c)
          let ps := k.kernel.pages s3 (s3.again c)
          t = (s3.updMember c.head k.slice fun m => { m with work := m.work.map fun x => { x with pages :=
            ps } }).runPage c k.kernel)) ∧
      (c.m.work = none → c.d.op ≠ 0 → c.d.cond ≤ 7 → holds = false → k.mine c.d = true ∨ c.d.malformed = true →
        t = (s.countRow c.head k.slice).goOn c.head k.slice c.d c.m.row c.d.alt) ∧
      (c.m.work = none → c.d.op ≠ 0 → 7 < c.d.cond ∨ holds = true → c.d.malformed = true →
        t = (s.countRow c.head k.slice).stopMember c.head k.slice .accessDenied .malformed) ∧
      (∀ (w : DescWork) (p : Nat) (rest : List Nat), c.m.work = some w → k.mine c.d = true → w.pages = p :: rest →
        let r := k.kernel.page (s.pipePush k.slice 5 c.head 0) { c with page := p }
        let bad := w.bad || r.2 == .poisoned
        let v := r.1.updMember c.head k.slice fun m => { m with work := m.work.map fun x => { x with pages := rest, bad := bad } }
        (r.2 = .full → t = r.1.stopMember c.head k.slice .retryBusy .snapFull) ∧
        (r.2 ≠ .full → rest ≠ [] → t = v) ∧
        (r.2 ≠ .full → rest = [] →
          let z := k.kernel.leave (v.updMember c.head k.slice fun m => { m with work := none }) (v.again c)
          (bad = true → t = z.1.stopMember c.head k.slice .poison .poisoned) ∧
          (bad = false → t = z.1.goOn c.head k.slice c.d (v.again c).m.row c.d.next))) ∧
      s.frame t [.links, .stalls, .pitch, .slices, .chans, .barrows, .xbar, .pair, .repair, .repairFace, .obs, .clock]

/-- R168, R172: END ends its member; outside a gang SYNC completes at once, and it holds a gang's member until every
member has reached the same row or ended, and the members then go on with the same flags and norm; members at different
rows end the launch MALFORMED. -/
def Obligations.MembersEndAndSynchronise : Prop :=
  (∀ (s : State) (b n : Nat) (c : Ctx), s.ctx b n = some c → c.d.op = 0 → c.m.work = none → s.sramOk →
    ∃ t, exec (.descEnd b n) s = .next t ∧
      (∀ r, (t.barrow c.head).running = some r → ∀ m ∈ r.members, m.slice = n → m.ended = true) ∧
      s.frame t [.stalls, .slices, .barrows, .repair, .obs, .clock]) ∧
  (∀ (s : State) (b n : Nat) (c : Ctx), s.ctx b n = some c → c.d.op = opSync → c.runs → c.m.work = none → s.sramOk →
    ∃ t, exec (.descSync b n) s = .next t ∧
      (c.run.launch.gang = true →
        ∀ r, (t.barrow c.head).running = some r → ∀ m ∈ r.members, m.slice = n → m.atSync = some m.row) ∧
      (c.run.launch.gang = false → ∃ v : State, t = v.goOn c.head n c.d c.m.row c.d.next ∧
        ∀ m, v.member c.head n = some m → m.syncNorm = some m.norm) ∧
      s.frame t [.stalls, .slices, .barrows, .repair, .obs, .clock]) ∧
  (∀ (s : State) (b : Nat) (r : Running), (s.barrow (s.runHead b)).running = some r →
    (∃ m ∈ r.members, m.ended = false) → (∀ m ∈ r.members, s.halCovered m.hseq = true ∧ (m.ended = false →
      m.atSync.isSome = true)) →
    ∃ t, exec (.syncComplete b) s = .next t ∧
      ((∃ row, ∀ m ∈ r.members, m.ended = false → m.atSync = some row) →
        (∃ a, ∀ m ∈ r.members, m.ended = false → m.norm.anchor = none ∨ m.norm.anchor = some a) →
        ∃ r', (t.barrow (s.runHead b)).running = some r' ∧ ∀ m ∈ r'.members, m.ended = false → m.atSync = none ∧
          m.syncNorm = some m.norm ∧ m.norm.acc = (normSum (r.members.filter fun m => !m.ended)).1) ∧
      ((∃ m ∈ r.members, ∃ m' ∈ r.members, m.ended = false ∧ m'.ended = false ∧ m.atSync ≠ m'.atSync) →
        ∃ r', (t.barrow (s.runHead b)).running = some r' ∧ ∀ m ∈ r'.members, m.ended = true) ∧
      s.frame t [.barrows])

/-- R199 to R202: the state record an UPDATE writes for one element: SGD with momentum keeps v, Adam decays both moments,
and both subtract the step and the decoupled weight decay from w. That a zero of the record is written as +0 is read from
R194 (DEDUCED, log 18). -/
def Obligations.UpdateKernelsStepTheWeights : Prop :=
  ∀ (h : Hyper) (g rec_ : Nat),
    let w := bits rec_ 0 32
    let m := bits rec_ 32 32
    let v := bits rec_ 64 32
    (let m1 := fAdd (fMul h.mom m) g
     let w1 := fSub w (fMul h.lr (fAdd m1 (fMul h.decay w)))
     (updateOne false 0 h g rec_).1 = plusZero w1 + plusZero m1 * 2 ^ 32 + v * 2 ^ 64 + bits rec_ 96 32 * 2 ^ 96 ∧
       (updateOne false 0 h g rec_).2.1 = w1) ∧
    (let one := 0x3F800000
     let m1 := fAdd (fMul h.beta1 m) (fMul (fSub one h.beta1) g)
     let v1 := fAdd (fMul h.beta2 v) (fMul (fSub one h.beta2) (fMul g g))
     let mh := fDiv m1 (fSub one (fPow h.beta1 h.t))
     let vh := fDiv v1 (fSub one (fPow h.beta2 h.t))
     let w1 := fSub w (fMul h.lr (fAdd (fDiv mh (fAdd (fSqrt vh) h.eps)) (fMul h.decay w)))
     (updateOne true 0 h g rec_).1 = plusZero w1 + plusZero m1 * 2 ^ 32 + plusZero v1 * 2 ^ 64 + bits rec_ 96 32 * 2 ^ 96 ∧
       (updateOne true 0 h g rec_).2.1 = w1)

/-- R211, R212: the messages of the selected master stamp T1 to T4; the Delay_Resp that completes them makes a
measurement, which steps AO_TIME only in FREE or ACQUIRING and beyond 1 µs, and otherwise moves the rate within 100 ppm;
16 good ones in a row lock, 4 bad ones unlock; a message of another domain or master changes nothing. Which of two masters
is better is taken from IEEE 1588, and that a silent one is dropped is the model's choice (log 71). -/
def Obligations.TimeFollowsItsMaster : Prop :=
  (∀ (s : State) (m : PtpMsg), s.reg kTimeSource = 0 → m.domain = s.reg kTimeDomain → (∃ pr, s.time.master = some
    (m.master, pr)) →
    (∃ t, exec (.ptpSync m) s = .next t ∧ s.frame t [.time] ∧ t.time.ao = s.time.ao ∧
      (m.twoStep = true → t.time.sync = some (m.seq, m.arrival, m.correction) ∧ t.time.delayReq = s.time.delayReq) ∧
      (m.twoStep = false → t.time.t1t2 = some (m.origin, m.arrival, m.correction) ∧
        t.time.delayReq = some ((s.time.delaySeq + 1) % 65536, s.time.ao))) ∧
    (∀ (t2 : Nat) (corr : Int), s.time.sync = some (m.seq, t2, corr) →
      ∃ t, exec (.ptpFollowUp m) s = .next t ∧ s.frame t [.time] ∧ t.time.ao = s.time.ao ∧
        t.time.t1t2 = some (m.origin, t2, corr + m.correction) ∧
        t.time.delayReq = some ((s.time.delaySeq + 1) % 65536, s.time.ao)) ∧
    (∀ (t1 t2 t3 : Nat) (c1 offset : Int), s.time.t1t2 = some (t1, t2, c1) → s.time.delayReq = some (m.seq, t3) →
      offset = ((t1 : Int) + c1 - t2 + (m.origin - m.correction - t3)) * 500 →
      ∃ t, exec (.ptpDelayResp m) s = .next t ∧ s.frame t [.stalls, .time, .repair, .obs] ∧
        t.time.lastOffset = offset ∧ t.time.delayReq = none ∧
        (let steps := (s.time.phase = .free ∨ s.time.phase = .acquiring) ∧ (offset < -1000000 ∨ 1000000 < offset)
         (steps → t.time.ao = (s.time.ao + offset.tdiv 1000).toNat ∧ t.time.rate = s.time.rate) ∧
         (¬ steps → t.time.ao = s.time.ao ∧ -429496 ≤ t.time.rate ∧ t.time.rate ≤ 429496)) ∧
        (s.time.phase = .locked → (t.time.phase = .acquiring ↔ (offset < -8000 ∨ 8000 < offset) ∧ 3 ≤ s.time.badRun)) ∧
        (s.time.phase = .acquiring → (t.time.phase = .locked ↔ -8000 ≤ offset ∧ offset ≤ 8000 ∧ 15 ≤ s.time.goodRun)) ∧
        (s.time.phase = .free ∨ s.time.phase = .holdover → t.time.phase = .acquiring))) ∧
  (∀ (s : State) (m : PtpMsg), s.reg kTimeSource ≠ 0 ∨ m.domain ≠ s.reg kTimeDomain ∨ (∀ pr, s.time.master ≠ some
    (m.master, pr)) →
    exec (.ptpSync m) s = .next s ∧ exec (.ptpFollowUp m) s = .next s ∧ exec (.ptpDelayResp m) s = .next s) ∧
  (∀ (s : State) (m : PtpMsg), s.reg kTimeSource = 0 → m.domain = s.reg kTimeDomain →
    (s.time.master = none ∨ (∃ id d, s.time.master = some (id, d) ∧
      (id = m.master ∨ m.dataset.gm ≠ d.gm ∧
        m.dataset.priority1 < d.priority1 ∨ ptpBetter m.dataset m.master d id = true)) →
      ∃ t, exec (.ptpAnnounce m) s = .next t ∧ s.frame t [.time] ∧ t.time.master = some (m.master, m.dataset) ∧
        t.time.ao = s.time.ao) ∧
    ((∃ id d, s.time.master = some (id, d) ∧ id ≠ m.master ∧ ptpBetter m.dataset m.master d id = false) →
      exec (.ptpAnnounce m) s = .next s)) ∧
  (∀ s : State, s.time.phase = .acquiring ∨ s.time.phase = .locked →
    ∃ t, exec .timeHoldover s = .next t ∧ s.frame t [.time] ∧ t.time.phase = .holdover ∧ t.time.rate = s.time.rate ∧
      (s.reg kTimeSource = 0 → t.time.master = none) ∧ t.time.ao = s.time.ao)

/-- R216 to R220, R256: a held MARK above the current value sets STEP and PHASE at its time and ends fall-back, another is
discarded; the preview names the classes and migration gates that mark will close; mark loss begins fall-back unless a
MARK was applied at that time (R258); STEP_SET sets both without firing; a schedule row is staged unless its action is
reserved or its once-only point has passed. -/
def Obligations.MarksAdvanceTheStep : Prop :=
  (∀ (s : State) (h : HeldMark) (r : List HeldMark), s.time.heldMarks = h :: r →
    (∃ t, exec .markApplyAt s = .next t ∧ s.frame t [.dict, .links, .stalls, .slices, .chans, .barrows, .time, .gates,
      .pair, .repair, .obs, .clock] ∧ t.time.heldMarks = r ∧ t.time.ao = s.time.ao ∧
      (s.markValue < h.value → t.time.step = h.value / 65536 % 2 ^ 48 ∧ t.time.mphase = h.value % 65536 ∧
        t.time.fallback = false) ∧
      (h.value ≤ s.markValue → t.time.step = s.time.step ∧ t.time.mphase = s.time.mphase ∧ t.time.schedule =
        s.time.schedule ∧
        s.frame t [.time, .gates, .obs])) ∧
    ∃ t, exec .guardBandPreview s = .next t ∧ s.frame t [.gates] ∧ t.gates.tcOpen = s.gates.tcOpen ∧
      (s.markValue < h.value → t.gates.closing =
        some (s.gates.tcOpen &&& ~~~(s.applyMark h.value).gates.tcOpen, h.applyAt) ∧
        t.gates.closingMig = s.gates.migrate &&& ~~~(s.applyMark h.value).gates.migrate)) ∧
  (∀ s : State, s.time.lastMark = some s.time.ticks → exec .markLoss s = .next s) ∧
  (∀ s : State, s.boot.stage = .ready → s.time.fallback = false → s.time.lastMark ≠ some s.time.ticks →
    ∃ t, exec .markLoss s = .next t ∧ s.frame t [.stalls, .slices, .chans, .time, .gates, .repair, .obs, .clock] ∧
      t.time.fallback
      = true ∧ t.time.step = s.time.step ∧
      t.time.mphase = s.time.mphase ∧ t.gates.schedMigrate = 0 ∧ t.gates.schedScrub = 0 ∧ s.obs.head < t.obs.head) ∧
  (∀ (s : State) (f : Frame) (v : Nat), s.accepts f (askWrite kStepSet 8 v) →
    ∃ t, exec (.stepSet f v) s = .next t ∧
      s.frame t [.dict, .links, .stalls, .time, .gates, .xbar, .repair, .sec, .mgmt, .obs] ∧
      t.time.step = v / 65536 % 2 ^ 48 ∧ t.time.mphase = v % 65536 ∧
      t.time.heldMarks = [] ∧ t.time.schedule = s.time.schedule ∧ t.time.ao = s.time.ao ∧ t.gates.tcOpen = s.gates.tcOpen) ∧
  (∀ (s : State) (f : Frame) (row v : Nat), s.accepts f (askRows kScheduleTable 16 row [v]) →
    ∃ t, exec (.scheduleTableWrite f row [v]) s = .next t ∧
      s.frame t [.links, .stalls, .time, .xbar, .pair, .repair, .sec, .mgmt, .obs] ∧
      t.time.schedule = s.time.schedule ∧
      (let e := schedOfWord v
       let refused := 8 < e.action ∨ e.valid = true ∧ e.rep = 0 ∧ e.step * 65536 + e.phase ≤ s.markValue
       (¬ refused → t.time.schedStaged.get {} row = e ∧
         ∀ j, j ≠ row → t.time.schedStaged.get {} j = s.time.schedStaged.get {} j) ∧
       (refused → t.time = s.time ∧ t.pair = s.pair)))

/-- R230 to R234, R239 to R241: a tree row is written unless it runs or breaks a rule; BUNT_GO makes an IDLE VALID tree
WAITING; in its turn, with fewer than 4 running, it RUNS with its members counted; the abort stops it or withdraws it;
with no member active it completes: IDLE again, no PUSH left, RESULT 0 unless a launch started it. -/
def Obligations.TreesStartAndComplete : Prop :=
  (∀ (s : State) (f : Frame) (row v : Nat), s.accepts f (askRows kBuntingTable 40 row [v]) →
    ∃ t, exec (.buntingTableWrite f false row [v]) s = .next t ∧
      s.frame t [.links, .stalls, .trees, .xbar, .repair, .sec, .mgmt, .obs] ∧
      (let n := (s.tree row).withRow v
       let refused := (s.tree row).phase = .running ∨ 12 < n.cqOrder ∨ n.lines = 0 ∨ 0x10000000 < n.lines ∨ n.src % 64 ≠ 0 ∨
         n.valid = true ∧ (s.barrow n.barrow).tenant ≠ n.tenant
       (¬ refused → t.tree row = n ∧ ∀ j, j ≠ row → t.tree j = s.tree j) ∧ (refused → t.trees = s.trees))) ∧
  (∀ (s : State) (f : Frame) (row v : Nat), s.accepts f (askRows kBuntingMembers 128 row [v]) →
    ∃ t, exec (.buntingTableWrite f true row [v]) s = .next t ∧
      s.frame t [.links, .stalls, .trees, .xbar, .repair, .sec, .mgmt, .obs] ∧
      ((s.tree row).phase ≠ .running → (t.tree row).member = BitVec.ofNat 1024 v ∧ ∀ j, j ≠ row → t.tree j = s.tree j) ∧
      ((s.tree row).phase = .running → t.trees = s.trees)) ∧
  (∀ (s : State) (f : Frame) (n : Nat), s.accepts f (askWrite kBuntGo 1 n) →
    ∃ t, exec (.buntGo f n) s = .next t ∧ s.frame t [.dict, .links, .stalls, .trees, .xbar, .repair, .sec, .mgmt, .obs] ∧
      (s.boot.stage = .ready → (s.tree n).phase = .idle → (s.tree n).valid = true →
        (t.tree n).phase = .waiting ∧ t.reg kBuntResult = 2 ∧ ∀ j, j ≠ n → t.tree j = s.tree j) ∧
      (s.boot.stage ≠ .ready ∨ (s.tree n).phase ≠ .idle → t.reg kBuntResult = 1 ∧ t.trees = s.trees) ∧
      (s.boot.stage = .ready → (s.tree n).phase = .idle → (s.tree n).valid = false →
        t.reg kBuntResult = 3 ∧ t.trees = s.trees)) ∧
  (∀ (s : State) (n : Nat), (s.tree n).phase = .waiting → (s.tree n).valid = true →
    rotate 256 (s.slice s.firstSlice).treePtr (fun k => (s.tree k).phase == .waiting) = some n → s.runningTrees < 4 →
    ∃ t, exec (.buntingStart n) s = .next t ∧ s.frame t [.slices, .nextTag, .trees, .pushes] ∧ (t.tree n).phase = .running ∧
      (t.tree n).opSeq = ((s.tree n).opSeq + 1) % 2 ^ 32 ∧ (∀ j, j ≠ n → t.tree j = s.tree j) ∧
      ∃ o, (t.tree n).op = some o ∧
        (let set := (upTo 1024).filter fun k => (s.tree n).member.getLsbD k
         o.absent = (set.filter fun k => (s.stall k).phase == .free).length ∧
         o.fenced = (set.filter fun k => (s.stall k).phase == .fenced || (s.stall k).phase == .detaching).length ∧
         o.members = (set.filter fun k => (s.stall k).phase != .free).length ∧
         ∀ m ∈ o.mems, m.fate = .active ∧ (s.stall m.stall).phase = .attached)) ∧
  (∀ (s : State) (f : Frame) (n : Nat), s.accepts f (askWrite kBuntAbort 1 n) →
    ∃ t, exec (.buntAbort f n) s = .next t ∧ s.frame t [.links, .stalls, .slices, .nextTag, .trees, .pushes, .xbar, .repair,
      .sec, .mgmt, .obs] ∧ (∀ j, j ≠ n → t.tree j = s.tree j) ∧
      ((s.tree n).phase = .waiting → (t.tree n).phase = .idle) ∧
      (∀ o, (s.tree n).phase = .running → (s.tree n).op = some o → o.stop = none →
        ∃ u, (t.tree n).op = some u ∧ u.stop = some .revoked) ∧
      ((s.tree n).phase = .idle → s.frame t [.links, .stalls, .xbar, .repair, .sec, .mgmt, .obs])) ∧
  (∀ (s : State) (n : Nat) (o : BuntOp), (s.tree n).op = some o → (∀ m ∈ o.mems, m.fate ≠ .active) →
    ∃ t, exec (.buntingComplete n) s = .next t ∧ s.frame t [.dict, .links, .stalls, .pitch, .slices, .chans, .nextTag,
      .trees, .pushes, .pair, .repair, .repairFace, .obs, .clock] ∧ (t.tree n).phase = .idle ∧ (t.tree n).op = none ∧
      (t.tree n).opSeq = (s.tree n).opSeq ∧ (∀ p ∈ t.pushes, p.tree ≠ n) ∧ (∀ j, j ≠ n → t.tree j = s.tree j) ∧
      ((s.tree n).fromLaunch = none → t.reg kBuntResult = 0) ∧
      ((s.tree n).notify = true → s.obs.head < t.obs.head))

/-- R235 to R238: a page goes as one PUSH to every active member that has missed none there, and one whose page may not be
read stops the operation; OK completes a copy or delivers the member, RETRY_BUSY has the same PUSH sent again, another
status or the timeout fails the member; copies that cannot leave are missed pages, and the catch-up pass sends each again
while the replication point has room and the source may be read. -/
def Obligations.PushesReachTheMembers : Prop :=
  (∀ (s : State) (n k off lines : Nat) (o : BuntOp), (s.tree n).op = some o → o.stop = none → s.pagesHeld k < 16 →
    (s.buntPages (s.tree n) k)[o.pages.get 0 k]? = some (off, lines) →
    ∃ t, exec (.buntingPageSend n k) s = .next t ∧ s.frame t [.stalls, .slices, .chans, .nextTag, .trees, .pushes,
      .repair, .repairFace, .obs, .clock] ∧
      ∃ u, (t.tree n).op = some u ∧
        (let st := s.operandStatus (s.tree n).tenant 0 false .source (s.board * 2 ^ 44 + off) (64 * lines)
         (st = .ok → u.stop = none ∧ u.pages.get 0 k = o.pages.get 0 k + 1 ∧
           ∀ m ∈ o.mems, m.fate = .active → (∀ q ∈ m.missed, q.1 ≠ k) →
             ∃ p ∈ t.pushes, p.tree = n ∧ p.slice = k ∧ p.stall = m.stall ∧ p.page = some off ∧ p.waiting = false ∧
               p.sent = false ∧ p.req.opcode = 0x38 ∧ p.req.len = lines ∧
               p.req.addr = ((s.tree n).dest + (off - bits (s.tree n).src 0 44)) % 2 ^ 52) ∧
         (st ≠ .ok → u.stop = some st ∧ u.pages = o.pages))) ∧
  (∀ (s : State) (h : HostResp) (p : Push) (o : BuntOp), s.pushOf h = some p → (s.tree p.tree).op = some o →
    ∃ t, exec (.pushResponse h) s = .next t ∧ s.frame t [.slices, .nextTag, .trees, .pushes, .xbar] ∧
      ∃ u, (t.tree p.tree).op = some u ∧
        (Status.ofCode h.status = .ok → p.page.isSome = true → ∀ q ∈ t.pushes, q.tag = p.tag → q.page = none) ∧
        (Status.ofCode h.status = .ok → p.page = none →
          (∀ q ∈ t.pushes, q.tag ≠ p.tag) ∧ ∀ m ∈ u.mems, m.stall = p.stall → m.fate = .delivered) ∧
        (Status.ofCode h.status = .retryBusy → (∀ q ∈ t.pushes, q.tag = p.tag → q.waiting = true) ∧
          t.pushes.length = s.pushes.length ∧ u = o) ∧
        (Status.ofCode h.status ≠ .ok → Status.ofCode h.status ≠ .retryBusy →
          u.failedCount = o.failedCount + 1 ∧ (∀ m ∈ u.mems, m.stall = p.stall → m.fate = .failed (Status.ofCode
            h.status)) ∧
          ∀ q ∈ t.pushes, ¬ (q.tree = p.tree ∧ q.stall = p.stall))) ∧
  (∀ (s : State) (tag : Nat) (p : Push), s.pushes.find? (fun q => q.tag == tag && q.waiting) = some p →
    ∃ t, exec (.pushRetry tag) s = .next t ∧ s.frame t [.slices, .pushes] ∧ (∀ q ∈ t.pushes, q.tag = tag → q.waiting =
      false) ∧
      ∃ e ∈ (t.slice p.slice).egress, e.stall = p.stall ∧ e.origin = .push p.tag ∧ e.msg = .req p.req) ∧
  (∀ (s : State) (tag : Nat) (p : Push) (o : BuntOp), s.pushes.find? (fun q => q.tag == tag && q.sent) = some p →
    (s.tree p.tree).op = some o →
    ∃ t, exec (.buntTimeoutExpiry tag) s = .next t ∧ s.frame t [.slices, .trees, .pushes, .xbar] ∧
      (∀ q ∈ t.pushes, ¬ (q.tree = p.tree ∧ q.stall = p.stall)) ∧
      ∃ u, (t.tree p.tree).op = some u ∧ u.failedCount = o.failedCount + 1 ∧
        ∀ m ∈ u.mems, m.stall = p.stall → m.fate = .failed .timeout) ∧
  (∀ (s : State) (n k st : Nat) (o : BuntOp), (s.tree n).op = some o →
    ∃ t, exec (.catchupWaitExpiry n k st) s = .next t ∧ s.frame t [.slices, .trees, .pushes, .xbar] ∧
      ∃ u, (t.tree n).op = some u ∧
        ∀ p ∈ s.pushes, ∀ off, p.tree = n → p.slice = k → p.stall = st → p.page = some off → p.sent = false →
          (∀ q ∈ t.pushes, q.tag ≠ p.tag) ∧ ∀ m ∈ u.mems, m.stall = st → (k, off) ∈ m.missed) ∧
  (∀ (s : State) (n k : Nat) (o : BuntOp), (s.tree n).op = some o → o.stop = none →
    (s.buntPages (s.tree n) k).length ≤ o.pages.get 0 k →
    ∃ t, exec (.catchupPass n k) s = .next t ∧ s.frame t [.stalls, .slices, .chans, .nextTag, .trees, .pushes, .repair,
      .repairFace, .obs, .clock] ∧
      ∃ u, (t.tree n).op = some u ∧
        (let lacks := (o.mems.filter fun m => m.fate == .active).flatMap fun m => m.missed.filter fun q => q.1 == k
         let may := fun q => s.pageStatus (s.tree n) q.2 ((s.tree n).pageLines q.2)
         ((∀ q ∈ lacks, may q = .ok) → s.pagesHeld k + lacks.length ≤ 16 → u.stop = none ∧
           u.catchup = o.catchup + lacks.length ∧ (∀ m ∈ u.mems, m.fate = .active → ∀ q ∈ m.missed, q.1 ≠ k) ∧
           ∀ m ∈ o.mems, m.fate = .active → ∀ off, (k, off) ∈ m.missed →
             ∃ p ∈ t.pushes, p.tree = n ∧ p.slice = k ∧ p.stall = m.stall ∧ p.page = some off ∧ p.sent = false) ∧
         (16 ≤ s.pagesHeld k → u.stop = none ∧ u.catchup = o.catchup ∧ t.stalls = s.stalls) ∧
         (s.pagesHeld k ≤ 16 → t.pagesHeld k ≤ 16) ∧
         (s.pagesHeld k < 16 → ∀ q, lacks.head? = some q → may q ≠ .ok → u.stop = some (may q) ∧ u.catchup = o.catchup)))

/-- R243, R247, R253 to R258: a shaper row in range is written with no credit; a gate list that passes becomes the active
one and sets the gates at the current PHASE; rows of another list are written; FB_COMMIT takes the staged list and offset
or answers 3; in mark fall-back each row of the cyclic list sets the gates in its turn. -/
def Obligations.ShapersAndGatesAreSet : Prop :=
  (∀ (s : State) (f : Frame) (row v : Nat), s.accepts f (askRows kShaperTable 32 row [v]) →
    ∃ t, exec (.shaperTableWrite f row [v]) s = .next t ∧ s.frame t [.links, .stalls, .shapers, .xbar, .pair, .repair, .sec,
      .mgmt, .obs] ∧
      (let rates := (bits v 0 32 = 0 ∨ 100 ≤ bits v 0 32 ∧ bits v 0 32 ≤ 4608000) ∧
         (bits v 32 32 = 0 ∨ 100 ≤ bits v 32 32 ∧ bits v 32 32 ≤ 4608000)
       let bursts := 8192 ≤ bits v 64 32 ∧ bits v 64 32 ≤ 67108864 ∧ 8192 ≤ bits v 96 32 ∧ bits v 96 32 ≤ 67108864
       (rates ∧ bursts → t.shaper row = ⟨bits v 0 32, bits v 32 32, bits v 64 32, bits v 96 32, 0, 0, s.time.ao⟩ ∧
         ∀ j, j ≠ row → t.shaper j = s.shaper j) ∧
       (¬ (rates ∧ bursts) → t.shapers = s.shapers ∧ t.pair = s.pair))) ∧
  (∀ (s : State) (f : Frame) (v : Nat), s.accepts f (askWrite kActiveGateList 1 v) →
    ∃ t, exec (.activeGateListWrite f v) s = .next t ∧ s.frame t [.dict, .links, .stalls, .slices, .chans, .gates, .xbar,
      .pair, .repair, .sec, .mgmt, .obs, .clock] ∧ t.gates.lists = s.gates.lists ∧
      (gateListOk (s.gateRows v) = true → t.reg kActiveGateList = v ∧
        (s.boot.stage = .ready → s.time.fallback = false →
          t.gates.tcOpen = match gateAt (s.gateRows v) s.time.mphase with
            | none => 0xFF
            | some e => e.tcOpen)) ∧
      (gateListOk (s.gateRows v) = false → t.dict = s.dict ∧ t.gates = s.gates)) ∧
  (∀ (s : State) (f : Frame) (row v : Nat), s.accepts f (askRows kGateLists 4 row [v]) →
    ∃ t, exec (.gateListsWrite f row [v]) s = .next t ∧
      s.frame t [.links, .stalls, .gates, .xbar, .pair, .repair, .sec, .mgmt, .obs] ∧
      t.gates.tcOpen = s.gates.tcOpen ∧
      (let refused := row / 256 = s.reg kActiveGateList ∨ (gateOfWord v).migrate = 3 ∨ (gateOfWord v).scrub = 3
       (¬ refused → t.gates.lists.get {} row = gateOfWord v ∧
         ∀ j, j ≠ row → t.gates.lists.get {} j = s.gates.lists.get {} j) ∧
       (refused → t.gates = s.gates))) ∧
  (∀ (s : State) (f : Frame) (v : Nat), v < 2 ^ 32 → s.accepts f (askWrite kFbOffset 4 v) →
    ∃ t, exec (.fbOffsetWrite f v) s = .next t ∧
      s.frame t [.dict, .links, .stalls, .xbar, .pair, .repair, .sec, .mgmt, .obs] ∧ t.reg kFbOffset
      = v ∧
      ∀ k, k ≠ kFbOffset → t.reg k = s.reg k) ∧
  (∀ (s : State) (f : Frame) (v : Nat), s.accepts f (askWrite kFbCommit 1 v) →
    ∃ t, exec (.fbCommit f v) s = .next t ∧ s.frame t [.dict, .links, .stalls, .slices, .chans, .gates, .xbar, .pair,
      .repair, .sec, .mgmt, .obs, .clock] ∧ t.gates.lists = s.gates.lists ∧
      (s.fbStageOk = true → t.gates.fbList = s.gates.fbStage ∧ t.gates.fbOffset = s.reg kFbOffset ∧ t.reg kFbResult = 0) ∧
      (s.fbStageOk = false → t.gates = s.gates ∧ t.reg kFbResult = 3)) ∧
  (∀ (s : State) (k : Nat) (e : FbEntry), s.time.fallback = true → s.boot.stage = .ready →
    k = (if (fbAt s.fbRows 0 s.fbPhase).1 ≠ s.gates.fbIndex then (fbAt s.fbRows 0 s.fbPhase).1
      else (s.gates.fbIndex + 1) % max 1 s.fbRows.length) → s.fbRows[k]? = some e →
    ∃ t, exec .fallbackGateEntry s = .next t ∧ s.frame t [.stalls, .slices, .chans, .gates, .repair, .obs, .clock] ∧
      t.gates.fbIndex = k ∧
      t.gates.tcOpen = e.tcOpen ∧ t.gates.migrate = (if e.migrate then s.everySlice else 0) ∧
      t.gates.scrub = (if e.scrub then s.everySlice else 0) ∧ t.gates.fbList = s.gates.fbList)

/-- R250, R251, R260, R261, R264: the wheel's due flows become eligible or enter again; the next eligible flow sends its
oldest packet that may start, charged to its shaper; a slice's pipeline grants one operation, a host's being then done; a
promotion holds for its level; a crossbar port moves one packet of the source its pointer picks. -/
def Obligations.PacketsLeaveInTurn : Prop :=
  (∀ (s : State) (k w : Nat), ((s.slice k).wheel.map Prod.fst).min? = some w →
    ∃ t, exec (.wheelSlotDue k) s = .next t ∧ s.frame t [.slices] ∧
      ∀ st, (w, st) ∈ (s.slice k).wheel →
        (let due : State := { s with time := { s.time with ao := max s.time.ao w } }
         (due.outOpen st = true → st ∈ (t.slice k).eligible) ∧
         (due.outOpen st = false → st ∉ (t.slice k).eligible ∧ (due.wheelSlot st, st) ∈ (t.slice k).wheel))) ∧
  (∀ (s : State) (k st : Nat),
    (let b := if s.xbar.sent.any (fun e => e.1 == k) then s.endSends else s
     rotate flowCount (b.slice k).flowPtr (fun j => (b.slice k).eligible.contains j) = some st →
     ∃ t, exec (.flowSend k) s = .next t ∧ s.frame t [.stalls, .stallFace, .shapers, .pitch, .slices, .xbar, .obs] ∧
      (t.slice k).flowPtr = (st + 1) % flowCount ∧
      (b.silenced st = true → ∀ p ∈ (t.slice k).egress, p.stall ≠ st) ∧
      (b.silenced st = false → b.liveLinks st = [] → st ∉ (t.slice k).eligible ∧
        ∀ p ∈ (b.slice k).egress, ∀ n id e, p.stall = st → p.origin = .slice n id → (t.slice n).trk id = some e →
          e.stage = .heldResp) ∧
      (b.silenced st = false → b.liveLinks st ≠ [] →
        (∀ p n, b.nextPacket k st = some (p, n) →
          (t.slice k).egress = (b.slice k).egress.erase p ∧
          t.xbar.outWait.get [] n = b.xbar.outWait.get [] n ++ [(k, { p with paid := true })] ∧
          t.xbar.sent = b.xbar.sent ++ [(k, st)] ∧ (t.stall st).sprayPtr = (n + 1) % 48 ∧
          (p.paid = false → (b.shaper st).rateOut ≠ 0 →
            (t.shaper st).creditOut = b.creditOut st - p.msg.bytes * 65536) ∧
          (p.paid = true ∨ (b.shaper st).rateOut = 0 → t.shapers = b.shapers)) ∧
        (b.nextPacket k st = none → (t.slice k).egress = (b.slice k).egress ∧ t.xbar = b.xbar ∧
          ((∀ p ∈ (b.slice k).egress, p.stall ≠ st) → st ∉ (t.slice k).eligible ∧ st ∉ (t.slice k).parkedFlows) ∧
          ((b.slice k).egress.any (fun p => p.stall == st) = true →
            (b.liveLinks st).any (fun n => (b.link n).takes 4124) = true →
            st ∈ (t.slice k).parkedFlows ∧ st ∉ (t.slice k).eligible))))) ∧
  (∀ (s : State) (k : Nat), k < 8 → (s.slice k).park ≠ .parked →
    ∃ t v, exec (.pipelineGrant k) s = .next t ∧
      (let p := (s.slice k).pipe.age.overflow
       (p.pick = none → t = v ∧ s.frame v [.slices] ∧ (v.slice k).pipe = p) ∧
       ∀ l, p.pick = some l → (v.slice k).pipe = (p.grant l).2 ∧
         (let host := fun o e => (p.grant l).1 = some o ∧ l = 3 ∧ o.source ≠ cohSource ∧ (s.slice k).trk o.what = some e ∧
            e.stage = .queued
          (∀ o e, host o e → t = v.takeCandidates k ∧
            s.frame v [.links, .stalls, .stallFace, .pitch, .slices, .pair, .repair, .sec, .secFace, .obs] ∧
            ∃ u, (v.slice k).trk o.what = some u ∧ u.stage = .done ∧
              u.status = (if e.op = .hint then (s.hintDo e.stall e.req).2 else e.status)) ∧
          ((∀ o e, ¬ host o e) → t = v ∧ s.frame v [.slices])))) ∧
  (∀ (s : State) (k l : Nat), k < 8 → 4 ≤ l → l ≤ 6 → (s.slice k).pipe.level l ≠ [] →
    promotionTime l ≤ (s.slice k).pipe.waited l →
    ∃ t, exec (.priorityPromotion k l) s = .next t ∧ s.frame t [.slices] ∧ (t.slice k).pipe.promoted l = true ∧
      (t.slice k).pipe.level l = (s.slice k).pipe.level l) ∧
  (∀ (s : State) (n src : Nat) (p : EgPkt), n < 48 → pickFrom 9 (s.xbar.outPtr.get 0 n) (s.xbar.outWait.get [] n) = some
    (src, p) →
    ∃ t, exec (.crossbarGrant true n) s = .next t ∧
      (((s.link n).isUp = true → (s.link n).takes p.msg.bytes = true) →
        t.xbar.outWait.get [] n = (s.xbar.outWait.get [] n).erase (src, p) ∧ t.xbar.outPtr.get 0 n = (src + 1) % 9) ∧
      ((s.link n).takes p.msg.bytes = true → s.frame t [.links, .pitch, .slices, .pushes, .xbar, .obs] ∧
        (∃ q, (t.link n).unacked = (s.link n).unacked ++ [q] ∧ q.tc = p.tc ∧ q.origin = p.origin ∧
          q.msg = (s.link n).strip p.msg) ∧
        (∀ tag, p.origin = .push tag → ∀ q ∈ t.pushes, q.tag = tag → q.sent = true) ∧
        ∀ k id e, p.origin = .slice k id → (t.slice k).trk id = some e → e.stage = .inLink) ∧
      ((s.link n).isUp = false → (t.link n).unacked = (s.link n).unacked ∧
        s.frame t [.links, .stalls, .pitch, .slices, .pushes, .xbar, .pair, .obs]) ∧
      ((s.link n).isUp = true → (s.link n).takes p.msg.bytes = false → t = s)) ∧
  (∀ (s : State) (k src id : Nat), k < 8 → pickFrom 56 (s.xbar.inPtr.get 0 k) (s.xbar.inWait.get [] k) = some (src, id) →
    ∃ t, exec (.crossbarGrant false k) s = .next t ∧ s.frame t [.slices, .xbar, .obs, .clock] ∧
      t.xbar.inWait.get [] k = (s.xbar.inWait.get [] k).erase (src, id) ∧ t.xbar.inPtr.get 0 k = (src + 1) % 56 ∧
      (t.slice k).pipe.q3 = (s.slice k).pipe.q3 ++ (if src < 48 ∧ ((s.slice k).trk id).isSome then [⟨src, id, 0⟩] else []) ∧
      (t.slice k).pipe.q5 = (s.slice k).pipe.q5 ++ (if 48 ≤ src then [⟨id, 0, 0⟩] else []))

/-- R271, R272, R275, R276: a sequenced packet in its turn is applied and HSEQ goes on by one; one whose slice epoch is
wrong is not acknowledged; one ahead of its turn is held; one of another pair epoch is counted alone. Epoch content is
staged and committed at its end. R271, R276, R284: MIRROR_ACK lets every covered packet go, and a refused one is sent
again under the partner's slice epoch; the board acknowledges the last HSEQ applied, ends its mirror epochs with the
changed entries, and copies the listed granules one by one. -/
def Obligations.PacketsAreAppliedAndMirrored : Prop :=
  ((∀ (s : State) (k : Nat) (p : HalPkt) (i : Instr), seqCmd k p = some i → p.link ∈ s.liveHalyard → (halHdr p.hdr).kind =
    k →
    (halHdr p.hdr).pairEpoch = s.pair.epoch → s.pair.rxAhead = [] → (halHdr p.hdr).hseq = s.pair.applyNext →
    ∃ t, exec i s = .next t ∧ s.frame t [.links, .stalls, .stallFace, .pitch, .slices, .chans, .barrows, .pair, .repair,
      .repairFace, .sec, .secFace, .obs, .clock] ∧
      (∀ u, s.applyPacket p = some u → t.pair.applyNext = (s.pair.applyNext + 1) % 2 ^ 32 ∧ t.pair.nacked = none ∧
        t.pair.rxAhead = [] ∧ t.pair.image = u.pair.image ∧ t.pair.handed = u.pair.handed ∧ t.chans = u.chans ∧
        t.pitch = u.pitch) ∧
      (k = 1 → (s.slice (s.sliceOf (halHdr p.hdr).offset).1).epoch ≠ (halHdr p.hdr).sliceEpoch →
        t.pair.nacked = some (halHdr p.hdr).hseq ∧ t.pair.applyNext = s.pair.applyNext ∧ t.chans = s.chans) ∧
      (k = 1 → (s.slice (s.sliceOf (halHdr p.hdr).offset).1).epoch = (halHdr p.hdr).sliceEpoch →
        t.chans = (s.applyMirror (halHdr p.hdr) p.payload).chans) ∧
      (∀ u : Line, k = 2 → p.payload = [u] → bits u.toNat 0 8 = 1 → u.toNat / 2 ^ 64 < ownMark →
        t.pair.image.pitch.get {} (bits (u.toNat / 2 ^ 64) 0 32) = pitchOfWord (bits (u.toNat / 2 ^ 64) 32 64) ∧
        s.frame t [.pair]) ∧
      (k = 3 → t.pair.image.staged = s.pair.image.staged ++ p.payload ∧ s.frame t [.pair]) ∧
      (k = 4 → t.pair.image.staged = [] ∧ t.pair.image.epochNo = bits (p.payload.headD 0).toNat 0 32 ∧ s.frame t [.pair])) ∧
  (∀ (s : State) (k : Nat) (p : HalPkt) (i : Instr), seqCmd k p = some i → p.link ∈ s.liveHalyard → (halHdr p.hdr).kind =
    k →
    (halHdr p.hdr).pairEpoch = s.pair.epoch → s.pair.rxAhead = [] →
    0 < ((halHdr p.hdr).hseq + 2 ^ 32 - s.pair.applyNext) % 2 ^ 32 →
    ∃ t, exec i s = .next t ∧ s.frame t [.pair] ∧ t.pair.applyNext = s.pair.applyNext ∧
      (((halHdr p.hdr).hseq + 2 ^ 32 - s.pair.applyNext) % 2 ^ 32 < 2 ^ 31 → (halHdr p.hdr).hseq ≠ s.pair.applyNext →
        t.pair.rxAhead = [p]) ∧
      (2 ^ 31 ≤ ((halHdr p.hdr).hseq + 2 ^ 32 - s.pair.applyNext) % 2 ^ 32 → t = s)) ∧
  (∀ (s : State) (k : Nat) (p : HalPkt) (i : Instr), seqCmd k p = some i → p.link ∈ s.liveHalyard → (halHdr p.hdr).kind =
    k →
    (halHdr p.hdr).pairEpoch ≠ s.pair.epoch → s.pair.phase ≠ .syncing →
    exec i s = .next (s.count .board 0 9))) ∧
  ((∀ (s : State) (p : HalPkt), s.halArrived 5 p = true → (halHdr p.hdr).pairEpoch = s.pair.epoch →
    ∃ t v, exec (.mirrorAck p) s = .next t ∧ s.frame t [.dict, .links, .linkFace, .stalls, .stallFace, .pitch, .slices,
      .chans, .snoops, .nextTag, .trees, .pushes, .xbar, .pair, .repair, .repairFace, .sec, .secFace, .obs, .clock, .boot] ∧
      s.frame v [.links, .pair, .obs] ∧
      v.pair.sent.map (·.hseq) = (s.pair.sent.filter fun o =>
        !decide (((halHdr p.hdr).hseq + 2 ^ 32 - o.hseq) % 2 ^ 32 < 2 ^ 31)).map (·.hseq) ∧
      (bits (p.payload.headD 0).toNat 32 8 = 4 → ∀ o ∈ v.pair.sent, o.hseq = bits (p.payload.headD 0).toNat 0 32 →
        o.sliceEpoch = s.partnerEpochOf o.offset) ∧
      (let w := v.cohGoAll
       w.pair.epochDeferred = false → w.pair.copyHseq = none → w.pair.relinq = none → t = w)) ∧
  (∀ (s : State) (u : Line) (n : Nat),
    u = BitVec.ofNat 512 ((s.pair.nacked.map fun h => h + 4 * 2 ^ 32).getD 0) →
    s.pickLink s.pair.halPtr s.liveHalyard (plainHal 5 (hseqBefore s.pair.applyNext) s.pair.epoch [u]).bytes = some n →
    ∃ t, exec .mirrorAckSend s = .next t ∧ s.frame t [.links, .pair, .obs] ∧ t.pair.halPtr = (n + 1) % 48 ∧
      ∃ q, (t.link n).unacked = (s.link n).unacked ++ [q] ∧
        q.msg = plainHal 5 (hseqBefore s.pair.applyNext) s.pair.epoch [u]) ∧
  (∀ s : State, s.mirrors = true →
    ∃ t, exec .mirrorEpochEnd s = .next t ∧ s.frame t [.links, .slices, .pair, .obs, .clock] ∧
      (s.epochUnsent = true → t.pair.epochDeferred = true ∧ t.pair.sent = s.pair.sent ∧ t.pair.changedTags =
        s.pair.changedTags) ∧
      (s.epochUnsent = false → t.pair.epochCount = s.pair.epochCount + 1 ∧ t.pair.epochDeferred = false ∧
        t.pair.changedTags = [] ∧ t.pair.changedRows = [] ∧
        (∃ o ∈ t.pair.sent, o.kind = 4 ∧
          o.data = [BitVec.ofNat 512 ((s.pair.epochCount + 1) % 2 ^ 32 + (s.stamp 11).toNat * 2 ^ 128)]) ∧
        t.pair.hseqNext = (s.pair.hseqNext + (packets64 s.epochContent.length s.epochContent).length + 1) % 2 ^ 32)) ∧
  (∀ (s : State) (g : Nat) (r : List Nat), s.pair.copyHseq = none → s.pair.activeSide = true ∨ s.pair.phase = .paired →
    s.pair.resync = g :: r →
    ∃ t, exec .resyncGranuleDone s = .next t ∧ s.frame t [.links, .stalls, .slices, .chans, .pair, .repair, .repairFace,
      .obs, .clock] ∧ t.pair.copying = some g ∧
      t.pair.resync = s.pair.resync ∧ t.pair.applyNext = s.pair.applyNext ∧
      (s.pair.enable = true → ∃ h, t.pair.copyHseq = some h ∧ ∃ o ∈ t.pair.sent, o.hseq = h ∧ o.kind = 2 ∧
        o.data = [ctlRecord 7 (s.partnerGranule g)])))

/-- R277 to R279, R399: a heartbeat settles an UNPAIRED pair and ends a rejoin; RELINQUISH and TAKEN move a PAIRED board
and are refused and counted elsewhere; the timed sends go out on every live halyard link; STREAM_END ends the stream of a
relinquish, whose last acknowledgement makes the board RELINQUISHED. -/
def Obligations.PairsFollowTheirPartner : Prop :=
  (∀ (s : State) (p : HalPkt) (u phase w : Nat) (epoch : BitVec 8), s.halArrived 6 p = true → u = (p.payload.headD
    0).toNat →
    phase = bits u 0 8 → w = bits u 128 32 → epoch = (halHdr p.hdr).pairEpoch →
    ∃ t, exec (.heartbeat p) s = .next t ∧ s.frame t [.dict, .links, .linkFace, .stalls, .stallFace, .pitch, .slices,
      .barrows, .pushes, .xbar, .pair, .repair, .sec, .secFace, .obs, .boot] ∧
      (s.pair.phase ≠ .unpaired → s.pair.phase ≠ .syncing → s.pair.phase ≠ .relinquishing →
        s.frame t [.pair] ∧ t.pair.phase = s.pair.phase ∧ t.pair.partnerPhase = phase ∧ t.pair.partnerSlices = bits u 8 8 ∧
        t.pair.partnerEpochs = BitVec.ofNat 64 (bits u 64 64) ∧ t.pair.partnerW = w) ∧
      (s.pair.phase = .unpaired → w = s.pair.window →
        (phase = 0 → s.pair.heartbeatSent = true → s.mayAdvance s.pair.pairAdvances = true →
          t.pair.phase = .paired ∧ t.pair.epoch = s.pair.epoch + 1) ∧
        (phase = 3 ∨ phase = 5 → t.pair.phase = .syncing ∧ t.pair.epoch = epoch)) ∧
      (s.pair.phase = .unpaired → w ≠ s.pair.window → t.pair.phase = .unpaired) ∧
      (s.pair.phase = .syncing → t.pair.epoch = epoch ∧ (phase = 2 → t.pair.phase = .paired) ∧
        (phase ≠ 2 → t.pair.phase = .syncing)) ∧
      (∀ r, s.pair.phase = .relinquishing → s.pair.relinq = some r → r.ended = true →
        (r.handback = true → phase = 2 → t.pair.phase = .paired ∧ t.pair.epoch = epoch) ∧
        (r.handback = false → phase = 5 → t.pair.phase = .relinquished ∧ t.boot.pairDriveReleased = true))) ∧
  (∀ s : State, ∃ t, exec .heartbeatSend s = .next t ∧ s.frame t [.links, .pair, .obs] ∧
    s.sentOn t (plainHal 6 0 s.pair.epoch [s.heartbeatUnit]) ∧ (s.liveHalyard ≠ [] → t.pair.heartbeatSent = true)) ∧
  (∀ (s : State) (p : HalPkt), s.halArrived 7 p = true →
    ∃ t, exec (.relinquish p) s = .next t ∧ s.frame t [.links, .pair, .obs] ∧ t.pair.takenOn = false ∧
      (let reason := bits (p.payload.headD 0).toNat 0 8
       let may := s.mayAdvance s.pair.pairAdvances
       (s.pair.phase = .paired → may = true → t.pair.phase = .takingOver ∧ t.pair.takingNumber = s.pair.partnerNo ∧
         t.pair.takeReason = reason ∧ t.pair.handbackTake = false ∧ t.pair.finalHseq = none) ∧
       (s.pair.phase = .syncing → reason = 4 → may = true → t.pair.phase = .takingOver ∧ t.pair.takingNumber = s.board ∧
         t.pair.handbackTake = true) ∧
       (may = false ∨ s.pair.phase ≠ .paired ∧ (s.pair.phase ≠ .syncing ∨ reason ≠ 4) → t.pair.phase = s.pair.phase ∧
         t.pair.refused = s.pair.refused + 1))) ∧
  (∀ (s : State) (p : HalPkt), s.halArrived 8 p = true → s.pair.phase = .takingOver → (halHdr p.hdr).pairEpoch =
    s.pair.epoch →
    ∃ t, exec (.streamEnd p) s = .next t ∧ s.frame t [.pair] ∧ t.pair.streamEnd = some (halHdr p.hdr).hseq ∧
      t.pair.phase = .takingOver) ∧
  (∀ (s : State) (p : HalPkt), s.halArrived 9 p = true →
    ∃ t, exec (.taken p) s = .next t ∧ s.frame t [.links, .slices, .trees, .pushes, .xbar, .pair, .obs] ∧
      (s.pair.phase = .paired → t.pair.phase = .relinquishing ∧
        t.pair.relinq = some (⟨5, s.board, false, false, false, false, false⟩ : Relinquish) ∧
        s.sentOn t (plainHal 7 (hseqBefore s.pair.hseqNext) s.pair.epoch [BitVec.ofNat 512 (5 + s.board * 2 ^ 8)]) ∧
        t.pushes = [] ∧ ∀ n, (t.tree n).phase = .idle ∧ (t.tree n).op = none) ∧
      (s.pair.phase ≠ .paired → s.frame t [.pair] ∧ t.pair.phase = s.pair.phase ∧ t.pair.refused = s.pair.refused + 1)) ∧
  (∀ (s : State) (r : Relinquish), s.pair.relinq = some r → r.ended = false →
    (∃ t, exec .relinquishRepeat s = .next t ∧ s.frame t [.links, .obs] ∧
      s.sentOn t (plainHal 7 (hseqBefore s.pair.hseqNext) s.pair.epoch [BitVec.ofNat 512 (r.reason + r.number * 2 ^ 8)])) ∧
    (r.expired = false → ∃ t, exec .relinquishDeadline s = .next t ∧ s.frame t [.links, .stalls, .stallFace, .slices,
      .xbar, .pair, .repair, .sec, .secFace, .obs] ∧
      t.pair.relinq = some { r with expired := true }) ∧
    (r.expired = true ∨ (s.trkWhere fun e => r.concerns e && e.running) = [] →
      ∃ u t, exec .streamEndSend s = .next t ∧ s.frame u [.links, .pair, .obs] ∧
        s.sentOn u (plainHal 8 (hseqBefore s.pair.hseqNext) s.pair.epoch []) ∧
        u.pair.relinq = some { r with ended := true } ∧
        (r.thenReset = true → t = u.boardReset 2) ∧ (r.thenReset = false → r.thenRails = true → t = u.goDark) ∧
        (r.thenReset = false → r.thenRails = false →
          (s.pair.sent ≠ [] → s.liveHalyard ≠ [] → t = u) ∧
          (s.pair.sent = [] ∨ s.liveHalyard = [] → r.handback = false →
            t.pair.phase = .relinquished ∧ t.boot.pairDriveReleased = true)))) ∧
  (∀ s : State, s.pair.takenOn = true →
    ∃ t, exec .takenRepeat s = .next t ∧ s.frame t [.links, .obs] ∧
      s.sentOn t (plainHal 9 0 s.pair.epoch [BitVec.ofNat 512 s.pair.takingNumber]))

/-- R277 to R284: PAIR_COMMAND moves a PAIRED board to its relinquish or takeover and starts a rejoin, and answers 1
elsewhere; a takeover goes on to the serve cycle at its final HSEQ; a lost partner leaves the board SOLO or taking over;
image stalls are fenced and detached only while both numbers are served. -/
def Obligations.TakeoversRunTheirCourse : Prop :=
  (∀ (s : State) (f : Frame), s.accepts f (askWrite kPairCommand 1 1) →
    ∃ t, exec (.pairCommandRelinquish f) s = .next t ∧ s.frame t [.dict, .links, .stalls, .slices, .trees,
      .pushes, .xbar, .pair, .repair, .sec, .mgmt, .obs] ∧
      (s.pair.phase = .paired → t.pair.phase = .relinquishing ∧ t.reg kPairResult = 2 ∧
        t.pair.relinq = some (⟨3, s.board, false, false, false, false, false⟩ : Relinquish)) ∧
      (s.pair.phase ≠ .paired → t.pair = s.pair ∧ t.reg kPairResult = 1)) ∧
  (∀ (s : State) (f : Frame), s.accepts f (askWrite kPairCommand 1 2) →
    ∃ t, exec (.pairCommandTakeover f) s = .next t ∧ s.frame t [.dict, .links, .stalls, .xbar, .pair, .repair,
      .sec, .mgmt, .obs] ∧
      (s.pair.phase = .paired → s.mayAdvance s.pair.pairAdvances = true → t.pair.phase = .takingOver ∧
        t.pair.takingNumber = s.pair.partnerNo ∧
        t.pair.takenOn = !s.liveHalyard.isEmpty ∧ t.reg kPairResult = 2) ∧
      (s.pair.phase = .paired → s.mayAdvance s.pair.pairAdvances = false → t.pair = s.pair ∧ t.reg kPairResult = 7) ∧
      (s.pair.phase ≠ .paired → t.pair = s.pair ∧ t.reg kPairResult = 1)) ∧
  (∀ (s : State) (f : Frame), s.accepts f (askWrite kPairCommand 1 3) →
    ∃ t, exec (.pairCommandRejoin f) s = .next t ∧ s.frame t [.dict, .links, .stalls, .pitch, .slices, .barrows,
      .trees, .pushes, .xbar, .pair, .repair, .sec, .secFace, .mgmt, .obs] ∧
      (let may := s.pair.activeSide = false ∧
         (s.pair.phase = .solo ∨ s.pair.phase = .servingBoth ∧ s.pair.partnerReset = true)
       (¬ may → t.pair = s.pair ∧ t.reg kPairResult = 1) ∧
       (may → s.mayAdvance s.pair.pairAdvances = false → t.pair = s.pair ∧ t.reg kPairResult = 7) ∧
       (may → s.mayAdvance s.pair.pairAdvances = true → s.pair.resync ≠ [] →
         t.pair.activeSide = true ∧ t.pair.epoch = s.pair.epoch + 1 ∧ t.pair.copying = s.pair.resync.head? ∧
         t.pair.phase = s.pair.phase ∧ t.reg kPairResult = 2) ∧
       (may → s.mayAdvance s.pair.pairAdvances = true → s.pair.resync = [] → s.pair.phase = .solo →
         t.pair.phase = .paired ∧ t.pair.epoch = s.pair.epoch + 1 ∧ t.reg kPairResult = 0))) ∧
  (∀ s : State, ∃ t, exec .pairPresentNHigh s = .next t ∧ s.frame t [.links, .stalls, .pair, .repair, .obs] ∧
    t.pair.presentHigh = true ∧
    (let since := if s.pair.presentHigh then s.pair.presentSince else s.time.ticks
     let gone := s.pair.enable = true ∧ s.liveHalyard = [] ∧
       max since s.pair.halDownSince ≤ min since s.pair.halDownSince + s.reg kPairDecide * 1000
     let takes := s.pair.phase = .paired ∧ s.mayAdvance s.pair.pairAdvances = true
     (takes → gone → t.pair.phase = .takingOver ∧ t.pair.takingNumber = s.pair.partnerNo ∧ t.pair.takenOn = false) ∧
     (s.pair.phase = .solo → t.pair.phase = .solo ∧ t.obs.head = s.obs.head + 1) ∧
     (¬ takes → s.pair.phase ≠ .solo → gone → t.pair.phase = s.pair.phase ∧ t.pair.refused = s.pair.refused + 1) ∧
     (¬ gone → t.pair.phase = s.pair.phase ∧ t.pair.refused = s.pair.refused))) ∧
  (∀ s : State, s.pair.phase = .takingOver → s.pair.finalHseq = none →
    ∃ t, exec .takeoverWaitEnd s = .next t ∧ s.frame t [.links, .pitch, .slices, .barrows, .pair, .sec, .secFace, .obs] ∧
      t.pair.finalHseq = some (hseqBefore s.pair.applyNext) ∧
      t.pair.takenOn = false ∧ t.pair.epoch = s.pair.epoch + 1 ∧ t.pair.phase = .takingOver) ∧
  (∀ (s : State) (h : Nat), s.pair.phase = .takingOver → s.pair.finalHseq = some h →
    ∃ t, exec .takeoverActivated s = .next t ∧ s.frame t [.dict, .stalls, .stallFace, .shapers, .pitch, .slices, .pair,
      .repair, .sec, .obs] ∧ t.pair.finalHseq = none ∧ t.pair.takenOn = false ∧
      s.obs.head < t.obs.head ∧
      (s.pair.handbackTake = true → t.pair.phase = .paired) ∧
      (s.pair.handbackTake = false → t.pair.phase = .servingBoth ∧ t.pair.sent = [] ∧
        (∀ g, (t.granule g).mirrored = false) ∧
        ((s.pair.image.stalls.map Prod.fst).Nodup → ∀ st x, (st, x) ∈ s.pair.image.stalls →
          (t.stall (1024 + st)).phase = x.phase ∧ (t.stall (1024 + st)).epoch = x.epoch ∧ (t.stall (1024 + st)).host =
            x.host ∧
          (t.stall (1024 + st)).firstSeen = false))) ∧
  (∀ s : State, s.liveHalyard = [] →
    ∃ t, exec .pairDecideExpiry s = .next t ∧ s.frame t [.dict, .links, .linkFace, .stalls, .stallFace, .pitch, .slices,
      .pushes, .xbar, .pair, .repair, .sec, .obs, .boot] ∧
      (s.pair.phase = .paired → t.pair.phase = .solo ∧ t.pair.sent = [] ∧ ∀ g, (t.granule g).mirrored = false) ∧
      (s.pair.activeSide = true → s.pair.phase = .solo ∨ s.pair.phase = .servingBoth → t.pair.phase = s.pair.phase ∧
        t.pair.activeSide = false ∧ t.pair.sent = []) ∧
      (∀ r, s.pair.phase = .relinquishing → s.pair.relinq = some r → r.ended = true → r.handback = false →
        t.pair.phase = .relinquished)) ∧
  (∀ (s : State) (f : Frame) (st : Nat), st < 1024 → s.accepts f (askWrite kPartnerFence 2 st) →
    ∃ t, exec (.partnerFence f st) s = .next t ∧ s.frame t [.links, .stalls, .stallFace, .pitch, .slices, .chans,
      .snoops, .nextTag, .trees, .pushes, .xbar, .pair, .repair, .repairFace, .sec, .secFace, .mgmt, .obs, .clock] ∧
      (s.pair.phase = .servingBoth → (s.stall (1024 + st)).phase = .attached →
        (t.stall (1024 + st)).phase = .fenced ∧ (t.stall (1024 + st)).held = []) ∧
      (s.pair.phase ≠ .servingBoth ∨ (s.stall (1024 + st)).phase ≠ .attached → s.frame t [.links, .stalls, .xbar,
        .repair, .sec, .mgmt, .obs])) ∧
  (∀ (s : State) (f : Frame) (st : Nat), st < 1024 → s.accepts f (askWrite kPartnerDetach 2 st) →
    ∃ t, exec (.partnerDetach f st) s = .next t ∧ s.frame t [.links, .stalls, .stallFace, .pitch, .slices, .chans,
      .snoops, .nextTag, .trees, .pushes, .xbar, .pair, .repair, .repairFace, .sec, .secFace, .mgmt, .obs, .clock] ∧
      (s.pair.phase = .servingBoth → (s.stall (1024 + st)).phase = .attached ∨ (s.stall (1024 + st)).phase = .fenced →
        (t.stall (1024 + st)).phase = .detaching) ∧
      (s.pair.phase ≠ .servingBoth ∨ (s.stall (1024 + st)).phase = .free ∨ (s.stall (1024 + st)).phase = .detaching →
        s.frame t [.links, .stalls, .xbar, .repair, .sec, .mgmt, .obs]))

/-- R286, R287, R289, R290: an accepted move-in advances MOVE_EPOCH and holds its granules for the tenant; a MOVE_WRITE in
its turn is applied and counted, one of no open move-in counted alone; the stream's end closes it with RESULT 0, a cancel
leaves the granules. R286, R288 to R290: an accepted move-out opens; each send takes the next run of lines while window
and link have room, and MOVE_END after the last; a MOVE_ACK frees what it covers, and the one that covers the final HSEQ
ends it with RESULT 0; a stop or no progress ends it with 3. MOVE_LINKS takes no halyard link of a pair. -/
def Obligations.LinesMoveBetweenBoards : Prop :=
  ((∀ (s : State) (f : Frame), s.accepts f (askWrite kMoveInGo 1 1) →
    ∃ t, exec (.moveInOpen f) s = .next t ∧
      s.frame t [.dict, .links, .stalls, .pitch, .xbar, .pair, .repair, .sec, .mgmt, .obs] ∧
      (s.moveInCheck = 0 →
        t.pair.moveIn = some (⟨s.reg kMoveInSource, s.reg kMoveInFirst, s.reg kMoveInCount, s.reg kMoveInTenant, s.reg
          kMoveInKey,
          s.reg kMoveInTag, 0, [], 0, 0, none⟩ : MoveIn) ∧
        t.pair.moveEpoch = s.pair.moveEpoch + 1 ∧ t.reg kMoveInResult = 2 ∧
        (∀ g, s.reg kMoveInFirst ≤ g → g < s.reg kMoveInFirst + s.reg kMoveInCount →
          (t.granule g).phase = .held ∧ (t.granule g).tenant = s.reg kMoveInTenant ∧ (t.granule g).slot = s.reg kMoveInKey ∧
          (t.granule g).written = true) ∧
        ∀ g, g < s.reg kMoveInFirst ∨ s.reg kMoveInFirst + s.reg kMoveInCount ≤ g → t.granule g = s.granule g) ∧
      (s.moveInCheck ≠ 0 → t.reg kMoveInResult = s.moveInCheck ∧ t.pair = s.pair ∧ t.pitch = s.pitch)) ∧
  (∀ (s : State) (f : Frame), s.accepts f (askWrite kMoveInGo 1 2) →
    ∃ t, exec (.moveInCancel f) s = .next t ∧
      s.frame t [.dict, .links, .stalls, .xbar, .pair, .repair, .sec, .mgmt, .obs, .free] ∧
      t.pair.moveIn = none ∧
      (s.pair.moveIn ≠ none → t.reg kMoveInResult ≠ 2 ∧ s.obs.head < t.obs.head)) ∧
  (∀ (s : State) (p : HalPkt) (m : MoveIn), s.isMoveLink p.link = true → (halHdr p.hdr).kind = 0xA → s.pair.moveIn = some
    m →
    m.takes s.pair.moveEpoch (s.link p.link).partner (halHdr p.hdr) = true → m.ahead = [] →
    ∃ t, exec (.moveWrite p) s = .next t ∧ s.frame t [.dict, .links, .stalls, .pitch, .slices, .chans, .pair, .repair,
      .repairFace, .obs, .clock] ∧
      (∀ u, (halHdr p.hdr).hseq = m.next → m.finalHseq ≠ some (halHdr p.hdr).hseq →
        u = (s.withMoveIn (m.held [p])).applyMove (m.held []) (halHdr p.hdr) p.payload → t = u ∧
        ∃ k, t.pair.moveIn = some k ∧ k.next = (m.next + 1) % 2 ^ 32 ∧ k.applied = m.applied + p.payload.length ∧ k.ahead
          = []) ∧
      ((halHdr p.hdr).hseq = m.next → m.finalHseq = some (halHdr p.hdr).hseq → t.pair.moveIn = none ∧ t.reg kMoveInResult
        = 0) ∧
      ((halHdr p.hdr).hseq ≠ m.next → ((halHdr p.hdr).hseq + 2 ^ 32 - m.next) % 2 ^ 32 < 2 ^ 31 →
        s.frame t [.pair] ∧ t.pair.moveIn = some (m.held [p]))) ∧
  (∀ (s : State) (p : HalPkt), s.isMoveLink p.link = true → (halHdr p.hdr).kind = 0xA →
    (∀ m, s.pair.moveIn = some m → m.takes s.pair.moveEpoch (s.link p.link).partner (halHdr p.hdr) = false) →
    exec (.moveWrite p) s = .next (s.count .board 0 12)) ∧
  (∀ (s : State) (p : HalPkt) (m : MoveIn), s.isMoveLink p.link = true → (halHdr p.hdr).kind = 0xC → s.pair.moveIn = some
    m →
    (halHdr p.hdr).pairEpoch = s.pair.moveEpoch → (s.link p.link).partner = m.source →
    ∃ t, exec (.moveEnd p) s = .next t ∧ s.frame t [.dict, .links, .stalls, .pair, .repair, .obs] ∧
      ((halHdr p.hdr).hseq = hseqBefore m.next → t.pair.moveIn = none ∧ t.reg kMoveInResult = 0 ∧ s.obs.head < t.obs.head) ∧
      ((halHdr p.hdr).hseq ≠ hseqBefore m.next →
        s.frame t [.pair] ∧ t.pair.moveIn = some { m with finalHseq := some (halHdr p.hdr).hseq })) ∧
  (∀ (s : State) (p : HalPkt), s.isMoveLink p.link = true → (halHdr p.hdr).kind = 0xC →
    (∀ m, s.pair.moveIn = some m → ¬ ((halHdr p.hdr).pairEpoch = s.pair.moveEpoch ∧ (s.link p.link).partner = m.source)) →
    exec (.moveEnd p) s = .next (s.count .board 0 12)) ∧
  (∀ (s : State) (m : MoveIn) (n : Nat), s.pair.moveIn = some m →
    (upTo 48).find? (fun k => (s.link k).isUp && (s.isMoveLink k && (s.link k).partner == m.source)) = some n →
    (s.link n).takes (plainHal 0xB (hseqBefore m.next) s.pair.moveEpoch [0]).bytes = true →
    ∃ t, exec .moveAckSend s = .next t ∧ s.frame t [.links, .obs] ∧
      ∃ q, (t.link n).unacked = (s.link n).unacked ++ [q] ∧
        q.msg = plainHal 0xB (hseqBefore m.next) s.pair.moveEpoch [0])) ∧
  ((∀ (s : State) (f : Frame), s.accepts f (askWrite kMoveOutGo 1 1) →
    ∃ t, exec (.moveOutStart f) s = .next t ∧ s.frame t [.dict, .links, .stalls, .xbar, .pair, .repair,
      .sec, .mgmt, .obs] ∧
      (s.moveOutCheck = 0 →
        t.pair.moveOut = some (⟨s.reg kMoveOutLink, s.reg kMoveOutFirst, s.reg kMoveOutCount, s.reg kMoveOutDest, s.reg
          kMoveOutEpoch,
          0, 0, 0, 0, 0, [], false⟩ : MoveOut) ∧ t.reg kMoveOutResult = 2 ∧ t.reg kMoveOutDone = 0) ∧
      (s.moveOutCheck ≠ 0 → t.reg kMoveOutResult = s.moveOutCheck ∧ t.pair = s.pair)) ∧
  (∀ (s : State) (m : MoveOut), s.pair.moveOut = some m →
    (∀ f : Frame, s.accepts f (askWrite kMoveOutGo 1 2) →
      ∃ t, exec (.moveOutStop f) s = .next t ∧ s.frame t [.dict, .links, .stalls, .xbar, .pair, .repair,
        .sec, .mgmt, .obs] ∧
        t.pair.moveOut = none ∧ t.reg kMoveOutResult = 3 ∧
        t.reg kMoveOutDone = m.acked / 2 ^ 18 ∧ s.obs.head < t.obs.head) ∧
    ∃ t, exec .moveProgressTimeout s = .next t ∧ s.frame t [.dict, .stalls, .pair, .repair, .obs] ∧ t.pair.moveOut = none ∧
      t.reg kMoveOutResult = 3 ∧ t.reg kMoveOutDone = m.acked / 2 ^ 18 ∧ s.obs.head < t.obs.head) ∧
  (∀ (s : State) (m : MoveOut) (r : LineRun) (pkt : TxMsg), s.pair.moveOut = some m → m.nextLine < m.count * 2 ^ 18 →
    m.sent.length < halyardWindow → s.nextRun m = some r →
    pkt = TxMsg.hal (⟨0xA, r.poisoned, r.cleared, BitVec.ofNat 8 m.epoch, 0, (s.ownerOf r.offset).slot,
      (s.key (s.ownerOf r.offset).slot).epoch, m.nextHseq, r.offset⟩ : HalHdr).pack r.data →
    (s.link m.link).takes pkt.bytes = true →
    ∃ t, exec .moveWriteSend s = .next t ∧ s.frame t [.links, .stalls, .slices, .chans, .pair, .repair, .repairFace,
      .obs, .clock] ∧
      (∃ q, (t.link m.link).unacked = (s.link m.link).unacked ++ [q] ∧ q.msg = pkt) ∧
      ∃ k, t.pair.moveOut = some k ∧ k.nextLine = m.nextLine + r.data.length ∧ k.nextHseq = (m.nextHseq + 1) % 2 ^ 32 ∧
        k.lines = m.lines + r.data.length ∧ k.acked = m.acked ∧
        k.sent = m.sent ++ [(m.nextHseq, m.nextLine + r.data.length)]) ∧
  (∀ (s : State) (m : MoveOut) (p : HalPkt), s.pair.moveOut = some m → p.link = m.link → (halHdr p.hdr).kind = 0xB →
    (halHdr p.hdr).pairEpoch = BitVec.ofNat 8 m.epoch →
    ∃ t, exec (.moveAck p) s = .next t ∧ s.frame t [.dict, .links, .stalls, .pair, .repair, .obs] ∧
      (let covered : Nat × Nat → Bool := fun x => decide (((halHdr p.hdr).hseq + 2 ^ 32 - x.1) % 2 ^ 32 < 2 ^ 31)
       let acked := (m.sent.filter covered).foldl (fun a x => max a x.2) m.acked
       (m.endSent = true → (halHdr p.hdr).hseq = hseqBefore m.nextHseq → t.pair.moveOut = none ∧ t.reg kMoveOutResult = 0) ∧
       (m.endSent = false → ∃ k, t.pair.moveOut = some k ∧ k.sent = m.sent.filter (fun x => !covered x) ∧ k.acked = acked ∧
         (acked ≠ m.count * 2 ^ 18 → k.endSent = false) ∧
         (acked = m.count * 2 ^ 18 →
           (s.link m.link).takes (plainHal 0xC (hseqBefore m.nextHseq) (BitVec.ofNat 8 m.epoch) []).bytes = true →
           k.endSent = true ∧ ∃ q, (t.link m.link).unacked = (s.link m.link).unacked ++ [q] ∧
             q.msg = plainHal 0xC (hseqBefore m.nextHseq) (BitVec.ofNat 8 m.epoch) [])))) ∧
  (∀ (s : State) (f : Frame) (v : Nat), s.accepts f (askWrite kMoveLinks 8 v) →
    ∃ t, exec (.moveLinksWrite f v) s = .next t ∧ s.frame t [.dict, .links, .stalls, .xbar, .repair, .sec,
      .mgmt, .obs] ∧
      (s.reg kPairEnable = 1 → bits v 44 4 ≠ 0 → t.dict = s.dict) ∧
      (s.reg kPairEnable ≠ 1 ∨ bits v 44 4 = 0 → t.reg kMoveLinks = v % 2 ^ 48 ∧ ∀ k, k ≠ kMoveLinks → t.reg k = s.reg k)))

/-- R292 to R298, R302: a lane that fails its loopback test takes a spare while its connector has one; a slice or channel
fault stops the unit, and begins its retirement, impairs the board, or before READY folds it at once; a hung pipeline is a
slice fault; a watchdog stops the control cores, a host-port fault every host link. R295 to R300, R304: once its revokes
are complete a retiring unit is folded: recorded in RETIRED_UNITS, RESULT 0, its slice's epoch advanced and every
directory and region gone; RETIRE_GO by its kind begins a retirement, marks the record for the next reset, or answers why
not. -/
def Obligations.FaultsStopAndFoldsRetire : Prop :=
  ((∀ (s : State) (n lane : Nat) (pass : Bool), n < 48 → lane < 4 → (s.link n).inTest.getLsbD lane = true →
    ∃ t, exec (.laneLoopbackDone n lane pass) s = .next t ∧ s.frame t [.links, .linkFace, .stalls, .repair, .repairFace,
      .sec, .obs] ∧
      (t.link n).inTest.getLsbD lane = false ∧ t.repair.faultSeq = s.repair.faultSeq + 1 ∧
      (pass = true ∨ s.spares (n / 8) = [] → t.repair.laneSubs = s.repair.laneSubs) ∧
      (∀ k r, pass = false → s.spares (n / 8) = k :: r → t.repair.laneSubs = s.repair.laneSubs ++ [(n * 4 + lane, k)])) ∧
  (∀ (s : State) (n detail : Nat), n < 8 → (s.slice n).stopped = false → (s.slice n).inService = true →
    ∃ t, exec (.sliceFault n detail) s = .next t ∧ s.frame t [.dict, .links, .stalls, .stallFace, .pitch, .slices,
      .chans, .snoops, .nextTag, .barrows, .trees, .pushes, .xbar, .pair, .repair, .repairFace, .sec, .secFace, .obs,
      .clock] ∧
      (let retire := bitAt (s.reg kRetirePolicy) 0 = true ∧ s.repair.used = false
       (s.boot.stage = .ready → ¬ retire → (t.slice n).stopped = true ∧ (t.slice n).inService = false ∧ (t.slice n).dir =
         [] ∧
         (t.slice n).egress = [] ∧ t.repair.used = s.repair.used ∧ t.repair.impaired = t.leftStopped ∧
         (s.pair.phase = .paired → t.pair.phase = .relinquishing)) ∧
       (s.boot.stage = .ready → retire → ∃ u : State, t = u.beginRetire false n ∧ (u.slice n).stopped = true ∧
         (u.slice n).inService = false ∧ (u.slice n).dir = [] ∧
         (u.retirePitches false = [] → t.repair.used = true ∧
           t.repair.retiring = some (⟨false, n, [], 0⟩ : Retire))) ∧
       (s.boot.stage ≠ .ready → s.repair.used = false → t.repair.foldSlice = some n ∧ t.repair.used = true ∧
         (t.slice n).stopped = true ∧ (t.slice n).epoch = (s.slice n).epoch + 1))) ∧
  (∀ (s : State) (c detail : Nat), c < 32 → (s.chan c).stopped = false → (s.chan c).phase = .inService →
    ∃ t, exec (.channelFault c detail) s = .next t ∧ s.frame t [.dict, .links, .stalls, .stallFace, .pitch, .slices,
      .chans, .snoops, .nextTag, .barrows, .trees, .pushes, .xbar, .pair, .repair, .repairFace, .sec, .secFace, .obs,
      .clock] ∧
      (let retire := bitAt (s.reg kRetirePolicy) 1 = true ∧ s.repair.used = false
       (s.boot.stage = .ready → ¬ retire → (t.chan c).stopped = true ∧ (t.chan c).phase = .failed ∧ (t.chan c).mem =
         (s.chan c).mem ∧
         t.repair.used = s.repair.used ∧ (s.pair.phase = .paired → t.pair.phase = .relinquishing)) ∧
       (s.boot.stage = .ready → retire → ∃ u : State, (t = u.beginRetire true c ∨ t = (u.beginRetire true c).unfit
         relSelfDiag) ∧ (u.chan c).stopped = true ∧
         (u.chan c).phase = .failed ∧ u.repair.faultSeq = s.repair.faultSeq + 1) ∧
       (s.boot.stage ≠ .ready → s.repair.used = false → t.repair.foldChannel = some c ∧ t.repair.used = true ∧
         (t.chan c).phase = .retired ∧ (t.chan c).stopped = true))) ∧
  (∀ (s : State) (n : Nat), n < 8 → (s.slice n).pipe.q3 ≠ [] →
    ∃ t, exec (.pipelineHang n) s = .next t ∧ exec (.sliceFault n 4) s = .next t) ∧
  (∀ s : State, ∃ t, exec .controlWatchdog s = .next t ∧ s.frame t [.stalls, .repair, .repairFace, .obs] ∧
    t.repair.coresUp = false ∧
    t.repair.faultSeq = s.repair.faultSeq + 1) ∧
  (∀ s : State, ∃ t, exec .hostPortFault s = .next t ∧
    s.frame t [.dict, .links, .linkFace, .stalls, .stallFace, .pitch, .slices,
    .trees, .pushes, .xbar, .pair, .repair, .repairFace, .obs] ∧ t.repair.hostPortDead = true ∧
    (s.pair.phase = .paired → t.pair.phase = .relinquishing) ∧
    ∀ n, n < 48 → n ∉ s.halyardLinks → (t.link n).phase = .disabled)) ∧
  ((∀ (s : State) (r : Retire), s.repair.retiring = some r → r.todo = [] → s.retireRevokes = false →
    (r.channel = false → r.unit < 8 →
      ∃ t, exec .sliceFold s = .next t ∧ s.frame t [.dict, .links, .stalls, .pitch, .slices, .chans, .snoops, .barrows,
        .pair, .repair, .repairFace, .sec, .obs] ∧ t.repair.foldSlice = some r.unit ∧ t.repair.used = true ∧
        t.repair.retiring = none ∧ t.repair.moved = [] ∧ (t.slice r.unit).inService = false ∧
        (t.slice r.unit).epoch = (s.slice r.unit).epoch + 1 ∧ t.snoops = [] ∧
        (∀ k, k < 8 → (t.slice k).dir = [] ∧ (t.slice k).regions = []) ∧
        t.reg kRetiredUnits = 2 ^ 31 + r.unit * 2 ^ 28 ∧
        t.reg kRetireResult = (if s.reg kRetireResult = 2 then 0 else s.reg kRetireResult) ∧ s.obs.head < t.obs.head) ∧
    (r.channel = true → r.unit < 32 → s.repair.foldSlice = none →
      ∃ t, exec .channelFold s = .next t ∧ s.frame t [.dict, .links, .stalls, .pitch, .slices, .chans, .pair, .repair,
        .repairFace, .sec, .obs] ∧ t.repair.foldChannel = some r.unit ∧ t.repair.used = true ∧
        t.repair.retiring = none ∧ t.repair.moved = [] ∧ (t.chan r.unit).phase = .retired ∧ (t.chan r.unit).stopped = true ∧
        t.reg kRetiredUnits = 2 ^ 27 + r.unit * 2 ^ 22 ∧
        t.reg kRetireResult = (if s.reg kRetireResult = 2 then 0 else s.reg kRetireResult) ∧ s.obs.head < t.obs.head)) ∧
  (∀ (s : State) (f : Frame) (v : Nat) (i : Instr), i ∈ [Instr.retireSlice f v, .retireChannel f v, .retireClear f v] →
    s.accepts f (askWrite kRetireGo 1 v) →
    ∃ t, exec i s = .next t ∧ s.frame t [.dict, .links, .stalls, .stallFace, .pitch, .slices, .chans, .snoops, .nextTag,
      .barrows, .trees, .pushes, .xbar, .pair, .repair, .repairFace, .sec, .secFace, .mgmt, .obs, .clock] ∧
      (∀ c : Bool, s.reg kRetireKind = (if c then 2 else 1) →
        (s.retireCheck c (s.reg kRetireUnit) ≠ 0 → t.reg kRetireResult = s.retireCheck c (s.reg kRetireUnit) ∧
          t.repair.face = s.repair.face ∧ t.slices = s.slices ∧ t.chans = s.chans) ∧
        (s.retireCheck c (s.reg kRetireUnit) = 0 → t.reg kRetireResult = 2)) ∧
      (s.reg kRetireKind = 3 → (s.retiredWord = 0 → t.reg kRetireResult = 3 ∧ t.repair.face = s.repair.face) ∧
        (s.retiredWord ≠ 0 → t.reg kRetireResult = 0 ∧ t.repair.clearAtReset = true ∧ t.repair.foldSlice =
          s.repair.foldSlice)) ∧
      (s.reg kRetireKind = 0 ∨ 3 < s.reg kRetireKind → t.reg kRetireResult = 3 ∧ t.repair.face = s.repair.face)) ∧
  (∀ (s : State) (f : Frame) (v : Nat), s.accepts f (askWrite kRetireGo 1 v) → s.reg kRetireKind = 1 →
    s.retireCheck false (s.reg kRetireUnit) = 0 →
    ∃ u t : State, exec (.retireSlice f v) s = .next t ∧ (u.slice (s.reg kRetireUnit)).stopped = true ∧
      t.repair.face = (u.beginRetire false (s.reg kRetireUnit)).repair.face) ∧
  (∀ (s : State) (f : Frame) (v : Nat), s.accepts f (askWrite kRetireGo 1 v) → s.reg kRetireKind = 2 →
    s.retireCheck true (s.reg kRetireUnit) = 0 →
    ∃ u t : State, exec (.retireChannel f v) s = .next t ∧ (u.chan (s.reg kRetireUnit)).stopped = true ∧
      t.repair.face = (u.beginRetire true (s.reg kRetireUnit)).repair.face))

/-- R307 to R309: the responder answers each request it serves in its connection's state, signs challenges, measurements
and key exchanges over a nonce, and opens a session only after mutual authentication; a request out of turn is answered
ERROR and changes nothing of the connection; where the responder does not serve, nothing happens. -/
def Obligations.TheResponderServesSessions : Prop :=
  (∀ (s : State) (i : Instr) (m : SpdmMsg) (code : Nat), spdmAsk i = some (m, code) → s.spdmServed m = false →
    exec i s = .next s) ∧
  ∀ (s : State) (m : SpdmMsg) (c : SpdmConn), s.spdmServed m = true → s.conn m = c →
    s.answersSpdm (.getVersion m) m { gotVersion := true } 0x1312 [] none ∧
    (c.gotVersion = true → m.version = 0x12 ∨ m.version = 0x13 →
      s.answersSpdm (.getCapabilities m) m { c with gotCaps := true, version := m.version } m.version [] none) ∧
    (c.gotCaps = true → m.algOk = true → m.version = c.version →
      s.answersSpdm (.negotiateAlgorithms m) m { c with algs := true } 0 [] none) ∧
    (c.algs = true → s.answersSpdm (.getDigests m) m { c with digests := true } 1 [Config.chainDigest] none) ∧
    (c.algs = true → m.slot = 0 → s.answersSpdm (.getCertificate m) m c 0 [Config.chainDigest] none) ∧
    (c.algs = true → m.slot = 0 → s.answersSpdm (.challenge m) m { c with challenged := true } 0 [Config.chainDigest]
      (some (Config.sign (sha384 (leBytes 32 m.nonce.toNat ++ beBytes 48 Config.chainDigest.toNat)) s.sec.sigs))) ∧
    (∀ ds : List Digest, c.algs = true → m.blocks ≤ 5 ∨ m.blocks = 0xFF → ds = (blocksAsked m.blocks).map s.blockDigest →
      s.answersSpdm (.getMeasurements m) m
        { c with measured := if m.signed = true ∧ m.secured = true ∧ c.established = true ∧ m.blocks = 0xFF then 31 else
          c.measured }
        5 ds (if m.signed then some (s.spdmSign m ds) else none)) ∧
    (c.algs = true → c.established = false → m.slot = 0 →
      s.answersSpdm (.keyExchange m) m
        { c with handshake := true, mutualAuth := m.mutualAuth, encap := 0, root := 0, cert := 0, measured := 0 } 0 []
        (some (s.spdmSign m [Config.chainDigest]))) ∧
    (c.handshake = true → c.mutualAuth = true →
      s.answersSpdm (.encapsulatedRequest m) m { c with encap := c.encap + 1, root := m.root, cert := m.cert } 0 [] none) ∧
    (c.handshake = true → c.mutualAuth = true → m.mutualAuth = true → 0 < c.encap →
      s.answersSpdm (.finish m) m { c with handshake := false, established := true, keyGen := 0, heartbeats := 0 } 0 []
        none) ∧
    (c.established = true → m.secured = true →
      s.answersSpdm (.spdmHeartbeat m) m { c with heartbeats := c.heartbeats + 1 } 0 [] none ∧
      s.answersSpdm (.keyUpdate m) m { c with keyGen := c.keyGen + 1 } 0 [] none ∧
      ∃ e : SpdmConn, s.answersSpdm (.endSession m) m e 0 [] none ∧ e.established = false ∧ e.root = 0 ∧ e.measured = 0) ∧
    (¬ (c.gotVersion = true ∧ (m.version = 0x12 ∨ m.version = 0x13)) → s.refusesSpdm (.getCapabilities m) m) ∧
    (¬ (c.gotCaps = true ∧ m.algOk = true ∧ m.version = c.version) → s.refusesSpdm (.negotiateAlgorithms m) m) ∧
    (c.algs = false → s.refusesSpdm (.getDigests m) m ∧ s.refusesSpdm (.getMeasurements m) m) ∧
    (c.algs = false ∨ m.slot ≠ 0 → s.refusesSpdm (.getCertificate m) m ∧ s.refusesSpdm (.challenge m) m ∧
      s.refusesSpdm (.keyExchange m) m) ∧
    (¬ (c.handshake = true ∧ c.mutualAuth = true) → s.refusesSpdm (.encapsulatedRequest m) m ∧ s.refusesSpdm (.finish m)
      m) ∧
    (m.mutualAuth = false ∨ c.encap = 0 → s.refusesSpdm (.finish m) m) ∧
    (c.established = false ∨ m.secured = false → s.refusesSpdm (.spdmHeartbeat m) m ∧ s.refusesSpdm (.keyUpdate m) m ∧
      s.refusesSpdm (.endSession m) m)

/-- R312 to R317: a KEY_LOAD that passes every check keys its slot and answers the KCV, another leaves every slot; a key
command of the expected epoch has the effect of its KEY_CMD or answers why not; a RETIRING slot is zeroised when drained
or at its deadline. -/
def Obligations.KeySlotsChangeByCommand : Prop :=
  (∀ (s : State) (m : SpdmMsg) (n tn : Nat) (ep : BitVec 8) (k1 k2 : BitVec 256), s.spdmServed m = true →
    ∃ t, exec (.keyLoad m n tn ep k1 k2) s = .next t ∧ s.frame t [.links, .pair, .repair, .sec, .secFace, .obs] ∧
      (∀ j, j ≠ n → t.key j = s.key j) ∧
      (let c := s.conn m
       let ok := c.established = true ∧ c.mutualAuth = true ∧ m.secured = true ∧ c.root = (s.tenant tn).root ∧ c.measured
         = 31 ∧
         (s.tenant tn).phase = .admitted ∧ ((s.key n).phase = .bound ∨ (s.key n).phase = .zeroised) ∧ (s.key n).tenant =
           tn ∧
         (s.key n).epoch = ep ∧ k1 ≠ k2
       (ok → (t.key n).phase = .keyed ∧ (t.key n).key1 = k1 ∧ (t.key n).key2 = k2 ∧ (t.key n).kcv = kcvOf k1 ∧
         (t.key n).generated = false ∧
         (t.key n).epoch = (s.key n).epoch ∧
         t.sec.spdmOut = s.sec.spdmOut ++
           [(⟨connKey m.transport m.conn, 0x7E, false, 1 + (kcvOf k1).toNat * 2 ^ 16, [], none⟩ : SpdmResp)]) ∧
       (¬ ok → t.key n = s.key n ∧ ∃ a, t.sec.spdmOut = s.sec.spdmOut ++ [a] ∧ a.value ≠ 1 ∧ a.value < 2 ^ 16))) ∧
  (∀ (s : State) (f : Frame) (v cmd n : Nat) (i : Instr),
    i ∈ [Instr.keyAssign f v, .keyRetire f v, .keyGenerate f v, .importOn f v, .importOff f v] →
    s.accepts f (askWrite kKeyGo 1 v) → cmd = s.reg kKeyCmd → n = s.reg kKeyCmdSlot →
    ∃ t, exec i s = .next t ∧ s.frame t [.dict, .links, .stalls, .barrows, .trees, .xbar, .pair, .repair, .sec,
      .secFace, .mgmt, .obs] ∧ (∀ j, j ≠ n →
      t.key j = s.key j) ∧
      (cmd = 1 → s.assignCheck n = 0 → t.reg kKeyResult = 0 ∧ (t.key n).phase = .bound ∧ (t.key n).tenant = s.reg
        kKeyCmdTenant ∧
        (t.key n).epoch = (s.key n).epoch + 1 ∧ (t.key n).key1 = 0 ∧ (t.key n).key2 = 0 ∧ (t.key n).importOn = false ∧
        (t.key n).generated = false) ∧
      (cmd = 1 → s.assignCheck n ≠ 0 → t.reg kKeyResult = s.assignCheck n ∧ t.key n = s.key n) ∧
      (cmd ≠ 1 → (s.key n).epoch.toNat ≠ s.reg kKeyCmdEpoch → t.key n = s.key n ∧ t.dict = s.dict) ∧
      (cmd ≠ 1 → (s.key n).epoch.toNat = s.reg kKeyCmdEpoch →
        (let p := (s.key n).phase
         (cmd = 2 ∨ cmd = 4 ∨ cmd = 5 → p ≠ .bound → p ≠ .keyed → t.reg kKeyResult = 3 ∧ t.key n = s.key n) ∧
         (cmd = 2 → p = .bound ∨ p = .keyed → t.reg kKeyResult = 0 ∧ t.key n = { s.key n with phase := .retiring }) ∧
         (cmd = 4 → p = .bound ∨ p = .keyed → t.reg kKeyResult = 0 ∧ t.key n = { s.key n with importOn := true }) ∧
         (cmd = 5 → p = .bound ∨ p = .keyed → t.reg kKeyResult = 0 ∧ t.key n = { s.key n with importOn := false }) ∧
         (cmd = 3 → p ≠ .bound → t.reg kKeyResult = 3 ∧ t.key n = s.key n) ∧
         (cmd = 3 → p = .bound → s.slotMirrored n = true → t.reg kKeyResult = 5 ∧ t.key n = s.key n) ∧
         (cmd = 3 → p = .bound → s.slotMirrored n = false → t.reg kKeyResult = 0 ∧ (t.key n).phase = .keyed ∧
           (t.key n).generated = true ∧ (t.key n).key1 = (Config.random s.sec.draws).extractLsb' 0 256 ∧
           (t.key n).kcv = kcvOf (t.key n).key1 ∧ (t.key n).epoch = (s.key n).epoch)))) ∧
  (∀ (s : State) (n : Nat), (s.key n).phase = .retiring →
    ((s.key n).refs = 0 → ∃ t, exec (.keyDrainDone n) s = .next t ∧
      s.frame t [.links, .pair, .repair, .sec, .secFace, .obs] ∧
      (t.key n).phase = .zeroised ∧
      (t.key n).key1 = 0 ∧ (t.key n).key2 = 0 ∧ (t.key n).kcv = 0 ∧ ∀ j, j ≠ n → t.key j = s.key j) ∧
    ∃ t, exec (.keyRetireDeadlineExpiry n) s = .next t ∧ s.frame t [.links, .stalls, .stallFace, .slices,
      .xbar, .pair, .repair, .sec, .secFace, .obs] ∧ (t.key n).phase = .zeroised ∧
      (t.key n).key1 = 0 ∧ (t.key n).key2 = 0 ∧ (t.key n).kcv = 0)

/-- R319 to R321, R324, R325: a tenant is admitted when ABSENT and removed by its revoke, its clears and its end, which
leaves it ABSENT with its seed and slots gone; its broker root is written only while ABSENT; confidential mode is entered
and left only without tenants; the cores sign the oldest ledger entry, and no acknowledgement runs ahead of the head. -/
def Obligations.TenantsAndLedgerFollowTheirRules : Prop :=
  (∀ (s : State) (f : Frame) (v tn : Nat) (i : Instr), i ∈ [Instr.tenantAdmit f v, .tenantRemove f v] →
    s.accepts f (askWrite kTenantGo 1 v) → tn = s.reg kTenantCmdId →
    ∃ t, exec i s = .next t ∧ s.frame t [.dict, .links, .stalls, .stallFace, .pitch, .slices, .chans, .snoops, .nextTag,
      .barrows, .trees, .pushes, .xbar, .pair, .repair, .repairFace, .sec, .secFace, .mgmt, .obs, .clock] ∧
      (s.reg kTenantCmd = 1 → ∀ j, j ≠ tn → t.tenant j = s.tenant j) ∧
      (s.reg kTenantCmd = 1 → (s.tenant tn).phase = .absent → t.reg kTenantResult = 0 ∧ (t.tenant tn).phase = .admitted ∧
        (t.tenant tn).root = (s.tenant tn).root) ∧
      (s.reg kTenantCmd = 1 → (s.tenant tn).phase ≠ .absent → t.reg kTenantResult = 5 ∧ t.tenant tn = s.tenant tn) ∧
      (s.reg kTenantCmd = 2 → s.removeCheck tn = 0 → t.reg kTenantResult = 2 ∧ (t.tenant tn).phase = .removing ∧
        (t.tenant tn).clearing = false) ∧
      (s.reg kTenantCmd = 2 → s.removeCheck tn ≠ 0 → t.reg kTenantResult = s.removeCheck tn ∧ t.tenant tn = s.tenant tn ∧
        t.pitch = s.pitch) ∧
      (s.reg kTenantCmd = 0 ∨ 2 < s.reg kTenantCmd → t.reg kTenantResult = 3 ∧ t.tenant tn = s.tenant tn)) ∧
  (∀ (s : State) (tn : Nat), (s.tenant tn).phase = .removing → (s.tenant tn).clearing = false → s.removeReady tn = true →
    ∃ t, exec (.removeClearStart tn) s = .next t ∧ s.frame t [.links, .pitch, .slices, .chans, .pair, .repair,
      .repairFace, .sec, .secFace, .obs, .clock] ∧ (t.tenant tn).clearing = true ∧
      (t.tenant tn).phase = .removing ∧ (t.tenant tn).cleared = (s.heldOf tn).length ∧
      ∀ g, (s.granule g).phase = .held → (s.granule g).tenant = tn → (s.granule g).written = false → t.granule g = {}) ∧
  (∀ (s : State) (tn : Nat), (s.tenant tn).phase = .removing → (s.tenant tn).clearing = true →
    ∃ t, exec (.tenantRemoveDone tn) s = .next t ∧ s.frame t [.dict, .links, .stalls, .pitch, .slices, .chans, .seeds,
      .pair, .repair, .repairFace, .sec, .secFace, .mgmt, .obs, .clock] ∧
      (∀ g, (s.granule g).phase = .held → (s.granule g).tenant = tn → t.granule g = {}) ∧
      (let w := s.clearAll (s.heldOf tn)
       let h := laterHseq (s.tenant tn).hseq w.2
       (w.1.halCovered h = false → t.tenant tn = { s.tenant tn with hseq := h } ∧ t.seeds = s.seeds ∧ t.dict = s.dict) ∧
       (w.1.halCovered h = true → (t.tenant tn).phase = .absent ∧
         (t.tenant tn).root = (s.tenant tn).root ∧ t.seeds.get 0 tn = 0 ∧ t.reg kTenantResult = 0 ∧
           s.obs.head < t.obs.head ∧
         ∀ n, (s.key n).phase = .zeroised → (s.key n).tenant = tn → (t.key n).phase = .empty ∧ (t.key n).tenant = 0))) ∧
  (∀ (s : State) (f : Frame) (row v : Nat), s.accepts f (askRows kTenantTable 56 row [v]) →
    ∃ t, exec (.tenantTableWrite f row [v]) s = .next t ∧ s.frame t [.links, .stalls, .xbar, .repair,
      .sec, .secFace, .mgmt, .obs] ∧
      (∀ j, j ≠ row → t.tenant j = s.tenant j) ∧
      (row = 0 ∨ (s.tenant row).phase = .absent → t.tenant row = { s.tenant row with root := digestOfWord (bits v 64 384)
        }) ∧
      (row ≠ 0 → (s.tenant row).phase ≠ .absent → t.tenant row = s.tenant row)) ∧
  (∀ (s : State) (f : Frame) (v : Nat), v ≤ 1 → s.accepts f (askWrite kConfMode 1 v) →
    ∃ t, exec (.confModeWrite f v) s = .next t ∧ s.frame t [.dict, .links, .stalls, .xbar, .checker, .repair,
      .sec, .secFace, .mgmt, .obs] ∧
      (s.anyTenant = true ∨ v = 0 ∧ s.sec.confSource &&& 3#3 ≠ 0 → t.dict = s.dict ∧ t.sec.conf = s.sec.conf ∧
        t.sec.confSource = s.sec.confSource) ∧
      (s.anyTenant = false → v = 1 → t.sec.conf = true ∧ t.sec.confSource = s.sec.confSource ||| 4#3 ∧ t.obs.trace = [] ∧
        t.checker.running = none ∧ t.reg kConfMode = 1 ∧ t.reg kTraceCtrl = 0 ∧ t.reg kCheckerEnable = 0) ∧
      (s.anyTenant = false → v = 0 → s.sec.confSource &&& 3#3 = 0 → t.reg kConfMode = 0 ∧ t.sec.conf = s.sec.conf)) ∧
  (∀ (s : State) (e : LedgerEntry) (r : List LedgerEntry), s.repair.coresUp = true →
    s.boot.stage = .memory ∨ s.boot.stage = .ready → s.sec.buffer = e :: r →
    ∃ t d, exec .ledgerSign s = .next t ∧ s.frame t [.stalls, .slices, .repair, .repairFace, .sec, .secFace, .obs, .free] ∧
      (s.sramOk → d = e ∧ s.frame t [.sec, .secFace]) ∧ (d = e ∨ d.kind = 0x0C) ∧ d.seq = e.seq ∧
      t.sec.buffer = r ∧ t.sec.head = some e.seq ∧
      t.sec.sigs = s.sec.sigs + 1 ∧ t.sec.ring.get {} (e.seq % ledgerCapacity) = signEntry d s.sec.chain s.sec.sigs ∧
      t.sec.chain = (signEntry d s.sec.chain s.sec.sigs).chain ∧
      (signEntry d s.sec.chain s.sec.sigs).seq = e.seq ∧ (signEntry d s.sec.chain s.sec.sigs).body = d.body) ∧
  (∀ (s : State) (f : Frame) (v : Nat), s.accepts f (askWrite kLedgerAcked 8 v) →
    ∃ t, exec (.ledgerAckedWrite f v) s = .next t ∧ s.frame t [.dict, .links, .stalls, .xbar, .repair,
      .sec, .mgmt, .obs] ∧
      (v ≤ s.sec.head.getD 0 → t.reg kLedgerAcked = v) ∧ (s.sec.head.getD 0 < v → t.dict = s.dict))

/-- R335 to R339: a read answers the entry's value, a window read its row, DESCRIBE the entry's form, each kept for a
repeat; a write of an entry that its chapter gives no effect stores the value alone, any other write is its chapter's
command; a commit writes every dirty entry to flash. -/
def Obligations.FramesReadAndWriteEntries : Prop :=
  (∀ (s : State) (f : Frame) (index sub : Nat), s.accepts f (askRead 1 index sub 0 0) →
    ∃ t, exec (.mgmtRead f index sub) s = .next t ∧ s.frame t [.dict, .links, .stalls, .slices, .xbar, .repair, .sec,
      .mgmt, .obs, .clock, .free] ∧
      ∃ m r, t.mgmt.kept.get [] (frameKey f) = m :: r ∧ m.status = .ok ∧ m.mtag = f.mtag ∧ m.len = entryBytes index sub ∧
        m.body = s.readValue (index * 256 + sub)) ∧
  (∀ (s : State) (f : Frame) (index sub : Nat) (e : Entry), s.accepts f (askRead 5 index sub 0 0) → entryAt index sub =
    some e →
    ∃ t, exec (.describe f index sub) s = .next t ∧ s.frame t [.links, .stalls, .xbar, .sec, .mgmt, .obs] ∧
      ∃ m r, t.mgmt.kept.get [] (frameKey f) = m :: r ∧ m.status = .ok ∧ m.len = 16 ∧ m.body = e.describe) ∧
  (∀ (s : State) (f : Frame) (index sub row : Nat), s.accepts f (askRead 3 index sub 1 row) →
    ∃ t, exec (.windowRead f index sub row 1) s = .next t ∧
      s.frame t [.links, .stalls, .slices, .xbar, .repair, .repairFace,
      .sec, .mgmt, .obs, .clock] ∧
      ∃ m r, t.mgmt.kept.get [] (frameKey f) = m :: r ∧
        (index * 256 + sub ≠ 0xB02400 ∨ s.sec.conf = false → m.status = .ok ∧ m.len = entryBytes index sub ∧
          (s.sramOk ∨ index * 256 + sub ≠ 0xB03000 →
            m.body = s.readRow (index * 256 + sub) row % 256 ^ entryBytes index sub)) ∧
        (index * 256 + sub = 0xB02400 → s.sec.conf = true → snapLinkRow ≤ row → m.status = .accessDenied ∧ m.reason = 4)) ∧
  (∀ (s : State) (f : Frame) (index sub len v key : Nat), key = index * 256 + sub → v < 256 ^ len → s.boot.resetAsked =
    false →
    s.accepts f (⟨2, index, sub, 0, 0, leBytes len v⟩ : Ask) → key ≠ kProfileGo → key ≠ kResetBoard → actByValue key v =
      none →
    (∀ p ∈ entryActs, p.1 ≠ key) →
    ∃ t, exec (.mgmtWrite f index sub len v) s = .next t ∧ s.frame t [.dict, .links, .stalls, .xbar, .pair,
      .repair, .sec, .mgmt, .obs] ∧
      (s.valueBad key v = false → s.ruleBad key v = false → t.reg key = v &&& storeMask key ∧ ∀ k, k ≠ key → t.reg k =
        s.reg k) ∧
      (s.valueBad key v = true ∨ s.ruleBad key v = true → t.dict = s.dict)) ∧
  (∀ (s : State) (f : Frame) (v : Nat), s.boot.resetAsked = false →
    (v < 2 ^ 64 → exec (.mgmtWrite f (kStepSet / 256) (kStepSet % 256) 8 v) s = exec (.stepSet f v) s ∧
      exec (.mgmtWrite f (kLedgerAcked / 256) (kLedgerAcked % 256) 8 v) s = exec (.ledgerAckedWrite f v) s ∧
      exec (.mgmtWrite f (kMoveLinks / 256) (kMoveLinks % 256) 8 v) s = exec (.moveLinksWrite f v) s) ∧
    (v < 2 ^ 32 → exec (.mgmtWrite f (kTallyClear / 256) (kTallyClear % 256) 4 v) s = exec (.tallyClear f v) s) ∧
    (v < 2 ^ 16 → exec (.mgmtWrite f (kFence / 256) (kFence % 256) 2 v) s = exec (.fence f v) s ∧
      exec (.mgmtWrite f (kDetach / 256) (kDetach % 256) 2 v) s = exec (.detach f v) s) ∧
    (v < 2 ^ 8 → exec (.mgmtWrite f (kBuntGo / 256) (kBuntGo % 256) 1 v) s = exec (.buntGo f v) s ∧
      exec (.mgmtWrite f (kKeyGo / 256) (kKeyGo % 256) 1 v) s = exec (.keyAssign f v) s ∧
      exec (.mgmtWrite f (kTenantGo / 256) (kTenantGo % 256) 1 v) s = exec (.tenantAdmit f v) s ∧
      exec (.mgmtWrite f (kClearGo / 256) (kClearGo % 256) 1 v) s = exec (.clear f v) s)) ∧
  (∀ (s : State) (f : Frame) (row : Nat) (rows : List Nat),
    exec (.windowWrite f (kShaperTable / 256) (kShaperTable % 256) row rows) s = exec (.shaperTableWrite f row rows) s ∧
    exec (.windowWrite f (kAclTable / 256) (kAclTable % 256) row rows) s = exec (.aclTableWrite f row rows) s ∧
    exec (.windowWrite f (kGateLists / 256) (kGateLists % 256) row rows) s = exec (.gateListsWrite f row rows) s ∧
    exec (.windowWrite f (kScheduleTable / 256) (kScheduleTable % 256) row rows) s = exec (.scheduleTableWrite f row
      rows) s ∧
    exec (.windowWrite f (kTenantTable / 256) (kTenantTable % 256) row rows) s = exec (.tenantTableWrite f row rows) s ∧
    exec (.windowWrite f (kStallTable / 256) (kStallTable % 256) row rows) s = exec (.stallTableWrite f row rows) s ∧
    exec (.windowWrite f (kPrincipalTable / 256) (kPrincipalTable % 256) row rows) s = exec (.principalTableWrite f row
      rows) s) ∧
  (∀ (s : State) (f : Frame) (row v : Nat), s.accepts f (askRows kTenantSeed 8 row [v]) →
    ∃ t, exec (.windowWrite f (kTenantSeed / 256) (kTenantSeed % 256) row [v]) s = .next t ∧
      s.frame t [.links, .stalls, .seeds, .xbar, .pair, .repair, .sec, .mgmt, .obs] ∧
        t.seeds.get 0 row = BitVec.ofNat 64 v ∧
      ∀ j, j ≠ row → t.seeds.get 0 j = s.seeds.get 0 j) ∧
  (∀ s : State, s.mgmt.dirty ≠ [] →
    ∃ t, exec .flashCommit s = .next t ∧ s.frame t [.mgmt, .mgmtFace] ∧ t.mgmt.dirty = [] ∧ t.mgmt.active = s.mgmt.active ∧
      ((s.mgmt.dirty.any fun k => persistOf k == 1) = true → (t.profile s.mgmt.active).content = s.activeData) ∧
      ((s.mgmt.dirty.any fun k => persistOf k == 1) = false → t.mgmt.profiles = s.mgmt.profiles))

/-- R330, R334 to R338: a management frame that arrives where no frame is served, that a kept response answers, or that a
check of chapter 16 refuses, changes nothing but the links that carry an answer, spray pointers, the ledger, the kept
responses and tallies; a repeat is answered from the kept response, and a refusal with the STATUS and REASON of its first
failing check. -/
def Obligations.RefusedFramesChangeNothing : Prop :=
  ∀ (i : Instr) (f : Frame) (q : Ask) (s : State), askOf i = some (f, q) → s.boot.resetAsked = false →
    s.frameServed f = false ∨ (s.keptFor f q).isSome = true ∨ (s.precheck f q (s.principalOf f).2).isSome = true →
    ∃ t, exec i s = .next t ∧ s.frame t [.links, .stalls, .xbar, .repair, .sec, .mgmt, .obs] ∧
      (s.frameServed f = false → s.frame t [.obs]) ∧
      (s.frameServed f = true → (s.keptFor f q).isSome = true → s.frame t [.links, .stalls, .xbar, .obs]) ∧
      (∀ a, s.frameServed f = true → s.keptFor f q = none → s.precheck f q (s.principalOf f).2 = some a →
        ∃ m r, t.mgmt.kept.get [] (frameKey f) = m :: r ∧ m.mtag = f.mtag ∧ m.index = q.index ∧ m.sub = q.sub ∧
          m.status = a.status ∧ m.reason = a.reason ∧ t.mgmt.dirty = s.mgmt.dirty)

/-- R336, R338: the rows of a window write take effect in ascending order and the first row refused stops it, named by
ROW; the rows before it stand. The answer goes by the rows' effect on the state the frame finds, and the effect follows
the DICT_WRITE entry. -/
def Obligations.WindowRowsTakeEffectInOrder : Prop :=
  ∀ (s : State) (f : Frame) (index sub row : Nat) (rows : List Nat) (key : Nat) (q : Ask), key = index * 256 + sub →
    q = askRows key (entryBytes index sub) row rows → s.accepts f q →
    ∃ (t u v : State) (a b : Ans), exec (.windowWrite f index sub row rows) s = .next t ∧
      rowsRun (writeWindowRow key) row rows s u a ∧ rowsRun (writeWindowRow key) row rows (s.logged f q a) v b ∧
      t = v.answered f q a

/-- R332, R333, R340, R341: the profile command in PROFILE_OP starts a switch, copies the active profile or erases
another, or answers why not, and the switch cycle makes the target active; a principal row stands unless it breaks a rule
or leaves the table without its last provider, and ends the sessions of the row it replaces. -/
def Obligations.ProfilesAndPrincipalsChange : Prop :=
  (∀ (s : State) (f : Frame) (v n : Nat) (i : Instr), i ∈ [Instr.profileSwitch f v, .profileCopy f v, .profileErase f v] →
    s.accepts f (askWrite kProfileGo 1 v) → n = s.reg kProfileTarget →
    ∃ t, exec i s = .next t ∧ s.frame t [.dict, .links, .stalls, .stallFace, .pitch, .slices, .chans, .snoops, .nextTag,
      .barrows, .trees, .pushes, .xbar, .pair, .repair, .repairFace, .sec, .secFace, .mgmt, .mgmtFace, .obs, .clock] ∧
        t.mgmt.active =
      s.mgmt.active ∧
      (s.mgmt.switching.isSome = true → t.reg kProfileResult = 1 ∧ t.mgmt.profiles = s.mgmt.profiles ∧
        t.mgmt.switching = s.mgmt.switching) ∧
      (s.mgmt.switching = none →
        (s.reg kProfileOp = 1 → s.switchCheck n (decide (s.reg kProfileForce = 1)) = 0 →
          t.mgmt.switching = some (n, decide (s.reg kProfileForce = 1)) ∧ t.reg kProfileResult = 2) ∧
        (s.reg kProfileOp = 1 → s.switchCheck n (decide (s.reg kProfileForce = 1)) ≠ 0 →
          t.mgmt.switching = none ∧ t.reg kProfileResult = s.switchCheck n (decide (s.reg kProfileForce = 1)) ∧
          t.mgmt.profiles = s.mgmt.profiles) ∧
        (s.reg kProfileOp = 2 → t.reg kProfileResult = 0 ∧ (t.profile n).content = s.activeData ∧
          ∀ j, j ≠ n → t.profile j = s.profile j) ∧
        (s.reg kProfileOp = 3 → n = s.mgmt.active → t.reg kProfileResult = 3 ∧ t.mgmt.profiles = s.mgmt.profiles) ∧
        (s.reg kProfileOp = 3 → n ≠ s.mgmt.active → t.reg kProfileResult = 0 ∧ t.profile n = {} ∧
          ∀ j, j ≠ n → t.profile j = s.profile j))) ∧
  (∀ (s : State) (n : Nat) (force : Bool), s.mgmt.switching = some (n, force) → s.switchReady = true → s.repair.coresUp =
    true →
    ∃ t, exec .profileSwitchCycle s = .next t ∧ t.pending = s.pending ∧ t.mgmt.active = n ∧ t.mgmt.switching = none ∧
      t.reg kProfileResult = 0 ∧ (t.profile n).crcFailed = false) ∧
  (∀ (s : State) (f : Frame) (row v : Nat) (p : Principal), s.accepts f (askRows kPrincipalTable 64 row [v]) →
    p = principalOfWord v →
    ∃ t, exec (.principalTableWrite f row [v]) s = .next t ∧
      s.frame t [.links, .stalls, .xbar, .repair, .sec, .secFace, .mgmt, .mgmtFace, .obs] ∧
      t.sec.keys = s.sec.keys ∧ t.sec.tenants = s.sec.tenants ∧
      (let old := s.mgmt.principals.get {} row
       (s.principalBad row p = 0 → t.mgmt.principals.get {} row = p ∧
         (∀ j, j ≠ row → t.mgmt.principals.get {} j = s.mgmt.principals.get {} j) ∧
         (p ≠ old → old.valid = true → old.inband = false → ∀ k, (s.sec.spdm.get {} k).established = true →
           (s.sec.spdm.get {} k).root = old.root → (t.sec.spdm.get {} k).established = false)) ∧
       (s.principalBad row p ≠ 0 → t.mgmt.principals = s.mgmt.principals ∧ t.sec.spdm = s.sec.spdm)))

/-- R349 to R358: a tally clear resets every row of its instance; a hoist is latched while none is held and missed
otherwise, its input ignored while rearming; a copy goes from its stall's queue to the host and is over when answered or
timed out; acknowledgements do not run ahead of CRIER_HEAD; trace is set outside confidential mode and records in a ring.
-/
def Obligations.InstrumentsRecordWhatHappens : Prop :=
  (∀ (s : State) (f : Frame) (v : Nat), s.accepts f (askWrite kTallyClear 4 v) →
    ∃ u t : State, exec (.tallyClear f v) s = .next t ∧ s.frame t [.links, .stalls, .xbar, .repair, .sec, .mgmt, .obs] ∧
      (v / 2 ^ 24 < 7 → v % 2 ^ 24 < groupSize (v / 2 ^ 24) → t = u.answered f (askWrite kTallyClear 4 v) {} ∧
        (∀ r, r < groupRows (v / 2 ^ 24) → u.obs.tally.get 0 (tallyKey (v / 2 ^ 24) (v % 2 ^ 24) r) = 0) ∧
        ∀ k, (∀ r, r < groupRows (v / 2 ^ 24) → k ≠ tallyKey (v / 2 ^ 24) (v % 2 ^ 24) r) →
          u.obs.tally.get 0 k = s.obs.tally.get 0 k) ∧
      (7 ≤ v / 2 ^ 24 ∨ groupSize (v / 2 ^ 24) ≤ v % 2 ^ 24 → t.obs.resetNow = s.obs.resetNow)) ∧
  (∀ (s : State) (f : Frame) (v : Nat), s.accepts f (askWrite kHoistNow 1 v) →
    ∃ t, exec (.hoistNow f v) s = .next t ∧ s.frame t [.links, .stalls, .xbar, .repair, .sec, .mgmt, .obs] ∧
      t.obs.held = true ∧
      t.obs.lastHoist = some s.time.ticks ∧
      (s.obs.held = false → t.obs.hoistSeq = s.obs.hoistSeq + 1 ∧ t.obs.sources = 2 ∧ t.obs.head = s.obs.head + 1 ∧
        t.obs.missed = s.obs.missed) ∧
      (s.obs.held = true → t.obs.missed = s.obs.missed + 1 ∧ t.obs.snap = s.obs.snap ∧ t.obs.hoistSeq = s.obs.hoistSeq)) ∧
  (∀ s : State, s.power.inputOn = true → s.power.dark = false →
    ∃ t, exec .hoistIn s = .next t ∧ s.frame t [.stalls, .repair, .obs] ∧
      (s.rearming = true → t.obs.ignored = s.obs.ignored + 1 ∧ t.obs.snap = s.obs.snap ∧ t.obs.held = s.obs.held) ∧
      (s.rearming = false → s.obs.held = false → t.obs.held = true ∧ t.obs.sources = 1 ∧
        t.obs.hoistSeq = s.obs.hoistSeq + 1 ∧ t.obs.snap = s.capture (s.obs.hoistSeq + 1) 1) ∧
      (s.rearming = false → s.obs.held = true → t.obs.missed = s.obs.missed + 1 ∧ t.obs.snap = s.obs.snap)) ∧
  (∀ (s : State) (f : Frame) (v : Nat), s.accepts f (askWrite kHoistRelease 1 v) →
    ∃ t, exec (.hoistRelease f v) s = .next t ∧ s.frame t [.links, .stalls, .xbar, .repair, .sec, .mgmt, .obs] ∧
      t.obs.held = false ∧
      t.obs.frozen = false ∧
      t.obs.snap = s.obs.snap ∧ t.obs.head = s.obs.head) ∧
  (∀ (s : State) (st n : Nat) (c : CrierCopy) (r : List CrierCopy), (s.stall st).phase = .attached → (s.stall st).crierQ
    = c :: r →
    s.portLink st (TxMsg.req (s.notifyReq st s.nextTag c)).bytes = some n →
    ∃ t, exec (.crierNotifySend st) s = .next t ∧ s.frame t [.links, .stalls, .nextTag, .xbar, .obs] ∧
      (t.stall st).crierQ = r ∧
      t.nextTag = (s.nextTag + 1) % 65536 ∧ t.obs.copies = s.obs.copies ++ [(⟨s.nextTag, st, c⟩ : CrierOut)] ∧
      (let now := (s.xbar.outWait.get [] n).isEmpty && (s.link n).takes (TxMsg.req (s.notifyReq st s.nextTag c)).bytes
       (now = true → t.xbar = s.xbar ∧
         ∃ q, (t.link n).unacked = (s.link n).unacked ++ [q] ∧ q.msg = .req (s.notifyReq st s.nextTag c)) ∧
       (now = false → t.links = s.links ∧
         ∃ p, t.xbar.outWait.get [] n = s.xbar.outWait.get [] n ++ [(8, p)] ∧ p.msg = .req (s.notifyReq st s.nextTag c)))) ∧
  (∀ (s : State) (st : Nat), (s.stall st).phase ≠ .attached ∨ (s.stall st).crierQ = [] ∨ s.liveLinks st = [] →
    exec (.crierNotifySend st) s = .next s) ∧
  (∀ (s : State) (h : HostResp) (c : CrierOut), s.obs.copies.find? (fun c => c.tag == h.tag.toNat) = some c →
    (s.link h.link).isUp = true → (s.stall c.stall).host = h.host →
    ∃ t, exec (.crierNotifyResponse h) s = .next t ∧ s.frame t [.obs] ∧
      t.obs.copies = s.obs.copies.filter (fun x => x.tag != c.tag) ∧
      t.tallyOf .board 0 6 = (if h.status = 0 then s.tallyOf .board 0 6 else s.tallyOf .board 0 6 + 1)) ∧
  (∀ (s : State) (tag : Nat), (s.obs.copies.any fun c => c.tag == tag) = true →
    ∃ t, exec (.crierNotifyTimeout tag) s = .next t ∧ s.frame t [.obs] ∧
      t.obs.copies = s.obs.copies.filter (fun x => x.tag != tag) ∧ t.tallyOf .board 0 6 = s.tallyOf .board 0 6 + 1) ∧
  (∀ (s : State) (f : Frame) (v : Nat), s.accepts f (askWrite kCrierAcked 8 v) →
    ∃ t, exec (.crierAckedWrite f v) s = .next t ∧ s.frame t [.dict, .links, .stalls, .xbar, .repair, .sec, .mgmt, .obs] ∧
      (v ≤ s.obs.head → t.reg kCrierAcked = v) ∧ (s.obs.head < v → t.dict = s.dict)) ∧
  (∀ (s : State) (f : Frame) (v : Nat), s.accepts f (askWrite kTraceCtrl 4 v) →
    ∃ t, exec (.traceCtrlWrite f v) s = .next t ∧ s.frame t [.dict, .links, .stalls, .xbar, .repair, .sec, .mgmt, .obs] ∧
      t.obs.trace =
      s.obs.trace ∧
      (s.sec.conf = false → t.reg kTraceCtrl = v % 32 ∧
        ∀ n, n < 4 → bitAt v n = true → bitAt (s.reg kTraceCtrl) n = false → t.obs.traceHead.get 0 n = 0) ∧
      (s.sec.conf = true → t.dict = s.dict ∧ t.obs.traceHead = s.obs.traceHead)) ∧
  (∀ (s : State) (core kind : Nat) (target : BitVec 64), core < 4 → kind < 3 → bitAt (s.reg kTraceCtrl) core = true →
    s.repair.coresUp = true → s.obs.frozen = false → s.sec.conf = false →
    ∃ t, exec (.traceRecord core target kind) s = .next t ∧ s.frame t [.obs] ∧
      t.obs.trace.get {} (core * 4096 + s.obs.traceHead.get 0 core % 4096) =
        (⟨target, kind, s.time.ao % 1000000000⟩ : TraceRec) ∧
      t.obs.traceHead.get 0 core = (s.obs.traceHead.get 0 core + 1) % 2 ^ 32)

/-- R352: an edge on HOIST_IN within HOIST_REARM of the last latch or missed trigger, 1,000 ns by default, is ignored: it
is counted, and it neither latches nor drives HOIST_OUT. From HOIST_REARM on an edge latches, or is missed while a hoist
is held, and begins HOIST_REARM anew. -/
def Obligations.HoistInIsIgnoredWhileRearming : Prop :=
  dfltOf kHoistRearm = 1000 ∧
  (∀ (s : State) (a : Nat), s.power.inputOn = true → s.power.dark = false → s.obs.lastHoist = some a → a ≤ s.time.ticks →
    s.time.ticks < a + s.reg kHoistRearm →
    exec .hoistIn s = .next { s with obs := { s.obs with ignored := s.obs.ignored + 1 } }) ∧
  (∀ s : State, s.power.inputOn = true → s.power.dark = false →
    (∀ a, s.obs.lastHoist = some a → a + s.reg kHoistRearm ≤ s.time.ticks) →
    ∃ t, exec .hoistIn s = .next t ∧ t.obs.lastHoist = some s.time.ticks ∧ t.obs.hoistOutUntil = s.time.ticks + 100 ∧
      t.obs.ignored = s.obs.ignored ∧ t.obs.held = true ∧
      (s.obs.held = true → t.obs.snap = s.obs.snap ∧ t.tallyOf .board 0 8 = s.tallyOf .board 0 8 + 1))

/-- R359 to R367, R390: power comes and goes with the input; a warning is a POWER fault that keeps the last SEQ in flash,
a restore ends it; a rail fault turns a board that serves alone dark and makes a paired one relinquish first; polls take
telemetry and report a fault once; a tripped feed fails its channel. R367 to R372, R378, R412: the board moves between B0
and B1 by ramp and voltage request, holding a request while it cannot act, and keeps to B1 while a sensor warns; a ramp
ends in its unit's state; idle slices park; lanes park and return by planned changes; a sensor at its fault level stops
the board. -/
def Obligations.PowerFollowsInputsAndRequests : Prop :=
  ((∀ s : State, s.power.inputOn = false →
    ∃ t, exec .powerOn s = .next t ∧ t.pending = s.pending ∧ t.power.inputOn = true ∧ t.boot.stage = .reset ∧
      t.boot.step = .inReset ∧ t.time.ao = 0 ∧ t.time.phase = .free ∧ t.obs.head = 0 ∧ t.links = [] ∧ t.sec.keys = [] ∧
      t.sec.ring = s.sec.ring ∧ t.mgmt.profiles = s.mgmt.profiles ∧ t.mgmt.records = s.mgmt.records ∧ ∀ n, (t.chan n).mem
        = []) ∧
  (∀ s : State, s.power.inputOn = true →
    ∃ t, exec .powerOff s = .next t ∧ t.pending = s.pending ∧ t.power.inputOn = false ∧ t.power.railsOn = 0 ∧
      t.boot.stage = .reset ∧ t.sec.ring = s.sec.ring ∧ t.mgmt.profiles = s.mgmt.profiles ∧ ∀ n, (t.chan n).mem = []) ∧
  (∀ s : State, s.power.inputOn = true → s.power.warning = false → s.power.dark = false →
    ∃ t, exec .powerFailWarning s = .next t ∧
      s.frame t [.links, .stalls, .slices, .trees, .pushes, .xbar, .pair, .repair, .sec, .secFace, .obs, .power] ∧
      t.power.warning = true ∧
      t.sec.flashSeqWord = (if s.sec.nextSeq = 0 then none else some (s.sec.nextSeq - 1)) ∧
      t.repair.faultSeq = s.repair.faultSeq + 1 ∧ (s.pair.phase = .paired → t.pair.phase = .relinquishing)) ∧
  (∀ s : State, ∃ t, exec .powerRestore s = .next t ∧ s.frame t [.power] ∧ t.power.warning = false ∧
    t.power.railsOn = s.power.railsOn) ∧
  (∀ (s : State) (rail : Nat), rail = 0 ∨ (4 ≤ rail ∧ rail ≤ 14) → s.power.railsOn.getLsbD rail = true → s.power.dark =
    false →
    ∃ t, exec (.railFault rail) s = .next t ∧ t.pending = s.pending ∧ t.repair.faultSeq = s.repair.faultSeq + 1 ∧
      (s.pair.phase ≠ .paired → s.pair.relinq = none → t.power.dark = true ∧ t.power.railsOn = 0x1F ∧ t.links = [] ∧
        t.repair.coresUp = false ∧ t.time.ao = s.time.ao) ∧
      (s.pair.phase = .paired → t.pair.phase = .relinquishing ∧ t.power = s.power ∧
        ∃ r, t.pair.relinq = some r ∧ r.thenRails = true ∧ r.reason = 1 ∧ r.number = s.board)) ∧
  (∀ (s : State) (rail : Nat) (faulted : Bool) (mv da : Nat), rail < 15 → s.power.railsOn.getLsbD rail = true →
    s.repair.coresUp = true →
    ∃ t, exec (.pmbusPoll rail faulted mv da) s = .next t ∧
      s.frame t [.links, .stalls, .slices, .trees, .pushes, .xbar, .pair, .repair, .obs, .power] ∧
      t.power.railMv.get 0 rail = mv % 2 ^ 14 ∧
      t.power.railDa.get 0 rail = da % 2 ^ 16 ∧ (rail ∈ t.power.faulted ↔ faulted = true) ∧
      t.repair.faultSeq = s.repair.faultSeq + b2n (faulted && !s.power.faulted.contains rail)) ∧
  (∀ (s : State) (c : Nat), c < 32 → s.power.railsOn.getLsbD 15 = true →
    ∃ u t, s.frame u [.power] ∧ u.power.feedsTripped.getLsbD c = true ∧ exec (.efuseTrip c) s = .next t ∧
      exec (.channelFault c 1) u = .next t)) ∧
  ((∀ (s : State) (f : Frame) (v : Nat), v ≤ 1 → s.accepts f (askWrite kPowerTarget 1 v) →
    ∃ t, exec (.powerTargetWrite f v) s = .next t ∧
      s.frame t [.dict, .links, .stalls, .xbar, .repair, .sec, .mgmt, .obs, .power, .clock]
      ∧ t.reg kPowerTarget = v ∧ t.power.b1 = s.power.b1 ∧
      (s.powerBusy = true ∨ s.power.thermWarn = true ∧ v = 0 → t.power.heldWant = some (v == 1) ∧ t.power.step =
        s.power.step) ∧
      (s.powerBusy = false → s.power.b1 = (v == 1) → ¬ (s.power.thermWarn = true ∧ v = 0) → t.power.step = s.power.step ∧
        t.clock = s.clock ∧ t.power.heldWant = none) ∧
      (s.powerBusy = false → s.power.b1 = false → v = 1 → t.power.step = .rampDown ∧ t.clock.target = 20) ∧
      (s.powerBusy = false → s.power.b1 = true → v = 0 → s.power.thermWarn = false → t.power.step = .raiseVolt)) ∧
  (∀ s : State, s.power.heldWant = none →
    (s.power.step = .lowerVolt ∨ s.power.step = .restoreVolt → ∃ t, exec .voutAck s = .next t ∧ s.frame t [.obs, .power,
      .clock] ∧
      t.power.step = .none ∧ t.power.b1 = true) ∧
    (s.power.step = .raiseVolt → ∃ t, exec .voutAck s = .next t ∧ s.frame t [.obs, .power, .clock] ∧ t.power.step =
      .rampUp ∧
      t.clock.target = 16) ∧
    (s.power.step = .lowerVolt → ∃ t, exec .pmbusAckTimeout s = .next t ∧
      s.frame t [.links, .stalls, .slices, .trees, .pushes, .xbar, .pair, .repair, .obs, .power, .clock] ∧
      t.power.step = .restoreVolt ∧ t.power.b1 = true ∧ 8 ∈ t.power.faulted ∧ t.repair.faultSeq = s.repair.faultSeq + 1) ∧
    (s.power.step = .raiseVolt ∨ s.power.step = .restoreVolt → ∃ t, exec .pmbusAckTimeout s = .next t ∧
      s.frame t [.links, .stalls, .slices, .trees, .pushes, .xbar, .pair, .repair, .obs, .power, .clock] ∧
      t.power.step = .none ∧ t.power.b1 = true ∧ t.repair.faultSeq = s.repair.faultSeq + 1) ∧
    (s.coreRamping = true → ∃ t, exec (.clockRampDone 8) s = .next t ∧ s.frame t [.slices, .obs, .power, .clock] ∧
      t.clock.d = s.clock.target ∧
      (s.power.step = .rampDown → t.power.step = .lowerVolt) ∧
      (s.power.step = .rampUp → t.power.step = .none ∧ t.power.b1 = false))) ∧
  (∀ (s : State) (n : Nat), n < 8 →
    ((s.slice n).park = .parking → ∃ t, exec (.clockRampDone n) s = .next t ∧ s.frame t [.slices, .obs, .power, .clock] ∧
      (t.slice n).park = (if (s.slice n).wakeWanted then .waking else .parked)) ∧
    ((s.slice n).park = .waking → ∃ t, exec (.clockRampDone n) s = .next t ∧ s.frame t [.slices, .obs, .power, .clock] ∧
      (t.slice n).park = .running ∧ (t.slice n).passRatio = 16) ∧
    (bitAt (s.reg kSliceParkEnable) n = true → s.reg kSliceParkIdle ≠ 0 → (s.slice n).park = .running → s.sliceIdle n =
      true →
      ∃ t, exec (.sliceParkEntry n) s = .next t ∧ s.frame t [.slices, .obs, .clock] ∧ (t.slice n).park = .parking ∧
        (t.slice n).wakeWanted = false ∧ t.clock.stretch.get 0 n = s.clock.stretch.get 0 n + 1)) ∧
  (∀ (s : State) (f : Frame) (n v : Nat), n < 48 → v < 16 → s.accepts f (askWrite (kLanePark n) 1 v) →
    ∃ t, exec (.laneParkWrite f n v) s = .next t ∧
      s.frame t [.dict, .links, .linkFace, .stalls, .xbar, .repair, .sec, .mgmt, .obs] ∧
      (∀ j, j ≠ n → (t.link j).face = (s.link j).face) ∧
      (let l := s.link n
       let m := BitVec.ofNat 4 v
       let ok := v = 15 ∨ n ∉ s.halyardLinks ∧ l.isUp = true ∧ bitAt l.caps.toNat 2 = true ∧ m ≠ 0 ∧ formMask (m &&&
         l.passed) l.x2 = m
       (¬ ok → t.dict = s.dict ∧ (t.link n).face = l.face) ∧ (ok → t.reg (kLanePark n) = v) ∧
       (ok → l.isUp = true → s.canChange n = false ∨ l.unparking = true → (t.link n).parkWant = some m) ∧
       (ok → s.canChange n = true → l.unparking = false → m &&& l.parked ≠ 0 → (t.link n).unparking = true ∧
         (t.link n).parkWant = none) ∧
       (ok → s.canChange n = true → l.unparking = false → m &&& l.parked = 0 → formMask (m &&& l.mask) l.x2 ≠ l.mask →
         formMask (m &&& l.mask) l.x2 ≠ 0 → ∃ c, (t.link n).change = some c ∧ c.mask = formMask (m &&& l.mask) l.x2 ∧
           c.parking = true ∧ c.mine = true ∧ c.emergency = false))) ∧
  (∀ (s : State) (n : Nat), (s.link n).unparking = true → s.canChange n = true →
    ∃ t, exec (.laneUnparkCheckDone n) s = .next t ∧ s.frame t [.links, .linkFace] ∧ (t.link n).unparking = false ∧
      ∃ c, (t.link n).change = some c ∧ c.mask = formMask ((s.link n).mask ||| (s.link n).parked) (s.link n).x2 ∧
        c.parking = true ∧ c.mine = true ∧ c.emergency = false) ∧
  (∀ (s : State) (die hbm dimm hot : Nat), s.power.inputOn = true → s.power.dark = false →
    ∃ t, exec (.thermalPoll die hbm dimm hot) s = .next t ∧ s.frame t [.chans, .obs, .power, .clock] ∧ t.power.die = die
      % 256 ∧
      t.power.hbm = hbm % 256 ∧ t.power.dimm = dimm % 256 ∧ (∀ c, c < 32 → (t.chan c).hot = bitAt hot c) ∧
      (100 ≤ die % 256 ∨ 90 ≤ hbm % 256 → t.power.thermWarn = true ∧
        (s.power.thermWarn = false → s.powerBusy = false → s.power.b1 = false → t.power.step = .rampDown)) ∧
      (die % 256 < 100 → hbm % 256 < 90 →
        t.power.thermWarn = (s.power.thermWarn && decide (95 < die % 256 ∨ 85 < hbm % 256)))) ∧
  (∀ s : State, s.power.inputOn = true → s.power.dark = false → s.power.thermFault = false →
    110 ≤ s.power.die ∨ 100 ≤ s.power.hbm ∨ 95 ≤ s.power.dimm →
    ∃ t, exec .thermalFault s = .next t ∧ t.pending = s.pending ∧ t.power.thermFault = true ∧
      t.repair.faultSeq = s.repair.faultSeq + 1 ∧
      (s.pair.phase ≠ .paired → s.pair.relinq = none → t.power.dark = true ∧ t.power.railsOn = 0x1F) ∧
      (s.pair.phase = .paired → t.pair.phase = .relinquishing ∧ ∃ r, t.pair.relinq = some r ∧ r.thenRails = true)))

/-- R13, R381 to R384: a good reference is selected at once; the selected one's failure coasts the core PLL, and a good
reference then starts its recovery by way of the always-on clock; a measurement runs one at a time; the control cores halt
and return. -/
def Obligations.ClocksFollowTheirReference : Prop :=
  (∀ (s : State) (f : Frame) (v : Nat), s.accepts f (askWrite kRefSelect 1 v) →
    ∃ t, exec (.refSelectWrite f v) s = .next t ∧
      s.frame t [.dict, .links, .stalls, .xbar, .repair, .sec, .mgmt, .obs, .clock] ∧
      (s.refBad v = true → t.dict = s.dict ∧ t.clock = s.clock) ∧
      (s.refBad v = false → t.reg kRefSelect = v ∧ t.clock.inUse = v ∧ t.clock.holdover = false ∧ t.clock.pll =
        s.clock.pll)) ∧
  (∀ (s : State) (r : Nat), r < 2 →
    ∃ t, exec (.refclkFail r) s = .next t ∧
      s.frame t [.dict, .links, .stalls, .slices, .trees, .pushes, .xbar, .pair, .repair, .obs, .clock, .boot] ∧
      t.clock.failed.getLsbD r = true ∧ (s.clock.freqRun = some r → t.clock.freqRun = none ∧ t.reg kFreqResult = 3) ∧
      (r ≠ s.clock.inUse → t.clock.pll = s.clock.pll ∧ t.clock.inUse = s.clock.inUse) ∧
      (r = s.clock.inUse → s.boot.stage = .memory ∨ s.boot.stage = .ready → t.clock.pll = .coasting ∧ t.clock.holdover =
        true ∧
        t.clock.refFailed = true ∧ t.repair.faultSeq = s.repair.faultSeq + 1 ∧
        (s.pair.phase = .paired → t.pair.phase = .relinquishing)) ∧
      (r = s.clock.inUse → s.boot.stage ≠ .memory → s.boot.stage ≠ .ready →
        (s.refBad (1 - r) = true → t.boot.noReference = true) ∧ (s.refBad (1 - r) = false → t.clock.inUse = 1 - r))) ∧
  (∀ (s : State) (r : Nat), r < 2 →
    ∃ t, exec (.refHoldoffExpiry r) s = .next t ∧ s.frame t [.dict, .clock, .boot] ∧ t.clock.failed.getLsbD r = false ∧
      (s.boot.noReference = true → t.boot.noReference = false ∧ t.clock.inUse = r) ∧
      (s.boot.noReference = false → s.mayRecover = true → r ≠ s.clock.inUse ∨ s.clock.holdover = false →
        t.clock.pll = .relocking ∧ t.clock.source = .alwaysOn ∧ t.clock.inUse = r ∧ t.reg kRefSelect = r) ∧
      (s.boot.noReference = false → s.mayRecover = false → t.clock.pll = s.clock.pll ∧ t.clock.inUse = s.clock.inUse)) ∧
  (∀ s : State, s.clock.pll = .relocking →
    ∃ t, exec .corePllLock s = .next t ∧ s.frame t [.obs, .clock] ∧ t.clock.pll = .locked ∧ t.clock.source = .corePll ∧
      t.clock.d = 2 * s.clock.d ∧ t.clock.target = 2 * s.clock.d / 5) ∧
  (∀ (s : State) (f : Frame) (v : Nat), s.accepts f (askWrite kFreqGo 1 v) →
    ∃ t, exec (.freqGo f v) s = .next t ∧ s.frame t [.dict, .links, .stalls, .xbar, .repair, .sec, .mgmt, .obs, .clock] ∧
      (s.clock.freqRun.isSome = true → t.reg kFreqResult = 1 ∧ t.clock = s.clock) ∧
      (s.clock.freqRun = none → s.refBad (s.reg kFreqRef) = true → t.reg kFreqResult = 3 ∧ t.clock = s.clock) ∧
      (s.clock.freqRun = none → s.refBad (s.reg kFreqRef) = false → t.reg kFreqResult = 2 ∧
        t.clock.freqRun = some (s.reg kFreqRef))) ∧
  (∀ (s : State) (count : Nat), s.clock.freqRun.isSome = true →
    ∃ t, exec (.freqMeasureDone count) s = .next t ∧ s.frame t [.dict, .clock] ∧ t.clock.freqRun = none ∧
      t.reg kFreqCount = count % 2 ^ 64 ∧ t.reg kFreqResult = 0) ∧
  (∀ s : State, ∃ t, exec .controlCoresHalt s = .next t ∧ s.frame t [.repair, .repairFace] ∧ t.repair.coresUp = false ∧
    t.repair.faultLog = s.repair.faultLog) ∧
  (∀ s : State, s.power.inputOn = true → s.power.dark = false →
    ∃ t, exec .controlCoresReturn s = .next t ∧ s.frame t [.repair, .repairFace] ∧ t.repair.coresUp = true ∧
      t.repair.faultLog = s.repair.faultLog)

/-- R386 to R389, Table 20.1: RESET_N, and RESET_BOARD of a board that is not PAIRED, start the board anew with what a
reset keeps and every role epoch 0; RESET_BOARD of a PAIRED board relinquishes first, with REASON 3. R388: every role
epoch reads 0 after a reset: of stalls, barrows, key slots and slices; and in it every slot reads EMPTY and every tenant
but 0 ABSENT. -/
def Obligations.ResetsStartTheBoardAnew : Prop :=
  ((∀ s : State, s.power.inputOn = true → ∃ t, exec .resetN s = .next t ∧ s.startsAnew t 1) ∧
  (∀ (s : State) (f : Frame) (v : Nat), s.boot.resetAsked = false → s.accepts f (askWrite kResetBoard 1 v) →
    ∃ u t, exec (.resetBoard f v) s = .next t ∧
      (s.pair.phase ≠ .paired → s.frame u [.links, .stalls, .xbar, .repair, .sec, .mgmt, .obs, .boot] ∧ u.startsAnew t 2) ∧
      (s.pair.phase = .paired → s.frame t [.links, .stalls, .slices, .trees, .pushes, .xbar, .pair, .repair,
        .sec, .mgmt, .obs] ∧ t.pair.phase = .relinquishing ∧
        ∃ r, t.pair.relinq = some r ∧ r.reason = 3 ∧ r.number = s.board ∧ r.thenReset = true))) ∧
  (∀ s : State, s.power.inputOn = true → ∃ t, exec .resetN s = .next t ∧
    (∀ n, (t.stall n).epoch = 0 ∧ (t.key n).epoch = 0 ∧ (t.barrow n).epoch = 0 ∧ (t.slice n).epoch = 0) ∧
    (∀ n, (State.reset.stall n).epoch = 0 ∧ (State.reset.key n).epoch = 0 ∧ (State.reset.barrow n).epoch = 0 ∧
      (State.reset.slice n).epoch = 0) ∧
    ∀ n, (State.reset.key n).phase = .empty ∧ (State.reset.tenant n).phase = (if n = 0 then .admitted else .absent))

/-- R391 to R400: the steps of bring-up come in their order and each moves the board on: release latches the pins, a
failed slice is out of service, an accepted firmware slot boots and with none the board is in RECOVERY, training sets G,
and the clear makes the board READY with no line listed; a step out of its turn, or during a warning, changes nothing. -/
def Obligations.BringUpRunsInOrder : Prop :=
  (∀ (s : State) (sel : Nat) (pin : Bool), s.bootGoes .inReset = true →
    ∃ t, exec (.resetRelease sel pin) s = .next t ∧ s.frame t [.dict, .slices, .chans, .repair, .repairFace, .sec,
      .secFace, .mgmt, .mgmtFace, .clock, .boot, .free] ∧ t.boot.stage = .rom ∧ t.mgmt.selPins = sel % 4 ∧
      (t.sec.conf = true ↔ Config.confFuse = true ∨ pin = false ∨ s.mgmt.records.dict.get 0 kConfMode = 1) ∧
      (∀ n, n < 8 → (t.slice n).physical = physicalOf n) ∧
      (t.boot.noReference = false → t.boot.step = .fused) ∧ (t.boot.noReference = true → t.boot.step = .released)) ∧
  (∀ (s : State) (failed : Nat), s.bootGoes .fused = true →
    ∃ t, exec (.selfTestDone failed) s = .next t ∧ s.frame t [.slices, .boot] ∧ t.boot.step = .tested ∧
      ∀ n, n < 8 → (bitAt failed n = true → (t.slice n).inService = false) ∧
        (bitAt failed n = false → t.slice n = s.slice n)) ∧
  (∀ (s : State) (a b : Bool) (n : Nat), s.bootGoes .tested = true → s.boot.stage = .rom → n = s.boot.bootSlot → n < 2 →
    ∃ t, exec (.bootSlotVerifyDone a b) s = .next t ∧ s.frame t [.boot] ∧
      (let sig := fun k : Nat => if k = 0 then a else b
       (s.fwAccepted n (sig n) = true → t.boot.stage = .firmware ∧ t.boot.step = .booted ∧ t.boot.booted = n ∧
         (t.fwSlot n).status = 1) ∧
       (s.fwAccepted n (sig n) = false → s.fwAccepted (1 - n) (sig (1 - n)) = true → t.boot.stage = .firmware ∧
         t.boot.step = .booted ∧ t.boot.booted = 1 - n ∧ t.boot.fallbackSlot = true ∧ (t.fwSlot n).status = 2) ∧
       (s.fwAccepted n (sig n) = false → s.fwAccepted (1 - n) (sig (1 - n)) = false → t.boot.stage = .recovery))) ∧
  (∀ (s : State) (ok : Bool), s.bootGoes .booted = true →
    ∃ t, exec (.firmwareBringUpDone ok) s = .next t ∧ t.pending = s.pending ∧ t.boot.stage = .memory ∧ t.boot.step =
      .loaded) ∧
  (∀ s : State, s.bootGoes .loaded = true →
    ∃ t, exec .memoryInitDone s = .next t ∧ s.frame t [.boot] ∧ t.boot.step = .initialised ∧ t.boot.stage = s.boot.stage) ∧
  (∀ s : State, s.bootGoes .initialised = true →
    ∃ t, exec .hardRepairDone s = .next t ∧ s.frame t [.chans, .boot] ∧ t.boot.step = .repaired ∧
      ∀ c, c < 32 → (t.chan c).flashRows = (s.chan c).flashRows.drop 4 ∧ (t.chan c).mem = (s.chan c).mem) ∧
  (∀ (s : State) (rs : List TrainResult) (hbm : List (List LaneSweep)), s.bootGoes .repaired = true →
    ∃ (u t : State), exec (.memoryTrainingDone rs hbm) s = .next t ∧ s.frame t [.dict, .links, .stalls, .stallFace,
      .pitch, .slices, .chans, .snoops, .barrows, .trees, .pushes, .xbar, .pair, .repair, .repairFace, .sec, .secFace, .obs,
      .boot] ∧ t.boot.step = .trained ∧
      t = (u.failUnits (u.hbmFailed hbm)).bootTo .trained ∧ u.pitch.gran = 2048 * u.smallest ∧
      (let wide := fun w : BitVec 128 => s.reg kMinEye ≤ (widestRun w).2
       let delays := fun ls : List LaneSweep => ls.map fun l => (sweepDelay l.read, sweepDelay l.write)
       (∀ c, c < 32 → (s.chan c).phase = .training → rs.find? (fun r => r.channel == c) = none →
         (u.chan c).phase = .empty) ∧
       (∀ c, c < 32 → (s.chan c).phase = .training → ∀ r, rs.find? (fun r => r.channel == c) = some r →
         (u.chan c).delays = delays r.lanes ∧
         ((u.chan c).phase = .inService ↔ (r.capacity = 128 ∨ r.capacity = 256) ∧ r.lanes ≠ [] ∧
           ∀ l ∈ r.lanes, wide l.read ∧ wide l.write)) ∧
       ∀ n, n < 8 → (u.chan (32 + n)).delays = delays (hbm.getD n []) ∧
         (bitAt (u.hbmFailed hbm) n = true ↔ ∃ l ∈ hbm.getD n [], ¬ (wide l.read ∧ wide l.write)))) ∧
  (∀ s : State, s.bootGoes .trained = true →
    ∃ t, exec .memoryClearDone s = .next t ∧ s.frame t [.stalls, .slices, .chans, .gates, .repair, .obs, .clock, .boot] ∧
      t.boot.stage = .ready ∧ t.boot.step = .ready ∧
      ∀ c, (t.chan c).mem = []) ∧
  (∀ (s : State) (i : Instr) (step : BootStep) (sel failed : Nat) (hbm : List (List LaneSweep)) (a b : Bool)
    (rs : List TrainResult),
    (i, step) ∈ [(Instr.resetRelease sel a, .inReset), (.selfTestDone failed, .fused), (.bootSlotVerifyDone a b, .tested),
      (.firmwareBringUpDone a, .booted), (.memoryInitDone, .loaded), (.hardRepairDone, .initialised),
      (.memoryTrainingDone rs hbm, .repaired), (.memoryClearDone, .trained)] →
    s.boot.step ≠ step ∨ s.power.warning = true ∨ s.power.inputOn = false ∨ s.power.dark = true → exec i s = .next s) ∧
  (∀ (s : State) (f : Frame) (row v : Nat), s.accepts f (askRows kFwImage 4096 row [v]) →
    ∃ t, exec (.fwImageWrite f row [v]) s = .next t ∧
      s.frame t [.links, .stalls, .xbar, .repair, .sec, .mgmt, .obs, .boot] ∧ (t.fwSlot
      s.spareSlot).status = 0 ∧
      (t.fwSlot s.spareSlot).image.get 0 row = BitVec.ofNat 32768 v ∧ t.boot.booted = s.boot.booted ∧
      (s.boot.booted < 2 → t.fwSlot s.boot.booted = s.fwSlot s.boot.booted)) ∧
  (∀ (s : State) (f : Frame) (v : Nat), s.accepts f (askWrite kFwGo 1 v) →
    ∃ t, exec (.fwGo f v) s = .next t ∧ s.frame t [.dict, .links, .stalls, .xbar, .repair, .sec, .mgmt, .obs, .boot] ∧
      t.boot.fwVerifying
      = true ∧
      t.reg kFwResult = if s.boot.fwVerifying then 1 else 2) ∧
  (∀ (s : State) (sig : Bool), s.boot.fwVerifying = true →
    ∃ t, exec (.fwVerifyDone sig) s = .next t ∧ s.frame t [.dict, .boot] ∧ t.boot.fwVerifying = false ∧
      (s.fwAccepted s.spareSlot sig = true → t.reg kFwResult = 0 ∧ t.boot.bootSlot = s.spareSlot ∧
        (t.fwSlot s.spareSlot).status = 1) ∧
      (s.fwAccepted s.spareSlot sig = false → t.reg kFwResult = 3 ∧ t.boot.bootSlot = s.boot.bootSlot ∧
        (t.fwSlot s.spareSlot).status = 2))
end

