-- ==== Sys2Proof/Laws/Table.lean ====
section
/-! SUPPORT. Laws of sparse tables: what is read after a write, and that every operation keeps the canonical form. -/

namespace Sys2Proof

variable {α : Type}

@[simp] theorem Tbl.get_nil (d : α) (k : Nat) : Tbl.get [] d k = d := rfl

theorem Tbl.get_put_same (t : Tbl α) (d : α) (k : Nat) (v : α) : (t.put k v).get d k = v := by
  induction t with
  | nil => simp [Tbl.put, Tbl.get]
  | cons p r ih =>
    obtain ⟨k', v'⟩ := p
    simp only [Tbl.put]
    split_ifs with h1 h2
    · simp [Tbl.get]
    · simp [Tbl.get]
    · simp [Tbl.get, h2, ih]

theorem Tbl.get_put_other (t : Tbl α) (d : α) {j k : Nat} (v : α) (h : j ≠ k) : (t.put k v).get d j = t.get d j := by
  induction t with
  | nil => simp [Tbl.put, Tbl.get, h]
  | cons p r ih =>
    obtain ⟨k', v'⟩ := p
    simp only [Tbl.put]
    split_ifs with h1 h2
    · simp [Tbl.get, h]
    · subst h2; simp [Tbl.get, h]
    · simp only [Tbl.get, ih]

theorem Tbl.get_filter_same (t : Tbl α) (d : α) (k : Nat) : Tbl.get (t.filter fun p => p.1 != k) d k = d := by
  induction t with
  | nil => rfl
  | cons p r ih =>
    obtain ⟨k', v'⟩ := p
    by_cases h : k' = k
    · simpa [h] using ih
    · simp [h, Tbl.get, Ne.symm h, ih]

theorem Tbl.get_filter_other (t : Tbl α) (d : α) {j k : Nat} (h : j ≠ k) :
    Tbl.get (t.filter fun p => p.1 != k) d j = t.get d j := by
  induction t with
  | nil => rfl
  | cons p r ih =>
    obtain ⟨k', v'⟩ := p
    by_cases h' : k' = k
    · subst h'; simpa [Tbl.get, h] using ih
    · simp [h', Tbl.get, ih]

variable [DecidableEq α]

/-- What is read at a key just written is what was written. -/
@[simp] theorem Tbl.get_set_same (t : Tbl α) (d : α) (k : Nat) (v : α) : (t.set d k v).get d k = v := by
  unfold Tbl.set
  split
  · next h => rw [h]; exact t.get_filter_same d k
  · exact t.get_put_same d k v

/-- A write leaves every other key alone. -/
theorem Tbl.get_set_other (t : Tbl α) (d : α) {j k : Nat} (v : α) (h : j ≠ k) : (t.set d k v).get d j = t.get d j := by
  unfold Tbl.set
  split
  · exact t.get_filter_other d h
  · exact t.get_put_other d v h

@[simp] theorem Tbl.get_upd_same (t : Tbl α) (d : α) (k : Nat) (f : α → α) : (t.upd d k f).get d k = f (t.get d k) :=
  t.get_set_same d k _

theorem Tbl.get_upd_other (t : Tbl α) (d : α) {j k : Nat} (f : α → α) (h : j ≠ k) :
    (t.upd d k f).get d j = t.get d j := t.get_set_other d _ h

theorem Tbl.get_set (t : Tbl α) (d : α) (j k : Nat) (v : α) :
    (t.set d k v).get d j = if j = k then v else t.get d j := by
  split
  · next h => rw [h]; exact t.get_set_same d k v
  · next h => exact t.get_set_other d v h

theorem Tbl.get_upd (t : Tbl α) (d : α) (j k : Nat) (f : α → α) :
    (t.upd d k f).get d j = if j = k then f (t.get d k) else t.get d j := t.get_set d j k _

/-! ### The canonical form -/

theorem Tbl.wfFrom_mono {d : α} {a b : Nat} {t : Tbl α} (h : a ≤ b) (w : Tbl.wfFrom d b t = true) :
    Tbl.wfFrom d a t = true := by
  cases t with
  | nil => rfl
  | cons p r =>
    obtain ⟨k, v⟩ := p
    simp only [Tbl.wfFrom, Bool.and_eq_true, decide_eq_true_eq] at w ⊢
    exact ⟨⟨h.trans w.1.1, w.1.2⟩, w.2⟩

theorem Tbl.wfFrom_filter {d : α} (p : Nat × α → Bool) : ∀ {a : Nat} {t : Tbl α}, Tbl.wfFrom d a t = true →
    Tbl.wfFrom d a (t.filter p) = true
  | _, [], _ => rfl
  | a, (k, v) :: r, w => by
    simp only [Tbl.wfFrom, Bool.and_eq_true, decide_eq_true_eq] at w
    have ih := Tbl.wfFrom_filter p w.2
    simp only [List.filter_cons]
    split
    · simp only [Tbl.wfFrom, Bool.and_eq_true, decide_eq_true_eq]
      exact ⟨w.1, ih⟩
    · exact Tbl.wfFrom_mono (by omega) ih

theorem Tbl.wfFrom_put {d v : α} (hv : v ≠ d) : ∀ {a : Nat} {t : Tbl α} {k : Nat}, a ≤ k → Tbl.wfFrom d a t = true →
    Tbl.wfFrom d a (t.put k v) = true
  | a, [], k, h, _ => by simp [Tbl.put, Tbl.wfFrom, h, hv]
  | a, (k', v') :: r, k, h, w => by
    simp only [Tbl.wfFrom, Bool.and_eq_true, decide_eq_true_eq] at w
    simp only [Tbl.put]
    split_ifs with h1 h2
    · simp only [Tbl.wfFrom, Bool.and_eq_true, decide_eq_true_eq]
      exact ⟨⟨h, hv⟩, ⟨h1, w.1.2⟩, w.2⟩
    · subst h2
      simp only [Tbl.wfFrom, Bool.and_eq_true, decide_eq_true_eq]
      exact ⟨⟨h, hv⟩, w.2⟩
    · simp only [Tbl.wfFrom, Bool.and_eq_true, decide_eq_true_eq]
      exact ⟨w.1, Tbl.wfFrom_put hv (by omega) w.2⟩

@[simp] theorem Tbl.wf_nil (d : α) : Tbl.wf ([] : Tbl α) d = true := rfl

theorem Tbl.wf_filter {t : Tbl α} {d : α} (p : Nat × α → Bool) (w : t.wf d = true) : Tbl.wf (t.filter p) d = true :=
  Tbl.wfFrom_filter p w

theorem Tbl.get_of_mem_from {d : α} : ∀ {a : Nat} {t : Tbl α} {p : Nat × α}, Tbl.wfFrom d a t = true → p ∈ t →
    a ≤ p.1 ∧ t.get d p.1 = p.2
  | _, [], _, _, m => by cases m
  | a, (k, v) :: r, p, w, m => by
    simp only [Tbl.wfFrom, Bool.and_eq_true, decide_eq_true_eq] at w
    rcases List.mem_cons.1 m with rfl | m'
    · exact ⟨w.1.1, by simp [Tbl.get]⟩
    · have ih := Tbl.get_of_mem_from w.2 m'
      refine ⟨by omega, ?_⟩
      have : p.1 ≠ k := by omega
      simp [Tbl.get, this, ih.2]

/-- In the canonical form a listed pair is what is read at its key. -/
theorem Tbl.get_of_mem {d : α} {t : Tbl α} {p : Nat × α} (w : t.wf d = true) (m : p ∈ t) : t.get d p.1 = p.2 :=
  (Tbl.get_of_mem_from w m).2

/-- A write keeps the canonical form. -/
theorem Tbl.wf_set {t : Tbl α} {d : α} (k : Nat) (v : α) (w : t.wf d = true) : (t.set d k v).wf d = true := by
  unfold Tbl.set
  split
  · exact Tbl.wf_filter _ w
  · next h => exact Tbl.wfFrom_put h (Nat.zero_le k) w

theorem Tbl.wf_upd {t : Tbl α} {d : α} (k : Nat) (f : α → α) (w : t.wf d = true) : (t.upd d k f).wf d = true :=
  Tbl.wf_set k _ w

end Sys2Proof
end

