-- ==== Sys2Proof/Laws/Frame.lean ====
section
/-! SUPPORT. The frame of the shared operations: which parts of the state each may change, and that each keeps the memory's
canonical form. One relation, closed under composition, and one lemma for each operation. -/

namespace Sys2Proof.Machine

/-- The place of a part in a mask. -/
def Part.place : Part → Nat
  | .pending => 0
  | .dict => 1
  | .links => 2
  | .stalls => 3
  | .shapers => 4
  | .pitch => 5
  | .slices => 6
  | .chans => 7
  | .snoops => 8
  | .nextTag => 9
  | .barrows => 10
  | .seeds => 11
  | .trees => 12
  | .pushes => 13
  | .time => 14
  | .gates => 15
  | .xbar => 16
  | .checker => 17
  | .pair => 18
  | .repair => 19
  | .sec => 20
  | .mgmt => 21
  | .obs => 22
  | .power => 23
  | .clock => 24
  | .boot => 25
  | .orphanRun => 26
  | .free => 27
  | .linkFace => 28
  | .stallFace => 29
  | .secFace => 30
  | .repairFace => 31
  | .mgmtFace => 32

/-- From `s` to `t` only the parts whose bits the mask has may change, the memory's canonical form is kept, and SRAM words without
errors stay so. -/
def Keeps (m : Nat) (s t : State) : Prop :=
  (∀ p : Part, m.testBit p.place = false → s.same t p) ∧ (s.memOk → t.memOk) ∧ (s.sramOk → t.sramOk)

theorem Keeps.refl (m : Nat) (s : State) : Keeps m s s :=
  ⟨fun p _ => by cases p <;> first | rfl | exact fun _ => rfl, id, id⟩

theorem State.memOk_chan {s : State} (w : s.memOk) (n : Nat) : Tbl.wf (s.chan n).mem clearLine = true := w.2 n

theorem State.same_trans {s t u : State} {p : Part} (h : s.same t p) (k : t.same u p) : s.same u p := by
  cases p <;> first | exact Eq.trans k h | exact fun n => (k n).trans (h n)

theorem Keeps.then {m m' : Nat} {s t u : State} (h : Keeps m s t) (k : Keeps m' t u) (hm : m' &&& m = m') :
    Keeps m s u := by
  refine ⟨fun p hp => State.same_trans (h.1 p hp) (k.1 p ?_), fun w => k.2.1 (h.2.1 w), fun w => k.2.2 (h.2.2 w)⟩
  have : (m' &&& m).testBit p.place = false := by simp [hp]
  rwa [hm] at this

theorem Keeps.subMask {a b M : Nat} (h : b &&& M = b) (k : a &&& b = a) : a &&& M = a := by
  rw [← k, Nat.and_assoc, h]

theorem Keeps.subBit {b M i : Nat} (h : b &&& M = b) (k : b.testBit i = true) : M.testBit i = true := by
  rw [← h, Nat.testBit_and, Bool.and_eq_true] at k
  exact k.2

theorem Keeps.after {m : Nat} {s t u : State} (h : Keeps m s t) (k : Keeps m t u) : Keeps m s u :=
  h.then k (Nat.and_self m)

/-- A descriptor's kernel keeps the parts that a mask leaves out. -/
structure KernelKeeps (m : Nat) (k : Kernel) : Prop where
  enter : ∀ t c, Keeps m t (k.enter t c)
  page : ∀ t c, Keeps m t (k.page t c).1
  leave : ∀ t c, Keeps m t (k.leave t c).1

theorem Keeps.fst {β : Type} {m : Nat} {s a : State} {x : State × β} {b : β} (h : x = (a, b)) (k : Keeps m s x.1) :
    Keeps m s a := by rw [h] at k; exact k

theorem Keeps.snd {β : Type} {m : Nat} {s a : State} {x : β × State} {b : β} (h : x = (b, a)) (k : Keeps m s x.2) :
    Keeps m s a := by rw [h] at k; exact k

theorem Keeps.foldl {β : Type} {m : Nat} {s : State} {f : State → β → State} (h : ∀ a x, Keeps m a (f a x)) :
    ∀ {t : State} (l : List β), Keeps m s t → Keeps m s (l.foldl f t)
  | _, [], k => k
  | _, x :: r, k => Keeps.foldl h r (k.then (h _ x) (Nat.and_self m))

theorem Keeps.foldl_fst {β γ : Type} {m : Nat} {s : State} {f : State × γ → β → State × γ}
    (h : ∀ a x, Keeps m a.1 (f a x).1) :
    ∀ {t : State × γ} (l : List β), Keeps m s t.1 → Keeps m s (l.foldl f t).1
  | _, [], k => k
  | _, x :: r, k => Keeps.foldl_fst h r (k.then (h _ x) (Nat.and_self m))

theorem Keeps.foldl_snd {β γ : Type} {m : Nat} {s : State} {f : γ × State → β → γ × State}
    (h : ∀ a x, Keeps m a.2 (f a x).2) :
    ∀ {t : γ × State} (l : List β), Keeps m s t.2 → Keeps m s (l.foldl f t).2
  | _, [], k => k
  | _, x :: r, k => Keeps.foldl_snd h r (k.then (h _ x) (Nat.and_self m))

/-- A change of one channel that keeps its memory's canonical form. -/
theorem Keeps.chan {m : Nat} {s t : State} (h : Keeps m s t) (n : Nat) (f : ChanSt → ChanSt)
    (hf : ∀ c : ChanSt, t.memOk → Tbl.wf c.mem clearLine = true → Tbl.wf (f c).mem clearLine = true)
    (hm : m.testBit 7 = true) : Keeps m s (t.updChan n f) := by
  refine ⟨fun p hp => State.same_trans (h.1 p hp) ?_, fun w => ?_, fun w => h.2.2 w⟩
  · cases p <;> first | rfl | exact fun _ => rfl | (simp only [Part.place] at hp; simp [hp] at hm)
  · have k := h.2.1 w
    refine ⟨Tbl.wf_upd n f k.1, fun j => ?_⟩
    have e : (t.updChan n f).chan j = if j = n then f (t.chan n) else t.chan j := Tbl.get_upd t.chans {} j n f
    rw [e]
    split
    · exact hf _ k (k.2 n)
    · exact k.2 j

/-- A change of one link: its transmit side, unless the mask lets more change. -/
theorem Keeps.link {m : Nat} {s t : State} (h : Keeps m s t) (n : Nat) (f : LinkSt → LinkSt)
    (hf : m.testBit 28 = true ∨ ∀ l : LinkSt, (f l).face = l.face)
    (hm : m.testBit 2 = true) : Keeps m s (t.updLink n f) := by
  refine ⟨fun p hp => State.same_trans (h.1 p hp) ?_, fun w => h.2.1 w, fun w => h.2.2 w⟩
  cases p <;> simp only [Part.place] at hp <;> first | rfl | exact fun _ => rfl | (simp [hp] at hm; done) | skip
  intro j
  have e : (t.updLink n f).link j = if j = n then f (t.link n) else t.link j := Tbl.get_upd t.links {} j n f
  rw [e]
  split
  · next q => rw [q]; exact hf.resolve_left (by simp [hp]) _
  · rfl

/-- A change of one stall: its spray pointer and crier copies, unless the mask lets more change. -/
theorem Keeps.stall {m : Nat} {s t : State} (h : Keeps m s t) (n : Nat) (f : StallSt → StallSt)
    (hf : m.testBit 29 = true ∨ ∀ l : StallSt, (f l).face = l.face)
    (hm : m.testBit 3 = true) : Keeps m s (t.updStall n f) := by
  refine ⟨fun p hp => State.same_trans (h.1 p hp) ?_, fun w => h.2.1 w, fun w => h.2.2 w⟩
  cases p <;> simp only [Part.place] at hp <;> first | rfl | exact fun _ => rfl | (simp [hp] at hm; done) | skip
  intro j
  have e : (t.updStall n f).stall j = if j = n then f (t.stall n) else t.stall j := Tbl.get_upd t.stalls {} j n f
  rw [e]
  split
  · next q => rw [q]; exact hf.resolve_left (by simp [hp]) _
  · rfl

/-- Any change of the table of channels that keeps the canonical forms. -/
theorem Keeps.chans {m : Nat} {s t u : State} (h : Keeps m s t) (hm : m.testBit 7 = true)
    (hw : t.memOk → u.memOk)
    (h0 : u.pending = t.pending)
    (h1 : m.testBit 1 = true ∨ u.dict = t.dict)
    (h2 : m.testBit 2 = true ∨ u.links = t.links)
    (h3 : m.testBit 3 = true ∨ u.stalls = t.stalls)
    (h4 : m.testBit 4 = true ∨ u.shapers = t.shapers)
    (h5 : m.testBit 5 = true ∨ u.pitch = t.pitch)
    (h6 : m.testBit 6 = true ∨ u.slices = t.slices)
    (h8 : m.testBit 8 = true ∨ u.snoops = t.snoops)
    (h9 : m.testBit 9 = true ∨ u.nextTag = t.nextTag)
    (h10 : m.testBit 10 = true ∨ u.barrows = t.barrows)
    (h11 : m.testBit 11 = true ∨ u.seeds = t.seeds)
    (h12 : m.testBit 12 = true ∨ u.trees = t.trees)
    (h13 : m.testBit 13 = true ∨ u.pushes = t.pushes)
    (h14 : m.testBit 14 = true ∨ u.time = t.time)
    (h15 : m.testBit 15 = true ∨ u.gates = t.gates)
    (h16 : m.testBit 16 = true ∨ u.xbar = t.xbar)
    (h17 : m.testBit 17 = true ∨ u.checker = t.checker)
    (h18 : m.testBit 18 = true ∨ u.pair = t.pair)
    (h19 : m.testBit 19 = true ∨ u.repair = t.repair)
    (h20 : m.testBit 20 = true ∨ u.sec = t.sec)
    (h21 : m.testBit 21 = true ∨ u.mgmt = t.mgmt)
    (h22 : m.testBit 22 = true ∨ u.obs = t.obs)
    (h23 : m.testBit 23 = true ∨ u.power = t.power)
    (h24 : m.testBit 24 = true ∨ u.clock = t.clock)
    (h25 : m.testBit 25 = true ∨ u.boot = t.boot)
    (h26 : m.testBit 26 = true ∨ u.orphanRun = t.orphanRun)
    (h27 : m.testBit 27 = true ∨ u.free = t.free)
    (h28 : m.testBit 28 = true ∨ u.links = t.links) (h29 : m.testBit 29 = true ∨ u.stalls = t.stalls)
    (h30 : m.testBit 30 = true ∨ SecSt.face u.sec = t.sec.face)
    (h31 : m.testBit 31 = true ∨ RepairSt.face u.repair = t.repair.face)
    (h32 : m.testBit 32 = true ∨ MgmtSt.face u.mgmt = t.mgmt.face)
    (hs : t.sramOk → u.sramOk) : Keeps m s u := by
  refine ⟨fun p hp => State.same_trans (h.1 p hp) ?_, fun w => hw (h.2.1 w), fun w => hs (h.2.2 w)⟩
  cases p <;> simp only [Part.place] at hp
  · exact h0
  · exact h1.resolve_left (by simp [hp])
  · exact h2.resolve_left (by simp [hp])
  · exact h3.resolve_left (by simp [hp])
  · exact h4.resolve_left (by simp [hp])
  · exact h5.resolve_left (by simp [hp])
  · exact h6.resolve_left (by simp [hp])
  · simp [hp] at hm
  · exact h8.resolve_left (by simp [hp])
  · exact h9.resolve_left (by simp [hp])
  · exact h10.resolve_left (by simp [hp])
  · exact h11.resolve_left (by simp [hp])
  · exact h12.resolve_left (by simp [hp])
  · exact h13.resolve_left (by simp [hp])
  · exact h14.resolve_left (by simp [hp])
  · exact h15.resolve_left (by simp [hp])
  · exact h16.resolve_left (by simp [hp])
  · exact h17.resolve_left (by simp [hp])
  · exact h18.resolve_left (by simp [hp])
  · exact h19.resolve_left (by simp [hp])
  · exact h20.resolve_left (by simp [hp])
  · exact h21.resolve_left (by simp [hp])
  · exact h22.resolve_left (by simp [hp])
  · exact h23.resolve_left (by simp [hp])
  · exact h24.resolve_left (by simp [hp])
  · exact h25.resolve_left (by simp [hp])
  · exact h26.resolve_left (by simp [hp])
  · exact h27.resolve_left (by simp [hp])
  · exact fun n => congrArg (fun x => LinkSt.face (Tbl.get x ({} : LinkSt) n)) (h28.resolve_left (by simp [hp]))
  · exact fun n => congrArg (fun x => StallSt.face (Tbl.get x ({} : StallSt) n)) (h29.resolve_left (by simp [hp]))
  · exact h30.resolve_left (by simp [hp])
  · exact h31.resolve_left (by simp [hp])
  · exact h32.resolve_left (by simp [hp])

/-- The same relation on a state written out field by field. -/
def KeepsMk (m : Nat) (s t : State) : Prop := Keeps m s t

theorem keepsMk {m : Nat} {s : State} {x0 x1 x2 x3 x4 x5 x6 x7 x8 x9 x10 x11 x12 x13 x14 x15 x16 x17 x18 x19 x20 x21 x22 x23 x24 x25 x26 x27 : _} :
    Keeps m s (State.mk x0 x1 x2 x3 x4 x5 x6 x7 x8 x9 x10 x11 x12 x13 x14 x15 x16 x17 x18 x19 x20 x21 x22 x23 x24 x25 x26 x27) =
      KeepsMk m s (State.mk x0 x1 x2 x3 x4 x5 x6 x7 x8 x9 x10 x11 x12 x13 x14 x15 x16 x17 x18 x19 x20 x21 x22 x23 x24 x25 x26 x27) := rfl

/-- A record update: every field that differs has its bit in the mask. -/
theorem KeepsMk.put {m : Nat} {s t : State} {x0 x1 x2 x3 x4 x5 x6 x7 x8 x9 x10 x11 x12 x13 x14 x15 x16 x17 x18 x19 x20 x21 x22 x23 x24 x25 x26 x27 : _} (h : Keeps m s t)
    (h0 : x0 = t.pending)
    (h7 : x7 = t.chans)
    (h1 : m.testBit 1 = true ∨ x1 = t.dict)
    (h2 : m.testBit 2 = true ∨ x2 = t.links)
    (h3 : m.testBit 3 = true ∨ x3 = t.stalls)
    (h4 : m.testBit 4 = true ∨ x4 = t.shapers)
    (h5 : m.testBit 5 = true ∨ x5 = t.pitch)
    (h6 : m.testBit 6 = true ∨ x6 = t.slices)
    (h8 : m.testBit 8 = true ∨ x8 = t.snoops)
    (h9 : m.testBit 9 = true ∨ x9 = t.nextTag)
    (h10 : m.testBit 10 = true ∨ x10 = t.barrows)
    (h11 : m.testBit 11 = true ∨ x11 = t.seeds)
    (h12 : m.testBit 12 = true ∨ x12 = t.trees)
    (h13 : m.testBit 13 = true ∨ x13 = t.pushes)
    (h14 : m.testBit 14 = true ∨ x14 = t.time)
    (h15 : m.testBit 15 = true ∨ x15 = t.gates)
    (h16 : m.testBit 16 = true ∨ x16 = t.xbar)
    (h17 : m.testBit 17 = true ∨ x17 = t.checker)
    (h18 : m.testBit 18 = true ∨ x18 = t.pair)
    (h19 : m.testBit 19 = true ∨ x19 = t.repair)
    (h20 : m.testBit 20 = true ∨ x20 = t.sec)
    (h21 : m.testBit 21 = true ∨ x21 = t.mgmt)
    (h22 : m.testBit 22 = true ∨ x22 = t.obs)
    (h23 : m.testBit 23 = true ∨ x23 = t.power)
    (h24 : m.testBit 24 = true ∨ x24 = t.clock)
    (h25 : m.testBit 25 = true ∨ x25 = t.boot)
    (h26 : m.testBit 26 = true ∨ x26 = t.orphanRun)
    (h27 : m.testBit 27 = true ∨ x27 = t.free)
    (h28 : m.testBit 28 = true ∨ x2 = t.links) (h29 : m.testBit 29 = true ∨ x3 = t.stalls)
    (h30 : m.testBit 30 = true ∨ SecSt.face x20 = t.sec.face)
    (h31 : m.testBit 31 = true ∨ RepairSt.face x19 = t.repair.face)
    (h32 : m.testBit 32 = true ∨ MgmtSt.face x21 = t.mgmt.face)
    (hs : t.repair.sram = [] → x19.sram = []) :
    KeepsMk m s (State.mk x0 x1 x2 x3 x4 x5 x6 x7 x8 x9 x10 x11 x12 x13 x14 x15 x16 x17 x18 x19 x20 x21 x22 x23 x24 x25 x26 x27) := by
  refine ⟨fun p hp => State.same_trans (h.1 p hp) ?_, fun w => ?_, fun w => hs (h.2.2 w)⟩
  · cases p <;> simp only [Part.place] at hp
    · exact h0
    · exact h1.resolve_left (by simp [hp])
    · exact h2.resolve_left (by simp [hp])
    · exact h3.resolve_left (by simp [hp])
    · exact h4.resolve_left (by simp [hp])
    · exact h5.resolve_left (by simp [hp])
    · exact h6.resolve_left (by simp [hp])
    · exact h7
    · exact h8.resolve_left (by simp [hp])
    · exact h9.resolve_left (by simp [hp])
    · exact h10.resolve_left (by simp [hp])
    · exact h11.resolve_left (by simp [hp])
    · exact h12.resolve_left (by simp [hp])
    · exact h13.resolve_left (by simp [hp])
    · exact h14.resolve_left (by simp [hp])
    · exact h15.resolve_left (by simp [hp])
    · exact h16.resolve_left (by simp [hp])
    · exact h17.resolve_left (by simp [hp])
    · exact h18.resolve_left (by simp [hp])
    · exact h19.resolve_left (by simp [hp])
    · exact h20.resolve_left (by simp [hp])
    · exact h21.resolve_left (by simp [hp])
    · exact h22.resolve_left (by simp [hp])
    · exact h23.resolve_left (by simp [hp])
    · exact h24.resolve_left (by simp [hp])
    · exact h25.resolve_left (by simp [hp])
    · exact h26.resolve_left (by simp [hp])
    · exact h27.resolve_left (by simp [hp])
    · exact fun n => congrArg (fun x => LinkSt.face (Tbl.get x ({} : LinkSt) n)) (h28.resolve_left (by simp [hp]))
    · exact fun n => congrArg (fun x => StallSt.face (Tbl.get x ({} : StallSt) n)) (h29.resolve_left (by simp [hp]))
    · exact h30.resolve_left (by simp [hp])
    · exact h31.resolve_left (by simp [hp])
    · exact h32.resolve_left (by simp [hp])
  · have k := h.2.1 w
    simp only [State.memOk, State.chan] at k ⊢
    rw [h7]
    exact k

/-- A change of the pair's state. -/
theorem Keeps.setPair {m : Nat} {s t : State} (h : Keeps m s t) (v : PairSt) (hm : m.testBit 18 = true) :
    Keeps m s { t with pair := v } := by
  refine ⟨fun p hp => State.same_trans (h.1 p hp) ?_, fun w => h.2.1 w, fun w => h.2.2 w⟩
  cases p <;> first | rfl | exact fun _ => rfl | (simp only [Part.place] at hp; simp [hp] at hm)

/-- The relation for the outcome of a command. -/
def KeepsOut (m : Nat) (s : State) (o : Result) : Prop := ∀ t, o = .next t → Keeps m s t

theorem KeepsOut.next {m : Nat} {s t : State} (h : Keeps m s t) : KeepsOut m s (.next t) := by
  intro u e
  cases e
  exact h

/-- The relation for a state that may be missing. -/
def KeepsOpt (m : Nat) (s : State) (o : Option State) : Prop := ∀ t, o = some t → Keeps m s t

theorem KeepsOpt.get {m : Nat} {s t : State} {o : Option State} (h : KeepsOpt m s o) (e : o = some t) : Keeps m s t :=
  h t e

theorem KeepsOpt.none {m : Nat} {s : State} : KeepsOpt m s none := by intro t e; cases e

theorem KeepsOpt.some {m : Nat} {s t : State} (h : Keeps m s t) : KeepsOpt m s (some t) := by
  intro u e
  cases e
  exact h

/-- Every part. -/
def Part.all : List Part := [
  .pending, .dict, .links, .stalls, .shapers, .pitch, .slices, .chans, .snoops, .nextTag, .barrows, .seeds, .trees, .pushes,
  .time, .gates, .xbar, .checker, .pair, .repair, .sec, .mgmt, .obs, .power, .clock, .boot, .orphanRun, .free,
  .linkFace, .stallFace, .secFace, .repairFace, .mgmtFace]

theorem Part.mem_all (p : Part) : p ∈ Part.all := by cases p <;> decide

/-- What the mask does not have is unchanged. -/
theorem Keeps.frame {m : Nat} {s t : State} (h : Keeps m s t) {ps : List Part}
    (hm : (Part.all.all fun p => !m.testBit p.place || decide (p ∈ ps)) = true) : s.frame t ps := by
  intro p hp
  refine h.1 p ?_
  have k := List.all_eq_true.1 hm p p.mem_all
  simpa [hp] using k

end Sys2Proof.Machine
end

