-- ==== Sys2Proof/Laws/Frame1.lean ====
section
/-! SUPPORT. What each operation may change and that it keeps the memory's canonical form: Ops, HalOps, MemMap, PortOps, Fault, SramOps, MemOps, RegionOps, BarrowOps, Dict, MgmtOps, ReqOps. -/

set_option linter.unusedTactic false
set_option linter.unreachableTactic false
set_option linter.unusedVariables false

namespace Sys2Proof.Machine

/-! ### Machine/Ops.lean -/

theorem State.count_keeps {M : Nat} {s t : State} {a1 : _} {a2 : _} {a3 : _} {a4 : _}
    (hM : 4194304 &&& M = 4194304) (h : Keeps M s t) : Keeps M s (State.count t a1 a2 a3 a4) := by
  unfold State.count
  try dsimp only
  repeat' (first
    | with_reducible assumption
    | with_reducible exact Keeps.refl _ _
    | (dsimp only [keepsMk]; (with_reducible apply KeepsMk.put ?_ rfl rfl) <;> first | exact Or.inl (Keeps.subBit hM rfl) | exact Or.inr rfl | exact id | skip))

theorem State.updSlice_keeps {M : Nat} {s t : State} {a1 : _} {a2 : _}
    (hM : 64 &&& M = 64) (h : Keeps M s t) : Keeps M s (State.updSlice t a1 a2) := by
  unfold State.updSlice
  try dsimp only
  repeat' (first
    | with_reducible assumption
    | with_reducible exact Keeps.refl _ _
    | (dsimp only [keepsMk]; (with_reducible apply KeepsMk.put ?_ rfl rfl) <;> first | exact Or.inl (Keeps.subBit hM rfl) | exact Or.inr rfl | exact id | skip))

theorem State.updChan_keeps {M : Nat} {s t : State} {a1 : Nat} {a2 : ChanSt → ChanSt} (hM : 128 &&& M = 128)
    (h2 : ∀ c : ChanSt, t.memOk → Tbl.wf c.mem clearLine = true → Tbl.wf (a2 c).mem clearLine = true) (h : Keeps M s t) :
    Keeps M s (t.updChan a1 a2) :=
  h.chan a1 a2 h2 (Keeps.subBit hM rfl)

theorem State.updKey_keeps {M : Nat} {s t : State} {a1 : _} {a2 : _}
    (hM : 1074790400 &&& M = 1074790400) (h : Keeps M s t) : Keeps M s (State.updKey t a1 a2) := by
  unfold State.updKey
  try dsimp only
  repeat' (first
    | with_reducible assumption
    | with_reducible exact Keeps.refl _ _
    | (dsimp only [keepsMk]; (with_reducible apply KeepsMk.put ?_ rfl rfl) <;> first | exact Or.inl (Keeps.subBit hM rfl) | exact Or.inr rfl | exact id | skip))

theorem State.updStall_keeps {M : Nat} {s t : State} {a1 : Nat} {a2 : StallSt → StallSt} (hM : 8 &&& M = 8)
    (h2 : M.testBit 29 = true ∨ ∀ l : StallSt, StallSt.face (a2 l) = l.face) (h : Keeps M s t) :
    Keeps M s (t.updStall a1 a2) :=
  h.stall a1 a2 h2 (Keeps.subBit hM rfl)

theorem State.updSram_keeps {M : Nat} {s t : State} {a1 : _} {a2 : _} {a3 : _} {a4 : _}
    (hM : 524288 &&& M = 524288) (h : Keeps M s t) : Keeps M s (State.updSram t a1 a2 a3 a4) := by
  unfold State.updSram
  try dsimp only
  repeat' (first
    | with_reducible assumption
    | with_reducible exact Keeps.refl _ _
    | (dsimp only [keepsMk]; (with_reducible apply KeepsMk.put ?_ rfl rfl) <;> first | exact Or.inl (Keeps.subBit hM rfl) | exact Or.inr rfl | exact id | skip)
    | exact fun w => by rw [w]; rfl)

theorem State.sramWrite_keeps {M : Nat} {s t : State} {a1 : _} {a2 : _} {a3 : _}
    (hM : 524288 &&& M = 524288) (h : Keeps M s t) : Keeps M s (State.sramWrite t a1 a2 a3) := by
  unfold State.sramWrite
  try dsimp only
  repeat' (first
    | with_reducible assumption
    | with_reducible exact Keeps.refl _ _
    | with_reducible apply State.updSram_keeps)

theorem State.updLink_keeps {M : Nat} {s t : State} {a1 : Nat} {a2 : LinkSt → LinkSt} (hM : 4 &&& M = 4)
    (h2 : M.testBit 28 = true ∨ ∀ l : LinkSt, LinkSt.face (a2 l) = l.face) (h : Keeps M s t) :
    Keeps M s (t.updLink a1 a2) :=
  h.link a1 a2 h2 (Keeps.subBit hM rfl)

theorem State.transmit_keeps {M : Nat} {s t : State} {a1 : _} {a2 : _} {a3 : _} {a4 : _}
    (hM : 4194308 &&& M = 4194308) (h : Keeps M s t) : Keeps M s (State.transmit t a1 a2 a3 a4) := by
  unfold State.transmit
  try dsimp only
  repeat' (first
    | with_reducible assumption
    | with_reducible exact Keeps.refl _ _
    | ((with_reducible refine Keeps.subMask hM ?_); exact rfl)
    | with_reducible apply State.updLink_keeps
    | with_reducible apply State.count_keeps
    | exact Or.inl (Keeps.subBit hM rfl)
    | exact Or.inr fun _ => rfl
    | split)

theorem State.updBarrow_keeps {M : Nat} {s t : State} {a1 : _} {a2 : _}
    (hM : 1024 &&& M = 1024) (h : Keeps M s t) : Keeps M s (State.updBarrow t a1 a2) := by
  unfold State.updBarrow
  try dsimp only
  repeat' (first
    | with_reducible assumption
    | with_reducible exact Keeps.refl _ _
    | (dsimp only [keepsMk]; (with_reducible apply KeepsMk.put ?_ rfl rfl) <;> first | exact Or.inl (Keeps.subBit hM rfl) | exact Or.inr rfl | exact id | skip))

theorem State.updGranule_keeps {M : Nat} {s t : State} {a1 : _} {a2 : _}
    (hM : 32 &&& M = 32) (h : Keeps M s t) : Keeps M s (State.updGranule t a1 a2) := by
  unfold State.updGranule
  try dsimp only
  repeat' (first
    | with_reducible assumption
    | with_reducible exact Keeps.refl _ _
    | (dsimp only [keepsMk]; (with_reducible apply KeepsMk.put ?_ rfl rfl) <;> first | exact Or.inl (Keeps.subBit hM rfl) | exact Or.inr rfl | exact id | skip))

theorem State.beginRamp_keeps {M : Nat} {s t : State} {a1 : _}
    (hM : 20971520 &&& M = 20971520) (h : Keeps M s t) : Keeps M s (State.beginRamp t a1) := by
  unfold State.beginRamp
  try dsimp only
  repeat' (first
    | with_reducible assumption
    | with_reducible exact Keeps.refl _ _
    | ((with_reducible refine Keeps.subMask hM ?_); exact rfl)
    | with_reducible apply State.count_keeps
    | (dsimp only [keepsMk]; (with_reducible apply KeepsMk.put ?_ rfl rfl) <;> first | exact Or.inl (Keeps.subBit hM rfl) | exact Or.inr rfl | exact id | skip))

theorem State.wakeSlice_keeps {M : Nat} {s t : State} {a1 : _}
    (hM : 20971584 &&& M = 20971584) (h : Keeps M s t) : Keeps M s (State.wakeSlice t a1) := by
  unfold State.wakeSlice
  try dsimp only
  repeat' (first
    | with_reducible assumption
    | with_reducible exact Keeps.refl _ _
    | ((with_reducible refine Keeps.subMask hM ?_); exact rfl)
    | with_reducible apply State.updSlice_keeps
    | with_reducible apply State.beginRamp_keeps
    | split)

theorem State.queueCopies_keeps {M : Nat} {s t : State} {a1 : _} {a2 : _}
    (hM : 4194312 &&& M = 4194312) (h : Keeps M s t) : Keeps M s (State.queueCopies t a1 a2) := by
  induction a2 generalizing t a1 with
  | nil =>
    unfold State.queueCopies
    try dsimp only
    repeat' (first
      | with_reducible assumption)
  | cons x l ih =>
    unfold State.queueCopies
    try dsimp only
    repeat' (first
      | with_reducible assumption
      | with_reducible exact Keeps.refl _ _
      | ((with_reducible refine Keeps.subMask hM ?_); exact rfl)
      | with_reducible apply ih
      | with_reducible apply State.count_keeps
      | with_reducible apply State.updStall_keeps
      | exact Or.inl (Keeps.subBit hM rfl)
      | exact Or.inr fun _ => rfl)

theorem State.crier_keeps {M : Nat} {s t : State} {a1 : _} {a2 : _} {a3 : _} {a4 : _} {a5 : _}
    (hM : 4718600 &&& M = 4718600) (h : Keeps M s t) : Keeps M s (State.crier t a1 a2 a3 a4 a5) := by
  unfold State.crier
  try dsimp only
  repeat' (first
    | with_reducible assumption
    | with_reducible exact Keeps.refl _ _
    | ((with_reducible refine Keeps.subMask hM ?_); exact rfl)
    | with_reducible apply State.sramWrite_keeps
    | with_reducible apply State.queueCopies_keeps
    | (dsimp only [keepsMk]; (with_reducible apply KeepsMk.put ?_ rfl rfl) <;> first | exact Or.inl (Keeps.subBit hM rfl) | exact Or.inr rfl | exact id | skip))

theorem State.updTree_keeps {M : Nat} {s t : State} {a1 : _} {a2 : _}
    (hM : 4096 &&& M = 4096) (h : Keeps M s t) : Keeps M s (State.updTree t a1 a2) := by
  unfold State.updTree
  try dsimp only
  repeat' (first
    | with_reducible assumption
    | with_reducible exact Keeps.refl _ _
    | (dsimp only [keepsMk]; (with_reducible apply KeepsMk.put ?_ rfl rfl) <;> first | exact Or.inl (Keeps.subBit hM rfl) | exact Or.inr rfl | exact id | skip))

theorem State.takeTag_keeps {M : Nat} {s t : State}
    (hM : 512 &&& M = 512) (h : Keeps M s t) : Keeps M s (State.takeTag t) := by
  unfold State.takeTag
  try dsimp only
  repeat' (first
    | with_reducible assumption
    | with_reducible exact Keeps.refl _ _
    | (dsimp only [keepsMk]; (with_reducible apply KeepsMk.put ?_ rfl rfl) <;> first | exact Or.inl (Keeps.subBit hM rfl) | exact Or.inr rfl | exact id | skip))

theorem State.updShaper_keeps {M : Nat} {s t : State} {a1 : _} {a2 : _}
    (hM : 16 &&& M = 16) (h : Keeps M s t) : Keeps M s (State.updShaper t a1 a2) := by
  unfold State.updShaper
  try dsimp only
  repeat' (first
    | with_reducible assumption
    | with_reducible exact Keeps.refl _ _
    | (dsimp only [keepsMk]; (with_reducible apply KeepsMk.put ?_ rfl rfl) <;> first | exact Or.inl (Keeps.subBit hM rfl) | exact Or.inr rfl | exact id | skip))

theorem State.updTenant_keeps {M : Nat} {s t : State} {a1 : _} {a2 : _}
    (hM : 1074790400 &&& M = 1074790400) (h : Keeps M s t) : Keeps M s (State.updTenant t a1 a2) := by
  unfold State.updTenant
  try dsimp only
  repeat' (first
    | with_reducible assumption
    | with_reducible exact Keeps.refl _ _
    | (dsimp only [keepsMk]; (with_reducible apply KeepsMk.put ?_ rfl rfl) <;> first | exact Or.inl (Keeps.subBit hM rfl) | exact Or.inr rfl | exact id | skip))

theorem State.ledgerMiss_keeps {M : Nat} {s t : State}
    (hM : 1048576 &&& M = 1048576) (h : Keeps M s t) : Keeps M s (State.ledgerMiss t) := by
  unfold State.ledgerMiss
  try dsimp only
  repeat' (first
    | with_reducible assumption
    | with_reducible exact Keeps.refl _ _
    | (dsimp only [keepsMk]; (with_reducible apply KeepsMk.put ?_ rfl rfl) <;> first | exact Or.inl (Keeps.subBit hM rfl) | exact Or.inr rfl | exact id | skip))

theorem State.ledgerPush_keeps {M : Nat} {s t : State} {a1 : _} {a2 : _} {a3 : _} {a4 : _} {a5 : _}
    (hM : 1572864 &&& M = 1572864) (h : Keeps M s t) : Keeps M s (State.ledgerPush t a1 a2 a3 a4 a5) := by
  unfold State.ledgerPush
  try dsimp only
  repeat' (first
    | with_reducible assumption
    | with_reducible exact Keeps.refl _ _
    | ((with_reducible refine Keeps.subMask hM ?_); exact rfl)
    | with_reducible apply State.sramWrite_keeps
    | (dsimp only [keepsMk]; (with_reducible apply KeepsMk.put ?_ rfl rfl) <;> first | exact Or.inl (Keeps.subBit hM rfl) | exact Or.inr rfl | exact id | skip))

theorem State.ledgerLost_keeps {M : Nat} {s t : State}
    (hM : 1572864 &&& M = 1572864) (h : Keeps M s t) : Keeps M s (State.ledgerLost t) := by
  unfold State.ledgerLost
  try dsimp only
  repeat' (first
    | with_reducible assumption
    | with_reducible exact Keeps.refl _ _
    | with_reducible apply State.ledgerPush_keeps
    | (dsimp only [keepsMk]; (with_reducible apply KeepsMk.put ?_ rfl rfl) <;> first | exact Or.inl (Keeps.subBit hM rfl) | exact Or.inr rfl | exact id | skip))

theorem State.ledger_keeps {M : Nat} {s t : State} {a1 : _} {a2 : _} {a3 : _} {a4 : _} {a5 : _}
    (hM : 1572864 &&& M = 1572864) (h : Keeps M s t) : Keeps M s (State.ledger t a1 a2 a3 a4 a5) := by
  unfold State.ledger
  try dsimp only
  repeat' (first
    | with_reducible assumption
    | with_reducible exact Keeps.refl _ _
    | ((with_reducible refine Keeps.subMask hM ?_); exact rfl)
    | with_reducible apply State.ledgerMiss_keeps
    | with_reducible apply State.ledgerLost_keeps
    | with_reducible apply State.ledgerPush_keeps
    | split)

theorem State.updRevoke_keeps {M : Nat} {s t : State} {a1 : _} {a2 : _}
    (hM : 32 &&& M = 32) (h : Keeps M s t) : Keeps M s (State.updRevoke t a1 a2) := by
  unfold State.updRevoke
  try dsimp only
  repeat' (first
    | with_reducible assumption
    | with_reducible exact Keeps.refl _ _
    | (dsimp only [keepsMk]; (with_reducible apply KeepsMk.put ?_ rfl rfl) <;> first | exact Or.inl (Keeps.subBit hM rfl) | exact Or.inr rfl | exact id | skip))

theorem State.takeFresh_keeps {M : Nat} {s t : State}
    (hM : 134217728 &&& M = 134217728) (h : Keeps M s t) : Keeps M s (State.takeFresh t) := by
  unfold State.takeFresh
  try dsimp only
  repeat' (first
    | with_reducible assumption
    | with_reducible exact Keeps.refl _ _
    | (dsimp only [keepsMk]; (with_reducible apply KeepsMk.put ?_ rfl rfl) <;> first | exact Or.inl (Keeps.subBit hM rfl) | exact Or.inr rfl | exact id | skip))

theorem State.rowChanged_keeps {M : Nat} {s t : State} {a1 : _} {a2 : _}
    (hM : 262144 &&& M = 262144) (h : Keeps M s t) : Keeps M s (State.rowChanged t a1 a2) := by
  unfold State.rowChanged
  try dsimp only
  repeat' (first
    | with_reducible assumption
    | with_reducible exact Keeps.refl _ _
    | (dsimp only [keepsMk]; (with_reducible apply KeepsMk.put ?_ rfl rfl) <;> first | exact Or.inl (Keeps.subBit hM rfl) | exact Or.inr rfl | exact id | skip))

theorem State.rowsChanged_keeps {M : Nat} {s t : State} {a1 : _}
    (hM : 262144 &&& M = 262144) (h : Keeps M s t) : Keeps M s (State.rowsChanged t a1) := by
  unfold State.rowsChanged
  try dsimp only
  repeat' (first
    | with_reducible assumption
    | with_reducible exact Keeps.refl _ _
    | with_reducible apply State.rowChanged_keeps
    | with_reducible refine Keeps.foldl ?_ _ ?_
    | with_reducible refine Keeps.foldl_fst ?_ _ ?_
    | with_reducible refine Keeps.foldl_snd ?_ _ ?_
    | split
    | with_reducible refine Keeps.fst ‹_ = (_, _)› ?_
    | intro _)

theorem State.updFwSlot_keeps {M : Nat} {s t : State} {a1 : _} {a2 : _}
    (hM : 33554432 &&& M = 33554432) (h : Keeps M s t) : Keeps M s (State.updFwSlot t a1 a2) := by
  unfold State.updFwSlot
  try dsimp only
  repeat' (first
    | with_reducible assumption
    | with_reducible exact Keeps.refl _ _
    | (dsimp only [keepsMk]; (with_reducible apply KeepsMk.put ?_ rfl rfl) <;> first | exact Or.inl (Keeps.subBit hM rfl) | exact Or.inr rfl | exact id | skip)
    | split)

theorem State.resetTally_keeps {M : Nat} {s t : State} {a1 : _} {a2 : _} {a3 : _}
    (hM : 4194304 &&& M = 4194304) (h : Keeps M s t) : Keeps M s (State.resetTally t a1 a2 a3) := by
  unfold State.resetTally
  try dsimp only
  repeat' (first
    | with_reducible assumption
    | with_reducible exact Keeps.refl _ _
    | (dsimp only [keepsMk]; (with_reducible apply KeepsMk.put ?_ rfl rfl) <;> first | exact Or.inl (Keeps.subBit hM rfl) | exact Or.inr rfl | exact id | skip))

/-! ### Machine/HalOps.lean -/

theorem State.halSendOne_keeps {M : Nat} {s t : State} {a1 : _}
    (hM : 4456452 &&& M = 4456452) (h : Keeps M s t) : Keeps M s (State.halSendOne t a1) := by
  unfold State.halSendOne
  try dsimp only
  repeat' (first
    | with_reducible assumption
    | with_reducible exact Keeps.refl _ _
    | ((with_reducible refine Keeps.subMask hM ?_); exact rfl)
    | with_reducible apply State.transmit_keeps
    | (dsimp only [keepsMk]; (with_reducible apply KeepsMk.put ?_ rfl rfl) <;> first | exact Or.inl (Keeps.subBit hM rfl) | exact Or.inr rfl | exact id | skip)
    | split)

theorem State.halFlush_keeps {M : Nat} {s t : State}
    (hM : 4456452 &&& M = 4456452) (h : Keeps M s t) : Keeps M s (State.halFlush t) := by
  unfold State.halFlush
  try dsimp only
  repeat' (first
    | with_reducible assumption
    | with_reducible exact Keeps.refl _ _
    | with_reducible apply State.halSendOne_keeps
    | with_reducible refine Keeps.foldl ?_ _ ?_
    | with_reducible refine Keeps.foldl_fst ?_ _ ?_
    | with_reducible refine Keeps.foldl_snd ?_ _ ?_
    | split
    | with_reducible refine Keeps.fst ‹_ = (_, _)› ?_
    | intro _)

theorem State.halPush_keeps {M : Nat} {s t : State} {a1 : _} {a2 : _} {a3 : _} {a4 : _} {a5 : _} {a6 : _}
    (hM : 4456452 &&& M = 4456452) (h : Keeps M s t) : Keeps M s (State.halPush t a1 a2 a3 a4 a5 a6) := by
  unfold State.halPush
  try dsimp only
  repeat' (first
    | with_reducible assumption
    | with_reducible exact Keeps.refl _ _
    | with_reducible apply State.halFlush_keeps
    | (dsimp only [keepsMk]; (with_reducible apply KeepsMk.put ?_ rfl rfl) <;> first | exact Or.inl (Keeps.subBit hM rfl) | exact Or.inr rfl | exact id | skip))

theorem State.halRecord_keeps {M : Nat} {s t : State} {a1 : _} {a2 : _}
    (hM : 4456452 &&& M = 4456452) (h : Keeps M s t) : Keeps M s (State.halRecord t a1 a2).1 := by
  unfold State.halRecord
  try dsimp only
  repeat' (first
    | with_reducible assumption
    | with_reducible exact Keeps.refl _ _
    | with_reducible apply State.halPush_keeps
    | split)

theorem State.markWritten_keeps {M : Nat} {s t : State} {a1 : _}
    (hM : 262176 &&& M = 262176) (h : Keeps M s t) : Keeps M s (State.markWritten t a1) := by
  unfold State.markWritten
  try dsimp only
  repeat' (first
    | with_reducible assumption
    | with_reducible exact Keeps.refl _ _
    | ((with_reducible refine Keeps.subMask hM ?_); exact rfl)
    | with_reducible apply State.updGranule_keeps
    | (dsimp only [keepsMk]; (with_reducible apply KeepsMk.put ?_ rfl rfl) <;> first | exact Or.inl (Keeps.subBit hM rfl) | exact Or.inr rfl | exact id | skip)
    | split)

theorem State.halUnsent_keeps {M : Nat} {s t : State} {a1 : _}
    (hM : 262144 &&& M = 262144) (h : Keeps M s t) : Keeps M s (State.halUnsent t a1) := by
  unfold State.halUnsent
  try dsimp only
  repeat' (first
    | with_reducible assumption
    | with_reducible exact Keeps.refl _ _
    | (dsimp only [keepsMk]; (with_reducible apply KeepsMk.put ?_ rfl rfl) <;> first | exact Or.inl (Keeps.subBit hM rfl) | exact Or.inr rfl | exact id | skip))

theorem State.tellKey_keeps {M : Nat} {s t : State} {a1 : _}
    (hM : 4456452 &&& M = 4456452) (h : Keeps M s t) : Keeps M s (State.tellKey t a1) := by
  unfold State.tellKey
  try dsimp only
  repeat' (first
    | with_reducible assumption
    | with_reducible exact Keeps.refl _ _
    | with_reducible apply State.halRecord_keeps)

theorem State.tellStall_keeps {M : Nat} {s t : State} {a1 : _}
    (hM : 4456452 &&& M = 4456452) (h : Keeps M s t) : Keeps M s (State.tellStall t a1) := by
  unfold State.tellStall
  try dsimp only
  repeat' (first
    | with_reducible assumption
    | with_reducible exact Keeps.refl _ _
    | with_reducible apply State.halRecord_keeps)

theorem State.tellPitch_keeps {M : Nat} {s t : State} {a1 : _}
    (hM : 4456452 &&& M = 4456452) (h : Keeps M s t) : Keeps M s (State.tellPitch t a1).1 := by
  unfold State.tellPitch
  try dsimp only
  repeat' (first
    | with_reducible assumption
    | with_reducible exact Keeps.refl _ _
    | with_reducible apply State.halRecord_keeps
    | split)

theorem State.tellAcl_keeps {M : Nat} {s t : State} {a1 : _} {a2 : _}
    (hM : 4456452 &&& M = 4456452) (h : Keeps M s t) : Keeps M s (State.tellAcl t a1 a2) := by
  unfold State.tellAcl
  try dsimp only
  repeat' (first
    | with_reducible assumption
    | with_reducible exact Keeps.refl _ _
    | with_reducible apply State.halRecord_keeps)

theorem State.tellImagePitch_keeps {M : Nat} {s t : State} {a1 : _}
    (hM : 4456452 &&& M = 4456452) (h : Keeps M s t) : Keeps M s (State.tellImagePitch t a1).1 := by
  unfold State.tellImagePitch
  try dsimp only
  repeat' (first
    | with_reducible assumption
    | with_reducible exact Keeps.refl _ _
    | with_reducible apply State.halRecord_keeps)

/-! ### Machine/MemMap.lean -/

theorem ChanSt.wf_setLine (c : ChanSt) (a : Nat) (l : SLine) (w : Tbl.wf c.mem clearLine = true) :
    Tbl.wf (c.setLine a l).mem clearLine = true := by
  unfold ChanSt.setLine
  split
  · split
    · exact w
    · split
      · exact w
      · exact Tbl.wf_set _ _ w
  · split
    · exact w
    · exact Tbl.wf_set _ _ w

theorem ChanSt.wf_wipe (c : ChanSt) (p : Nat → Bool) (w : Tbl.wf c.mem clearLine = true) :
    Tbl.wf (c.wipe p).mem clearLine = true := Tbl.wf_filter _ w

theorem State.setUnitLine_keeps {M : Nat} {s t : State} {a1 : _} {a2 : _} {a3 : _}
    (hM : 128 &&& M = 128) (h : Keeps M s t) : Keeps M s (State.setUnitLine t a1 a2 a3) :=
  State.updChan_keeps hM (fun c _ w => c.wf_setLine a2 a3 w) h

theorem State.setFarLine_keeps {M : Nat} {s t : State} {a1 : _} {a2 : _}
    (hM : 2148008064 &&& M = 2148008064) (h : Keeps M s t) : Keeps M s (State.setFarLine t a1 a2) := by
  unfold State.setFarLine
  try dsimp only
  repeat' (first
    | with_reducible assumption
    | with_reducible exact Keeps.refl _ _
    | ((with_reducible refine Keeps.subMask hM ?_); exact rfl)
    | with_reducible apply State.setUnitLine_keeps
    | (dsimp only [keepsMk]; (with_reducible apply KeepsMk.put ?_ rfl rfl) <;> first | exact Or.inl (Keeps.subBit hM rfl) | exact Or.inr rfl | exact id | skip)
    | split)

theorem State.setAt_keeps {M : Nat} {s t : State} {a1 : _} {a2 : _} {a3 : _}
    (hM : 2148008064 &&& M = 2148008064) (h : Keeps M s t) : Keeps M s (State.setAt t a1 a2 a3) := by
  unfold State.setAt
  try dsimp only
  repeat' (first
    | with_reducible assumption
    | with_reducible exact Keeps.refl _ _
    | ((with_reducible refine Keeps.subMask hM ?_); exact rfl)
    | with_reducible apply State.setFarLine_keeps
    | with_reducible apply State.setUnitLine_keeps
    | split)

theorem State.setStored_keeps {M : Nat} {s t : State} {a1 : _} {a2 : _}
    (hM : 2148008064 &&& M = 2148008064) (h : Keeps M s t) : Keeps M s (State.setStored t a1 a2) := by
  unfold State.setStored
  try dsimp only
  repeat' (first
    | with_reducible assumption
    | with_reducible exact Keeps.refl _ _
    | with_reducible apply State.setAt_keeps)

/-! ### Machine/PortOps.lean -/

theorem State.dropPackets_keeps {M : Nat} {s t : State} {a1 : _}
    (hM : 65600 &&& M = 65600) (h : Keeps M s t) : Keeps M s (State.dropPackets t a1) := by
  unfold State.dropPackets
  try dsimp only
  repeat' (first
    | with_reducible assumption
    | with_reducible exact Keeps.refl _ _
    | ((with_reducible refine Keeps.subMask hM ?_); exact rfl)
    | with_reducible apply State.updSlice_keeps
    | with_reducible refine Keeps.foldl ?_ _ ?_
    | with_reducible refine Keeps.foldl_fst ?_ _ ?_
    | with_reducible refine Keeps.foldl_snd ?_ _ ?_
    | (dsimp only [keepsMk]; (with_reducible apply KeepsMk.put ?_ rfl rfl) <;> first | exact Or.inl (Keeps.subBit hM rfl) | exact Or.inr rfl | exact id | skip)
    | split
    | with_reducible refine Keeps.fst ‹_ = (_, _)› ?_
    | intro _)

theorem State.placeFlow_keeps {M : Nat} {s t : State} {a1 : _} {a2 : _}
    (hM : 64 &&& M = 64) (h : Keeps M s t) : Keeps M s (State.placeFlow t a1 a2) := by
  unfold State.placeFlow
  try dsimp only
  repeat' (first
    | with_reducible assumption
    | with_reducible exact Keeps.refl _ _
    | with_reducible apply State.updSlice_keeps)

theorem State.egressPush_keeps {M : Nat} {s t : State} {a1 : _} {a2 : _}
    (hM : 64 &&& M = 64) (h : Keeps M s t) : Keeps M s (State.egressPush t a1 a2) := by
  unfold State.egressPush
  try dsimp only
  repeat' (first
    | with_reducible assumption
    | with_reducible exact Keeps.refl _ _
    | with_reducible apply State.updSlice_keeps
    | with_reducible apply State.placeFlow_keeps
    | split)

theorem State.pipePush_keeps {M : Nat} {s t : State} {a1 : _} {a2 : _} {a3 : _} {a4 : _}
    (hM : 20971584 &&& M = 20971584) (h : Keeps M s t) : Keeps M s (State.pipePush t a1 a2 a3 a4) := by
  unfold State.pipePush
  try dsimp only
  repeat' (first
    | with_reducible assumption
    | with_reducible exact Keeps.refl _ _
    | ((with_reducible refine Keeps.subMask hM ?_); exact rfl)
    | with_reducible apply State.updSlice_keeps
    | with_reducible apply State.wakeSlice_keeps
    | split)

theorem State.waitAt_keeps {M : Nat} {s t : State} {a1 : _} {a2 : _} {a3 : _}
    (hM : 65536 &&& M = 65536) (h : Keeps M s t) : Keeps M s (State.waitAt t a1 a2 a3) := by
  unfold State.waitAt
  try dsimp only
  repeat' (first
    | with_reducible assumption
    | with_reducible exact Keeps.refl _ _
    | (dsimp only [keepsMk]; (with_reducible apply KeepsMk.put ?_ rfl rfl) <;> first | exact Or.inl (Keeps.subBit hM rfl) | exact Or.inr rfl | exact id | skip))

theorem State.wire_keeps {M : Nat} {s t : State} {a1 : _} {a2 : _}
    (hM : 4259844 &&& M = 4259844) (h : Keeps M s t) : Keeps M s (State.wire t a1 a2) := by
  unfold State.wire
  try dsimp only
  repeat' (first
    | with_reducible assumption
    | with_reducible exact Keeps.refl _ _
    | ((with_reducible refine Keeps.subMask hM ?_); exact rfl)
    | with_reducible apply State.transmit_keeps
    | with_reducible apply State.waitAt_keeps
    | split)

theorem State.spray_keeps {M : Nat} {s t : State} {a1 : _} {a2 : _} {a3 : _} {a4 : _}
    (hM : 4259852 &&& M = 4259852) (h : Keeps M s t) : Keeps M s (State.spray t a1 a2 a3 a4).1 := by
  unfold State.spray
  try dsimp only
  repeat' (first
    | with_reducible assumption
    | with_reducible exact Keeps.refl _ _
    | ((with_reducible refine Keeps.subMask hM ?_); exact rfl)
    | with_reducible apply State.wire_keeps
    | with_reducible apply State.updStall_keeps
    | exact Or.inl (Keeps.subBit hM rfl)
    | exact Or.inr fun _ => rfl
    | split)

theorem State.sprayReq_keeps {M : Nat} {s t : State} {a1 : _} {a2 : _} {a3 : _} {a4 : _}
    (hM : 4259852 &&& M = 4259852) (h : Keeps M s t) : Keeps M s (State.sprayReq t a1 a2 a3 a4) := by
  unfold State.sprayReq
  try dsimp only
  repeat' (first
    | with_reducible assumption
    | with_reducible exact Keeps.refl _ _
    | with_reducible apply State.spray_keeps
    | (dsimp only [keepsMk]; (with_reducible apply KeepsMk.put ?_ rfl rfl) <;> first | exact Or.inl (Keeps.subBit hM rfl) | exact Or.inr rfl | exact id | skip)
    | split
    | with_reducible refine Keeps.fst ‹_ = (_, _)› ?_)

theorem State.drainMarks_keeps {M : Nat} {s t : State} {a1 : _} {a2 : _}
    (hM : 96 &&& M = 96) (h : Keeps M s t) : Keeps M s (State.drainMarks t a1 a2) := by
  unfold State.drainMarks
  try dsimp only
  repeat' (first
    | with_reducible assumption
    | with_reducible exact Keeps.refl _ _
    | ((with_reducible refine Keeps.subMask hM ?_); exact rfl)
    | with_reducible apply State.updSlice_keeps
    | with_reducible apply State.updRevoke_keeps
    | with_reducible refine Keeps.foldl ?_ _ ?_
    | with_reducible refine Keeps.foldl_fst ?_ _ ?_
    | with_reducible refine Keeps.foldl_snd ?_ _ ?_
    | split
    | with_reducible refine Keeps.fst ‹_ = (_, _)› ?_
    | intro _)

theorem State.freeTrk_keeps {M : Nat} {s t : State} {a1 : _} {a2 : _}
    (hM : 96 &&& M = 96) (h : Keeps M s t) : Keeps M s (State.freeTrk t a1 a2) := by
  unfold State.freeTrk
  try dsimp only
  repeat' (first
    | with_reducible assumption
    | with_reducible exact Keeps.refl _ _
    | ((with_reducible refine Keeps.subMask hM ?_); exact rfl)
    | with_reducible apply State.updSlice_keeps
    | with_reducible apply State.drainMarks_keeps)

theorem State.discardTrk_keeps {M : Nat} {s t : State} {a1 : _} {a2 : _} {a3 : _}
    (hM : 4194400 &&& M = 4194400) (h : Keeps M s t) : Keeps M s (State.discardTrk t a1 a2 a3) := by
  unfold State.discardTrk
  try dsimp only
  repeat' (first
    | with_reducible assumption
    | with_reducible exact Keeps.refl _ _
    | ((with_reducible refine Keeps.subMask hM ?_); exact rfl)
    | with_reducible apply State.count_keeps
    | with_reducible apply State.freeTrk_keeps)

theorem State.intoLink_keeps {M : Nat} {s t : State} {a1 : _} {a2 : _}
    (hM : 4202596 &&& M = 4202596) (h : Keeps M s t) : Keeps M s (State.intoLink t a1 a2) := by
  unfold State.intoLink
  try dsimp only
  repeat' (first
    | with_reducible assumption
    | with_reducible exact Keeps.refl _ _
    | ((with_reducible refine Keeps.subMask hM ?_); exact rfl)
    | with_reducible apply State.transmit_keeps
    | with_reducible apply State.updSlice_keeps
    | with_reducible apply State.drainMarks_keeps
    | (dsimp only [keepsMk]; (with_reducible apply KeepsMk.put ?_ rfl rfl) <;> first | exact Or.inl (Keeps.subBit hM rfl) | exact Or.inr rfl | exact id | skip)
    | split)

theorem State.portSend_keeps {M : Nat} {s t : State} {a1 : _} {a2 : _}
    (hM : 4268132 &&& M = 4268132) (h : Keeps M s t) : Keeps M s (State.portSend t a1 a2) := by
  unfold State.portSend
  try dsimp only
  repeat' (first
    | with_reducible assumption
    | with_reducible exact Keeps.refl _ _
    | ((with_reducible refine Keeps.subMask hM ?_); exact rfl)
    | with_reducible apply State.intoLink_keeps
    | with_reducible apply State.waitAt_keeps
    | split)

theorem State.sprayEntry_keeps {M : Nat} {s t : State} {a1 : _} {a2 : _} {a3 : _} {a4 : _} {a5 : _}
    (hM : 4268140 &&& M = 4268140) (h : Keeps M s t) : Keeps M s (State.sprayEntry t a1 a2 a3 a4 a5) := by
  unfold State.sprayEntry
  try dsimp only
  repeat' (first
    | with_reducible assumption
    | with_reducible exact Keeps.refl _ _
    | ((with_reducible refine Keeps.subMask hM ?_); exact rfl)
    | with_reducible apply State.portSend_keeps
    | with_reducible apply State.updStall_keeps
    | exact Or.inl (Keeps.subBit hM rfl)
    | exact Or.inr fun _ => rfl
    | split)

theorem State.freshCredit_keeps {M : Nat} {s t : State} {a1 : _}
    (hM : 16 &&& M = 16) (h : Keeps M s t) : Keeps M s (State.freshCredit t a1) := by
  unfold State.freshCredit
  try dsimp only
  repeat' (first
    | with_reducible assumption
    | with_reducible exact Keeps.refl _ _
    | with_reducible apply State.updShaper_keeps)

theorem State.chargeIn_keeps {M : Nat} {s t : State} {a1 : _} {a2 : _}
    (hM : 4194320 &&& M = 4194320) (h : Keeps M s t) : Keeps M s (State.chargeIn t a1 a2) := by
  unfold State.chargeIn
  try dsimp only
  repeat' (first
    | with_reducible assumption
    | with_reducible exact Keeps.refl _ _
    | ((with_reducible refine Keeps.subMask hM ?_); exact rfl)
    | with_reducible apply State.count_keeps
    | with_reducible apply State.updShaper_keeps
    | with_reducible apply State.freshCredit_keeps
    | split)

theorem State.chargeOut_keeps {M : Nat} {s t : State} {a1 : _} {a2 : _}
    (hM : 16 &&& M = 16) (h : Keeps M s t) : Keeps M s (State.chargeOut t a1 a2) := by
  unfold State.chargeOut
  try dsimp only
  repeat' (first
    | with_reducible assumption
    | with_reducible exact Keeps.refl _ _
    | with_reducible apply State.updShaper_keeps
    | with_reducible apply State.freshCredit_keeps
    | split)

theorem State.endSends_keeps {M : Nat} {s t : State}
    (hM : 536936520 &&& M = 536936520) (h : Keeps M s t) : Keeps M s (State.endSends t) := by
  unfold State.endSends
  try dsimp only
  repeat' (first
    | with_reducible assumption
    | with_reducible exact Keeps.refl _ _
    | ((with_reducible refine Keeps.subMask hM ?_); exact rfl)
    | with_reducible apply State.placeFlow_keeps
    | with_reducible apply State.updStall_keeps
    | with_reducible refine Keeps.foldl ?_ _ ?_
    | with_reducible refine Keeps.foldl_fst ?_ _ ?_
    | with_reducible refine Keeps.foldl_snd ?_ _ ?_
    | (dsimp only [keepsMk]; (with_reducible apply KeepsMk.put ?_ rfl rfl) <;> first | exact Or.inl (Keeps.subBit hM rfl) | exact Or.inr rfl | exact id | skip)
    | exact Or.inl (Keeps.subBit hM rfl)
    | exact Or.inr fun _ => rfl
    | split
    | with_reducible refine Keeps.fst ‹_ = (_, _)› ?_
    | intro _)

theorem State.sendWaiting_keeps {M : Nat} {s t : State} {a1 : _}
    (hM : 4259916 &&& M = 4259916) (h : Keeps M s t) : Keeps M s (State.sendWaiting t a1) := by
  unfold State.sendWaiting
  try dsimp only
  repeat' (first
    | with_reducible assumption
    | with_reducible exact Keeps.refl _ _
    | ((with_reducible refine Keeps.subMask hM ?_); exact rfl)
    | with_reducible apply State.sprayReq_keeps
    | with_reducible apply State.placeFlow_keeps
    | with_reducible refine Keeps.foldl ?_ _ ?_
    | with_reducible refine Keeps.foldl_fst ?_ _ ?_
    | with_reducible refine Keeps.foldl_snd ?_ _ ?_
    | (dsimp only [keepsMk]; (with_reducible apply KeepsMk.put ?_ rfl rfl) <;> first | exact Or.inl (Keeps.subBit hM rfl) | exact Or.inr rfl | exact id | skip)
    | split
    | with_reducible refine Keeps.fst ‹_ = (_, _)› ?_
    | intro _)

/-! ### Machine/Fault.lean -/

theorem State.hoist_keeps {M : Nat} {s t : State} {a1 : _} {a2 : _}
    (hM : 4718600 &&& M = 4718600) (h : Keeps M s t) : Keeps M s (State.hoist t a1 a2) := by
  unfold State.hoist
  try dsimp only
  repeat' (first
    | with_reducible assumption
    | with_reducible exact Keeps.refl _ _
    | ((with_reducible refine Keeps.subMask hM ?_); exact rfl)
    | with_reducible apply State.count_keeps
    | with_reducible apply State.crier_keeps
    | (dsimp only [keepsMk]; (with_reducible apply KeepsMk.put ?_ rfl rfl) <;> first | exact Or.inl (Keeps.subBit hM rfl) | exact Or.inr rfl | exact id | skip)
    | split)

theorem State.fault_keeps {M : Nat} {s t : State} {a1 : _} {a2 : _} {a3 : _} {a4 : _} {a5 : _}
    (hM : 4718600 &&& M = 4718600) (h : Keeps M s t) : Keeps M s (State.fault t a1 a2 a3 a4 a5) := by
  unfold State.fault
  try dsimp only
  repeat' (first
    | with_reducible assumption
    | with_reducible exact Keeps.refl _ _
    | with_reducible apply State.crier_keeps
    | with_reducible apply State.hoist_keeps
    | (dsimp only [keepsMk]; (with_reducible apply KeepsMk.put ?_ rfl rfl) <;> first | exact Or.inl (Keeps.subBit hM rfl) | exact Or.inr rfl | exact id | skip)
    | split)

/-! ### Machine/SramOps.lean -/

theorem State.setErrTable_keeps {M : Nat} {s t : State} {a1 : _} {a2 : _}
    (hM : 524352 &&& M = 524352) (h : Keeps M s t) : Keeps M s (State.setErrTable t a1 a2) := by
  unfold State.setErrTable
  try dsimp only
  repeat' (first
    | with_reducible assumption
    | with_reducible exact Keeps.refl _ _
    | ((with_reducible refine Keeps.subMask hM ?_); exact rfl)
    | with_reducible apply State.updSlice_keeps
    | (dsimp only [keepsMk]; (with_reducible apply KeepsMk.put ?_ rfl rfl) <;> first | exact Or.inl (Keeps.subBit hM rfl) | exact Or.inr rfl | exact id | skip)
    | split)

theorem State.logError_keeps {M : Nat} {s t : State} {a1 : _} {a2 : _}
    (hM : 4718664 &&& M = 4718664) (h : Keeps M s t) : Keeps M s (State.logError t a1 a2) := by
  unfold State.logError
  try dsimp only
  repeat' (first
    | with_reducible assumption
    | with_reducible exact Keeps.refl _ _
    | ((with_reducible refine Keeps.subMask hM ?_); exact rfl)
    | with_reducible apply State.setErrTable_keeps
    | with_reducible apply State.count_keeps
    | with_reducible apply State.crier_keeps
    | split)

theorem State.sramFailed_keeps {M : Nat} {s t : State} {a1 : _} {a2 : _} {a3 : _}
    (hM : 4718664 &&& M = 4718664) (h : Keeps M s t) : Keeps M s (State.sramFailed t a1 a2 a3) := by
  unfold State.sramFailed
  try dsimp only
  repeat' (first
    | with_reducible assumption
    | with_reducible exact Keeps.refl _ _
    | ((with_reducible refine Keeps.subMask hM ?_); exact rfl)
    | with_reducible apply State.logError_keeps
    | with_reducible apply State.count_keeps
    | with_reducible apply State.fault_keeps
    | split)

theorem State.moveRow_keeps {M : Nat} {s t : State} {a1 : _} {a2 : _} {a3 : _}
    (hM : 524288 &&& M = 524288) (h : Keeps M s t) : Keeps M s (State.moveRow t a1 a2 a3) := by
  unfold State.moveRow
  try dsimp only
  repeat' (first
    | with_reducible assumption
    | with_reducible exact Keeps.refl _ _
    | with_reducible apply State.updSram_keeps
    | (dsimp only [keepsMk]; (with_reducible apply KeepsMk.put ?_ rfl rfl) <;> first | exact Or.inl (Keeps.subBit hM rfl) | exact Or.inr rfl | exact id | skip)
    | split)

theorem State.sramCorrected_keeps {M : Nat} {s t : State} {a1 : _} {a2 : _} {a3 : _}
    (hM : 4718664 &&& M = 4718664) (h : Keeps M s t) : Keeps M s (State.sramCorrected t a1 a2 a3) := by
  unfold State.sramCorrected
  try dsimp only
  repeat' (first
    | with_reducible assumption
    | with_reducible exact Keeps.refl _ _
    | ((with_reducible refine Keeps.subMask hM ?_); exact rfl)
    | with_reducible apply State.count_keeps
    | with_reducible apply State.logError_keeps
    | with_reducible apply State.moveRow_keeps
    | with_reducible apply State.updSram_keeps
    | split)

theorem State.sramRead_keeps {M : Nat} {s t : State} {a1 : _} {a2 : _} {a3 : _} {a4 : _} {a5 : _}
    (hM : 4718664 &&& M = 4718664) (h : Keeps M s t) : Keeps M s (State.sramRead t a1 a2 a3 a4 a5).1 := by
  unfold State.sramRead
  try dsimp only
  repeat' (first
    | with_reducible assumption
    | with_reducible exact Keeps.refl _ _
    | with_reducible apply State.sramFailed_keeps
    | with_reducible apply State.sramCorrected_keeps
    | split)

/-! ### Machine/MemOps.lean -/

theorem State.markPage_keeps {M : Nat} {s t : State} {a1 : _}
    (hM : 64 &&& M = 64) (h : Keeps M s t) : Keeps M s (State.markPage t a1) := by
  unfold State.markPage
  try dsimp only
  repeat' (first
    | with_reducible assumption
    | with_reducible exact Keeps.refl _ _
    | with_reducible apply State.updSlice_keeps
    | split)

theorem State.snapKeep_keeps {M : Nat} {s t : State} {a1 : _}
    (hM : 64 &&& M = 64) (h : Keeps M s t) : Keeps M s (State.snapKeep t a1) := by
  unfold State.snapKeep
  try dsimp only
  repeat' (first
    | with_reducible assumption
    | with_reducible exact Keeps.refl _ _
    | with_reducible apply State.updSlice_keeps)

theorem State.forward_keeps {M : Nat} {s t : State} {a1 : _} {a2 : _}
    (hM : 4456452 &&& M = 4456452) (h : Keeps M s t) : Keeps M s (State.forward t a1 a2).1 := by
  unfold State.forward
  try dsimp only
  repeat' (first
    | with_reducible assumption
    | with_reducible exact Keeps.refl _ _
    | with_reducible apply State.halPush_keeps
    | split)

theorem State.queueDram_keeps {M : Nat} {s t : State} {a1 : _} {a2 : _} {a3 : _}
    (hM : 20971712 &&& M = 20971712) (h : Keeps M s t) : Keeps M s (State.queueDram t a1 a2 a3) := by
  unfold State.queueDram
  try dsimp only
  repeat' (first
    | with_reducible assumption
    | with_reducible exact Keeps.refl _ _
    | ((with_reducible refine Keeps.subMask hM ?_); exact rfl)
    | with_reducible apply State.wakeSlice_keeps
    | with_reducible apply State.updChan_keeps
    | with_reducible exact ChanSt.wf_wipe _ _ (by assumption)
    | with_reducible exact ChanSt.wf_setLine _ _ _ (by assumption)
    | with_reducible exact Tbl.wf_set _ _ (by assumption)
    | with_reducible exact Tbl.wf_filter _ (by assumption)
    | with_reducible exact Tbl.wf_nil _
    | with_reducible exact State.memOk_chan (by assumption) _
    | split
    | with_reducible refine Keeps.fst ‹_ = (_, _)› ?_
    | intro _)

theorem State.storeLine_keeps {M : Nat} {s t : State} {a1 : _} {a2 : _} {a3 : _}
    (hM : 2169241828 &&& M = 2169241828) (h : Keeps M s t) : Keeps M s (State.storeLine t a1 a2 a3).1 := by
  unfold State.storeLine
  try dsimp only
  repeat' (first
    | with_reducible assumption
    | with_reducible exact Keeps.refl _ _
    | ((with_reducible refine Keeps.subMask hM ?_); exact rfl)
    | with_reducible apply State.markPage_keeps
    | with_reducible apply State.setStored_keeps
    | with_reducible apply State.snapKeep_keeps
    | with_reducible apply State.count_keeps
    | with_reducible apply State.markWritten_keeps
    | with_reducible apply State.forward_keeps
    | with_reducible apply State.queueDram_keeps)

theorem State.writePlain_keeps {M : Nat} {s t : State} {a1 : _} {a2 : _} {a3 : _} {a4 : _}
    (hM : 2169241828 &&& M = 2169241828) (h : Keeps M s t) : Keeps M s (State.writePlain t a1 a2 a3 a4).1 := by
  unfold State.writePlain
  try dsimp only
  repeat' (first
    | with_reducible assumption
    | with_reducible exact Keeps.refl _ _
    | with_reducible apply State.storeLine_keeps)

theorem State.noteUncorrectable_keeps {M : Nat} {s t : State} {a1 : _} {a2 : _} {a3 : _}
    (hM : 2152202440 &&& M = 2152202440) (h : Keeps M s t) : Keeps M s (State.noteUncorrectable t a1 a2 a3) := by
  unfold State.noteUncorrectable
  try dsimp only
  repeat' (first
    | with_reducible assumption
    | with_reducible exact Keeps.refl _ _
    | ((with_reducible refine Keeps.subMask hM ?_); exact rfl)
    | with_reducible apply State.count_keeps
    | with_reducible apply State.setAt_keeps
    | with_reducible apply State.updChan_keeps
    | with_reducible apply State.logError_keeps
    | with_reducible exact ChanSt.wf_wipe _ _ (by assumption)
    | with_reducible exact ChanSt.wf_setLine _ _ _ (by assumption)
    | with_reducible exact Tbl.wf_set _ _ (by assumption)
    | with_reducible exact Tbl.wf_filter _ (by assumption)
    | with_reducible exact Tbl.wf_nil _
    | with_reducible exact State.memOk_chan (by assumption) _
    | split
    | with_reducible refine Keeps.fst ‹_ = (_, _)› ?_
    | intro _)

theorem State.maintain_keeps {M : Nat} {s t : State} {a1 : _} {a2 : _}
    (hM : 20971712 &&& M = 20971712) (h : Keeps M s t) : Keeps M s (State.maintain t a1 a2) := by
  unfold State.maintain
  try dsimp only
  repeat' (first
    | with_reducible assumption
    | with_reducible exact Keeps.refl _ _
    | ((with_reducible refine Keeps.subMask hM ?_); exact rfl)
    | with_reducible apply State.pipePush_keeps
    | with_reducible apply State.updChan_keeps
    | with_reducible exact ChanSt.wf_wipe _ _ (by assumption)
    | with_reducible exact ChanSt.wf_setLine _ _ _ (by assumption)
    | with_reducible exact Tbl.wf_set _ _ (by assumption)
    | with_reducible exact Tbl.wf_filter _ (by assumption)
    | with_reducible exact Tbl.wf_nil _
    | with_reducible exact State.memOk_chan (by assumption) _
    | split
    | with_reducible refine Keeps.fst ‹_ = (_, _)› ?_
    | intro _)

theorem State.hardFault_keeps {M : Nat} {s t : State} {a1 : _} {a2 : _} {a3 : _} {a4 : _}
    (hM : 21496008 &&& M = 21496008) (h : Keeps M s t) : Keeps M s (State.hardFault t a1 a2 a3 a4) := by
  unfold State.hardFault
  try dsimp only
  repeat' (first
    | with_reducible assumption
    | with_reducible exact Keeps.refl _ _
    | ((with_reducible refine Keeps.subMask hM ?_); exact rfl)
    | with_reducible apply State.updChan_keeps
    | with_reducible apply State.logError_keeps
    | with_reducible apply State.maintain_keeps
    | with_reducible exact ChanSt.wf_wipe _ _ (by assumption)
    | with_reducible exact ChanSt.wf_setLine _ _ _ (by assumption)
    | with_reducible exact Tbl.wf_set _ _ (by assumption)
    | with_reducible exact Tbl.wf_filter _ (by assumption)
    | with_reducible exact Tbl.wf_nil _
    | with_reducible exact State.memOk_chan (by assumption) _
    | split
    | with_reducible refine Keeps.fst ‹_ = (_, _)› ?_
    | intro _)

theorem State.verify_keeps {M : Nat} {s t : State} {a1 : _} {a2 : _} {a3 : _} {a4 : _}
    (hM : 21496008 &&& M = 21496008) (h : Keeps M s t) : Keeps M s (State.verify t a1 a2 a3 a4) := by
  unfold State.verify
  try dsimp only
  repeat' (first
    | with_reducible assumption
    | with_reducible exact Keeps.refl _ _
    | with_reducible apply State.hardFault_keeps
    | split)

theorem State.noteCorrected_keeps {M : Nat} {s t : State} {a1 : _} {a2 : _} {a3 : _} {a4 : _}
    (hM : 2168979656 &&& M = 2168979656) (h : Keeps M s t) : Keeps M s (State.noteCorrected t a1 a2 a3 a4) := by
  unfold State.noteCorrected
  try dsimp only
  repeat' (first
    | with_reducible assumption
    | with_reducible exact Keeps.refl _ _
    | ((with_reducible refine Keeps.subMask hM ?_); exact rfl)
    | with_reducible apply State.count_keeps
    | with_reducible apply State.verify_keeps
    | with_reducible apply State.logError_keeps
    | with_reducible apply State.setAt_keeps
    | split)

theorem State.note_keeps {M : Nat} {s t : State} {a1 : _} {a2 : _} {a3 : _}
    (hM : 2168979656 &&& M = 2168979656) (h : Keeps M s t) : Keeps M s (State.note t a1 a2 a3) := by
  unfold State.note
  try dsimp only
  repeat' (first
    | with_reducible assumption
    | with_reducible exact Keeps.refl _ _
    | ((with_reducible refine Keeps.subMask hM ?_); exact rfl)
    | with_reducible apply State.noteUncorrectable_keeps
    | with_reducible apply State.count_keeps
    | with_reducible apply State.noteCorrected_keeps
    | split)

theorem State.readLine_keeps {M : Nat} {s t : State} {a1 : _} {a2 : _} {a3 : _}
    (hM : 2168979656 &&& M = 2168979656) (h : Keeps M s t) : Keeps M s (State.readLine t a1 a2 a3).1 := by
  unfold State.readLine
  try dsimp only
  repeat' (first
    | with_reducible assumption
    | with_reducible exact Keeps.refl _ _
    | ((with_reducible refine Keeps.subMask hM ?_); exact rfl)
    | with_reducible apply State.queueDram_keeps
    | with_reducible apply State.count_keeps
    | with_reducible apply State.note_keeps)

theorem State.modifyPlain_keeps {M : Nat} {s t : State} {a1 : _} {a2 : _} {a3 : _} {a4 : _} {a5 : _}
    (hM : 2169241836 &&& M = 2169241836) (h : Keeps M s t) : Keeps M s (State.modifyPlain t a1 a2 a3 a4 a5).1 := by
  unfold State.modifyPlain
  try dsimp only
  repeat' (first
    | with_reducible assumption
    | with_reducible exact Keeps.refl _ _
    | ((with_reducible refine Keeps.subMask hM ?_); exact rfl)
    | with_reducible apply State.readLine_keeps
    | with_reducible apply State.storeLine_keeps
    | split)

theorem State.poisonAt_keeps {M : Nat} {s t : State} {a1 : _} {a2 : _}
    (hM : 2169241828 &&& M = 2169241828) (h : Keeps M s t) : Keeps M s (State.poisonAt t a1 a2).1 := by
  unfold State.poisonAt
  try dsimp only
  repeat' (first
    | with_reducible assumption
    | with_reducible exact Keeps.refl _ _
    | with_reducible apply State.storeLine_keeps)

theorem State.readPlain_keeps {M : Nat} {s t : State} {a1 : _} {a2 : _} {a3 : _} {a4 : _}
    (hM : 2168979656 &&& M = 2168979656) (h : Keeps M s t) : Keeps M s (State.readPlain t a1 a2 a3 a4).1 := by
  unfold State.readPlain
  try dsimp only
  repeat' (first
    | with_reducible assumption
    | with_reducible exact Keeps.refl _ _
    | with_reducible apply State.readLine_keeps
    | split)

theorem State.touch_keeps {M : Nat} {s t : State} {a1 : _}
    (hM : 64 &&& M = 64) (h : Keeps M s t) : Keeps M s (State.touch t a1) := by
  unfold State.touch
  try dsimp only
  repeat' (first
    | with_reducible assumption
    | with_reducible exact Keeps.refl _ _
    | with_reducible apply State.updSlice_keeps
    | split)

theorem State.repin_keeps {M : Nat} {s t : State} {a1 : _}
    (hM : 64 &&& M = 64) (h : Keeps M s t) : Keeps M s (State.repin t a1) := by
  unfold State.repin
  try dsimp only
  repeat' (first
    | with_reducible assumption
    | with_reducible exact Keeps.refl _ _
    | with_reducible apply State.updSlice_keeps
    | with_reducible refine Keeps.foldl ?_ _ ?_
    | with_reducible refine Keeps.foldl_fst ?_ _ ?_
    | with_reducible refine Keeps.foldl_snd ?_ _ ?_
    | split
    | with_reducible refine Keeps.fst ‹_ = (_, _)› ?_
    | intro _)

/-! ### Machine/RegionOps.lean -/

theorem State.updRegion_keeps {M : Nat} {s t : State} {a1 : _} {a2 : _} {a3 : _}
    (hM : 64 &&& M = 64) (h : Keeps M s t) : Keeps M s (State.updRegion t a1 a2 a3) := by
  unfold State.updRegion
  try dsimp only
  repeat' (first
    | with_reducible assumption
    | with_reducible exact Keeps.refl _ _
    | with_reducible apply State.updSlice_keeps)

theorem State.accStraddle_keeps {M : Nat} {s t : State} {a1 : _} {a2 : _} {a3 : _} {a4 : _} {a5 : _} {a6 : _} {a7 : _} {a8 : _}
    (hM : 2169241836 &&& M = 2169241836) (h : Keeps M s t) : Keeps M s (State.accStraddle t a1 a2 a3 a4 a5 a6 a7 a8) := by
  unfold State.accStraddle
  try dsimp only
  repeat' (first
    | with_reducible assumption
    | with_reducible exact Keeps.refl _ _
    | ((with_reducible refine Keeps.subMask hM ?_); exact rfl)
    | with_reducible apply State.readLine_keeps
    | with_reducible apply State.modifyPlain_keeps
    | with_reducible apply State.updRegion_keeps)

theorem State.closeByCount_keeps {M : Nat} {s t : State} {a1 : _} {a2 : _}
    (hM : 1088 &&& M = 1088) (h : Keeps M s t) : Keeps M s (State.closeByCount t a1 a2) := by
  unfold State.closeByCount
  try dsimp only
  repeat' (first
    | with_reducible assumption
    | with_reducible exact Keeps.refl _ _
    | ((with_reducible refine Keeps.subMask hM ?_); exact rfl)
    | with_reducible apply State.updRegion_keeps
    | with_reducible apply State.updBarrow_keeps
    | split)

theorem State.accumulate_keeps {M : Nat} {s t : State} {a1 : _} {a2 : _} {a3 : _} {a4 : _} {a5 : _} {a6 : _} {a7 : _}
    (hM : 2169242860 &&& M = 2169242860) (h : Keeps M s t) : Keeps M s (State.accumulate t a1 a2 a3 a4 a5 a6 a7) := by
  unfold State.accumulate
  try dsimp only
  repeat' (first
    | with_reducible assumption
    | with_reducible exact Keeps.refl _ _
    | ((with_reducible refine Keeps.subMask hM ?_); exact rfl)
    | with_reducible apply State.accStraddle_keeps
    | with_reducible apply State.modifyPlain_keeps
    | with_reducible apply State.updRegion_keeps
    | with_reducible apply State.closeByCount_keeps
    | with_reducible apply State.count_keeps
    | with_reducible refine Keeps.foldl ?_ _ ?_
    | with_reducible refine Keeps.foldl_fst ?_ _ ?_
    | with_reducible refine Keeps.foldl_snd ?_ _ ?_
    | split
    | with_reducible refine Keeps.fst ‹_ = (_, _)› ?_
    | intro _)

theorem State.stickReads_keeps {M : Nat} {s t : State} {a1 : _}
    (hM : 64 &&& M = 64) (h : Keeps M s t) : Keeps M s (State.stickReads t a1) := by
  unfold State.stickReads
  try dsimp only
  repeat' (first
    | with_reducible assumption
    | with_reducible exact Keeps.refl _ _
    | with_reducible apply State.updRegion_keeps
    | with_reducible refine Keeps.foldl ?_ _ ?_
    | with_reducible refine Keeps.foldl_fst ?_ _ ?_
    | with_reducible refine Keeps.foldl_snd ?_ _ ?_
    | split
    | with_reducible refine Keeps.fst ‹_ = (_, _)› ?_
    | intro _)

theorem State.queueLaunch_keeps {M : Nat} {s t : State} {a1 : _} {a2 : _} {a3 : _} {a4 : _}
    (hM : 4195328 &&& M = 4195328) (h : Keeps M s t) : Keeps M s (State.queueLaunch t a1 a2 a3 a4).1 := by
  unfold State.queueLaunch
  try dsimp only
  repeat' (first
    | with_reducible assumption
    | with_reducible exact Keeps.refl _ _
    | ((with_reducible refine Keeps.subMask hM ?_); exact rfl)
    | with_reducible apply State.updBarrow_keeps
    | with_reducible apply State.count_keeps
    | with_reducible refine Keeps.foldl ?_ _ ?_
    | with_reducible refine Keeps.foldl_fst ?_ _ ?_
    | with_reducible refine Keeps.foldl_snd ?_ _ ?_
    | split
    | with_reducible refine Keeps.fst ‹_ = (_, _)› ?_
    | intro _)

theorem State.triggerLaunch_keeps {M : Nat} {s t : State} {a1 : _} {a2 : _}
    (hM : 4195328 &&& M = 4195328) (h : Keeps M s t) : Keeps M s (State.triggerLaunch t a1 a2).1 := by
  unfold State.triggerLaunch
  try dsimp only
  repeat' (first
    | with_reducible assumption
    | with_reducible exact Keeps.refl _ _
    | ((with_reducible refine Keeps.subMask hM ?_); exact rfl)
    | with_reducible apply State.count_keeps
    | with_reducible apply State.queueLaunch_keeps
    | with_reducible apply State.updBarrow_keeps
    | split
    | with_reducible refine Keeps.fst ‹_ = (_, _)› ?_)

theorem State.reduceWrite_keeps {M : Nat} {s t : State} {a1 : _}
    (hM : 2169242860 &&& M = 2169242860) (h : Keeps M s t) : Keeps M s (State.reduceWrite t a1).1 := by
  unfold State.reduceWrite
  try dsimp only
  repeat' (first
    | with_reducible assumption
    | with_reducible exact Keeps.refl _ _
    | ((with_reducible refine Keeps.subMask hM ?_); exact rfl)
    | with_reducible apply State.count_keeps
    | with_reducible apply State.readLine_keeps
    | with_reducible apply State.accumulate_keeps
    | split)

theorem State.closeRegion_keeps {M : Nat} {s t : State} {a1 : _} {a2 : _}
    (hM : 64 &&& M = 64) (h : Keeps M s t) : Keeps M s (State.closeRegion t a1 a2) := by
  unfold State.closeRegion
  try dsimp only
  repeat' (first
    | with_reducible assumption
    | with_reducible exact Keeps.refl _ _
    | with_reducible apply State.updRegion_keeps
    | with_reducible refine Keeps.foldl ?_ _ ?_
    | with_reducible refine Keeps.foldl_fst ?_ _ ?_
    | with_reducible refine Keeps.foldl_snd ?_ _ ?_
    | split
    | with_reducible refine Keeps.fst ‹_ = (_, _)› ?_
    | intro _)

/-! ### Machine/BarrowOps.lean -/

theorem State.ringWrite_keeps {M : Nat} {s t : State} {a1 : _} {a2 : _} {a3 : _} {a4 : _} {a5 : _} {a6 : _}
    (hM : 2169241828 &&& M = 2169241828) (h : Keeps M s t) : Keeps M s (State.ringWrite t a1 a2 a3 a4 a5 a6).1 := by
  unfold State.ringWrite
  try dsimp only
  repeat' (first
    | with_reducible assumption
    | with_reducible exact Keeps.refl _ _
    | with_reducible apply State.writePlain_keeps
    | split)

theorem State.sourceLine_keeps {M : Nat} {s t : State} {a1 : _} {a2 : _} {a3 : _} {a4 : _}
    (hM : 2168979656 &&& M = 2168979656) (h : Keeps M s t) : Keeps M s (State.sourceLine t a1 a2 a3 a4).1 := by
  unfold State.sourceLine
  try dsimp only
  repeat' (first
    | with_reducible assumption
    | with_reducible exact Keeps.refl _ _
    | with_reducible apply State.readPlain_keeps
    | split)

theorem State.remote_keeps {M : Nat} {s t : State} {a1 : _} {a2 : _} {a3 : _}
    (hM : 65536 &&& M = 65536) (h : Keeps M s t) : Keeps M s (State.remote t a1 a2 a3) := by
  unfold State.remote
  try dsimp only
  repeat' (first
    | with_reducible assumption
    | with_reducible exact Keeps.refl _ _
    | (dsimp only [keepsMk]; (with_reducible apply KeepsMk.put ?_ rfl rfl) <;> first | exact Or.inl (Keeps.subBit hM rfl) | exact Or.inr rfl | exact id | skip))

theorem State.fetchLines_keeps {M : Nat} {s t : State} {a1 : _} {a2 : _} {a3 : _} {a4 : _} {a5 : _}
    (hM : 2169045192 &&& M = 2169045192) (h : Keeps M s t) : Keeps M s (State.fetchLines t a1 a2 a3 a4 a5).1 := by
  unfold State.fetchLines
  try dsimp only
  repeat' (first
    | with_reducible assumption
    | with_reducible exact Keeps.refl _ _
    | ((with_reducible refine Keeps.subMask hM ?_); exact rfl)
    | with_reducible apply State.remote_keeps
    | with_reducible apply State.sourceLine_keeps
    | with_reducible refine Keeps.foldl ?_ _ ?_
    | with_reducible refine Keeps.foldl_fst ?_ _ ?_
    | with_reducible refine Keeps.foldl_snd ?_ _ ?_
    | split
    | with_reducible refine Keeps.fst ‹_ = (_, _)› ?_
    | intro _)

theorem State.countElems_keeps {M : Nat} {s t : State} {a1 : _} {a2 : _}
    (hM : 4194304 &&& M = 4194304) (h : Keeps M s t) : Keeps M s (State.countElems t a1 a2) := by
  unfold State.countElems
  try dsimp only
  repeat' (first
    | with_reducible assumption
    | with_reducible exact Keeps.refl _ _
    | with_reducible apply State.count_keeps)

theorem State.writeOut_keeps {M : Nat} {s t : State} {a1 : _} {a2 : _} {a3 : _}
    (hM : 2169241836 &&& M = 2169241836) (h : Keeps M s t) : Keeps M s (State.writeOut t a1 a2 a3).1 := by
  unfold State.writeOut
  try dsimp only
  repeat' (first
    | with_reducible assumption
    | with_reducible exact Keeps.refl _ _
    | ((with_reducible refine Keeps.subMask hM ?_); exact rfl)
    | with_reducible apply State.poisonAt_keeps
    | with_reducible apply State.writePlain_keeps
    | with_reducible apply State.modifyPlain_keeps
    | split)

theorem State.writeOuts_keeps {M : Nat} {s t : State} {a1 : _} {a2 : _}
    (hM : 2169241836 &&& M = 2169241836) (h : Keeps M s t) : Keeps M s (State.writeOuts t a1 a2).1 := by
  induction a2 generalizing t a1 with
  | nil =>
    unfold State.writeOuts
    try dsimp only
    repeat' (first
      | with_reducible assumption)
  | cons x l ih =>
    unfold State.writeOuts
    try dsimp only
    repeat' (first
      | with_reducible assumption
      | with_reducible exact Keeps.refl _ _
      | with_reducible apply ih
      | with_reducible apply State.writeOut_keeps
      | split)

theorem State.updMember_keeps {M : Nat} {s t : State} {a1 : _} {a2 : _} {a3 : _}
    (hM : 1024 &&& M = 1024) (h : Keeps M s t) : Keeps M s (State.updMember t a1 a2 a3) := by
  unfold State.updMember
  try dsimp only
  repeat' (first
    | with_reducible assumption
    | with_reducible exact Keeps.refl _ _
    | with_reducible apply State.updBarrow_keeps)

theorem State.finishWrites_keeps {M : Nat} {s t : State} {a1 : _} {a2 : _} {a3 : _}
    (hM : 2169308396 &&& M = 2169308396) (h : Keeps M s t) : Keeps M s (State.finishWrites t a1 a2 a3).1 := by
  unfold State.finishWrites
  try dsimp only
  repeat' (first
    | with_reducible assumption
    | with_reducible exact Keeps.refl _ _
    | ((with_reducible refine Keeps.subMask hM ?_); exact rfl)
    | with_reducible apply State.remote_keeps
    | with_reducible apply State.writeOuts_keeps
    | with_reducible apply State.updMember_keeps)

theorem State.setFlags_keeps {M : Nat} {s t : State} {a1 : _} {a2 : _}
    (hM : 1024 &&& M = 1024) (h : Keeps M s t) : Keeps M s (State.setFlags t a1 a2) := by
  unfold State.setFlags
  try dsimp only
  repeat' (first
    | with_reducible assumption
    | with_reducible exact Keeps.refl _ _
    | with_reducible apply State.updMember_keeps)

theorem State.closeRead_keeps {M : Nat} {s t : State} {a1 : _} {a2 : _} {a3 : _}
    (hM : 1088 &&& M = 1088) (h : Keeps M s t) : Keeps M s (State.closeRead t a1 a2 a3) := by
  unfold State.closeRead
  try dsimp only
  repeat' (first
    | with_reducible assumption
    | with_reducible exact Keeps.refl _ _
    | ((with_reducible refine Keeps.subMask hM ?_); exact rfl)
    | with_reducible apply State.updRegion_keeps
    | with_reducible apply State.setFlags_keeps
    | with_reducible apply State.closeRegion_keeps
    | with_reducible refine Keeps.foldl ?_ _ ?_
    | with_reducible refine Keeps.foldl_fst ?_ _ ?_
    | with_reducible refine Keeps.foldl_snd ?_ _ ?_
    | split
    | with_reducible refine Keeps.fst ‹_ = (_, _)› ?_
    | intro _)

theorem State.countRow_keeps {M : Nat} {s t : State} {a1 : _} {a2 : _}
    (hM : 4195328 &&& M = 4195328) (h : Keeps M s t) : Keeps M s (State.countRow t a1 a2) := by
  unfold State.countRow
  try dsimp only
  repeat' (first
    | with_reducible assumption
    | with_reducible exact Keeps.refl _ _
    | ((with_reducible refine Keeps.subMask hM ?_); exact rfl)
    | with_reducible apply State.count_keeps
    | with_reducible apply State.updMember_keeps)

theorem State.countUses_keeps {M : Nat} {s t : State} {a1 : _} {a2 : _}
    (hM : 4194304 &&& M = 4194304) (h : Keeps M s t) : Keeps M s (State.countUses t a1 a2) := by
  unfold State.countUses
  try dsimp only
  repeat' (first
    | with_reducible assumption
    | with_reducible exact Keeps.refl _ _
    | with_reducible apply State.count_keeps
    | with_reducible refine Keeps.foldl ?_ _ ?_
    | with_reducible refine Keeps.foldl_fst ?_ _ ?_
    | with_reducible refine Keeps.foldl_snd ?_ _ ?_
    | split
    | with_reducible refine Keeps.fst ‹_ = (_, _)› ?_
    | intro _)

theorem State.stopMember_keeps {M : Nat} {s t : State} {a1 : _} {a2 : _} {a3 : _} {a4 : _}
    (hM : 1024 &&& M = 1024) (h : Keeps M s t) : Keeps M s (State.stopMember t a1 a2 a3 a4) := by
  unfold State.stopMember
  try dsimp only
  repeat' (first
    | with_reducible assumption
    | with_reducible exact Keeps.refl _ _
    | with_reducible apply State.updBarrow_keeps)

theorem State.goOn_keeps {M : Nat} {s t : State} {a1 : _} {a2 : _} {a3 : _} {a4 : _} {a5 : _}
    (hM : 1024 &&& M = 1024) (h : Keeps M s t) : Keeps M s (State.goOn t a1 a2 a3 a4 a5) := by
  unfold State.goOn
  try dsimp only
  repeat' (first
    | with_reducible assumption
    | with_reducible exact Keeps.refl _ _
    | with_reducible apply State.updMember_keeps)

theorem State.endDesc_keeps {M : Nat} {s t : State} {a1 : _} {a2 : _} {a3 : _}
    (hM : 1024 &&& M = 1024) (h2 : KernelKeeps M a2) (h : Keeps M s t) : Keeps M s (State.endDesc t a1 a2 a3) := by
  unfold State.endDesc
  try dsimp only
  repeat' (first
    | with_reducible assumption
    | with_reducible exact Keeps.refl _ _
    | with_reducible apply State.updMember_keeps
    | with_reducible apply State.stopMember_keeps
    | with_reducible apply State.goOn_keeps
    | with_reducible exact h2
    | with_reducible refine Keeps.after ?_ (h2.enter _ _)
    | with_reducible refine Keeps.after ?_ (h2.page _ _)
    | with_reducible refine Keeps.after ?_ (h2.leave _ _)
    | split)

theorem State.runPage_keeps {M : Nat} {s t : State} {a1 : _} {a2 : _}
    (hM : 21496904 &&& M = 21496904) (h2 : KernelKeeps M a2) (h : Keeps M s t) : Keeps M s (State.runPage t a1 a2) := by
  unfold State.runPage
  try dsimp only
  repeat' (first
    | with_reducible assumption
    | with_reducible exact Keeps.refl _ _
    | ((with_reducible refine Keeps.subMask hM ?_); exact rfl)
    | with_reducible apply State.endDesc_keeps
    | with_reducible apply State.sramRead_keeps
    | with_reducible apply State.stopMember_keeps
    | with_reducible apply State.pipePush_keeps
    | with_reducible apply State.updMember_keeps
    | with_reducible exact h2
    | with_reducible refine Keeps.after ?_ (h2.enter _ _)
    | with_reducible refine Keeps.after ?_ (h2.page _ _)
    | with_reducible refine Keeps.after ?_ (h2.leave _ _)
    | split)

theorem State.startDesc_keeps {M : Nat} {s t : State} {a1 : _} {a2 : _} {a3 : _}
    (hM : 21496904 &&& M = 21496904) (h3 : KernelKeeps M a3) (h : Keeps M s t) : Keeps M s (State.startDesc t a1 a2 a3) := by
  unfold State.startDesc
  try dsimp only
  repeat' (first
    | with_reducible assumption
    | with_reducible exact Keeps.refl _ _
    | ((with_reducible refine Keeps.subMask hM ?_); exact rfl)
    | with_reducible apply State.goOn_keeps
    | with_reducible apply State.countRow_keeps
    | with_reducible apply State.stopMember_keeps
    | with_reducible apply State.count_keeps
    | with_reducible apply State.updMember_keeps
    | with_reducible apply State.countUses_keeps
    | with_reducible apply State.runPage_keeps
    | with_reducible exact h3
    | with_reducible refine Keeps.after ?_ (h3.enter _ _)
    | with_reducible refine Keeps.after ?_ (h3.page _ _)
    | with_reducible refine Keeps.after ?_ (h3.leave _ _)
    | split)

theorem State.descriptor_keeps {M : Nat} {s t : State} {a1 : _} {a2 : _} {a3 : _} {a4 : _}
    (hM : 21496904 &&& M = 21496904) (h4 : KernelKeeps M a4) (h : Keeps M s t) : Keeps M s (State.descriptor t a1 a2 a3 a4) := by
  unfold State.descriptor
  try dsimp only
  repeat' (first
    | with_reducible assumption
    | with_reducible exact Keeps.refl _ _
    | ((with_reducible refine Keeps.subMask hM ?_); exact rfl)
    | with_reducible apply State.runPage_keeps
    | with_reducible apply State.sramRead_keeps
    | with_reducible apply State.stopMember_keeps
    | with_reducible apply State.startDesc_keeps
    | with_reducible exact h4
    | with_reducible refine Keeps.after ?_ (h4.enter _ _)
    | with_reducible refine Keeps.after ?_ (h4.page _ _)
    | with_reducible refine Keeps.after ?_ (h4.leave _ _)
    | split)

/-! ### Machine/Dict.lean -/

theorem State.setReg_keeps {M : Nat} {s t : State} {a1 : _} {a2 : _}
    (hM : 2 &&& M = 2) (h : Keeps M s t) : Keeps M s (State.setReg t a1 a2) := by
  unfold State.setReg
  try dsimp only
  repeat' (first
    | with_reducible assumption
    | with_reducible exact Keeps.refl _ _
    | (dsimp only [keepsMk]; (with_reducible apply KeepsMk.put ?_ rfl rfl) <;> first | exact Or.inl (Keeps.subBit hM rfl) | exact Or.inr rfl | exact id | skip))

/-! ### Machine/MgmtOps.lean -/

theorem storeEntry_keeps {M : Nat} {s t : State} {a1 : _} {a2 : _}
    (hM : 262146 &&& M = 262146) (h : Keeps M s t) : Keeps M s (storeEntry a1 a2 t).1 := by
  unfold storeEntry
  try dsimp only
  repeat' (first
    | with_reducible assumption
    | with_reducible exact Keeps.refl _ _
    | ((with_reducible refine Keeps.subMask hM ?_); exact rfl)
    | with_reducible apply State.setReg_keeps
    | with_reducible apply State.rowChanged_keeps
    | split)

theorem State.keep_keeps {M : Nat} {s t : State} {a1 : _} {a2 : _}
    (hM : 2097152 &&& M = 2097152) (h : Keeps M s t) : Keeps M s (State.keep t a1 a2) := by
  unfold State.keep
  try dsimp only
  repeat' (first
    | with_reducible assumption
    | with_reducible exact Keeps.refl _ _
    | (dsimp only [keepsMk]; (with_reducible apply KeepsMk.put ?_ rfl rfl) <;> first | exact Or.inl (Keeps.subBit hM rfl) | exact Or.inr rfl | exact id | skip))

theorem State.markDirty_keeps {M : Nat} {s t : State} {a1 : _}
    (hM : 2097152 &&& M = 2097152) (h : Keeps M s t) : Keeps M s (State.markDirty t a1) := by
  unfold State.markDirty
  try dsimp only
  repeat' (first
    | with_reducible assumption
    | with_reducible exact Keeps.refl _ _
    | (dsimp only [keepsMk]; (with_reducible apply KeepsMk.put ?_ rfl rfl) <;> first | exact Or.inl (Keeps.subBit hM rfl) | exact Or.inr rfl | exact id | skip)
    | split)

theorem State.markPersist_keeps {M : Nat} {s t : State} {a1 : _} {a2 : _}
    (hM : 2097152 &&& M = 2097152) (h : Keeps M s t) : Keeps M s (State.markPersist t a1 a2) := by
  unfold State.markPersist
  try dsimp only
  repeat' (first
    | with_reducible assumption
    | with_reducible exact Keeps.refl _ _
    | with_reducible apply State.markDirty_keeps
    | split)

theorem State.sendMgmt_keeps {M : Nat} {s t : State} {a1 : _} {a2 : _}
    (hM : 4259852 &&& M = 4259852) (h : Keeps M s t) : Keeps M s (State.sendMgmt t a1 a2) := by
  unfold State.sendMgmt
  try dsimp only
  repeat' (first
    | with_reducible assumption
    | with_reducible exact Keeps.refl _ _
    | ((with_reducible refine Keeps.subMask hM ?_); exact rfl)
    | with_reducible apply State.spray_keeps
    | with_reducible apply State.wire_keeps
    | split)

theorem State.mgmtFrame_keeps {M : Nat} {s t : State} {a1 : _} {a2 : _} {a3 : _}
    (hM : 7929868 &&& M = 7929868) (h3 : ∀ t, Keeps M t (a3 t).1) (h : Keeps M s t) : Keeps M s (State.mgmtFrame t a1 a2 a3) := by
  unfold State.mgmtFrame
  try dsimp only
  repeat' (first
    | with_reducible assumption
    | with_reducible exact Keeps.refl _ _
    | ((with_reducible refine Keeps.subMask hM ?_); exact rfl)
    | with_reducible refine Keeps.after ?_ (h3 ..)
    | with_reducible apply State.count_keeps
    | with_reducible apply State.sendMgmt_keeps
    | with_reducible apply State.ledger_keeps
    | with_reducible apply State.keep_keeps
    | with_reducible apply State.markPersist_keeps
    | split)

theorem State.write_keeps {M : Nat} {s t : State} {a1 : _} {a2 : _} {a3 : _} {a4 : _} {a5 : _}
    (hM : 7929868 &&& M = 7929868) (h5 : ∀ v t, Keeps M t (a5 v t).1) (h : Keeps M s t) : Keeps M s (State.write t a1 a2 a3 a4 a5) := by
  unfold State.write
  try dsimp only
  repeat' (first
    | with_reducible assumption
    | with_reducible exact Keeps.refl _ _
    | with_reducible refine Keeps.after ?_ (h5 ..)
    | with_reducible apply State.mgmtFrame_keeps
    | split
    | with_reducible refine Keeps.fst ‹_ = (_, _)› ?_
    | intro _)

theorem writeRows_keeps {M : Nat} {s t : State} {a1 : _} {a2 : _} {a3 : _}
    (hM : 0 &&& M = 0) (h1 : ∀ r v t, Keeps M t (a1 r v t).1) (h : Keeps M s t) : Keeps M s (writeRows a1 a2 a3 t).1 := by
  induction a3 generalizing t a2 with
  | nil =>
    unfold writeRows
    try dsimp only
    repeat' (first
      | with_reducible assumption)
  | cons x l ih =>
    unfold writeRows
    try dsimp only
    repeat' (first
      | with_reducible assumption
      | with_reducible exact Keeps.refl _ _
      | with_reducible refine Keeps.after ?_ (h1 ..)
      | with_reducible apply ih
      | split
      | with_reducible refine Keeps.fst ‹_ = (_, _)› ?_)

theorem State.writeWindow_keeps {M : Nat} {s t : State} {a1 : _} {a2 : _} {a3 : _} {a4 : _} {a5 : _} {a6 : _}
    (hM : 7929868 &&& M = 7929868) (h6 : ∀ r v t, Keeps M t (a6 r v t).1) (h : Keeps M s t) : Keeps M s (State.writeWindow t a1 a2 a3 a4 a5 a6) := by
  unfold State.writeWindow
  try dsimp only
  repeat' (first
    | with_reducible assumption
    | with_reducible exact Keeps.refl _ _
    | ((with_reducible refine Keeps.subMask hM ?_); exact rfl)
    | with_reducible refine Keeps.after ?_ (h6 ..)
    | with_reducible apply State.mgmtFrame_keeps
    | with_reducible apply writeRows_keeps
    | split
    | with_reducible refine Keeps.fst ‹_ = (_, _)› ?_
    | intro _)

/-! ### Machine/ReqOps.lean -/

theorem State.unitRead_keeps {M : Nat} {s t : State} {a1 : _} {a2 : _}
    (hM : 2168979656 &&& M = 2168979656) (h : Keeps M s t) : Keeps M s (State.unitRead t a1 a2).1 := by
  unfold State.unitRead
  try dsimp only
  repeat' (first
    | with_reducible assumption
    | with_reducible exact Keeps.refl _ _
    | with_reducible apply State.readPlain_keeps)

theorem State.unitWrite_keeps {M : Nat} {s t : State} {a1 : _} {a2 : _} {a3 : _}
    (hM : 2169241828 &&& M = 2169241828) (h : Keeps M s t) : Keeps M s (State.unitWrite t a1 a2 a3).1 := by
  unfold State.unitWrite
  try dsimp only
  repeat' (first
    | with_reducible assumption
    | with_reducible exact Keeps.refl _ _
    | with_reducible apply State.writePlain_keeps
    | split)

theorem State.unitModify_keeps {M : Nat} {s t : State} {a1 : _} {a2 : _} {a3 : _}
    (hM : 2169241836 &&& M = 2169241836) (h : Keeps M s t) : Keeps M s (State.unitModify t a1 a2 a3).1 := by
  unfold State.unitModify
  try dsimp only
  repeat' (first
    | with_reducible assumption
    | with_reducible exact Keeps.refl _ _
    | with_reducible apply State.modifyPlain_keeps
    | split)

theorem State.unitMasked_keeps {M : Nat} {s t : State} {a1 : _}
    (hM : 2169241836 &&& M = 2169241836) (h : Keeps M s t) : Keeps M s (State.unitMasked t a1).1 := by
  unfold State.unitMasked
  try dsimp only
  repeat' (first
    | with_reducible assumption
    | with_reducible exact Keeps.refl _ _
    | with_reducible apply State.unitModify_keeps)

theorem State.unitAtomic_keeps {M : Nat} {s t : State} {a1 : _}
    (hM : 2169241836 &&& M = 2169241836) (h : Keeps M s t) : Keeps M s (State.unitAtomic t a1).1 := by
  unfold State.unitAtomic
  try dsimp only
  repeat' (first
    | with_reducible assumption
    | with_reducible exact Keeps.refl _ _
    | with_reducible apply State.unitModify_keeps)

theorem State.unitWriteBack_keeps {M : Nat} {s t : State} {a1 : _}
    (hM : 2169241836 &&& M = 2169241836) (h : Keeps M s t) : Keeps M s (State.unitWriteBack t a1).1 := by
  unfold State.unitWriteBack
  try dsimp only
  repeat' (first
    | with_reducible assumption
    | with_reducible exact Keeps.refl _ _
    | with_reducible apply State.unitModify_keeps)

theorem State.unitDo_keeps {M : Nat} {s t : State} {a1 : _} {a2 : _}
    (hM : 2169241836 &&& M = 2169241836) (h : Keeps M s t) : Keeps M s (State.unitDo t a1 a2).1 := by
  unfold State.unitDo
  try dsimp only
  repeat' (first
    | with_reducible assumption
    | with_reducible exact Keeps.refl _ _
    | ((with_reducible refine Keeps.subMask hM ?_); exact rfl)
    | with_reducible apply State.unitRead_keeps
    | with_reducible apply State.unitWrite_keeps
    | with_reducible apply State.unitMasked_keeps
    | with_reducible apply State.unitAtomic_keeps
    | with_reducible apply State.unitWriteBack_keeps
    | split)

theorem State.writeBack_keeps {M : Nat} {s t : State} {a1 : _} {a2 : _} {a3 : _}
    (hM : 2169241828 &&& M = 2169241828) (h : Keeps M s t) : Keeps M s (State.writeBack t a1 a2 a3).1 := by
  unfold State.writeBack
  try dsimp only
  repeat' (first
    | with_reducible assumption
    | with_reducible exact Keeps.refl _ _
    | with_reducible apply State.storeLine_keeps
    | split)

theorem State.unitsDo_keeps {M : Nat} {s t : State} {a1 : _} {a2 : _}
    (hM : 2169241836 &&& M = 2169241836) (h : Keeps M s t) : Keeps M s (State.unitsDo t a1 a2).1 := by
  induction a2 generalizing t a1 with
  | nil =>
    unfold State.unitsDo
    try dsimp only
    repeat' (first
      | with_reducible assumption)
  | cons x l ih =>
    unfold State.unitsDo
    try dsimp only
    repeat' (first
      | with_reducible assumption
      | with_reducible exact Keeps.refl _ _
      | with_reducible apply ih
      | with_reducible apply State.unitDo_keeps)

end Sys2Proof.Machine
end

