-- ==== Sys2Proof/Laws/Frame2.lean ====
section
/-! SUPPORT. What each operation may change and that it keeps the memory's canonical form: PairOps, LinkOps, TrackOps, CohOps, PitchOps. -/

set_option linter.unusedTactic false
set_option linter.unreachableTactic false
set_option linter.unusedVariables false

namespace Sys2Proof.Machine

/-! ### Machine/PairOps.lean -/

theorem State.endTrees_keeps {M : Nat} {s t : State}
    (hM : 77888 &&& M = 77888) (h : Keeps M s t) : Keeps M s (State.endTrees t) := by
  unfold State.endTrees
  try dsimp only
  repeat' (first
    | with_reducible assumption
    | with_reducible exact Keeps.refl _ _
    | ((with_reducible refine Keeps.subMask hM ?_); exact rfl)
    | with_reducible apply State.dropPackets_keeps
    | with_reducible refine Keeps.foldl ?_ _ ?_
    | with_reducible refine Keeps.foldl_fst ?_ _ ?_
    | with_reducible refine Keeps.foldl_snd ?_ _ ?_
    | (dsimp only [keepsMk]; (with_reducible apply KeepsMk.put ?_ rfl rfl) <;> first | exact Or.inl (Keeps.subBit hM rfl) | exact Or.inr rfl | exact id | skip))

theorem State.sendEach_keeps {M : Nat} {s t : State} {a1 : _} {a2 : _} {a3 : _}
    (hM : 4194308 &&& M = 4194308) (h : Keeps M s t) : Keeps M s (State.sendEach t a1 a2 a3) := by
  unfold State.sendEach
  try dsimp only
  repeat' (first
    | with_reducible assumption
    | with_reducible exact Keeps.refl _ _
    | with_reducible apply State.transmit_keeps
    | with_reducible refine Keeps.foldl ?_ _ ?_
    | with_reducible refine Keeps.foldl_fst ?_ _ ?_
    | with_reducible refine Keeps.foldl_snd ?_ _ ?_
    | split
    | with_reducible refine Keeps.fst ‹_ = (_, _)› ?_
    | intro _)

theorem State.sendRelinquish_keeps {M : Nat} {s t : State} {a1 : _}
    (hM : 4194308 &&& M = 4194308) (h : Keeps M s t) : Keeps M s (State.sendRelinquish t a1) := by
  unfold State.sendRelinquish
  try dsimp only
  repeat' (first
    | with_reducible assumption
    | with_reducible exact Keeps.refl _ _
    | with_reducible apply State.sendEach_keeps)

theorem State.newRelinquish_keeps {M : Nat} {s t : State} {a1 : _} {a2 : _} {a3 : _}
    (hM : 4534340 &&& M = 4534340) (h : Keeps M s t) : Keeps M s (State.newRelinquish t a1 a2 a3) := by
  unfold State.newRelinquish
  try dsimp only
  repeat' (first
    | with_reducible assumption
    | with_reducible exact Keeps.refl _ _
    | ((with_reducible refine Keeps.subMask hM ?_); exact rfl)
    | with_reducible apply State.endTrees_keeps
    | with_reducible apply State.sendRelinquish_keeps
    | (dsimp only [keepsMk]; (with_reducible apply KeepsMk.put ?_ rfl rfl) <;> first | exact Or.inl (Keeps.subBit hM rfl) | exact Or.inr rfl | exact id | skip)
    | split)

theorem State.relinquishCycle_keeps {M : Nat} {s t : State} {a1 : _}
    (hM : 4534340 &&& M = 4534340) (h : Keeps M s t) : Keeps M s (State.relinquishCycle t a1) := by
  unfold State.relinquishCycle
  try dsimp only
  repeat' (first
    | with_reducible assumption
    | with_reducible exact Keeps.refl _ _
    | with_reducible apply State.newRelinquish_keeps
    | (dsimp only [keepsMk]; (with_reducible apply KeepsMk.put ?_ rfl rfl) <;> first | exact Or.inl (Keeps.subBit hM rfl) | exact Or.inr rfl | exact id | skip)
    | split)

theorem State.endMoveOut_keeps {M : Nat} {s t : State} {a1 : _}
    (hM : 4980746 &&& M = 4980746) (h : Keeps M s t) : Keeps M s (State.endMoveOut t a1) := by
  unfold State.endMoveOut
  try dsimp only
  repeat' (first
    | with_reducible assumption
    | with_reducible exact Keeps.refl _ _
    | ((with_reducible refine Keeps.subMask hM ?_); exact rfl)
    | with_reducible apply State.setReg_keeps
    | with_reducible apply State.crier_keeps
    | (dsimp only [keepsMk]; (with_reducible apply KeepsMk.put ?_ rfl rfl) <;> first | exact Or.inl (Keeps.subBit hM rfl) | exact Or.inr rfl | exact id | skip)
    | split)

theorem State.sendTaken_keeps {M : Nat} {s t : State}
    (hM : 4194308 &&& M = 4194308) (h : Keeps M s t) : Keeps M s (State.sendTaken t) := by
  unfold State.sendTaken
  try dsimp only
  repeat' (first
    | with_reducible assumption
    | with_reducible exact Keeps.refl _ _
    | with_reducible apply State.sendEach_keeps)

theorem State.beginTakeover_keeps {M : Nat} {s t : State} {a1 : _} {a2 : _} {a3 : _} {a4 : _}
    (hM : 4456452 &&& M = 4456452) (h : Keeps M s t) : Keeps M s (State.beginTakeover t a1 a2 a3 a4) := by
  unfold State.beginTakeover
  try dsimp only
  repeat' (first
    | with_reducible assumption
    | with_reducible exact Keeps.refl _ _
    | ((with_reducible refine Keeps.subMask hM ?_); exact rfl)
    | with_reducible apply State.sendTaken_keeps
    | (dsimp only [keepsMk]; (with_reducible apply KeepsMk.put ?_ rfl rfl) <;> first | exact Or.inl (Keeps.subBit hM rfl) | exact Or.inr rfl | exact id | skip)
    | split)

theorem State.takeoverCycle_keeps {M : Nat} {s t : State} {a1 : _} {a2 : _}
    (hM : 4456452 &&& M = 4456452) (h : Keeps M s t) : Keeps M s (State.takeoverCycle t a1 a2) := by
  unfold State.takeoverCycle
  try dsimp only
  repeat' (first
    | with_reducible assumption
    | with_reducible exact Keeps.refl _ _
    | with_reducible apply State.beginTakeover_keeps
    | (dsimp only [keepsMk]; (with_reducible apply KeepsMk.put ?_ rfl rfl) <;> first | exact Or.inl (Keeps.subBit hM rfl) | exact Or.inr rfl | exact id | skip)
    | split)

theorem State.partnerGone_keeps {M : Nat} {s t : State}
    (hM : 4456452 &&& M = 4456452) (h : Keeps M s t) : Keeps M s (State.partnerGone t) := by
  unfold State.partnerGone
  try dsimp only
  repeat' (first
    | with_reducible assumption
    | with_reducible exact Keeps.refl _ _
    | with_reducible apply State.takeoverCycle_keeps
    | split)

theorem State.unfit_keeps {M : Nat} {s t : State} {a1 : _}
    (hM : 4534340 &&& M = 4534340) (h : Keeps M s t) : Keeps M s (State.unfit t a1) := by
  unfold State.unfit
  try dsimp only
  repeat' (first
    | with_reducible assumption
    | with_reducible exact Keeps.refl _ _
    | with_reducible apply State.relinquishCycle_keeps)

/-! ### Machine/LinkOps.lean -/

theorem State.recomputeCaps_keeps {M : Nat} {s t : State} {a1 : _}
    (hM : 541589512 &&& M = 541589512) (h : Keeps M s t) : Keeps M s (State.recomputeCaps t a1) := by
  unfold State.recomputeCaps
  try dsimp only
  repeat' (first
    | with_reducible assumption
    | with_reducible exact Keeps.refl _ _
    | ((with_reducible refine Keeps.subMask hM ?_); exact rfl)
    | with_reducible apply State.updStall_keeps
    | with_reducible apply State.crier_keeps
    | exact Or.inl (Keeps.subBit hM rfl)
    | exact Or.inr fun _ => rfl
    | split)

theorem State.sendHeld_keeps {M : Nat} {s t : State} {a1 : _} {a2 : _}
    (hM : 4268140 &&& M = 4268140) (h : Keeps M s t) : Keeps M s (State.sendHeld t a1 a2) := by
  unfold State.sendHeld
  try dsimp only
  repeat' (first
    | with_reducible assumption
    | with_reducible exact Keeps.refl _ _
    | ((with_reducible refine Keeps.subMask hM ?_); exact rfl)
    | with_reducible apply State.updSlice_keeps
    | with_reducible apply State.discardTrk_keeps
    | with_reducible apply State.sprayEntry_keeps
    | with_reducible apply State.egressPush_keeps
    | split)

theorem State.setLinkBit_keeps {M : Nat} {s t : State} {a1 : _} {a2 : _} {a3 : _}
    (hM : 536870920 &&& M = 536870920) (h : Keeps M s t) : Keeps M s (State.setLinkBit t a1 a2 a3) := by
  unfold State.setLinkBit
  try dsimp only
  repeat' (first
    | with_reducible assumption
    | with_reducible exact Keeps.refl _ _
    | ((with_reducible refine Keeps.subMask hM ?_); exact rfl)
    | with_reducible apply State.updStall_keeps
    | exact Or.inl (Keeps.subBit hM rfl))

theorem State.linkFalls_keeps {M : Nat} {s t : State} {a1 : _} {a2 : _} {a3 : _}
    (hM : 810024974 &&& M = 810024974) (h : Keeps M s t) : Keeps M s (State.linkFalls t a1 a2 a3) := by
  unfold State.linkFalls
  try dsimp only
  repeat' (first
    | with_reducible assumption
    | with_reducible exact Keeps.refl _ _
    | ((with_reducible refine Keeps.subMask hM ?_); exact rfl)
    | with_reducible apply State.updLink_keeps
    | with_reducible apply State.count_keeps
    | with_reducible apply State.setReg_keeps
    | with_reducible apply State.crier_keeps
    | with_reducible apply State.setLinkBit_keeps
    | with_reducible refine Keeps.foldl ?_ _ ?_
    | with_reducible refine Keeps.foldl_fst ?_ _ ?_
    | with_reducible refine Keeps.foldl_snd ?_ _ ?_
    | exact Or.inl (Keeps.subBit hM rfl)
    | exact Or.inr fun _ => rfl
    | split
    | with_reducible refine Keeps.fst ‹_ = (_, _)› ?_
    | intro _)

theorem State.recomputeAll_keeps {M : Nat} {s t : State} {a1 : _}
    (hM : 541589512 &&& M = 541589512) (h : Keeps M s t) : Keeps M s (State.recomputeAll t a1) := by
  induction a1 generalizing t with
  | nil =>
    unfold State.recomputeAll
    try dsimp only
    repeat' (first
      | with_reducible assumption)
  | cons x l ih =>
    unfold State.recomputeAll
    try dsimp only
    repeat' (first
      | with_reducible assumption
      | with_reducible exact Keeps.refl _ _
      | with_reducible apply ih
      | with_reducible apply State.recomputeCaps_keeps)

theorem State.returnPacket_keeps {M : Nat} {s t : State} {a1 : _}
    (hM : 4530284 &&& M = 4530284) (h : Keeps M s t) : Keeps M s (State.returnPacket t a1) := by
  unfold State.returnPacket
  try dsimp only
  repeat' (first
    | with_reducible assumption
    | with_reducible exact Keeps.refl _ _
    | ((with_reducible refine Keeps.subMask hM ?_); exact rfl)
    | with_reducible apply State.sendHeld_keeps
    | with_reducible apply State.spray_keeps
    | with_reducible apply State.count_keeps
    | with_reducible apply State.egressPush_keeps
    | with_reducible apply State.sprayReq_keeps
    | with_reducible apply State.wire_keeps
    | with_reducible apply State.transmit_keeps
    | with_reducible apply State.halUnsent_keeps
    | (dsimp only [keepsMk]; (with_reducible apply KeepsMk.put ?_ rfl rfl) <;> first | exact Or.inl (Keeps.subBit hM rfl) | exact Or.inr rfl | exact id | skip)
    | split
    | with_reducible refine Keeps.fst ‹_ = (_, _)› ?_)

theorem State.returnPackets_keeps {M : Nat} {s t : State} {a1 : _}
    (hM : 4530284 &&& M = 4530284) (h : Keeps M s t) : Keeps M s (State.returnPackets t a1) := by
  induction a1 generalizing t with
  | nil =>
    unfold State.returnPackets
    try dsimp only
    repeat' (first
      | with_reducible assumption)
  | cons x l ih =>
    unfold State.returnPackets
    try dsimp only
    repeat' (first
      | with_reducible assumption
      | with_reducible exact Keeps.refl _ _
      | with_reducible apply ih
      | with_reducible apply State.returnPacket_keeps)

theorem State.linksDown_keeps {M : Nat} {s t : State} {a1 : _} {a2 : _} {a3 : _}
    (hM : 810360942 &&& M = 810360942) (h : Keeps M s t) : Keeps M s (State.linksDown t a1 a2 a3) := by
  unfold State.linksDown
  try dsimp only
  repeat' (first
    | with_reducible assumption
    | with_reducible exact Keeps.refl _ _
    | ((with_reducible refine Keeps.subMask hM ?_); exact rfl)
    | with_reducible apply State.linkFalls_keeps
    | with_reducible apply State.recomputeAll_keeps
    | with_reducible apply State.returnPackets_keeps
    | with_reducible apply State.fault_keeps
    | with_reducible apply State.endMoveOut_keeps
    | with_reducible apply State.partnerGone_keeps
    | with_reducible refine Keeps.foldl ?_ _ ?_
    | with_reducible refine Keeps.foldl_fst ?_ _ ?_
    | with_reducible refine Keeps.foldl_snd ?_ _ ?_
    | (dsimp only [keepsMk]; (with_reducible apply KeepsMk.put ?_ rfl rfl) <;> first | exact Or.inl (Keeps.subBit hM rfl) | exact Or.inr rfl | exact id | skip)
    | split
    | with_reducible refine Keeps.fst ‹_ = (_, _)› ?_
    | intro _)

theorem State.answerOn_keeps {M : Nat} {s t : State} {a1 : _} {a2 : _} {a3 : _}
    (hM : 4259844 &&& M = 4259844) (h : Keeps M s t) : Keeps M s (State.answerOn t a1 a2 a3) := by
  unfold State.answerOn
  try dsimp only
  repeat' (first
    | with_reducible assumption
    | with_reducible exact Keeps.refl _ _
    | with_reducible apply State.wire_keeps
    | split)

theorem State.answer_keeps {M : Nat} {s t : State} {a1 : _} {a2 : _} {a3 : _}
    (hM : 4259852 &&& M = 4259852) (h : Keeps M s t) : Keeps M s (State.answer t a1 a2 a3) := by
  unfold State.answer
  try dsimp only
  repeat' (first
    | with_reducible assumption
    | with_reducible exact Keeps.refl _ _
    | ((with_reducible refine Keeps.subMask hM ?_); exact rfl)
    | with_reducible apply State.spray_keeps
    | with_reducible apply State.answerOn_keeps
    | with_reducible apply State.count_keeps
    | split
    | with_reducible refine Keeps.fst ‹_ = (_, _)› ?_)

theorem State.forget_keeps {M : Nat} {s t : State} {a1 : _}
    (hM : 64 &&& M = 64) (h : Keeps M s t) : Keeps M s (State.forget t a1) := by
  induction a1 generalizing t with
  | nil =>
    unfold State.forget
    try dsimp only
    repeat' (first
      | with_reducible assumption)
  | cons x l ih =>
    unfold State.forget
    try dsimp only
    repeat' (first
      | with_reducible assumption
      | with_reducible exact Keeps.refl _ _
      | with_reducible apply ih
      | with_reducible apply State.updSlice_keeps
      | split)

theorem LinkSt.face_ackd (l : LinkSt) (a : BitVec 16) : (l.ackd a).face = l.face := by
  unfold LinkSt.ackd
  dsimp only
  split <;> rfl

theorem State.applyAck_keeps {M : Nat} {s t : State} {a1 : _} {a2 : _}
    (hM : 68 &&& M = 68) (h : Keeps M s t) : Keeps M s (State.applyAck t a1 a2) := by
  unfold State.applyAck
  try dsimp only
  repeat' (first
    | with_reducible assumption
    | with_reducible exact Keeps.refl _ _
    | ((with_reducible refine Keeps.subMask hM ?_); exact rfl)
    | with_reducible apply State.updLink_keeps
    | with_reducible apply State.forget_keeps
    | exact Or.inl (Keeps.subBit hM rfl)
    | exact Or.inr fun _ => rfl
    | exact Or.inr fun l => l.face_ackd _)

theorem State.control_keeps {M : Nat} {s t : State} {a1 : _} {a2 : _} {a3 : _} {a4 : _}
    (hM : 268435524 &&& M = 268435524) (h4 : ∀ t, Keeps M t (a4 t)) (h : Keeps M s t) : Keeps M s (State.control t a1 a2 a3 a4) := by
  unfold State.control
  try dsimp only
  repeat' (first
    | with_reducible assumption
    | with_reducible exact Keeps.refl _ _
    | ((with_reducible refine Keeps.subMask hM ?_); exact rfl)
    | with_reducible refine Keeps.after ?_ (h4 ..)
    | with_reducible apply State.applyAck_keeps
    | with_reducible apply State.updLink_keeps
    | exact Or.inl (Keeps.subBit hM rfl)
    | exact Or.inr fun _ => rfl
    | split)

theorem State.startTraining_keeps {M : Nat} {s t : State} {a1 : _}
    (hM : 268435460 &&& M = 268435460) (h : Keeps M s t) : Keeps M s (State.startTraining t a1) := by
  unfold State.startTraining
  try dsimp only
  repeat' (first
    | with_reducible assumption
    | with_reducible exact Keeps.refl _ _
    | ((with_reducible refine Keeps.subMask hM ?_); exact rfl)
    | with_reducible apply State.updLink_keeps
    | exact Or.inl (Keeps.subBit hM rfl)
    | exact Or.inr fun _ => rfl
    | split)

theorem State.linkDown_keeps {M : Nat} {s t : State} {a1 : _} {a2 : _} {a3 : _}
    (hM : 810360942 &&& M = 810360942) (h : Keeps M s t) : Keeps M s (State.linkDown t a1 a2 a3) := by
  unfold State.linkDown
  try dsimp only
  repeat' (first
    | with_reducible assumption
    | with_reducible exact Keeps.refl _ _
    | with_reducible apply State.linksDown_keeps)

theorem startChange_keeps {M : Nat} {s t : State} {a1 : _} {a2 : _} {a3 : _} {a4 : _}
    (hM : 268435460 &&& M = 268435460) (h : Keeps M s t) : Keeps M s (startChange a1 a2 a3 a4 t) := by
  unfold startChange
  try dsimp only
  repeat' (first
    | with_reducible assumption
    | with_reducible exact Keeps.refl _ _
    | ((with_reducible refine Keeps.subMask hM ?_); exact rfl)
    | with_reducible apply State.updLink_keeps
    | exact Or.inl (Keeps.subBit hM rfl))

theorem State.parkNext_keeps {M : Nat} {s t : State} {a1 : _}
    (hM : 268435460 &&& M = 268435460) (h : Keeps M s t) : Keeps M s (State.parkNext t a1) := by
  unfold State.parkNext
  try dsimp only
  repeat' (first
    | with_reducible assumption
    | with_reducible exact Keeps.refl _ _
    | ((with_reducible refine Keeps.subMask hM ?_); exact rfl)
    | with_reducible apply State.updLink_keeps
    | with_reducible apply startChange_keeps
    | exact Or.inl (Keeps.subBit hM rfl)
    | exact Or.inr fun _ => rfl
    | split)

theorem State.joinNext_keeps {M : Nat} {s t : State} {a1 : _}
    (hM : 268435460 &&& M = 268435460) (h : Keeps M s t) : Keeps M s (State.joinNext t a1) := by
  unfold State.joinNext
  try dsimp only
  repeat' (first
    | with_reducible assumption
    | with_reducible exact Keeps.refl _ _
    | with_reducible apply startChange_keeps
    | split)

theorem State.sendHeldOf_keeps {M : Nat} {s t : State} {a1 : _}
    (hM : 4268140 &&& M = 4268140) (h : Keeps M s t) : Keeps M s (State.sendHeldOf t a1) := by
  unfold State.sendHeldOf
  try dsimp only
  repeat' (first
    | with_reducible assumption
    | with_reducible exact Keeps.refl _ _
    | with_reducible apply State.sendHeld_keeps
    | with_reducible refine Keeps.foldl ?_ _ ?_
    | with_reducible refine Keeps.foldl_fst ?_ _ ?_
    | with_reducible refine Keeps.foldl_snd ?_ _ ?_
    | split
    | with_reducible refine Keeps.fst ‹_ = (_, _)› ?_
    | intro _)

theorem State.linkComesUp_keeps {M : Nat} {s t : State} {a1 : _}
    (hM : 810360940 &&& M = 810360940) (h : Keeps M s t) : Keeps M s (State.linkComesUp t a1) := by
  unfold State.linkComesUp
  try dsimp only
  repeat' (first
    | with_reducible assumption
    | with_reducible exact Keeps.refl _ _
    | ((with_reducible refine Keeps.subMask hM ?_); exact rfl)
    | with_reducible apply State.crier_keeps
    | with_reducible apply State.updLink_keeps
    | with_reducible apply State.setLinkBit_keeps
    | with_reducible apply State.sendWaiting_keeps
    | with_reducible apply State.sendHeldOf_keeps
    | with_reducible apply State.recomputeAll_keeps
    | with_reducible apply State.halFlush_keeps
    | exact Or.inl (Keeps.subBit hM rfl)
    | exact Or.inr fun _ => rfl
    | split)

theorem State.noVersion_keeps {M : Nat} {s t : State} {a1 : _} {a2 : _}
    (hM : 273154062 &&& M = 273154062) (h : Keeps M s t) : Keeps M s (State.noVersion t a1 a2) := by
  unfold State.noVersion
  try dsimp only
  repeat' (first
    | with_reducible assumption
    | with_reducible exact Keeps.refl _ _
    | ((with_reducible refine Keeps.subMask hM ?_); exact rfl)
    | with_reducible apply State.updLink_keeps
    | with_reducible apply State.crier_keeps
    | with_reducible apply State.count_keeps
    | with_reducible apply State.setReg_keeps
    | with_reducible apply State.fault_keeps
    | exact Or.inl (Keeps.subBit hM rfl))

theorem State.queueCtl_keeps {M : Nat} {s t : State} {a1 : _} {a2 : _} {a3 : _}
    (hM : 268435460 &&& M = 268435460) (h : Keeps M s t) : Keeps M s (State.queueCtl t a1 a2 a3) := by
  unfold State.queueCtl
  try dsimp only
  repeat' (first
    | with_reducible assumption
    | with_reducible exact Keeps.refl _ _
    | ((with_reducible refine Keeps.subMask hM ?_); exact rfl)
    | with_reducible apply State.updLink_keeps
    | exact Or.inl (Keeps.subBit hM rfl))

theorem State.queueFirst_keeps {M : Nat} {s t : State} {a1 : _} {a2 : _} {a3 : _}
    (hM : 268435460 &&& M = 268435460) (h : Keeps M s t) : Keeps M s (State.queueFirst t a1 a2 a3) := by
  unfold State.queueFirst
  try dsimp only
  repeat' (first
    | with_reducible assumption
    | with_reducible exact Keeps.refl _ _
    | ((with_reducible refine Keeps.subMask hM ?_); exact rfl)
    | with_reducible apply State.updLink_keeps
    | exact Or.inl (Keeps.subBit hM rfl))

theorem State.readReplay_keeps {M : Nat} {s t : State} {a1 : _}
    (hM : 4718668 &&& M = 4718668) (h : Keeps M s t) : Keeps M s (State.readReplay t a1).1 := by
  unfold State.readReplay
  try dsimp only
  repeat' (first
    | with_reducible assumption
    | with_reducible exact Keeps.refl _ _
    | ((with_reducible refine Keeps.subMask hM ?_); exact rfl)
    | with_reducible apply State.sramRead_keeps
    | with_reducible apply State.updLink_keeps
    | with_reducible apply State.sramWrite_keeps
    | with_reducible refine Keeps.foldl ?_ _ ?_
    | with_reducible refine Keeps.foldl_fst ?_ _ ?_
    | with_reducible refine Keeps.foldl_snd ?_ _ ?_
    | exact Or.inl (Keeps.subBit hM rfl)
    | exact Or.inr fun _ => rfl
    | split
    | with_reducible refine Keeps.fst ‹_ = (_, _)› ?_
    | intro _)

theorem State.unparkAll_keeps {M : Nat} {s t : State} {a1 : _}
    (hM : 268435462 &&& M = 268435462) (h : Keeps M s t) : Keeps M s (State.unparkAll t a1) := by
  unfold State.unparkAll
  try dsimp only
  repeat' (first
    | with_reducible assumption
    | with_reducible exact Keeps.refl _ _
    | ((with_reducible refine Keeps.subMask hM ?_); exact rfl)
    | with_reducible apply State.setReg_keeps
    | with_reducible apply State.updLink_keeps
    | exact Or.inl (Keeps.subBit hM rfl)
    | exact Or.inr fun _ => rfl
    | split)

/-! ### Machine/TrackOps.lean -/

theorem State.endUse_keeps {M : Nat} {s t : State} {a1 : _}
    (hM : 1074790400 &&& M = 1074790400) (h : Keeps M s t) : Keeps M s (State.endUse t a1) := by
  unfold State.endUse
  try dsimp only
  repeat' (first
    | with_reducible assumption
    | with_reducible exact Keeps.refl _ _
    | with_reducible apply State.updKey_keeps)

theorem State.recordTag_keeps {M : Nat} {s t : State} {a1 : _} {a2 : _} {a3 : _} {a4 : _} {a5 : _}
    (hM : 537657352 &&& M = 537657352) (h : Keeps M s t) : Keeps M s (State.recordTag t a1 a2 a3 a4 a5) := by
  unfold State.recordTag
  try dsimp only
  repeat' (first
    | with_reducible assumption
    | with_reducible exact Keeps.refl _ _
    | ((with_reducible refine Keeps.subMask hM ?_); exact rfl)
    | with_reducible apply State.updStall_keeps
    | with_reducible apply State.sramWrite_keeps
    | (dsimp only [keepsMk]; (with_reducible apply KeepsMk.put ?_ rfl rfl) <;> first | exact Or.inl (Keeps.subBit hM rfl) | exact Or.inr rfl | exact id | skip)
    | exact Or.inl (Keeps.subBit hM rfl))

theorem State.recordDone_keeps {M : Nat} {s t : State} {a1 : _}
    (hM : 541851660 &&& M = 541851660) (h : Keeps M s t) : Keeps M s (State.recordDone t a1).1 := by
  unfold State.recordDone
  try dsimp only
  repeat' (first
    | with_reducible assumption
    | with_reducible exact Keeps.refl _ _
    | ((with_reducible refine Keeps.subMask hM ?_); exact rfl)
    | with_reducible apply State.recordTag_keeps
    | with_reducible apply State.halRecord_keeps
    | split)

theorem State.abortTrk_keeps {M : Nat} {s t : State} {a1 : _} {a2 : _} {a3 : _}
    (hM : 64 &&& M = 64) (h : Keeps M s t) : Keeps M s (State.abortTrk t a1 a2 a3) := by
  unfold State.abortTrk
  try dsimp only
  repeat' (first
    | with_reducible assumption
    | with_reducible exact Keeps.refl _ _
    | with_reducible apply State.updSlice_keeps)

theorem State.abort_keeps {M : Nat} {s t : State} {a1 : _} {a2 : _} {a3 : _}
    (hM : 1616707660 &&& M = 1616707660) (h : Keeps M s t) : Keeps M s (State.abort t a1 a2 a3) := by
  unfold State.abort
  try dsimp only
  repeat' (first
    | with_reducible assumption
    | with_reducible exact Keeps.refl _ _
    | ((with_reducible refine Keeps.subMask hM ?_); exact rfl)
    | with_reducible apply State.endUse_keeps
    | with_reducible apply State.recordDone_keeps
    | with_reducible apply State.updSlice_keeps
    | with_reducible apply State.dropPackets_keeps
    | with_reducible apply State.abortTrk_keeps
    | split)

theorem State.complete_keeps {M : Nat} {s t : State} {a1 : _} {a2 : _} {a3 : _}
    (hM : 1616642124 &&& M = 1616642124) (h : Keeps M s t) : Keeps M s (State.complete t a1 a2 a3) := by
  unfold State.complete
  try dsimp only
  repeat' (first
    | with_reducible assumption
    | with_reducible exact Keeps.refl _ _
    | ((with_reducible refine Keeps.subMask hM ?_); exact rfl)
    | with_reducible apply State.endUse_keeps
    | with_reducible apply State.recordDone_keeps
    | with_reducible apply State.updSlice_keeps
    | split)

theorem State.answerTrk_keeps {M : Nat} {s t : State} {a1 : _} {a2 : _}
    (hM : 4268140 &&& M = 4268140) (h : Keeps M s t) : Keeps M s (State.answerTrk t a1 a2) := by
  unfold State.answerTrk
  try dsimp only
  repeat' (first
    | with_reducible assumption
    | with_reducible exact Keeps.refl _ _
    | ((with_reducible refine Keeps.subMask hM ?_); exact rfl)
    | with_reducible apply State.sendHeld_keeps
    | with_reducible apply State.dropPackets_keeps)

theorem State.beginUse_keeps {M : Nat} {s t : State} {a1 : _}
    (hM : 1078984704 &&& M = 1078984704) (h : Keeps M s t) : Keeps M s (State.beginUse t a1) := by
  unfold State.beginUse
  try dsimp only
  repeat' (first
    | with_reducible assumption
    | with_reducible exact Keeps.refl _ _
    | ((with_reducible refine Keeps.subMask hM ?_); exact rfl)
    | with_reducible apply State.count_keeps
    | with_reducible apply State.updKey_keeps)

theorem State.track_keeps {M : Nat} {s t : State} {a1 : _} {a2 : _}
    (hM : 1096351808 &&& M = 1096351808) (h : Keeps M s t) : Keeps M s (State.track t a1 a2) := by
  unfold State.track
  try dsimp only
  repeat' (first
    | with_reducible assumption
    | with_reducible exact Keeps.refl _ _
    | ((with_reducible refine Keeps.subMask hM ?_); exact rfl)
    | with_reducible apply State.updSlice_keeps
    | with_reducible apply State.sramWrite_keeps
    | with_reducible apply State.beginUse_keeps
    | with_reducible apply State.wakeSlice_keeps
    | (dsimp only [keepsMk]; (with_reducible apply KeepsMk.put ?_ rfl rfl) <;> first | exact Or.inl (Keeps.subBit hM rfl) | exact Or.inr rfl | exact id | skip)
    | split)

/-! ### Machine/CohOps.lean -/

theorem State.countStale_keeps {M : Nat} {s t : State} {a1 : _}
    (hM : 4194304 &&& M = 4194304) (h : Keeps M s t) : Keeps M s (State.countStale t a1) := by
  unfold State.countStale
  try dsimp only
  repeat' (first
    | with_reducible assumption
    | with_reducible exact Keeps.refl _ _
    | with_reducible apply State.count_keeps
    | with_reducible refine Keeps.foldl ?_ _ ?_
    | with_reducible refine Keeps.foldl_fst ?_ _ ?_
    | with_reducible refine Keeps.foldl_snd ?_ _ ?_
    | split
    | with_reducible refine Keeps.fst ‹_ = (_, _)› ?_
    | intro _)

theorem State.absentStall_keeps {M : Nat} {s t : State} {a1 : _}
    (hM : 4194560 &&& M = 4194560) (h : Keeps M s t) : Keeps M s (State.absentStall t a1) := by
  unfold State.absentStall
  try dsimp only
  repeat' (first
    | with_reducible assumption
    | with_reducible exact Keeps.refl _ _
    | ((with_reducible refine Keeps.subMask hM ?_); exact rfl)
    | with_reducible apply State.countStale_keeps
    | (dsimp only [keepsMk]; (with_reducible apply KeepsMk.put ?_ rfl rfl) <;> first | exact Or.inl (Keeps.subBit hM rfl) | exact Or.inr rfl | exact id | skip))

theorem State.setDir_keeps {M : Nat} {s t : State} {a1 : _} {a2 : _} {a3 : _}
    (hM : 64 &&& M = 64) (h : Keeps M s t) : Keeps M s (State.setDir t a1 a2 a3) := by
  unfold State.setDir
  try dsimp only
  repeat' (first
    | with_reducible assumption
    | with_reducible exact Keeps.refl _ _
    | with_reducible apply State.updSlice_keeps)

theorem State.tellDir_keeps {M : Nat} {s t : State} {a1 : _} {a2 : _}
    (hM : 4456452 &&& M = 4456452) (h : Keeps M s t) : Keeps M s (State.tellDir t a1 a2).1 := by
  unfold State.tellDir
  try dsimp only
  repeat' (first
    | with_reducible assumption
    | with_reducible exact Keeps.refl _ _
    | with_reducible apply State.halRecord_keeps
    | split)

theorem State.waitTxn_keeps {M : Nat} {s t : State} {a1 : _} {a2 : _} {a3 : _}
    (hM : 64 &&& M = 64) (h : Keeps M s t) : Keeps M s (State.waitTxn t a1 a2 a3) := by
  unfold State.waitTxn
  try dsimp only
  repeat' (first
    | with_reducible assumption
    | with_reducible exact Keeps.refl _ _
    | with_reducible apply State.updSlice_keeps)

theorem State.recallGranted_keeps {M : Nat} {s t : State} {a1 : _} {a2 : _} {a3 : _}
    (hM : 64 &&& M = 64) (h : Keeps M s t) : Keeps M s (State.recallGranted t a1 a2 a3) := by
  unfold State.recallGranted
  try dsimp only
  repeat' (first
    | with_reducible assumption
    | with_reducible exact Keeps.refl _ _
    | with_reducible apply State.waitTxn_keeps
    | with_reducible refine Keeps.foldl ?_ _ ?_
    | with_reducible refine Keeps.foldl_fst ?_ _ ?_
    | with_reducible refine Keeps.foldl_snd ?_ _ ?_
    | split
    | with_reducible refine Keeps.fst ‹_ = (_, _)› ?_
    | intro _)

theorem State.putTrk_keeps {M : Nat} {s t : State} {a1 : _} {a2 : _}
    (hM : 64 &&& M = 64) (h : Keeps M s t) : Keeps M s (State.putTrk t a1 a2) := by
  unfold State.putTrk
  try dsimp only
  repeat' (first
    | with_reducible assumption
    | with_reducible exact Keeps.refl _ _
    | with_reducible apply State.updSlice_keeps)

theorem State.settle_keeps {M : Nat} {s t : State} {a1 : _} {a2 : _}
    (hM : 1616642124 &&& M = 1616642124) (h : Keeps M s t) : Keeps M s (State.settle t a1 a2) := by
  unfold State.settle
  try dsimp only
  repeat' (first
    | with_reducible assumption
    | with_reducible exact Keeps.refl _ _
    | ((with_reducible refine Keeps.subMask hM ?_); exact rfl)
    | with_reducible apply State.putTrk_keeps
    | with_reducible apply State.complete_keeps
    | split)

theorem State.grantLine_keeps {M : Nat} {s t : State} {a1 : _} {a2 : _} {a3 : _} {a4 : _} {a5 : _}
    (hM : 1616642124 &&& M = 1616642124) (h : Keeps M s t) : Keeps M s (State.grantLine t a1 a2 a3 a4 a5) := by
  unfold State.grantLine
  try dsimp only
  repeat' (first
    | with_reducible assumption
    | with_reducible exact Keeps.refl _ _
    | ((with_reducible refine Keeps.subMask hM ?_); exact rfl)
    | with_reducible apply State.setDir_keeps
    | with_reducible apply State.tellDir_keeps
    | with_reducible apply State.recallGranted_keeps
    | with_reducible apply State.settle_keeps)

theorem State.sendSnoop_keeps {M : Nat} {s t : State} {a1 : _} {a2 : _} {a3 : _} {a4 : _} {a5 : _} {a6 : _}
    (hM : 4260620 &&& M = 4260620) (h : Keeps M s t) : Keeps M s (State.sendSnoop t a1 a2 a3 a4 a5 a6) := by
  unfold State.sendSnoop
  try dsimp only
  repeat' (first
    | with_reducible assumption
    | with_reducible exact Keeps.refl _ _
    | ((with_reducible refine Keeps.subMask hM ?_); exact rfl)
    | with_reducible apply State.takeTag_keeps
    | with_reducible apply State.sprayReq_keeps
    | (dsimp only [keepsMk]; (with_reducible apply KeepsMk.put ?_ rfl rfl) <;> first | exact Or.inl (Keeps.subBit hM rfl) | exact Or.inr rfl | exact id | skip))

theorem State.startTxn_keeps {M : Nat} {s t : State} {a1 : _} {a2 : _} {a3 : _} {a4 : _} {a5 : _} {a6 : _}
    (hM : 4260684 &&& M = 4260684) (h : Keeps M s t) : Keeps M s (State.startTxn t a1 a2 a3 a4 a5 a6) := by
  unfold State.startTxn
  try dsimp only
  repeat' (first
    | with_reducible assumption
    | with_reducible exact Keeps.refl _ _
    | ((with_reducible refine Keeps.subMask hM ?_); exact rfl)
    | with_reducible apply State.updSlice_keeps
    | with_reducible apply State.count_keeps
    | with_reducible apply State.sendSnoop_keeps
    | with_reducible refine Keeps.foldl ?_ _ ?_
    | with_reducible refine Keeps.foldl_fst ?_ _ ?_
    | with_reducible refine Keeps.foldl_snd ?_ _ ?_
    | split
    | with_reducible refine Keeps.fst ‹_ = (_, _)› ?_
    | intro _)

theorem State.failUnit_keeps {M : Nat} {s t : State} {a1 : _} {a2 : _} {a3 : _} {a4 : _}
    (hM : 1616642124 &&& M = 1616642124) (h : Keeps M s t) : Keeps M s (State.failUnit t a1 a2 a3 a4) := by
  unfold State.failUnit
  try dsimp only
  repeat' (first
    | with_reducible assumption
    | with_reducible exact Keeps.refl _ _
    | with_reducible apply State.settle_keeps)

theorem State.tellFull_keeps {M : Nat} {s t : State} {a1 : _} {a2 : _}
    (hM : 4718664 &&& M = 4718664) (h : Keeps M s t) : Keeps M s (State.tellFull t a1 a2) := by
  unfold State.tellFull
  try dsimp only
  repeat' (first
    | with_reducible assumption
    | with_reducible exact Keeps.refl _ _
    | ((with_reducible refine Keeps.subMask hM ?_); exact rfl)
    | with_reducible apply State.crier_keeps
    | with_reducible apply State.updSlice_keeps
    | split)

theorem State.cohFresh_keeps {M : Nat} {s t : State} {a1 : _} {a2 : _} {a3 : _} {a4 : _}
    (hM : 3780969420 &&& M = 3780969420) (h : Keeps M s t) : Keeps M s (State.cohFresh t a1 a2 a3 a4) := by
  unfold State.cohFresh
  try dsimp only
  repeat' (first
    | with_reducible assumption
    | with_reducible exact Keeps.refl _ _
    | ((with_reducible refine Keeps.subMask hM ?_); exact rfl)
    | with_reducible apply State.unitRead_keeps
    | with_reducible apply State.grantLine_keeps
    | with_reducible apply State.updSlice_keeps
    | with_reducible apply State.settle_keeps
    | with_reducible apply State.startTxn_keeps
    | with_reducible apply State.failUnit_keeps
    | with_reducible apply State.tellFull_keeps
    | split)

theorem State.cohMemory_keeps {M : Nat} {s t : State} {a1 : _} {a2 : _} {a3 : _} {a4 : _} {a5 : _}
    (hM : 3780903148 &&& M = 3780903148) (h5 : ∀ t, Keeps M t (a5 t)) (h : Keeps M s t) : Keeps M s (State.cohMemory t a1 a2 a3 a4 a5) := by
  unfold State.cohMemory
  try dsimp only
  repeat' (first
    | with_reducible assumption
    | with_reducible exact Keeps.refl _ _
    | ((with_reducible refine Keeps.subMask hM ?_); exact rfl)
    | with_reducible refine Keeps.after ?_ (h5 ..)
    | with_reducible apply State.unitDo_keeps
    | with_reducible apply State.settle_keeps
    | split)

theorem State.readDir_keeps {M : Nat} {s t : State} {a1 : _} {a2 : _} {a3 : _}
    (hM : 4980812 &&& M = 4980812) (h : Keeps M s t) : Keeps M s (State.readDir t a1 a2 a3) := by
  unfold State.readDir
  try dsimp only
  repeat' (first
    | with_reducible assumption
    | with_reducible exact Keeps.refl _ _
    | ((with_reducible refine Keeps.subMask hM ?_); exact rfl)
    | with_reducible apply State.sramRead_keeps
    | with_reducible apply State.updSlice_keeps
    | with_reducible apply State.sramWrite_keeps
    | with_reducible apply State.tellDir_keeps
    | split)

theorem State.freeDir_keeps {M : Nat} {s t : State} {a1 : _} {a2 : _}
    (hM : 64 &&& M = 64) (h : Keeps M s t) : Keeps M s (State.freeDir t a1 a2) := by
  unfold State.freeDir
  try dsimp only
  repeat' (first
    | with_reducible assumption
    | with_reducible exact Keeps.refl _ _
    | with_reducible apply State.updSlice_keeps)

theorem State.freeLine_keeps {M : Nat} {s t : State} {a1 : _} {a2 : _}
    (hM : 4456516 &&& M = 4456516) (h : Keeps M s t) : Keeps M s (State.freeLine t a1 a2) := by
  unfold State.freeLine
  try dsimp only
  repeat' (first
    | with_reducible assumption
    | with_reducible exact Keeps.refl _ _
    | ((with_reducible refine Keeps.subMask hM ?_); exact rfl)
    | with_reducible apply State.tellDir_keeps
    | with_reducible apply State.freeDir_keeps
    | split)

theorem State.cohLost_keeps {M : Nat} {s t : State} {a1 : _} {a2 : _} {a3 : _} {a4 : _} {a5 : _}
    (hM : 3780903148 &&& M = 3780903148) (h : Keeps M s t) : Keeps M s (State.cohLost t a1 a2 a3 a4 a5) := by
  unfold State.cohLost
  try dsimp only
  repeat' (first
    | with_reducible assumption
    | with_reducible exact Keeps.refl _ _
    | ((with_reducible refine Keeps.subMask hM ?_); exact rfl)
    | with_reducible apply State.cohMemory_keeps
    | with_reducible apply State.freeLine_keeps
    | with_reducible apply State.settle_keeps
    | with_reducible apply State.unitRead_keeps
    | with_reducible apply State.grantLine_keeps
    | with_reducible apply State.failUnit_keeps
    | split
    | with_reducible refine Keeps.fst ‹_ = (_, _)› ?_
    | intro _
    | dsimp only
    | dsimp only [id])

theorem State.grantMemory_keeps {M : Nat} {s t : State} {a1 : _} {a2 : _} {a3 : _} {a4 : _} {a5 : _} {a6 : _} {a7 : _}
    (hM : 3780903116 &&& M = 3780903116) (h7 : ∀ t, Keeps M t (a7 t)) (h : Keeps M s t) : Keeps M s (State.grantMemory t a1 a2 a3 a4 a5 a6 a7) := by
  unfold State.grantMemory
  try dsimp only
  repeat' (first
    | with_reducible assumption
    | with_reducible exact Keeps.refl _ _
    | ((with_reducible refine Keeps.subMask hM ?_); exact rfl)
    | with_reducible refine Keeps.after ?_ (h7 ..)
    | with_reducible apply State.unitRead_keeps
    | with_reducible apply State.grantLine_keeps
    | with_reducible apply State.settle_keeps
    | split)

theorem State.writebackEntry_keeps {M : Nat} {s t : State} {a1 : _} {a2 : _} {a3 : _}
    (hM : 4456516 &&& M = 4456516) (h : Keeps M s t) : Keeps M s (State.writebackEntry t a1 a2 a3) := by
  unfold State.writebackEntry
  try dsimp only
  repeat' (first
    | with_reducible assumption
    | with_reducible exact Keeps.refl _ _
    | ((with_reducible refine Keeps.subMask hM ?_); exact rfl)
    | with_reducible apply State.freeLine_keeps
    | with_reducible apply State.tellDir_keeps
    | with_reducible apply State.setDir_keeps
    | split)

theorem State.cohDirect_keeps {M : Nat} {s t : State} {a1 : _} {a2 : _} {a3 : _} {a4 : _} {a5 : _}
    (hM : 3780903148 &&& M = 3780903148) (h : Keeps M s t) : Keeps M s (State.cohDirect t a1 a2 a3 a4 a5) := by
  unfold State.cohDirect
  try dsimp only
  repeat' (first
    | with_reducible assumption
    | with_reducible exact Keeps.refl _ _
    | ((with_reducible refine Keeps.subMask hM ?_); exact rfl)
    | with_reducible apply State.grantMemory_keeps
    | with_reducible apply State.freeLine_keeps
    | with_reducible apply State.cohMemory_keeps
    | with_reducible apply State.unitDo_keeps
    | with_reducible apply State.settle_keeps
    | with_reducible apply State.writebackEntry_keeps
    | with_reducible apply State.tellDir_keeps
    | with_reducible apply State.setDir_keeps
    | split
    | with_reducible refine Keeps.fst ‹_ = (_, _)› ?_
    | intro _
    | dsimp only
    | dsimp only [id])

theorem State.cohTake_keeps {M : Nat} {s t : State} {a1 : _} {a2 : _} {a3 : _}
    (hM : 3780969452 &&& M = 3780969452) (h : Keeps M s t) : Keeps M s (State.cohTake t a1 a2 a3) := by
  unfold State.cohTake
  try dsimp only
  repeat' (first
    | with_reducible assumption
    | with_reducible exact Keeps.refl _ _
    | ((with_reducible refine Keeps.subMask hM ?_); exact rfl)
    | with_reducible apply State.cohFresh_keeps
    | with_reducible apply State.settle_keeps
    | with_reducible apply State.cohMemory_keeps
    | with_reducible apply State.readDir_keeps
    | with_reducible apply State.cohLost_keeps
    | with_reducible apply State.startTxn_keeps
    | with_reducible apply State.cohDirect_keeps
    | split
    | with_reducible refine Keeps.fst ‹_ = (_, _)› ?_
    | intro _
    | dsimp only
    | dsimp only [id])

theorem State.cohGone_keeps {M : Nat} {s t : State} {a1 : _} {a2 : _} {a3 : _} {a4 : _} {a5 : _}
    (hM : 3780969452 &&& M = 3780969452) (h : Keeps M s t) : Keeps M s (State.cohGone t a1 a2 a3 a4 a5) := by
  unfold State.cohGone
  try dsimp only
  repeat' (first
    | with_reducible assumption
    | with_reducible exact Keeps.refl _ _
    | ((with_reducible refine Keeps.subMask hM ?_); exact rfl)
    | with_reducible apply State.unitRead_keeps
    | with_reducible apply State.grantLine_keeps
    | with_reducible apply State.updSlice_keeps
    | with_reducible apply State.settle_keeps
    | with_reducible apply State.cohTake_keeps
    | split)

theorem State.dropTxn_keeps {M : Nat} {s t : State} {a1 : _} {a2 : _}
    (hM : 320 &&& M = 320) (h : Keeps M s t) : Keeps M s (State.dropTxn t a1 a2) := by
  unfold State.dropTxn
  try dsimp only
  repeat' (first
    | with_reducible assumption
    | with_reducible exact Keeps.refl _ _
    | ((with_reducible refine Keeps.subMask hM ?_); exact rfl)
    | with_reducible apply State.updSlice_keeps
    | (dsimp only [keepsMk]; (with_reducible apply KeepsMk.put ?_ rfl rfl) <;> first | exact Or.inl (Keeps.subBit hM rfl) | exact Or.inr rfl | exact id | skip))

theorem State.recallOver_keeps {M : Nat} {s t : State} {a1 : _} {a2 : _}
    (hM : 21234020 &&& M = 21234020) (h : Keeps M s t) : Keeps M s (State.recallOver t a1 a2) := by
  unfold State.recallOver
  try dsimp only
  repeat' (first
    | with_reducible assumption
    | with_reducible exact Keeps.refl _ _
    | ((with_reducible refine Keeps.subMask hM ?_); exact rfl)
    | with_reducible apply State.pipePush_keeps
    | with_reducible apply State.freeLine_keeps
    | with_reducible apply State.dropTxn_keeps
    | with_reducible apply State.updRevoke_keeps
    | split)

theorem State.endOrphaned_keeps {M : Nat} {s t : State} {a1 : _} {a2 : _} {a3 : _}
    (hM : 2169241828 &&& M = 2169241828) (h : Keeps M s t) : Keeps M s (State.endOrphaned t a1 a2 a3) := by
  unfold State.endOrphaned
  try dsimp only
  repeat' (first
    | with_reducible assumption
    | with_reducible exact Keeps.refl _ _
    | ((with_reducible refine Keeps.subMask hM ?_); exact rfl)
    | with_reducible apply State.freeLine_keeps
    | with_reducible apply State.storeLine_keeps
    | with_reducible apply State.updRevoke_keeps
    | split)

theorem State.lostPennant_keeps {M : Nat} {s t : State} {a1 : _} {a2 : _} {a3 : _} {a4 : _}
    (hM : 5047116 &&& M = 5047116) (h : Keeps M s t) : Keeps M s (State.lostPennant t a1 a2 a3 a4) := by
  unfold State.lostPennant
  try dsimp only
  repeat' (first
    | with_reducible assumption
    | with_reducible exact Keeps.refl _ _
    | ((with_reducible refine Keeps.subMask hM ?_); exact rfl)
    | with_reducible apply State.tellDir_keeps
    | with_reducible apply State.setDir_keeps
    | with_reducible apply State.startTxn_keeps
    | with_reducible apply State.crier_keeps
    | split)

theorem State.lowerShared_keeps {M : Nat} {s t : State} {a1 : _} {a2 : _} {a3 : _} {a4 : _}
    (hM : 4456516 &&& M = 4456516) (h : Keeps M s t) : Keeps M s (State.lowerShared t a1 a2 a3 a4) := by
  unfold State.lowerShared
  try dsimp only
  repeat' (first
    | with_reducible assumption
    | with_reducible exact Keeps.refl _ _
    | ((with_reducible refine Keeps.subMask hM ?_); exact rfl)
    | with_reducible apply State.tellDir_keeps
    | with_reducible apply State.setDir_keeps
    | with_reducible apply State.freeLine_keeps
    | split)

theorem State.cohReadEnd_keeps {M : Nat} {s t : State} {a1 : _} {a2 : _} {a3 : _} {a4 : _} {a5 : _}
    (hM : 3780903116 &&& M = 3780903116) (h : Keeps M s t) : Keeps M s (State.cohReadEnd t a1 a2 a3 a4 a5) := by
  unfold State.cohReadEnd
  try dsimp only
  generalize a4.phase = p
  generalize dirtyOf a5 = d
  cases p <;> cases d
  all_goals try dsimp only
  all_goals
  repeat' (first
    | with_reducible assumption
    | with_reducible exact Keeps.refl _ _
    | ((with_reducible refine Keeps.subMask hM ?_); exact rfl)
    | with_reducible apply State.freeLine_keeps
    | with_reducible apply State.lowerShared_keeps
    | with_reducible apply State.grantLine_keeps
    | with_reducible apply State.grantMemory_keeps
    | split
    | with_reducible refine Keeps.fst ‹_ = (_, _)› ?_
    | intro _
    | dsimp only
    | dsimp only [id])

theorem State.takeDirty_keeps {M : Nat} {s t : State} {a1 : _} {a2 : _}
    (hM : 2169241828 &&& M = 2169241828) (h : Keeps M s t) : Keeps M s (State.takeDirty t a1 a2).1 := by
  cases a2 with
  | none => exact h
  | some l => exact State.writeBack_keeps (Keeps.subMask hM rfl) h

theorem State.cohEnd_keeps {M : Nat} {s t : State} {a1 : _} {a2 : _} {a3 : _} {a4 : _} {a5 : _} {a6 : _}
    (hM : 3780969452 &&& M = 3780969452) (h : Keeps M s t) : Keeps M s (State.cohEnd t a1 a2 a3 a4 a5 a6) := by
  unfold State.cohEnd
  try dsimp only
  repeat' (first
    | with_reducible assumption
    | with_reducible exact Keeps.refl _ _
    | ((with_reducible refine Keeps.subMask hM ?_); exact rfl)
    | with_reducible apply State.cohLost_keeps
    | with_reducible apply State.lostPennant_keeps
    | with_reducible apply State.cohReadEnd_keeps
    | with_reducible apply State.settle_keeps
    | with_reducible apply State.lowerShared_keeps
    | with_reducible apply State.cohMemory_keeps
    | with_reducible apply State.takeDirty_keeps
    | with_reducible apply State.freeLine_keeps
    | with_reducible apply State.unitDo_keeps
    | split
    | with_reducible refine Keeps.fst ‹_ = (_, _)› ?_
    | intro _
    | dsimp only
    | dsimp only [id])

theorem State.lowerFree_keeps {M : Nat} {s t : State} {a1 : _} {a2 : _} {a3 : _} {a4 : _}
    (hM : 4456516 &&& M = 4456516) (h : Keeps M s t) : Keeps M s (State.lowerFree t a1 a2 a3 a4) := by
  unfold State.lowerFree
  try dsimp only
  repeat' (first
    | with_reducible assumption
    | with_reducible exact Keeps.refl _ _
    | ((with_reducible refine Keeps.subMask hM ?_); exact rfl)
    | with_reducible apply State.freeLine_keeps
    | with_reducible apply State.tellDir_keeps
    | with_reducible apply State.setDir_keeps
    | split)

theorem State.endAborted_keeps {M : Nat} {s t : State} {a1 : _} {a2 : _} {a3 : _} {a4 : _}
    (hM : 2169308140 &&& M = 2169308140) (h : Keeps M s t) : Keeps M s (State.endAborted t a1 a2 a3 a4) := by
  unfold State.endAborted
  try dsimp only
  repeat' (first
    | with_reducible assumption
    | with_reducible exact Keeps.refl _ _
    | ((with_reducible refine Keeps.subMask hM ?_); exact rfl)
    | with_reducible apply State.lostPennant_keeps
    | with_reducible apply State.takeDirty_keeps
    | with_reducible apply State.lowerShared_keeps
    | with_reducible apply State.lowerFree_keeps
    | split)

theorem State.endRecall_keeps {M : Nat} {s t : State} {a1 : _} {a2 : _} {a3 : _} {a4 : _}
    (hM : 2169308140 &&& M = 2169308140) (h : Keeps M s t) : Keeps M s (State.endRecall t a1 a2 a3 a4) := by
  unfold State.endRecall
  try dsimp only
  repeat' (first
    | with_reducible assumption
    | with_reducible exact Keeps.refl _ _
    | ((with_reducible refine Keeps.subMask hM ?_); exact rfl)
    | with_reducible apply State.recallOver_keeps
    | with_reducible apply State.endOrphaned_keeps
    | with_reducible apply State.lostPennant_keeps
    | with_reducible apply State.dropTxn_keeps
    | with_reducible apply State.takeDirty_keeps
    | with_reducible apply State.updSlice_keeps
    | split)

theorem State.endTxn_keeps {M : Nat} {s t : State} {a1 : _} {a2 : _}
    (hM : 3780969452 &&& M = 3780969452) (h : Keeps M s t) : Keeps M s (State.endTxn t a1 a2) := by
  unfold State.endTxn
  try dsimp only
  repeat' (first
    | with_reducible assumption
    | with_reducible exact Keeps.refl _ _
    | ((with_reducible refine Keeps.subMask hM ?_); exact rfl)
    | with_reducible apply State.cohGone_keeps
    | with_reducible apply State.dropTxn_keeps
    | with_reducible apply State.recallOver_keeps
    | with_reducible apply State.endOrphaned_keeps
    | with_reducible apply State.cohEnd_keeps
    | with_reducible apply State.endAborted_keeps
    | with_reducible apply State.endRecall_keeps
    | split)

theorem State.startWaiting_keeps {M : Nat} {s t : State} {a1 : _} {a2 : _}
    (hM : 2169308140 &&& M = 2169308140) (h : Keeps M s t) : Keeps M s (State.startWaiting t a1 a2) := by
  unfold State.startWaiting
  try dsimp only
  repeat' (first
    | with_reducible assumption
    | with_reducible exact Keeps.refl _ _
    | ((with_reducible refine Keeps.subMask hM ?_); exact rfl)
    | with_reducible apply State.dropTxn_keeps
    | with_reducible apply State.updRevoke_keeps
    | with_reducible apply State.endOrphaned_keeps
    | with_reducible apply State.startTxn_keeps
    | split)

theorem State.cohRun_keeps {M : Nat} {s t : State} {a1 : _} {a2 : _}
    (hM : 3780969452 &&& M = 3780969452) (h : Keeps M s t) : Keeps M s (State.cohRun a1 a2 t) := by
  induction a2 generalizing t a1 with
  | zero =>
    unfold State.cohRun
    try dsimp only
    repeat' (first
      | with_reducible assumption)
  | succ n ih =>
    unfold State.cohRun
    try dsimp only
    repeat' (first
      | with_reducible assumption
      | with_reducible exact Keeps.refl _ _
      | ((with_reducible refine Keeps.subMask hM ?_); exact rfl)
      | with_reducible apply ih
      | with_reducible apply State.endTxn_keeps
      | with_reducible apply State.startWaiting_keeps
      | with_reducible apply State.cohTake_keeps
      | with_reducible apply State.updSlice_keeps
      | split)

theorem State.cohGo_keeps {M : Nat} {s t : State} {a1 : _}
    (hM : 3780969452 &&& M = 3780969452) (h : Keeps M s t) : Keeps M s (State.cohGo t a1) := by
  unfold State.cohGo
  try dsimp only
  repeat' (first
    | with_reducible assumption
    | with_reducible exact Keeps.refl _ _
    | with_reducible apply State.cohRun_keeps)

theorem State.cohGoAll_keeps {M : Nat} {s t : State}
    (hM : 3780969452 &&& M = 3780969452) (h : Keeps M s t) : Keeps M s (State.cohGoAll t) := by
  unfold State.cohGoAll
  try dsimp only
  repeat' (first
    | with_reducible assumption
    | with_reducible exact Keeps.refl _ _
    | with_reducible apply State.cohGo_keeps
    | with_reducible refine Keeps.foldl ?_ _ ?_
    | with_reducible refine Keeps.foldl_fst ?_ _ ?_
    | with_reducible refine Keeps.foldl_snd ?_ _ ?_
    | split
    | with_reducible refine Keeps.fst ‹_ = (_, _)› ?_
    | intro _)

theorem State.lateWriteback_keeps {M : Nat} {s t : State} {a1 : _} {a2 : _}
    (hM : 3780903404 &&& M = 3780903404) (h : Keeps M s t) : Keeps M s (State.lateWriteback t a1 a2) := by
  unfold State.lateWriteback
  try dsimp only
  repeat' (first
    | with_reducible assumption
    | with_reducible exact Keeps.refl _ _
    | ((with_reducible refine Keeps.subMask hM ?_); exact rfl)
    | with_reducible apply State.unitDo_keeps
    | with_reducible apply State.settle_keeps
    | with_reducible apply State.writebackEntry_keeps
    | (dsimp only [keepsMk]; (with_reducible apply KeepsMk.put ?_ rfl rfl) <;> first | exact Or.inl (Keeps.subBit hM rfl) | exact Or.inr rfl | exact id | skip)
    | split)

theorem State.recallWhere_keeps {M : Nat} {s t : State} {a1 : _} {a2 : _} {a3 : _} {a4 : _}
    (hM : 4260684 &&& M = 4260684) (h4 : ∀ t e, Keeps M t (a4 t e)) (h : Keeps M s t) : Keeps M s (State.recallWhere t a1 a2 a3 a4) := by
  unfold State.recallWhere
  try dsimp only
  repeat' (first
    | with_reducible assumption
    | with_reducible exact Keeps.refl _ _
    | ((with_reducible refine Keeps.subMask hM ?_); exact rfl)
    | with_reducible refine Keeps.after ?_ (h4 ..)
    | with_reducible apply State.waitTxn_keeps
    | with_reducible apply State.startTxn_keeps
    | with_reducible refine Keeps.foldl ?_ _ ?_
    | with_reducible refine Keeps.foldl_fst ?_ _ ?_
    | with_reducible refine Keeps.foldl_snd ?_ _ ?_
    | split
    | with_reducible refine Keeps.fst ‹_ = (_, _)› ?_
    | intro _)

theorem State.orphanSlice_keeps {M : Nat} {s t : State} {a1 : _} {a2 : _}
    (hM : 4522828 &&& M = 4522828) (h : Keeps M s t) : Keeps M s (State.orphanSlice t a1 a2) := by
  unfold State.orphanSlice
  try dsimp only
  repeat' (first
    | with_reducible assumption
    | with_reducible exact Keeps.refl _ _
    | ((with_reducible refine Keeps.subMask hM ?_); exact rfl)
    | with_reducible apply State.tellDir_keeps
    | with_reducible apply State.updSlice_keeps
    | with_reducible apply State.startTxn_keeps
    | with_reducible refine Keeps.foldl ?_ _ ?_
    | with_reducible refine Keeps.foldl_fst ?_ _ ?_
    | with_reducible refine Keeps.foldl_snd ?_ _ ?_
    | split
    | with_reducible refine Keeps.fst ‹_ = (_, _)› ?_
    | intro _)

theorem State.startHold_keeps {M : Nat} {s t : State} {a1 : _} {a2 : _}
    (hM : 64 &&& M = 64) (h : Keeps M s t) : Keeps M s (State.startHold t a1 a2) := by
  unfold State.startHold
  try dsimp only
  repeat' (first
    | with_reducible assumption
    | with_reducible exact Keeps.refl _ _
    | with_reducible apply State.updSlice_keeps
    | split)

/-! ### Machine/PitchOps.lean -/

theorem State.mapTrees_keeps {M : Nat} {s t : State} {a1 : _}
    (hM : 4096 &&& M = 4096) (h : Keeps M s t) : Keeps M s (State.mapTrees t a1) := by
  unfold State.mapTrees
  try dsimp only
  repeat' (first
    | with_reducible assumption
    | with_reducible exact Keeps.refl _ _
    | with_reducible apply State.updTree_keeps
    | with_reducible refine Keeps.foldl ?_ _ ?_
    | with_reducible refine Keeps.foldl_fst ?_ _ ?_
    | with_reducible refine Keeps.foldl_snd ?_ _ ?_
    | split
    | with_reducible refine Keeps.fst ‹_ = (_, _)› ?_
    | intro _)

theorem State.mapBarrows_keeps {M : Nat} {s t : State} {a1 : _}
    (hM : 1024 &&& M = 1024) (h : Keeps M s t) : Keeps M s (State.mapBarrows t a1) := by
  unfold State.mapBarrows
  try dsimp only
  repeat' (first
    | with_reducible assumption
    | with_reducible exact Keeps.refl _ _
    | with_reducible apply State.updBarrow_keeps
    | with_reducible refine Keeps.foldl ?_ _ ?_
    | with_reducible refine Keeps.foldl_fst ?_ _ ?_
    | with_reducible refine Keeps.foldl_snd ?_ _ ?_
    | split
    | with_reducible refine Keeps.fst ‹_ = (_, _)› ?_
    | intro _)

theorem State.answerHeld_keeps {M : Nat} {s t : State} {a1 : _} {a2 : _}
    (hM : 4259852 &&& M = 4259852) (h : Keeps M s t) : Keeps M s (State.answerHeld t a1 a2) := by
  induction a2 generalizing t a1 with
  | nil =>
    unfold State.answerHeld
    try dsimp only
    repeat' (first
      | with_reducible assumption)
  | cons x l ih =>
    unfold State.answerHeld
    try dsimp only
    repeat' (first
      | with_reducible assumption
      | with_reducible exact Keeps.refl _ _
      | with_reducible apply ih
      | with_reducible apply State.answer_keeps)

theorem State.stopTrees_keeps {M : Nat} {s t : State} {a1 : _} {a2 : _}
    (hM : 4096 &&& M = 4096) (h : Keeps M s t) : Keeps M s (State.stopTrees t a1 a2) := by
  unfold State.stopTrees
  try dsimp only
  repeat' (first
    | with_reducible assumption
    | with_reducible exact Keeps.refl _ _
    | with_reducible apply State.mapTrees_keeps)

theorem State.stopWorkers_keeps {M : Nat} {s t : State} {a1 : _} {a2 : _} {a3 : _}
    (hM : 1024 &&& M = 1024) (h : Keeps M s t) : Keeps M s (State.stopWorkers t a1 a2 a3) := by
  unfold State.stopWorkers
  try dsimp only
  repeat' (first
    | with_reducible assumption
    | with_reducible exact Keeps.refl _ _
    | with_reducible apply State.mapBarrows_keeps)

theorem State.markDescs_keeps {M : Nat} {s t : State} {a1 : _} {a2 : _}
    (hM : 5152 &&& M = 5152) (h : Keeps M s t) : Keeps M s (State.markDescs t a1 a2) := by
  unfold State.markDescs
  try dsimp only
  repeat' (first
    | with_reducible assumption
    | with_reducible exact Keeps.refl _ _
    | ((with_reducible refine Keeps.subMask hM ?_); exact rfl)
    | with_reducible apply State.updRevoke_keeps
    | with_reducible apply State.stopTrees_keeps
    | with_reducible apply State.stopWorkers_keeps)

theorem State.recallRevoked_keeps {M : Nat} {s t : State} {a1 : _} {a2 : _} {a3 : _}
    (hM : 2169308140 &&& M = 2169308140) (h : Keeps M s t) : Keeps M s (State.recallRevoked t a1 a2 a3) := by
  unfold State.recallRevoked
  try dsimp only
  repeat' (first
    | with_reducible assumption
    | with_reducible exact Keeps.refl _ _
    | ((with_reducible refine Keeps.subMask hM ?_); exact rfl)
    | with_reducible apply State.recallWhere_keeps
    | with_reducible apply State.freeLine_keeps
    | with_reducible apply State.poisonAt_keeps
    | split
    | with_reducible refine Keeps.fst ‹_ = (_, _)› ?_
    | intro _)

theorem State.markSlice_keeps {M : Nat} {s t : State} {a1 : _} {a2 : _} {a3 : _}
    (hM : 64 &&& M = 64) (h : Keeps M s t) : Keeps M s (State.markSlice t a1 a2 a3) := by
  unfold State.markSlice
  try dsimp only
  repeat' (first
    | with_reducible assumption
    | with_reducible exact Keeps.refl _ _
    | with_reducible apply State.updSlice_keeps)

theorem State.setGranule_keeps {M : Nat} {s t : State} {a1 : _} {a2 : _}
    (hM : 4980772 &&& M = 4980772) (h : Keeps M s t) : Keeps M s (State.setGranule t a1 a2).1 := by
  unfold State.setGranule
  try dsimp only
  repeat' (first
    | with_reducible assumption
    | with_reducible exact Keeps.refl _ _
    | ((with_reducible refine Keeps.subMask hM ?_); exact rfl)
    | with_reducible apply State.tellPitch_keeps
    | with_reducible apply State.sramWrite_keeps
    | with_reducible apply State.updGranule_keeps)

theorem State.setGranules_keeps {M : Nat} {s t : State} {a1 : _} {a2 : _}
    (hM : 4980772 &&& M = 4980772) (h : Keeps M s t) : Keeps M s (State.setGranules t a1 a2).1 := by
  unfold State.setGranules
  try dsimp only
  repeat' (first
    | with_reducible assumption
    | with_reducible exact Keeps.refl _ _
    | with_reducible apply State.setGranule_keeps
    | with_reducible refine Keeps.foldl ?_ _ ?_
    | with_reducible refine Keeps.foldl_fst ?_ _ ?_
    | with_reducible refine Keeps.foldl_snd ?_ _ ?_
    | split
    | with_reducible refine Keeps.fst ‹_ = (_, _)› ?_
    | intro _)

theorem State.startRevoke_keeps {M : Nat} {s t : State} {a1 : _} {a2 : _} {a3 : _}
    (hM : 3780974574 &&& M = 3780974574) (h : Keeps M s t) : Keeps M s (State.startRevoke t a1 a2 a3).1 := by
  unfold State.startRevoke
  try dsimp only
  repeat' (first
    | with_reducible assumption
    | with_reducible exact Keeps.refl _ _
    | ((with_reducible refine Keeps.subMask hM ?_); exact rfl)
    | with_reducible apply State.updRevoke_keeps
    | with_reducible apply State.setReg_keeps
    | with_reducible apply State.markDescs_keeps
    | with_reducible apply State.recallRevoked_keeps
    | with_reducible apply State.markSlice_keeps
    | with_reducible apply State.setGranules_keeps
    | with_reducible apply State.cohGoAll_keeps
    | with_reducible refine Keeps.foldl ?_ _ ?_
    | with_reducible refine Keeps.foldl_fst ?_ _ ?_
    | with_reducible refine Keeps.foldl_snd ?_ _ ?_
    | split
    | with_reducible refine Keeps.fst ‹_ = (_, _)› ?_
    | intro _)

theorem State.freeFrames_keeps {M : Nat} {s t : State} {a1 : _}
    (hM : 64 &&& M = 64) (h : Keeps M s t) : Keeps M s (State.freeFrames t a1) := by
  unfold State.freeFrames
  try dsimp only
  repeat' (first
    | with_reducible assumption
    | with_reducible exact Keeps.refl _ _
    | with_reducible apply State.updSlice_keeps
    | with_reducible refine Keeps.foldl ?_ _ ?_
    | with_reducible refine Keeps.foldl_fst ?_ _ ?_
    | with_reducible refine Keeps.foldl_snd ?_ _ ?_
    | split
    | with_reducible refine Keeps.fst ‹_ = (_, _)› ?_
    | intro _)

theorem State.clearGranule_keeps {M : Nat} {s t : State} {a1 : _}
    (hM : 2148008128 &&& M = 2148008128) (h : Keeps M s t) : Keeps M s (State.clearGranule t a1) := by
  unfold State.clearGranule
  try dsimp only
  repeat' (first
    | with_reducible assumption
    | with_reducible exact Keeps.refl _ _
    | ((with_reducible refine Keeps.subMask hM ?_); exact rfl)
    | with_reducible apply State.updChan_keeps
    | with_reducible apply State.freeFrames_keeps
    | with_reducible refine Keeps.foldl ?_ _ ?_
    | with_reducible refine Keeps.foldl_fst ?_ _ ?_
    | with_reducible refine Keeps.foldl_snd ?_ _ ?_
    | (dsimp only [keepsMk]; (with_reducible apply KeepsMk.put ?_ rfl rfl) <;> first | exact Or.inl (Keeps.subBit hM rfl) | exact Or.inr rfl | exact id | skip)
    | with_reducible exact ChanSt.wf_wipe _ _ (by assumption)
    | with_reducible exact ChanSt.wf_setLine _ _ _ (by assumption)
    | with_reducible exact Tbl.wf_set _ _ (by assumption)
    | with_reducible exact Tbl.wf_filter _ (by assumption)
    | with_reducible exact Tbl.wf_nil _
    | with_reducible exact State.memOk_chan (by assumption) _
    | split
    | with_reducible refine Keeps.fst ‹_ = (_, _)› ?_
    | intro _)

theorem State.forwardClear_keeps {M : Nat} {s t : State} {a1 : _}
    (hM : 4456452 &&& M = 4456452) (h : Keeps M s t) : Keeps M s (State.forwardClear t a1) := by
  unfold State.forwardClear
  try dsimp only
  repeat' (first
    | with_reducible assumption
    | with_reducible exact Keeps.refl _ _
    | with_reducible apply State.halPush_keeps
    | with_reducible refine Keeps.foldl ?_ _ ?_
    | with_reducible refine Keeps.foldl_fst ?_ _ ?_
    | with_reducible refine Keeps.foldl_snd ?_ _ ?_
    | split
    | with_reducible refine Keeps.fst ‹_ = (_, _)› ?_
    | intro _)

theorem State.clearAndFree_keeps {M : Nat} {s t : State} {a1 : _}
    (hM : 2169241828 &&& M = 2169241828) (h : Keeps M s t) : Keeps M s (State.clearAndFree t a1).1 := by
  unfold State.clearAndFree
  try dsimp only
  repeat' (first
    | with_reducible assumption
    | with_reducible exact Keeps.refl _ _
    | ((with_reducible refine Keeps.subMask hM ?_); exact rfl)
    | with_reducible apply State.pipePush_keeps
    | with_reducible apply State.setGranule_keeps
    | with_reducible apply State.clearGranule_keeps
    | with_reducible apply State.forwardClear_keeps
    | with_reducible refine Keeps.foldl ?_ _ ?_
    | with_reducible refine Keeps.foldl_fst ?_ _ ?_
    | with_reducible refine Keeps.foldl_snd ?_ _ ?_
    | split
    | with_reducible refine Keeps.fst ‹_ = (_, _)› ?_
    | intro _)

theorem State.clearAll_keeps {M : Nat} {s t : State} {a1 : _}
    (hM : 2169241828 &&& M = 2169241828) (h : Keeps M s t) : Keeps M s (State.clearAll t a1).1 := by
  unfold State.clearAll
  try dsimp only
  repeat' (first
    | with_reducible assumption
    | with_reducible exact Keeps.refl _ _
    | with_reducible apply State.clearAndFree_keeps
    | with_reducible refine Keeps.foldl ?_ _ ?_
    | with_reducible refine Keeps.foldl_fst ?_ _ ?_
    | with_reducible refine Keeps.foldl_snd ?_ _ ?_
    | split
    | with_reducible refine Keeps.fst ‹_ = (_, _)› ?_
    | intro _)

theorem State.pruneStall_keeps {M : Nat} {s t : State} {a1 : _}
    (hM : 77888 &&& M = 77888) (h : Keeps M s t) : Keeps M s (State.pruneStall t a1) := by
  unfold State.pruneStall
  try dsimp only
  repeat' (first
    | with_reducible assumption
    | with_reducible exact Keeps.refl _ _
    | ((with_reducible refine Keeps.subMask hM ?_); exact rfl)
    | with_reducible apply State.dropPackets_keeps
    | with_reducible refine Keeps.foldl ?_ _ ?_
    | with_reducible refine Keeps.foldl_fst ?_ _ ?_
    | with_reducible refine Keeps.foldl_snd ?_ _ ?_
    | (dsimp only [keepsMk]; (with_reducible apply KeepsMk.put ?_ rfl rfl) <;> first | exact Or.inl (Keeps.subBit hM rfl) | exact Or.inr rfl | exact id | skip))

theorem State.discardStall_keeps {M : Nat} {s t : State} {a1 : _}
    (hM : 4259936 &&& M = 4259936) (h : Keeps M s t) : Keeps M s (State.discardStall t a1) := by
  unfold State.discardStall
  try dsimp only
  repeat' (first
    | with_reducible assumption
    | with_reducible exact Keeps.refl _ _
    | ((with_reducible refine Keeps.subMask hM ?_); exact rfl)
    | with_reducible apply State.dropPackets_keeps
    | with_reducible apply State.discardTrk_keeps
    | with_reducible refine Keeps.foldl ?_ _ ?_
    | with_reducible refine Keeps.foldl_fst ?_ _ ?_
    | with_reducible refine Keeps.foldl_snd ?_ _ ?_
    | split
    | with_reducible refine Keeps.fst ‹_ = (_, _)› ?_
    | intro _)

theorem State.dropHints_keeps {M : Nat} {s t : State} {a1 : _} {a2 : _}
    (hM : 64 &&& M = 64) (h : Keeps M s t) : Keeps M s (State.dropHints t a1 a2) := by
  unfold State.dropHints
  try dsimp only
  repeat' (first
    | with_reducible assumption
    | with_reducible exact Keeps.refl _ _
    | with_reducible apply State.updSlice_keeps)

theorem State.expireRevoke_keeps {M : Nat} {s t : State} {a1 : _}
    (hM : 3780969452 &&& M = 3780969452) (h : Keeps M s t) : Keeps M s (State.expireRevoke t a1) := by
  unfold State.expireRevoke
  try dsimp only
  repeat' (first
    | with_reducible assumption
    | with_reducible exact Keeps.refl _ _
    | ((with_reducible refine Keeps.subMask hM ?_); exact rfl)
    | with_reducible apply State.updSlice_keeps
    | with_reducible apply State.updRevoke_keeps
    | with_reducible apply State.abort_keeps
    | with_reducible apply State.poisonAt_keeps
    | with_reducible apply State.freeLine_keeps
    | with_reducible apply State.dropTxn_keeps
    | with_reducible apply State.cohGoAll_keeps
    | with_reducible refine Keeps.foldl ?_ _ ?_
    | with_reducible refine Keeps.foldl_fst ?_ _ ?_
    | with_reducible refine Keeps.foldl_snd ?_ _ ?_
    | split
    | with_reducible refine Keeps.fst ‹_ = (_, _)› ?_
    | intro _)

theorem State.fenceStall_keeps {M : Nat} {s t : State} {a1 : _} {a2 : _}
    (hM : 3780981740 &&& M = 3780981740) (h : Keeps M s t) : Keeps M s (State.fenceStall t a1 a2) := by
  unfold State.fenceStall
  try dsimp only
  repeat' (first
    | with_reducible assumption
    | with_reducible exact Keeps.refl _ _
    | ((with_reducible refine Keeps.subMask hM ?_); exact rfl)
    | with_reducible apply State.answerHeld_keeps
    | with_reducible apply State.updStall_keeps
    | with_reducible apply State.discardStall_keeps
    | with_reducible apply State.pruneStall_keeps
    | with_reducible apply State.absentStall_keeps
    | with_reducible apply State.orphanSlice_keeps
    | with_reducible apply State.cohGoAll_keeps
    | with_reducible apply State.crier_keeps
    | with_reducible apply State.fault_keeps
    | with_reducible apply State.ledger_keeps
    | with_reducible apply State.tellStall_keeps
    | with_reducible refine Keeps.foldl ?_ _ ?_
    | with_reducible refine Keeps.foldl_fst ?_ _ ?_
    | with_reducible refine Keeps.foldl_snd ?_ _ ?_
    | (dsimp only [keepsMk]; (with_reducible apply KeepsMk.put ?_ rfl rfl) <;> first | exact Or.inl (Keeps.subBit hM rfl) | exact Or.inr rfl | exact id | skip)
    | exact Or.inl (Keeps.subBit hM rfl)
    | exact Or.inr fun _ => rfl
    | split
    | with_reducible refine Keeps.fst ‹_ = (_, _)› ?_
    | intro _)

theorem State.finishRevoke_keeps {M : Nat} {s t : State} {a1 : _}
    (hM : 6029422 &&& M = 6029422) (h : Keeps M s t) : Keeps M s (State.finishRevoke t a1) := by
  unfold State.finishRevoke
  try dsimp only
  repeat' (first
    | with_reducible assumption
    | with_reducible exact Keeps.refl _ _
    | ((with_reducible refine Keeps.subMask hM ?_); exact rfl)
    | with_reducible apply State.setGranules_keeps
    | with_reducible apply State.repin_keeps
    | with_reducible apply State.dropHints_keeps
    | with_reducible apply State.setReg_keeps
    | with_reducible apply State.updRevoke_keeps
    | with_reducible apply State.crier_keeps
    | with_reducible apply State.ledger_keeps
    | with_reducible refine Keeps.foldl ?_ _ ?_
    | with_reducible refine Keeps.foldl_fst ?_ _ ?_
    | with_reducible refine Keeps.foldl_snd ?_ _ ?_
    | split
    | with_reducible refine Keeps.fst ‹_ = (_, _)› ?_
    | intro _)

end Sys2Proof.Machine
end

