-- ==== Sys2Proof/Laws/Frame3.lean ====
section
/-! SUPPORT. What each operation may change and that it keeps the memory's canonical form: Barrows, ResetOps, PowerOps, Board, TierOps, EgressOps, Servo, Links, Bunting. -/

set_option linter.unusedTactic false
set_option linter.unreachableTactic false
set_option linter.unusedVariables false

namespace Sys2Proof.Machine

/-! ### Machine/Barrows.lean -/

theorem State.wakeTrees_keeps {M : Nat} {s t : State} {a1 : _} {a2 : _}
    (hM : 4096 &&& M = 4096) (h : Keeps M s t) : Keeps M s (State.wakeTrees t a1 a2) := by
  unfold State.wakeTrees
  try dsimp only
  repeat' (first
    | with_reducible assumption
    | with_reducible exact Keeps.refl _ _
    | with_reducible apply State.mapTrees_keeps)

theorem State.finishLaunch_keeps {M : Nat} {s t : State} {a1 : _} {a2 : _} {a3 : _}
    (hM : 2169246956 &&& M = 2169246956) (h : Keeps M s t) : Keeps M s (State.finishLaunch t a1 a2 a3) := by
  unfold State.finishLaunch
  try dsimp only
  repeat' (first
    | with_reducible assumption
    | with_reducible exact Keeps.refl _ _
    | ((with_reducible refine Keeps.subMask hM ?_); exact rfl)
    | with_reducible apply State.ringWrite_keeps
    | with_reducible apply State.count_keeps
    | with_reducible apply State.updBarrow_keeps
    | with_reducible apply State.crier_keeps
    | with_reducible apply State.wakeTrees_keeps
    | with_reducible refine Keeps.foldl ?_ _ ?_
    | with_reducible refine Keeps.foldl_fst ?_ _ ?_
    | with_reducible refine Keeps.foldl_snd ?_ _ ?_
    | split
    | with_reducible refine Keeps.fst ‹_ = (_, _)› ?_
    | intro _)

theorem State.endQueued_keeps {M : Nat} {s t : State} {a1 : _}
    (hM : 2169246956 &&& M = 2169246956) (h : Keeps M s t) : Keeps M s (State.endQueued t a1) := by
  unfold State.endQueued
  try dsimp only
  repeat' (first
    | with_reducible assumption
    | with_reducible exact Keeps.refl _ _
    | ((with_reducible refine Keeps.subMask hM ?_); exact rfl)
    | with_reducible apply State.updSlice_keeps
    | with_reducible apply State.finishLaunch_keeps
    | with_reducible apply State.updBarrow_keeps
    | with_reducible refine Keeps.foldl ?_ _ ?_
    | with_reducible refine Keeps.foldl_fst ?_ _ ?_
    | with_reducible refine Keeps.foldl_snd ?_ _ ?_
    | split
    | with_reducible refine Keeps.fst ‹_ = (_, _)› ?_
    | intro _)

theorem State.abortBarrow_keeps {M : Nat} {s t : State} {a1 : _}
    (hM : 2169246956 &&& M = 2169246956) (h : Keeps M s t) : Keeps M s (State.abortBarrow t a1) := by
  unfold State.abortBarrow
  try dsimp only
  repeat' (first
    | with_reducible assumption
    | with_reducible exact Keeps.refl _ _
    | ((with_reducible refine Keeps.subMask hM ?_); exact rfl)
    | with_reducible apply State.updBarrow_keeps
    | with_reducible apply State.endQueued_keeps)

theorem State.abortAll_keeps {M : Nat} {s t : State} {a1 : _}
    (hM : 2169246956 &&& M = 2169246956) (h : Keeps M s t) : Keeps M s (State.abortAll t a1) := by
  unfold State.abortAll
  try dsimp only
  repeat' (first
    | with_reducible assumption
    | with_reducible exact Keeps.refl _ _
    | with_reducible apply State.abortBarrow_keeps
    | with_reducible refine Keeps.foldl ?_ _ ?_
    | with_reducible refine Keeps.foldl_fst ?_ _ ?_
    | with_reducible refine Keeps.foldl_snd ?_ _ ?_
    | split
    | with_reducible refine Keeps.fst ‹_ = (_, _)› ?_
    | intro _)

theorem actBarrowAbort_keeps {M : Nat} {s t : State} {a1 : _}
    (hM : 2169246956 &&& M = 2169246956) (h : Keeps M s t) : Keeps M s (actBarrowAbort a1 t).1 := by
  unfold actBarrowAbort
  try dsimp only
  repeat' (first
    | with_reducible assumption
    | with_reducible exact Keeps.refl _ _
    | with_reducible apply State.abortAll_keeps
    | split)

theorem State.freeBound_keeps {M : Nat} {s t : State} {a1 : _}
    (hM : 64 &&& M = 64) (h : Keeps M s t) : Keeps M s (State.freeBound t a1) := by
  unfold State.freeBound
  try dsimp only
  repeat' (first
    | with_reducible assumption
    | with_reducible exact Keeps.refl _ _
    | with_reducible apply State.updSlice_keeps
    | with_reducible refine Keeps.foldl ?_ _ ?_
    | with_reducible refine Keeps.foldl_fst ?_ _ ?_
    | with_reducible refine Keeps.foldl_snd ?_ _ ?_
    | split
    | with_reducible refine Keeps.fst ‹_ = (_, _)› ?_
    | intro _)

theorem State.freeSnaps_keeps {M : Nat} {s t : State} {a1 : _}
    (hM : 64 &&& M = 64) (h : Keeps M s t) : Keeps M s (State.freeSnaps t a1) := by
  unfold State.freeSnaps
  try dsimp only
  repeat' (first
    | with_reducible assumption
    | with_reducible exact Keeps.refl _ _
    | with_reducible apply State.updSlice_keeps
    | with_reducible refine Keeps.foldl ?_ _ ?_
    | with_reducible refine Keeps.foldl_fst ?_ _ ?_
    | with_reducible refine Keeps.foldl_snd ?_ _ ?_
    | split
    | with_reducible refine Keeps.fst ‹_ = (_, _)› ?_
    | intro _)

theorem State.keepPlaces_keeps {M : Nat} {s t : State} {a1 : _} {a2 : _}
    (hM : 64 &&& M = 64) (h : Keeps M s t) : Keeps M s (State.keepPlaces t a1 a2) := by
  unfold State.keepPlaces
  try dsimp only
  repeat' (first
    | with_reducible assumption
    | with_reducible exact Keeps.refl _ _
    | with_reducible apply State.updSlice_keeps
    | with_reducible refine Keeps.foldl ?_ _ ?_
    | with_reducible refine Keeps.foldl_fst ?_ _ ?_
    | with_reducible refine Keeps.foldl_snd ?_ _ ?_
    | split
    | with_reducible refine Keeps.fst ‹_ = (_, _)› ?_
    | intro _)

theorem State.launchCycle_keeps {M : Nat} {s t : State} {a1 : _} {a2 : _}
    (hM : 4195392 &&& M = 4195392) (h : Keeps M s t) : Keeps M s (State.launchCycle t a1 a2) := by
  unfold State.launchCycle
  try dsimp only
  repeat' (first
    | with_reducible assumption
    | with_reducible exact Keeps.refl _ _
    | ((with_reducible refine Keeps.subMask hM ?_); exact rfl)
    | with_reducible apply State.updSlice_keeps
    | with_reducible apply State.resetTally_keeps
    | with_reducible apply State.closeRegion_keeps
    | with_reducible apply State.updBarrow_keeps
    | with_reducible refine Keeps.foldl ?_ _ ?_
    | with_reducible refine Keeps.foldl_fst ?_ _ ?_
    | with_reducible refine Keeps.foldl_snd ?_ _ ?_
    | split
    | with_reducible refine Keeps.fst ‹_ = (_, _)› ?_
    | intro _)

theorem State.writeBarrow_keeps {M : Nat} {s t : State} {a1 : _} {a2 : _}
    (hM : 1088 &&& M = 1088) (h : Keeps M s t) : Keeps M s (State.writeBarrow a1 a2 t).1 := by
  unfold State.writeBarrow
  try dsimp only
  repeat' (first
    | with_reducible assumption
    | with_reducible exact Keeps.refl _ _
    | ((with_reducible refine Keeps.subMask hM ?_); exact rfl)
    | with_reducible apply State.updBarrow_keeps
    | with_reducible apply State.freeBound_keeps
    | with_reducible refine Keeps.foldl ?_ _ ?_
    | with_reducible refine Keeps.foldl_fst ?_ _ ?_
    | with_reducible refine Keeps.foldl_snd ?_ _ ?_
    | split
    | with_reducible refine Keeps.fst ‹_ = (_, _)› ?_
    | intro _)

theorem State.writeProgram_keeps {M : Nat} {s t : State} {a1 : _} {a2 : _} {a3 : _}
    (hM : 524352 &&& M = 524352) (h : Keeps M s t) : Keeps M s (State.writeProgram a1 a2 a3 t).1 := by
  unfold State.writeProgram
  try dsimp only
  repeat' (first
    | with_reducible assumption
    | with_reducible exact Keeps.refl _ _
    | ((with_reducible refine Keeps.subMask hM ?_); exact rfl)
    | with_reducible apply State.updSlice_keeps
    | with_reducible apply State.sramWrite_keeps
    | split)

theorem execBarrowTableWrite_keeps {M : Nat} {s t : State} {a1 : _} {a2 : _} {a3 : _}
    (hM : 7930956 &&& M = 7930956) (h : Keeps M s t) : KeepsOut M s (execBarrowTableWrite a1 a2 a3 t) := by
  unfold execBarrowTableWrite
  try dsimp only
  repeat' (first
    | with_reducible assumption
    | with_reducible exact Keeps.refl _ _
    | ((with_reducible refine Keeps.subMask hM ?_); exact rfl)
    | with_reducible apply KeepsOut.next
    | with_reducible apply State.writeWindow_keeps
    | with_reducible apply State.writeBarrow_keeps
    | split
    | with_reducible refine Keeps.fst ‹_ = (_, _)› ?_
    | intro _)

theorem execBarrowAbort_keeps {M : Nat} {s t : State} {a1 : _} {a2 : _}
    (hM : 2172458220 &&& M = 2172458220) (h : Keeps M s t) : KeepsOut M s (execBarrowAbort a1 a2 t) := by
  unfold execBarrowAbort
  try dsimp only
  repeat' (first
    | with_reducible assumption
    | with_reducible exact Keeps.refl _ _
    | ((with_reducible refine Keeps.subMask hM ?_); exact rfl)
    | with_reducible apply KeepsOut.next
    | with_reducible apply State.write_keeps
    | with_reducible apply actBarrowAbort_keeps
    | split
    | with_reducible refine Keeps.fst ‹_ = (_, _)› ?_
    | intro _)

theorem execProgramStoreWrite_keeps {M : Nat} {s t : State} {a1 : _} {a2 : _} {a3 : _} {a4 : _}
    (hM : 7929932 &&& M = 7929932) (h : Keeps M s t) : KeepsOut M s (execProgramStoreWrite a1 a2 a3 a4 t) := by
  unfold execProgramStoreWrite
  try dsimp only
  repeat' (first
    | with_reducible assumption
    | with_reducible exact Keeps.refl _ _
    | ((with_reducible refine Keeps.subMask hM ?_); exact rfl)
    | with_reducible apply KeepsOut.next
    | with_reducible apply State.writeWindow_keeps
    | with_reducible apply State.writeProgram_keeps
    | split
    | with_reducible refine Keeps.fst ‹_ = (_, _)› ?_
    | intro _)

theorem execTriggerLaunch_keeps {M : Nat} {s t : State} {a1 : _}
    (hM : 4195328 &&& M = 4195328) (h : Keeps M s t) : KeepsOut M s (execTriggerLaunch a1 t) := by
  unfold execTriggerLaunch
  try dsimp only
  repeat' (first
    | with_reducible assumption
    | with_reducible exact Keeps.refl _ _
    | ((with_reducible refine Keeps.subMask hM ?_); exact rfl)
    | with_reducible apply KeepsOut.next
    | with_reducible apply State.updBarrow_keeps
    | with_reducible apply State.triggerLaunch_keeps
    | split)

theorem execLaunchStart_keeps {M : Nat} {s t : State} {a1 : _}
    (hM : 4195392 &&& M = 4195392) (h : Keeps M s t) : KeepsOut M s (execLaunchStart a1 t) := by
  unfold execLaunchStart
  try dsimp only
  repeat' (first
    | with_reducible assumption
    | with_reducible exact Keeps.refl _ _
    | ((with_reducible refine Keeps.subMask hM ?_); exact rfl)
    | with_reducible apply KeepsOut.next
    | with_reducible apply State.launchCycle_keeps
    | with_reducible apply State.keepPlaces_keeps
    | split)

theorem execDescEnd_keeps {M : Nat} {s t : State} {a1 : _} {a2 : _}
    (hM : 21496904 &&& M = 21496904) (h : Keeps M s t) : KeepsOut M s (execDescEnd a1 a2 t) := by
  unfold execDescEnd
  try dsimp only
  repeat' (first
    | with_reducible assumption
    | with_reducible exact Keeps.refl _ _
    | ((with_reducible refine Keeps.subMask hM ?_); exact rfl)
    | with_reducible apply KeepsOut.next
    | with_reducible apply State.descriptor_keeps
    | with_reducible apply State.stopMember_keeps
    | with_reducible refine State.descriptor_keeps ?_ ?_ ?_
    | (refine ⟨fun _ _ => ?_, fun _ _ => ?_, fun _ _ => ?_⟩; all_goals try dsimp only))

theorem execDescSync_keeps {M : Nat} {s t : State} {a1 : _} {a2 : _}
    (hM : 21496904 &&& M = 21496904) (h : Keeps M s t) : KeepsOut M s (execDescSync a1 a2 t) := by
  unfold execDescSync
  try dsimp only
  repeat' (first
    | with_reducible assumption
    | with_reducible exact Keeps.refl _ _
    | ((with_reducible refine Keeps.subMask hM ?_); exact rfl)
    | with_reducible apply KeepsOut.next
    | with_reducible apply State.descriptor_keeps
    | with_reducible apply State.updMember_keeps
    | with_reducible refine State.descriptor_keeps ?_ ?_ ?_
    | (refine ⟨fun _ _ => ?_, fun _ _ => ?_, fun _ _ => ?_⟩; all_goals try dsimp only)
    | split)

theorem execSyncComplete_keeps {M : Nat} {s t : State} {a1 : _}
    (hM : 1024 &&& M = 1024) (h : Keeps M s t) : KeepsOut M s (execSyncComplete a1 t) := by
  unfold execSyncComplete
  try dsimp only
  repeat' (first
    | with_reducible assumption
    | with_reducible exact Keeps.refl _ _
    | with_reducible apply KeepsOut.next
    | with_reducible apply State.updBarrow_keeps
    | with_reducible apply State.goOn_keeps
    | with_reducible apply State.updMember_keeps
    | with_reducible refine Keeps.foldl ?_ _ ?_
    | with_reducible refine Keeps.foldl_fst ?_ _ ?_
    | with_reducible refine Keeps.foldl_snd ?_ _ ?_
    | split
    | with_reducible refine Keeps.fst ‹_ = (_, _)› ?_
    | intro _)

theorem execDescBudgetExceeded_keeps {M : Nat} {s t : State} {a1 : _}
    (hM : 1024 &&& M = 1024) (h : Keeps M s t) : KeepsOut M s (execDescBudgetExceeded a1 t) := by
  unfold execDescBudgetExceeded
  try dsimp only
  repeat' (first
    | with_reducible assumption
    | with_reducible exact Keeps.refl _ _
    | with_reducible apply KeepsOut.next
    | with_reducible apply State.updBarrow_keeps)

theorem execLaunchComplete_keeps {M : Nat} {s t : State} {a1 : _}
    (hM : 2169246956 &&& M = 2169246956) (h : Keeps M s t) : KeepsOut M s (execLaunchComplete a1 t) := by
  unfold execLaunchComplete
  try dsimp only
  repeat' (first
    | with_reducible assumption
    | with_reducible exact Keeps.refl _ _
    | ((with_reducible refine Keeps.subMask hM ?_); exact rfl)
    | with_reducible apply KeepsOut.next
    | with_reducible apply State.updBarrow_keeps
    | with_reducible apply State.freeSnaps_keeps
    | with_reducible apply State.finishLaunch_keeps
    | split)

/-! ### Machine/ResetOps.lean -/

theorem State.chans_ok {u : State} {g : ChanSt → ChanSt} (l : Tbl ChanSt)
    (hg : ∀ p ∈ l, Tbl.wf (g p.2).mem clearLine = true)
    (e : u.chans = l.foldl (fun (t : Tbl ChanSt) (p : Nat × ChanSt) => t.set ({} : ChanSt) p.1 (g p.2)) []) : u.memOk := by
  have key : ∀ (l : Tbl ChanSt) (t : Tbl ChanSt), (∀ p ∈ l, Tbl.wf (g p.2).mem clearLine = true) →
      (Tbl.wf t ({} : ChanSt) = true ∧ ∀ n, Tbl.wf (t.get ({} : ChanSt) n).mem clearLine = true) →
      (Tbl.wf (l.foldl (fun (t : Tbl ChanSt) (p : Nat × ChanSt) => t.set ({} : ChanSt) p.1 (g p.2)) t) ({} : ChanSt) = true ∧
        ∀ n, Tbl.wf ((l.foldl (fun (t : Tbl ChanSt) (p : Nat × ChanSt) => t.set ({} : ChanSt) p.1 (g p.2)) t).get ({} : ChanSt) n).mem clearLine = true) := by
    intro l
    induction l with
    | nil => intro t _ h; exact h
    | cons p r ih =>
      intro t hp h
      refine ih _ (fun q hq => hp q (List.mem_cons_of_mem _ hq)) ⟨Tbl.wf_set _ _ h.1, fun n => ?_⟩
      rw [Tbl.get_set]
      split
      · exact hp p List.mem_cons_self
      · exact h.2 n
  have k := key l [] hg ⟨rfl, fun _ => rfl⟩
  unfold State.memOk State.chan
  rw [e]
  exact k

theorem State.heldChans_ok {s u : State} (w : s.memOk) (e : u.chans = s.heldChans) : u.memOk :=
  State.chans_ok s.chans (g := fun c => { flashRows := c.flashRows, mem := c.mem })
    (fun p hp => by
      have := w.2 p.1
      rw [State.chan, Tbl.get_of_mem w.1 hp] at this
      exact this) e

theorem State.flashChans_ok {s u : State} (e : u.chans = s.flashChans) : u.memOk :=
  State.chans_ok s.chans (g := fun c => { flashRows := c.flashRows }) (fun _ _ => rfl) e

theorem State.fromFlash_keeps {M : Nat} {s t : State}
    (hM : 8455716862 &&& M = 8455716862) (h : Keeps M s t) : Keeps M s (State.fromFlash t) := by
  refine h.chans (Keeps.subBit hM rfl) (fun _ => State.flashChans_ok (s := t) rfl) rfl
    ?_ ?_ ?_ ?_ ?_ ?_ ?_ ?_ ?_ ?_ ?_ ?_ ?_ ?_ ?_ ?_ ?_ ?_ ?_ ?_ ?_ ?_ ?_ ?_ ?_ ?_ ?_ ?_ ?_ ?_ ?_ ?_ <;>
    first | exact Or.inl (Keeps.subBit hM rfl) | exact Or.inr rfl | exact fun _ => rfl

theorem State.boardReset_keeps {M : Nat} {s t : State} {a1 : _}
    (hM : 8455716862 &&& M = 8455716862) (h : Keeps M s t) : Keeps M s (State.boardReset t a1) := by
  refine h.chans (Keeps.subBit hM rfl) (fun w => State.heldChans_ok w rfl) rfl
    ?_ ?_ ?_ ?_ ?_ ?_ ?_ ?_ ?_ ?_ ?_ ?_ ?_ ?_ ?_ ?_ ?_ ?_ ?_ ?_ ?_ ?_ ?_ ?_ ?_ ?_ ?_ ?_ ?_ ?_ ?_ ?_ <;>
    first | exact Or.inl (Keeps.subBit hM rfl) | exact Or.inr rfl | exact fun _ => rfl

theorem State.goDark_keeps {M : Nat} {s t : State}
    (hM : 8455716862 &&& M = 8455716862) (h : Keeps M s t) : Keeps M s (State.goDark t) := by
  refine h.chans (Keeps.subBit hM rfl) (fun _ => State.flashChans_ok (s := t) rfl) rfl
    ?_ ?_ ?_ ?_ ?_ ?_ ?_ ?_ ?_ ?_ ?_ ?_ ?_ ?_ ?_ ?_ ?_ ?_ ?_ ?_ ?_ ?_ ?_ ?_ ?_ ?_ ?_ ?_ ?_ ?_ ?_ ?_ <;>
    first | exact Or.inl (Keeps.subBit hM rfl) | exact Or.inr rfl | exact fun _ => rfl

theorem State.powerReset_keeps {M : Nat} {s t : State}
    (hM : 8455716862 &&& M = 8455716862) (h : Keeps M s t) : Keeps M s (State.powerReset t) := by
  unfold State.powerReset
  try dsimp only
  repeat' (first
    | with_reducible assumption
    | with_reducible exact Keeps.refl _ _
    | with_reducible apply State.fromFlash_keeps
    | (dsimp only [keepsMk]; (with_reducible apply KeepsMk.put ?_ rfl rfl) <;> first | exact Or.inl (Keeps.subBit hM rfl) | exact Or.inr rfl | exact id | skip))

/-! ### Machine/PowerOps.lean -/

theorem State.rampCore_keeps {M : Nat} {s t : State} {a1 : _}
    (hM : 20971520 &&& M = 20971520) (h : Keeps M s t) : Keeps M s (State.rampCore t a1) := by
  unfold State.rampCore
  try dsimp only
  repeat' (first
    | with_reducible assumption
    | with_reducible exact Keeps.refl _ _
    | with_reducible apply State.beginRamp_keeps
    | with_reducible refine Keeps.foldl ?_ _ ?_
    | with_reducible refine Keeps.foldl_fst ?_ _ ?_
    | with_reducible refine Keeps.foldl_snd ?_ _ ?_
    | (dsimp only [keepsMk]; (with_reducible apply KeepsMk.put ?_ rfl rfl) <;> first | exact Or.inl (Keeps.subBit hM rfl) | exact Or.inr rfl | exact id | skip)
    | split
    | with_reducible refine Keeps.fst ‹_ = (_, _)› ?_
    | intro _)

theorem State.beginPower_keeps {M : Nat} {s t : State} {a1 : _}
    (hM : 29360128 &&& M = 29360128) (h : Keeps M s t) : Keeps M s (State.beginPower t a1) := by
  unfold State.beginPower
  try dsimp only
  repeat' (first
    | with_reducible assumption
    | with_reducible exact Keeps.refl _ _
    | ((with_reducible refine Keeps.subMask hM ?_); exact rfl)
    | with_reducible apply State.rampCore_keeps
    | (dsimp only [keepsMk]; (with_reducible apply KeepsMk.put ?_ rfl rfl) <;> first | exact Or.inl (Keeps.subBit hM rfl) | exact Or.inr rfl | exact id | skip)
    | split)

theorem State.askPower_keeps {M : Nat} {s t : State} {a1 : _}
    (hM : 29360128 &&& M = 29360128) (h : Keeps M s t) : Keeps M s (State.askPower t a1) := by
  unfold State.askPower
  try dsimp only
  repeat' (first
    | with_reducible assumption
    | with_reducible exact Keeps.refl _ _
    | with_reducible apply State.beginPower_keeps
    | (dsimp only [keepsMk]; (with_reducible apply KeepsMk.put ?_ rfl rfl) <;> first | exact Or.inl (Keeps.subBit hM rfl) | exact Or.inr rfl | exact id | skip)
    | split)

theorem State.heldPower_keeps {M : Nat} {s t : State}
    (hM : 29360128 &&& M = 29360128) (h : Keeps M s t) : Keeps M s (State.heldPower t) := by
  unfold State.heldPower
  try dsimp only
  repeat' (first
    | with_reducible assumption
    | with_reducible exact Keeps.refl _ _
    | with_reducible apply State.askPower_keeps
    | split)

theorem State.powerReached_keeps {M : Nat} {s t : State} {a1 : _}
    (hM : 29360128 &&& M = 29360128) (h : Keeps M s t) : Keeps M s (State.powerReached t a1) := by
  unfold State.powerReached
  try dsimp only
  repeat' (first
    | with_reducible assumption
    | with_reducible exact Keeps.refl _ _
    | with_reducible apply State.heldPower_keeps
    | (dsimp only [keepsMk]; (with_reducible apply KeepsMk.put ?_ rfl rfl) <;> first | exact Or.inl (Keeps.subBit hM rfl) | exact Or.inr rfl | exact id | skip))

theorem State.freqLost_keeps {M : Nat} {s t : State} {a1 : _}
    (hM : 16777218 &&& M = 16777218) (h : Keeps M s t) : Keeps M s (State.freqLost t a1) := by
  unfold State.freqLost
  try dsimp only
  repeat' (first
    | with_reducible assumption
    | with_reducible exact Keeps.refl _ _
    | ((with_reducible refine Keeps.subMask hM ?_); exact rfl)
    | with_reducible apply State.setReg_keeps
    | (dsimp only [keepsMk]; (with_reducible apply KeepsMk.put ?_ rfl rfl) <;> first | exact Or.inl (Keeps.subBit hM rfl) | exact Or.inr rfl | exact id | skip)
    | split)

theorem State.powerFault_keeps {M : Nat} {s t : State}
    (hM : 5058636 &&& M = 5058636) (h : Keeps M s t) : Keeps M s (State.powerFault t) := by
  unfold State.powerFault
  try dsimp only
  repeat' (first
    | with_reducible assumption
    | with_reducible exact Keeps.refl _ _
    | ((with_reducible refine Keeps.subMask hM ?_); exact rfl)
    | with_reducible apply State.unfit_keeps
    | with_reducible apply State.fault_keeps)

theorem State.railsOff_keeps {M : Nat} {s t : State}
    (hM : 8455716862 &&& M = 8455716862) (h : Keeps M s t) : Keeps M s (State.railsOff t) := by
  unfold State.railsOff
  try dsimp only
  repeat' (first
    | with_reducible assumption
    | with_reducible exact Keeps.refl _ _
    | with_reducible apply State.goDark_keeps
    | (dsimp only [keepsMk]; (with_reducible apply KeepsMk.put ?_ rfl rfl) <;> first | exact Or.inl (Keeps.subBit hM rfl) | exact Or.inr rfl | exact id | skip)
    | split)

theorem State.recoverRef_keeps {M : Nat} {s t : State} {a1 : _}
    (hM : 16777218 &&& M = 16777218) (h : Keeps M s t) : Keeps M s (State.recoverRef t a1) := by
  unfold State.recoverRef
  try dsimp only
  repeat' (first
    | with_reducible assumption
    | with_reducible exact Keeps.refl _ _
    | ((with_reducible refine Keeps.subMask hM ?_); exact rfl)
    | with_reducible apply State.setReg_keeps
    | (dsimp only [keepsMk]; (with_reducible apply KeepsMk.put ?_ rfl rfl) <;> first | exact Or.inl (Keeps.subBit hM rfl) | exact Or.inr rfl | exact id | skip))

theorem State.refLost_keeps {M : Nat} {s t : State}
    (hM : 21835852 &&& M = 21835852) (h : Keeps M s t) : Keeps M s (State.refLost t) := by
  unfold State.refLost
  try dsimp only
  repeat' (first
    | with_reducible assumption
    | with_reducible exact Keeps.refl _ _
    | ((with_reducible refine Keeps.subMask hM ?_); exact rfl)
    | with_reducible apply State.unfit_keeps
    | with_reducible apply State.fault_keeps
    | (dsimp only [keepsMk]; (with_reducible apply KeepsMk.put ?_ rfl rfl) <;> first | exact Or.inl (Keeps.subBit hM rfl) | exact Or.inr rfl | exact id | skip))

theorem State.stoppingFault_keeps {M : Nat} {s t : State} {a1 : _}
    (hM : 8455716862 &&& M = 8455716862) (h : Keeps M s t) : Keeps M s (State.stoppingFault t a1) := by
  unfold State.stoppingFault
  try dsimp only
  repeat' (first
    | with_reducible assumption
    | with_reducible exact Keeps.refl _ _
    | ((with_reducible refine Keeps.subMask hM ?_); exact rfl)
    | with_reducible apply State.railsOff_keeps
    | with_reducible apply State.unfit_keeps
    | with_reducible apply State.fault_keeps)

/-! ### Machine/Board.lean -/

theorem State.readSensors_keeps {M : Nat} {s t : State} {a1 : _} {a2 : _} {a3 : _} {a4 : _}
    (hM : 8388736 &&& M = 8388736) (h : Keeps M s t) : Keeps M s (State.readSensors t a1 a2 a3 a4) := by
  unfold State.readSensors
  try dsimp only
  repeat' (first
    | with_reducible assumption
    | with_reducible exact Keeps.refl _ _
    | ((with_reducible refine Keeps.subMask hM ?_); exact rfl)
    | with_reducible apply State.updChan_keeps
    | with_reducible refine Keeps.foldl ?_ _ ?_
    | with_reducible refine Keeps.foldl_fst ?_ _ ?_
    | with_reducible refine Keeps.foldl_snd ?_ _ ?_
    | (dsimp only [keepsMk]; (with_reducible apply KeepsMk.put ?_ rfl rfl) <;> first | exact Or.inl (Keeps.subBit hM rfl) | exact Or.inr rfl | exact id | skip)
    | with_reducible exact Tbl.wf_set _ _ (by assumption)
    | with_reducible exact Tbl.wf_filter _ (by assumption)
    | with_reducible exact Tbl.wf_nil _
    | with_reducible exact State.memOk_chan (by assumption) _
    | split
    | with_reducible refine Keeps.fst ‹_ = (_, _)› ?_
    | intro _)

theorem execThermalPoll_keeps {M : Nat} {s t : State} {a1 : _} {a2 : _} {a3 : _} {a4 : _}
    (hM : 29360256 &&& M = 29360256) (h : Keeps M s t) : KeepsOut M s (execThermalPoll a1 a2 a3 a4 t) := by
  unfold execThermalPoll
  try dsimp only
  repeat' (first
    | with_reducible assumption
    | with_reducible exact Keeps.refl _ _
    | ((with_reducible refine Keeps.subMask hM ?_); exact rfl)
    | with_reducible apply KeepsOut.next
    | with_reducible apply State.readSensors_keeps
    | with_reducible apply State.askPower_keeps
    | (dsimp only [keepsMk]; (with_reducible apply KeepsMk.put ?_ rfl rfl) <;> first | exact Or.inl (Keeps.subBit hM rfl) | exact Or.inr rfl | exact id | skip)
    | split)

theorem execThermalFault_keeps {M : Nat} {s t : State}
    (hM : 8455716862 &&& M = 8455716862) (h : Keeps M s t) : KeepsOut M s (execThermalFault t) := by
  unfold execThermalFault
  try dsimp only
  repeat' (first
    | with_reducible assumption
    | with_reducible exact Keeps.refl _ _
    | with_reducible apply KeepsOut.next
    | with_reducible apply State.stoppingFault_keeps
    | (dsimp only [keepsMk]; (with_reducible apply KeepsMk.put ?_ rfl rfl) <;> first | exact Or.inl (Keeps.subBit hM rfl) | exact Or.inr rfl | exact id | skip)
    | split)

theorem execControlCoresHalt_keeps {M : Nat} {s t : State}
    (hM : 2148007936 &&& M = 2148007936) (h : Keeps M s t) : KeepsOut M s (execControlCoresHalt t) := by
  unfold execControlCoresHalt
  try dsimp only
  repeat' (first
    | with_reducible assumption
    | with_reducible exact Keeps.refl _ _
    | with_reducible apply KeepsOut.next
    | (dsimp only [keepsMk]; (with_reducible apply KeepsMk.put ?_ rfl rfl) <;> first | exact Or.inl (Keeps.subBit hM rfl) | exact Or.inr rfl | exact id | skip))

theorem execControlCoresReturn_keeps {M : Nat} {s t : State}
    (hM : 2148007936 &&& M = 2148007936) (h : Keeps M s t) : KeepsOut M s (execControlCoresReturn t) := by
  unfold execControlCoresReturn
  try dsimp only
  repeat' (first
    | with_reducible assumption
    | with_reducible exact Keeps.refl _ _
    | with_reducible apply KeepsOut.next
    | (dsimp only [keepsMk]; (with_reducible apply KeepsMk.put ?_ rfl rfl) <;> first | exact Or.inl (Keeps.subBit hM rfl) | exact Or.inr rfl | exact id | skip)
    | split)

/-! ### Machine/TierOps.lean -/

theorem State.releaseFrame_keeps {M : Nat} {s t : State} {a1 : _} {a2 : _}
    (hM : 64 &&& M = 64) (h : Keeps M s t) : Keeps M s (State.releaseFrame t a1 a2) := by
  unfold State.releaseFrame
  try dsimp only
  repeat' (first
    | with_reducible assumption
    | with_reducible exact Keeps.refl _ _
    | with_reducible apply State.updSlice_keeps)

theorem State.wipeFrame_keeps {M : Nat} {s t : State} {a1 : _} {a2 : _}
    (hM : 128 &&& M = 128) (h : Keeps M s t) : Keeps M s (State.wipeFrame t a1 a2) := by
  unfold State.wipeFrame
  try dsimp only
  repeat' (first
    | with_reducible assumption
    | with_reducible exact Keeps.refl _ _
    | with_reducible apply State.updChan_keeps
    | with_reducible exact ChanSt.wf_wipe _ _ (by assumption)
    | with_reducible exact ChanSt.wf_setLine _ _ _ (by assumption)
    | with_reducible exact Tbl.wf_set _ _ (by assumption)
    | with_reducible exact Tbl.wf_filter _ (by assumption)
    | with_reducible exact Tbl.wf_nil _
    | with_reducible exact State.memOk_chan (by assumption) _
    | split
    | with_reducible refine Keeps.fst ‹_ = (_, _)› ?_
    | intro _)

theorem State.abandonMove_keeps {M : Nat} {s t : State} {a1 : _} {a2 : _}
    (hM : 4194496 &&& M = 4194496) (h : Keeps M s t) : Keeps M s (State.abandonMove t a1 a2) := by
  unfold State.abandonMove
  try dsimp only
  repeat' (first
    | with_reducible assumption
    | with_reducible exact Keeps.refl _ _
    | ((with_reducible refine Keeps.subMask hM ?_); exact rfl)
    | with_reducible apply State.count_keeps
    | with_reducible apply State.releaseFrame_keeps
    | with_reducible apply State.wipeFrame_keeps
    | with_reducible apply State.updSlice_keeps
    | split)

theorem State.migrateClose_keeps {M : Nat} {s t : State} {a1 : _}
    (hM : 4718792 &&& M = 4718792) (h : Keeps M s t) : Keeps M s (State.migrateClose t a1) := by
  unfold State.migrateClose
  try dsimp only
  repeat' (first
    | with_reducible assumption
    | with_reducible exact Keeps.refl _ _
    | ((with_reducible refine Keeps.subMask hM ?_); exact rfl)
    | with_reducible apply State.updSlice_keeps
    | with_reducible apply State.abandonMove_keeps
    | with_reducible apply State.crier_keeps
    | with_reducible refine Keeps.foldl ?_ _ ?_
    | with_reducible refine Keeps.foldl_fst ?_ _ ?_
    | with_reducible refine Keeps.foldl_snd ?_ _ ?_
    | split
    | with_reducible refine Keeps.fst ‹_ = (_, _)› ?_
    | intro _)

theorem State.readFrame_keeps {M : Nat} {s t : State} {a1 : _} {a2 : _} {a3 : _}
    (hM : 2152202440 &&& M = 2152202440) (h : Keeps M s t) : Keeps M s (State.readFrame t a1 a2 a3) := by
  unfold State.readFrame
  try dsimp only
  repeat' (first
    | with_reducible assumption
    | with_reducible exact Keeps.refl _ _
    | ((with_reducible refine Keeps.subMask hM ?_); exact rfl)
    | with_reducible apply State.sramRead_keeps
    | with_reducible apply State.setFarLine_keeps
    | with_reducible apply State.sramWrite_keeps
    | with_reducible apply State.updSlice_keeps
    | with_reducible apply State.wipeFrame_keeps
    | with_reducible refine Keeps.foldl ?_ _ ?_
    | with_reducible refine Keeps.foldl_fst ?_ _ ?_
    | with_reducible refine Keeps.foldl_snd ?_ _ ?_
    | split
    | with_reducible refine Keeps.fst ‹_ = (_, _)› ?_
    | intro _)

theorem State.beginEvict_keeps {M : Nat} {s t : State} {a1 : _} {a2 : _}
    (hM : 4194496 &&& M = 4194496) (h : Keeps M s t) : Keeps M s (State.beginEvict t a1 a2) := by
  unfold State.beginEvict
  try dsimp only
  repeat' (first
    | with_reducible assumption
    | with_reducible exact Keeps.refl _ _
    | ((with_reducible refine Keeps.subMask hM ?_); exact rfl)
    | with_reducible apply State.count_keeps
    | with_reducible apply State.releaseFrame_keeps
    | with_reducible apply State.wipeFrame_keeps
    | with_reducible apply State.updSlice_keeps
    | split)

theorem State.beginFill_keeps {M : Nat} {s t : State} {a1 : _} {a2 : _} {a3 : _} {a4 : _} {a5 : _}
    (hM : 524480 &&& M = 524480) (h : Keeps M s t) : Keeps M s (State.beginFill t a1 a2 a3 a4 a5) := by
  unfold State.beginFill
  try dsimp only
  repeat' (first
    | with_reducible assumption
    | with_reducible exact Keeps.refl _ _
    | ((with_reducible refine Keeps.subMask hM ?_); exact rfl)
    | with_reducible apply State.updSlice_keeps
    | with_reducible apply State.sramWrite_keeps
    | with_reducible apply State.wipeFrame_keeps)

theorem State.copyDown_keeps {M : Nat} {s t : State} {a1 : _} {a2 : _} {a3 : _} {a4 : _}
    (hM : 2168979656 &&& M = 2168979656) (h : Keeps M s t) : Keeps M s (State.copyDown t a1 a2 a3 a4) := by
  unfold State.copyDown
  try dsimp only
  repeat' (first
    | with_reducible assumption
    | with_reducible exact Keeps.refl _ _
    | ((with_reducible refine Keeps.subMask hM ?_); exact rfl)
    | with_reducible apply State.setFarLine_keeps
    | with_reducible apply State.queueDram_keeps
    | with_reducible apply State.note_keeps)

theorem State.copyUp_keeps {M : Nat} {s t : State} {a1 : _} {a2 : _} {a3 : _} {a4 : _}
    (hM : 2168979656 &&& M = 2168979656) (h : Keeps M s t) : Keeps M s (State.copyUp t a1 a2 a3 a4) := by
  unfold State.copyUp
  try dsimp only
  repeat' (first
    | with_reducible assumption
    | with_reducible exact Keeps.refl _ _
    | ((with_reducible refine Keeps.subMask hM ?_); exact rfl)
    | with_reducible apply State.setUnitLine_keeps
    | with_reducible apply State.queueDram_keeps
    | with_reducible apply State.note_keeps)

theorem State.fillWaiting_keeps {M : Nat} {s t : State} {a1 : _} {a2 : _}
    (hM : 524480 &&& M = 524480) (h : Keeps M s t) : Keeps M s (State.fillWaiting t a1 a2) := by
  unfold State.fillWaiting
  try dsimp only
  repeat' (first
    | with_reducible assumption
    | with_reducible exact Keeps.refl _ _
    | ((with_reducible refine Keeps.subMask hM ?_); exact rfl)
    | with_reducible apply State.updSlice_keeps
    | with_reducible apply State.beginFill_keeps
    | split)

theorem State.tryFill_keeps {M : Nat} {s t : State} {a1 : _} {a2 : _} {a3 : _} {a4 : _}
    (hM : 4718784 &&& M = 4718784) (h : Keeps M s t) : KeepsOpt M s (State.tryFill t a1 a2 a3 a4) := by
  unfold State.tryFill
  try dsimp only
  repeat' (first
    | with_reducible assumption
    | with_reducible exact Keeps.refl _ _
    | ((with_reducible refine Keeps.subMask hM ?_); exact rfl)
    | with_reducible exact KeepsOpt.none
    | with_reducible apply KeepsOpt.some
    | with_reducible apply State.beginFill_keeps
    | with_reducible apply State.beginEvict_keeps
    | with_reducible apply State.updSlice_keeps
    | split)

theorem State.firstFill_keeps {M : Nat} {s t : State} {a1 : _} {a2 : _} {a3 : _} {a4 : _}
    (hM : 4718784 &&& M = 4718784) (h : Keeps M s t) : KeepsOpt M s (State.firstFill t a1 a2 a3 a4) := by
  induction a4 generalizing t a1 a2 a3 with
  | nil =>
    unfold State.firstFill
    try dsimp only
    repeat' (first
      | with_reducible assumption
      | with_reducible exact Keeps.refl _ _
      | with_reducible exact KeepsOpt.none)
  | cons x l ih =>
    unfold State.firstFill
    try dsimp only
    repeat' (first
      | with_reducible assumption
      | with_reducible exact Keeps.refl _ _
      | with_reducible exact KeepsOpt.none
      | with_reducible apply KeepsOpt.some
      | with_reducible apply ih
      | with_reducible refine KeepsOpt.get (State.tryFill_keeps ?_ ?_) ‹_›
      | with_reducible apply State.tryFill_keeps
      | split)

theorem State.pinOverflow_keeps {M : Nat} {s t : State} {a1 : _} {a2 : _}
    (hM : 64 &&& M = 64) (h : Keeps M s t) : Keeps M s (State.pinOverflow t a1 a2) := by
  unfold State.pinOverflow
  try dsimp only
  repeat' (first
    | with_reducible assumption
    | with_reducible exact Keeps.refl _ _
    | with_reducible apply State.updSlice_keeps
    | split)

theorem State.nextFill_keeps {M : Nat} {s t : State} {a1 : _}
    (hM : 4718784 &&& M = 4718784) (h : Keeps M s t) : Keeps M s (State.nextFill t a1) := by
  unfold State.nextFill
  try dsimp only
  repeat' (first
    | with_reducible assumption
    | with_reducible exact Keeps.refl _ _
    | ((with_reducible refine Keeps.subMask hM ?_); exact rfl)
    | with_reducible apply State.pinOverflow_keeps
    | with_reducible refine KeepsOpt.get (State.firstFill_keeps ?_ ?_) ‹_›
    | with_reducible refine Keeps.foldl ?_ _ ?_
    | with_reducible refine Keeps.foldl_fst ?_ _ ?_
    | with_reducible refine Keeps.foldl_snd ?_ _ ?_
    | split
    | with_reducible refine Keeps.fst ‹_ = (_, _)› ?_
    | intro _)

theorem State.pagesDown_keeps {M : Nat} {s t : State} {a1 : _} {a2 : _} {a3 : _}
    (hM : 2168979656 &&& M = 2168979656) (h : Keeps M s t) : Keeps M s (State.pagesDown t a1 a2 a3) := by
  unfold State.pagesDown
  try dsimp only
  repeat' (first
    | with_reducible assumption
    | with_reducible exact Keeps.refl _ _
    | ((with_reducible refine Keeps.subMask hM ?_); exact rfl)
    | with_reducible apply State.copyDown_keeps
    | with_reducible apply State.pipePush_keeps
    | with_reducible refine Keeps.foldl ?_ _ ?_
    | with_reducible refine Keeps.foldl_fst ?_ _ ?_
    | with_reducible refine Keeps.foldl_snd ?_ _ ?_
    | split
    | with_reducible refine Keeps.fst ‹_ = (_, _)› ?_
    | intro _)

theorem State.pagesUp_keeps {M : Nat} {s t : State} {a1 : _} {a2 : _} {a3 : _}
    (hM : 2168979656 &&& M = 2168979656) (h : Keeps M s t) : Keeps M s (State.pagesUp t a1 a2 a3) := by
  unfold State.pagesUp
  try dsimp only
  repeat' (first
    | with_reducible assumption
    | with_reducible exact Keeps.refl _ _
    | ((with_reducible refine Keeps.subMask hM ?_); exact rfl)
    | with_reducible apply State.copyUp_keeps
    | with_reducible apply State.pipePush_keeps
    | with_reducible refine Keeps.foldl ?_ _ ?_
    | with_reducible refine Keeps.foldl_fst ?_ _ ?_
    | with_reducible refine Keeps.foldl_snd ?_ _ ?_
    | split
    | with_reducible refine Keeps.fst ‹_ = (_, _)› ?_
    | intro _)

/-! ### Machine/EgressOps.lean -/

theorem State.unpark_keeps {M : Nat} {s t : State}
    (hM : 64 &&& M = 64) (h : Keeps M s t) : Keeps M s (State.unpark t) := by
  unfold State.unpark
  try dsimp only
  repeat' (first
    | with_reducible assumption
    | with_reducible exact Keeps.refl _ _
    | with_reducible apply State.placeFlow_keeps
    | with_reducible refine Keeps.foldl ?_ _ ?_
    | with_reducible refine Keeps.foldl_fst ?_ _ ?_
    | with_reducible refine Keeps.foldl_snd ?_ _ ?_
    | split
    | with_reducible refine Keeps.fst ‹_ = (_, _)› ?_
    | intro _)

theorem State.ecsWindow_keeps {M : Nat} {s t : State} {a1 : _}
    (hM : 128 &&& M = 128) (h : Keeps M s t) : Keeps M s (State.ecsWindow t a1) := by
  unfold State.ecsWindow
  try dsimp only
  repeat' (first
    | with_reducible assumption
    | with_reducible exact Keeps.refl _ _
    | with_reducible apply State.updChan_keeps
    | with_reducible refine Keeps.foldl ?_ _ ?_
    | with_reducible refine Keeps.foldl_fst ?_ _ ?_
    | with_reducible refine Keeps.foldl_snd ?_ _ ?_
    | with_reducible exact ChanSt.wf_wipe _ _ (by assumption)
    | with_reducible exact ChanSt.wf_setLine _ _ _ (by assumption)
    | with_reducible exact Tbl.wf_set _ _ (by assumption)
    | with_reducible exact Tbl.wf_filter _ (by assumption)
    | with_reducible exact Tbl.wf_nil _
    | with_reducible exact State.memOk_chan (by assumption) _
    | split
    | with_reducible refine Keeps.fst ‹_ = (_, _)› ?_
    | intro _)

theorem State.setGates_keeps {M : Nat} {s t : State} {a1 : _} {a2 : _} {a3 : _}
    (hM : 21528776 &&& M = 21528776) (h : Keeps M s t) : Keeps M s (State.setGates t a1 a2 a3) := by
  unfold State.setGates
  try dsimp only
  repeat' (first
    | with_reducible assumption
    | with_reducible exact Keeps.refl _ _
    | ((with_reducible refine Keeps.subMask hM ?_); exact rfl)
    | with_reducible apply State.migrateClose_keeps
    | with_reducible apply State.unpark_keeps
    | with_reducible apply State.wakeSlice_keeps
    | with_reducible apply State.ecsWindow_keeps
    | with_reducible refine Keeps.foldl ?_ _ ?_
    | with_reducible refine Keeps.foldl_fst ?_ _ ?_
    | with_reducible refine Keeps.foldl_snd ?_ _ ?_
    | (dsimp only [keepsMk]; (with_reducible apply KeepsMk.put ?_ rfl rfl) <;> first | exact Or.inl (Keeps.subBit hM rfl) | exact Or.inr rfl | exact id | skip)
    | split
    | with_reducible refine Keeps.fst ‹_ = (_, _)› ?_
    | intro _)

theorem State.applyFallback_keeps {M : Nat} {s t : State}
    (hM : 21528776 &&& M = 21528776) (h : Keeps M s t) : Keeps M s (State.applyFallback t) := by
  unfold State.applyFallback
  try dsimp only
  repeat' (first
    | with_reducible assumption
    | with_reducible exact Keeps.refl _ _
    | with_reducible apply State.setGates_keeps
    | (dsimp only [keepsMk]; (with_reducible apply KeepsMk.put ?_ rfl rfl) <;> first | exact Or.inl (Keeps.subBit hM rfl) | exact Or.inr rfl | exact id | skip)
    | split)

theorem State.applyGates_keeps {M : Nat} {s t : State}
    (hM : 21528776 &&& M = 21528776) (h : Keeps M s t) : Keeps M s (State.applyGates t) := by
  unfold State.applyGates
  try dsimp only
  repeat' (first
    | with_reducible assumption
    | with_reducible exact Keeps.refl _ _
    | with_reducible apply State.setGates_keeps
    | split)

/-! ### Machine/Servo.lean -/

theorem State.measure_keeps {M : Nat} {s t : State} {a1 : _}
    (hM : 4734984 &&& M = 4734984) (h : Keeps M s t) : Keeps M s (State.measure t a1) := by
  unfold State.measure
  try dsimp only
  repeat' (first
    | with_reducible assumption
    | with_reducible exact Keeps.refl _ _
    | ((with_reducible refine Keeps.subMask hM ?_); exact rfl)
    | with_reducible apply State.crier_keeps
    | (dsimp only [keepsMk]; (with_reducible apply KeepsMk.put ?_ rfl rfl) <;> first | exact Or.inl (Keeps.subBit hM rfl) | exact Or.inr rfl | exact id | skip)
    | split)

/-! ### Machine/Links.lean -/

theorem enableLink_keeps {M : Nat} {s t : State} {a1 : _} {a2 : _}
    (hM : 810360942 &&& M = 810360942) (h : Keeps M s t) : Keeps M s (enableLink a1 a2 t) := by
  unfold enableLink
  try dsimp only
  repeat' (first
    | with_reducible assumption
    | with_reducible exact Keeps.refl _ _
    | ((with_reducible refine Keeps.subMask hM ?_); exact rfl)
    | with_reducible apply State.updLink_keeps
    | with_reducible apply State.startTraining_keeps
    | with_reducible apply State.linkDown_keeps
    | exact Or.inl (Keeps.subBit hM rfl)
    | exact Or.inr fun _ => rfl
    | split)

theorem actLinkEnable_keeps {M : Nat} {s t : State} {a1 : _}
    (hM : 810360942 &&& M = 810360942) (h : Keeps M s t) : Keeps M s (actLinkEnable a1 t).1 := by
  unfold actLinkEnable
  try dsimp only
  repeat' (first
    | with_reducible assumption
    | with_reducible exact Keeps.refl _ _
    | ((with_reducible refine Keeps.subMask hM ?_); exact rfl)
    | with_reducible apply State.linksDown_keeps
    | with_reducible apply State.setReg_keeps
    | with_reducible apply enableLink_keeps
    | with_reducible refine Keeps.foldl ?_ _ ?_
    | with_reducible refine Keeps.foldl_fst ?_ _ ?_
    | with_reducible refine Keeps.foldl_snd ?_ _ ?_
    | split
    | with_reducible refine Keeps.fst ‹_ = (_, _)› ?_
    | intro _)

theorem actVersionsAllowed_keeps {M : Nat} {s t : State} {a1 : _} {a2 : _}
    (hM : 268435462 &&& M = 268435462) (h : Keeps M s t) : Keeps M s (actVersionsAllowed a1 a2 t).1 := by
  unfold actVersionsAllowed
  try dsimp only
  repeat' (first
    | with_reducible assumption
    | with_reducible exact Keeps.refl _ _
    | ((with_reducible refine Keeps.subMask hM ?_); exact rfl)
    | with_reducible apply State.setReg_keeps
    | with_reducible apply State.startTraining_keeps
    | split)

theorem finishChange_keeps {M : Nat} {s t : State} {a1 : _} {a2 : _}
    (hM : 272629764 &&& M = 272629764) (h : Keeps M s t) : Keeps M s (finishChange a1 a2 t) := by
  unfold finishChange
  try dsimp only
  repeat' (first
    | with_reducible assumption
    | with_reducible exact Keeps.refl _ _
    | ((with_reducible refine Keeps.subMask hM ?_); exact rfl)
    | with_reducible apply State.updLink_keeps
    | with_reducible apply State.count_keeps
    | exact Or.inl (Keeps.subBit hM rfl))

theorem setChange_keeps {M : Nat} {s t : State} {a1 : _} {a2 : _}
    (hM : 272629764 &&& M = 272629764) (h : Keeps M s t) : Keeps M s (setChange a1 a2 t) := by
  unfold setChange
  try dsimp only
  repeat' (first
    | with_reducible assumption
    | with_reducible exact Keeps.refl _ _
    | ((with_reducible refine Keeps.subMask hM ?_); exact rfl)
    | with_reducible apply finishChange_keeps
    | with_reducible apply State.updLink_keeps
    | exact Or.inl (Keeps.subBit hM rfl)
    | exact Or.inr fun _ => rfl
    | split)

theorem answerChange_keeps {M : Nat} {s t : State} {a1 : _} {a2 : _} {a3 : _} {a4 : _}
    (hM : 272629764 &&& M = 272629764) (h : Keeps M s t) : Keeps M s (answerChange a1 a2 a3 a4 t) := by
  unfold answerChange
  try dsimp only
  repeat' (first
    | with_reducible assumption
    | with_reducible exact Keeps.refl _ _
    | ((with_reducible refine Keeps.subMask hM ?_); exact rfl)
    | with_reducible apply setChange_keeps
    | with_reducible apply State.queueFirst_keeps
    | with_reducible apply State.queueCtl_keeps
    | split)

theorem execAckOnly_keeps {M : Nat} {s t : State} {a1 : _} {a2 : _} {a3 : _}
    (hM : 268435524 &&& M = 268435524) (h : Keeps M s t) : KeepsOut M s (execAckOnly a1 a2 a3 t) := by
  unfold execAckOnly
  try dsimp only
  repeat' (first
    | with_reducible assumption
    | with_reducible exact Keeps.refl _ _
    | with_reducible apply KeepsOut.next
    | with_reducible apply State.control_keeps
    | split
    | with_reducible refine Keeps.fst ‹_ = (_, _)› ?_
    | intro _
    | dsimp only
    | dsimp only [id])

theorem execAlign_keeps {M : Nat} {s t : State} {a1 : _} {a2 : _}
    (hM : 268435524 &&& M = 268435524) (h : Keeps M s t) : KeepsOut M s (execAlign a1 a2 t) := by
  unfold execAlign
  try dsimp only
  repeat' (first
    | with_reducible assumption
    | with_reducible exact Keeps.refl _ _
    | with_reducible apply KeepsOut.next
    | with_reducible apply State.control_keeps
    | split
    | with_reducible refine Keeps.fst ‹_ = (_, _)› ?_
    | intro _
    | dsimp only
    | dsimp only [id])

theorem execHello_keeps {M : Nat} {s t : State} {a1 : _} {a2 : _}
    (hM : 273154126 &&& M = 273154126) (h : Keeps M s t) : KeepsOut M s (execHello a1 a2 t) := by
  unfold execHello
  try dsimp only
  repeat' (first
    | with_reducible assumption
    | with_reducible exact Keeps.refl _ _
    | ((with_reducible refine Keeps.subMask hM ?_); exact rfl)
    | with_reducible apply KeepsOut.next
    | with_reducible apply State.control_keeps
    | with_reducible apply State.updLink_keeps
    | with_reducible apply State.noVersion_keeps
    | exact Or.inl (Keeps.subBit hM rfl)
    | exact Or.inr fun _ => rfl
    | split
    | with_reducible refine Keeps.fst ‹_ = (_, _)› ?_
    | intro _)

theorem execLaneReq_keeps {M : Nat} {s t : State} {a1 : _} {a2 : _}
    (hM : 272629828 &&& M = 272629828) (h : Keeps M s t) : KeepsOut M s (execLaneReq a1 a2 t) := by
  unfold execLaneReq
  try dsimp only
  repeat' (first
    | with_reducible assumption
    | with_reducible exact Keeps.refl _ _
    | ((with_reducible refine Keeps.subMask hM ?_); exact rfl)
    | with_reducible apply KeepsOut.next
    | with_reducible apply State.control_keeps
    | with_reducible apply answerChange_keeps
    | with_reducible apply State.queueCtl_keeps
    | with_reducible apply State.updLink_keeps
    | exact Or.inl (Keeps.subBit hM rfl)
    | exact Or.inr fun _ => rfl
    | split
    | with_reducible refine Keeps.fst ‹_ = (_, _)› ?_
    | intro _)

theorem execLaneAccept_keeps {M : Nat} {s t : State} {a1 : _} {a2 : _}
    (hM : 272629828 &&& M = 272629828) (h : Keeps M s t) : KeepsOut M s (execLaneAccept a1 a2 t) := by
  unfold execLaneAccept
  try dsimp only
  repeat' (first
    | with_reducible assumption
    | with_reducible exact Keeps.refl _ _
    | ((with_reducible refine Keeps.subMask hM ?_); exact rfl)
    | with_reducible apply KeepsOut.next
    | with_reducible apply State.control_keeps
    | with_reducible apply State.queueCtl_keeps
    | with_reducible apply setChange_keeps
    | split
    | with_reducible refine Keeps.fst ‹_ = (_, _)› ?_
    | intro _)

theorem execLaneSwitch_keeps {M : Nat} {s t : State} {a1 : _} {a2 : _}
    (hM : 272629828 &&& M = 272629828) (h : Keeps M s t) : KeepsOut M s (execLaneSwitch a1 a2 t) := by
  unfold execLaneSwitch
  try dsimp only
  repeat' (first
    | with_reducible assumption
    | with_reducible exact Keeps.refl _ _
    | ((with_reducible refine Keeps.subMask hM ?_); exact rfl)
    | with_reducible apply KeepsOut.next
    | with_reducible apply State.control_keeps
    | with_reducible apply State.queueCtl_keeps
    | with_reducible apply setChange_keeps
    | split
    | with_reducible refine Keeps.fst ‹_ = (_, _)› ?_
    | intro _)

theorem execTimeReq_keeps {M : Nat} {s t : State} {a1 : _} {a2 : _}
    (hM : 268435524 &&& M = 268435524) (h : Keeps M s t) : KeepsOut M s (execTimeReq a1 a2 t) := by
  unfold execTimeReq
  try dsimp only
  repeat' (first
    | with_reducible assumption
    | with_reducible exact Keeps.refl _ _
    | ((with_reducible refine Keeps.subMask hM ?_); exact rfl)
    | with_reducible apply KeepsOut.next
    | with_reducible apply State.control_keeps
    | with_reducible apply State.queueFirst_keeps
    | split
    | with_reducible refine Keeps.fst ‹_ = (_, _)› ?_
    | intro _)

theorem execTimeResp_keeps {M : Nat} {s t : State} {a1 : _} {a2 : _}
    (hM : 273170508 &&& M = 273170508) (h : Keeps M s t) : KeepsOut M s (execTimeResp a1 a2 t) := by
  unfold execTimeResp
  try dsimp only
  repeat' (first
    | with_reducible assumption
    | with_reducible exact Keeps.refl _ _
    | ((with_reducible refine Keeps.subMask hM ?_); exact rfl)
    | with_reducible apply KeepsOut.next
    | with_reducible apply State.control_keeps
    | with_reducible apply State.updLink_keeps
    | with_reducible apply State.measure_keeps
    | (dsimp only [keepsMk]; (with_reducible apply KeepsMk.put ?_ rfl rfl) <;> first | exact Or.inl (Keeps.subBit hM rfl) | exact Or.inr rfl | exact id | skip)
    | exact Or.inl (Keeps.subBit hM rfl)
    | exact Or.inr fun _ => rfl
    | split
    | with_reducible refine Keeps.fst ‹_ = (_, _)› ?_
    | intro _)

theorem execLinkDown_keeps {M : Nat} {s t : State} {a1 : _} {a2 : _}
    (hM : 810360942 &&& M = 810360942) (h : Keeps M s t) : KeepsOut M s (execLinkDown a1 a2 t) := by
  unfold execLinkDown
  try dsimp only
  repeat' (first
    | with_reducible assumption
    | with_reducible exact Keeps.refl _ _
    | ((with_reducible refine Keeps.subMask hM ?_); exact rfl)
    | with_reducible apply KeepsOut.next
    | with_reducible apply State.control_keeps
    | with_reducible apply State.linkDown_keeps
    | split
    | with_reducible refine Keeps.fst ‹_ = (_, _)› ?_
    | intro _)

theorem execAckTimeoutExpiry_keeps {M : Nat} {s t : State} {a1 : _}
    (hM : 810360942 &&& M = 810360942) (h : Keeps M s t) : KeepsOut M s (execAckTimeoutExpiry a1 t) := by
  unfold execAckTimeoutExpiry
  try dsimp only
  repeat' (first
    | with_reducible assumption
    | with_reducible exact Keeps.refl _ _
    | ((with_reducible refine Keeps.subMask hM ?_); exact rfl)
    | with_reducible apply KeepsOut.next
    | with_reducible apply State.updLink_keeps
    | with_reducible apply State.readReplay_keeps
    | with_reducible apply State.linkDown_keeps
    | with_reducible apply State.count_keeps
    | exact Or.inl (Keeps.subBit hM rfl)
    | exact Or.inr fun _ => rfl
    | split)

theorem execReplayLimitReached_keeps {M : Nat} {s t : State} {a1 : _}
    (hM : 810360942 &&& M = 810360942) (h : Keeps M s t) : KeepsOut M s (execReplayLimitReached a1 t) := by
  unfold execReplayLimitReached
  try dsimp only
  repeat' (first
    | with_reducible assumption
    | with_reducible exact Keeps.refl _ _
    | with_reducible apply KeepsOut.next
    | with_reducible apply State.linkDown_keeps
    | split)

theorem execLinkUp_keeps {M : Nat} {s t : State} {a1 : _}
    (hM : 810360940 &&& M = 810360940) (h : Keeps M s t) : KeepsOut M s (execLinkUp a1 t) := by
  unfold execLinkUp
  try dsimp only
  repeat' (first
    | with_reducible assumption
    | with_reducible exact Keeps.refl _ _
    | with_reducible apply KeepsOut.next
    | with_reducible apply State.linkComesUp_keeps
    | split)

theorem execLaneChangeAbandon_keeps {M : Nat} {s t : State} {a1 : _}
    (hM : 268435460 &&& M = 268435460) (h : Keeps M s t) : KeepsOut M s (execLaneChangeAbandon a1 t) := by
  unfold execLaneChangeAbandon
  try dsimp only
  repeat' (first
    | with_reducible assumption
    | with_reducible exact Keeps.refl _ _
    | ((with_reducible refine Keeps.subMask hM ?_); exact rfl)
    | with_reducible apply KeepsOut.next
    | with_reducible apply State.updLink_keeps
    | exact Or.inl (Keeps.subBit hM rfl)
    | exact Or.inr fun _ => rfl
    | split)

theorem execLaneDropBerExceeded_keeps {M : Nat} {s t : State} {a1 : _} {a2 : _} {a3 : _}
    (hM : 268435460 &&& M = 268435460) (h : Keeps M s t) : KeepsOut M s (execLaneDropBerExceeded a1 a2 a3 t) := by
  unfold execLaneDropBerExceeded
  try dsimp only
  repeat' (first
    | with_reducible assumption
    | with_reducible exact Keeps.refl _ _
    | with_reducible apply KeepsOut.next
    | with_reducible apply startChange_keeps
    | split)

theorem execLaneSignalLoss_keeps {M : Nat} {s t : State} {a1 : _} {a2 : _}
    (hM : 810360942 &&& M = 810360942) (h : Keeps M s t) : KeepsOut M s (execLaneSignalLoss a1 a2 t) := by
  unfold execLaneSignalLoss
  try dsimp only
  repeat' (first
    | with_reducible assumption
    | with_reducible exact Keeps.refl _ _
    | ((with_reducible refine Keeps.subMask hM ?_); exact rfl)
    | with_reducible apply KeepsOut.next
    | with_reducible apply State.linkDown_keeps
    | with_reducible apply State.unparkAll_keeps
    | with_reducible apply State.updLink_keeps
    | with_reducible apply startChange_keeps
    | exact Or.inl (Keeps.subBit hM rfl)
    | exact Or.inr fun _ => rfl
    | split)

theorem execEmergencyDropTimeout_keeps {M : Nat} {s t : State} {a1 : _}
    (hM : 810360942 &&& M = 810360942) (h : Keeps M s t) : KeepsOut M s (execEmergencyDropTimeout a1 t) := by
  unfold execEmergencyDropTimeout
  try dsimp only
  repeat' (first
    | with_reducible assumption
    | with_reducible exact Keeps.refl _ _
    | with_reducible apply KeepsOut.next
    | with_reducible apply State.linkDown_keeps
    | split)

theorem execLaneAddTrained_keeps {M : Nat} {s t : State} {a1 : _} {a2 : _}
    (hM : 268435460 &&& M = 268435460) (h : Keeps M s t) : KeepsOut M s (execLaneAddTrained a1 a2 t) := by
  unfold execLaneAddTrained
  try dsimp only
  repeat' (first
    | with_reducible assumption
    | with_reducible exact Keeps.refl _ _
    | ((with_reducible refine Keeps.subMask hM ?_); exact rfl)
    | with_reducible apply KeepsOut.next
    | with_reducible apply State.joinNext_keeps
    | with_reducible apply State.updLink_keeps
    | exact Or.inl (Keeps.subBit hM rfl)
    | exact Or.inr fun _ => rfl
    | split)

theorem startExchanges_keeps {M : Nat} {s t : State} {a1 : _}
    (hM : 268435460 &&& M = 268435460) (h : Keeps M s t) : Keeps M s (startExchanges a1 t) := by
  induction a1 generalizing t with
  | nil =>
    unfold startExchanges
    try dsimp only
    repeat' (first
      | with_reducible assumption)
  | cons x l ih =>
    unfold startExchanges
    try dsimp only
    repeat' (first
      | with_reducible assumption
      | with_reducible exact Keeps.refl _ _
      | ((with_reducible refine Keeps.subMask hM ?_); exact rfl)
      | with_reducible apply ih
      | with_reducible apply State.updLink_keeps
      | with_reducible apply State.queueCtl_keeps
      | exact Or.inl (Keeps.subBit hM rfl))

theorem execTimeExchInitiate_keeps {M : Nat} {s t : State}
    (hM : 268435460 &&& M = 268435460) (h : Keeps M s t) : KeepsOut M s (execTimeExchInitiate t) := by
  unfold execTimeExchInitiate
  try dsimp only
  repeat' (first
    | with_reducible assumption
    | with_reducible exact Keeps.refl _ _
    | with_reducible apply KeepsOut.next
    | with_reducible apply startExchanges_keeps
    | split)

theorem execTimeExchDiscard_keeps {M : Nat} {s t : State} {a1 : _}
    (hM : 268435460 &&& M = 268435460) (h : Keeps M s t) : KeepsOut M s (execTimeExchDiscard a1 t) := by
  unfold execTimeExchDiscard
  try dsimp only
  repeat' (first
    | with_reducible assumption
    | with_reducible exact Keeps.refl _ _
    | ((with_reducible refine Keeps.subMask hM ?_); exact rfl)
    | with_reducible apply KeepsOut.next
    | with_reducible apply State.updLink_keeps
    | exact Or.inl (Keeps.subBit hM rfl)
    | exact Or.inr fun _ => rfl
    | split)

theorem execCodewordLockLoss_keeps {M : Nat} {s t : State} {a1 : _}
    (hM : 810360942 &&& M = 810360942) (h : Keeps M s t) : KeepsOut M s (execCodewordLockLoss a1 t) := by
  unfold execCodewordLockLoss
  try dsimp only
  repeat' (first
    | with_reducible assumption
    | with_reducible exact Keeps.refl _ _
    | with_reducible apply KeepsOut.next
    | with_reducible apply State.linkDown_keeps)

theorem execLinkRetrain_keeps {M : Nat} {s t : State} {a1 : _}
    (hM : 268435460 &&& M = 268435460) (h : Keeps M s t) : KeepsOut M s (execLinkRetrain a1 t) := by
  unfold execLinkRetrain
  try dsimp only
  repeat' (first
    | with_reducible assumption
    | with_reducible exact Keeps.refl _ _
    | with_reducible apply KeepsOut.next
    | with_reducible apply State.startTraining_keeps
    | split)

theorem execFlapHoldExpiry_keeps {M : Nat} {s t : State} {a1 : _}
    (hM : 268435460 &&& M = 268435460) (h : Keeps M s t) : KeepsOut M s (execFlapHoldExpiry a1 t) := by
  unfold execFlapHoldExpiry
  try dsimp only
  repeat' (first
    | with_reducible assumption
    | with_reducible exact Keeps.refl _ _
    | ((with_reducible refine Keeps.subMask hM ?_); exact rfl)
    | with_reducible apply KeepsOut.next
    | with_reducible apply State.startTraining_keeps
    | with_reducible apply State.updLink_keeps
    | exact Or.inl (Keeps.subBit hM rfl)
    | exact Or.inr fun _ => rfl
    | split)

theorem execLinkEnableWrite_keeps {M : Nat} {s t : State} {a1 : _} {a2 : _}
    (hM : 813506670 &&& M = 813506670) (h : Keeps M s t) : KeepsOut M s (execLinkEnableWrite a1 a2 t) := by
  unfold execLinkEnableWrite
  try dsimp only
  repeat' (first
    | with_reducible assumption
    | with_reducible exact Keeps.refl _ _
    | ((with_reducible refine Keeps.subMask hM ?_); exact rfl)
    | with_reducible apply KeepsOut.next
    | with_reducible apply State.write_keeps
    | with_reducible apply actLinkEnable_keeps
    | split
    | with_reducible refine Keeps.fst ‹_ = (_, _)› ?_
    | intro _)

theorem execLinkVersionsAllowedWrite_keeps {M : Nat} {s t : State} {a1 : _} {a2 : _} {a3 : _}
    (hM : 276365326 &&& M = 276365326) (h : Keeps M s t) : KeepsOut M s (execLinkVersionsAllowedWrite a1 a2 a3 t) := by
  unfold execLinkVersionsAllowedWrite
  try dsimp only
  repeat' (first
    | with_reducible assumption
    | with_reducible exact Keeps.refl _ _
    | ((with_reducible refine Keeps.subMask hM ?_); exact rfl)
    | with_reducible apply KeepsOut.next
    | with_reducible apply State.write_keeps
    | with_reducible apply actVersionsAllowed_keeps
    | split
    | with_reducible refine Keeps.fst ‹_ = (_, _)› ?_
    | intro _)

/-! ### Machine/Bunting.lean -/

theorem State.queuePush_keeps {M : Nat} {s t : State} {a1 : _}
    (hM : 64 &&& M = 64) (h : Keeps M s t) : Keeps M s (State.queuePush t a1) := by
  unfold State.queuePush
  try dsimp only
  repeat' (first
    | with_reducible assumption
    | with_reducible exact Keeps.refl _ _
    | with_reducible apply State.egressPush_keeps)

theorem State.sendPush_keeps {M : Nat} {s t : State} {a1 : _} {a2 : _} {a3 : _} {a4 : _} {a5 : _} {a6 : _} {a7 : _} {a8 : _}
    (hM : 8768 &&& M = 8768) (h : Keeps M s t) : Keeps M s (State.sendPush t a1 a2 a3 a4 a5 a6 a7 a8) := by
  unfold State.sendPush
  try dsimp only
  repeat' (first
    | with_reducible assumption
    | with_reducible exact Keeps.refl _ _
    | ((with_reducible refine Keeps.subMask hM ?_); exact rfl)
    | with_reducible apply State.queuePush_keeps
    | with_reducible apply State.takeTag_keeps
    | (dsimp only [keepsMk]; (with_reducible apply KeepsMk.put ?_ rfl rfl) <;> first | exact Or.inl (Keeps.subBit hM rfl) | exact Or.inr rfl | exact id | skip))

theorem State.updOp_keeps {M : Nat} {s t : State} {a1 : _} {a2 : _}
    (hM : 4096 &&& M = 4096) (h : Keeps M s t) : Keeps M s (State.updOp t a1 a2) := by
  unfold State.updOp
  try dsimp only
  repeat' (first
    | with_reducible assumption
    | with_reducible exact Keeps.refl _ _
    | with_reducible apply State.updTree_keeps)

theorem State.updMem_keeps {M : Nat} {s t : State} {a1 : _} {a2 : _} {a3 : _}
    (hM : 4096 &&& M = 4096) (h : Keeps M s t) : Keeps M s (State.updMem t a1 a2 a3) := by
  unfold State.updMem
  try dsimp only
  repeat' (first
    | with_reducible assumption
    | with_reducible exact Keeps.refl _ _
    | with_reducible apply State.updOp_keeps)

theorem State.noticeIfDue_keeps {M : Nat} {s t : State} {a1 : _} {a2 : _}
    (hM : 12864 &&& M = 12864) (h : Keeps M s t) : Keeps M s (State.noticeIfDue t a1 a2) := by
  unfold State.noticeIfDue
  try dsimp only
  repeat' (first
    | with_reducible assumption
    | with_reducible exact Keeps.refl _ _
    | ((with_reducible refine Keeps.subMask hM ?_); exact rfl)
    | with_reducible apply State.sendPush_keeps
    | with_reducible apply State.updMem_keeps
    | split)

theorem State.noticesDue_keeps {M : Nat} {s t : State} {a1 : _}
    (hM : 12864 &&& M = 12864) (h : Keeps M s t) : Keeps M s (State.noticesDue t a1) := by
  unfold State.noticesDue
  try dsimp only
  repeat' (first
    | with_reducible assumption
    | with_reducible exact Keeps.refl _ _
    | with_reducible apply State.noticeIfDue_keeps
    | with_reducible refine Keeps.foldl ?_ _ ?_
    | with_reducible refine Keeps.foldl_fst ?_ _ ?_
    | with_reducible refine Keeps.foldl_snd ?_ _ ?_
    | split
    | with_reducible refine Keeps.fst ‹_ = (_, _)› ?_
    | intro _)

theorem State.stopOp_keeps {M : Nat} {s t : State} {a1 : _} {a2 : _}
    (hM : 4096 &&& M = 4096) (h : Keeps M s t) : Keeps M s (State.stopOp t a1 a2) := by
  unfold State.stopOp
  try dsimp only
  repeat' (first
    | with_reducible assumption
    | with_reducible exact Keeps.refl _ _
    | with_reducible apply State.updOp_keeps)

theorem State.abortTree_keeps {M : Nat} {s t : State} {a1 : _}
    (hM : 12864 &&& M = 12864) (h : Keeps M s t) : Keeps M s (State.abortTree t a1) := by
  unfold State.abortTree
  try dsimp only
  repeat' (first
    | with_reducible assumption
    | with_reducible exact Keeps.refl _ _
    | ((with_reducible refine Keeps.subMask hM ?_); exact rfl)
    | with_reducible apply State.updTree_keeps
    | with_reducible apply State.noticesDue_keeps
    | with_reducible apply State.stopOp_keeps
    | split)

theorem State.readPage_keeps {M : Nat} {s t : State} {a1 : _} {a2 : _}
    (hM : 2168979656 &&& M = 2168979656) (h : Keeps M s t) : Keeps M s (State.readPage t a1 a2).1 := by
  unfold State.readPage
  try dsimp only
  repeat' (first
    | with_reducible assumption
    | with_reducible exact Keeps.refl _ _
    | with_reducible apply State.readPlain_keeps
    | with_reducible refine Keeps.foldl ?_ _ ?_
    | with_reducible refine Keeps.foldl_fst ?_ _ ?_
    | with_reducible refine Keeps.foldl_snd ?_ _ ?_
    | split
    | with_reducible refine Keeps.fst ‹_ = (_, _)› ?_
    | intro _)

theorem State.resendPage_keeps {M : Nat} {s t : State} {a1 : _} {a2 : _} {a3 : _} {a4 : _}
    (hM : 2168992456 &&& M = 2168992456) (h : Keeps M s t) : Keeps M s (State.resendPage t a1 a2 a3 a4) := by
  unfold State.resendPage
  try dsimp only
  repeat' (first
    | with_reducible assumption
    | with_reducible exact Keeps.refl _ _
    | ((with_reducible refine Keeps.subMask hM ?_); exact rfl)
    | with_reducible apply State.readPage_keeps
    | with_reducible apply State.pipePush_keeps
    | with_reducible apply State.count_keeps
    | with_reducible apply State.sendPush_keeps
    | with_reducible apply State.updOp_keeps)

theorem State.catchUp_keeps {M : Nat} {s t : State} {a1 : _} {a2 : _} {a3 : _} {a4 : _}
    (hM : 2168992456 &&& M = 2168992456) (h : Keeps M s t) : Keeps M s (State.catchUp t a1 a2 a3 a4) := by
  unfold State.catchUp
  try dsimp only
  repeat' (first
    | with_reducible assumption
    | with_reducible exact Keeps.refl _ _
    | ((with_reducible refine Keeps.subMask hM ?_); exact rfl)
    | with_reducible apply State.stopOp_keeps
    | with_reducible apply State.resendPage_keeps
    | with_reducible apply State.updMem_keeps
    | split)

theorem State.dropPushes_keeps {M : Nat} {s t : State} {a1 : _}
    (hM : 73792 &&& M = 73792) (h : Keeps M s t) : Keeps M s (State.dropPushes t a1) := by
  unfold State.dropPushes
  try dsimp only
  repeat' (first
    | with_reducible assumption
    | with_reducible exact Keeps.refl _ _
    | ((with_reducible refine Keeps.subMask hM ?_); exact rfl)
    | with_reducible apply State.dropPackets_keeps
    | (dsimp only [keepsMk]; (with_reducible apply KeepsMk.put ?_ rfl rfl) <;> first | exact Or.inl (Keeps.subBit hM rfl) | exact Or.inr rfl | exact id | skip))

theorem State.failMember_keeps {M : Nat} {s t : State} {a1 : _} {a2 : _} {a3 : _}
    (hM : 77888 &&& M = 77888) (h : Keeps M s t) : Keeps M s (State.failMember t a1 a2 a3) := by
  unfold State.failMember
  try dsimp only
  repeat' (first
    | with_reducible assumption
    | with_reducible exact Keeps.refl _ _
    | ((with_reducible refine Keeps.subMask hM ?_); exact rfl)
    | with_reducible apply State.updOp_keeps
    | with_reducible apply State.updMem_keeps
    | with_reducible apply State.dropPushes_keeps)

theorem State.writeMembers_keeps {M : Nat} {s t : State} {a1 : _} {a2 : _}
    (hM : 4096 &&& M = 4096) (h : Keeps M s t) : Keeps M s (State.writeMembers a1 a2 t).1 := by
  unfold State.writeMembers
  try dsimp only
  repeat' (first
    | with_reducible assumption
    | with_reducible exact Keeps.refl _ _
    | with_reducible apply State.updTree_keeps
    | split)

theorem State.writeTree_keeps {M : Nat} {s t : State} {a1 : _} {a2 : _}
    (hM : 4096 &&& M = 4096) (h : Keeps M s t) : Keeps M s (State.writeTree a1 a2 t).1 := by
  unfold State.writeTree
  try dsimp only
  repeat' (first
    | with_reducible assumption
    | with_reducible exact Keeps.refl _ _
    | with_reducible apply State.updTree_keeps
    | split)

theorem actBuntGo_keeps {M : Nat} {s t : State} {a1 : _}
    (hM : 4098 &&& M = 4098) (h : Keeps M s t) : Keeps M s (actBuntGo a1 t).1 := by
  unfold actBuntGo
  try dsimp only
  repeat' (first
    | with_reducible assumption
    | with_reducible exact Keeps.refl _ _
    | ((with_reducible refine Keeps.subMask hM ?_); exact rfl)
    | with_reducible apply State.setReg_keeps
    | with_reducible apply State.updTree_keeps
    | split)

theorem actBuntAbort_keeps {M : Nat} {s t : State} {a1 : _}
    (hM : 12864 &&& M = 12864) (h : Keeps M s t) : Keeps M s (actBuntAbort a1 t).1 := by
  unfold actBuntAbort
  try dsimp only
  repeat' (first
    | with_reducible assumption
    | with_reducible exact Keeps.refl _ _
    | with_reducible apply State.abortTree_keeps)

theorem execPushResponse_keeps {M : Nat} {s t : State} {a1 : _}
    (hM : 78400 &&& M = 78400) (h : Keeps M s t) : KeepsOut M s (execPushResponse a1 t) := by
  unfold execPushResponse
  try dsimp only
  repeat' (first
    | with_reducible assumption
    | with_reducible exact Keeps.refl _ _
    | ((with_reducible refine Keeps.subMask hM ?_); exact rfl)
    | with_reducible apply KeepsOut.next
    | with_reducible apply State.noticeIfDue_keeps
    | with_reducible apply State.updMem_keeps
    | with_reducible apply State.failMember_keeps
    | (dsimp only [keepsMk]; (with_reducible apply KeepsMk.put ?_ rfl rfl) <;> first | exact Or.inl (Keeps.subBit hM rfl) | exact Or.inr rfl | exact id | skip)
    | split)

theorem execBuntGo_keeps {M : Nat} {s t : State} {a1 : _} {a2 : _}
    (hM : 7933966 &&& M = 7933966) (h : Keeps M s t) : KeepsOut M s (execBuntGo a1 a2 t) := by
  unfold execBuntGo
  try dsimp only
  repeat' (first
    | with_reducible assumption
    | with_reducible exact Keeps.refl _ _
    | ((with_reducible refine Keeps.subMask hM ?_); exact rfl)
    | with_reducible apply KeepsOut.next
    | with_reducible apply State.write_keeps
    | with_reducible apply actBuntGo_keeps
    | split
    | with_reducible refine Keeps.fst ‹_ = (_, _)› ?_
    | intro _)

theorem execBuntingStart_keeps {M : Nat} {s t : State} {a1 : _}
    (hM : 12864 &&& M = 12864) (h : Keeps M s t) : KeepsOut M s (execBuntingStart a1 t) := by
  unfold execBuntingStart
  try dsimp only
  repeat' (first
    | with_reducible assumption
    | with_reducible exact Keeps.refl _ _
    | ((with_reducible refine Keeps.subMask hM ?_); exact rfl)
    | with_reducible apply KeepsOut.next
    | with_reducible apply State.updTree_keeps
    | with_reducible apply State.noticesDue_keeps
    | with_reducible apply State.updSlice_keeps
    | with_reducible refine Keeps.foldl ?_ _ ?_
    | with_reducible refine Keeps.foldl_fst ?_ _ ?_
    | with_reducible refine Keeps.foldl_snd ?_ _ ?_
    | split
    | with_reducible refine Keeps.fst ‹_ = (_, _)› ?_
    | intro _)

theorem execBuntingPageSend_keeps {M : Nat} {s t : State} {a1 : _} {a2 : _}
    (hM : 2168992456 &&& M = 2168992456) (h : Keeps M s t) : KeepsOut M s (execBuntingPageSend a1 a2 t) := by
  unfold execBuntingPageSend
  try dsimp only
  repeat' (first
    | with_reducible assumption
    | with_reducible exact Keeps.refl _ _
    | ((with_reducible refine Keeps.subMask hM ?_); exact rfl)
    | with_reducible apply KeepsOut.next
    | with_reducible apply State.noticesDue_keeps
    | with_reducible apply State.stopOp_keeps
    | with_reducible apply State.readPage_keeps
    | with_reducible apply State.pipePush_keeps
    | with_reducible apply State.count_keeps
    | with_reducible apply State.updOp_keeps
    | with_reducible apply State.updMem_keeps
    | with_reducible apply State.sendPush_keeps
    | with_reducible refine Keeps.foldl ?_ _ ?_
    | with_reducible refine Keeps.foldl_fst ?_ _ ?_
    | with_reducible refine Keeps.foldl_snd ?_ _ ?_
    | split
    | with_reducible refine Keeps.fst ‹_ = (_, _)› ?_
    | intro _)

theorem execPushRetry_keeps {M : Nat} {s t : State} {a1 : _}
    (hM : 8256 &&& M = 8256) (h : Keeps M s t) : KeepsOut M s (execPushRetry a1 t) := by
  unfold execPushRetry
  try dsimp only
  repeat' (first
    | with_reducible assumption
    | with_reducible exact Keeps.refl _ _
    | ((with_reducible refine Keeps.subMask hM ?_); exact rfl)
    | with_reducible apply KeepsOut.next
    | with_reducible apply State.queuePush_keeps
    | (dsimp only [keepsMk]; (with_reducible apply KeepsMk.put ?_ rfl rfl) <;> first | exact Or.inl (Keeps.subBit hM rfl) | exact Or.inr rfl | exact id | skip)
    | split)

theorem execBuntTimeoutExpiry_keeps {M : Nat} {s t : State} {a1 : _}
    (hM : 77888 &&& M = 77888) (h : Keeps M s t) : KeepsOut M s (execBuntTimeoutExpiry a1 t) := by
  unfold execBuntTimeoutExpiry
  try dsimp only
  repeat' (first
    | with_reducible assumption
    | with_reducible exact Keeps.refl _ _
    | with_reducible apply KeepsOut.next
    | with_reducible apply State.failMember_keeps
    | split)

theorem execCatchupWaitExpiry_keeps {M : Nat} {s t : State} {a1 : _} {a2 : _} {a3 : _}
    (hM : 77888 &&& M = 77888) (h : Keeps M s t) : KeepsOut M s (execCatchupWaitExpiry a1 a2 a3 t) := by
  unfold execCatchupWaitExpiry
  try dsimp only
  repeat' (first
    | with_reducible assumption
    | with_reducible exact Keeps.refl _ _
    | ((with_reducible refine Keeps.subMask hM ?_); exact rfl)
    | with_reducible apply KeepsOut.next
    | with_reducible apply State.updMem_keeps
    | with_reducible apply State.dropPushes_keeps)

theorem execCatchupPass_keeps {M : Nat} {s t : State} {a1 : _} {a2 : _}
    (hM : 2168992456 &&& M = 2168992456) (h : Keeps M s t) : KeepsOut M s (execCatchupPass a1 a2 t) := by
  unfold execCatchupPass
  try dsimp only
  repeat' (first
    | with_reducible assumption
    | with_reducible exact Keeps.refl _ _
    | ((with_reducible refine Keeps.subMask hM ?_); exact rfl)
    | with_reducible apply KeepsOut.next
    | with_reducible apply State.noticesDue_keeps
    | with_reducible apply State.catchUp_keeps
    | with_reducible refine Keeps.foldl ?_ _ ?_
    | with_reducible refine Keeps.foldl_fst ?_ _ ?_
    | with_reducible refine Keeps.foldl_snd ?_ _ ?_
    | split
    | with_reducible refine Keeps.fst ‹_ = (_, _)› ?_
    | intro _)

theorem execBuntingComplete_keeps {M : Nat} {s t : State} {a1 : _}
    (hM : 2169254638 &&& M = 2169254638) (h : Keeps M s t) : KeepsOut M s (execBuntingComplete a1 t) := by
  unfold execBuntingComplete
  try dsimp only
  repeat' (first
    | with_reducible assumption
    | with_reducible exact Keeps.refl _ _
    | ((with_reducible refine Keeps.subMask hM ?_); exact rfl)
    | with_reducible apply KeepsOut.next
    | with_reducible apply State.noticesDue_keeps
    | with_reducible apply State.ringWrite_keeps
    | with_reducible apply State.updTree_keeps
    | with_reducible apply State.setReg_keeps
    | with_reducible apply State.crier_keeps
    | (dsimp only [keepsMk]; (with_reducible apply KeepsMk.put ?_ rfl rfl) <;> first | exact Or.inl (Keeps.subBit hM rfl) | exact Or.inr rfl | exact id | skip)
    | split)

theorem execBuntAbort_keeps {M : Nat} {s t : State} {a1 : _} {a2 : _}
    (hM : 7942732 &&& M = 7942732) (h : Keeps M s t) : KeepsOut M s (execBuntAbort a1 a2 t) := by
  unfold execBuntAbort
  try dsimp only
  repeat' (first
    | with_reducible assumption
    | with_reducible exact Keeps.refl _ _
    | ((with_reducible refine Keeps.subMask hM ?_); exact rfl)
    | with_reducible apply KeepsOut.next
    | with_reducible apply State.write_keeps
    | with_reducible apply actBuntAbort_keeps
    | split
    | with_reducible refine Keeps.fst ‹_ = (_, _)› ?_
    | intro _)

theorem execBuntingTableWrite_keeps {M : Nat} {s t : State} {a1 : _} {a2 : _} {a3 : _} {a4 : _}
    (hM : 7933964 &&& M = 7933964) (h : Keeps M s t) : KeepsOut M s (execBuntingTableWrite a1 a2 a3 a4 t) := by
  unfold execBuntingTableWrite
  try dsimp only
  repeat' (first
    | with_reducible assumption
    | with_reducible exact Keeps.refl _ _
    | ((with_reducible refine Keeps.subMask hM ?_); exact rfl)
    | with_reducible apply KeepsOut.next
    | with_reducible apply State.writeWindow_keeps
    | with_reducible apply State.writeMembers_keeps
    | with_reducible apply State.writeTree_keeps
    | split
    | with_reducible refine Keeps.fst ‹_ = (_, _)› ?_
    | intro _)

end Sys2Proof.Machine
end

