-- ==== Sys2Proof/Laws/Frame4.lean ====
section
/-! SUPPORT. What each operation may change and that it keeps the memory's canonical form: SecOps, TimeOps, HostOps, RepairOps, Egress, Clocks, Coherent. -/

set_option linter.unusedTactic false
set_option linter.unreachableTactic false
set_option linter.unusedVariables false

namespace Sys2Proof.Machine

/-! ### Machine/SecOps.lean -/

theorem State.abortUsers_keeps {M : Nat} {s t : State} {a1 : _} {a2 : _}
    (hM : 1616707660 &&& M = 1616707660) (h : Keeps M s t) : Keeps M s (State.abortUsers t a1 a2) := by
  unfold State.abortUsers
  try dsimp only
  repeat' (first
    | with_reducible assumption
    | with_reducible exact Keeps.refl _ _
    | with_reducible apply State.abort_keeps
    | with_reducible refine Keeps.foldl ?_ _ ?_
    | with_reducible refine Keeps.foldl_fst ?_ _ ?_
    | with_reducible refine Keeps.foldl_snd ?_ _ ?_
    | split
    | with_reducible refine Keeps.fst ‹_ = (_, _)› ?_
    | intro _)

theorem State.abortUses_keeps {M : Nat} {s t : State} {a1 : _}
    (hM : 1616707660 &&& M = 1616707660) (h : Keeps M s t) : Keeps M s (State.abortUses t a1) := by
  unfold State.abortUses
  try dsimp only
  repeat' (first
    | with_reducible assumption
    | with_reducible exact Keeps.refl _ _
    | ((with_reducible refine Keeps.subMask hM ?_); exact rfl)
    | with_reducible apply State.count_keeps
    | with_reducible apply State.abortUsers_keeps)

theorem State.keyLedger_keeps {M : Nat} {s t : State} {a1 : _} {a2 : _} {a3 : _} {a4 : _} {a5 : _} {a6 : _}
    (hM : 1572864 &&& M = 1572864) (h : Keeps M s t) : Keeps M s (State.keyLedger t a1 a2 a3 a4 a5 a6) := by
  unfold State.keyLedger
  try dsimp only
  repeat' (first
    | with_reducible assumption
    | with_reducible exact Keeps.refl _ _
    | with_reducible apply State.ledger_keeps)

theorem State.changeKey_keeps {M : Nat} {s t : State} {a1 : _} {a2 : _} {a3 : _}
    (hM : 1079771140 &&& M = 1079771140) (h : Keeps M s t) : Keeps M s (State.changeKey t a1 a2 a3) := by
  unfold State.changeKey
  try dsimp only
  repeat' (first
    | with_reducible assumption
    | with_reducible exact Keeps.refl _ _
    | ((with_reducible refine Keeps.subMask hM ?_); exact rfl)
    | with_reducible apply State.tellKey_keeps
    | with_reducible apply State.updKey_keeps
    | with_reducible apply State.sramWrite_keeps
    | with_reducible apply State.keyLedger_keeps)

theorem State.stopSlotWork_keeps {M : Nat} {s t : State} {a1 : _}
    (hM : 5120 &&& M = 5120) (h : Keeps M s t) : Keeps M s (State.stopSlotWork t a1) := by
  unfold State.stopSlotWork
  try dsimp only
  repeat' (first
    | with_reducible assumption
    | with_reducible exact Keeps.refl _ _
    | ((with_reducible refine Keeps.subMask hM ?_); exact rfl)
    | with_reducible apply State.stopTrees_keeps
    | with_reducible apply State.stopWorkers_keeps)

theorem State.readKey_keeps {M : Nat} {s t : State} {a1 : _} {a2 : _} {a3 : _}
    (hM : 1616712780 &&& M = 1616712780) (h : Keeps M s t) : Keeps M s (State.readKey t a1 a2 a3) := by
  unfold State.readKey
  try dsimp only
  repeat' (first
    | with_reducible assumption
    | with_reducible exact Keeps.refl _ _
    | ((with_reducible refine Keeps.subMask hM ?_); exact rfl)
    | with_reducible apply State.sramRead_keeps
    | with_reducible apply State.abortUsers_keeps
    | with_reducible apply State.stopSlotWork_keeps
    | with_reducible apply State.changeKey_keeps
    | with_reducible apply State.sramWrite_keeps
    | split)

theorem State.startRetire_keeps {M : Nat} {s t : State} {a1 : _}
    (hM : 1079251972 &&& M = 1079251972) (h : Keeps M s t) : Keeps M s (State.startRetire t a1) := by
  unfold State.startRetire
  try dsimp only
  repeat' (first
    | with_reducible assumption
    | with_reducible exact Keeps.refl _ _
    | ((with_reducible refine Keeps.subMask hM ?_); exact rfl)
    | with_reducible apply State.stopSlotWork_keeps
    | with_reducible apply State.tellKey_keeps
    | with_reducible apply State.updKey_keeps)

theorem State.retireKey_keeps {M : Nat} {s t : State} {a1 : _}
    (hM : 1079776260 &&& M = 1079776260) (h : Keeps M s t) : Keeps M s (State.retireKey t a1) := by
  unfold State.retireKey
  try dsimp only
  repeat' (first
    | with_reducible assumption
    | with_reducible exact Keeps.refl _ _
    | ((with_reducible refine Keeps.subMask hM ?_); exact rfl)
    | with_reducible apply State.stopSlotWork_keeps
    | with_reducible apply State.changeKey_keeps)

theorem State.readOldest_keeps {M : Nat} {s t : State}
    (hM : 1213726792 &&& M = 1213726792) (h : Keeps M s t) : Keeps M s (State.readOldest t) := by
  unfold State.readOldest
  try dsimp only
  repeat' (first
    | with_reducible assumption
    | with_reducible exact Keeps.refl _ _
    | ((with_reducible refine Keeps.subMask hM ?_); exact rfl)
    | with_reducible apply State.sramRead_keeps
    | with_reducible apply State.sramWrite_keeps
    | with_reducible apply State.takeFresh_keeps
    | (dsimp only [keepsMk]; (with_reducible apply KeepsMk.put ?_ rfl rfl) <;> first | exact Or.inl (Keeps.subBit hM rfl) | exact Or.inr rfl | exact id | skip)
    | split)

theorem State.signOldest_keeps {M : Nat} {s t : State}
    (hM : 1213726792 &&& M = 1213726792) (h : Keeps M s t) : Keeps M s (State.signOldest t) := by
  unfold State.signOldest
  try dsimp only
  repeat' (first
    | with_reducible assumption
    | with_reducible exact Keeps.refl _ _
    | with_reducible apply State.readOldest_keeps
    | (dsimp only [keepsMk]; (with_reducible apply KeepsMk.put ?_ rfl rfl) <;> first | exact Or.inl (Keeps.subBit hM rfl) | exact Or.inr rfl | exact id | skip)
    | split)

theorem State.zeroiseKey_keeps {M : Nat} {s t : State} {a1 : _}
    (hM : 1079771140 &&& M = 1079771140) (h : Keeps M s t) : Keeps M s (State.zeroiseKey t a1) := by
  unfold State.zeroiseKey
  try dsimp only
  repeat' (first
    | with_reducible assumption
    | with_reducible exact Keeps.refl _ _
    | with_reducible apply State.changeKey_keeps)

/-! ### Machine/TimeOps.lean -/

theorem State.endEpoch_keeps {M : Nat} {s t : State}
    (hM : 21233732 &&& M = 21233732) (h : Keeps M s t) : Keeps M s (State.endEpoch t) := by
  unfold State.endEpoch
  try dsimp only
  repeat' (first
    | with_reducible assumption
    | with_reducible exact Keeps.refl _ _
    | ((with_reducible refine Keeps.subMask hM ?_); exact rfl)
    | with_reducible apply State.count_keeps
    | with_reducible apply State.halPush_keeps
    | with_reducible apply State.pipePush_keeps
    | with_reducible refine Keeps.foldl ?_ _ ?_
    | with_reducible refine Keeps.foldl_fst ?_ _ ?_
    | with_reducible refine Keeps.foldl_snd ?_ _ ?_
    | (dsimp only [keepsMk]; (with_reducible apply KeepsMk.put ?_ rfl rfl) <;> first | exact Or.inl (Keeps.subBit hM rfl) | exact Or.inr rfl | exact id | skip)
    | split
    | with_reducible refine Keeps.fst ‹_ = (_, _)› ?_
    | intro _)

theorem State.notApplied_keeps {M : Nat} {s t : State} {a1 : _}
    (hM : 4194304 &&& M = 4194304) (h : Keeps M s t) : Keeps M s (State.notApplied t a1) := by
  unfold State.notApplied
  try dsimp only
  repeat' (first
    | with_reducible assumption
    | with_reducible exact Keeps.refl _ _
    | with_reducible apply State.count_keeps)

theorem State.scheduleLaunch_keeps {M : Nat} {s t : State} {a1 : _} {a2 : _}
    (hM : 4195328 &&& M = 4195328) (h : Keeps M s t) : Keeps M s (State.scheduleLaunch t a1 a2) := by
  unfold State.scheduleLaunch
  try dsimp only
  repeat' (first
    | with_reducible assumption
    | with_reducible exact Keeps.refl _ _
    | ((with_reducible refine Keeps.subMask hM ?_); exact rfl)
    | with_reducible apply State.notApplied_keeps
    | with_reducible apply State.count_keeps
    | with_reducible apply State.triggerLaunch_keeps
    | split
    | with_reducible refine Keeps.fst ‹_ = (_, _)› ?_)

theorem State.schedAction_keeps {M : Nat} {s t : State} {a1 : _} {a2 : _}
    (hM : 21791822 &&& M = 21791822) (h : Keeps M s t) : Keeps M s (State.schedAction t a1 a2) := by
  unfold State.schedAction
  try dsimp only
  repeat' (first
    | with_reducible assumption
    | with_reducible exact Keeps.refl _ _
    | ((with_reducible refine Keeps.subMask hM ?_); exact rfl)
    | with_reducible apply State.scheduleLaunch_keeps
    | with_reducible apply State.hoist_keeps
    | with_reducible apply State.rowChanged_keeps
    | with_reducible apply State.setReg_keeps
    | with_reducible apply State.crier_keeps
    | with_reducible apply State.notApplied_keeps
    | with_reducible apply State.endEpoch_keeps
    | (dsimp only [keepsMk]; (with_reducible apply KeepsMk.put ?_ rfl rfl) <;> first | exact Or.inl (Keeps.subBit hM rfl) | exact Or.inr rfl | exact id | skip)
    | split)

theorem State.fireEntry_keeps {M : Nat} {s t : State} {a1 : _} {a2 : _} {a3 : _} {a4 : _}
    (hM : 21808206 &&& M = 21808206) (h : Keeps M s t) : Keeps M s (State.fireEntry t a1 a2 a3 a4) := by
  unfold State.fireEntry
  try dsimp only
  repeat' (first
    | with_reducible assumption
    | with_reducible exact Keeps.refl _ _
    | ((with_reducible refine Keeps.subMask hM ?_); exact rfl)
    | with_reducible apply State.count_keeps
    | with_reducible apply State.rowChanged_keeps
    | with_reducible apply State.schedAction_keeps
    | (dsimp only [keepsMk]; (with_reducible apply KeepsMk.put ?_ rfl rfl) <;> first | exact Or.inl (Keeps.subBit hM rfl) | exact Or.inr rfl | exact id | skip)
    | split)

theorem State.fireSchedule_keeps {M : Nat} {s t : State} {a1 : _} {a2 : _}
    (hM : 21808206 &&& M = 21808206) (h : Keeps M s t) : Keeps M s (State.fireSchedule t a1 a2) := by
  unfold State.fireSchedule
  try dsimp only
  repeat' (first
    | with_reducible assumption
    | with_reducible exact Keeps.refl _ _
    | with_reducible apply State.fireEntry_keeps
    | with_reducible refine Keeps.foldl ?_ _ ?_
    | with_reducible refine Keeps.foldl_fst ?_ _ ?_
    | with_reducible refine Keeps.foldl_snd ?_ _ ?_
    | split
    | with_reducible refine Keeps.fst ‹_ = (_, _)› ?_
    | intro _)

theorem State.applyMark_keeps {M : Nat} {s t : State} {a1 : _}
    (hM : 21808334 &&& M = 21808334) (h : Keeps M s t) : Keeps M s (State.applyMark t a1) := by
  unfold State.applyMark
  try dsimp only
  repeat' (first
    | with_reducible assumption
    | with_reducible exact Keeps.refl _ _
    | ((with_reducible refine Keeps.subMask hM ?_); exact rfl)
    | with_reducible apply State.count_keeps
    | with_reducible apply State.applyGates_keeps
    | with_reducible apply State.fireSchedule_keeps
    | with_reducible apply State.crier_keeps
    | (dsimp only [keepsMk]; (with_reducible apply KeepsMk.put ?_ rfl rfl) <;> first | exact Or.inl (Keeps.subBit hM rfl) | exact Or.inr rfl | exact id | skip)
    | split)

theorem State.markTake_keeps {M : Nat} {s t : State} {a1 : _} {a2 : _} {a3 : _} {a4 : _}
    (hM : 21808334 &&& M = 21808334) (h : Keeps M s t) : Keeps M s (State.markTake t a1 a2 a3 a4).2 := by
  unfold State.markTake
  try dsimp only
  repeat' (first
    | with_reducible assumption
    | with_reducible exact Keeps.refl _ _
    | ((with_reducible refine Keeps.subMask hM ?_); exact rfl)
    | with_reducible apply State.count_keeps
    | with_reducible apply State.applyMark_keeps
    | (dsimp only [keepsMk]; (with_reducible apply KeepsMk.put ?_ rfl rfl) <;> first | exact Or.inl (Keeps.subBit hM rfl) | exact Or.inr rfl | exact id | skip)
    | split)

/-! ### Machine/HostOps.lean -/

theorem State.doorbellDo_keeps {M : Nat} {s t : State} {a1 : _} {a2 : _}
    (hM : 541852680 &&& M = 541852680) (h : Keeps M s t) : Keeps M s (State.doorbellDo t a1 a2).1 := by
  unfold State.doorbellDo
  try dsimp only
  repeat' (first
    | with_reducible assumption
    | with_reducible exact Keeps.refl _ _
    | ((with_reducible refine Keeps.subMask hM ?_); exact rfl)
    | with_reducible apply State.updBarrow_keeps
    | with_reducible apply State.recordTag_keeps
    | with_reducible apply State.queueLaunch_keeps
    | split
    | with_reducible refine Keeps.fst ‹_ = (_, _)› ?_)

theorem State.begin_keeps {M : Nat} {s t : State} {a1 : _} {a2 : _} {a3 : _}
    (hM : 3780970476 &&& M = 3780970476) (h : Keeps M s t) : Keeps M s (State.begin t a1 a2 a3) := by
  unfold State.begin
  try dsimp only
  repeat' (first
    | with_reducible assumption
    | with_reducible exact Keeps.refl _ _
    | ((with_reducible refine Keeps.subMask hM ?_); exact rfl)
    | with_reducible apply State.doorbellDo_keeps
    | with_reducible apply State.track_keeps
    | with_reducible apply State.reduceWrite_keeps
    | with_reducible apply State.touch_keeps
    | with_reducible apply State.readFrame_keeps
    | with_reducible apply State.lateWriteback_keeps
    | with_reducible apply State.cohGo_keeps
    | with_reducible apply State.unitsDo_keeps
    | split)

theorem State.reply_keeps {M : Nat} {s t : State} {a1 : _} {a2 : _} {a3 : _} {a4 : _} {a5 : _}
    (hM : 4259852 &&& M = 4259852) (h : Keeps M s t) : Keeps M s (State.reply t a1 a2 a3 a4 a5) := by
  unfold State.reply
  try dsimp only
  repeat' (first
    | with_reducible assumption
    | with_reducible exact Keeps.refl _ _
    | with_reducible apply State.answer_keeps)

theorem State.switchMiss_keeps {M : Nat} {s t : State} {a1 : _} {a2 : _}
    (hM : 4718632 &&& M = 4718632) (h : Keeps M s t) : Keeps M s (State.switchMiss t a1 a2) := by
  unfold State.switchMiss
  try dsimp only
  repeat' (first
    | with_reducible assumption
    | with_reducible exact Keeps.refl _ _
    | ((with_reducible refine Keeps.subMask hM ?_); exact rfl)
    | with_reducible apply State.count_keeps
    | with_reducible apply State.crier_keeps
    | (dsimp only [keepsMk]; (with_reducible apply KeepsMk.put ?_ rfl rfl) <;> first | exact Or.inl (Keeps.subBit hM rfl) | exact Or.inr rfl | exact id | skip)
    | split)

theorem State.readTables_keeps {M : Nat} {s t : State} {a1 : _} {a2 : _}
    (hM : 1616712812 &&& M = 1616712812) (h : Keeps M s t) : Keeps M s (State.readTables t a1 a2).1 := by
  unfold State.readTables
  try dsimp only
  repeat' (first
    | with_reducible assumption
    | with_reducible exact Keeps.refl _ _
    | ((with_reducible refine Keeps.subMask hM ?_); exact rfl)
    | with_reducible apply State.sramRead_keeps
    | with_reducible apply State.readKey_keeps
    | (dsimp only [keepsMk]; (with_reducible apply KeepsMk.put ?_ rfl rfl) <;> first | exact Or.inl (Keeps.subBit hM rfl) | exact Or.inr rfl | exact id | skip)
    | split)

theorem State.replyStopped_keeps {M : Nat} {s t : State} {a1 : _} {a2 : _} {a3 : _}
    (hM : 541917196 &&& M = 541917196) (h : Keeps M s t) : Keeps M s (State.replyStopped t a1 a2 a3) := by
  unfold State.replyStopped
  try dsimp only
  repeat' (first
    | with_reducible assumption
    | with_reducible exact Keeps.refl _ _
    | ((with_reducible refine Keeps.subMask hM ?_); exact rfl)
    | with_reducible apply State.recordTag_keeps
    | with_reducible apply State.answer_keeps
    | split)

theorem State.serve_keeps {M : Nat} {s t : State} {a1 : _} {a2 : _} {a3 : _}
    (hM : 3781019630 &&& M = 3781019630) (h : Keeps M s t) : Keeps M s (State.serve t a1 a2 a3) := by
  unfold State.serve
  try dsimp only
  repeat' (first
    | with_reducible assumption
    | with_reducible exact Keeps.refl _ _
    | ((with_reducible refine Keeps.subMask hM ?_); exact rfl)
    | with_reducible apply State.reply_keeps
    | with_reducible apply State.markTake_keeps
    | with_reducible apply State.replyStopped_keeps
    | with_reducible apply State.begin_keeps
    | split)

theorem State.checkRights_keeps {M : Nat} {s t : State} {a1 : _} {a2 : _} {a3 : _}
    (hM : 3781023726 &&& M = 3781023726) (h : Keeps M s t) : Keeps M s (State.checkRights t a1 a2 a3) := by
  unfold State.checkRights
  try dsimp only
  repeat' (first
    | with_reducible assumption
    | with_reducible exact Keeps.refl _ _
    | ((with_reducible refine Keeps.subMask hM ?_); exact rfl)
    | with_reducible apply State.reply_keeps
    | with_reducible apply State.switchMiss_keeps
    | with_reducible apply State.count_keeps
    | with_reducible apply State.readTables_keeps
    | with_reducible apply State.serve_keeps
    | with_reducible apply State.recordTag_keeps
    | split)

theorem State.enter_keeps {M : Nat} {s t : State} {a1 : _} {a2 : _} {a3 : _}
    (hM : 3781023742 &&& M = 3781023742) (h : Keeps M s t) : Keeps M s (State.enter t a1 a2 a3) := by
  unfold State.enter
  try dsimp only
  repeat' (first
    | with_reducible assumption
    | with_reducible exact Keeps.refl _ _
    | ((with_reducible refine Keeps.subMask hM ?_); exact rfl)
    | with_reducible apply State.chargeIn_keeps
    | with_reducible apply State.reply_keeps
    | with_reducible apply State.count_keeps
    | with_reducible apply State.checkRights_keeps
    | split)

theorem State.frameHint_keeps {M : Nat} {s t : State} {a1 : _} {a2 : _} {a3 : _} {a4 : _}
    (hM : 64 &&& M = 64) (h : Keeps M s t) : Keeps M s (State.frameHint t a1 a2 a3 a4).1 := by
  unfold State.frameHint
  try dsimp only
  repeat' (first
    | with_reducible assumption
    | with_reducible exact Keeps.refl _ _
    | with_reducible apply State.updSlice_keeps
    | split)

theorem State.hintDo_keeps {M : Nat} {s t : State} {a1 : _} {a2 : _}
    (hM : 4980836 &&& M = 4980836) (h : Keeps M s t) : Keeps M s (State.hintDo t a1 a2).1 := by
  unfold State.hintDo
  try dsimp only
  repeat' (first
    | with_reducible assumption
    | with_reducible exact Keeps.refl _ _
    | ((with_reducible refine Keeps.subMask hM ?_); exact rfl)
    | with_reducible apply State.setGranules_keeps
    | with_reducible apply State.repin_keeps
    | with_reducible apply State.count_keeps
    | with_reducible apply State.frameHint_keeps
    | with_reducible refine Keeps.foldl ?_ _ ?_
    | with_reducible refine Keeps.foldl_fst ?_ _ ?_
    | with_reducible refine Keeps.foldl_snd ?_ _ ?_
    | (dsimp only [keepsMk]; (with_reducible apply KeepsMk.put ?_ rfl rfl) <;> first | exact Or.inl (Keeps.subBit hM rfl) | exact Or.inr rfl | exact id | skip)
    | split
    | with_reducible refine Keeps.fst ‹_ = (_, _)› ?_
    | intro _)

theorem State.refuseSender_keeps {M : Nat} {s t : State} {a1 : _} {a2 : _}
    (hM : 4259844 &&& M = 4259844) (h : Keeps M s t) : Keeps M s (State.refuseSender t a1 a2) := by
  unfold State.refuseSender
  try dsimp only
  repeat' (first
    | with_reducible assumption
    | with_reducible exact Keeps.refl _ _
    | with_reducible apply State.answerOn_keeps)

theorem State.notCounted_keeps {M : Nat} {s t : State} {a1 : _} {a2 : _} {a3 : _}
    (hM : 4259852 &&& M = 4259852) (h : Keeps M s t) : Keeps M s (State.notCounted t a1 a2 a3) := by
  unfold State.notCounted
  try dsimp only
  repeat' (first
    | with_reducible assumption
    | with_reducible exact Keeps.refl _ _
    | with_reducible apply State.reply_keeps)

theorem State.readTag_keeps {M : Nat} {s t : State} {a1 : _} {a2 : _}
    (hM : 541589576 &&& M = 541589576) (h : Keeps M s t) : Keeps M s (State.readTag t a1 a2) := by
  unfold State.readTag
  try dsimp only
  repeat' (first
    | with_reducible assumption
    | with_reducible exact Keeps.refl _ _
    | ((with_reducible refine Keeps.subMask hM ?_); exact rfl)
    | with_reducible apply State.sramRead_keeps
    | with_reducible apply State.updStall_keeps
    | with_reducible apply State.sramWrite_keeps
    | exact Or.inl (Keeps.subBit hM rfl)
    | exact Or.inr fun _ => rfl
    | split)

theorem State.sendOn_keeps {M : Nat} {s t : State} {a1 : _} {a2 : _} {a3 : _}
    (hM : 4268148 &&& M = 4268148) (h : Keeps M s t) : Keeps M s (State.sendOn t a1 a2 a3) := by
  unfold State.sendOn
  try dsimp only
  repeat' (first
    | with_reducible assumption
    | with_reducible exact Keeps.refl _ _
    | ((with_reducible refine Keeps.subMask hM ?_); exact rfl)
    | with_reducible apply State.portSend_keeps
    | with_reducible apply State.updSlice_keeps
    | with_reducible apply State.startHold_keeps
    | with_reducible apply State.chargeOut_keeps
    | with_reducible apply State.egressPush_keeps
    | split)

theorem State.replyCached_keeps {M : Nat} {s t : State} {a1 : _} {a2 : _} {a3 : _} {a4 : _}
    (hM : 4259852 &&& M = 4259852) (h : Keeps M s t) : Keeps M s (State.replyCached t a1 a2 a3 a4) := by
  unfold State.replyCached
  try dsimp only
  repeat' (first
    | with_reducible assumption
    | with_reducible exact Keeps.refl _ _
    | with_reducible apply State.answer_keeps)

theorem State.reorder_keeps {M : Nat} {s t : State} {a1 : _} {a2 : _} {a3 : _}
    (hM : 3781031934 &&& M = 3781031934) (h : Keeps M s t) : Keeps M s (State.reorder t a1 a2 a3) := by
  unfold State.reorder
  try dsimp only
  repeat' (first
    | with_reducible assumption
    | with_reducible exact Keeps.refl _ _
    | ((with_reducible refine Keeps.subMask hM ?_); exact rfl)
    | with_reducible apply State.readTag_keeps
    | with_reducible apply State.updStall_keeps
    | with_reducible apply State.sendOn_keeps
    | with_reducible apply State.replyCached_keeps
    | with_reducible apply State.enter_keeps
    | with_reducible apply State.reply_keeps
    | exact Or.inl (Keeps.subBit hM rfl)
    | exact Or.inr fun _ => rfl
    | split)

theorem State.hostRequest_keeps {M : Nat} {s t : State} {a1 : _} {a2 : _}
    (hM : 3781031934 &&& M = 3781031934) (h : Keeps M s t) : Keeps M s (State.hostRequest t a1 a2) := by
  unfold State.hostRequest
  try dsimp only
  repeat' (first
    | with_reducible assumption
    | with_reducible exact Keeps.refl _ _
    | ((with_reducible refine Keeps.subMask hM ?_); exact rfl)
    | with_reducible apply State.refuseSender_keeps
    | with_reducible apply State.count_keeps
    | with_reducible apply State.answer_keeps
    | with_reducible apply State.notCounted_keeps
    | with_reducible apply State.reorder_keeps
    | split)

/-! ### Machine/RepairOps.lean -/

theorem State.afterFold_keeps {M : Nat} {s t : State} {a1 : _}
    (hM : 2153512970 &&& M = 2153512970) (h : Keeps M s t) : Keeps M s (State.afterFold t a1) := by
  unfold State.afterFold
  try dsimp only
  repeat' (first
    | with_reducible assumption
    | with_reducible exact Keeps.refl _ _
    | ((with_reducible refine Keeps.subMask hM ?_); exact rfl)
    | with_reducible apply State.setReg_keeps
    | with_reducible apply State.crier_keeps
    | with_reducible apply State.ledger_keeps
    | (dsimp only [keepsMk]; (with_reducible apply KeepsMk.put ?_ rfl rfl) <;> first | exact Or.inl (Keeps.subBit hM rfl) | exact Or.inr rfl | exact id | skip)
    | split)

theorem State.answerStopped_keeps {M : Nat} {s t : State} {a1 : _}
    (hM : 1616715884 &&& M = 1616715884) (h : Keeps M s t) : Keeps M s (State.answerStopped t a1) := by
  unfold State.answerStopped
  try dsimp only
  repeat' (first
    | with_reducible assumption
    | with_reducible exact Keeps.refl _ _
    | ((with_reducible refine Keeps.subMask hM ?_); exact rfl)
    | with_reducible apply State.answerTrk_keeps
    | with_reducible apply State.complete_keeps
    | with_reducible refine Keeps.foldl ?_ _ ?_
    | with_reducible refine Keeps.foldl_fst ?_ _ ?_
    | with_reducible refine Keeps.foldl_snd ?_ _ ?_
    | split
    | with_reducible refine Keeps.fst ‹_ = (_, _)› ?_
    | intro _)

theorem State.issueRetire_keeps {M : Nat} {s t : State}
    (hM : 3780974574 &&& M = 3780974574) (h : Keeps M s t) : Keeps M s (State.issueRetire t) := by
  unfold State.issueRetire
  try dsimp only
  repeat' (first
    | with_reducible assumption
    | with_reducible exact Keeps.refl _ _
    | with_reducible apply State.startRevoke_keeps
    | with_reducible refine Keeps.foldl ?_ _ ?_
    | with_reducible refine Keeps.foldl_fst ?_ _ ?_
    | with_reducible refine Keeps.foldl_snd ?_ _ ?_
    | (dsimp only [keepsMk]; (with_reducible apply KeepsMk.put ?_ rfl rfl) <;> first | exact Or.inl (Keeps.subBit hM rfl) | exact Or.inr rfl | exact id | skip)
    | split
    | with_reducible refine Keeps.fst ‹_ = (_, _)› ?_
    | intro _)

theorem State.beginRetire_keeps {M : Nat} {s t : State} {a1 : _} {a2 : _}
    (hM : 3780974574 &&& M = 3780974574) (h : Keeps M s t) : Keeps M s (State.beginRetire t a1 a2) := by
  unfold State.beginRetire
  try dsimp only
  repeat' (first
    | with_reducible assumption
    | with_reducible exact Keeps.refl _ _
    | with_reducible apply State.issueRetire_keeps
    | (dsimp only [keepsMk]; (with_reducible apply KeepsMk.put ?_ rfl rfl) <;> first | exact Or.inl (Keeps.subBit hM rfl) | exact Or.inr rfl | exact id | skip))

theorem State.reimpair_keeps {M : Nat} {s t : State}
    (hM : 2148007936 &&& M = 2148007936) (h : Keeps M s t) : Keeps M s (State.reimpair t) := by
  unfold State.reimpair
  try dsimp only
  repeat' (first
    | with_reducible assumption
    | with_reducible exact Keeps.refl _ _
    | (dsimp only [keepsMk]; (with_reducible apply KeepsMk.put ?_ rfl rfl) <;> first | exact Or.inl (Keeps.subBit hM rfl) | exact Or.inr rfl | exact id | skip))

theorem State.unitFault_keeps {M : Nat} {s t : State} {a1 : _} {a2 : _} {a3 : _} {a4 : _} {a5 : _}
    (hM : 5767176 &&& M = 5767176) (h : Keeps M s t) : Keeps M s (State.unitFault t a1 a2 a3 a4 a5) := by
  unfold State.unitFault
  try dsimp only
  repeat' (first
    | with_reducible assumption
    | with_reducible exact Keeps.refl _ _
    | ((with_reducible refine Keeps.subMask hM ?_); exact rfl)
    | with_reducible apply State.fault_keeps
    | with_reducible apply State.ledger_keeps)

theorem State.dirtyOld_keeps {M : Nat} {s t : State} {a1 : _}
    (hM : 64 &&& M = 64) (h : Keeps M s t) : Keeps M s (State.dirtyOld t a1) := by
  unfold State.dirtyOld
  try dsimp only
  repeat' (first
    | with_reducible assumption
    | with_reducible exact Keeps.refl _ _
    | with_reducible apply State.updSlice_keeps)

theorem State.freeFramesFrom_keeps {M : Nat} {s t : State} {a1 : _}
    (hM : 64 &&& M = 64) (h : Keeps M s t) : Keeps M s (State.freeFramesFrom t a1) := by
  unfold State.freeFramesFrom
  try dsimp only
  repeat' (first
    | with_reducible assumption
    | with_reducible exact Keeps.refl _ _
    | with_reducible apply State.updSlice_keeps
    | with_reducible refine Keeps.foldl ?_ _ ?_
    | with_reducible refine Keeps.foldl_fst ?_ _ ?_
    | with_reducible refine Keeps.foldl_snd ?_ _ ?_
    | split
    | with_reducible refine Keeps.fst ‹_ = (_, _)› ?_
    | intro _)

theorem State.wipeThird_keeps {M : Nat} {s t : State} {a1 : _}
    (hM : 128 &&& M = 128) (h : Keeps M s t) : Keeps M s (State.wipeThird t a1) := by
  unfold State.wipeThird
  try dsimp only
  repeat' (first
    | with_reducible assumption
    | with_reducible exact Keeps.refl _ _
    | with_reducible apply State.updChan_keeps
    | with_reducible refine Keeps.foldl ?_ _ ?_
    | with_reducible refine Keeps.foldl_fst ?_ _ ?_
    | with_reducible refine Keeps.foldl_snd ?_ _ ?_
    | with_reducible exact ChanSt.wf_wipe _ _ (by assumption)
    | with_reducible exact ChanSt.wf_setLine _ _ _ (by assumption)
    | with_reducible exact Tbl.wf_set _ _ (by assumption)
    | with_reducible exact Tbl.wf_filter _ (by assumption)
    | with_reducible exact Tbl.wf_nil _
    | with_reducible exact State.memOk_chan (by assumption) _
    | split
    | with_reducible refine Keeps.fst ‹_ = (_, _)› ?_
    | intro _)

theorem State.freeAboveReach_keeps {M : Nat} {s t : State}
    (hM : 4980772 &&& M = 4980772) (h : Keeps M s t) : Keeps M s (State.freeAboveReach t) := by
  unfold State.freeAboveReach
  try dsimp only
  repeat' (first
    | with_reducible assumption
    | with_reducible exact Keeps.refl _ _
    | with_reducible apply State.setGranules_keeps)

theorem State.foldChannelNow_keeps {M : Nat} {s t : State} {a1 : _}
    (hM : 2152464612 &&& M = 2152464612) (h : Keeps M s t) : Keeps M s (State.foldChannelNow t a1) := by
  unfold State.foldChannelNow
  try dsimp only
  repeat' (first
    | with_reducible assumption
    | with_reducible exact Keeps.refl _ _
    | ((with_reducible refine Keeps.subMask hM ?_); exact rfl)
    | with_reducible apply State.dirtyOld_keeps
    | with_reducible apply State.freeFramesFrom_keeps
    | with_reducible apply State.wipeThird_keeps
    | with_reducible apply State.updChan_keeps
    | with_reducible apply State.reimpair_keeps
    | with_reducible apply State.freeAboveReach_keeps
    | (dsimp only [keepsMk]; (with_reducible apply KeepsMk.put ?_ rfl rfl) <;> first | exact Or.inl (Keeps.subBit hM rfl) | exact Or.inr rfl | exact id | skip)
    | with_reducible exact ChanSt.wf_wipe _ _ (by assumption)
    | with_reducible exact ChanSt.wf_setLine _ _ _ (by assumption)
    | with_reducible exact Tbl.wf_set _ _ (by assumption)
    | with_reducible exact Tbl.wf_filter _ (by assumption)
    | with_reducible exact Tbl.wf_nil _
    | with_reducible exact State.memOk_chan (by assumption) _
    | split
    | with_reducible refine Keeps.fst ‹_ = (_, _)› ?_
    | intro _)

theorem State.bringUpChannel_keeps {M : Nat} {s t : State} {a1 : _} {a2 : _}
    (hM : 2153591022 &&& M = 2153591022) (h : Keeps M s t) : Keeps M s (State.bringUpChannel t a1 a2) := by
  unfold State.bringUpChannel
  try dsimp only
  repeat' (first
    | with_reducible assumption
    | with_reducible exact Keeps.refl _ _
    | ((with_reducible refine Keeps.subMask hM ?_); exact rfl)
    | with_reducible apply State.updChan_keeps
    | with_reducible apply State.reimpair_keeps
    | with_reducible apply State.unfit_keeps
    | with_reducible apply State.unitFault_keeps
    | with_reducible apply State.afterFold_keeps
    | with_reducible apply State.foldChannelNow_keeps
    | with_reducible exact ChanSt.wf_wipe _ _ (by assumption)
    | with_reducible exact ChanSt.wf_setLine _ _ _ (by assumption)
    | with_reducible exact Tbl.wf_set _ _ (by assumption)
    | with_reducible exact Tbl.wf_filter _ (by assumption)
    | with_reducible exact Tbl.wf_nil _
    | with_reducible exact State.memOk_chan (by assumption) _
    | split
    | with_reducible refine Keeps.fst ‹_ = (_, _)› ?_
    | intro _)

theorem State.withdrawWrites_keeps {M : Nat} {s t : State} {a1 : _}
    (hM : 262144 &&& M = 262144) (h : Keeps M s t) : Keeps M s (State.withdrawWrites t a1) := by
  unfold State.withdrawWrites
  try dsimp only
  repeat' (first
    | with_reducible assumption
    | with_reducible exact Keeps.refl _ _
    | (dsimp only [keepsMk]; (with_reducible apply KeepsMk.put ?_ rfl rfl) <;> first | exact Or.inl (Keeps.subBit hM rfl) | exact Or.inr rfl | exact id | skip))

theorem State.moveHead_keeps {M : Nat} {s t : State} {a1 : _} {a2 : _}
    (hM : 1088 &&& M = 1088) (h : Keeps M s t) : Keeps M s (State.moveHead t a1 a2) := by
  unfold State.moveHead
  try dsimp only
  repeat' (first
    | with_reducible assumption
    | with_reducible exact Keeps.refl _ _
    | ((with_reducible refine Keeps.subMask hM ?_); exact rfl)
    | with_reducible apply State.updBarrow_keeps
    | with_reducible apply State.updSlice_keeps
    | with_reducible refine Keeps.foldl ?_ _ ?_
    | with_reducible refine Keeps.foldl_fst ?_ _ ?_
    | with_reducible refine Keeps.foldl_snd ?_ _ ?_
    | split
    | with_reducible refine Keeps.fst ‹_ = (_, _)› ?_
    | intro _)

theorem State.moveHeads_keeps {M : Nat} {s t : State} {a1 : _}
    (hM : 1088 &&& M = 1088) (h : Keeps M s t) : Keeps M s (State.moveHeads t a1) := by
  unfold State.moveHeads
  try dsimp only
  repeat' (first
    | with_reducible assumption
    | with_reducible exact Keeps.refl _ _
    | with_reducible apply State.moveHead_keeps
    | with_reducible refine Keeps.foldl ?_ _ ?_
    | with_reducible refine Keeps.foldl_fst ?_ _ ?_
    | with_reducible refine Keeps.foldl_snd ?_ _ ?_
    | split
    | with_reducible refine Keeps.fst ‹_ = (_, _)› ?_
    | intro _)

theorem State.stopSlice_keeps {M : Nat} {s t : State} {a1 : _}
    (hM : 1616721260 &&& M = 1616721260) (h : Keeps M s t) : Keeps M s (State.stopSlice t a1) := by
  unfold State.stopSlice
  try dsimp only
  repeat' (first
    | with_reducible assumption
    | with_reducible exact Keeps.refl _ _
    | ((with_reducible refine Keeps.subMask hM ?_); exact rfl)
    | with_reducible apply State.updSlice_keeps
    | with_reducible apply State.answerStopped_keeps
    | with_reducible apply State.dropPackets_keeps
    | with_reducible apply State.withdrawWrites_keeps
    | with_reducible apply State.mapTrees_keeps
    | with_reducible apply State.moveHeads_keeps
    | with_reducible apply State.mapBarrows_keeps
    | (dsimp only [keepsMk]; (with_reducible apply KeepsMk.put ?_ rfl rfl) <;> first | exact Or.inl (Keeps.subBit hM rfl) | exact Or.inr rfl | exact id | skip))

theorem State.freeRegions_keeps {M : Nat} {s t : State}
    (hM : 64 &&& M = 64) (h : Keeps M s t) : Keeps M s (State.freeRegions t) := by
  unfold State.freeRegions
  try dsimp only
  repeat' (first
    | with_reducible assumption
    | with_reducible exact Keeps.refl _ _
    | with_reducible apply State.updSlice_keeps
    | with_reducible refine Keeps.foldl ?_ _ ?_
    | with_reducible refine Keeps.foldl_fst ?_ _ ?_
    | with_reducible refine Keeps.foldl_snd ?_ _ ?_
    | split
    | with_reducible refine Keeps.fst ‹_ = (_, _)› ?_
    | intro _)

theorem State.wipeTop_keeps {M : Nat} {s t : State} {a1 : _}
    (hM : 128 &&& M = 128) (h : Keeps M s t) : Keeps M s (State.wipeTop t a1) := by
  unfold State.wipeTop
  try dsimp only
  repeat' (first
    | with_reducible assumption
    | with_reducible exact Keeps.refl _ _
    | with_reducible apply State.updChan_keeps
    | with_reducible refine Keeps.foldl ?_ _ ?_
    | with_reducible refine Keeps.foldl_fst ?_ _ ?_
    | with_reducible refine Keeps.foldl_snd ?_ _ ?_
    | with_reducible exact ChanSt.wf_wipe _ _ (by assumption)
    | with_reducible exact ChanSt.wf_setLine _ _ _ (by assumption)
    | with_reducible exact Tbl.wf_set _ _ (by assumption)
    | with_reducible exact Tbl.wf_filter _ (by assumption)
    | with_reducible exact Tbl.wf_nil _
    | with_reducible exact State.memOk_chan (by assumption) _
    | split
    | with_reducible refine Keeps.fst ‹_ = (_, _)› ?_
    | intro _)

theorem State.foldSliceNow_keeps {M : Nat} {s t : State} {a1 : _}
    (hM : 2152465892 &&& M = 2152465892) (h : Keeps M s t) : Keeps M s (State.foldSliceNow t a1) := by
  unfold State.foldSliceNow
  try dsimp only
  repeat' (first
    | with_reducible assumption
    | with_reducible exact Keeps.refl _ _
    | ((with_reducible refine Keeps.subMask hM ?_); exact rfl)
    | with_reducible apply State.freeRegions_keeps
    | with_reducible apply State.freeFramesFrom_keeps
    | with_reducible apply State.wipeTop_keeps
    | with_reducible apply State.updSlice_keeps
    | with_reducible apply State.mapBarrows_keeps
    | with_reducible apply State.reimpair_keeps
    | with_reducible apply State.freeAboveReach_keeps
    | with_reducible refine Keeps.foldl ?_ _ ?_
    | with_reducible refine Keeps.foldl_fst ?_ _ ?_
    | with_reducible refine Keeps.foldl_snd ?_ _ ?_
    | (dsimp only [keepsMk]; (with_reducible apply KeepsMk.put ?_ rfl rfl) <;> first | exact Or.inl (Keeps.subBit hM rfl) | exact Or.inr rfl | exact id | skip)
    | split
    | with_reducible refine Keeps.fst ‹_ = (_, _)› ?_
    | intro _)

theorem State.bringUpSlice_keeps {M : Nat} {s t : State} {a1 : _} {a2 : _}
    (hM : 3764205038 &&& M = 3764205038) (h : Keeps M s t) : Keeps M s (State.bringUpSlice t a1 a2) := by
  unfold State.bringUpSlice
  try dsimp only
  repeat' (first
    | with_reducible assumption
    | with_reducible exact Keeps.refl _ _
    | ((with_reducible refine Keeps.subMask hM ?_); exact rfl)
    | with_reducible apply State.stopSlice_keeps
    | with_reducible apply State.reimpair_keeps
    | with_reducible apply State.unfit_keeps
    | with_reducible apply State.unitFault_keeps
    | with_reducible apply State.afterFold_keeps
    | with_reducible apply State.foldSliceNow_keeps
    | split)

theorem State.runningChannelFault_keeps {M : Nat} {s t : State} {a1 : _} {a2 : _}
    (hM : 3780982766 &&& M = 3780982766) (h : Keeps M s t) : Keeps M s (State.runningChannelFault t a1 a2) := by
  unfold State.runningChannelFault
  try dsimp only
  repeat' (first
    | with_reducible assumption
    | with_reducible exact Keeps.refl _ _
    | ((with_reducible refine Keeps.subMask hM ?_); exact rfl)
    | with_reducible apply State.updChan_keeps
    | with_reducible apply State.reimpair_keeps
    | with_reducible apply State.unitFault_keeps
    | with_reducible apply State.beginRetire_keeps
    | with_reducible apply State.unfit_keeps
    | with_reducible exact ChanSt.wf_wipe _ _ (by assumption)
    | with_reducible exact ChanSt.wf_setLine _ _ _ (by assumption)
    | with_reducible exact Tbl.wf_set _ _ (by assumption)
    | with_reducible exact Tbl.wf_filter _ (by assumption)
    | with_reducible exact Tbl.wf_nil _
    | with_reducible exact State.memOk_chan (by assumption) _
    | split
    | with_reducible refine Keeps.fst ‹_ = (_, _)› ?_
    | intro _)

theorem State.channelFaultOn_keeps {M : Nat} {s t : State} {a1 : _} {a2 : _}
    (hM : 3780982766 &&& M = 3780982766) (h : Keeps M s t) : Keeps M s (State.channelFaultOn t a1 a2) := by
  unfold State.channelFaultOn
  try dsimp only
  repeat' (first
    | with_reducible assumption
    | with_reducible exact Keeps.refl _ _
    | ((with_reducible refine Keeps.subMask hM ?_); exact rfl)
    | with_reducible apply State.runningChannelFault_keeps
    | with_reducible apply State.bringUpChannel_keeps
    | split)

theorem State.takeCandidates_keeps {M : Nat} {s t : State} {a1 : _}
    (hM : 3780982766 &&& M = 3780982766) (h : Keeps M s t) : Keeps M s (State.takeCandidates t a1) := by
  unfold State.takeCandidates
  try dsimp only
  repeat' (first
    | with_reducible assumption
    | with_reducible exact Keeps.refl _ _
    | ((with_reducible refine Keeps.subMask hM ?_); exact rfl)
    | with_reducible apply State.fault_keeps
    | with_reducible apply State.updChan_keeps
    | with_reducible apply State.channelFaultOn_keeps
    | with_reducible refine Keeps.foldl ?_ _ ?_
    | with_reducible refine Keeps.foldl_fst ?_ _ ?_
    | with_reducible refine Keeps.foldl_snd ?_ _ ?_
    | with_reducible exact ChanSt.wf_wipe _ _ (by assumption)
    | with_reducible exact ChanSt.wf_setLine _ _ _ (by assumption)
    | with_reducible exact Tbl.wf_set _ _ (by assumption)
    | with_reducible exact Tbl.wf_filter _ (by assumption)
    | with_reducible exact Tbl.wf_nil _
    | with_reducible exact State.memOk_chan (by assumption) _
    | split
    | with_reducible refine Keeps.fst ‹_ = (_, _)› ?_
    | intro _)

theorem State.runningSliceFault_keeps {M : Nat} {s t : State} {a1 : _} {a2 : _}
    (hM : 3780982766 &&& M = 3780982766) (h : Keeps M s t) : Keeps M s (State.runningSliceFault t a1 a2) := by
  unfold State.runningSliceFault
  try dsimp only
  repeat' (first
    | with_reducible assumption
    | with_reducible exact Keeps.refl _ _
    | ((with_reducible refine Keeps.subMask hM ?_); exact rfl)
    | with_reducible apply State.stopSlice_keeps
    | with_reducible apply State.reimpair_keeps
    | with_reducible apply State.unitFault_keeps
    | with_reducible apply State.beginRetire_keeps
    | with_reducible apply State.unfit_keeps
    | split)

theorem State.sliceFaultOn_keeps {M : Nat} {s t : State} {a1 : _} {a2 : _}
    (hM : 3780982766 &&& M = 3780982766) (h : Keeps M s t) : Keeps M s (State.sliceFaultOn t a1 a2) := by
  unfold State.sliceFaultOn
  try dsimp only
  repeat' (first
    | with_reducible assumption
    | with_reducible exact Keeps.refl _ _
    | ((with_reducible refine Keeps.subMask hM ?_); exact rfl)
    | with_reducible apply State.runningSliceFault_keeps
    | with_reducible apply State.bringUpSlice_keeps
    | split)

/-! ### Machine/Egress.lean -/

theorem State.discardFlow_keeps {M : Nat} {s t : State} {a1 : _} {a2 : _}
    (hM : 4194400 &&& M = 4194400) (h : Keeps M s t) : Keeps M s (State.discardFlow t a1 a2) := by
  unfold State.discardFlow
  try dsimp only
  repeat' (first
    | with_reducible assumption
    | with_reducible exact Keeps.refl _ _
    | ((with_reducible refine Keeps.subMask hM ?_); exact rfl)
    | with_reducible apply State.discardTrk_keeps
    | with_reducible apply State.updSlice_keeps
    | with_reducible refine Keeps.foldl ?_ _ ?_
    | with_reducible refine Keeps.foldl_fst ?_ _ ?_
    | with_reducible refine Keeps.foldl_snd ?_ _ ?_
    | split
    | with_reducible refine Keeps.fst ‹_ = (_, _)› ?_
    | intro _)

theorem State.writeShaper_keeps {M : Nat} {s t : State} {a1 : _} {a2 : _}
    (hM : 262160 &&& M = 262160) (h : Keeps M s t) : Keeps M s (State.writeShaper a1 a2 t).1 := by
  unfold State.writeShaper
  try dsimp only
  repeat' (first
    | with_reducible assumption
    | with_reducible exact Keeps.refl _ _
    | ((with_reducible refine Keeps.subMask hM ?_); exact rfl)
    | with_reducible apply State.rowChanged_keeps
    | with_reducible apply State.updShaper_keeps
    | split)

theorem actActiveGateListWrite_keeps {M : Nat} {s t : State} {a1 : _}
    (hM : 21790922 &&& M = 21790922) (h : Keeps M s t) : Keeps M s (actActiveGateListWrite a1 t).1 := by
  unfold actActiveGateListWrite
  try dsimp only
  repeat' (first
    | with_reducible assumption
    | with_reducible exact Keeps.refl _ _
    | ((with_reducible refine Keeps.subMask hM ?_); exact rfl)
    | with_reducible apply State.applyGates_keeps
    | with_reducible apply State.rowChanged_keeps
    | with_reducible apply State.setReg_keeps
    | split)

theorem actFbCommit_keeps {M : Nat} {s t : State} {a1 : _}
    (hM : 21790922 &&& M = 21790922) (h : Keeps M s t) : Keeps M s (actFbCommit a1 t).1 := by
  unfold actFbCommit
  try dsimp only
  repeat' (first
    | with_reducible assumption
    | with_reducible exact Keeps.refl _ _
    | ((with_reducible refine Keeps.subMask hM ?_); exact rfl)
    | with_reducible apply State.setReg_keeps
    | with_reducible apply State.rowsChanged_keeps
    | with_reducible apply State.applyFallback_keeps
    | (dsimp only [keepsMk]; (with_reducible apply KeepsMk.put ?_ rfl rfl) <;> first | exact Or.inl (Keeps.subBit hM rfl) | exact Or.inr rfl | exact id | skip)
    | split)

theorem State.granted_keeps {M : Nat} {s t : State} {a1 : _} {a2 : _}
    (hM : 3780982766 &&& M = 3780982766) (h : Keeps M s t) : Keeps M s (State.granted t a1 a2) := by
  unfold State.granted
  try dsimp only
  repeat' (first
    | with_reducible assumption
    | with_reducible exact Keeps.refl _ _
    | ((with_reducible refine Keeps.subMask hM ?_); exact rfl)
    | with_reducible apply State.hintDo_keeps
    | with_reducible apply State.takeCandidates_keeps
    | with_reducible apply State.complete_keeps
    | split)

theorem State.holdFlow_keeps {M : Nat} {s t : State} {a1 : _} {a2 : _}
    (hM : 64 &&& M = 64) (h : Keeps M s t) : Keeps M s (State.holdFlow t a1 a2) := by
  unfold State.holdFlow
  try dsimp only
  repeat' (first
    | with_reducible assumption
    | with_reducible exact Keeps.refl _ _
    | with_reducible apply State.updSlice_keeps
    | with_reducible refine Keeps.foldl ?_ _ ?_
    | with_reducible refine Keeps.foldl_fst ?_ _ ?_
    | with_reducible refine Keeps.foldl_snd ?_ _ ?_
    | split
    | with_reducible refine Keeps.fst ‹_ = (_, _)› ?_
    | intro _)

theorem State.rerouted_keeps {M : Nat} {s t : State} {a1 : _}
    (hM : 4530284 &&& M = 4530284) (h : Keeps M s t) : Keeps M s (State.rerouted t a1) := by
  unfold State.rerouted
  try dsimp only
  repeat' (first
    | with_reducible assumption
    | with_reducible exact Keeps.refl _ _
    | with_reducible apply State.returnPacket_keeps)

theorem State.sendPacket_keeps {M : Nat} {s t : State} {a1 : _} {a2 : _} {a3 : _}
    (hM : 65624 &&& M = 65624) (h : Keeps M s t) : Keeps M s (State.sendPacket t a1 a2 a3) := by
  unfold State.sendPacket
  try dsimp only
  repeat' (first
    | with_reducible assumption
    | with_reducible exact Keeps.refl _ _
    | ((with_reducible refine Keeps.subMask hM ?_); exact rfl)
    | with_reducible apply State.updStall_keeps
    | with_reducible apply State.updSlice_keeps
    | with_reducible apply State.chargeOut_keeps
    | with_reducible apply State.startHold_keeps
    | with_reducible apply State.waitAt_keeps
    | (dsimp only [keepsMk]; (with_reducible apply KeepsMk.put ?_ rfl rfl) <;> first | exact Or.inl (Keeps.subBit hM rfl) | exact Or.inr rfl | exact id | skip)
    | exact Or.inl (Keeps.subBit hM rfl)
    | exact Or.inr fun _ => rfl
    | split)

theorem State.writeFbRow_keeps {M : Nat} {s t : State} {a1 : _} {a2 : _}
    (hM : 32768 &&& M = 32768) (h : Keeps M s t) : Keeps M s (State.writeFbRow a1 a2 t).1 := by
  unfold State.writeFbRow
  try dsimp only
  repeat' (first
    | with_reducible assumption
    | with_reducible exact Keeps.refl _ _
    | (dsimp only [keepsMk]; (with_reducible apply KeepsMk.put ?_ rfl rfl) <;> first | exact Or.inl (Keeps.subBit hM rfl) | exact Or.inr rfl | exact id | skip)
    | split)

theorem State.writeGate_keeps {M : Nat} {s t : State} {a1 : _} {a2 : _}
    (hM : 294912 &&& M = 294912) (h : Keeps M s t) : Keeps M s (State.writeGate a1 a2 t).1 := by
  unfold State.writeGate
  try dsimp only
  repeat' (first
    | with_reducible assumption
    | with_reducible exact Keeps.refl _ _
    | ((with_reducible refine Keeps.subMask hM ?_); exact rfl)
    | with_reducible apply State.rowChanged_keeps
    | (dsimp only [keepsMk]; (with_reducible apply KeepsMk.put ?_ rfl rfl) <;> first | exact Or.inl (Keeps.subBit hM rfl) | exact Or.inr rfl | exact id | skip)
    | split)

theorem State.xbarIn_keeps {M : Nat} {s t : State} {a1 : _}
    (hM : 21037120 &&& M = 21037120) (h : Keeps M s t) : Keeps M s (State.xbarIn t a1) := by
  unfold State.xbarIn
  try dsimp only
  repeat' (first
    | with_reducible assumption
    | with_reducible exact Keeps.refl _ _
    | ((with_reducible refine Keeps.subMask hM ?_); exact rfl)
    | with_reducible apply State.pipePush_keeps
    | (dsimp only [keepsMk]; (with_reducible apply KeepsMk.put ?_ rfl rfl) <;> first | exact Or.inl (Keeps.subBit hM rfl) | exact Or.inr rfl | exact id | skip)
    | split)

theorem State.xbarOut_keeps {M : Nat} {s t : State} {a1 : _}
    (hM : 4530284 &&& M = 4530284) (h : Keeps M s t) : Keeps M s (State.xbarOut t a1) := by
  unfold State.xbarOut
  try dsimp only
  repeat' (first
    | with_reducible assumption
    | with_reducible exact Keeps.refl _ _
    | ((with_reducible refine Keeps.subMask hM ?_); exact rfl)
    | with_reducible apply State.rerouted_keeps
    | with_reducible apply State.intoLink_keeps
    | (dsimp only [keepsMk]; (with_reducible apply KeepsMk.put ?_ rfl rfl) <;> first | exact Or.inl (Keeps.subBit hM rfl) | exact Or.inr rfl | exact id | skip)
    | split)

theorem execShaperTableWrite_keeps {M : Nat} {s t : State} {a1 : _} {a2 : _} {a3 : _}
    (hM : 8192028 &&& M = 8192028) (h : Keeps M s t) : KeepsOut M s (execShaperTableWrite a1 a2 a3 t) := by
  unfold execShaperTableWrite
  try dsimp only
  repeat' (first
    | with_reducible assumption
    | with_reducible exact Keeps.refl _ _
    | ((with_reducible refine Keeps.subMask hM ?_); exact rfl)
    | with_reducible apply KeepsOut.next
    | with_reducible apply State.writeWindow_keeps
    | with_reducible apply State.writeShaper_keeps
    | split
    | with_reducible refine Keeps.fst ‹_ = (_, _)› ?_
    | intro _)

theorem execWheelSlotDue_keeps {M : Nat} {s t : State} {a1 : _}
    (hM : 16448 &&& M = 16448) (h : Keeps M s t) : KeepsOut M s (execWheelSlotDue a1 t) := by
  unfold execWheelSlotDue
  try dsimp only
  repeat' (first
    | with_reducible assumption
    | with_reducible exact Keeps.refl _ _
    | ((with_reducible refine Keeps.subMask hM ?_); exact rfl)
    | with_reducible apply KeepsOut.next
    | with_reducible apply State.updSlice_keeps
    | with_reducible refine Keeps.foldl ?_ _ ?_
    | with_reducible refine Keeps.foldl_fst ?_ _ ?_
    | with_reducible refine Keeps.foldl_snd ?_ _ ?_
    | split
    | with_reducible refine Keeps.fst ‹_ = (_, _)› ?_
    | intro _)

theorem execFlowSend_keeps {M : Nat} {s t : State} {a1 : _}
    (hM : 541130872 &&& M = 541130872) (h : Keeps M s t) : KeepsOut M s (execFlowSend a1 t) := by
  unfold execFlowSend
  try dsimp only
  repeat' (first
    | with_reducible assumption
    | with_reducible exact Keeps.refl _ _
    | ((with_reducible refine Keeps.subMask hM ?_); exact rfl)
    | with_reducible apply KeepsOut.next
    | with_reducible apply State.endSends_keeps
    | with_reducible apply State.updSlice_keeps
    | with_reducible apply State.discardFlow_keeps
    | with_reducible apply State.holdFlow_keeps
    | with_reducible apply State.sendPacket_keeps
    | split)

theorem execActiveGateListWrite_keeps {M : Nat} {s t : State} {a1 : _} {a2 : _}
    (hM : 25002190 &&& M = 25002190) (h : Keeps M s t) : KeepsOut M s (execActiveGateListWrite a1 a2 t) := by
  unfold execActiveGateListWrite
  try dsimp only
  repeat' (first
    | with_reducible assumption
    | with_reducible exact Keeps.refl _ _
    | ((with_reducible refine Keeps.subMask hM ?_); exact rfl)
    | with_reducible apply KeepsOut.next
    | with_reducible apply State.write_keeps
    | with_reducible apply actActiveGateListWrite_keeps
    | split
    | with_reducible refine Keeps.fst ‹_ = (_, _)› ?_
    | intro _)

theorem execGateListsWrite_keeps {M : Nat} {s t : State} {a1 : _} {a2 : _} {a3 : _}
    (hM : 8224780 &&& M = 8224780) (h : Keeps M s t) : KeepsOut M s (execGateListsWrite a1 a2 a3 t) := by
  unfold execGateListsWrite
  try dsimp only
  repeat' (first
    | with_reducible assumption
    | with_reducible exact Keeps.refl _ _
    | ((with_reducible refine Keeps.subMask hM ?_); exact rfl)
    | with_reducible apply KeepsOut.next
    | with_reducible apply State.writeWindow_keeps
    | with_reducible apply State.writeGate_keeps
    | split
    | with_reducible refine Keeps.fst ‹_ = (_, _)› ?_
    | intro _)

theorem execFbOffsetWrite_keeps {M : Nat} {s t : State} {a1 : _} {a2 : _}
    (hM : 8192014 &&& M = 8192014) (h : Keeps M s t) : KeepsOut M s (execFbOffsetWrite a1 a2 t) := by
  unfold execFbOffsetWrite
  try dsimp only
  repeat' (first
    | with_reducible assumption
    | with_reducible exact Keeps.refl _ _
    | ((with_reducible refine Keeps.subMask hM ?_); exact rfl)
    | with_reducible apply KeepsOut.next
    | with_reducible apply State.write_keeps
    | with_reducible apply storeEntry_keeps
    | split
    | with_reducible refine Keeps.fst ‹_ = (_, _)› ?_
    | intro _)

theorem execFbCommit_keeps {M : Nat} {s t : State} {a1 : _} {a2 : _}
    (hM : 25002190 &&& M = 25002190) (h : Keeps M s t) : KeepsOut M s (execFbCommit a1 a2 t) := by
  unfold execFbCommit
  try dsimp only
  repeat' (first
    | with_reducible assumption
    | with_reducible exact Keeps.refl _ _
    | ((with_reducible refine Keeps.subMask hM ?_); exact rfl)
    | with_reducible apply KeepsOut.next
    | with_reducible apply State.write_keeps
    | with_reducible apply actFbCommit_keeps
    | split
    | with_reducible refine Keeps.fst ‹_ = (_, _)› ?_
    | intro _)

theorem execFallbackGateEntry_keeps {M : Nat} {s t : State}
    (hM : 21528776 &&& M = 21528776) (h : Keeps M s t) : KeepsOut M s (execFallbackGateEntry t) := by
  unfold execFallbackGateEntry
  try dsimp only
  repeat' (first
    | with_reducible assumption
    | with_reducible exact Keeps.refl _ _
    | with_reducible apply KeepsOut.next
    | with_reducible apply State.setGates_keeps
    | (dsimp only [keepsMk]; (with_reducible apply KeepsMk.put ?_ rfl rfl) <;> first | exact Or.inl (Keeps.subBit hM rfl) | exact Or.inr rfl | exact id | skip)
    | split)

theorem execPipelineGrant_keeps {M : Nat} {s t : State} {a1 : _}
    (hM : 3780982766 &&& M = 3780982766) (h : Keeps M s t) : KeepsOut M s (execPipelineGrant a1 t) := by
  unfold execPipelineGrant
  try dsimp only
  repeat' (first
    | with_reducible assumption
    | with_reducible exact Keeps.refl _ _
    | ((with_reducible refine Keeps.subMask hM ?_); exact rfl)
    | with_reducible apply KeepsOut.next
    | with_reducible apply State.updSlice_keeps
    | with_reducible apply State.granted_keeps
    | split)

theorem execPriorityPromotion_keeps {M : Nat} {s t : State} {a1 : _} {a2 : _}
    (hM : 64 &&& M = 64) (h : Keeps M s t) : KeepsOut M s (execPriorityPromotion a1 a2 t) := by
  unfold execPriorityPromotion
  try dsimp only
  repeat' (first
    | with_reducible assumption
    | with_reducible exact Keeps.refl _ _
    | with_reducible apply KeepsOut.next
    | with_reducible apply State.updSlice_keeps
    | split)

theorem execCrossbarGrant_keeps {M : Nat} {s t : State} {a1 : _} {a2 : _}
    (hM : 21307500 &&& M = 21307500) (h : Keeps M s t) : KeepsOut M s (execCrossbarGrant a1 a2 t) := by
  unfold execCrossbarGrant
  try dsimp only
  repeat' (first
    | with_reducible assumption
    | with_reducible exact Keeps.refl _ _
    | ((with_reducible refine Keeps.subMask hM ?_); exact rfl)
    | with_reducible apply KeepsOut.next
    | with_reducible apply State.xbarOut_keeps
    | with_reducible apply State.xbarIn_keeps
    | split)

/-! ### Machine/Clocks.lean -/

theorem actRefSelectWrite_keeps {M : Nat} {s t : State} {a1 : _}
    (hM : 16777218 &&& M = 16777218) (h : Keeps M s t) : Keeps M s (actRefSelectWrite a1 t).1 := by
  unfold actRefSelectWrite
  try dsimp only
  repeat' (first
    | with_reducible assumption
    | with_reducible exact Keeps.refl _ _
    | ((with_reducible refine Keeps.subMask hM ?_); exact rfl)
    | with_reducible apply State.setReg_keeps
    | (dsimp only [keepsMk]; (with_reducible apply KeepsMk.put ?_ rfl rfl) <;> first | exact Or.inl (Keeps.subBit hM rfl) | exact Or.inr rfl | exact id | skip)
    | split)

theorem actFreqGo_keeps {M : Nat} {s t : State} {a1 : _}
    (hM : 16777218 &&& M = 16777218) (h : Keeps M s t) : Keeps M s (actFreqGo a1 t).1 := by
  unfold actFreqGo
  try dsimp only
  repeat' (first
    | with_reducible assumption
    | with_reducible exact Keeps.refl _ _
    | ((with_reducible refine Keeps.subMask hM ?_); exact rfl)
    | with_reducible apply State.setReg_keeps
    | (dsimp only [keepsMk]; (with_reducible apply KeepsMk.put ?_ rfl rfl) <;> first | exact Or.inl (Keeps.subBit hM rfl) | exact Or.inr rfl | exact id | skip)
    | split)

theorem execRefSelectWrite_keeps {M : Nat} {s t : State} {a1 : _} {a2 : _}
    (hM : 24707086 &&& M = 24707086) (h : Keeps M s t) : KeepsOut M s (execRefSelectWrite a1 a2 t) := by
  unfold execRefSelectWrite
  try dsimp only
  repeat' (first
    | with_reducible assumption
    | with_reducible exact Keeps.refl _ _
    | ((with_reducible refine Keeps.subMask hM ?_); exact rfl)
    | with_reducible apply KeepsOut.next
    | with_reducible apply State.write_keeps
    | with_reducible apply actRefSelectWrite_keeps
    | split
    | with_reducible refine Keeps.fst ‹_ = (_, _)› ?_
    | intro _)

theorem execRefclkFail_keeps {M : Nat} {s t : State} {a1 : _}
    (hM : 55390286 &&& M = 55390286) (h : Keeps M s t) : KeepsOut M s (execRefclkFail a1 t) := by
  unfold execRefclkFail
  try dsimp only
  repeat' (first
    | with_reducible assumption
    | with_reducible exact Keeps.refl _ _
    | ((with_reducible refine Keeps.subMask hM ?_); exact rfl)
    | with_reducible apply KeepsOut.next
    | with_reducible apply State.freqLost_keeps
    | with_reducible apply State.refLost_keeps
    | (dsimp only [keepsMk]; (with_reducible apply KeepsMk.put ?_ rfl rfl) <;> first | exact Or.inl (Keeps.subBit hM rfl) | exact Or.inr rfl | exact id | skip)
    | split)

theorem execRefHoldoffExpiry_keeps {M : Nat} {s t : State} {a1 : _}
    (hM : 50331650 &&& M = 50331650) (h : Keeps M s t) : KeepsOut M s (execRefHoldoffExpiry a1 t) := by
  unfold execRefHoldoffExpiry
  try dsimp only
  repeat' (first
    | with_reducible assumption
    | with_reducible exact Keeps.refl _ _
    | ((with_reducible refine Keeps.subMask hM ?_); exact rfl)
    | with_reducible apply KeepsOut.next
    | with_reducible apply State.recoverRef_keeps
    | (dsimp only [keepsMk]; (with_reducible apply KeepsMk.put ?_ rfl rfl) <;> first | exact Or.inl (Keeps.subBit hM rfl) | exact Or.inr rfl | exact id | skip)
    | split)

theorem execCorePllLock_keeps {M : Nat} {s t : State}
    (hM : 20971520 &&& M = 20971520) (h : Keeps M s t) : KeepsOut M s (execCorePllLock t) := by
  unfold execCorePllLock
  try dsimp only
  repeat' (first
    | with_reducible assumption
    | with_reducible exact Keeps.refl _ _
    | with_reducible apply KeepsOut.next
    | with_reducible apply State.rampCore_keeps
    | (dsimp only [keepsMk]; (with_reducible apply KeepsMk.put ?_ rfl rfl) <;> first | exact Or.inl (Keeps.subBit hM rfl) | exact Or.inr rfl | exact id | skip)
    | split)

theorem execFreqGo_keeps {M : Nat} {s t : State} {a1 : _} {a2 : _}
    (hM : 24707086 &&& M = 24707086) (h : Keeps M s t) : KeepsOut M s (execFreqGo a1 a2 t) := by
  unfold execFreqGo
  try dsimp only
  repeat' (first
    | with_reducible assumption
    | with_reducible exact Keeps.refl _ _
    | ((with_reducible refine Keeps.subMask hM ?_); exact rfl)
    | with_reducible apply KeepsOut.next
    | with_reducible apply State.write_keeps
    | with_reducible apply actFreqGo_keeps
    | split
    | with_reducible refine Keeps.fst ‹_ = (_, _)› ?_
    | intro _)

theorem execFreqMeasureDone_keeps {M : Nat} {s t : State} {a1 : _}
    (hM : 16777218 &&& M = 16777218) (h : Keeps M s t) : KeepsOut M s (execFreqMeasureDone a1 t) := by
  unfold execFreqMeasureDone
  try dsimp only
  repeat' (first
    | with_reducible assumption
    | with_reducible exact Keeps.refl _ _
    | ((with_reducible refine Keeps.subMask hM ?_); exact rfl)
    | with_reducible apply KeepsOut.next
    | with_reducible apply State.setReg_keeps
    | (dsimp only [keepsMk]; (with_reducible apply KeepsMk.put ?_ rfl rfl) <;> first | exact Or.inl (Keeps.subBit hM rfl) | exact Or.inr rfl | exact id | skip)
    | split)

/-! ### Machine/Coherent.lean -/

theorem actOrphanRelease_keeps {M : Nat} {s t : State} {a1 : _}
    (hM : 67108866 &&& M = 67108866) (h : Keeps M s t) : Keeps M s (actOrphanRelease a1 t).1 := by
  unfold actOrphanRelease
  try dsimp only
  repeat' (first
    | with_reducible assumption
    | with_reducible exact Keeps.refl _ _
    | ((with_reducible refine Keeps.subMask hM ?_); exact rfl)
    | with_reducible apply State.setReg_keeps
    | (dsimp only [keepsMk]; (with_reducible apply KeepsMk.put ?_ rfl rfl) <;> first | exact Or.inl (Keeps.subBit hM rfl) | exact Or.inr rfl | exact id | skip)
    | split)

theorem State.timeoutLine_keeps {M : Nat} {s t : State} {a1 : _} {a2 : _}
    (hM : 1616642124 &&& M = 1616642124) (h : Keeps M s t) : Keeps M s (State.timeoutLine t a1 a2) := by
  unfold State.timeoutLine
  try dsimp only
  repeat' (first
    | with_reducible assumption
    | with_reducible exact Keeps.refl _ _
    | with_reducible apply State.failUnit_keeps
    | with_reducible refine Keeps.foldl ?_ _ ?_
    | with_reducible refine Keeps.foldl_fst ?_ _ ?_
    | with_reducible refine Keeps.foldl_snd ?_ _ ?_
    | split
    | with_reducible refine Keeps.fst ‹_ = (_, _)› ?_
    | intro _)

theorem State.timeoutRecall_keeps {M : Nat} {s t : State} {a1 : _} {a2 : _}
    (hM : 1616642124 &&& M = 1616642124) (h : Keeps M s t) : Keeps M s (State.timeoutRecall t a1 a2) := by
  unfold State.timeoutRecall
  try dsimp only
  repeat' (first
    | with_reducible assumption
    | with_reducible exact Keeps.refl _ _
    | with_reducible apply State.failUnit_keeps
    | with_reducible refine Keeps.foldl ?_ _ ?_
    | with_reducible refine Keeps.foldl_fst ?_ _ ?_
    | with_reducible refine Keeps.foldl_snd ?_ _ ?_
    | split
    | with_reducible refine Keeps.fst ‹_ = (_, _)› ?_
    | intro _)

theorem State.updSnoop_keeps {M : Nat} {s t : State} {a1 : _} {a2 : _}
    (hM : 256 &&& M = 256) (h : Keeps M s t) : Keeps M s (State.updSnoop t a1 a2) := by
  unfold State.updSnoop
  try dsimp only
  repeat' (first
    | with_reducible assumption
    | with_reducible exact Keeps.refl _ _
    | (dsimp only [keepsMk]; (with_reducible apply KeepsMk.put ?_ rfl rfl) <;> first | exact Or.inl (Keeps.subBit hM rfl) | exact Or.inr rfl | exact id | skip))

theorem execSnoopResponse_keeps {M : Nat} {s t : State} {a1 : _}
    (hM : 3780969452 &&& M = 3780969452) (h : Keeps M s t) : KeepsOut M s (execSnoopResponse a1 t) := by
  unfold execSnoopResponse
  try dsimp only
  repeat' (first
    | with_reducible assumption
    | with_reducible exact Keeps.refl _ _
    | ((with_reducible refine Keeps.subMask hM ?_); exact rfl)
    | with_reducible apply KeepsOut.next
    | with_reducible apply State.pipePush_keeps
    | with_reducible apply State.updSnoop_keeps
    | with_reducible apply State.cohGo_keeps
    | with_reducible apply State.countStale_keeps
    | split)

theorem execSnoopRetry_keeps {M : Nat} {s t : State} {a1 : _}
    (hM : 4260108 &&& M = 4260108) (h : Keeps M s t) : KeepsOut M s (execSnoopRetry a1 t) := by
  unfold execSnoopRetry
  try dsimp only
  repeat' (first
    | with_reducible assumption
    | with_reducible exact Keeps.refl _ _
    | ((with_reducible refine Keeps.subMask hM ?_); exact rfl)
    | with_reducible apply KeepsOut.next
    | with_reducible apply State.sprayReq_keeps
    | with_reducible apply State.updSnoop_keeps
    | split)

theorem execSnoopTimeout_keeps {M : Nat} {s t : State} {a1 : _}
    (hM : 3780969452 &&& M = 3780969452) (h : Keeps M s t) : KeepsOut M s (execSnoopTimeout a1 t) := by
  unfold execSnoopTimeout
  try dsimp only
  repeat' (first
    | with_reducible assumption
    | with_reducible exact Keeps.refl _ _
    | ((with_reducible refine Keeps.subMask hM ?_); exact rfl)
    | with_reducible apply KeepsOut.next
    | with_reducible apply State.crier_keeps
    | with_reducible apply State.dropTxn_keeps
    | with_reducible apply State.cohGo_keeps
    | with_reducible apply State.timeoutLine_keeps
    | with_reducible apply State.setDir_keeps
    | with_reducible apply State.updSlice_keeps
    | with_reducible apply State.updSnoop_keeps
    | with_reducible apply State.tellDir_keeps
    | with_reducible apply State.timeoutRecall_keeps
    | (dsimp only [keepsMk]; (with_reducible apply KeepsMk.put ?_ rfl rfl) <;> first | exact Or.inl (Keeps.subBit hM rfl) | exact Or.inr rfl | exact id | skip)
    | split)

theorem execCohHoldExpiry_keeps {M : Nat} {s t : State} {a1 : _} {a2 : _}
    (hM : 3780969452 &&& M = 3780969452) (h : Keeps M s t) : KeepsOut M s (execCohHoldExpiry a1 a2 t) := by
  unfold execCohHoldExpiry
  try dsimp only
  repeat' (first
    | with_reducible assumption
    | with_reducible exact Keeps.refl _ _
    | ((with_reducible refine Keeps.subMask hM ?_); exact rfl)
    | with_reducible apply KeepsOut.next
    | with_reducible apply State.cohGo_keeps
    | with_reducible apply State.updSlice_keeps
    | split)

theorem execOrphanRelease_keeps {M : Nat} {s t : State} {a1 : _} {a2 : _}
    (hM : 75038734 &&& M = 75038734) (h : Keeps M s t) : KeepsOut M s (execOrphanRelease a1 a2 t) := by
  unfold execOrphanRelease
  try dsimp only
  repeat' (first
    | with_reducible assumption
    | with_reducible exact Keeps.refl _ _
    | ((with_reducible refine Keeps.subMask hM ?_); exact rfl)
    | with_reducible apply KeepsOut.next
    | with_reducible apply State.write_keeps
    | with_reducible apply actOrphanRelease_keeps
    | split
    | with_reducible refine Keeps.fst ‹_ = (_, _)› ?_
    | intro _)

theorem execOrphanReleaseDone_keeps {M : Nat} {s t : State}
    (hM : 3848078318 &&& M = 3848078318) (h : Keeps M s t) : KeepsOut M s (execOrphanReleaseDone t) := by
  unfold execOrphanReleaseDone
  try dsimp only
  repeat' (first
    | with_reducible assumption
    | with_reducible exact Keeps.refl _ _
    | ((with_reducible refine Keeps.subMask hM ?_); exact rfl)
    | with_reducible apply KeepsOut.next
    | with_reducible apply State.freeLine_keeps
    | with_reducible apply State.pipePush_keeps
    | with_reducible apply State.cohGoAll_keeps
    | with_reducible apply State.ledger_keeps
    | with_reducible apply State.setReg_keeps
    | with_reducible refine Keeps.foldl ?_ _ ?_
    | with_reducible refine Keeps.foldl_fst ?_ _ ?_
    | with_reducible refine Keeps.foldl_snd ?_ _ ?_
    | (dsimp only [keepsMk]; (with_reducible apply KeepsMk.put ?_ rfl rfl) <;> first | exact Or.inl (Keeps.subBit hM rfl) | exact Or.inr rfl | exact id | skip)
    | split
    | with_reducible refine Keeps.fst ‹_ = (_, _)› ?_
    | intro _)

end Sys2Proof.Machine
end

