-- ==== Sys2Proof/Laws/Frame5.lean ====
section
/-! SUPPORT. What each operation may change and that it keeps the memory's canonical form: Firmware, HalyardOps, Stalls, Halyard, Memory. -/

set_option linter.unusedTactic false
set_option linter.unreachableTactic false
set_option linter.unusedVariables false

namespace Sys2Proof.Machine

/-! ### Machine/Firmware.lean -/

theorem actFwGo_keeps {M : Nat} {s t : State} {a1 : _}
    (hM : 33554434 &&& M = 33554434) (h : Keeps M s t) : Keeps M s (actFwGo a1 t).1 := by
  unfold actFwGo
  try dsimp only
  repeat' (first
    | with_reducible assumption
    | with_reducible exact Keeps.refl _ _
    | ((with_reducible refine Keeps.subMask hM ?_); exact rfl)
    | with_reducible apply State.setReg_keeps
    | (dsimp only [keepsMk]; (with_reducible apply KeepsMk.put ?_ rfl rfl) <;> first | exact Or.inl (Keeps.subBit hM rfl) | exact Or.inr rfl | exact id | skip)
    | split)

theorem State.writeFwRow_keeps {M : Nat} {s t : State} {a1 : _} {a2 : _}
    (hM : 33554432 &&& M = 33554432) (h : Keeps M s t) : Keeps M s (State.writeFwRow a1 a2 t).1 := by
  unfold State.writeFwRow
  try dsimp only
  repeat' (first
    | with_reducible assumption
    | with_reducible exact Keeps.refl _ _
    | with_reducible apply State.updFwSlot_keeps)

theorem execFwImageWrite_keeps {M : Nat} {s t : State} {a1 : _} {a2 : _} {a3 : _}
    (hM : 41484300 &&& M = 41484300) (h : Keeps M s t) : KeepsOut M s (execFwImageWrite a1 a2 a3 t) := by
  unfold execFwImageWrite
  try dsimp only
  repeat' (first
    | with_reducible assumption
    | with_reducible exact Keeps.refl _ _
    | ((with_reducible refine Keeps.subMask hM ?_); exact rfl)
    | with_reducible apply KeepsOut.next
    | with_reducible apply State.writeWindow_keeps
    | with_reducible apply State.writeFwRow_keeps
    | split
    | with_reducible refine Keeps.fst ‹_ = (_, _)› ?_
    | intro _)

theorem execFwGo_keeps {M : Nat} {s t : State} {a1 : _} {a2 : _}
    (hM : 41484302 &&& M = 41484302) (h : Keeps M s t) : KeepsOut M s (execFwGo a1 a2 t) := by
  unfold execFwGo
  try dsimp only
  repeat' (first
    | with_reducible assumption
    | with_reducible exact Keeps.refl _ _
    | ((with_reducible refine Keeps.subMask hM ?_); exact rfl)
    | with_reducible apply KeepsOut.next
    | with_reducible apply State.write_keeps
    | with_reducible apply actFwGo_keeps
    | split
    | with_reducible refine Keeps.fst ‹_ = (_, _)› ?_
    | intro _)

theorem execFwVerifyDone_keeps {M : Nat} {s t : State} {a1 : _}
    (hM : 33554434 &&& M = 33554434) (h : Keeps M s t) : KeepsOut M s (execFwVerifyDone a1 t) := by
  unfold execFwVerifyDone
  try dsimp only
  repeat' (first
    | with_reducible assumption
    | with_reducible exact Keeps.refl _ _
    | ((with_reducible refine Keeps.subMask hM ?_); exact rfl)
    | with_reducible apply KeepsOut.next
    | with_reducible apply State.updFwSlot_keeps
    | with_reducible apply State.setReg_keeps
    | (dsimp only [keepsMk]; (with_reducible apply KeepsMk.put ?_ rfl rfl) <;> first | exact Or.inl (Keeps.subBit hM rfl) | exact Or.inr rfl | exact id | skip)
    | split)

/-! ### Machine/HalyardOps.lean -/

theorem State.abortUnforwarded_keeps {M : Nat} {s t : State} {a1 : _}
    (hM : 1616707660 &&& M = 1616707660) (h : Keeps M s t) : Keeps M s (State.abortUnforwarded t a1) := by
  unfold State.abortUnforwarded
  try dsimp only
  repeat' (first
    | with_reducible assumption
    | with_reducible exact Keeps.refl _ _
    | with_reducible apply State.abort_keeps
    | with_reducible refine Keeps.foldl ?_ _ ?_
    | with_reducible refine Keeps.foldl_fst ?_ _ ?_
    | with_reducible refine Keeps.foldl_snd ?_ _ ?_
    | split
    | with_reducible refine Keeps.fst ‹_ = (_, _)› ?_
    | intro _)

theorem State.liveStall_keeps {M : Nat} {s t : State} {a1 : _} {a2 : _} {a3 : _}
    (hM : 541589528 &&& M = 541589528) (h : Keeps M s t) : Keeps M s (State.liveStall t a1 a2 a3) := by
  unfold State.liveStall
  try dsimp only
  repeat' (first
    | with_reducible assumption
    | with_reducible exact Keeps.refl _ _
    | ((with_reducible refine Keeps.subMask hM ?_); exact rfl)
    | with_reducible apply State.updStall_keeps
    | with_reducible apply State.recomputeCaps_keeps
    | with_reducible apply State.updShaper_keeps
    | exact Or.inl (Keeps.subBit hM rfl))

theorem State.pairDone_keeps {M : Nat} {s t : State}
    (hM : 2 &&& M = 2) (h : Keeps M s t) : Keeps M s (State.pairDone t) := by
  unfold State.pairDone
  try dsimp only
  repeat' (first
    | with_reducible assumption
    | with_reducible exact Keeps.refl _ _
    | with_reducible apply State.setReg_keeps
    | split)

theorem State.enterPaired_keeps {M : Nat} {s t : State}
    (hM : 262146 &&& M = 262146) (h : Keeps M s t) : Keeps M s (State.enterPaired t) := by
  unfold State.enterPaired
  try dsimp only
  repeat' (first
    | with_reducible assumption
    | with_reducible exact Keeps.refl _ _
    | ((with_reducible refine Keeps.subMask hM ?_); exact rfl)
    | with_reducible apply State.pairDone_keeps
    | (dsimp only [keepsMk]; (with_reducible apply KeepsMk.put ?_ rfl rfl) <;> first | exact Or.inl (Keeps.subBit hM rfl) | exact Or.inr rfl | exact id | skip))

theorem State.liveDir_keeps {M : Nat} {s t : State} {a1 : _} {a2 : _} {a3 : _}
    (hM : 64 &&& M = 64) (h : Keeps M s t) : Keeps M s (State.liveDir t a1 a2 a3) := by
  unfold State.liveDir
  try dsimp only
  repeat' (first
    | with_reducible assumption
    | with_reducible exact Keeps.refl _ _
    | with_reducible apply State.updSlice_keeps
    | split)

theorem State.activateHanded_keeps {M : Nat} {s t : State}
    (hM : 541851770 &&& M = 541851770) (h : Keeps M s t) : Keeps M s (State.activateHanded t) := by
  unfold State.activateHanded
  try dsimp only
  repeat' (first
    | with_reducible assumption
    | with_reducible exact Keeps.refl _ _
    | ((with_reducible refine Keeps.subMask hM ?_); exact rfl)
    | with_reducible apply State.updGranule_keeps
    | with_reducible apply State.liveStall_keeps
    | with_reducible apply State.enterPaired_keeps
    | with_reducible apply State.liveDir_keeps
    | with_reducible refine Keeps.foldl ?_ _ ?_
    | with_reducible refine Keeps.foldl_fst ?_ _ ?_
    | with_reducible refine Keeps.foldl_snd ?_ _ ?_
    | (dsimp only [keepsMk]; (with_reducible apply KeepsMk.put ?_ rfl rfl) <;> first | exact Or.inl (Keeps.subBit hM rfl) | exact Or.inr rfl | exact id | skip)
    | split
    | with_reducible refine Keeps.fst ‹_ = (_, _)› ?_
    | intro _)

theorem State.unmirror_keeps {M : Nat} {s t : State} {a1 : _}
    (hM : 262176 &&& M = 262176) (h : Keeps M s t) : Keeps M s (State.unmirror t a1) := by
  unfold State.unmirror
  try dsimp only
  repeat' (first
    | with_reducible assumption
    | with_reducible exact Keeps.refl _ _
    | ((with_reducible refine Keeps.subMask hM ?_); exact rfl)
    | with_reducible apply State.updGranule_keeps
    | with_reducible refine Keeps.foldl ?_ _ ?_
    | with_reducible refine Keeps.foldl_fst ?_ _ ?_
    | with_reducible refine Keeps.foldl_snd ?_ _ ?_
    | (dsimp only [keepsMk]; (with_reducible apply KeepsMk.put ?_ rfl rfl) <;> first | exact Or.inl (Keeps.subBit hM rfl) | exact Or.inr rfl | exact id | skip)
    | split
    | with_reducible refine Keeps.fst ‹_ = (_, _)› ?_
    | intro _)

theorem State.activateImage_keeps {M : Nat} {s t : State}
    (hM : 541851768 &&& M = 541851768) (h : Keeps M s t) : Keeps M s (State.activateImage t) := by
  unfold State.activateImage
  try dsimp only
  repeat' (first
    | with_reducible assumption
    | with_reducible exact Keeps.refl _ _
    | ((with_reducible refine Keeps.subMask hM ?_); exact rfl)
    | with_reducible apply State.liveStall_keeps
    | with_reducible apply State.liveDir_keeps
    | with_reducible apply State.unmirror_keeps
    | with_reducible refine Keeps.foldl ?_ _ ?_
    | with_reducible refine Keeps.foldl_fst ?_ _ ?_
    | with_reducible refine Keeps.foldl_snd ?_ _ ?_
    | (dsimp only [keepsMk]; (with_reducible apply KeepsMk.put ?_ rfl rfl) <;> first | exact Or.inl (Keeps.subBit hM rfl) | exact Or.inr rfl | exact id | skip)
    | split
    | with_reducible refine Keeps.fst ‹_ = (_, _)› ?_
    | intro _)

theorem State.mapHseq_keeps {M : Nat} {s t : State} {a1 : _}
    (hM : 1075053664 &&& M = 1075053664) (h : Keeps M s t) : Keeps M s (State.mapHseq t a1) := by
  unfold State.mapHseq
  try dsimp only
  repeat' (first
    | with_reducible assumption
    | with_reducible exact Keeps.refl _ _
    | ((with_reducible refine Keeps.subMask hM ?_); exact rfl)
    | with_reducible apply State.updSlice_keeps
    | with_reducible apply State.updRevoke_keeps
    | with_reducible apply State.mapBarrows_keeps
    | with_reducible refine Keeps.foldl ?_ _ ?_
    | with_reducible refine Keeps.foldl_fst ?_ _ ?_
    | with_reducible refine Keeps.foldl_snd ?_ _ ?_
    | (dsimp only [keepsMk]; (with_reducible apply KeepsMk.put ?_ rfl rfl) <;> first | exact Or.inl (Keeps.subBit hM rfl) | exact Or.inr rfl | exact id | skip)
    | split
    | with_reducible refine Keeps.fst ‹_ = (_, _)› ?_
    | intro _)

theorem State.takeEpoch_keeps {M : Nat} {s t : State} {a1 : _}
    (hM : 1079247972 &&& M = 1079247972) (h : Keeps M s t) : Keeps M s (State.takeEpoch t a1) := by
  unfold State.takeEpoch
  try dsimp only
  repeat' (first
    | with_reducible assumption
    | with_reducible exact Keeps.refl _ _
    | ((with_reducible refine Keeps.subMask hM ?_); exact rfl)
    | with_reducible apply State.mapHseq_keeps
    | with_reducible apply State.halFlush_keeps
    | (dsimp only [keepsMk]; (with_reducible apply KeepsMk.put ?_ rfl rfl) <;> first | exact Or.inl (Keeps.subBit hM rfl) | exact Or.inr rfl | exact id | skip))

theorem State.advancePair_keeps {M : Nat} {s t : State}
    (hM : 1079247972 &&& M = 1079247972) (h : Keeps M s t) : Keeps M s (State.advancePair t) := by
  unfold State.advancePair
  try dsimp only
  repeat' (first
    | with_reducible assumption
    | with_reducible exact Keeps.refl _ _
    | with_reducible apply State.takeEpoch_keeps
    | (dsimp only [keepsMk]; (with_reducible apply KeepsMk.put ?_ rfl rfl) <;> first | exact Or.inl (Keeps.subBit hM rfl) | exact Or.inr rfl | exact id | skip))

theorem State.resyncOver_keeps {M : Nat} {s t : State}
    (hM : 4534342 &&& M = 4534342) (h : Keeps M s t) : Keeps M s (State.resyncOver t) := by
  unfold State.resyncOver
  try dsimp only
  repeat' (first
    | with_reducible assumption
    | with_reducible exact Keeps.refl _ _
    | ((with_reducible refine Keeps.subMask hM ?_); exact rfl)
    | with_reducible apply State.enterPaired_keeps
    | with_reducible apply State.relinquishCycle_keeps
    | split)

theorem State.granuleCopied_keeps {M : Nat} {s t : State} {a1 : _}
    (hM : 4534374 &&& M = 4534374) (h : Keeps M s t) : Keeps M s (State.granuleCopied t a1) := by
  unfold State.granuleCopied
  try dsimp only
  repeat' (first
    | with_reducible assumption
    | with_reducible exact Keeps.refl _ _
    | ((with_reducible refine Keeps.subMask hM ?_); exact rfl)
    | with_reducible apply State.updGranule_keeps
    | with_reducible apply State.resyncOver_keeps
    | (dsimp only [keepsMk]; (with_reducible apply KeepsMk.put ?_ rfl rfl) <;> first | exact Or.inl (Keeps.subBit hM rfl) | exact Or.inr rfl | exact id | skip)
    | split)

theorem State.answerLast_keeps {M : Nat} {s t : State} {a1 : _}
    (hM : 4268140 &&& M = 4268140) (h : Keeps M s t) : Keeps M s (State.answerLast t a1) := by
  unfold State.answerLast
  try dsimp only
  repeat' (first
    | with_reducible assumption
    | with_reducible exact Keeps.refl _ _
    | ((with_reducible refine Keeps.subMask hM ?_); exact rfl)
    | with_reducible apply State.updSlice_keeps
    | with_reducible apply State.answerTrk_keeps
    | with_reducible refine Keeps.foldl ?_ _ ?_
    | with_reducible refine Keeps.foldl_fst ?_ _ ?_
    | with_reducible refine Keeps.foldl_snd ?_ _ ?_
    | split
    | with_reducible refine Keeps.fst ‹_ = (_, _)› ?_
    | intro _)

theorem State.dropHostLinks_keeps {M : Nat} {s t : State}
    (hM : 810360942 &&& M = 810360942) (h : Keeps M s t) : Keeps M s (State.dropHostLinks t) := by
  unfold State.dropHostLinks
  try dsimp only
  repeat' (first
    | with_reducible assumption
    | with_reducible exact Keeps.refl _ _
    | ((with_reducible refine Keeps.subMask hM ?_); exact rfl)
    | with_reducible apply State.linksDown_keeps
    | with_reducible apply State.setReg_keeps
    | with_reducible apply State.updLink_keeps
    | with_reducible refine Keeps.foldl ?_ _ ?_
    | with_reducible refine Keeps.foldl_fst ?_ _ ?_
    | with_reducible refine Keeps.foldl_snd ?_ _ ?_
    | exact Or.inl (Keeps.subBit hM rfl)
    | exact Or.inr fun _ => rfl
    | split
    | with_reducible refine Keeps.fst ‹_ = (_, _)› ?_
    | intro _)

theorem State.endRelinquish_keeps {M : Nat} {s t : State} {a1 : _}
    (hM : 844963950 &&& M = 844963950) (h : Keeps M s t) : Keeps M s (State.endRelinquish t a1) := by
  unfold State.endRelinquish
  try dsimp only
  repeat' (first
    | with_reducible assumption
    | with_reducible exact Keeps.refl _ _
    | ((with_reducible refine Keeps.subMask hM ?_); exact rfl)
    | with_reducible apply State.answerLast_keeps
    | with_reducible apply State.dropHostLinks_keeps
    | with_reducible apply State.pairDone_keeps
    | with_reducible apply State.ledger_keeps
    | (dsimp only [keepsMk]; (with_reducible apply KeepsMk.put ?_ rfl rfl) <;> first | exact Or.inl (Keeps.subBit hM rfl) | exact Or.inr rfl | exact id | skip)
    | split)

theorem State.tryEndRelinquish_keeps {M : Nat} {s t : State}
    (hM : 844963950 &&& M = 844963950) (h : Keeps M s t) : Keeps M s (State.tryEndRelinquish t) := by
  unfold State.tryEndRelinquish
  try dsimp only
  repeat' (first
    | with_reducible assumption
    | with_reducible exact Keeps.refl _ _
    | with_reducible apply State.endRelinquish_keeps
    | split)

theorem State.applyLine_keeps {M : Nat} {s t : State} {a1 : _} {a2 : _}
    (hM : 2169241828 &&& M = 2169241828) (h : Keeps M s t) : Keeps M s (State.applyLine t a1 a2) := by
  unfold State.applyLine
  try dsimp only
  repeat' (first
    | with_reducible assumption
    | with_reducible exact Keeps.refl _ _
    | with_reducible apply State.storeLine_keeps
    | (dsimp only [keepsMk]; (with_reducible apply KeepsMk.put ?_ rfl rfl) <;> first | exact Or.inl (Keeps.subBit hM rfl) | exact Or.inr rfl | exact id | skip)
    | split)

theorem State.keyMismatch_keeps {M : Nat} {s t : State} {a1 : _}
    (hM : 4718600 &&& M = 4718600) (h : Keeps M s t) : Keeps M s (State.keyMismatch t a1) := by
  unfold State.keyMismatch
  try dsimp only
  repeat' (first
    | with_reducible assumption
    | with_reducible exact Keeps.refl _ _
    | with_reducible apply State.crier_keeps)

theorem State.applyMirror_keeps {M : Nat} {s t : State} {a1 : _} {a2 : _}
    (hM : 2169241836 &&& M = 2169241836) (h : Keeps M s t) : Keeps M s (State.applyMirror t a1 a2) := by
  unfold State.applyMirror
  try dsimp only
  repeat' (first
    | with_reducible assumption
    | with_reducible exact Keeps.refl _ _
    | ((with_reducible refine Keeps.subMask hM ?_); exact rfl)
    | with_reducible apply State.pipePush_keeps
    | with_reducible apply State.applyLine_keeps
    | with_reducible apply State.keyMismatch_keeps
    | with_reducible refine Keeps.foldl ?_ _ ?_
    | with_reducible refine Keeps.foldl_fst ?_ _ ?_
    | with_reducible refine Keeps.foldl_snd ?_ _ ?_
    | split
    | with_reducible refine Keeps.fst ‹_ = (_, _)› ?_
    | intro _)

theorem State.granuleSynced_keeps {M : Nat} {s t : State} {a1 : _}
    (hM : 262144 &&& M = 262144) (h : Keeps M s t) : Keeps M s (State.granuleSynced t a1) := by
  unfold State.granuleSynced
  try dsimp only
  repeat' (first
    | with_reducible assumption
    | with_reducible exact Keeps.refl _ _
    | (dsimp only [keepsMk]; (with_reducible apply KeepsMk.put ?_ rfl rfl) <;> first | exact Or.inl (Keeps.subBit hM rfl) | exact Or.inr rfl | exact id | skip)
    | split)

theorem State.applyRecord_keeps {M : Nat} {s t : State} {a1 : _}
    (hM : 537133056 &&& M = 537133056) (h : Keeps M s t) : Keeps M s (State.applyRecord t a1) := by
  unfold State.applyRecord
  try dsimp only
  repeat' (first
    | with_reducible assumption
    | with_reducible exact Keeps.refl _ _
    | ((with_reducible refine Keeps.subMask hM ?_); exact rfl)
    | with_reducible apply State.granuleSynced_keeps
    | (dsimp only [keepsMk]; (with_reducible apply KeepsMk.put ?_ rfl rfl) <;> first | exact Or.inl (Keeps.subBit hM rfl) | exact Or.inr rfl | exact id | skip)
    | split)

theorem State.commitEpoch_keeps {M : Nat} {s t : State} {a1 : _}
    (hM : 537133056 &&& M = 537133056) (h : Keeps M s t) : Keeps M s (State.commitEpoch t a1) := by
  unfold State.commitEpoch
  try dsimp only
  repeat' (first
    | with_reducible assumption
    | with_reducible exact Keeps.refl _ _
    | with_reducible refine Keeps.foldl ?_ _ ?_
    | with_reducible refine Keeps.foldl_fst ?_ _ ?_
    | with_reducible refine Keeps.foldl_snd ?_ _ ?_
    | (dsimp only [keepsMk]; (with_reducible apply KeepsMk.put ?_ rfl rfl) <;> first | exact Or.inl (Keeps.subBit hM rfl) | exact Or.inr rfl | exact id | skip))

theorem State.applyPacket_keeps {M : Nat} {s t : State} {a1 : _}
    (hM : 2706112748 &&& M = 2706112748) (h : Keeps M s t) : KeepsOpt M s (State.applyPacket t a1) := by
  unfold State.applyPacket
  try dsimp only
  repeat' (first
    | with_reducible assumption
    | with_reducible exact Keeps.refl _ _
    | ((with_reducible refine Keeps.subMask hM ?_); exact rfl)
    | with_reducible exact KeepsOpt.none
    | with_reducible apply KeepsOpt.some
    | with_reducible apply State.applyMirror_keeps
    | with_reducible apply State.applyRecord_keeps
    | with_reducible apply State.commitEpoch_keeps
    | with_reducible refine Keeps.foldl ?_ _ ?_
    | with_reducible refine Keeps.foldl_fst ?_ _ ?_
    | with_reducible refine Keeps.foldl_snd ?_ _ ?_
    | (dsimp only [keepsMk]; (with_reducible apply KeepsMk.put ?_ rfl rfl) <;> first | exact Or.inl (Keeps.subBit hM rfl) | exact Or.inr rfl | exact id | skip)
    | split
    | with_reducible refine Keeps.fst ‹_ = (_, _)› ?_
    | intro _)

theorem State.applyTurn_keeps {M : Nat} {s t : State} {a1 : _}
    (hM : 2706112748 &&& M = 2706112748) (h : Keeps M s t) : Keeps M s (State.applyTurn a1 t) := by
  induction a1 generalizing t with
  | zero =>
    unfold State.applyTurn
    try dsimp only
    repeat' (first
      | with_reducible assumption)
  | succ n ih =>
    unfold State.applyTurn
    try dsimp only
    repeat' (first
      | with_reducible assumption
      | with_reducible exact Keeps.refl _ _
      | with_reducible apply ih
      | with_reducible refine KeepsOpt.get (State.applyPacket_keeps ?_ ?_) ‹_›
      | (dsimp only [keepsMk]; (with_reducible apply KeepsMk.put ?_ rfl rfl) <;> first | exact Or.inl (Keeps.subBit hM rfl) | exact Or.inr rfl | exact id | skip)
      | split)

theorem State.tellWholeStall_keeps {M : Nat} {s t : State} {a1 : _}
    (hM : 4456452 &&& M = 4456452) (h : Keeps M s t) : Keeps M s (State.tellWholeStall t a1) := by
  unfold State.tellWholeStall
  try dsimp only
  repeat' (first
    | with_reducible assumption
    | with_reducible exact Keeps.refl _ _
    | with_reducible apply State.halRecord_keeps
    | with_reducible apply State.tellStall_keeps
    | with_reducible refine Keeps.foldl ?_ _ ?_
    | with_reducible refine Keeps.foldl_fst ?_ _ ?_
    | with_reducible refine Keeps.foldl_snd ?_ _ ?_
    | split
    | with_reducible refine Keeps.fst ‹_ = (_, _)› ?_
    | intro _)

theorem State.tellDirs_keeps {M : Nat} {s t : State} {a1 : _}
    (hM : 4456452 &&& M = 4456452) (h : Keeps M s t) : Keeps M s (State.tellDirs t a1) := by
  unfold State.tellDirs
  try dsimp only
  repeat' (first
    | with_reducible assumption
    | with_reducible exact Keeps.refl _ _
    | with_reducible apply State.halRecord_keeps
    | with_reducible refine Keeps.foldl ?_ _ ?_
    | with_reducible refine Keeps.foldl_fst ?_ _ ?_
    | with_reducible refine Keeps.foldl_snd ?_ _ ?_
    | split
    | with_reducible refine Keeps.fst ‹_ = (_, _)› ?_
    | intro _)

theorem State.tellImageAcl_keeps {M : Nat} {s t : State} {a1 : _}
    (hM : 4456452 &&& M = 4456452) (h : Keeps M s t) : Keeps M s (State.tellImageAcl t a1) := by
  unfold State.tellImageAcl
  try dsimp only
  repeat' (first
    | with_reducible assumption
    | with_reducible exact Keeps.refl _ _
    | with_reducible apply State.halRecord_keeps)

theorem State.sendImage_keeps {M : Nat} {s t : State}
    (hM : 4456452 &&& M = 4456452) (h : Keeps M s t) : Keeps M s (State.sendImage t) := by
  unfold State.sendImage
  try dsimp only
  repeat' (first
    | with_reducible assumption
    | with_reducible exact Keeps.refl _ _
    | with_reducible apply State.tellPitch_keeps
    | with_reducible apply State.tellAcl_keeps
    | with_reducible apply State.tellKey_keeps
    | with_reducible apply State.tellWholeStall_keeps
    | with_reducible apply State.tellDirs_keeps
    | with_reducible apply State.tellImagePitch_keeps
    | with_reducible apply State.tellImageAcl_keeps
    | with_reducible refine Keeps.foldl ?_ _ ?_
    | with_reducible refine Keeps.foldl_fst ?_ _ ?_
    | with_reducible refine Keeps.foldl_snd ?_ _ ?_
    | split
    | with_reducible refine Keeps.fst ‹_ = (_, _)› ?_
    | intro _)

theorem State.beginRejoin_keeps {M : Nat} {s t : State}
    (hM : 1079247972 &&& M = 1079247972) (h : Keeps M s t) : Keeps M s (State.beginRejoin t) := by
  unfold State.beginRejoin
  try dsimp only
  repeat' (first
    | with_reducible assumption
    | with_reducible exact Keeps.refl _ _
    | ((with_reducible refine Keeps.subMask hM ?_); exact rfl)
    | with_reducible apply State.advancePair_keeps
    | with_reducible apply State.sendImage_keeps
    | with_reducible apply State.rowsChanged_keeps
    | (dsimp only [keepsMk]; (with_reducible apply KeepsMk.put ?_ rfl rfl) <;> first | exact Or.inl (Keeps.subBit hM rfl) | exact Or.inr rfl | exact id | skip))

theorem State.readRun_keeps {M : Nat} {s t : State} {a1 : _} {a2 : _}
    (hM : 2168979656 &&& M = 2168979656) (h : Keeps M s t) : Keeps M s (State.readRun t a1 a2) := by
  unfold State.readRun
  try dsimp only
  repeat' (first
    | with_reducible assumption
    | with_reducible exact Keeps.refl _ _
    | with_reducible apply State.readLine_keeps
    | with_reducible refine Keeps.foldl ?_ _ ?_
    | with_reducible refine Keeps.foldl_fst ?_ _ ?_
    | with_reducible refine Keeps.foldl_snd ?_ _ ?_
    | split
    | with_reducible refine Keeps.fst ‹_ = (_, _)› ?_
    | intro _)

theorem State.copyGranule_keeps {M : Nat} {s t : State} {a1 : _}
    (hM : 2169241804 &&& M = 2169241804) (h : Keeps M s t) : Keeps M s (State.copyGranule t a1) := by
  unfold State.copyGranule
  try dsimp only
  repeat' (first
    | with_reducible assumption
    | with_reducible exact Keeps.refl _ _
    | ((with_reducible refine Keeps.subMask hM ?_); exact rfl)
    | with_reducible apply State.halPush_keeps
    | with_reducible apply State.readRun_keeps
    | with_reducible refine Keeps.foldl ?_ _ ?_
    | with_reducible refine Keeps.foldl_fst ?_ _ ?_
    | with_reducible refine Keeps.foldl_snd ?_ _ ?_
    | split
    | with_reducible refine Keeps.fst ‹_ = (_, _)› ?_
    | intro _)

theorem State.endHandback_keeps {M : Nat} {s t : State} {a1 : _} {a2 : _}
    (hM : 1616716910 &&& M = 1616716910) (h : Keeps M s t) : Keeps M s (State.endHandback t a1 a2) := by
  unfold State.endHandback
  try dsimp only
  repeat' (first
    | with_reducible assumption
    | with_reducible exact Keeps.refl _ _
    | ((with_reducible refine Keeps.subMask hM ?_); exact rfl)
    | with_reducible apply State.answerLast_keeps
    | with_reducible apply State.updSlice_keeps
    | with_reducible apply State.ledger_keeps
    | with_reducible apply State.takeEpoch_keeps
    | with_reducible apply State.enterPaired_keeps
    | with_reducible refine Keeps.foldl ?_ _ ?_
    | with_reducible refine Keeps.foldl_fst ?_ _ ?_
    | with_reducible refine Keeps.foldl_snd ?_ _ ?_
    | (dsimp only [keepsMk]; (with_reducible apply KeepsMk.put ?_ rfl rfl) <;> first | exact Or.inl (Keeps.subBit hM rfl) | exact Or.inr rfl | exact id | skip)
    | split
    | with_reducible refine Keeps.fst ‹_ = (_, _)› ?_
    | intro _)

theorem State.enterSolo_keeps {M : Nat} {s t : State}
    (hM : 262178 &&& M = 262178) (h : Keeps M s t) : Keeps M s (State.enterSolo t) := by
  unfold State.enterSolo
  try dsimp only
  repeat' (first
    | with_reducible assumption
    | with_reducible exact Keeps.refl _ _
    | ((with_reducible refine Keeps.subMask hM ?_); exact rfl)
    | with_reducible apply State.pairDone_keeps
    | with_reducible apply State.unmirror_keeps
    | (dsimp only [keepsMk]; (with_reducible apply KeepsMk.put ?_ rfl rfl) <;> first | exact Or.inl (Keeps.subBit hM rfl) | exact Or.inr rfl | exact id | skip))

theorem State.mismatch_keeps {M : Nat} {s t : State} {a1 : _} {a2 : _} {a3 : _}
    (hM : 4980744 &&& M = 4980744) (h : Keeps M s t) : Keeps M s (State.mismatch t a1 a2 a3) := by
  unfold State.mismatch
  try dsimp only
  repeat' (first
    | with_reducible assumption
    | with_reducible exact Keeps.refl _ _
    | ((with_reducible refine Keeps.subMask hM ?_); exact rfl)
    | with_reducible apply State.crier_keeps
    | (dsimp only [keepsMk]; (with_reducible apply KeepsMk.put ?_ rfl rfl) <;> first | exact Or.inl (Keeps.subBit hM rfl) | exact Or.inr rfl | exact id | skip)
    | split)

theorem State.sendStreamEnd_keeps {M : Nat} {s t : State} {a1 : _}
    (hM : 4456452 &&& M = 4456452) (h : Keeps M s t) : Keeps M s (State.sendStreamEnd t a1) := by
  unfold State.sendStreamEnd
  try dsimp only
  repeat' (first
    | with_reducible assumption
    | with_reducible exact Keeps.refl _ _
    | ((with_reducible refine Keeps.subMask hM ?_); exact rfl)
    | with_reducible apply State.sendEach_keeps
    | (dsimp only [keepsMk]; (with_reducible apply KeepsMk.put ?_ rfl rfl) <;> first | exact Or.inl (Keeps.subBit hM rfl) | exact Or.inr rfl | exact id | skip))

theorem State.seqReceive_keeps {M : Nat} {s t : State} {a1 : _} {a2 : _}
    (hM : 3780904172 &&& M = 3780904172) (h : Keeps M s t) : Keeps M s (State.seqReceive t a1 a2) := by
  unfold State.seqReceive
  try dsimp only
  repeat' (first
    | with_reducible assumption
    | with_reducible exact Keeps.refl _ _
    | ((with_reducible refine Keeps.subMask hM ?_); exact rfl)
    | with_reducible apply State.takeEpoch_keeps
    | with_reducible apply State.count_keeps
    | with_reducible apply State.applyTurn_keeps
    | (dsimp only [keepsMk]; (with_reducible apply KeepsMk.put ?_ rfl rfl) <;> first | exact Or.inl (Keeps.subBit hM rfl) | exact Or.inr rfl | exact id | skip)
    | split)

theorem State.serveImage_keeps {M : Nat} {s t : State} {a1 : _}
    (hM : 542900346 &&& M = 542900346) (h : Keeps M s t) : Keeps M s (State.serveImage t a1) := by
  unfold State.serveImage
  try dsimp only
  repeat' (first
    | with_reducible assumption
    | with_reducible exact Keeps.refl _ _
    | ((with_reducible refine Keeps.subMask hM ?_); exact rfl)
    | with_reducible apply State.activateHanded_keeps
    | with_reducible apply State.activateImage_keeps
    | with_reducible apply State.crier_keeps
    | with_reducible apply State.ledger_keeps
    | with_reducible apply State.pairDone_keeps
    | (dsimp only [keepsMk]; (with_reducible apply KeepsMk.put ?_ rfl rfl) <;> first | exact Or.inl (Keeps.subBit hM rfl) | exact Or.inr rfl | exact id | skip)
    | split)

theorem State.settlePair_keeps {M : Nat} {s t : State} {a1 : _} {a2 : _} {a3 : _} {a4 : _}
    (hM : 1079772270 &&& M = 1079772270) (h : Keeps M s t) : Keeps M s (State.settlePair t a1 a2 a3 a4) := by
  unfold State.settlePair
  try dsimp only
  repeat' (first
    | with_reducible assumption
    | with_reducible exact Keeps.refl _ _
    | ((with_reducible refine Keeps.subMask hM ?_); exact rfl)
    | with_reducible apply State.mismatch_keeps
    | with_reducible apply State.enterPaired_keeps
    | with_reducible apply State.advancePair_keeps
    | with_reducible apply State.takeEpoch_keeps
    | (dsimp only [keepsMk]; (with_reducible apply KeepsMk.put ?_ rfl rfl) <;> first | exact Or.inl (Keeps.subBit hM rfl) | exact Or.inr rfl | exact id | skip)
    | split)

/-! ### Machine/Stalls.lean -/

theorem State.attachStall_keeps {M : Nat} {s t : State} {a1 : _}
    (hM : 541851676 &&& M = 541851676) (h : Keeps M s t) : Keeps M s (State.attachStall t a1) := by
  unfold State.attachStall
  try dsimp only
  repeat' (first
    | with_reducible assumption
    | with_reducible exact Keeps.refl _ _
    | ((with_reducible refine Keeps.subMask hM ?_); exact rfl)
    | with_reducible apply State.updStall_keeps
    | with_reducible apply State.recomputeCaps_keeps
    | with_reducible apply State.updShaper_keeps
    | with_reducible apply State.crier_keeps
    | with_reducible apply State.tellStall_keeps
    | exact Or.inl (Keeps.subBit hM rfl))

theorem State.detachStall_keeps {M : Nat} {s t : State} {a1 : _}
    (hM : 3780981740 &&& M = 3780981740) (h : Keeps M s t) : Keeps M s (State.detachStall t a1) := by
  unfold State.detachStall
  try dsimp only
  repeat' (first
    | with_reducible assumption
    | with_reducible exact Keeps.refl _ _
    | ((with_reducible refine Keeps.subMask hM ?_); exact rfl)
    | with_reducible apply State.pruneStall_keeps
    | with_reducible apply State.answerHeld_keeps
    | with_reducible apply State.updStall_keeps
    | with_reducible apply State.recallWhere_keeps
    | with_reducible apply State.cohGoAll_keeps
    | with_reducible apply State.tellStall_keeps
    | with_reducible refine Keeps.foldl ?_ _ ?_
    | with_reducible refine Keeps.foldl_fst ?_ _ ?_
    | with_reducible refine Keeps.foldl_snd ?_ _ ?_
    | exact Or.inl (Keeps.subBit hM rfl)
    | exact Or.inr fun _ => rfl
    | split
    | with_reducible refine Keeps.fst ‹_ = (_, _)› ?_
    | intro _)

theorem actAttach_keeps {M : Nat} {s t : State} {a1 : _}
    (hM : 541851678 &&& M = 541851678) (h : Keeps M s t) : Keeps M s (actAttach a1 t).1 := by
  unfold actAttach
  try dsimp only
  repeat' (first
    | with_reducible assumption
    | with_reducible exact Keeps.refl _ _
    | ((with_reducible refine Keeps.subMask hM ?_); exact rfl)
    | with_reducible apply State.attachStall_keeps
    | with_reducible apply State.setReg_keeps
    | split)

theorem actDetach_keeps {M : Nat} {s t : State} {a1 : _}
    (hM : 3780981740 &&& M = 3780981740) (h : Keeps M s t) : Keeps M s (actDetach a1 t).1 := by
  unfold actDetach
  try dsimp only
  repeat' (first
    | with_reducible assumption
    | with_reducible exact Keeps.refl _ _
    | with_reducible apply State.detachStall_keeps
    | split)

theorem actFence_keeps {M : Nat} {s t : State} {a1 : _}
    (hM : 3780981740 &&& M = 3780981740) (h : Keeps M s t) : Keeps M s (actFence a1 t).1 := by
  unfold actFence
  try dsimp only
  repeat' (first
    | with_reducible assumption
    | with_reducible exact Keeps.refl _ _
    | with_reducible apply State.fenceStall_keeps
    | split)

theorem actBoardNumberWrite_keeps {M : Nat} {s t : State} {a1 : _}
    (hM : 262146 &&& M = 262146) (h : Keeps M s t) : Keeps M s (actBoardNumberWrite a1 t).1 := by
  unfold actBoardNumberWrite
  try dsimp only
  repeat' (first
    | with_reducible assumption
    | with_reducible exact Keeps.refl _ _
    | with_reducible apply storeEntry_keeps
    | split)

theorem State.writeStallRow_keeps {M : Nat} {s t : State} {a1 : _} {a2 : _}
    (hM : 541851660 &&& M = 541851660) (h : Keeps M s t) : Keeps M s (State.writeStallRow a1 a2 t).1 := by
  unfold State.writeStallRow
  try dsimp only
  repeat' (first
    | with_reducible assumption
    | with_reducible exact Keeps.refl _ _
    | ((with_reducible refine Keeps.subMask hM ?_); exact rfl)
    | with_reducible apply State.updStall_keeps
    | with_reducible apply State.tellStall_keeps
    | with_reducible apply State.recomputeCaps_keeps
    | exact Or.inl (Keeps.subBit hM rfl)
    | exact Or.inr fun _ => rfl
    | split)

theorem execAttach_keeps {M : Nat} {s t : State} {a1 : _} {a2 : _}
    (hM : 545062942 &&& M = 545062942) (h : Keeps M s t) : KeepsOut M s (execAttach a1 a2 t) := by
  unfold execAttach
  try dsimp only
  repeat' (first
    | with_reducible assumption
    | with_reducible exact Keeps.refl _ _
    | ((with_reducible refine Keeps.subMask hM ?_); exact rfl)
    | with_reducible apply KeepsOut.next
    | with_reducible apply State.write_keeps
    | with_reducible apply actAttach_keeps
    | split
    | with_reducible refine Keeps.fst ‹_ = (_, _)› ?_
    | intro _)

theorem execDetach_keeps {M : Nat} {s t : State} {a1 : _} {a2 : _}
    (hM : 3783078892 &&& M = 3783078892) (h : Keeps M s t) : KeepsOut M s (execDetach a1 a2 t) := by
  unfold execDetach
  try dsimp only
  repeat' (first
    | with_reducible assumption
    | with_reducible exact Keeps.refl _ _
    | ((with_reducible refine Keeps.subMask hM ?_); exact rfl)
    | with_reducible apply KeepsOut.next
    | with_reducible apply State.write_keeps
    | with_reducible apply actDetach_keeps
    | split
    | with_reducible refine Keeps.fst ‹_ = (_, _)› ?_
    | intro _)

theorem execDetachComplete_keeps {M : Nat} {s t : State} {a1 : _}
    (hM : 541851660 &&& M = 541851660) (h : Keeps M s t) : KeepsOut M s (execDetachComplete a1 t) := by
  unfold execDetachComplete
  try dsimp only
  repeat' (first
    | with_reducible assumption
    | with_reducible exact Keeps.refl _ _
    | ((with_reducible refine Keeps.subMask hM ?_); exact rfl)
    | with_reducible apply KeepsOut.next
    | with_reducible apply State.updStall_keeps
    | with_reducible apply State.crier_keeps
    | with_reducible apply State.tellStall_keeps
    | exact Or.inl (Keeps.subBit hM rfl)
    | exact Or.inr fun _ => rfl
    | split)

theorem execFence_keeps {M : Nat} {s t : State} {a1 : _} {a2 : _}
    (hM : 3783078892 &&& M = 3783078892) (h : Keeps M s t) : KeepsOut M s (execFence a1 a2 t) := by
  unfold execFence
  try dsimp only
  repeat' (first
    | with_reducible assumption
    | with_reducible exact Keeps.refl _ _
    | ((with_reducible refine Keeps.subMask hM ?_); exact rfl)
    | with_reducible apply KeepsOut.next
    | with_reducible apply State.write_keeps
    | with_reducible apply actFence_keeps
    | split
    | with_reducible refine Keeps.fst ‹_ = (_, _)› ?_
    | intro _)

theorem execHostDead_keeps {M : Nat} {s t : State} {a1 : _}
    (hM : 3780981740 &&& M = 3780981740) (h : Keeps M s t) : KeepsOut M s (execHostDead a1 t) := by
  unfold execHostDead
  try dsimp only
  repeat' (first
    | with_reducible assumption
    | with_reducible exact Keeps.refl _ _
    | with_reducible apply KeepsOut.next
    | with_reducible apply State.fenceStall_keeps
    | split)

theorem execStallTableWrite_keeps {M : Nat} {s t : State} {a1 : _} {a2 : _} {a3 : _}
    (hM : 545062924 &&& M = 545062924) (h : Keeps M s t) : KeepsOut M s (execStallTableWrite a1 a2 a3 t) := by
  unfold execStallTableWrite
  try dsimp only
  repeat' (first
    | with_reducible assumption
    | with_reducible exact Keeps.refl _ _
    | ((with_reducible refine Keeps.subMask hM ?_); exact rfl)
    | with_reducible apply KeepsOut.next
    | with_reducible apply State.writeWindow_keeps
    | with_reducible apply State.writeStallRow_keeps
    | split
    | with_reducible refine Keeps.fst ‹_ = (_, _)› ?_
    | intro _)

theorem execBoardNumberWrite_keeps {M : Nat} {s t : State} {a1 : _} {a2 : _}
    (hM : 8192014 &&& M = 8192014) (h : Keeps M s t) : KeepsOut M s (execBoardNumberWrite a1 a2 t) := by
  unfold execBoardNumberWrite
  try dsimp only
  repeat' (first
    | with_reducible assumption
    | with_reducible exact Keeps.refl _ _
    | ((with_reducible refine Keeps.subMask hM ?_); exact rfl)
    | with_reducible apply KeepsOut.next
    | with_reducible apply State.write_keeps
    | with_reducible apply actBoardNumberWrite_keeps
    | split
    | with_reducible refine Keeps.fst ‹_ = (_, _)› ?_
    | intro _)

/-! ### Machine/Halyard.lean -/

theorem State.ackHseq_keeps {M : Nat} {s t : State} {a1 : _}
    (hM : 262144 &&& M = 262144) (h : Keeps M s t) : Keeps M s (State.ackHseq t a1) := by
  unfold State.ackHseq
  try dsimp only
  repeat' (first
    | with_reducible assumption
    | with_reducible exact Keeps.refl _ _
    | (dsimp only [keepsMk]; (with_reducible apply KeepsMk.put ?_ rfl rfl) <;> first | exact Or.inl (Keeps.subBit hM rfl) | exact Or.inr rfl | exact id | skip)
    | split)

theorem State.afterAck_keeps {M : Nat} {s t : State}
    (hM : 4082971630 &&& M = 4082971630) (h : Keeps M s t) : Keeps M s (State.afterAck t) := by
  unfold State.afterAck
  try dsimp only
  repeat' (first
    | with_reducible assumption
    | with_reducible exact Keeps.refl _ _
    | ((with_reducible refine Keeps.subMask hM ?_); exact rfl)
    | with_reducible apply State.cohGoAll_keeps
    | with_reducible apply State.halFlush_keeps
    | with_reducible apply State.endEpoch_keeps
    | with_reducible apply State.granuleCopied_keeps
    | with_reducible apply State.tryEndRelinquish_keeps
    | split)

theorem actPartnerFence_keeps {M : Nat} {s t : State} {a1 : _}
    (hM : 3780981740 &&& M = 3780981740) (h : Keeps M s t) : Keeps M s (actPartnerFence a1 t).1 := by
  unfold actPartnerFence
  try dsimp only
  repeat' (first
    | with_reducible assumption
    | with_reducible exact Keeps.refl _ _
    | with_reducible apply State.fenceStall_keeps
    | split)

theorem actPartnerDetach_keeps {M : Nat} {s t : State} {a1 : _}
    (hM : 3780981740 &&& M = 3780981740) (h : Keeps M s t) : Keeps M s (actPartnerDetach a1 t).1 := by
  unfold actPartnerDetach
  try dsimp only
  repeat' (first
    | with_reducible assumption
    | with_reducible exact Keeps.refl _ _
    | with_reducible apply State.detachStall_keeps
    | split)

theorem pairRuns_keeps {M : Nat} {s t : State}
    (hM : 2 &&& M = 2) (h : Keeps M s t) : Keeps M s (pairRuns t).1 := by
  unfold pairRuns
  try dsimp only
  repeat' (first
    | with_reducible assumption
    | with_reducible exact Keeps.refl _ _
    | with_reducible apply State.setReg_keeps)

theorem pairRefused_keeps {M : Nat} {s t : State}
    (hM : 2 &&& M = 2) (h : Keeps M s t) : Keeps M s (pairRefused t).1 := by
  unfold pairRefused
  try dsimp only
  repeat' (first
    | with_reducible assumption
    | with_reducible exact Keeps.refl _ _
    | with_reducible apply State.setReg_keeps)

theorem actPairCommandRelinquish_keeps {M : Nat} {s t : State} {a1 : _}
    (hM : 4534342 &&& M = 4534342) (h : Keeps M s t) : Keeps M s (actPairCommandRelinquish a1 t).1 := by
  unfold actPairCommandRelinquish
  try dsimp only
  repeat' (first
    | with_reducible assumption
    | with_reducible exact Keeps.refl _ _
    | ((with_reducible refine Keeps.subMask hM ?_); exact rfl)
    | with_reducible apply pairRuns_keeps
    | with_reducible apply State.relinquishCycle_keeps
    | with_reducible apply pairRefused_keeps
    | split)

theorem actPairCommandTakeover_keeps {M : Nat} {s t : State} {a1 : _}
    (hM : 4456454 &&& M = 4456454) (h : Keeps M s t) : Keeps M s (actPairCommandTakeover a1 t).1 := by
  unfold actPairCommandTakeover
  try dsimp only
  repeat' (first
    | with_reducible assumption
    | with_reducible exact Keeps.refl _ _
    | ((with_reducible refine Keeps.subMask hM ?_); exact rfl)
    | with_reducible apply pairRefused_keeps
    | with_reducible apply State.setReg_keeps
    | with_reducible apply pairRuns_keeps
    | with_reducible apply State.takeoverCycle_keeps
    | split)

theorem actPairCommandRejoin_keeps {M : Nat} {s t : State} {a1 : _}
    (hM : 1079325798 &&& M = 1079325798) (h : Keeps M s t) : Keeps M s (actPairCommandRejoin a1 t).1 := by
  unfold actPairCommandRejoin
  try dsimp only
  repeat' (first
    | with_reducible assumption
    | with_reducible exact Keeps.refl _ _
    | ((with_reducible refine Keeps.subMask hM ?_); exact rfl)
    | with_reducible apply pairRefused_keeps
    | with_reducible apply State.setReg_keeps
    | with_reducible apply State.resyncOver_keeps
    | with_reducible apply State.beginRejoin_keeps
    | split)

theorem State.resendNacked_keeps {M : Nat} {s t : State} {a1 : _}
    (hM : 262144 &&& M = 262144) (h : Keeps M s t) : Keeps M s (State.resendNacked t a1) := by
  unfold State.resendNacked
  try dsimp only
  repeat' (first
    | with_reducible assumption
    | with_reducible exact Keeps.refl _ _
    | (dsimp only [keepsMk]; (with_reducible apply KeepsMk.put ?_ rfl rfl) <;> first | exact Or.inl (Keeps.subBit hM rfl) | exact Or.inr rfl | exact id | skip))

theorem execMirrorWrite_keeps {M : Nat} {s t : State} {a1 : _}
    (hM : 3780904172 &&& M = 3780904172) (h : Keeps M s t) : KeepsOut M s (execMirrorWrite a1 t) := by
  unfold execMirrorWrite
  try dsimp only
  repeat' (first
    | with_reducible assumption
    | with_reducible exact Keeps.refl _ _
    | with_reducible apply KeepsOut.next
    | with_reducible apply State.seqReceive_keeps)

theorem execControl_keeps {M : Nat} {s t : State} {a1 : _}
    (hM : 3780904172 &&& M = 3780904172) (h : Keeps M s t) : KeepsOut M s (execControl a1 t) := by
  unfold execControl
  try dsimp only
  repeat' (first
    | with_reducible assumption
    | with_reducible exact Keeps.refl _ _
    | with_reducible apply KeepsOut.next
    | with_reducible apply State.seqReceive_keeps)

theorem execEpochData_keeps {M : Nat} {s t : State} {a1 : _}
    (hM : 3780904172 &&& M = 3780904172) (h : Keeps M s t) : KeepsOut M s (execEpochData a1 t) := by
  unfold execEpochData
  try dsimp only
  repeat' (first
    | with_reducible assumption
    | with_reducible exact Keeps.refl _ _
    | with_reducible apply KeepsOut.next
    | with_reducible apply State.seqReceive_keeps)

theorem execEpochEnd_keeps {M : Nat} {s t : State} {a1 : _}
    (hM : 3780904172 &&& M = 3780904172) (h : Keeps M s t) : KeepsOut M s (execEpochEnd a1 t) := by
  unfold execEpochEnd
  try dsimp only
  repeat' (first
    | with_reducible assumption
    | with_reducible exact Keeps.refl _ _
    | with_reducible apply KeepsOut.next
    | with_reducible apply State.seqReceive_keeps)

theorem execMirrorAck_keeps {M : Nat} {s t : State} {a1 : _}
    (hM : 4082971630 &&& M = 4082971630) (h : Keeps M s t) : KeepsOut M s (execMirrorAck a1 t) := by
  unfold execMirrorAck
  try dsimp only
  repeat' (first
    | with_reducible assumption
    | with_reducible exact Keeps.refl _ _
    | ((with_reducible refine Keeps.subMask hM ?_); exact rfl)
    | with_reducible apply KeepsOut.next
    | with_reducible apply State.ackHseq_keeps
    | with_reducible apply State.afterAck_keeps
    | with_reducible apply State.resendNacked_keeps
    | split)

theorem execHeartbeat_keeps {M : Nat} {s t : State} {a1 : _}
    (hM : 1918706798 &&& M = 1918706798) (h : Keeps M s t) : KeepsOut M s (execHeartbeat a1 t) := by
  unfold execHeartbeat
  try dsimp only
  repeat' (first
    | with_reducible assumption
    | with_reducible exact Keeps.refl _ _
    | ((with_reducible refine Keeps.subMask hM ?_); exact rfl)
    | with_reducible apply KeepsOut.next
    | with_reducible apply State.settlePair_keeps
    | with_reducible apply State.takeEpoch_keeps
    | with_reducible apply State.enterPaired_keeps
    | with_reducible apply State.endHandback_keeps
    | with_reducible apply State.endRelinquish_keeps
    | (dsimp only [keepsMk]; (with_reducible apply KeepsMk.put ?_ rfl rfl) <;> first | exact Or.inl (Keeps.subBit hM rfl) | exact Or.inr rfl | exact id | skip)
    | split)

theorem execRelinquish_keeps {M : Nat} {s t : State} {a1 : _}
    (hM : 4456452 &&& M = 4456452) (h : Keeps M s t) : KeepsOut M s (execRelinquish a1 t) := by
  unfold execRelinquish
  try dsimp only
  repeat' (first
    | with_reducible assumption
    | with_reducible exact Keeps.refl _ _
    | with_reducible apply KeepsOut.next
    | with_reducible apply State.takeoverCycle_keeps
    | with_reducible apply State.beginTakeover_keeps
    | (dsimp only [keepsMk]; (with_reducible apply KeepsMk.put ?_ rfl rfl) <;> first | exact Or.inl (Keeps.subBit hM rfl) | exact Or.inr rfl | exact id | skip)
    | split)

theorem execStreamEnd_keeps {M : Nat} {s t : State} {a1 : _}
    (hM : 262144 &&& M = 262144) (h : Keeps M s t) : KeepsOut M s (execStreamEnd a1 t) := by
  unfold execStreamEnd
  try dsimp only
  repeat' (first
    | with_reducible assumption
    | with_reducible exact Keeps.refl _ _
    | with_reducible apply KeepsOut.next
    | (dsimp only [keepsMk]; (with_reducible apply KeepsMk.put ?_ rfl rfl) <;> first | exact Or.inl (Keeps.subBit hM rfl) | exact Or.inr rfl | exact id | skip)
    | split)

theorem execTaken_keeps {M : Nat} {s t : State} {a1 : _}
    (hM : 4534340 &&& M = 4534340) (h : Keeps M s t) : KeepsOut M s (execTaken a1 t) := by
  unfold execTaken
  try dsimp only
  repeat' (first
    | with_reducible assumption
    | with_reducible exact Keeps.refl _ _
    | with_reducible apply KeepsOut.next
    | with_reducible apply State.relinquishCycle_keeps
    | (dsimp only [keepsMk]; (with_reducible apply KeepsMk.put ?_ rfl rfl) <;> first | exact Or.inl (Keeps.subBit hM rfl) | exact Or.inr rfl | exact id | skip)
    | split)

theorem execMirrorEpochEnd_keeps {M : Nat} {s t : State}
    (hM : 21233732 &&& M = 21233732) (h : Keeps M s t) : KeepsOut M s (execMirrorEpochEnd t) := by
  unfold execMirrorEpochEnd
  try dsimp only
  repeat' (first
    | with_reducible assumption
    | with_reducible exact Keeps.refl _ _
    | with_reducible apply KeepsOut.next
    | with_reducible apply State.endEpoch_keeps)

theorem execHeartbeatSend_keeps {M : Nat} {s t : State}
    (hM : 4456452 &&& M = 4456452) (h : Keeps M s t) : KeepsOut M s (execHeartbeatSend t) := by
  unfold execHeartbeatSend
  try dsimp only
  repeat' (first
    | with_reducible assumption
    | with_reducible exact Keeps.refl _ _
    | ((with_reducible refine Keeps.subMask hM ?_); exact rfl)
    | with_reducible apply KeepsOut.next
    | with_reducible apply State.sendEach_keeps
    | (dsimp only [keepsMk]; (with_reducible apply KeepsMk.put ?_ rfl rfl) <;> first | exact Or.inl (Keeps.subBit hM rfl) | exact Or.inr rfl | exact id | skip))

theorem execMirrorAckSend_keeps {M : Nat} {s t : State}
    (hM : 4456452 &&& M = 4456452) (h : Keeps M s t) : KeepsOut M s (execMirrorAckSend t) := by
  unfold execMirrorAckSend
  try dsimp only
  repeat' (first
    | with_reducible assumption
    | with_reducible exact Keeps.refl _ _
    | ((with_reducible refine Keeps.subMask hM ?_); exact rfl)
    | with_reducible apply KeepsOut.next
    | with_reducible apply State.transmit_keeps
    | (dsimp only [keepsMk]; (with_reducible apply KeepsMk.put ?_ rfl rfl) <;> first | exact Or.inl (Keeps.subBit hM rfl) | exact Or.inr rfl | exact id | skip)
    | split)

theorem execRelinquishRepeat_keeps {M : Nat} {s t : State}
    (hM : 4194308 &&& M = 4194308) (h : Keeps M s t) : KeepsOut M s (execRelinquishRepeat t) := by
  unfold execRelinquishRepeat
  try dsimp only
  repeat' (first
    | with_reducible assumption
    | with_reducible exact Keeps.refl _ _
    | with_reducible apply KeepsOut.next
    | with_reducible apply State.sendRelinquish_keeps
    | split)

theorem execTakenRepeat_keeps {M : Nat} {s t : State}
    (hM : 4194308 &&& M = 4194308) (h : Keeps M s t) : KeepsOut M s (execTakenRepeat t) := by
  unfold execTakenRepeat
  try dsimp only
  repeat' (first
    | with_reducible assumption
    | with_reducible exact Keeps.refl _ _
    | with_reducible apply KeepsOut.next
    | with_reducible apply State.sendTaken_keeps
    | split)

theorem execPairCommandRelinquish_keeps {M : Nat} {s t : State} {a1 : _}
    (hM : 8204366 &&& M = 8204366) (h : Keeps M s t) : KeepsOut M s (execPairCommandRelinquish a1 t) := by
  unfold execPairCommandRelinquish
  try dsimp only
  repeat' (first
    | with_reducible assumption
    | with_reducible exact Keeps.refl _ _
    | ((with_reducible refine Keeps.subMask hM ?_); exact rfl)
    | with_reducible apply KeepsOut.next
    | with_reducible apply State.write_keeps
    | with_reducible apply actPairCommandRelinquish_keeps
    | split
    | with_reducible refine Keeps.fst ‹_ = (_, _)› ?_
    | intro _)

theorem execPairCommandTakeover_keeps {M : Nat} {s t : State} {a1 : _}
    (hM : 8192014 &&& M = 8192014) (h : Keeps M s t) : KeepsOut M s (execPairCommandTakeover a1 t) := by
  unfold execPairCommandTakeover
  try dsimp only
  repeat' (first
    | with_reducible assumption
    | with_reducible exact Keeps.refl _ _
    | ((with_reducible refine Keeps.subMask hM ?_); exact rfl)
    | with_reducible apply KeepsOut.next
    | with_reducible apply State.write_keeps
    | with_reducible apply actPairCommandTakeover_keeps
    | split
    | with_reducible refine Keeps.fst ‹_ = (_, _)› ?_
    | intro _)

theorem execPairCommandRejoin_keeps {M : Nat} {s t : State} {a1 : _}
    (hM : 1081947246 &&& M = 1081947246) (h : Keeps M s t) : KeepsOut M s (execPairCommandRejoin a1 t) := by
  unfold execPairCommandRejoin
  try dsimp only
  repeat' (first
    | with_reducible assumption
    | with_reducible exact Keeps.refl _ _
    | ((with_reducible refine Keeps.subMask hM ?_); exact rfl)
    | with_reducible apply KeepsOut.next
    | with_reducible apply State.write_keeps
    | with_reducible apply actPairCommandRejoin_keeps
    | split
    | with_reducible refine Keeps.fst ‹_ = (_, _)› ?_
    | intro _)

theorem execRelinquishDeadline_keeps {M : Nat} {s t : State}
    (hM : 1616707660 &&& M = 1616707660) (h : Keeps M s t) : KeepsOut M s (execRelinquishDeadline t) := by
  unfold execRelinquishDeadline
  try dsimp only
  repeat' (first
    | with_reducible assumption
    | with_reducible exact Keeps.refl _ _
    | with_reducible apply KeepsOut.next
    | with_reducible apply State.abortUnforwarded_keeps
    | (dsimp only [keepsMk]; (with_reducible apply KeepsMk.put ?_ rfl rfl) <;> first | exact Or.inl (Keeps.subBit hM rfl) | exact Or.inr rfl | exact id | skip)
    | split)

theorem execStreamEndSend_keeps {M : Nat} {s t : State}
    (hM : 8455716862 &&& M = 8455716862) (h : Keeps M s t) : KeepsOut M s (execStreamEndSend t) := by
  unfold execStreamEndSend
  try dsimp only
  repeat' (first
    | with_reducible assumption
    | with_reducible exact Keeps.refl _ _
    | ((with_reducible refine Keeps.subMask hM ?_); exact rfl)
    | with_reducible apply KeepsOut.next
    | with_reducible apply State.sendStreamEnd_keeps
    | with_reducible apply State.boardReset_keeps
    | with_reducible apply State.goDark_keeps
    | with_reducible apply State.tryEndRelinquish_keeps
    | split)

theorem execPairPresentNHigh_keeps {M : Nat} {s t : State}
    (hM : 4980748 &&& M = 4980748) (h : Keeps M s t) : KeepsOut M s (execPairPresentNHigh t) := by
  unfold execPairPresentNHigh
  try dsimp only
  repeat' (first
    | with_reducible assumption
    | with_reducible exact Keeps.refl _ _
    | ((with_reducible refine Keeps.subMask hM ?_); exact rfl)
    | with_reducible apply KeepsOut.next
    | with_reducible apply State.crier_keeps
    | with_reducible apply State.partnerGone_keeps
    | (dsimp only [keepsMk]; (with_reducible apply KeepsMk.put ?_ rfl rfl) <;> first | exact Or.inl (Keeps.subBit hM rfl) | exact Or.inr rfl | exact id | skip)
    | split)

theorem execTakeoverWaitEnd_keeps {M : Nat} {s t : State}
    (hM : 1079247972 &&& M = 1079247972) (h : Keeps M s t) : KeepsOut M s (execTakeoverWaitEnd t) := by
  unfold execTakeoverWaitEnd
  try dsimp only
  repeat' (first
    | with_reducible assumption
    | with_reducible exact Keeps.refl _ _
    | with_reducible apply KeepsOut.next
    | with_reducible apply State.advancePair_keeps
    | (dsimp only [keepsMk]; (with_reducible apply KeepsMk.put ?_ rfl rfl) <;> first | exact Or.inl (Keeps.subBit hM rfl) | exact Or.inr rfl | exact id | skip)
    | split)

theorem execTakeoverActivated_keeps {M : Nat} {s t : State}
    (hM : 542900346 &&& M = 542900346) (h : Keeps M s t) : KeepsOut M s (execTakeoverActivated t) := by
  unfold execTakeoverActivated
  try dsimp only
  repeat' (first
    | with_reducible assumption
    | with_reducible exact Keeps.refl _ _
    | with_reducible apply KeepsOut.next
    | with_reducible apply State.serveImage_keeps
    | split)

theorem execPairDecideExpiry_keeps {M : Nat} {s t : State}
    (hM : 844963950 &&& M = 844963950) (h : Keeps M s t) : KeepsOut M s (execPairDecideExpiry t) := by
  unfold execPairDecideExpiry
  try dsimp only
  repeat' (first
    | with_reducible assumption
    | with_reducible exact Keeps.refl _ _
    | ((with_reducible refine Keeps.subMask hM ?_); exact rfl)
    | with_reducible apply KeepsOut.next
    | with_reducible apply State.enterSolo_keeps
    | with_reducible apply State.unmirror_keeps
    | with_reducible apply State.tryEndRelinquish_keeps
    | split)

theorem execResyncGranuleDone_keeps {M : Nat} {s t : State}
    (hM : 2169241804 &&& M = 2169241804) (h : Keeps M s t) : KeepsOut M s (execResyncGranuleDone t) := by
  unfold execResyncGranuleDone
  try dsimp only
  repeat' (first
    | with_reducible assumption
    | with_reducible exact Keeps.refl _ _
    | ((with_reducible refine Keeps.subMask hM ?_); exact rfl)
    | with_reducible apply KeepsOut.next
    | with_reducible apply State.copyGranule_keeps
    | with_reducible apply State.halRecord_keeps
    | (dsimp only [keepsMk]; (with_reducible apply KeepsMk.put ?_ rfl rfl) <;> first | exact Or.inl (Keeps.subBit hM rfl) | exact Or.inr rfl | exact id | skip)
    | split)

theorem execPartnerFence_keeps {M : Nat} {s t : State} {a1 : _} {a2 : _}
    (hM : 3783078892 &&& M = 3783078892) (h : Keeps M s t) : KeepsOut M s (execPartnerFence a1 a2 t) := by
  unfold execPartnerFence
  try dsimp only
  repeat' (first
    | with_reducible assumption
    | with_reducible exact Keeps.refl _ _
    | ((with_reducible refine Keeps.subMask hM ?_); exact rfl)
    | with_reducible apply KeepsOut.next
    | with_reducible apply State.write_keeps
    | with_reducible apply actPartnerFence_keeps
    | split
    | with_reducible refine Keeps.fst ‹_ = (_, _)› ?_
    | intro _)

theorem execPartnerDetach_keeps {M : Nat} {s t : State} {a1 : _} {a2 : _}
    (hM : 3783078892 &&& M = 3783078892) (h : Keeps M s t) : KeepsOut M s (execPartnerDetach a1 a2 t) := by
  unfold execPartnerDetach
  try dsimp only
  repeat' (first
    | with_reducible assumption
    | with_reducible exact Keeps.refl _ _
    | ((with_reducible refine Keeps.subMask hM ?_); exact rfl)
    | with_reducible apply KeepsOut.next
    | with_reducible apply State.write_keeps
    | with_reducible apply actPartnerDetach_keeps
    | split
    | with_reducible refine Keeps.fst ‹_ = (_, _)› ?_
    | intro _)

/-! ### Machine/Memory.lean -/

theorem State.checkerStart_keeps {M : Nat} {s t : State} {a1 : _}
    (hM : 131074 &&& M = 131074) (h : Keeps M s t) : Keeps M s (State.checkerStart a1 t).1 := by
  unfold State.checkerStart
  try dsimp only
  repeat' (first
    | with_reducible assumption
    | with_reducible exact Keeps.refl _ _
    | ((with_reducible refine Keeps.subMask hM ?_); exact rfl)
    | with_reducible apply State.setReg_keeps
    | (dsimp only [keepsMk]; (with_reducible apply KeepsMk.put ?_ rfl rfl) <;> first | exact Or.inl (Keeps.subBit hM rfl) | exact Or.inr rfl | exact id | skip)
    | split)

theorem actCheckerEnableWrite_keeps {M : Nat} {s t : State} {a1 : _}
    (hM : 262146 &&& M = 262146) (h : Keeps M s t) : Keeps M s (actCheckerEnableWrite a1 t).1 := by
  unfold actCheckerEnableWrite
  try dsimp only
  repeat' (first
    | with_reducible assumption
    | with_reducible exact Keeps.refl _ _
    | with_reducible apply storeEntry_keeps
    | split)

theorem actCheckerRawWrite_keeps {M : Nat} {s t : State} {a1 : _}
    (hM : 131074 &&& M = 131074) (h : Keeps M s t) : Keeps M s (actCheckerRawWrite a1 t).1 := by
  unfold actCheckerRawWrite
  try dsimp only
  repeat' (first
    | with_reducible assumption
    | with_reducible exact Keeps.refl _ _
    | with_reducible apply State.checkerStart_keeps)

theorem actCheckerRawRead_keeps {M : Nat} {s t : State} {a1 : _}
    (hM : 131074 &&& M = 131074) (h : Keeps M s t) : Keeps M s (actCheckerRawRead a1 t).1 := by
  unfold actCheckerRawRead
  try dsimp only
  repeat' (first
    | with_reducible assumption
    | with_reducible exact Keeps.refl _ _
    | with_reducible apply State.checkerStart_keeps)

theorem State.maintIssue_keeps {M : Nat} {s t : State} {a1 : _} {a2 : _}
    (hM : 128 &&& M = 128) (h : Keeps M s t) : Keeps M s (State.maintIssue t a1 a2) := by
  unfold State.maintIssue
  try dsimp only
  repeat' (first
    | with_reducible assumption
    | with_reducible exact Keeps.refl _ _
    | with_reducible apply State.updChan_keeps
    | with_reducible refine Keeps.foldl ?_ _ ?_
    | with_reducible refine Keeps.foldl_fst ?_ _ ?_
    | with_reducible refine Keeps.foldl_snd ?_ _ ?_
    | with_reducible exact ChanSt.wf_wipe _ _ (by assumption)
    | with_reducible exact ChanSt.wf_setLine _ _ _ (by assumption)
    | with_reducible exact Tbl.wf_set _ _ (by assumption)
    | with_reducible exact Tbl.wf_filter _ (by assumption)
    | with_reducible exact Tbl.wf_nil _
    | with_reducible exact State.memOk_chan (by assumption) _
    | split
    | with_reducible refine Keeps.fst ‹_ = (_, _)› ?_
    | intro _)

theorem State.manageBank_keeps {M : Nat} {s t : State} {a1 : _} {a2 : _}
    (hM : 20971712 &&& M = 20971712) (h : Keeps M s t) : Keeps M s (State.manageBank t a1 a2) := by
  unfold State.manageBank
  try dsimp only
  repeat' (first
    | with_reducible assumption
    | with_reducible exact Keeps.refl _ _
    | ((with_reducible refine Keeps.subMask hM ?_); exact rfl)
    | with_reducible apply State.maintain_keeps
    | with_reducible apply State.updChan_keeps
    | with_reducible exact ChanSt.wf_wipe _ _ (by assumption)
    | with_reducible exact ChanSt.wf_setLine _ _ _ (by assumption)
    | with_reducible exact Tbl.wf_set _ _ (by assumption)
    | with_reducible exact Tbl.wf_filter _ (by assumption)
    | with_reducible exact Tbl.wf_nil _
    | with_reducible exact State.memOk_chan (by assumption) _
    | split
    | with_reducible refine Keeps.fst ‹_ = (_, _)› ?_
    | intro _)

theorem State.rawWriteSram_keeps {M : Nat} {s t : State} {a1 : _} {a2 : _}
    (hM : 64 &&& M = 64) (h : Keeps M s t) : Keeps M s (State.rawWriteSram t a1 a2) := by
  unfold State.rawWriteSram
  try dsimp only
  repeat' (first
    | with_reducible assumption
    | with_reducible exact Keeps.refl _ _
    | with_reducible apply State.updSlice_keeps)

theorem State.rawReadSram_keeps {M : Nat} {s t : State} {a1 : _} {a2 : _}
    (hM : 131072 &&& M = 131072) (h : Keeps M s t) : Keeps M s (State.rawReadSram t a1 a2) := by
  unfold State.rawReadSram
  try dsimp only
  repeat' (first
    | with_reducible assumption
    | with_reducible exact Keeps.refl _ _
    | with_reducible refine Keeps.foldl ?_ _ ?_
    | with_reducible refine Keeps.foldl_fst ?_ _ ?_
    | with_reducible refine Keeps.foldl_snd ?_ _ ?_
    | (dsimp only [keepsMk]; (with_reducible apply KeepsMk.put ?_ rfl rfl) <;> first | exact Or.inl (Keeps.subBit hM rfl) | exact Or.inr rfl | exact id | skip))

theorem State.rawWriteLine_keeps {M : Nat} {s t : State} {a1 : _}
    (hM : 2148270304 &&& M = 2148270304) (h : Keeps M s t) : Keeps M s (State.rawWriteLine t a1) := by
  unfold State.rawWriteLine
  try dsimp only
  repeat' (first
    | with_reducible assumption
    | with_reducible exact Keeps.refl _ _
    | ((with_reducible refine Keeps.subMask hM ?_); exact rfl)
    | with_reducible apply State.markWritten_keeps
    | with_reducible apply State.markPage_keeps
    | with_reducible apply State.setAt_keeps)

theorem State.rawReadLine_keeps {M : Nat} {s t : State} {a1 : _}
    (hM : 131072 &&& M = 131072) (h : Keeps M s t) : Keeps M s (State.rawReadLine t a1) := by
  unfold State.rawReadLine
  try dsimp only
  repeat' (first
    | with_reducible assumption
    | with_reducible exact Keeps.refl _ _
    | (dsimp only [keepsMk]; (with_reducible apply KeepsMk.put ?_ rfl rfl) <;> first | exact Or.inl (Keeps.subBit hM rfl) | exact Or.inr rfl | exact id | skip))

theorem State.rawDo_keeps {M : Nat} {s t : State} {a1 : _} {a2 : _}
    (hM : 2148401376 &&& M = 2148401376) (h : Keeps M s t) : Keeps M s (State.rawDo t a1 a2) := by
  unfold State.rawDo
  try dsimp only
  repeat' (first
    | with_reducible assumption
    | with_reducible exact Keeps.refl _ _
    | ((with_reducible refine Keeps.subMask hM ?_); exact rfl)
    | with_reducible apply State.rawWriteSram_keeps
    | with_reducible apply State.rawReadSram_keeps
    | with_reducible apply State.rawWriteLine_keeps
    | with_reducible apply State.rawReadLine_keeps
    | split)

theorem State.scrubLine_keeps {M : Nat} {s t : State} {a1 : _} {a2 : _} {a3 : _}
    (hM : 2168979656 &&& M = 2168979656) (h : Keeps M s t) : Keeps M s (State.scrubLine t a1 a2 a3) := by
  unfold State.scrubLine
  try dsimp only
  repeat' (first
    | with_reducible assumption
    | with_reducible exact Keeps.refl _ _
    | ((with_reducible refine Keeps.subMask hM ?_); exact rfl)
    | with_reducible apply State.queueDram_keeps
    | with_reducible apply State.note_keeps
    | with_reducible apply State.verify_keeps
    | with_reducible apply State.setAt_keeps
    | split)

theorem State.writeErrorRow_keeps {M : Nat} {s t : State} {a1 : _} {a2 : _} {a3 : _}
    (hM : 524352 &&& M = 524352) (h : Keeps M s t) : Keeps M s (State.writeErrorRow a1 a2 a3 t).1 := by
  unfold State.writeErrorRow
  try dsimp only
  repeat' (first
    | with_reducible assumption
    | with_reducible exact Keeps.refl _ _
    | with_reducible apply State.setErrTable_keeps
    | split)

theorem execMigrateMoveStart_keeps {M : Nat} {s t : State} {a1 : _}
    (hM : 4718784 &&& M = 4718784) (h : Keeps M s t) : KeepsOut M s (execMigrateMoveStart a1 t) := by
  unfold execMigrateMoveStart
  try dsimp only
  repeat' (first
    | with_reducible assumption
    | with_reducible exact Keeps.refl _ _
    | ((with_reducible refine Keeps.subMask hM ?_); exact rfl)
    | with_reducible apply KeepsOut.next
    | with_reducible apply State.beginEvict_keeps
    | with_reducible apply State.nextFill_keeps
    | split)

theorem execFillComplete_keeps {M : Nat} {s t : State} {a1 : _} {a2 : _}
    (hM : 2168979656 &&& M = 2168979656) (h : Keeps M s t) : KeepsOut M s (execFillComplete a1 a2 t) := by
  unfold execFillComplete
  try dsimp only
  repeat' (first
    | with_reducible assumption
    | with_reducible exact Keeps.refl _ _
    | ((with_reducible refine Keeps.subMask hM ?_); exact rfl)
    | with_reducible apply KeepsOut.next
    | with_reducible apply State.count_keeps
    | with_reducible apply State.updSlice_keeps
    | with_reducible apply State.pagesUp_keeps
    | split)

theorem execEvictionComplete_keeps {M : Nat} {s t : State} {a1 : _} {a2 : _}
    (hM : 2168979656 &&& M = 2168979656) (h : Keeps M s t) : KeepsOut M s (execEvictionComplete a1 a2 t) := by
  unfold execEvictionComplete
  try dsimp only
  repeat' (first
    | with_reducible assumption
    | with_reducible exact Keeps.refl _ _
    | ((with_reducible refine Keeps.subMask hM ?_); exact rfl)
    | with_reducible apply KeepsOut.next
    | with_reducible apply State.fillWaiting_keeps
    | with_reducible apply State.count_keeps
    | with_reducible apply State.releaseFrame_keeps
    | with_reducible apply State.wipeFrame_keeps
    | with_reducible apply State.pagesDown_keeps
    | split)

theorem execMoveAbandon_keeps {M : Nat} {s t : State} {a1 : _} {a2 : _}
    (hM : 4194496 &&& M = 4194496) (h : Keeps M s t) : KeepsOut M s (execMoveAbandon a1 a2 t) := by
  unfold execMoveAbandon
  try dsimp only
  repeat' (first
    | with_reducible assumption
    | with_reducible exact Keeps.refl _ _
    | with_reducible apply KeepsOut.next
    | with_reducible apply State.abandonMove_keeps)

theorem execDramCommandIssue_keeps {M : Nat} {s t : State} {a1 : _}
    (hM : 20971712 &&& M = 20971712) (h : Keeps M s t) : KeepsOut M s (execDramCommandIssue a1 t) := by
  unfold execDramCommandIssue
  try dsimp only
  repeat' (first
    | with_reducible assumption
    | with_reducible exact Keeps.refl _ _
    | ((with_reducible refine Keeps.subMask hM ?_); exact rfl)
    | with_reducible apply KeepsOut.next
    | with_reducible apply State.maintIssue_keeps
    | with_reducible apply State.updChan_keeps
    | with_reducible apply State.manageBank_keeps
    | with_reducible exact ChanSt.wf_wipe _ _ (by assumption)
    | with_reducible exact ChanSt.wf_setLine _ _ _ (by assumption)
    | with_reducible exact Tbl.wf_set _ _ (by assumption)
    | with_reducible exact Tbl.wf_filter _ (by assumption)
    | with_reducible exact Tbl.wf_nil _
    | with_reducible exact State.memOk_chan (by assumption) _
    | split
    | with_reducible refine Keeps.fst ‹_ = (_, _)› ?_
    | intro _)

theorem execPageIdleClose_keeps {M : Nat} {s t : State} {a1 : _} {a2 : _}
    (hM : 128 &&& M = 128) (h : Keeps M s t) : KeepsOut M s (execPageIdleClose a1 a2 t) := by
  unfold execPageIdleClose
  try dsimp only
  repeat' (first
    | with_reducible assumption
    | with_reducible exact Keeps.refl _ _
    | with_reducible apply KeepsOut.next
    | with_reducible apply State.updChan_keeps
    | with_reducible exact ChanSt.wf_wipe _ _ (by assumption)
    | with_reducible exact ChanSt.wf_setLine _ _ _ (by assumption)
    | with_reducible exact Tbl.wf_set _ _ (by assumption)
    | with_reducible exact Tbl.wf_filter _ (by assumption)
    | with_reducible exact Tbl.wf_nil _
    | with_reducible exact State.memOk_chan (by assumption) _
    | split
    | with_reducible refine Keeps.fst ‹_ = (_, _)› ?_
    | intro _)

theorem execRefreshInterval_keeps {M : Nat} {s t : State} {a1 : _} {a2 : _}
    (hM : 20971712 &&& M = 20971712) (h : Keeps M s t) : KeepsOut M s (execRefreshInterval a1 a2 t) := by
  unfold execRefreshInterval
  try dsimp only
  repeat' (first
    | with_reducible assumption
    | with_reducible exact Keeps.refl _ _
    | ((with_reducible refine Keeps.subMask hM ?_); exact rfl)
    | with_reducible apply KeepsOut.next
    | with_reducible apply State.updChan_keeps
    | with_reducible apply State.pipePush_keeps
    | with_reducible apply State.maintain_keeps
    | with_reducible refine Keeps.foldl ?_ _ ?_
    | with_reducible refine Keeps.foldl_fst ?_ _ ?_
    | with_reducible refine Keeps.foldl_snd ?_ _ ?_
    | with_reducible exact ChanSt.wf_wipe _ _ (by assumption)
    | with_reducible exact ChanSt.wf_setLine _ _ _ (by assumption)
    | with_reducible exact Tbl.wf_set _ _ (by assumption)
    | with_reducible exact Tbl.wf_filter _ (by assumption)
    | with_reducible exact Tbl.wf_nil _
    | with_reducible exact State.memOk_chan (by assumption) _
    | split
    | with_reducible refine Keeps.fst ‹_ = (_, _)› ?_
    | intro _)

theorem execScrubRead_keeps {M : Nat} {s t : State} {a1 : _} {a2 : _} {a3 : _}
    (hM : 3915200494 &&& M = 3915200494) (h : Keeps M s t) : KeepsOut M s (execScrubRead a1 a2 a3 t) := by
  unfold execScrubRead
  try dsimp only
  repeat' (first
    | with_reducible assumption
    | with_reducible exact Keeps.refl _ _
    | ((with_reducible refine Keeps.subMask hM ?_); exact rfl)
    | with_reducible apply KeepsOut.next
    | with_reducible apply State.scrubLine_keeps
    | with_reducible apply State.pipePush_keeps
    | with_reducible apply State.takeFresh_keeps
    | with_reducible apply State.takeCandidates_keeps
    | with_reducible apply State.updChan_keeps
    | with_reducible exact ChanSt.wf_wipe _ _ (by assumption)
    | with_reducible exact ChanSt.wf_setLine _ _ _ (by assumption)
    | with_reducible exact Tbl.wf_set _ _ (by assumption)
    | with_reducible exact Tbl.wf_filter _ (by assumption)
    | with_reducible exact Tbl.wf_nil _
    | with_reducible exact State.memOk_chan (by assumption) _
    | split
    | with_reducible refine Keeps.fst ‹_ = (_, _)› ?_
    | intro _)

theorem execScrubPeriodEnd_keeps {M : Nat} {s t : State} {a1 : _} {a2 : _}
    (hM : 4718728 &&& M = 4718728) (h : Keeps M s t) : KeepsOut M s (execScrubPeriodEnd a1 a2 t) := by
  unfold execScrubPeriodEnd
  try dsimp only
  repeat' (first
    | with_reducible assumption
    | with_reducible exact Keeps.refl _ _
    | ((with_reducible refine Keeps.subMask hM ?_); exact rfl)
    | with_reducible apply KeepsOut.next
    | with_reducible apply State.crier_keeps
    | with_reducible apply State.updChan_keeps
    | with_reducible exact ChanSt.wf_wipe _ _ (by assumption)
    | with_reducible exact ChanSt.wf_setLine _ _ _ (by assumption)
    | with_reducible exact Tbl.wf_set _ _ (by assumption)
    | with_reducible exact Tbl.wf_filter _ (by assumption)
    | with_reducible exact Tbl.wf_nil _
    | with_reducible exact State.memOk_chan (by assumption) _
    | split
    | with_reducible refine Keeps.fst ‹_ = (_, _)› ?_
    | intro _)

theorem execRowRepairStart_keeps {M : Nat} {s t : State} {a1 : _}
    (hM : 20971712 &&& M = 20971712) (h : Keeps M s t) : KeepsOut M s (execRowRepairStart a1 t) := by
  unfold execRowRepairStart
  try dsimp only
  repeat' (first
    | with_reducible assumption
    | with_reducible exact Keeps.refl _ _
    | ((with_reducible refine Keeps.subMask hM ?_); exact rfl)
    | with_reducible apply KeepsOut.next
    | with_reducible apply State.maintain_keeps
    | with_reducible apply State.updChan_keeps
    | with_reducible exact ChanSt.wf_wipe _ _ (by assumption)
    | with_reducible exact ChanSt.wf_setLine _ _ _ (by assumption)
    | with_reducible exact Tbl.wf_set _ _ (by assumption)
    | with_reducible exact Tbl.wf_filter _ (by assumption)
    | with_reducible exact Tbl.wf_nil _
    | with_reducible exact State.memOk_chan (by assumption) _
    | split
    | with_reducible refine Keeps.fst ‹_ = (_, _)› ?_
    | intro _)

theorem ChanSt.wf_repaired (c : ChanSt) (r : RowRepair) (g : Nat) (w : Tbl.wf c.mem clearLine = true) :
    Tbl.wf (c.repaired r g).mem clearLine = true := by
  unfold ChanSt.repaired
  dsimp only
  generalize r.lines = l
  revert w
  generalize c.mem = m
  intro w
  induction l generalizing m with
  | nil => exact w
  | cons p l ih => exact ih _ (Tbl.wf_set _ _ w)

theorem execRowRepairDone_keeps {M : Nat} {s t : State} {a1 : _}
    (hM : 5767304 &&& M = 5767304) (h : Keeps M s t) : KeepsOut M s (execRowRepairDone a1 t) := by
  unfold execRowRepairDone
  try dsimp only
  repeat' (first
    | with_reducible assumption
    | with_reducible exact Keeps.refl _ _
    | ((with_reducible refine Keeps.subMask hM ?_); exact rfl)
    | with_reducible apply KeepsOut.next
    | with_reducible apply State.updChan_keeps
    | with_reducible apply State.fault_keeps
    | with_reducible apply State.ledger_keeps
    | with_reducible exact ChanSt.wf_wipe _ _ (by assumption)
    | with_reducible exact ChanSt.wf_setLine _ _ _ (by assumption)
    | with_reducible exact Tbl.wf_set _ _ (by assumption)
    | with_reducible exact Tbl.wf_filter _ (by assumption)
    | with_reducible exact Tbl.wf_nil _
    | with_reducible exact State.memOk_chan (by assumption) _
    | with_reducible exact ChanSt.wf_repaired _ _ _ (by assumption)
    | split
    | with_reducible refine Keeps.fst ‹_ = (_, _)› ?_
    | intro _)

theorem execPitchEntryRewrite_keeps {M : Nat} {s t : State} {a1 : _}
    (hM : 524320 &&& M = 524320) (h : Keeps M s t) : KeepsOut M s (execPitchEntryRewrite a1 t) := by
  unfold execPitchEntryRewrite
  try dsimp only
  repeat' (first
    | with_reducible assumption
    | with_reducible exact Keeps.refl _ _
    | ((with_reducible refine Keeps.subMask hM ?_); exact rfl)
    | with_reducible apply KeepsOut.next
    | with_reducible apply State.sramWrite_keeps
    | (dsimp only [keepsMk]; (with_reducible apply KeepsMk.put ?_ rfl rfl) <;> first | exact Or.inl (Keeps.subBit hM rfl) | exact Or.inr rfl | exact id | skip)
    | split)

theorem execErrorTableWrite_keeps {M : Nat} {s t : State} {a1 : _} {a2 : _} {a3 : _} {a4 : _}
    (hM : 7929932 &&& M = 7929932) (h : Keeps M s t) : KeepsOut M s (execErrorTableWrite a1 a2 a3 a4 t) := by
  unfold execErrorTableWrite
  try dsimp only
  repeat' (first
    | with_reducible assumption
    | with_reducible exact Keeps.refl _ _
    | ((with_reducible refine Keeps.subMask hM ?_); exact rfl)
    | with_reducible apply KeepsOut.next
    | with_reducible apply State.writeWindow_keeps
    | with_reducible apply State.writeErrorRow_keeps
    | split
    | with_reducible refine Keeps.fst ‹_ = (_, _)› ?_
    | intro _)

theorem execCheckerEnableWrite_keeps {M : Nat} {s t : State} {a1 : _} {a2 : _}
    (hM : 8192014 &&& M = 8192014) (h : Keeps M s t) : KeepsOut M s (execCheckerEnableWrite a1 a2 t) := by
  unfold execCheckerEnableWrite
  try dsimp only
  repeat' (first
    | with_reducible assumption
    | with_reducible exact Keeps.refl _ _
    | ((with_reducible refine Keeps.subMask hM ?_); exact rfl)
    | with_reducible apply KeepsOut.next
    | with_reducible apply State.write_keeps
    | with_reducible apply actCheckerEnableWrite_keeps
    | split
    | with_reducible refine Keeps.fst ‹_ = (_, _)› ?_
    | intro _)

theorem execCheckerRawWrite_keeps {M : Nat} {s t : State} {a1 : _}
    (hM : 8060942 &&& M = 8060942) (h : Keeps M s t) : KeepsOut M s (execCheckerRawWrite a1 t) := by
  unfold execCheckerRawWrite
  try dsimp only
  repeat' (first
    | with_reducible assumption
    | with_reducible exact Keeps.refl _ _
    | ((with_reducible refine Keeps.subMask hM ?_); exact rfl)
    | with_reducible apply KeepsOut.next
    | with_reducible apply State.write_keeps
    | with_reducible apply actCheckerRawWrite_keeps
    | split
    | with_reducible refine Keeps.fst ‹_ = (_, _)› ?_
    | intro _)

theorem execCheckerRawRead_keeps {M : Nat} {s t : State} {a1 : _}
    (hM : 8060942 &&& M = 8060942) (h : Keeps M s t) : KeepsOut M s (execCheckerRawRead a1 t) := by
  unfold execCheckerRawRead
  try dsimp only
  repeat' (first
    | with_reducible assumption
    | with_reducible exact Keeps.refl _ _
    | ((with_reducible refine Keeps.subMask hM ?_); exact rfl)
    | with_reducible apply KeepsOut.next
    | with_reducible apply State.write_keeps
    | with_reducible apply actCheckerRawRead_keeps
    | split
    | with_reducible refine Keeps.fst ‹_ = (_, _)› ?_
    | intro _)

theorem execCheckerRawDone_keeps {M : Nat} {s t : State}
    (hM : 2148401378 &&& M = 2148401378) (h : Keeps M s t) : KeepsOut M s (execCheckerRawDone t) := by
  unfold execCheckerRawDone
  try dsimp only
  repeat' (first
    | with_reducible assumption
    | with_reducible exact Keeps.refl _ _
    | ((with_reducible refine Keeps.subMask hM ?_); exact rfl)
    | with_reducible apply KeepsOut.next
    | with_reducible apply State.setReg_keeps
    | with_reducible apply State.rawDo_keeps
    | (dsimp only [keepsMk]; (with_reducible apply KeepsMk.put ?_ rfl rfl) <;> first | exact Or.inl (Keeps.subBit hM rfl) | exact Or.inr rfl | exact id | skip)
    | split)

end Sys2Proof.Machine
end

