-- ==== Sys2Proof/Laws/Frame6.lean ====
section
/-! SUPPORT. What each operation may change and that it keeps the memory's canonical form: Moves, Observe, Pitches, Power, Principals, Repair, Security. -/

set_option linter.unusedTactic false
set_option linter.unreachableTactic false
set_option linter.unusedVariables false

namespace Sys2Proof.Machine

/-! ### Machine/Moves.lean -/

theorem State.applyMove_keeps {M : Nat} {s t : State} {a1 : _} {a2 : _} {a3 : _}
    (hM : 2169241836 &&& M = 2169241836) (h : Keeps M s t) : Keeps M s (State.applyMove t a1 a2 a3) := by
  unfold State.applyMove
  try dsimp only
  repeat' (first
    | with_reducible assumption
    | with_reducible exact Keeps.refl _ _
    | ((with_reducible refine Keeps.subMask hM ?_); exact rfl)
    | with_reducible apply State.pipePush_keeps
    | with_reducible apply State.storeLine_keeps
    | with_reducible apply State.keyMismatch_keeps
    | with_reducible refine Keeps.foldl ?_ _ ?_
    | with_reducible refine Keeps.foldl_fst ?_ _ ?_
    | with_reducible refine Keeps.foldl_snd ?_ _ ?_
    | (dsimp only [keepsMk]; (with_reducible apply KeepsMk.put ?_ rfl rfl) <;> first | exact Or.inl (Keeps.subBit hM rfl) | exact Or.inr rfl | exact id | skip)
    | split
    | with_reducible refine Keeps.fst ‹_ = (_, _)› ?_
    | intro _)

theorem State.sendMoveAck_keeps {M : Nat} {s t : State} {a1 : _} {a2 : _}
    (hM : 4194308 &&& M = 4194308) (h : Keeps M s t) : Keeps M s (State.sendMoveAck t a1 a2) := by
  unfold State.sendMoveAck
  try dsimp only
  repeat' (first
    | with_reducible assumption
    | with_reducible exact Keeps.refl _ _
    | with_reducible apply State.transmit_keeps
    | split)

theorem State.endMoveIn_keeps {M : Nat} {s t : State} {a1 : _} {a2 : _}
    (hM : 4980746 &&& M = 4980746) (h : Keeps M s t) : Keeps M s (State.endMoveIn t a1 a2) := by
  unfold State.endMoveIn
  try dsimp only
  repeat' (first
    | with_reducible assumption
    | with_reducible exact Keeps.refl _ _
    | ((with_reducible refine Keeps.subMask hM ?_); exact rfl)
    | with_reducible apply State.crier_keeps
    | with_reducible apply State.setReg_keeps
    | (dsimp only [keepsMk]; (with_reducible apply KeepsMk.put ?_ rfl rfl) <;> first | exact Or.inl (Keeps.subBit hM rfl) | exact Or.inr rfl | exact id | skip))

theorem State.tryEndMoveIn_keeps {M : Nat} {s t : State} {a1 : _}
    (hM : 4980750 &&& M = 4980750) (h : Keeps M s t) : Keeps M s (State.tryEndMoveIn t a1) := by
  unfold State.tryEndMoveIn
  try dsimp only
  repeat' (first
    | with_reducible assumption
    | with_reducible exact Keeps.refl _ _
    | ((with_reducible refine Keeps.subMask hM ?_); exact rfl)
    | with_reducible apply State.sendMoveAck_keeps
    | with_reducible apply State.endMoveIn_keeps
    | split)

theorem State.applyMoves_keeps {M : Nat} {s t : State} {a1 : _} {a2 : _}
    (hM : 2169241838 &&& M = 2169241838) (h : Keeps M s t) : Keeps M s (State.applyMoves a1 a2 t) := by
  induction a2 generalizing t a1 with
  | zero =>
    unfold State.applyMoves
    try dsimp only
    repeat' (first
      | with_reducible assumption)
  | succ n ih =>
    unfold State.applyMoves
    try dsimp only
    repeat' (first
      | with_reducible assumption
      | with_reducible exact Keeps.refl _ _
      | ((with_reducible refine Keeps.subMask hM ?_); exact rfl)
      | with_reducible apply ih
      | with_reducible apply State.tryEndMoveIn_keeps
      | with_reducible apply State.applyMove_keeps
      | split)

theorem actMoveLinksWrite_keeps {M : Nat} {s t : State} {a1 : _}
    (hM : 262146 &&& M = 262146) (h : Keeps M s t) : Keeps M s (actMoveLinksWrite a1 t).1 := by
  unfold actMoveLinksWrite
  try dsimp only
  repeat' (first
    | with_reducible assumption
    | with_reducible exact Keeps.refl _ _
    | with_reducible apply storeEntry_keeps
    | split)

theorem actMoveInOpen_keeps {M : Nat} {s t : State} {a1 : _}
    (hM : 4980774 &&& M = 4980774) (h : Keeps M s t) : Keeps M s (actMoveInOpen a1 t).1 := by
  unfold actMoveInOpen
  try dsimp only
  repeat' (first
    | with_reducible assumption
    | with_reducible exact Keeps.refl _ _
    | ((with_reducible refine Keeps.subMask hM ?_); exact rfl)
    | with_reducible apply State.setGranule_keeps
    | with_reducible apply State.setReg_keeps
    | with_reducible refine Keeps.foldl ?_ _ ?_
    | with_reducible refine Keeps.foldl_fst ?_ _ ?_
    | with_reducible refine Keeps.foldl_snd ?_ _ ?_
    | (dsimp only [keepsMk]; (with_reducible apply KeepsMk.put ?_ rfl rfl) <;> first | exact Or.inl (Keeps.subBit hM rfl) | exact Or.inr rfl | exact id | skip)
    | split
    | with_reducible refine Keeps.fst ‹_ = (_, _)› ?_
    | intro _)

theorem actMoveInCancel_keeps {M : Nat} {s t : State} {a1 : _}
    (hM : 139198474 &&& M = 139198474) (h : Keeps M s t) : Keeps M s (actMoveInCancel a1 t).1 := by
  unfold actMoveInCancel
  try dsimp only
  repeat' (first
    | with_reducible assumption
    | with_reducible exact Keeps.refl _ _
    | ((with_reducible refine Keeps.subMask hM ?_); exact rfl)
    | with_reducible apply State.endMoveIn_keeps
    | with_reducible apply State.takeFresh_keeps
    | split)

theorem actMoveOutStart_keeps {M : Nat} {s t : State} {a1 : _}
    (hM : 262146 &&& M = 262146) (h : Keeps M s t) : Keeps M s (actMoveOutStart a1 t).1 := by
  unfold actMoveOutStart
  try dsimp only
  repeat' (first
    | with_reducible assumption
    | with_reducible exact Keeps.refl _ _
    | ((with_reducible refine Keeps.subMask hM ?_); exact rfl)
    | with_reducible apply State.setReg_keeps
    | (dsimp only [keepsMk]; (with_reducible apply KeepsMk.put ?_ rfl rfl) <;> first | exact Or.inl (Keeps.subBit hM rfl) | exact Or.inr rfl | exact id | skip)
    | split)

theorem actMoveOutStop_keeps {M : Nat} {s t : State} {a1 : _}
    (hM : 4980746 &&& M = 4980746) (h : Keeps M s t) : Keeps M s (actMoveOutStop a1 t).1 := by
  unfold actMoveOutStop
  try dsimp only
  repeat' (first
    | with_reducible assumption
    | with_reducible exact Keeps.refl _ _
    | with_reducible apply State.endMoveOut_keeps)

theorem State.sendMoveEnd_keeps {M : Nat} {s t : State} {a1 : _}
    (hM : 4456452 &&& M = 4456452) (h : Keeps M s t) : Keeps M s (State.sendMoveEnd t a1) := by
  unfold State.sendMoveEnd
  try dsimp only
  repeat' (first
    | with_reducible assumption
    | with_reducible exact Keeps.refl _ _
    | ((with_reducible refine Keeps.subMask hM ?_); exact rfl)
    | with_reducible apply State.transmit_keeps
    | (dsimp only [keepsMk]; (with_reducible apply KeepsMk.put ?_ rfl rfl) <;> first | exact Or.inl (Keeps.subBit hM rfl) | exact Or.inr rfl | exact id | skip)
    | split)

theorem execMoveWrite_keeps {M : Nat} {s t : State} {a1 : _}
    (hM : 2169241838 &&& M = 2169241838) (h : Keeps M s t) : KeepsOut M s (execMoveWrite a1 t) := by
  unfold execMoveWrite
  try dsimp only
  repeat' (first
    | with_reducible assumption
    | with_reducible exact Keeps.refl _ _
    | ((with_reducible refine Keeps.subMask hM ?_); exact rfl)
    | with_reducible apply KeepsOut.next
    | with_reducible apply State.count_keeps
    | with_reducible apply State.applyMoves_keeps
    | (dsimp only [keepsMk]; (with_reducible apply KeepsMk.put ?_ rfl rfl) <;> first | exact Or.inl (Keeps.subBit hM rfl) | exact Or.inr rfl | exact id | skip)
    | split)

theorem execMoveAck_keeps {M : Nat} {s t : State} {a1 : _}
    (hM : 4980750 &&& M = 4980750) (h : Keeps M s t) : KeepsOut M s (execMoveAck a1 t) := by
  unfold execMoveAck
  try dsimp only
  repeat' (first
    | with_reducible assumption
    | with_reducible exact Keeps.refl _ _
    | ((with_reducible refine Keeps.subMask hM ?_); exact rfl)
    | with_reducible apply KeepsOut.next
    | with_reducible apply State.endMoveOut_keeps
    | with_reducible apply State.sendMoveEnd_keeps
    | with_reducible refine Keeps.foldl ?_ _ ?_
    | with_reducible refine Keeps.foldl_fst ?_ _ ?_
    | with_reducible refine Keeps.foldl_snd ?_ _ ?_
    | (dsimp only [keepsMk]; (with_reducible apply KeepsMk.put ?_ rfl rfl) <;> first | exact Or.inl (Keeps.subBit hM rfl) | exact Or.inr rfl | exact id | skip)
    | split)

theorem execMoveEnd_keeps {M : Nat} {s t : State} {a1 : _}
    (hM : 4980750 &&& M = 4980750) (h : Keeps M s t) : KeepsOut M s (execMoveEnd a1 t) := by
  unfold execMoveEnd
  try dsimp only
  repeat' (first
    | with_reducible assumption
    | with_reducible exact Keeps.refl _ _
    | ((with_reducible refine Keeps.subMask hM ?_); exact rfl)
    | with_reducible apply KeepsOut.next
    | with_reducible apply State.count_keeps
    | with_reducible apply State.tryEndMoveIn_keeps
    | (dsimp only [keepsMk]; (with_reducible apply KeepsMk.put ?_ rfl rfl) <;> first | exact Or.inl (Keeps.subBit hM rfl) | exact Or.inr rfl | exact id | skip)
    | split)

theorem execMoveAckSend_keeps {M : Nat} {s t : State}
    (hM : 4194308 &&& M = 4194308) (h : Keeps M s t) : KeepsOut M s (execMoveAckSend t) := by
  unfold execMoveAckSend
  try dsimp only
  repeat' (first
    | with_reducible assumption
    | with_reducible exact Keeps.refl _ _
    | with_reducible apply KeepsOut.next
    | with_reducible apply State.sendMoveAck_keeps
    | split)

theorem execMoveWriteSend_keeps {M : Nat} {s t : State}
    (hM : 2169241804 &&& M = 2169241804) (h : Keeps M s t) : KeepsOut M s (execMoveWriteSend t) := by
  unfold execMoveWriteSend
  apply KeepsOut.next
  split
  · exact h
  · split
    · split
      · exact State.sendMoveEnd_keeps (Keeps.subMask hM rfl) h
      · exact h
    · split
      · exact h
      · split
        · exact h
        · next m _ _ _ _ r _ =>
          extract_lets slot pkt
          split
          · exact h
          · exact Keeps.setPair (State.transmit_keeps (Keeps.subMask hM rfl)
              (State.readRun_keeps (Keeps.subMask hM rfl) (State.pipePush_keeps (Keeps.subMask hM rfl) h))) _
              (Keeps.subBit hM rfl)

theorem execMoveInOpen_keeps {M : Nat} {s t : State} {a1 : _}
    (hM : 8192046 &&& M = 8192046) (h : Keeps M s t) : KeepsOut M s (execMoveInOpen a1 t) := by
  unfold execMoveInOpen
  try dsimp only
  repeat' (first
    | with_reducible assumption
    | with_reducible exact Keeps.refl _ _
    | ((with_reducible refine Keeps.subMask hM ?_); exact rfl)
    | with_reducible apply KeepsOut.next
    | with_reducible apply State.write_keeps
    | with_reducible apply actMoveInOpen_keeps
    | split
    | with_reducible refine Keeps.fst ‹_ = (_, _)› ?_
    | intro _)

theorem execMoveInCancel_keeps {M : Nat} {s t : State} {a1 : _}
    (hM : 142409742 &&& M = 142409742) (h : Keeps M s t) : KeepsOut M s (execMoveInCancel a1 t) := by
  unfold execMoveInCancel
  try dsimp only
  repeat' (first
    | with_reducible assumption
    | with_reducible exact Keeps.refl _ _
    | ((with_reducible refine Keeps.subMask hM ?_); exact rfl)
    | with_reducible apply KeepsOut.next
    | with_reducible apply State.write_keeps
    | with_reducible apply actMoveInCancel_keeps
    | split
    | with_reducible refine Keeps.fst ‹_ = (_, _)› ?_
    | intro _)

theorem execMoveOutStart_keeps {M : Nat} {s t : State} {a1 : _}
    (hM : 8192014 &&& M = 8192014) (h : Keeps M s t) : KeepsOut M s (execMoveOutStart a1 t) := by
  unfold execMoveOutStart
  try dsimp only
  repeat' (first
    | with_reducible assumption
    | with_reducible exact Keeps.refl _ _
    | ((with_reducible refine Keeps.subMask hM ?_); exact rfl)
    | with_reducible apply KeepsOut.next
    | with_reducible apply State.write_keeps
    | with_reducible apply actMoveOutStart_keeps
    | split
    | with_reducible refine Keeps.fst ‹_ = (_, _)› ?_
    | intro _)

theorem execMoveOutStop_keeps {M : Nat} {s t : State} {a1 : _}
    (hM : 8192014 &&& M = 8192014) (h : Keeps M s t) : KeepsOut M s (execMoveOutStop a1 t) := by
  unfold execMoveOutStop
  try dsimp only
  repeat' (first
    | with_reducible assumption
    | with_reducible exact Keeps.refl _ _
    | ((with_reducible refine Keeps.subMask hM ?_); exact rfl)
    | with_reducible apply KeepsOut.next
    | with_reducible apply State.write_keeps
    | with_reducible apply actMoveOutStop_keeps
    | split
    | with_reducible refine Keeps.fst ‹_ = (_, _)› ?_
    | intro _)

theorem execMoveProgressTimeout_keeps {M : Nat} {s t : State}
    (hM : 4980746 &&& M = 4980746) (h : Keeps M s t) : KeepsOut M s (execMoveProgressTimeout t) := by
  unfold execMoveProgressTimeout
  try dsimp only
  repeat' (first
    | with_reducible assumption
    | with_reducible exact Keeps.refl _ _
    | with_reducible apply KeepsOut.next
    | with_reducible apply State.endMoveOut_keeps)

theorem execMoveLinksWrite_keeps {M : Nat} {s t : State} {a1 : _} {a2 : _}
    (hM : 8192014 &&& M = 8192014) (h : Keeps M s t) : KeepsOut M s (execMoveLinksWrite a1 a2 t) := by
  unfold execMoveLinksWrite
  try dsimp only
  repeat' (first
    | with_reducible assumption
    | with_reducible exact Keeps.refl _ _
    | ((with_reducible refine Keeps.subMask hM ?_); exact rfl)
    | with_reducible apply KeepsOut.next
    | with_reducible apply State.write_keeps
    | with_reducible apply actMoveLinksWrite_keeps
    | split
    | with_reducible refine Keeps.fst ‹_ = (_, _)› ?_
    | intro _)

/-! ### Machine/Observe.lean -/

theorem State.clearTallies_keeps {M : Nat} {s t : State} {a1 : _} {a2 : _}
    (hM : 4194304 &&& M = 4194304) (h : Keeps M s t) : Keeps M s (State.clearTallies t a1 a2) := by
  unfold State.clearTallies
  try dsimp only
  repeat' (first
    | with_reducible assumption
    | with_reducible exact Keeps.refl _ _
    | with_reducible apply State.resetTally_keeps
    | with_reducible refine Keeps.foldl ?_ _ ?_
    | with_reducible refine Keeps.foldl_fst ?_ _ ?_
    | with_reducible refine Keeps.foldl_snd ?_ _ ?_
    | split
    | with_reducible refine Keeps.fst ‹_ = (_, _)› ?_
    | intro _)

theorem State.endCopy_keeps {M : Nat} {s t : State} {a1 : _} {a2 : _}
    (hM : 4194304 &&& M = 4194304) (h : Keeps M s t) : Keeps M s (State.endCopy t a1 a2) := by
  unfold State.endCopy
  try dsimp only
  repeat' (first
    | with_reducible assumption
    | with_reducible exact Keeps.refl _ _
    | with_reducible apply State.count_keeps
    | (dsimp only [keepsMk]; (with_reducible apply KeepsMk.put ?_ rfl rfl) <;> first | exact Or.inl (Keeps.subBit hM rfl) | exact Or.inr rfl | exact id | skip)
    | split)

theorem actTallyClear_keeps {M : Nat} {s t : State} {a1 : _}
    (hM : 4194304 &&& M = 4194304) (h : Keeps M s t) : Keeps M s (actTallyClear a1 t).1 := by
  unfold actTallyClear
  try dsimp only
  repeat' (first
    | with_reducible assumption
    | with_reducible exact Keeps.refl _ _
    | with_reducible apply State.clearTallies_keeps
    | split)

theorem actHoistNow_keeps {M : Nat} {s t : State} {a1 : _}
    (hM : 4718600 &&& M = 4718600) (h : Keeps M s t) : Keeps M s (actHoistNow a1 t).1 := by
  unfold actHoistNow
  try dsimp only
  repeat' (first
    | with_reducible assumption
    | with_reducible exact Keeps.refl _ _
    | with_reducible apply State.hoist_keeps)

theorem actHoistRelease_keeps {M : Nat} {s t : State} {a1 : _}
    (hM : 4194304 &&& M = 4194304) (h : Keeps M s t) : Keeps M s (actHoistRelease a1 t).1 := by
  unfold actHoistRelease
  try dsimp only
  repeat' (first
    | with_reducible assumption
    | with_reducible exact Keeps.refl _ _
    | (dsimp only [keepsMk]; (with_reducible apply KeepsMk.put ?_ rfl rfl) <;> first | exact Or.inl (Keeps.subBit hM rfl) | exact Or.inr rfl | exact id | skip))

theorem actCrierAckedWrite_keeps {M : Nat} {s t : State} {a1 : _}
    (hM : 2 &&& M = 2) (h : Keeps M s t) : Keeps M s (actCrierAckedWrite a1 t).1 := by
  unfold actCrierAckedWrite
  try dsimp only
  repeat' (first
    | with_reducible assumption
    | with_reducible exact Keeps.refl _ _
    | with_reducible apply State.setReg_keeps
    | split)

theorem State.setTrace_keeps {M : Nat} {s t : State} {a1 : _}
    (hM : 4194306 &&& M = 4194306) (h : Keeps M s t) : Keeps M s (State.setTrace t a1) := by
  unfold State.setTrace
  try dsimp only
  repeat' (first
    | with_reducible assumption
    | with_reducible exact Keeps.refl _ _
    | ((with_reducible refine Keeps.subMask hM ?_); exact rfl)
    | with_reducible apply State.setReg_keeps
    | with_reducible refine Keeps.foldl ?_ _ ?_
    | with_reducible refine Keeps.foldl_fst ?_ _ ?_
    | with_reducible refine Keeps.foldl_snd ?_ _ ?_
    | (dsimp only [keepsMk]; (with_reducible apply KeepsMk.put ?_ rfl rfl) <;> first | exact Or.inl (Keeps.subBit hM rfl) | exact Or.inr rfl | exact id | skip))

theorem actTraceCtrlWrite_keeps {M : Nat} {s t : State} {a1 : _}
    (hM : 4194306 &&& M = 4194306) (h : Keeps M s t) : Keeps M s (actTraceCtrlWrite a1 t).1 := by
  unfold actTraceCtrlWrite
  try dsimp only
  repeat' (first
    | with_reducible assumption
    | with_reducible exact Keeps.refl _ _
    | with_reducible apply State.setTrace_keeps
    | split)

theorem execCrierNotifyResponse_keeps {M : Nat} {s t : State} {a1 : _}
    (hM : 4194304 &&& M = 4194304) (h : Keeps M s t) : KeepsOut M s (execCrierNotifyResponse a1 t) := by
  unfold execCrierNotifyResponse
  try dsimp only
  repeat' (first
    | with_reducible assumption
    | with_reducible exact Keeps.refl _ _
    | with_reducible apply KeepsOut.next
    | with_reducible apply State.endCopy_keeps
    | split)

theorem execTallyClear_keeps {M : Nat} {s t : State} {a1 : _} {a2 : _}
    (hM : 7929868 &&& M = 7929868) (h : Keeps M s t) : KeepsOut M s (execTallyClear a1 a2 t) := by
  unfold execTallyClear
  try dsimp only
  repeat' (first
    | with_reducible assumption
    | with_reducible exact Keeps.refl _ _
    | ((with_reducible refine Keeps.subMask hM ?_); exact rfl)
    | with_reducible apply KeepsOut.next
    | with_reducible apply State.write_keeps
    | with_reducible apply actTallyClear_keeps
    | split
    | with_reducible refine Keeps.fst ‹_ = (_, _)› ?_
    | intro _)

theorem execHoistNow_keeps {M : Nat} {s t : State} {a1 : _} {a2 : _}
    (hM : 7929868 &&& M = 7929868) (h : Keeps M s t) : KeepsOut M s (execHoistNow a1 a2 t) := by
  unfold execHoistNow
  try dsimp only
  repeat' (first
    | with_reducible assumption
    | with_reducible exact Keeps.refl _ _
    | ((with_reducible refine Keeps.subMask hM ?_); exact rfl)
    | with_reducible apply KeepsOut.next
    | with_reducible apply State.write_keeps
    | with_reducible apply actHoistNow_keeps
    | split
    | with_reducible refine Keeps.fst ‹_ = (_, _)› ?_
    | intro _)

theorem execHoistIn_keeps {M : Nat} {s t : State}
    (hM : 4718600 &&& M = 4718600) (h : Keeps M s t) : KeepsOut M s (execHoistIn t) := by
  unfold execHoistIn
  try dsimp only
  repeat' (first
    | with_reducible assumption
    | with_reducible exact Keeps.refl _ _
    | with_reducible apply KeepsOut.next
    | with_reducible apply State.hoist_keeps
    | (dsimp only [keepsMk]; (with_reducible apply KeepsMk.put ?_ rfl rfl) <;> first | exact Or.inl (Keeps.subBit hM rfl) | exact Or.inr rfl | exact id | skip)
    | split)

theorem execHoistRelease_keeps {M : Nat} {s t : State} {a1 : _} {a2 : _}
    (hM : 7929868 &&& M = 7929868) (h : Keeps M s t) : KeepsOut M s (execHoistRelease a1 a2 t) := by
  unfold execHoistRelease
  try dsimp only
  repeat' (first
    | with_reducible assumption
    | with_reducible exact Keeps.refl _ _
    | ((with_reducible refine Keeps.subMask hM ?_); exact rfl)
    | with_reducible apply KeepsOut.next
    | with_reducible apply State.write_keeps
    | with_reducible apply actHoistRelease_keeps
    | split
    | with_reducible refine Keeps.fst ‹_ = (_, _)› ?_
    | intro _)

theorem execCrierNotifySend_keeps {M : Nat} {s t : State} {a1 : _}
    (hM : 4260364 &&& M = 4260364) (h : Keeps M s t) : KeepsOut M s (execCrierNotifySend a1 t) := by
  unfold execCrierNotifySend
  try dsimp only
  repeat' (first
    | with_reducible assumption
    | with_reducible exact Keeps.refl _ _
    | ((with_reducible refine Keeps.subMask hM ?_); exact rfl)
    | with_reducible apply KeepsOut.next
    | with_reducible apply State.spray_keeps
    | with_reducible apply State.takeTag_keeps
    | with_reducible apply State.updStall_keeps
    | (dsimp only [keepsMk]; (with_reducible apply KeepsMk.put ?_ rfl rfl) <;> first | exact Or.inl (Keeps.subBit hM rfl) | exact Or.inr rfl | exact id | skip)
    | exact Or.inl (Keeps.subBit hM rfl)
    | exact Or.inr fun _ => rfl
    | split
    | with_reducible refine Keeps.fst ‹_ = (_, _)› ?_)

theorem execCrierNotifyTimeout_keeps {M : Nat} {s t : State} {a1 : _}
    (hM : 4194304 &&& M = 4194304) (h : Keeps M s t) : KeepsOut M s (execCrierNotifyTimeout a1 t) := by
  unfold execCrierNotifyTimeout
  try dsimp only
  repeat' (first
    | with_reducible assumption
    | with_reducible exact Keeps.refl _ _
    | with_reducible apply KeepsOut.next
    | with_reducible apply State.endCopy_keeps
    | split)

theorem execCrierAckedWrite_keeps {M : Nat} {s t : State} {a1 : _} {a2 : _}
    (hM : 7929870 &&& M = 7929870) (h : Keeps M s t) : KeepsOut M s (execCrierAckedWrite a1 a2 t) := by
  unfold execCrierAckedWrite
  try dsimp only
  repeat' (first
    | with_reducible assumption
    | with_reducible exact Keeps.refl _ _
    | ((with_reducible refine Keeps.subMask hM ?_); exact rfl)
    | with_reducible apply KeepsOut.next
    | with_reducible apply State.write_keeps
    | with_reducible apply actCrierAckedWrite_keeps
    | split
    | with_reducible refine Keeps.fst ‹_ = (_, _)› ?_
    | intro _)

theorem execTraceCtrlWrite_keeps {M : Nat} {s t : State} {a1 : _} {a2 : _}
    (hM : 7929870 &&& M = 7929870) (h : Keeps M s t) : KeepsOut M s (execTraceCtrlWrite a1 a2 t) := by
  unfold execTraceCtrlWrite
  try dsimp only
  repeat' (first
    | with_reducible assumption
    | with_reducible exact Keeps.refl _ _
    | ((with_reducible refine Keeps.subMask hM ?_); exact rfl)
    | with_reducible apply KeepsOut.next
    | with_reducible apply State.write_keeps
    | with_reducible apply actTraceCtrlWrite_keeps
    | split
    | with_reducible refine Keeps.fst ‹_ = (_, _)› ?_
    | intro _)

theorem execTraceRecord_keeps {M : Nat} {s t : State} {a1 : _} {a2 : _} {a3 : _}
    (hM : 4194304 &&& M = 4194304) (h : Keeps M s t) : KeepsOut M s (execTraceRecord a1 a2 a3 t) := by
  unfold execTraceRecord
  try dsimp only
  repeat' (first
    | with_reducible assumption
    | with_reducible exact Keeps.refl _ _
    | with_reducible apply KeepsOut.next
    | (dsimp only [keepsMk]; (with_reducible apply KeepsMk.put ?_ rfl rfl) <;> first | exact Or.inl (Keeps.subBit hM rfl) | exact Or.inr rfl | exact id | skip)
    | split)

/-! ### Machine/Pitches.lean -/

theorem State.writeAcl_keeps {M : Nat} {s t : State} {a1 : _} {a2 : _}
    (hM : 4456484 &&& M = 4456484) (h : Keeps M s t) : Keeps M s (State.writeAcl a1 a2 t).1 := by
  unfold State.writeAcl
  try dsimp only
  repeat' (first
    | with_reducible assumption
    | with_reducible exact Keeps.refl _ _
    | ((with_reducible refine Keeps.subMask hM ?_); exact rfl)
    | with_reducible apply State.tellAcl_keeps
    | (dsimp only [keepsMk]; (with_reducible apply KeepsMk.put ?_ rfl rfl) <;> first | exact Or.inl (Keeps.subBit hM rfl) | exact Or.inr rfl | exact id | skip)
    | split)

theorem actGrant_keeps {M : Nat} {s t : State} {a1 : _}
    (hM : 34 &&& M = 34) (h : Keeps M s t) : Keeps M s (actGrant a1 t).1 := by
  unfold actGrant
  try dsimp only
  repeat' (first
    | with_reducible assumption
    | with_reducible exact Keeps.refl _ _
    | ((with_reducible refine Keeps.subMask hM ?_); exact rfl)
    | with_reducible apply State.setReg_keeps
    | (dsimp only [keepsMk]; (with_reducible apply KeepsMk.put ?_ rfl rfl) <;> first | exact Or.inl (Keeps.subBit hM rfl) | exact Or.inr rfl | exact id | skip)
    | split)

theorem actRevoke_keeps {M : Nat} {s t : State} {a1 : _}
    (hM : 3780974574 &&& M = 3780974574) (h : Keeps M s t) : Keeps M s (actRevoke a1 t).1 := by
  unfold actRevoke
  try dsimp only
  repeat' (first
    | with_reducible assumption
    | with_reducible exact Keeps.refl _ _
    | ((with_reducible refine Keeps.subMask hM ?_); exact rfl)
    | with_reducible apply State.setReg_keeps
    | with_reducible apply State.startRevoke_keeps
    | split
    | with_reducible refine Keeps.fst ‹_ = (_, _)› ?_)

theorem actClear_keeps {M : Nat} {s t : State} {a1 : _}
    (hM : 2169241838 &&& M = 2169241838) (h : Keeps M s t) : Keeps M s (actClear a1 t).1 := by
  unfold actClear
  try dsimp only
  repeat' (first
    | with_reducible assumption
    | with_reducible exact Keeps.refl _ _
    | ((with_reducible refine Keeps.subMask hM ?_); exact rfl)
    | with_reducible apply State.setReg_keeps
    | with_reducible apply State.endMoveOut_keeps
    | with_reducible apply State.clearAll_keeps
    | (dsimp only [keepsMk]; (with_reducible apply KeepsMk.put ?_ rfl rfl) <;> first | exact Or.inl (Keeps.subBit hM rfl) | exact Or.inr rfl | exact id | skip)
    | split)

theorem State.grantOne_keeps {M : Nat} {s t : State} {a1 : _} {a2 : _}
    (hM : 4980772 &&& M = 4980772) (h : Keeps M s t) : Keeps M s (State.grantOne t a1 a2).1 := by
  unfold State.grantOne
  try dsimp only
  repeat' (first
    | with_reducible assumption
    | with_reducible exact Keeps.refl _ _
    | with_reducible apply State.setGranule_keeps)

theorem State.grantRest_keeps {M : Nat} {s t : State} {a1 : _}
    (hM : 4980772 &&& M = 4980772) (h : Keeps M s t) : Keeps M s (State.grantRest t a1).1 := by
  unfold State.grantRest
  try dsimp only
  repeat' (first
    | with_reducible assumption
    | with_reducible exact Keeps.refl _ _
    | with_reducible apply State.grantOne_keeps
    | with_reducible refine Keeps.foldl ?_ _ ?_
    | with_reducible refine Keeps.foldl_fst ?_ _ ?_
    | with_reducible refine Keeps.foldl_snd ?_ _ ?_
    | split
    | with_reducible refine Keeps.fst ‹_ = (_, _)› ?_
    | intro _)

theorem execGrant_keeps {M : Nat} {s t : State} {a1 : _} {a2 : _}
    (hM : 7929902 &&& M = 7929902) (h : Keeps M s t) : KeepsOut M s (execGrant a1 a2 t) := by
  unfold execGrant
  try dsimp only
  repeat' (first
    | with_reducible assumption
    | with_reducible exact Keeps.refl _ _
    | ((with_reducible refine Keeps.subMask hM ?_); exact rfl)
    | with_reducible apply KeepsOut.next
    | with_reducible apply State.write_keeps
    | with_reducible apply actGrant_keeps
    | split
    | with_reducible refine Keeps.fst ‹_ = (_, _)› ?_
    | intro _)

theorem execGrantComplete_keeps {M : Nat} {s t : State}
    (hM : 6029350 &&& M = 6029350) (h : Keeps M s t) : KeepsOut M s (execGrantComplete t) := by
  unfold execGrantComplete
  try dsimp only
  repeat' (first
    | with_reducible assumption
    | with_reducible exact Keeps.refl _ _
    | ((with_reducible refine Keeps.subMask hM ?_); exact rfl)
    | with_reducible apply KeepsOut.next
    | with_reducible apply State.grantRest_keeps
    | with_reducible apply State.ledger_keeps
    | with_reducible apply State.setReg_keeps
    | (dsimp only [keepsMk]; (with_reducible apply KeepsMk.put ?_ rfl rfl) <;> first | exact Or.inl (Keeps.subBit hM rfl) | exact Or.inr rfl | exact id | skip)
    | split)

theorem execRevoke_keeps {M : Nat} {s t : State} {a1 : _} {a2 : _}
    (hM : 3783071726 &&& M = 3783071726) (h : Keeps M s t) : KeepsOut M s (execRevoke a1 a2 t) := by
  unfold execRevoke
  try dsimp only
  repeat' (first
    | with_reducible assumption
    | with_reducible exact Keeps.refl _ _
    | ((with_reducible refine Keeps.subMask hM ?_); exact rfl)
    | with_reducible apply KeepsOut.next
    | with_reducible apply State.write_keeps
    | with_reducible apply actRevoke_keeps
    | split
    | with_reducible refine Keeps.fst ‹_ = (_, _)› ?_
    | intro _)

theorem execRevokeDeadlineExpiry_keeps {M : Nat} {s t : State} {a1 : _}
    (hM : 3780969452 &&& M = 3780969452) (h : Keeps M s t) : KeepsOut M s (execRevokeDeadlineExpiry a1 t) := by
  unfold execRevokeDeadlineExpiry
  try dsimp only
  repeat' (first
    | with_reducible assumption
    | with_reducible exact Keeps.refl _ _
    | with_reducible apply KeepsOut.next
    | with_reducible apply State.expireRevoke_keeps
    | split)

theorem execRevokeDone_keeps {M : Nat} {s t : State} {a1 : _}
    (hM : 3780974574 &&& M = 3780974574) (h : Keeps M s t) : KeepsOut M s (execRevokeDone a1 t) := by
  unfold execRevokeDone
  try dsimp only
  repeat' (first
    | with_reducible assumption
    | with_reducible exact Keeps.refl _ _
    | ((with_reducible refine Keeps.subMask hM ?_); exact rfl)
    | with_reducible apply KeepsOut.next
    | with_reducible apply State.issueRetire_keeps
    | with_reducible apply State.finishRevoke_keeps
    | split)

theorem execClear_keeps {M : Nat} {s t : State} {a1 : _} {a2 : _}
    (hM : 2172453102 &&& M = 2172453102) (h : Keeps M s t) : KeepsOut M s (execClear a1 a2 t) := by
  unfold execClear
  try dsimp only
  repeat' (first
    | with_reducible assumption
    | with_reducible exact Keeps.refl _ _
    | ((with_reducible refine Keeps.subMask hM ?_); exact rfl)
    | with_reducible apply KeepsOut.next
    | with_reducible apply State.write_keeps
    | with_reducible apply actClear_keeps
    | split
    | with_reducible refine Keeps.fst ‹_ = (_, _)› ?_
    | intro _)

theorem execClearDone_keeps {M : Nat} {s t : State}
    (hM : 2169241830 &&& M = 2169241830) (h : Keeps M s t) : KeepsOut M s (execClearDone t) := by
  unfold execClearDone
  try dsimp only
  repeat' (first
    | with_reducible assumption
    | with_reducible exact Keeps.refl _ _
    | ((with_reducible refine Keeps.subMask hM ?_); exact rfl)
    | with_reducible apply KeepsOut.next
    | with_reducible apply State.clearAll_keeps
    | with_reducible apply State.setReg_keeps
    | (dsimp only [keepsMk]; (with_reducible apply KeepsMk.put ?_ rfl rfl) <;> first | exact Or.inl (Keeps.subBit hM rfl) | exact Or.inr rfl | exact id | skip)
    | split)

theorem execAclTableWrite_keeps {M : Nat} {s t : State} {a1 : _} {a2 : _} {a3 : _}
    (hM : 8192044 &&& M = 8192044) (h : Keeps M s t) : KeepsOut M s (execAclTableWrite a1 a2 a3 t) := by
  unfold execAclTableWrite
  try dsimp only
  repeat' (first
    | with_reducible assumption
    | with_reducible exact Keeps.refl _ _
    | ((with_reducible refine Keeps.subMask hM ?_); exact rfl)
    | with_reducible apply KeepsOut.next
    | with_reducible apply State.writeWindow_keeps
    | with_reducible apply State.writeAcl_keeps
    | split
    | with_reducible refine Keeps.fst ‹_ = (_, _)› ?_
    | intro _)

/-! ### Machine/Power.lean -/

theorem State.coreRampDone_keeps {M : Nat} {s t : State}
    (hM : 29360128 &&& M = 29360128) (h : Keeps M s t) : Keeps M s (State.coreRampDone t) := by
  unfold State.coreRampDone
  try dsimp only
  repeat' (first
    | with_reducible assumption
    | with_reducible exact Keeps.refl _ _
    | with_reducible apply State.powerReached_keeps
    | with_reducible apply State.heldPower_keeps
    | (dsimp only [keepsMk]; (with_reducible apply KeepsMk.put ?_ rfl rfl) <;> first | exact Or.inl (Keeps.subBit hM rfl) | exact Or.inr rfl | exact id | skip)
    | split)

theorem actPowerTargetWrite_keeps {M : Nat} {s t : State} {a1 : _}
    (hM : 29360130 &&& M = 29360130) (h : Keeps M s t) : Keeps M s (actPowerTargetWrite a1 t).1 := by
  unfold actPowerTargetWrite
  try dsimp only
  repeat' (first
    | with_reducible assumption
    | with_reducible exact Keeps.refl _ _
    | ((with_reducible refine Keeps.subMask hM ?_); exact rfl)
    | with_reducible apply State.askPower_keeps
    | with_reducible apply State.setReg_keeps)

theorem actLaneParkWrite_keeps {M : Nat} {s t : State} {a1 : _} {a2 : _}
    (hM : 268435462 &&& M = 268435462) (h : Keeps M s t) : Keeps M s (actLaneParkWrite a1 a2 t).1 := by
  unfold actLaneParkWrite
  try dsimp only
  repeat' (first
    | with_reducible assumption
    | with_reducible exact Keeps.refl _ _
    | ((with_reducible refine Keeps.subMask hM ?_); exact rfl)
    | with_reducible apply State.setReg_keeps
    | with_reducible apply State.parkNext_keeps
    | with_reducible apply State.updLink_keeps
    | exact Or.inl (Keeps.subBit hM rfl)
    | exact Or.inr fun _ => rfl
    | split)

theorem State.sliceRampDone_keeps {M : Nat} {s t : State} {a1 : _}
    (hM : 20971584 &&& M = 20971584) (h : Keeps M s t) : Keeps M s (State.sliceRampDone t a1) := by
  unfold State.sliceRampDone
  try dsimp only
  repeat' (first
    | with_reducible assumption
    | with_reducible exact Keeps.refl _ _
    | ((with_reducible refine Keeps.subMask hM ?_); exact rfl)
    | with_reducible apply State.updSlice_keeps
    | with_reducible apply State.wakeSlice_keeps
    | split)

theorem State.vcoreFault_keeps {M : Nat} {s t : State}
    (hM : 13447244 &&& M = 13447244) (h : Keeps M s t) : Keeps M s (State.vcoreFault t) := by
  unfold State.vcoreFault
  try dsimp only
  repeat' (first
    | with_reducible assumption
    | with_reducible exact Keeps.refl _ _
    | ((with_reducible refine Keeps.subMask hM ?_); exact rfl)
    | with_reducible apply State.powerFault_keeps
    | (dsimp only [keepsMk]; (with_reducible apply KeepsMk.put ?_ rfl rfl) <;> first | exact Or.inl (Keeps.subBit hM rfl) | exact Or.inr rfl | exact id | skip))

theorem execPowerOn_keeps {M : Nat} {s t : State}
    (hM : 8455716862 &&& M = 8455716862) (h : Keeps M s t) : KeepsOut M s (execPowerOn t) := by
  unfold execPowerOn
  try dsimp only
  repeat' (first
    | with_reducible assumption
    | with_reducible exact Keeps.refl _ _
    | with_reducible apply KeepsOut.next
    | with_reducible apply State.powerReset_keeps
    | split)

theorem execPowerFailWarning_keeps {M : Nat} {s t : State}
    (hM : 1088237644 &&& M = 1088237644) (h : Keeps M s t) : KeepsOut M s (execPowerFailWarning t) := by
  unfold execPowerFailWarning
  try dsimp only
  repeat' (first
    | with_reducible assumption
    | with_reducible exact Keeps.refl _ _
    | ((with_reducible refine Keeps.subMask hM ?_); exact rfl)
    | with_reducible apply KeepsOut.next
    | with_reducible apply State.powerFault_keeps
    | (dsimp only [keepsMk]; (with_reducible apply KeepsMk.put ?_ rfl rfl) <;> first | exact Or.inl (Keeps.subBit hM rfl) | exact Or.inr rfl | exact id | skip)
    | split)

theorem execPowerRestore_keeps {M : Nat} {s t : State}
    (hM : 8388608 &&& M = 8388608) (h : Keeps M s t) : KeepsOut M s (execPowerRestore t) := by
  unfold execPowerRestore
  try dsimp only
  repeat' (first
    | with_reducible assumption
    | with_reducible exact Keeps.refl _ _
    | with_reducible apply KeepsOut.next
    | (dsimp only [keepsMk]; (with_reducible apply KeepsMk.put ?_ rfl rfl) <;> first | exact Or.inl (Keeps.subBit hM rfl) | exact Or.inr rfl | exact id | skip))

theorem execPowerOff_keeps {M : Nat} {s t : State}
    (hM : 8455716862 &&& M = 8455716862) (h : Keeps M s t) : KeepsOut M s (execPowerOff t) := by
  unfold execPowerOff
  try dsimp only
  repeat' (first
    | with_reducible assumption
    | with_reducible exact Keeps.refl _ _
    | with_reducible apply KeepsOut.next
    | with_reducible apply State.powerReset_keeps
    | (dsimp only [keepsMk]; (with_reducible apply KeepsMk.put ?_ rfl rfl) <;> first | exact Or.inl (Keeps.subBit hM rfl) | exact Or.inr rfl | exact id | skip)
    | split)

theorem execRailFault_keeps {M : Nat} {s t : State} {a1 : _}
    (hM : 8455716862 &&& M = 8455716862) (h : Keeps M s t) : KeepsOut M s (execRailFault a1 t) := by
  unfold execRailFault
  try dsimp only
  repeat' (first
    | with_reducible assumption
    | with_reducible exact Keeps.refl _ _
    | with_reducible apply KeepsOut.next
    | with_reducible apply State.stoppingFault_keeps
    | split)

theorem execPmbusPoll_keeps {M : Nat} {s t : State} {a1 : _} {a2 : _} {a3 : _} {a4 : _}
    (hM : 13447244 &&& M = 13447244) (h : Keeps M s t) : KeepsOut M s (execPmbusPoll a1 a2 a3 a4 t) := by
  unfold execPmbusPoll
  try dsimp only
  repeat' (first
    | with_reducible assumption
    | with_reducible exact Keeps.refl _ _
    | ((with_reducible refine Keeps.subMask hM ?_); exact rfl)
    | with_reducible apply KeepsOut.next
    | with_reducible apply State.powerFault_keeps
    | (dsimp only [keepsMk]; (with_reducible apply KeepsMk.put ?_ rfl rfl) <;> first | exact Or.inl (Keeps.subBit hM rfl) | exact Or.inr rfl | exact id | skip)
    | split)

theorem execVoutAck_keeps {M : Nat} {s t : State}
    (hM : 29360128 &&& M = 29360128) (h : Keeps M s t) : KeepsOut M s (execVoutAck t) := by
  unfold execVoutAck
  try dsimp only
  repeat' (first
    | with_reducible assumption
    | with_reducible exact Keeps.refl _ _
    | ((with_reducible refine Keeps.subMask hM ?_); exact rfl)
    | with_reducible apply KeepsOut.next
    | with_reducible apply State.powerReached_keeps
    | with_reducible apply State.rampCore_keeps
    | (dsimp only [keepsMk]; (with_reducible apply KeepsMk.put ?_ rfl rfl) <;> first | exact Or.inl (Keeps.subBit hM rfl) | exact Or.inr rfl | exact id | skip)
    | split)

theorem execPmbusAckTimeout_keeps {M : Nat} {s t : State}
    (hM : 30224460 &&& M = 30224460) (h : Keeps M s t) : KeepsOut M s (execPmbusAckTimeout t) := by
  unfold execPmbusAckTimeout
  try dsimp only
  repeat' (first
    | with_reducible assumption
    | with_reducible exact Keeps.refl _ _
    | ((with_reducible refine Keeps.subMask hM ?_); exact rfl)
    | with_reducible apply KeepsOut.next
    | with_reducible apply State.vcoreFault_keeps
    | with_reducible apply State.powerReached_keeps
    | (dsimp only [keepsMk]; (with_reducible apply KeepsMk.put ?_ rfl rfl) <;> first | exact Or.inl (Keeps.subBit hM rfl) | exact Or.inr rfl | exact id | skip)
    | split)

theorem execEfuseTrip_keeps {M : Nat} {s t : State} {a1 : _}
    (hM : 3789371374 &&& M = 3789371374) (h : Keeps M s t) : KeepsOut M s (execEfuseTrip a1 t) := by
  unfold execEfuseTrip
  try dsimp only
  repeat' (first
    | with_reducible assumption
    | with_reducible exact Keeps.refl _ _
    | ((with_reducible refine Keeps.subMask hM ?_); exact rfl)
    | with_reducible apply KeepsOut.next
    | with_reducible apply State.channelFaultOn_keeps
    | (dsimp only [keepsMk]; (with_reducible apply KeepsMk.put ?_ rfl rfl) <;> first | exact Or.inl (Keeps.subBit hM rfl) | exact Or.inr rfl | exact id | skip)
    | split)

theorem execPowerTargetWrite_keeps {M : Nat} {s t : State} {a1 : _} {a2 : _}
    (hM : 33095694 &&& M = 33095694) (h : Keeps M s t) : KeepsOut M s (execPowerTargetWrite a1 a2 t) := by
  unfold execPowerTargetWrite
  try dsimp only
  repeat' (first
    | with_reducible assumption
    | with_reducible exact Keeps.refl _ _
    | ((with_reducible refine Keeps.subMask hM ?_); exact rfl)
    | with_reducible apply KeepsOut.next
    | with_reducible apply State.write_keeps
    | with_reducible apply actPowerTargetWrite_keeps
    | split
    | with_reducible refine Keeps.fst ‹_ = (_, _)› ?_
    | intro _)

theorem execClockRampDone_keeps {M : Nat} {s t : State} {a1 : _}
    (hM : 29360192 &&& M = 29360192) (h : Keeps M s t) : KeepsOut M s (execClockRampDone a1 t) := by
  unfold execClockRampDone
  try dsimp only
  repeat' (first
    | with_reducible assumption
    | with_reducible exact Keeps.refl _ _
    | ((with_reducible refine Keeps.subMask hM ?_); exact rfl)
    | with_reducible apply KeepsOut.next
    | with_reducible apply State.sliceRampDone_keeps
    | with_reducible apply State.coreRampDone_keeps
    | split)

theorem execSliceParkEntry_keeps {M : Nat} {s t : State} {a1 : _}
    (hM : 20971584 &&& M = 20971584) (h : Keeps M s t) : KeepsOut M s (execSliceParkEntry a1 t) := by
  unfold execSliceParkEntry
  try dsimp only
  repeat' (first
    | with_reducible assumption
    | with_reducible exact Keeps.refl _ _
    | ((with_reducible refine Keeps.subMask hM ?_); exact rfl)
    | with_reducible apply KeepsOut.next
    | with_reducible apply State.updSlice_keeps
    | with_reducible apply State.beginRamp_keeps
    | split)

theorem execLaneParkWrite_keeps {M : Nat} {s t : State} {a1 : _} {a2 : _} {a3 : _}
    (hM : 276365326 &&& M = 276365326) (h : Keeps M s t) : KeepsOut M s (execLaneParkWrite a1 a2 a3 t) := by
  unfold execLaneParkWrite
  try dsimp only
  repeat' (first
    | with_reducible assumption
    | with_reducible exact Keeps.refl _ _
    | ((with_reducible refine Keeps.subMask hM ?_); exact rfl)
    | with_reducible apply KeepsOut.next
    | with_reducible apply State.write_keeps
    | with_reducible apply actLaneParkWrite_keeps
    | split
    | with_reducible refine Keeps.fst ‹_ = (_, _)› ?_
    | intro _)

theorem execLaneUnparkCheckDone_keeps {M : Nat} {s t : State} {a1 : _}
    (hM : 268435460 &&& M = 268435460) (h : Keeps M s t) : KeepsOut M s (execLaneUnparkCheckDone a1 t) := by
  unfold execLaneUnparkCheckDone
  try dsimp only
  repeat' (first
    | with_reducible assumption
    | with_reducible exact Keeps.refl _ _
    | ((with_reducible refine Keeps.subMask hM ?_); exact rfl)
    | with_reducible apply KeepsOut.next
    | with_reducible apply startChange_keeps
    | with_reducible apply State.updLink_keeps
    | exact Or.inl (Keeps.subBit hM rfl)
    | exact Or.inr fun _ => rfl
    | split)

/-! ### Machine/Principals.lean -/

theorem State.endSessions_keeps {M : Nat} {s t : State} {a1 : _} {a2 : _}
    (hM : 1076887552 &&& M = 1076887552) (h : Keeps M s t) : Keeps M s (State.endSessions t a1 a2) := by
  unfold State.endSessions
  try dsimp only
  repeat' (first
    | with_reducible assumption
    | with_reducible exact Keeps.refl _ _
    | with_reducible refine Keeps.foldl ?_ _ ?_
    | with_reducible refine Keeps.foldl_fst ?_ _ ?_
    | with_reducible refine Keeps.foldl_snd ?_ _ ?_
    | (dsimp only [keepsMk]; (with_reducible apply KeepsMk.put ?_ rfl rfl) <;> first | exact Or.inl (Keeps.subBit hM rfl) | exact Or.inr rfl | exact id | skip)
    | split
    | with_reducible refine Keeps.fst ‹_ = (_, _)› ?_
    | intro _)

theorem State.writePrincipal_keeps {M : Nat} {s t : State} {a1 : _} {a2 : _}
    (hM : 5371854848 &&& M = 5371854848) (h : Keeps M s t) : Keeps M s (State.writePrincipal a1 a2 t).1 := by
  unfold State.writePrincipal
  try dsimp only
  repeat' (first
    | with_reducible assumption
    | with_reducible exact Keeps.refl _ _
    | ((with_reducible refine Keeps.subMask hM ?_); exact rfl)
    | with_reducible apply State.endSessions_keeps
    | (dsimp only [keepsMk]; (with_reducible apply KeepsMk.put ?_ rfl rfl) <;> first | exact Or.inl (Keeps.subBit hM rfl) | exact Or.inr rfl | exact id | skip)
    | split)

theorem execPrincipalTableWrite_keeps {M : Nat} {s t : State} {a1 : _} {a2 : _} {a3 : _}
    (hM : 5376638988 &&& M = 5376638988) (h : Keeps M s t) : KeepsOut M s (execPrincipalTableWrite a1 a2 a3 t) := by
  unfold execPrincipalTableWrite
  try dsimp only
  repeat' (first
    | with_reducible assumption
    | with_reducible exact Keeps.refl _ _
    | ((with_reducible refine Keeps.subMask hM ?_); exact rfl)
    | with_reducible apply KeepsOut.next
    | with_reducible apply State.writeWindow_keeps
    | with_reducible apply State.writePrincipal_keeps
    | split
    | with_reducible refine Keeps.fst ‹_ = (_, _)› ?_
    | intro _)

/-! ### Machine/Repair.lean -/

theorem State.stopForRetire_keeps {M : Nat} {s t : State} {a1 : _} {a2 : _}
    (hM : 1616721388 &&& M = 1616721388) (h : Keeps M s t) : Keeps M s (State.stopForRetire t a1 a2) := by
  unfold State.stopForRetire
  try dsimp only
  repeat' (first
    | with_reducible assumption
    | with_reducible exact Keeps.refl _ _
    | ((with_reducible refine Keeps.subMask hM ?_); exact rfl)
    | with_reducible apply State.fault_keeps
    | with_reducible apply State.updChan_keeps
    | with_reducible apply State.ledger_keeps
    | with_reducible apply State.stopSlice_keeps
    | with_reducible exact ChanSt.wf_wipe _ _ (by assumption)
    | with_reducible exact ChanSt.wf_setLine _ _ _ (by assumption)
    | with_reducible exact Tbl.wf_set _ _ (by assumption)
    | with_reducible exact Tbl.wf_filter _ (by assumption)
    | with_reducible exact Tbl.wf_nil _
    | with_reducible exact State.memOk_chan (by assumption) _
    | split
    | with_reducible refine Keeps.fst ‹_ = (_, _)› ?_
    | intro _)

theorem State.retireUnit_keeps {M : Nat} {s t : State} {a1 : _}
    (hM : 3780982766 &&& M = 3780982766) (h : Keeps M s t) : Keeps M s (State.retireUnit t a1).1 := by
  unfold State.retireUnit
  try dsimp only
  repeat' (first
    | with_reducible assumption
    | with_reducible exact Keeps.refl _ _
    | ((with_reducible refine Keeps.subMask hM ?_); exact rfl)
    | with_reducible apply State.setReg_keeps
    | with_reducible apply State.beginRetire_keeps
    | with_reducible apply State.stopForRetire_keeps
    | split)

theorem State.retireClear_keeps {M : Nat} {s t : State}
    (hM : 2148007938 &&& M = 2148007938) (h : Keeps M s t) : Keeps M s (State.retireClear t).1 := by
  unfold State.retireClear
  try dsimp only
  repeat' (first
    | with_reducible assumption
    | with_reducible exact Keeps.refl _ _
    | ((with_reducible refine Keeps.subMask hM ?_); exact rfl)
    | with_reducible apply State.setReg_keeps
    | (dsimp only [keepsMk]; (with_reducible apply KeepsMk.put ?_ rfl rfl) <;> first | exact Or.inl (Keeps.subBit hM rfl) | exact Or.inr rfl | exact id | skip)
    | split)

theorem State.retireGo_keeps {M : Nat} {s t : State}
    (hM : 3780982766 &&& M = 3780982766) (h : Keeps M s t) : Keeps M s (State.retireGo t).1 := by
  unfold State.retireGo
  try dsimp only
  repeat' (first
    | with_reducible assumption
    | with_reducible exact Keeps.refl _ _
    | ((with_reducible refine Keeps.subMask hM ?_); exact rfl)
    | with_reducible apply State.retireUnit_keeps
    | with_reducible apply State.retireClear_keeps
    | with_reducible apply State.setReg_keeps
    | split)

theorem actRetireGo_keeps {M : Nat} {s t : State} {a1 : _}
    (hM : 3780982766 &&& M = 3780982766) (h : Keeps M s t) : Keeps M s (actRetireGo a1 t).1 := by
  unfold actRetireGo
  try dsimp only
  repeat' (first
    | with_reducible assumption
    | with_reducible exact Keeps.refl _ _
    | with_reducible apply State.retireGo_keeps)

theorem State.laneFault_keeps {M : Nat} {s t : State} {a1 : _} {a2 : _}
    (hM : 4718600 &&& M = 4718600) (h : Keeps M s t) : Keeps M s (State.laneFault t a1 a2) := by
  unfold State.laneFault
  try dsimp only
  repeat' (first
    | with_reducible assumption
    | with_reducible exact Keeps.refl _ _
    | with_reducible apply State.fault_keeps)

theorem State.takeSpare_keeps {M : Nat} {s t : State} {a1 : _} {a2 : _} {a3 : _}
    (hM : 2421686284 &&& M = 2421686284) (h : Keeps M s t) : Keeps M s (State.takeSpare t a1 a2 a3) := by
  unfold State.takeSpare
  try dsimp only
  repeat' (first
    | with_reducible assumption
    | with_reducible exact Keeps.refl _ _
    | ((with_reducible refine Keeps.subMask hM ?_); exact rfl)
    | with_reducible apply State.updLink_keeps
    | with_reducible apply State.laneFault_keeps
    | with_reducible apply State.crier_keeps
    | with_reducible apply State.ledger_keeps
    | (dsimp only [keepsMk]; (with_reducible apply KeepsMk.put ?_ rfl rfl) <;> first | exact Or.inl (Keeps.subBit hM rfl) | exact Or.inr rfl | exact id | skip)
    | exact Or.inl (Keeps.subBit hM rfl))

theorem execLaneLoopbackDone_keeps {M : Nat} {s t : State} {a1 : _} {a2 : _} {a3 : _}
    (hM : 2421686284 &&& M = 2421686284) (h : Keeps M s t) : KeepsOut M s (execLaneLoopbackDone a1 a2 a3 t) := by
  unfold execLaneLoopbackDone
  try dsimp only
  repeat' (first
    | with_reducible assumption
    | with_reducible exact Keeps.refl _ _
    | ((with_reducible refine Keeps.subMask hM ?_); exact rfl)
    | with_reducible apply KeepsOut.next
    | with_reducible apply State.updLink_keeps
    | with_reducible apply State.laneFault_keeps
    | with_reducible apply State.takeSpare_keeps
    | exact Or.inl (Keeps.subBit hM rfl)
    | exact Or.inr fun _ => rfl
    | split)

theorem execSliceFault_keeps {M : Nat} {s t : State} {a1 : _} {a2 : _}
    (hM : 3780982766 &&& M = 3780982766) (h : Keeps M s t) : KeepsOut M s (execSliceFault a1 a2 t) := by
  unfold execSliceFault
  try dsimp only
  repeat' (first
    | with_reducible assumption
    | with_reducible exact Keeps.refl _ _
    | with_reducible apply KeepsOut.next
    | with_reducible apply State.sliceFaultOn_keeps
    | split)

theorem execSliceFold_keeps {M : Nat} {s t : State}
    (hM : 2153514478 &&& M = 2153514478) (h : Keeps M s t) : KeepsOut M s (execSliceFold t) := by
  unfold execSliceFold
  try dsimp only
  repeat' (first
    | with_reducible assumption
    | with_reducible exact Keeps.refl _ _
    | ((with_reducible refine Keeps.subMask hM ?_); exact rfl)
    | with_reducible apply KeepsOut.next
    | with_reducible apply State.afterFold_keeps
    | with_reducible apply State.foldSliceNow_keeps
    | split)

theorem execChannelFault_keeps {M : Nat} {s t : State} {a1 : _} {a2 : _}
    (hM : 3780982766 &&& M = 3780982766) (h : Keeps M s t) : KeepsOut M s (execChannelFault a1 a2 t) := by
  unfold execChannelFault
  try dsimp only
  repeat' (first
    | with_reducible assumption
    | with_reducible exact Keeps.refl _ _
    | with_reducible apply KeepsOut.next
    | with_reducible apply State.channelFaultOn_keeps
    | split)

theorem execChannelFold_keeps {M : Nat} {s t : State}
    (hM : 2153513198 &&& M = 2153513198) (h : Keeps M s t) : KeepsOut M s (execChannelFold t) := by
  unfold execChannelFold
  try dsimp only
  repeat' (first
    | with_reducible assumption
    | with_reducible exact Keeps.refl _ _
    | ((with_reducible refine Keeps.subMask hM ?_); exact rfl)
    | with_reducible apply KeepsOut.next
    | with_reducible apply State.afterFold_keeps
    | with_reducible apply State.foldChannelNow_keeps
    | split)

theorem execPipelineHang_keeps {M : Nat} {s t : State} {a1 : _}
    (hM : 3780982766 &&& M = 3780982766) (h : Keeps M s t) : KeepsOut M s (execPipelineHang a1 t) := by
  unfold execPipelineHang
  try dsimp only
  repeat' (first
    | with_reducible assumption
    | with_reducible exact Keeps.refl _ _
    | with_reducible apply KeepsOut.next
    | with_reducible apply State.sliceFaultOn_keeps
    | split)

theorem execRetireSlice_keeps {M : Nat} {s t : State} {a1 : _} {a2 : _}
    (hM : 3783079918 &&& M = 3783079918) (h : Keeps M s t) : KeepsOut M s (execRetireSlice a1 a2 t) := by
  unfold execRetireSlice
  try dsimp only
  repeat' (first
    | with_reducible assumption
    | with_reducible exact Keeps.refl _ _
    | ((with_reducible refine Keeps.subMask hM ?_); exact rfl)
    | with_reducible apply KeepsOut.next
    | with_reducible apply State.write_keeps
    | with_reducible apply actRetireGo_keeps
    | split
    | with_reducible refine Keeps.fst ‹_ = (_, _)› ?_
    | intro _)

theorem execRetireChannel_keeps {M : Nat} {s t : State} {a1 : _} {a2 : _}
    (hM : 3783079918 &&& M = 3783079918) (h : Keeps M s t) : KeepsOut M s (execRetireChannel a1 a2 t) := by
  unfold execRetireChannel
  try dsimp only
  repeat' (first
    | with_reducible assumption
    | with_reducible exact Keeps.refl _ _
    | ((with_reducible refine Keeps.subMask hM ?_); exact rfl)
    | with_reducible apply KeepsOut.next
    | with_reducible apply State.write_keeps
    | with_reducible apply actRetireGo_keeps
    | split
    | with_reducible refine Keeps.fst ‹_ = (_, _)› ?_
    | intro _)

theorem execRetireClear_keeps {M : Nat} {s t : State} {a1 : _} {a2 : _}
    (hM : 3783079918 &&& M = 3783079918) (h : Keeps M s t) : KeepsOut M s (execRetireClear a1 a2 t) := by
  unfold execRetireClear
  try dsimp only
  repeat' (first
    | with_reducible assumption
    | with_reducible exact Keeps.refl _ _
    | ((with_reducible refine Keeps.subMask hM ?_); exact rfl)
    | with_reducible apply KeepsOut.next
    | with_reducible apply State.write_keeps
    | with_reducible apply actRetireGo_keeps
    | split
    | with_reducible refine Keeps.fst ‹_ = (_, _)› ?_
    | intro _)

theorem execControlWatchdog_keeps {M : Nat} {s t : State}
    (hM : 2152202248 &&& M = 2152202248) (h : Keeps M s t) : KeepsOut M s (execControlWatchdog t) := by
  unfold execControlWatchdog
  try dsimp only
  repeat' (first
    | with_reducible assumption
    | with_reducible exact Keeps.refl _ _
    | ((with_reducible refine Keeps.subMask hM ?_); exact rfl)
    | with_reducible apply KeepsOut.next
    | with_reducible apply State.fault_keeps
    | (dsimp only [keepsMk]; (with_reducible apply KeepsMk.put ?_ rfl rfl) <;> first | exact Or.inl (Keeps.subBit hM rfl) | exact Or.inr rfl | exact id | skip))

theorem execHostPortFault_keeps {M : Nat} {s t : State}
    (hM : 2957848686 &&& M = 2957848686) (h : Keeps M s t) : KeepsOut M s (execHostPortFault t) := by
  unfold execHostPortFault
  try dsimp only
  repeat' (first
    | with_reducible assumption
    | with_reducible exact Keeps.refl _ _
    | ((with_reducible refine Keeps.subMask hM ?_); exact rfl)
    | with_reducible apply KeepsOut.next
    | with_reducible apply State.updLink_keeps
    | with_reducible apply State.linksDown_keeps
    | with_reducible apply State.unfit_keeps
    | with_reducible apply State.fault_keeps
    | with_reducible refine Keeps.foldl ?_ _ ?_
    | with_reducible refine Keeps.foldl_fst ?_ _ ?_
    | with_reducible refine Keeps.foldl_snd ?_ _ ?_
    | (dsimp only [keepsMk]; (with_reducible apply KeepsMk.put ?_ rfl rfl) <;> first | exact Or.inl (Keeps.subBit hM rfl) | exact Or.inr rfl | exact id | skip)
    | exact Or.inl (Keeps.subBit hM rfl)
    | exact Or.inr fun _ => rfl
    | split
    | with_reducible refine Keeps.fst ‹_ = (_, _)› ?_
    | intro _)

/-! ### Machine/Security.lean -/

theorem State.admitTenant_keeps {M : Nat} {s t : State}
    (hM : 1075314690 &&& M = 1075314690) (h : Keeps M s t) : Keeps M s (State.admitTenant t).1 := by
  unfold State.admitTenant
  try dsimp only
  repeat' (first
    | with_reducible assumption
    | with_reducible exact Keeps.refl _ _
    | ((with_reducible refine Keeps.subMask hM ?_); exact rfl)
    | with_reducible apply State.setReg_keeps
    | with_reducible apply State.updTenant_keeps
    | with_reducible apply State.ledger_keeps
    | split)

theorem State.assignKey_keeps {M : Nat} {s t : State} {a1 : _}
    (hM : 1079771140 &&& M = 1079771140) (h : Keeps M s t) : Keeps M s (State.assignKey t a1) := by
  unfold State.assignKey
  try dsimp only
  repeat' (first
    | with_reducible assumption
    | with_reducible exact Keeps.refl _ _
    | with_reducible apply State.changeKey_keeps)

theorem State.setConn_keeps {M : Nat} {s t : State} {a1 : _} {a2 : _}
    (hM : 1074790400 &&& M = 1074790400) (h : Keeps M s t) : Keeps M s (State.setConn t a1 a2) := by
  unfold State.setConn
  try dsimp only
  repeat' (first
    | with_reducible assumption
    | with_reducible exact Keeps.refl _ _
    | (dsimp only [keepsMk]; (with_reducible apply KeepsMk.put ?_ rfl rfl) <;> first | exact Or.inl (Keeps.subBit hM rfl) | exact Or.inr rfl | exact id | skip))

theorem State.dropSession_keeps {M : Nat} {s t : State} {a1 : _} {a2 : _}
    (hM : 1076887552 &&& M = 1076887552) (h : Keeps M s t) : Keeps M s (State.dropSession t a1 a2) := by
  unfold State.dropSession
  try dsimp only
  repeat' (first
    | with_reducible assumption
    | with_reducible exact Keeps.refl _ _
    | ((with_reducible refine Keeps.subMask hM ?_); exact rfl)
    | with_reducible apply State.setConn_keeps
    | (dsimp only [keepsMk]; (with_reducible apply KeepsMk.put ?_ rfl rfl) <;> first | exact Or.inl (Keeps.subBit hM rfl) | exact Or.inr rfl | exact id | skip))

theorem State.enterConf_keeps {M : Nat} {s t : State}
    (hM : 1079640066 &&& M = 1079640066) (h : Keeps M s t) : Keeps M s (State.enterConf t) := by
  unfold State.enterConf
  try dsimp only
  repeat' (first
    | with_reducible assumption
    | with_reducible exact Keeps.refl _ _
    | ((with_reducible refine Keeps.subMask hM ?_); exact rfl)
    | with_reducible apply State.setReg_keeps
    | with_reducible apply State.ledger_keeps
    | (dsimp only [keepsMk]; (with_reducible apply KeepsMk.put ?_ rfl rfl) <;> first | exact Or.inl (Keeps.subBit hM rfl) | exact Or.inr rfl | exact id | skip)
    | split)

theorem actConfModeWrite_keeps {M : Nat} {s t : State} {a1 : _}
    (hM : 1079640066 &&& M = 1079640066) (h : Keeps M s t) : Keeps M s (actConfModeWrite a1 t).1 := by
  unfold actConfModeWrite
  try dsimp only
  repeat' (first
    | with_reducible assumption
    | with_reducible exact Keeps.refl _ _
    | ((with_reducible refine Keeps.subMask hM ?_); exact rfl)
    | with_reducible apply State.setReg_keeps
    | with_reducible apply State.enterConf_keeps
    | split)

theorem State.leaveTenant_keeps {M : Nat} {s t : State} {a1 : _}
    (hM : 3244046062 &&& M = 3244046062) (h : Keeps M s t) : Keeps M s (State.leaveTenant t a1) := by
  unfold State.leaveTenant
  try dsimp only
  repeat' (first
    | with_reducible assumption
    | with_reducible exact Keeps.refl _ _
    | ((with_reducible refine Keeps.subMask hM ?_); exact rfl)
    | with_reducible apply State.startRetire_keeps
    | with_reducible apply State.abortBarrow_keeps
    | with_reducible apply State.abortTree_keeps
    | with_reducible apply State.updTenant_keeps
    | with_reducible apply State.endMoveOut_keeps
    | with_reducible refine Keeps.foldl ?_ _ ?_
    | with_reducible refine Keeps.foldl_fst ?_ _ ?_
    | with_reducible refine Keeps.foldl_snd ?_ _ ?_
    | split
    | with_reducible refine Keeps.fst ‹_ = (_, _)› ?_
    | intro _)

theorem State.removeTenant_keeps {M : Nat} {s t : State}
    (hM : 3780982766 &&& M = 3780982766) (h : Keeps M s t) : Keeps M s (State.removeTenant t).1 := by
  unfold State.removeTenant
  try dsimp only
  repeat' (first
    | with_reducible assumption
    | with_reducible exact Keeps.refl _ _
    | ((with_reducible refine Keeps.subMask hM ?_); exact rfl)
    | with_reducible apply State.setReg_keeps
    | with_reducible apply State.leaveTenant_keeps
    | with_reducible apply State.startRevoke_keeps
    | split)

theorem State.tenantGo_keeps {M : Nat} {s t : State}
    (hM : 3780982766 &&& M = 3780982766) (h : Keeps M s t) : Keeps M s (State.tenantGo t).1 := by
  unfold State.tenantGo
  try dsimp only
  repeat' (first
    | with_reducible assumption
    | with_reducible exact Keeps.refl _ _
    | ((with_reducible refine Keeps.subMask hM ?_); exact rfl)
    | with_reducible apply State.admitTenant_keeps
    | with_reducible apply State.removeTenant_keeps
    | with_reducible apply State.setReg_keeps
    | split)

theorem actTenantGo_keeps {M : Nat} {s t : State} {a1 : _}
    (hM : 3780982766 &&& M = 3780982766) (h : Keeps M s t) : Keeps M s (actTenantGo a1 t).1 := by
  unfold actTenantGo
  try dsimp only
  repeat' (first
    | with_reducible assumption
    | with_reducible exact Keeps.refl _ _
    | with_reducible apply State.tenantGo_keeps)

theorem State.generateKey_keeps {M : Nat} {s t : State} {a1 : _}
    (hM : 1079771140 &&& M = 1079771140) (h : Keeps M s t) : Keeps M s (State.generateKey t a1) := by
  unfold State.generateKey
  try dsimp only
  repeat' (first
    | with_reducible assumption
    | with_reducible exact Keeps.refl _ _
    | with_reducible apply State.changeKey_keeps
    | (dsimp only [keepsMk]; (with_reducible apply KeepsMk.put ?_ rfl rfl) <;> first | exact Or.inl (Keeps.subBit hM rfl) | exact Or.inr rfl | exact id | skip))

theorem State.keyAct_keeps {M : Nat} {s t : State} {a1 : _} {a2 : _}
    (hM : 1079776260 &&& M = 1079776260) (h : Keeps M s t) : Keeps M s (State.keyAct t a1 a2) := by
  unfold State.keyAct
  try dsimp only
  repeat' (first
    | with_reducible assumption
    | with_reducible exact Keeps.refl _ _
    | ((with_reducible refine Keeps.subMask hM ?_); exact rfl)
    | with_reducible apply State.assignKey_keeps
    | with_reducible apply State.retireKey_keeps
    | with_reducible apply State.generateKey_keeps
    | with_reducible apply State.changeKey_keeps
    | split)

theorem State.keyGo_keeps {M : Nat} {s t : State}
    (hM : 1079776262 &&& M = 1079776262) (h : Keeps M s t) : Keeps M s (State.keyGo t).1 := by
  unfold State.keyGo
  try dsimp only
  repeat' (first
    | with_reducible assumption
    | with_reducible exact Keeps.refl _ _
    | ((with_reducible refine Keeps.subMask hM ?_); exact rfl)
    | with_reducible apply State.count_keeps
    | with_reducible apply State.setReg_keeps
    | with_reducible apply State.keyAct_keeps
    | split)

theorem actKeyGo_keeps {M : Nat} {s t : State} {a1 : _}
    (hM : 1079776262 &&& M = 1079776262) (h : Keeps M s t) : Keeps M s (actKeyGo a1 t).1 := by
  unfold actKeyGo
  try dsimp only
  repeat' (first
    | with_reducible assumption
    | with_reducible exact Keeps.refl _ _
    | with_reducible apply State.keyGo_keeps)

theorem actLedgerAckedWrite_keeps {M : Nat} {s t : State} {a1 : _}
    (hM : 2 &&& M = 2) (h : Keeps M s t) : Keeps M s (actLedgerAckedWrite a1 t).1 := by
  unfold actLedgerAckedWrite
  try dsimp only
  repeat' (first
    | with_reducible assumption
    | with_reducible exact Keeps.refl _ _
    | with_reducible apply State.setReg_keeps
    | split)

theorem State.spdmSend_keeps {M : Nat} {s t : State} {a1 : _} {a2 : _} {a3 : _} {a4 : _} {a5 : _} {a6 : _}
    (hM : 1074790400 &&& M = 1074790400) (h : Keeps M s t) : Keeps M s (State.spdmSend t a1 a2 a3 a4 a5 a6) := by
  unfold State.spdmSend
  try dsimp only
  repeat' (first
    | with_reducible assumption
    | with_reducible exact Keeps.refl _ _
    | (dsimp only [keepsMk]; (with_reducible apply KeepsMk.put ?_ rfl rfl) <;> first | exact Or.inl (Keeps.subBit hM rfl) | exact Or.inr rfl | exact id | skip))

theorem State.spdmError_keeps {M : Nat} {s t : State} {a1 : _} {a2 : _}
    (hM : 1074790400 &&& M = 1074790400) (h : Keeps M s t) : Keeps M s (State.spdmError t a1 a2) := by
  unfold State.spdmError
  try dsimp only
  repeat' (first
    | with_reducible assumption
    | with_reducible exact Keeps.refl _ _
    | with_reducible apply State.spdmSend_keeps)

theorem State.spdm_keeps {M : Nat} {s t : State} {a1 : _} {a2 : _} {a3 : _} {a4 : _}
    (hM : 1074790400 &&& M = 1074790400) (h4 : ∀ c, Keeps M t (a4 c)) (h : Keeps M s t) : Keeps M s (State.spdm t a1 a2 a3 a4) := by
  unfold State.spdm
  try dsimp only
  repeat' (first
    | with_reducible assumption
    | with_reducible exact Keeps.refl _ _
    | with_reducible refine Keeps.after ?_ (h4 ..)
    | with_reducible apply State.spdmError_keeps
    | split)

theorem State.spdmSigned_keeps {M : Nat} {s t : State}
    (hM : 1074790400 &&& M = 1074790400) (h : Keeps M s t) : Keeps M s (State.spdmSigned t) := by
  unfold State.spdmSigned
  try dsimp only
  repeat' (first
    | with_reducible assumption
    | with_reducible exact Keeps.refl _ _
    | (dsimp only [keepsMk]; (with_reducible apply KeepsMk.put ?_ rfl rfl) <;> first | exact Or.inl (Keeps.subBit hM rfl) | exact Or.inr rfl | exact id | skip))

theorem State.writeTenant_keeps {M : Nat} {s t : State} {a1 : _} {a2 : _}
    (hM : 1074790400 &&& M = 1074790400) (h : Keeps M s t) : Keeps M s (State.writeTenant a1 a2 t).1 := by
  unfold State.writeTenant
  try dsimp only
  repeat' (first
    | with_reducible assumption
    | with_reducible exact Keeps.refl _ _
    | with_reducible apply State.updTenant_keeps
    | split)

theorem execGetVersion_keeps {M : Nat} {s t : State} {a1 : _}
    (hM : 1076887552 &&& M = 1076887552) (h : Keeps M s t) : KeepsOut M s (execGetVersion a1 t) := by
  unfold execGetVersion
  try dsimp only
  repeat' (first
    | with_reducible assumption
    | with_reducible exact Keeps.refl _ _
    | ((with_reducible refine Keeps.subMask hM ?_); exact rfl)
    | with_reducible apply KeepsOut.next
    | with_reducible apply State.spdm_keeps
    | with_reducible apply State.spdmSend_keeps
    | with_reducible apply State.dropSession_keeps
    | split
    | with_reducible refine Keeps.fst ‹_ = (_, _)› ?_
    | intro _)

theorem execGetCapabilities_keeps {M : Nat} {s t : State} {a1 : _}
    (hM : 1074790400 &&& M = 1074790400) (h : Keeps M s t) : KeepsOut M s (execGetCapabilities a1 t) := by
  unfold execGetCapabilities
  try dsimp only
  repeat' (first
    | with_reducible assumption
    | with_reducible exact Keeps.refl _ _
    | with_reducible apply KeepsOut.next
    | with_reducible apply State.spdm_keeps
    | with_reducible apply State.spdmSend_keeps
    | with_reducible apply State.setConn_keeps
    | split
    | with_reducible refine Keeps.fst ‹_ = (_, _)› ?_
    | intro _)

theorem execNegotiateAlgorithms_keeps {M : Nat} {s t : State} {a1 : _}
    (hM : 1074790400 &&& M = 1074790400) (h : Keeps M s t) : KeepsOut M s (execNegotiateAlgorithms a1 t) := by
  unfold execNegotiateAlgorithms
  try dsimp only
  repeat' (first
    | with_reducible assumption
    | with_reducible exact Keeps.refl _ _
    | with_reducible apply KeepsOut.next
    | with_reducible apply State.spdm_keeps
    | with_reducible apply State.spdmSend_keeps
    | with_reducible apply State.setConn_keeps
    | split
    | with_reducible refine Keeps.fst ‹_ = (_, _)› ?_
    | intro _)

theorem execGetDigests_keeps {M : Nat} {s t : State} {a1 : _}
    (hM : 1074790400 &&& M = 1074790400) (h : Keeps M s t) : KeepsOut M s (execGetDigests a1 t) := by
  unfold execGetDigests
  try dsimp only
  repeat' (first
    | with_reducible assumption
    | with_reducible exact Keeps.refl _ _
    | with_reducible apply KeepsOut.next
    | with_reducible apply State.spdm_keeps
    | with_reducible apply State.spdmSend_keeps
    | with_reducible apply State.setConn_keeps
    | split
    | with_reducible refine Keeps.fst ‹_ = (_, _)› ?_
    | intro _)

theorem execGetCertificate_keeps {M : Nat} {s t : State} {a1 : _}
    (hM : 1074790400 &&& M = 1074790400) (h : Keeps M s t) : KeepsOut M s (execGetCertificate a1 t) := by
  unfold execGetCertificate
  try dsimp only
  repeat' (first
    | with_reducible assumption
    | with_reducible exact Keeps.refl _ _
    | with_reducible apply KeepsOut.next
    | with_reducible apply State.spdm_keeps
    | with_reducible apply State.spdmSend_keeps
    | split
    | with_reducible refine Keeps.fst ‹_ = (_, _)› ?_
    | intro _)

theorem execChallenge_keeps {M : Nat} {s t : State} {a1 : _}
    (hM : 1074790400 &&& M = 1074790400) (h : Keeps M s t) : KeepsOut M s (execChallenge a1 t) := by
  unfold execChallenge
  try dsimp only
  repeat' (first
    | with_reducible assumption
    | with_reducible exact Keeps.refl _ _
    | with_reducible apply KeepsOut.next
    | with_reducible apply State.spdm_keeps
    | with_reducible apply State.spdmSigned_keeps
    | with_reducible apply State.spdmSend_keeps
    | with_reducible apply State.setConn_keeps
    | split
    | with_reducible refine Keeps.fst ‹_ = (_, _)› ?_
    | intro _)

theorem execGetMeasurements_keeps {M : Nat} {s t : State} {a1 : _}
    (hM : 1074790400 &&& M = 1074790400) (h : Keeps M s t) : KeepsOut M s (execGetMeasurements a1 t) := by
  unfold execGetMeasurements
  try dsimp only
  repeat' (first
    | with_reducible assumption
    | with_reducible exact Keeps.refl _ _
    | with_reducible apply KeepsOut.next
    | with_reducible apply State.spdm_keeps
    | with_reducible apply State.setConn_keeps
    | with_reducible apply State.spdmSigned_keeps
    | with_reducible apply State.spdmSend_keeps
    | split
    | with_reducible refine Keeps.fst ‹_ = (_, _)› ?_
    | intro _)

theorem execKeyExchange_keeps {M : Nat} {s t : State} {a1 : _}
    (hM : 1074790400 &&& M = 1074790400) (h : Keeps M s t) : KeepsOut M s (execKeyExchange a1 t) := by
  unfold execKeyExchange
  try dsimp only
  repeat' (first
    | with_reducible assumption
    | with_reducible exact Keeps.refl _ _
    | with_reducible apply KeepsOut.next
    | with_reducible apply State.spdm_keeps
    | with_reducible apply State.spdmSigned_keeps
    | with_reducible apply State.spdmSend_keeps
    | with_reducible apply State.setConn_keeps
    | split
    | with_reducible refine Keeps.fst ‹_ = (_, _)› ?_
    | intro _)

theorem execFinish_keeps {M : Nat} {s t : State} {a1 : _}
    (hM : 1076887552 &&& M = 1076887552) (h : Keeps M s t) : KeepsOut M s (execFinish a1 t) := by
  unfold execFinish
  try dsimp only
  repeat' (first
    | with_reducible assumption
    | with_reducible exact Keeps.refl _ _
    | ((with_reducible refine Keeps.subMask hM ?_); exact rfl)
    | with_reducible apply KeepsOut.next
    | with_reducible apply State.spdm_keeps
    | with_reducible apply State.setConn_keeps
    | with_reducible apply State.spdmSend_keeps
    | (dsimp only [keepsMk]; (with_reducible apply KeepsMk.put ?_ rfl rfl) <;> first | exact Or.inl (Keeps.subBit hM rfl) | exact Or.inr rfl | exact id | skip)
    | split
    | with_reducible refine Keeps.fst ‹_ = (_, _)› ?_
    | intro _)

theorem execSpdmHeartbeat_keeps {M : Nat} {s t : State} {a1 : _}
    (hM : 1074790400 &&& M = 1074790400) (h : Keeps M s t) : KeepsOut M s (execSpdmHeartbeat a1 t) := by
  unfold execSpdmHeartbeat
  try dsimp only
  repeat' (first
    | with_reducible assumption
    | with_reducible exact Keeps.refl _ _
    | with_reducible apply KeepsOut.next
    | with_reducible apply State.spdm_keeps
    | with_reducible apply State.spdmSend_keeps
    | with_reducible apply State.setConn_keeps
    | split
    | with_reducible refine Keeps.fst ‹_ = (_, _)› ?_
    | intro _)

theorem execKeyUpdate_keeps {M : Nat} {s t : State} {a1 : _}
    (hM : 1074790400 &&& M = 1074790400) (h : Keeps M s t) : KeepsOut M s (execKeyUpdate a1 t) := by
  unfold execKeyUpdate
  try dsimp only
  repeat' (first
    | with_reducible assumption
    | with_reducible exact Keeps.refl _ _
    | with_reducible apply KeepsOut.next
    | with_reducible apply State.spdm_keeps
    | with_reducible apply State.spdmSend_keeps
    | with_reducible apply State.setConn_keeps
    | split
    | with_reducible refine Keeps.fst ‹_ = (_, _)› ?_
    | intro _)

theorem execEndSession_keeps {M : Nat} {s t : State} {a1 : _}
    (hM : 1076887552 &&& M = 1076887552) (h : Keeps M s t) : KeepsOut M s (execEndSession a1 t) := by
  unfold execEndSession
  try dsimp only
  repeat' (first
    | with_reducible assumption
    | with_reducible exact Keeps.refl _ _
    | ((with_reducible refine Keeps.subMask hM ?_); exact rfl)
    | with_reducible apply KeepsOut.next
    | with_reducible apply State.spdm_keeps
    | with_reducible apply State.spdmSend_keeps
    | with_reducible apply State.dropSession_keeps
    | split
    | with_reducible refine Keeps.fst ‹_ = (_, _)› ?_
    | intro _)

theorem execEncapsulatedRequest_keeps {M : Nat} {s t : State} {a1 : _}
    (hM : 1074790400 &&& M = 1074790400) (h : Keeps M s t) : KeepsOut M s (execEncapsulatedRequest a1 t) := by
  unfold execEncapsulatedRequest
  try dsimp only
  repeat' (first
    | with_reducible assumption
    | with_reducible exact Keeps.refl _ _
    | with_reducible apply KeepsOut.next
    | with_reducible apply State.spdm_keeps
    | with_reducible apply State.spdmSend_keeps
    | with_reducible apply State.setConn_keeps
    | split
    | with_reducible refine Keeps.fst ‹_ = (_, _)› ?_
    | intro _)

theorem execKeyLoad_keeps {M : Nat} {s t : State} {a1 : _} {a2 : _} {a3 : _} {a4 : _} {a5 : _} {a6 : _}
    (hM : 1079771140 &&& M = 1079771140) (h : Keeps M s t) : KeepsOut M s (execKeyLoad a1 a2 a3 a4 a5 a6 t) := by
  unfold execKeyLoad
  try dsimp only
  repeat' (first
    | with_reducible assumption
    | with_reducible exact Keeps.refl _ _
    | ((with_reducible refine Keeps.subMask hM ?_); exact rfl)
    | with_reducible apply KeepsOut.next
    | with_reducible apply State.tellKey_keeps
    | with_reducible apply State.updKey_keeps
    | with_reducible apply State.sramWrite_keeps
    | with_reducible apply State.count_keeps
    | with_reducible apply State.keyLedger_keeps
    | with_reducible apply State.spdmSend_keeps
    | split)

theorem execKeyAssign_keeps {M : Nat} {s t : State} {a1 : _} {a2 : _}
    (hM : 1081938958 &&& M = 1081938958) (h : Keeps M s t) : KeepsOut M s (execKeyAssign a1 a2 t) := by
  unfold execKeyAssign
  try dsimp only
  repeat' (first
    | with_reducible assumption
    | with_reducible exact Keeps.refl _ _
    | ((with_reducible refine Keeps.subMask hM ?_); exact rfl)
    | with_reducible apply KeepsOut.next
    | with_reducible apply State.write_keeps
    | with_reducible apply actKeyGo_keeps
    | split
    | with_reducible refine Keeps.fst ‹_ = (_, _)› ?_
    | intro _)

theorem execKeyRetire_keeps {M : Nat} {s t : State} {a1 : _} {a2 : _}
    (hM : 1081938958 &&& M = 1081938958) (h : Keeps M s t) : KeepsOut M s (execKeyRetire a1 a2 t) := by
  unfold execKeyRetire
  try dsimp only
  repeat' (first
    | with_reducible assumption
    | with_reducible exact Keeps.refl _ _
    | ((with_reducible refine Keeps.subMask hM ?_); exact rfl)
    | with_reducible apply KeepsOut.next
    | with_reducible apply State.write_keeps
    | with_reducible apply actKeyGo_keeps
    | split
    | with_reducible refine Keeps.fst ‹_ = (_, _)› ?_
    | intro _)

theorem execKeyGenerate_keeps {M : Nat} {s t : State} {a1 : _} {a2 : _}
    (hM : 1081938958 &&& M = 1081938958) (h : Keeps M s t) : KeepsOut M s (execKeyGenerate a1 a2 t) := by
  unfold execKeyGenerate
  try dsimp only
  repeat' (first
    | with_reducible assumption
    | with_reducible exact Keeps.refl _ _
    | ((with_reducible refine Keeps.subMask hM ?_); exact rfl)
    | with_reducible apply KeepsOut.next
    | with_reducible apply State.write_keeps
    | with_reducible apply actKeyGo_keeps
    | split
    | with_reducible refine Keeps.fst ‹_ = (_, _)› ?_
    | intro _)

theorem execImportOn_keeps {M : Nat} {s t : State} {a1 : _} {a2 : _}
    (hM : 1081938958 &&& M = 1081938958) (h : Keeps M s t) : KeepsOut M s (execImportOn a1 a2 t) := by
  unfold execImportOn
  try dsimp only
  repeat' (first
    | with_reducible assumption
    | with_reducible exact Keeps.refl _ _
    | ((with_reducible refine Keeps.subMask hM ?_); exact rfl)
    | with_reducible apply KeepsOut.next
    | with_reducible apply State.write_keeps
    | with_reducible apply actKeyGo_keeps
    | split
    | with_reducible refine Keeps.fst ‹_ = (_, _)› ?_
    | intro _)

theorem execImportOff_keeps {M : Nat} {s t : State} {a1 : _} {a2 : _}
    (hM : 1081938958 &&& M = 1081938958) (h : Keeps M s t) : KeepsOut M s (execImportOff a1 a2 t) := by
  unfold execImportOff
  try dsimp only
  repeat' (first
    | with_reducible assumption
    | with_reducible exact Keeps.refl _ _
    | ((with_reducible refine Keeps.subMask hM ?_); exact rfl)
    | with_reducible apply KeepsOut.next
    | with_reducible apply State.write_keeps
    | with_reducible apply actKeyGo_keeps
    | split
    | with_reducible refine Keeps.fst ‹_ = (_, _)› ?_
    | intro _)

theorem execKeyDrainDone_keeps {M : Nat} {s t : State} {a1 : _}
    (hM : 1079771140 &&& M = 1079771140) (h : Keeps M s t) : KeepsOut M s (execKeyDrainDone a1 t) := by
  unfold execKeyDrainDone
  try dsimp only
  repeat' (first
    | with_reducible assumption
    | with_reducible exact Keeps.refl _ _
    | with_reducible apply KeepsOut.next
    | with_reducible apply State.zeroiseKey_keeps
    | split)

theorem execKeyRetireDeadlineExpiry_keeps {M : Nat} {s t : State} {a1 : _}
    (hM : 1616707660 &&& M = 1616707660) (h : Keeps M s t) : KeepsOut M s (execKeyRetireDeadlineExpiry a1 t) := by
  unfold execKeyRetireDeadlineExpiry
  try dsimp only
  repeat' (first
    | with_reducible assumption
    | with_reducible exact Keeps.refl _ _
    | ((with_reducible refine Keeps.subMask hM ?_); exact rfl)
    | with_reducible apply KeepsOut.next
    | with_reducible apply State.zeroiseKey_keeps
    | with_reducible apply State.abortUses_keeps
    | split)

theorem execTenantAdmit_keeps {M : Nat} {s t : State} {a1 : _} {a2 : _}
    (hM : 3783079918 &&& M = 3783079918) (h : Keeps M s t) : KeepsOut M s (execTenantAdmit a1 a2 t) := by
  unfold execTenantAdmit
  try dsimp only
  repeat' (first
    | with_reducible assumption
    | with_reducible exact Keeps.refl _ _
    | ((with_reducible refine Keeps.subMask hM ?_); exact rfl)
    | with_reducible apply KeepsOut.next
    | with_reducible apply State.write_keeps
    | with_reducible apply actTenantGo_keeps
    | split
    | with_reducible refine Keeps.fst ‹_ = (_, _)› ?_
    | intro _)

theorem execTenantRemove_keeps {M : Nat} {s t : State} {a1 : _} {a2 : _}
    (hM : 3783079918 &&& M = 3783079918) (h : Keeps M s t) : KeepsOut M s (execTenantRemove a1 a2 t) := by
  unfold execTenantRemove
  try dsimp only
  repeat' (first
    | with_reducible assumption
    | with_reducible exact Keeps.refl _ _
    | ((with_reducible refine Keeps.subMask hM ?_); exact rfl)
    | with_reducible apply KeepsOut.next
    | with_reducible apply State.write_keeps
    | with_reducible apply actTenantGo_keeps
    | split
    | with_reducible refine Keeps.fst ‹_ = (_, _)› ?_
    | intro _)

theorem execRemoveClearStart_keeps {M : Nat} {s t : State} {a1 : _}
    (hM : 3244032228 &&& M = 3244032228) (h : Keeps M s t) : KeepsOut M s (execRemoveClearStart a1 t) := by
  unfold execRemoveClearStart
  try dsimp only
  repeat' (first
    | with_reducible assumption
    | with_reducible exact Keeps.refl _ _
    | ((with_reducible refine Keeps.subMask hM ?_); exact rfl)
    | with_reducible apply KeepsOut.next
    | with_reducible apply State.clearAll_keeps
    | with_reducible apply State.updTenant_keeps
    | split)

theorem execTenantRemoveDone_keeps {M : Nat} {s t : State} {a1 : _}
    (hM : 3246131438 &&& M = 3246131438) (h : Keeps M s t) : KeepsOut M s (execTenantRemoveDone a1 t) := by
  unfold execTenantRemoveDone
  try dsimp only
  repeat' (first
    | with_reducible assumption
    | with_reducible exact Keeps.refl _ _
    | ((with_reducible refine Keeps.subMask hM ?_); exact rfl)
    | with_reducible apply KeepsOut.next
    | with_reducible apply State.clearAll_keeps
    | with_reducible apply State.updTenant_keeps
    | with_reducible apply State.keyLedger_keeps
    | with_reducible apply State.tellKey_keeps
    | with_reducible apply State.updKey_keeps
    | with_reducible apply State.markDirty_keeps
    | with_reducible apply State.rowChanged_keeps
    | with_reducible apply State.setReg_keeps
    | with_reducible apply State.ledger_keeps
    | with_reducible apply State.crier_keeps
    | with_reducible refine Keeps.foldl ?_ _ ?_
    | with_reducible refine Keeps.foldl_fst ?_ _ ?_
    | with_reducible refine Keeps.foldl_snd ?_ _ ?_
    | (dsimp only [keepsMk]; (with_reducible apply KeepsMk.put ?_ rfl rfl) <;> first | exact Or.inl (Keeps.subBit hM rfl) | exact Or.inr rfl | exact id | skip)
    | split
    | with_reducible refine Keeps.fst ‹_ = (_, _)› ?_
    | intro _)

theorem execTenantTableWrite_keeps {M : Nat} {s t : State} {a1 : _} {a2 : _} {a3 : _}
    (hM : 1081671692 &&& M = 1081671692) (h : Keeps M s t) : KeepsOut M s (execTenantTableWrite a1 a2 a3 t) := by
  unfold execTenantTableWrite
  try dsimp only
  repeat' (first
    | with_reducible assumption
    | with_reducible exact Keeps.refl _ _
    | ((with_reducible refine Keeps.subMask hM ?_); exact rfl)
    | with_reducible apply KeepsOut.next
    | with_reducible apply State.writeWindow_keeps
    | with_reducible apply State.writeTenant_keeps
    | split
    | with_reducible refine Keeps.fst ‹_ = (_, _)› ?_
    | intro _)

theorem execConfModeWrite_keeps {M : Nat} {s t : State} {a1 : _} {a2 : _}
    (hM : 1081802766 &&& M = 1081802766) (h : Keeps M s t) : KeepsOut M s (execConfModeWrite a1 a2 t) := by
  unfold execConfModeWrite
  try dsimp only
  repeat' (first
    | with_reducible assumption
    | with_reducible exact Keeps.refl _ _
    | ((with_reducible refine Keeps.subMask hM ?_); exact rfl)
    | with_reducible apply KeepsOut.next
    | with_reducible apply State.write_keeps
    | with_reducible apply actConfModeWrite_keeps
    | split
    | with_reducible refine Keeps.fst ‹_ = (_, _)› ?_
    | intro _)

theorem execLedgerSign_keeps {M : Nat} {s t : State}
    (hM : 1213726792 &&& M = 1213726792) (h : Keeps M s t) : KeepsOut M s (execLedgerSign t) := by
  unfold execLedgerSign
  try dsimp only
  repeat' (first
    | with_reducible assumption
    | with_reducible exact Keeps.refl _ _
    | with_reducible apply KeepsOut.next
    | with_reducible apply State.signOldest_keeps
    | split)

theorem execLedgerAckedWrite_keeps {M : Nat} {s t : State} {a1 : _} {a2 : _}
    (hM : 7929870 &&& M = 7929870) (h : Keeps M s t) : KeepsOut M s (execLedgerAckedWrite a1 a2 t) := by
  unfold execLedgerAckedWrite
  try dsimp only
  repeat' (first
    | with_reducible assumption
    | with_reducible exact Keeps.refl _ _
    | ((with_reducible refine Keeps.subMask hM ?_); exact rfl)
    | with_reducible apply KeepsOut.next
    | with_reducible apply State.write_keeps
    | with_reducible apply actLedgerAckedWrite_keeps
    | split
    | with_reducible refine Keeps.fst ‹_ = (_, _)› ?_
    | intro _)

end Sys2Proof.Machine
end

