-- ==== Sys2Proof/Laws/Frame7.lean ====
section
/-! SUPPORT. What each operation may change and that it keeps the memory's canonical form: StepTime, Entries, Profiles, BringupOps. -/

set_option linter.unusedTactic false
set_option linter.unreachableTactic false
set_option linter.unusedVariables false

namespace Sys2Proof.Machine

/-! ### Machine/StepTime.lean -/

theorem actStepSet_keeps {M : Nat} {s t : State} {a1 : _}
    (hM : 49154 &&& M = 49154) (h : Keeps M s t) : Keeps M s (actStepSet a1 t).1 := by
  unfold actStepSet
  try dsimp only
  repeat' (first
    | with_reducible assumption
    | with_reducible exact Keeps.refl _ _
    | ((with_reducible refine Keeps.subMask hM ?_); exact rfl)
    | with_reducible apply State.setReg_keeps
    | (dsimp only [keepsMk]; (with_reducible apply KeepsMk.put ?_ rfl rfl) <;> first | exact Or.inl (Keeps.subBit hM rfl) | exact Or.inr rfl | exact id | skip))

theorem State.ptpGotT1_keeps {M : Nat} {s t : State} {a1 : _} {a2 : _} {a3 : _}
    (hM : 16384 &&& M = 16384) (h : Keeps M s t) : Keeps M s (State.ptpGotT1 t a1 a2 a3) := by
  unfold State.ptpGotT1
  try dsimp only
  repeat' (first
    | with_reducible assumption
    | with_reducible exact Keeps.refl _ _
    | (dsimp only [keepsMk]; (with_reducible apply KeepsMk.put ?_ rfl rfl) <;> first | exact Or.inl (Keeps.subBit hM rfl) | exact Or.inr rfl | exact id | skip))

theorem State.writeSchedule_keeps {M : Nat} {s t : State} {a1 : _} {a2 : _}
    (hM : 278528 &&& M = 278528) (h : Keeps M s t) : Keeps M s (State.writeSchedule a1 a2 t).1 := by
  unfold State.writeSchedule
  try dsimp only
  repeat' (first
    | with_reducible assumption
    | with_reducible exact Keeps.refl _ _
    | ((with_reducible refine Keeps.subMask hM ?_); exact rfl)
    | with_reducible apply State.rowChanged_keeps
    | (dsimp only [keepsMk]; (with_reducible apply KeepsMk.put ?_ rfl rfl) <;> first | exact Or.inl (Keeps.subBit hM rfl) | exact Or.inr rfl | exact id | skip)
    | split)

theorem execPtpSync_keeps {M : Nat} {s t : State} {a1 : _}
    (hM : 16384 &&& M = 16384) (h : Keeps M s t) : KeepsOut M s (execPtpSync a1 t) := by
  unfold execPtpSync
  try dsimp only
  repeat' (first
    | with_reducible assumption
    | with_reducible exact Keeps.refl _ _
    | with_reducible apply KeepsOut.next
    | with_reducible apply State.ptpGotT1_keeps
    | (dsimp only [keepsMk]; (with_reducible apply KeepsMk.put ?_ rfl rfl) <;> first | exact Or.inl (Keeps.subBit hM rfl) | exact Or.inr rfl | exact id | skip)
    | split)

theorem execPtpFollowUp_keeps {M : Nat} {s t : State} {a1 : _}
    (hM : 16384 &&& M = 16384) (h : Keeps M s t) : KeepsOut M s (execPtpFollowUp a1 t) := by
  unfold execPtpFollowUp
  try dsimp only
  repeat' (first
    | with_reducible assumption
    | with_reducible exact Keeps.refl _ _
    | with_reducible apply KeepsOut.next
    | with_reducible apply State.ptpGotT1_keeps
    | split)

theorem execPtpDelayResp_keeps {M : Nat} {s t : State} {a1 : _}
    (hM : 4734984 &&& M = 4734984) (h : Keeps M s t) : KeepsOut M s (execPtpDelayResp a1 t) := by
  unfold execPtpDelayResp
  try dsimp only
  repeat' (first
    | with_reducible assumption
    | with_reducible exact Keeps.refl _ _
    | with_reducible apply KeepsOut.next
    | with_reducible apply State.measure_keeps
    | (dsimp only [keepsMk]; (with_reducible apply KeepsMk.put ?_ rfl rfl) <;> first | exact Or.inl (Keeps.subBit hM rfl) | exact Or.inr rfl | exact id | skip)
    | split)

theorem execPtpAnnounce_keeps {M : Nat} {s t : State} {a1 : _}
    (hM : 16384 &&& M = 16384) (h : Keeps M s t) : KeepsOut M s (execPtpAnnounce a1 t) := by
  unfold execPtpAnnounce
  try dsimp only
  repeat' (first
    | with_reducible assumption
    | with_reducible exact Keeps.refl _ _
    | with_reducible apply KeepsOut.next
    | (dsimp only [keepsMk]; (with_reducible apply KeepsMk.put ?_ rfl rfl) <;> first | exact Or.inl (Keeps.subBit hM rfl) | exact Or.inr rfl | exact id | skip)
    | split)

theorem execTimeHoldover_keeps {M : Nat} {s t : State}
    (hM : 16384 &&& M = 16384) (h : Keeps M s t) : KeepsOut M s (execTimeHoldover t) := by
  unfold execTimeHoldover
  try dsimp only
  repeat' (first
    | with_reducible assumption
    | with_reducible exact Keeps.refl _ _
    | with_reducible apply KeepsOut.next
    | (dsimp only [keepsMk]; (with_reducible apply KeepsMk.put ?_ rfl rfl) <;> first | exact Or.inl (Keeps.subBit hM rfl) | exact Or.inr rfl | exact id | skip)
    | split)

theorem execMarkApplyAt_keeps {M : Nat} {s t : State}
    (hM : 21808334 &&& M = 21808334) (h : Keeps M s t) : KeepsOut M s (execMarkApplyAt t) := by
  unfold execMarkApplyAt
  try dsimp only
  repeat' (first
    | with_reducible assumption
    | with_reducible exact Keeps.refl _ _
    | ((with_reducible refine Keeps.subMask hM ?_); exact rfl)
    | with_reducible apply KeepsOut.next
    | with_reducible apply State.applyMark_keeps
    | with_reducible apply State.count_keeps
    | (dsimp only [keepsMk]; (with_reducible apply KeepsMk.put ?_ rfl rfl) <;> first | exact Or.inl (Keeps.subBit hM rfl) | exact Or.inr rfl | exact id | skip)
    | split)

theorem execGuardBandPreview_keeps {M : Nat} {s t : State}
    (hM : 21808334 &&& M = 21808334) (h : Keeps M s t) : KeepsOut M s (execGuardBandPreview t) := by
  unfold execGuardBandPreview
  try dsimp only
  repeat' (first
    | with_reducible assumption
    | with_reducible exact Keeps.refl _ _
    | with_reducible apply KeepsOut.next
    | with_reducible apply State.applyMark_keeps
    | (dsimp only [keepsMk]; (with_reducible apply KeepsMk.put ?_ rfl rfl) <;> first | exact Or.inl (Keeps.subBit hM rfl) | exact Or.inr rfl | exact id | skip)
    | split)

theorem execMarkLoss_keeps {M : Nat} {s t : State}
    (hM : 21545160 &&& M = 21545160) (h : Keeps M s t) : KeepsOut M s (execMarkLoss t) := by
  unfold execMarkLoss
  try dsimp only
  repeat' (first
    | with_reducible assumption
    | with_reducible exact Keeps.refl _ _
    | ((with_reducible refine Keeps.subMask hM ?_); exact rfl)
    | with_reducible apply KeepsOut.next
    | with_reducible apply State.applyFallback_keeps
    | with_reducible apply State.crier_keeps
    | (dsimp only [keepsMk]; (with_reducible apply KeepsMk.put ?_ rfl rfl) <;> first | exact Or.inl (Keeps.subBit hM rfl) | exact Or.inr rfl | exact id | skip)
    | split)

theorem execStepSet_keeps {M : Nat} {s t : State} {a1 : _} {a2 : _}
    (hM : 7979022 &&& M = 7979022) (h : Keeps M s t) : KeepsOut M s (execStepSet a1 a2 t) := by
  unfold execStepSet
  try dsimp only
  repeat' (first
    | with_reducible assumption
    | with_reducible exact Keeps.refl _ _
    | ((with_reducible refine Keeps.subMask hM ?_); exact rfl)
    | with_reducible apply KeepsOut.next
    | with_reducible apply State.write_keeps
    | with_reducible apply actStepSet_keeps
    | split
    | with_reducible refine Keeps.fst ‹_ = (_, _)› ?_
    | intro _)

theorem execScheduleTableWrite_keeps {M : Nat} {s t : State} {a1 : _} {a2 : _} {a3 : _}
    (hM : 8208396 &&& M = 8208396) (h : Keeps M s t) : KeepsOut M s (execScheduleTableWrite a1 a2 a3 t) := by
  unfold execScheduleTableWrite
  try dsimp only
  repeat' (first
    | with_reducible assumption
    | with_reducible exact Keeps.refl _ _
    | ((with_reducible refine Keeps.subMask hM ?_); exact rfl)
    | with_reducible apply KeepsOut.next
    | with_reducible apply State.writeWindow_keeps
    | with_reducible apply State.writeSchedule_keeps
    | split
    | with_reducible refine Keeps.fst ‹_ = (_, _)› ?_
    | intro _)

/-! ### Machine/Entries.lean -/

theorem entryActs_keep {M : Nat} {s t : State} {v : Nat} (hM : 4292868094 &&& M = 4292868094) (h : Keeps M s t) :
    ∀ p ∈ entryActs, Keeps M s (p.2 v t).1 := by
  intro p hp
  simp only [entryActs, List.mem_cons, List.not_mem_nil, or_false] at hp
  rcases hp with rfl | rfl | rfl | rfl | rfl | rfl | rfl | rfl | rfl | rfl | rfl | rfl | rfl | rfl | rfl | rfl | rfl | rfl | rfl | rfl | rfl | rfl | rfl | rfl | rfl | rfl | rfl | rfl | rfl | rfl | rfl | rfl | rfl
  · exact actLinkEnable_keeps (a1 := v) (Keeps.subMask hM rfl) h
  · exact actAttach_keeps (a1 := v) (Keeps.subMask hM rfl) h
  · exact actDetach_keeps (a1 := v) (Keeps.subMask hM rfl) h
  · exact actFence_keeps (a1 := v) (Keeps.subMask hM rfl) h
  · exact actBoardNumberWrite_keeps (a1 := v) (Keeps.subMask hM rfl) h
  · exact actGrant_keeps (a1 := v) (Keeps.subMask hM rfl) h
  · exact actRevoke_keeps (a1 := v) (Keeps.subMask hM rfl) h
  · exact actClear_keeps (a1 := v) (Keeps.subMask hM rfl) h
  · exact actOrphanRelease_keeps (a1 := v) (Keeps.subMask hM rfl) h
  · exact actCheckerEnableWrite_keeps (a1 := v) (Keeps.subMask hM rfl) h
  · exact actBarrowAbort_keeps (a1 := v) (Keeps.subMask hM rfl) h
  · exact actBuntGo_keeps (a1 := v) (Keeps.subMask hM rfl) h
  · exact actBuntAbort_keeps (a1 := v) (Keeps.subMask hM rfl) h
  · exact actStepSet_keeps (a1 := v) (Keeps.subMask hM rfl) h
  · exact actActiveGateListWrite_keeps (a1 := v) (Keeps.subMask hM rfl) h
  · exact actFbCommit_keeps (a1 := v) (Keeps.subMask hM rfl) h
  · exact actPartnerFence_keeps (a1 := v) (Keeps.subMask hM rfl) h
  · exact actPartnerDetach_keeps (a1 := v) (Keeps.subMask hM rfl) h
  · exact actMoveLinksWrite_keeps (a1 := v) (Keeps.subMask hM rfl) h
  · exact actConfModeWrite_keeps (a1 := v) (Keeps.subMask hM rfl) h
  · exact actTenantGo_keeps (a1 := v) (Keeps.subMask hM rfl) h
  · exact actKeyGo_keeps (a1 := v) (Keeps.subMask hM rfl) h
  · exact actLedgerAckedWrite_keeps (a1 := v) (Keeps.subMask hM rfl) h
  · exact actTallyClear_keeps (a1 := v) (Keeps.subMask hM rfl) h
  · exact actHoistNow_keeps (a1 := v) (Keeps.subMask hM rfl) h
  · exact actHoistRelease_keeps (a1 := v) (Keeps.subMask hM rfl) h
  · exact actCrierAckedWrite_keeps (a1 := v) (Keeps.subMask hM rfl) h
  · exact actTraceCtrlWrite_keeps (a1 := v) (Keeps.subMask hM rfl) h
  · exact actPowerTargetWrite_keeps (a1 := v) (Keeps.subMask hM rfl) h
  · exact actRefSelectWrite_keeps (a1 := v) (Keeps.subMask hM rfl) h
  · exact actFreqGo_keeps (a1 := v) (Keeps.subMask hM rfl) h
  · exact actRetireGo_keeps (a1 := v) (Keeps.subMask hM rfl) h
  · exact actFwGo_keeps (a1 := v) (Keeps.subMask hM rfl) h

theorem actByValue_keep {M : Nat} {s t : State} {key v w : Nat} {a : Act} (hM : 4292868094 &&& M = 4292868094) (h : Keeps M s t)
    (e : actByValue key v = some a) : Keeps M s (a w t).1 := by
  unfold actByValue at e
  repeat' (first
    | contradiction
    | split at e
    | (cases e; repeat' split))
  · exact actPairCommandRelinquish_keeps (Keeps.subMask hM rfl) h
  · exact actPairCommandTakeover_keeps (Keeps.subMask hM rfl) h
  · exact actPairCommandRejoin_keeps (Keeps.subMask hM rfl) h
  · exact actMoveInOpen_keeps (Keeps.subMask hM rfl) h
  · exact actMoveInCancel_keeps (Keeps.subMask hM rfl) h
  · exact actMoveOutStart_keeps (Keeps.subMask hM rfl) h
  · exact actMoveOutStop_keeps (Keeps.subMask hM rfl) h
  · exact actCheckerRawWrite_keeps (Keeps.subMask hM rfl) h
  · exact actCheckerRawRead_keeps (Keeps.subMask hM rfl) h
  · exact actVersionsAllowed_keeps (Keeps.subMask hM rfl) h
  · exact actLaneParkWrite_keeps (Keeps.subMask hM rfl) h

theorem actEntry_keeps {M : Nat} {s t : State} {a1 : _} {a2 : _}
    (hM : 4292868094 &&& M = 4292868094) (h : Keeps M s t) : Keeps M s (actEntry a1 a2 t).1 := by
  unfold actEntry
  try dsimp only
  repeat' (first
    | with_reducible assumption
    | with_reducible exact Keeps.refl _ _
    | ((with_reducible refine Keeps.subMask hM ?_); exact rfl)
    | with_reducible apply storeEntry_keeps
    | exact actByValue_keep hM h (by assumption)
    | exact entryActs_keep hM h _ (List.mem_of_find?_eq_some (by assumption))
    | split
    | with_reducible refine Keeps.fst ‹_ = (_, _)› ?_
    | intro _
    | dsimp only
    | dsimp only [id])

theorem State.writeCheckerCheck_keeps {M : Nat} {s t : State} {a1 : _} {a2 : _}
    (hM : 131072 &&& M = 131072) (h : Keeps M s t) : Keeps M s (State.writeCheckerCheck a1 a2 t).1 := by
  unfold State.writeCheckerCheck
  try dsimp only
  repeat' (first
    | with_reducible assumption
    | with_reducible exact Keeps.refl _ _
    | ((with_reducible refine Keeps.subMask hM ?_); exact rfl)
    | (dsimp only [keepsMk]; (with_reducible apply KeepsMk.put ?_ rfl rfl) <;> first | exact Or.inl (Keeps.subBit hM rfl) | exact Or.inr rfl | exact id | skip)
    | split
    | with_reducible refine Keeps.fst ‹_ = (_, _)› ?_
    | intro _
    | dsimp only
    | dsimp only [id])

theorem State.writeCheckerData_keeps {M : Nat} {s t : State} {a1 : _} {a2 : _}
    (hM : 131072 &&& M = 131072) (h : Keeps M s t) : Keeps M s (State.writeCheckerData a1 a2 t).1 := by
  unfold State.writeCheckerData
  try dsimp only
  repeat' (first
    | with_reducible assumption
    | with_reducible exact Keeps.refl _ _
    | ((with_reducible refine Keeps.subMask hM ?_); exact rfl)
    | (dsimp only [keepsMk]; (with_reducible apply KeepsMk.put ?_ rfl rfl) <;> first | exact Or.inl (Keeps.subBit hM rfl) | exact Or.inr rfl | exact id | skip)
    | split
    | with_reducible refine Keeps.fst ‹_ = (_, _)› ?_
    | intro _
    | dsimp only
    | dsimp only [id])

theorem State.writeSeed_keeps {M : Nat} {s t : State} {a1 : _} {a2 : _}
    (hM : 264192 &&& M = 264192) (h : Keeps M s t) : Keeps M s (State.writeSeed a1 a2 t).1 := by
  unfold State.writeSeed
  try dsimp only
  repeat' (first
    | with_reducible assumption
    | with_reducible exact Keeps.refl _ _
    | ((with_reducible refine Keeps.subMask hM ?_); exact rfl)
    | with_reducible apply State.rowChanged_keeps
    | (dsimp only [keepsMk]; (with_reducible apply KeepsMk.put ?_ rfl rfl) <;> first | exact Or.inl (Keeps.subBit hM rfl) | exact Or.inr rfl | exact id | skip)
    | split
    | with_reducible refine Keeps.fst ‹_ = (_, _)› ?_
    | intro _
    | dsimp only
    | dsimp only [id])

theorem State.writeStanding_keeps {M : Nat} {s t : State} {a1 : _} {a2 : _}
    (hM : 1024 &&& M = 1024) (h : Keeps M s t) : Keeps M s (State.writeStanding a1 a2 t).1 := by
  unfold State.writeStanding
  try dsimp only
  repeat' (first
    | with_reducible assumption
    | with_reducible exact Keeps.refl _ _
    | ((with_reducible refine Keeps.subMask hM ?_); exact rfl)
    | with_reducible apply State.updBarrow_keeps
    | split
    | with_reducible refine Keeps.fst ‹_ = (_, _)› ?_
    | intro _
    | dsimp only
    | dsimp only [id])

theorem windowActs_keep {M : Nat} {s t : State} {r v : Nat} (hM : 5947448444 &&& M = 5947448444) (h : Keeps M s t) :
    ∀ p ∈ windowActs, Keeps M s (p.2 r v t).1 := by
  intro p hp
  simp only [windowActs, List.mem_cons, List.not_mem_nil, or_false] at hp
  rcases hp with rfl | rfl | rfl | rfl | rfl | rfl | rfl | rfl | rfl | rfl | rfl | rfl | rfl | rfl | rfl | rfl
  · exact State.writePrincipal_keeps (a1 := r) (a2 := v) (Keeps.subMask hM rfl) h
  · exact State.writeFwRow_keeps (a1 := r) (a2 := v) (Keeps.subMask hM rfl) h
  · exact State.writeStallRow_keeps (a1 := r) (a2 := v) (Keeps.subMask hM rfl) h
  · exact State.writeShaper_keeps (a1 := r) (a2 := v) (Keeps.subMask hM rfl) h
  · exact State.writeAcl_keeps (a1 := r) (a2 := v) (Keeps.subMask hM rfl) h
  · exact State.writeCheckerData_keeps (a1 := r) (a2 := v) (Keeps.subMask hM rfl) h
  · exact State.writeCheckerCheck_keeps (a1 := r) (a2 := v) (Keeps.subMask hM rfl) h
  · exact State.writeBarrow_keeps (a1 := r) (a2 := v) (Keeps.subMask hM rfl) h
  · exact State.writeStanding_keeps (a1 := r) (a2 := v) (Keeps.subMask hM rfl) h
  · exact State.writeSeed_keeps (a1 := r) (a2 := v) (Keeps.subMask hM rfl) h
  · exact State.writeTree_keeps (a1 := r) (a2 := v) (Keeps.subMask hM rfl) h
  · exact State.writeMembers_keeps (a1 := r) (a2 := v) (Keeps.subMask hM rfl) h
  · exact State.writeSchedule_keeps (a1 := r) (a2 := v) (Keeps.subMask hM rfl) h
  · exact State.writeGate_keeps (a1 := r) (a2 := v) (Keeps.subMask hM rfl) h
  · exact State.writeFbRow_keeps (a1 := r) (a2 := v) (Keeps.subMask hM rfl) h
  · exact State.writeTenant_keeps (a1 := r) (a2 := v) (Keeps.subMask hM rfl) h

theorem writeWindowRow_keeps {M : Nat} {s t : State} {a1 : _} {a2 : _} {a3 : _}
    (hM : 5947448444 &&& M = 5947448444) (h : Keeps M s t) : Keeps M s (writeWindowRow a1 a2 a3 t).1 := by
  unfold writeWindowRow
  try dsimp only
  repeat' (first
    | with_reducible assumption
    | with_reducible exact Keeps.refl _ _
    | ((with_reducible refine Keeps.subMask hM ?_); exact rfl)
    | with_reducible apply State.writeProgram_keeps
    | with_reducible apply State.writeErrorRow_keeps
    | exact windowActs_keep hM h _ (List.mem_of_find?_eq_some (by assumption))
    | split
    | with_reducible refine Keeps.fst ‹_ = (_, _)› ?_
    | intro _
    | dsimp only
    | dsimp only [id])

/-! ### Machine/Profiles.lean -/

theorem State.updProfile_keeps {M : Nat} {s t : State} {a1 : _} {a2 : _}
    (hM : 4297064448 &&& M = 4297064448) (h : Keeps M s t) : Keeps M s (State.updProfile t a1 a2) := by
  unfold State.updProfile
  try dsimp only
  repeat' (first
    | with_reducible assumption
    | with_reducible exact Keeps.refl _ _
    | (dsimp only [keepsMk]; (with_reducible apply KeepsMk.put ?_ rfl rfl) <;> first | exact Or.inl (Keeps.subBit hM rfl) | exact Or.inr rfl | exact id | skip))

theorem State.commit_keeps {M : Nat} {s t : State}
    (hM : 4297064448 &&& M = 4297064448) (h : Keeps M s t) : Keeps M s (State.commit t) := by
  unfold State.commit
  try dsimp only
  repeat' (first
    | with_reducible assumption
    | with_reducible exact Keeps.refl _ _
    | with_reducible apply State.updProfile_keeps
    | with_reducible refine Keeps.foldl ?_ _ ?_
    | with_reducible refine Keeps.foldl_fst ?_ _ ?_
    | with_reducible refine Keeps.foldl_snd ?_ _ ?_
    | (dsimp only [keepsMk]; (with_reducible apply KeepsMk.put ?_ rfl rfl) <;> first | exact Or.inl (Keeps.subBit hM rfl) | exact Or.inr rfl | exact id | skip)
    | split)

theorem loadRows_keeps {M : Nat} {s : State} {a1 : RowAct} {a2 : List (Nat × Nat)} {a3 : State × Nat}
    (hw : ∀ r v t, Keeps M t (a1 r v t).1) (h : Keeps M s a3.1) : Keeps M s (loadRows a1 a2 a3).1 := by
  unfold loadRows
  refine Keeps.foldl_fst ?_ _ h
  intro a x
  split
  · next s' heq =>
    have k := hw x.1 x.2 a.1
    rw [heq] at k
    exact k
  · exact Keeps.refl _ _

theorem State.loadLists_keeps {M : Nat} {s t : State} {a1 : _}
    (hM : 4456500 &&& M = 4456500) (h : Keeps M s t) : Keeps M s (State.loadLists t a1).1 := by
  unfold State.loadLists
  try dsimp only
  repeat' (first
    | with_reducible assumption
    | with_reducible exact Keeps.refl _ _
    | ((with_reducible refine Keeps.subMask hM ?_); exact rfl)
    | with_reducible apply State.writeAcl_keeps
    | with_reducible apply State.writeShaper_keeps
    | (dsimp only [keepsMk]; (with_reducible apply KeepsMk.put ?_ rfl rfl) <;> first | exact Or.inl (Keeps.subBit hM rfl) | exact Or.inr rfl | exact id | skip)
    | with_reducible refine loadRows_keeps ?_ ?_
    | split
    | with_reducible refine Keeps.fst ‹_ = (_, _)› ?_
    | intro _)

theorem State.loadBarrow_keeps {M : Nat} {s : State} {a1 : ProfileData} {a2 : Bool} {a3 : State × Nat} {a4 : Nat}
    (hM : 3136 &&& M = 3136) (h : Keeps M s a3.1) : Keeps M s (State.loadBarrow a1 a2 a3 a4).1 := by
  unfold State.loadBarrow
  extract_lets x y ok z moved s1
  refine State.updBarrow_keeps (t := s1) (Keeps.subMask hM rfl) ?_
  show Keeps M s (if moved = true then a3.1.freeBound a4 else a3.1)
  split
  · exact State.freeBound_keeps (Keeps.subMask hM rfl) h
  · exact h

theorem State.loadPrograms_keeps {M : Nat} {s t : State} {a1 : _} {a2 : _}
    (hM : 3136 &&& M = 3136) (h : Keeps M s t) : Keeps M s (State.loadPrograms t a1 a2).1 := by
  unfold State.loadPrograms
  try dsimp only
  repeat' (first
    | with_reducible assumption
    | with_reducible exact Keeps.refl _ _
    | ((with_reducible refine Keeps.subMask hM ?_); exact rfl)
    | with_reducible apply State.updSlice_keeps
    | with_reducible refine Keeps.foldl ?_ _ ?_
    | with_reducible refine Keeps.foldl_fst ?_ _ ?_
    | with_reducible refine Keeps.foldl_snd ?_ _ ?_
    | (dsimp only [keepsMk]; (with_reducible apply KeepsMk.put ?_ rfl rfl) <;> first | exact Or.inl (Keeps.subBit hM rfl) | exact Or.inr rfl | exact id | skip)
    | with_reducible apply State.loadBarrow_keeps
    | split
    | with_reducible refine Keeps.fst ‹_ = (_, _)› ?_
    | intro _)

theorem State.loadTrees_keeps {M : Nat} {s t : State} {a1 : _}
    (hM : 4096 &&& M = 4096) (h : Keeps M s t) : Keeps M s (State.loadTrees t a1).1 := by
  unfold State.loadTrees
  try dsimp only
  repeat' (first
    | with_reducible assumption
    | with_reducible exact Keeps.refl _ _
    | with_reducible apply State.mapTrees_keeps
    | with_reducible apply State.writeMembers_keeps
    | with_reducible apply State.writeTree_keeps
    | with_reducible refine loadRows_keeps ?_ ?_
    | split
    | with_reducible refine Keeps.fst ‹_ = (_, _)› ?_
    | intro _)

theorem State.loadEntry_keeps {M : Nat} {s t : State} {a1 : State × Nat} {a2 : Nat}
    (hM : 4292868094 &&& M = 4292868094) (h : Keeps M s a1.1) : Keeps M s (State.loadEntry t a1 a2).1 := by
  unfold State.loadEntry
  dsimp only
  split
  · exact h
  · split
    · exact Keeps.fst ‹_ = (_, _)› (actEntry_keeps (Keeps.subMask hM rfl) h)
    · split
      · exact Keeps.fst ‹_ = (_, _)› (actEntry_keeps (Keeps.subMask hM rfl) (State.setReg_keeps (Keeps.subMask hM rfl) h))
      · exact State.setReg_keeps (Keeps.subMask hM rfl) h

theorem State.loadScalars_keeps {M : Nat} {s t : State} {a1 : _}
    (hM : 4292868094 &&& M = 4292868094) (h : Keeps M s t) : Keeps M s (State.loadScalars t a1).1 := by
  unfold State.loadScalars
  try dsimp only
  repeat' (first
    | with_reducible assumption
    | with_reducible exact Keeps.refl _ _
    | ((with_reducible refine Keeps.subMask hM ?_); exact rfl)
    | with_reducible apply State.setReg_keeps
    | with_reducible apply State.loadEntry_keeps
    | with_reducible refine Keeps.foldl ?_ _ ?_
    | with_reducible refine Keeps.foldl_fst ?_ _ ?_
    | with_reducible refine Keeps.foldl_snd ?_ _ ?_
    | split
    | with_reducible refine Keeps.fst ‹_ = (_, _)› ?_
    | intro _)

theorem State.loadTimes_keeps {M : Nat} {s t : State} {a1 : _}
    (hM : 49152 &&& M = 49152) (h : Keeps M s t) : Keeps M s (State.loadTimes t a1) := by
  unfold State.loadTimes
  try dsimp only
  repeat' (first
    | with_reducible assumption
    | with_reducible exact Keeps.refl _ _
    | (dsimp only [keepsMk]; (with_reducible apply KeepsMk.put ?_ rfl rfl) <;> first | exact Or.inl (Keeps.subBit hM rfl) | exact Or.inr rfl | exact id | skip))

theorem State.loadProfile_keeps {M : Nat} {s t : State} {a1 : _} {a2 : _}
    (hM : 4292870142 &&& M = 4292870142) (h : Keeps M s t) : Keeps M s (State.loadProfile t a1 a2).1 := by
  unfold State.loadProfile
  try dsimp only
  repeat' (first
    | with_reducible assumption
    | with_reducible exact Keeps.refl _ _
    | ((with_reducible refine Keeps.subMask hM ?_); exact rfl)
    | with_reducible apply State.loadLists_keeps
    | with_reducible apply State.loadPrograms_keeps
    | with_reducible apply State.loadTrees_keeps
    | with_reducible apply State.loadScalars_keeps
    | with_reducible apply State.loadTimes_keeps
    | with_reducible apply State.rowsChanged_keeps)

theorem State.loadAtReset_keeps {M : Nat} {s t : State}
    (hM : 8589934590 &&& M = 8589934590) (h : Keeps M s t) : Keeps M s (State.loadAtReset t) := by
  unfold State.loadAtReset
  try dsimp only
  repeat' (first
    | with_reducible assumption
    | with_reducible exact Keeps.refl _ _
    | ((with_reducible refine Keeps.subMask hM ?_); exact rfl)
    | with_reducible apply State.loadProfile_keeps
    | with_reducible apply State.updProfile_keeps
    | with_reducible apply State.crier_keeps
    | (dsimp only [keepsMk]; (with_reducible apply KeepsMk.put ?_ rfl rfl) <;> first | exact Or.inl (Keeps.subBit hM rfl) | exact Or.inr rfl | exact id | skip)
    | split)

theorem State.loadRecords_keeps {M : Nat} {s t : State}
    (hM : 5371854850 &&& M = 5371854850) (h : Keeps M s t) : Keeps M s (State.loadRecords t) := by
  unfold State.loadRecords
  try dsimp only
  repeat' (first
    | with_reducible assumption
    | with_reducible exact Keeps.refl _ _
    | ((with_reducible refine Keeps.subMask hM ?_); exact rfl)
    | with_reducible apply State.setReg_keeps
    | with_reducible apply State.updTenant_keeps
    | with_reducible refine Keeps.foldl ?_ _ ?_
    | with_reducible refine Keeps.foldl_fst ?_ _ ?_
    | with_reducible refine Keeps.foldl_snd ?_ _ ?_
    | (dsimp only [keepsMk]; (with_reducible apply KeepsMk.put ?_ rfl rfl) <;> first | exact Or.inl (Keeps.subBit hM rfl) | exact Or.inr rfl | exact id | skip)
    | split
    | with_reducible refine Keeps.fst ‹_ = (_, _)› ?_
    | intro _)

/-! ### Machine/BringupOps.lean -/

theorem State.applyLoaded_keeps {M : Nat} {s t : State}
    (hM : 17039360 &&& M = 17039360) (h : Keeps M s t) : Keeps M s (State.applyLoaded t) := by
  unfold State.applyLoaded
  try dsimp only
  repeat' (first
    | with_reducible assumption
    | with_reducible exact Keeps.refl _ _
    | (dsimp only [keepsMk]; (with_reducible apply KeepsMk.put ?_ rfl rfl) <;> first | exact Or.inl (Keeps.subBit hM rfl) | exact Or.inr rfl | exact id | skip))

theorem State.applyRetired_keeps {M : Nat} {s t : State}
    (hM : 2148008128 &&& M = 2148008128) (h : Keeps M s t) : Keeps M s (State.applyRetired t) := by
  unfold State.applyRetired
  try dsimp only
  repeat' (first
    | with_reducible assumption
    | with_reducible exact Keeps.refl _ _
    | ((with_reducible refine Keeps.subMask hM ?_); exact rfl)
    | with_reducible apply State.updSlice_keeps
    | with_reducible apply State.updChan_keeps
    | (dsimp only [keepsMk]; (with_reducible apply KeepsMk.put ?_ rfl rfl) <;> first | exact Or.inl (Keeps.subBit hM rfl) | exact Or.inr rfl | exact id | skip)
    | with_reducible exact ChanSt.wf_wipe _ _ (by assumption)
    | with_reducible exact ChanSt.wf_setLine _ _ _ (by assumption)
    | with_reducible exact Tbl.wf_set _ _ (by assumption)
    | with_reducible exact Tbl.wf_filter _ (by assumption)
    | with_reducible exact Tbl.wf_nil _
    | with_reducible exact State.memOk_chan (by assumption) _
    | split
    | with_reducible refine Keeps.fst ‹_ = (_, _)› ?_
    | intro _)

theorem State.bootEntry_keeps {M : Nat} {s t : State}
    (hM : 1572864 &&& M = 1572864) (h : Keeps M s t) : Keeps M s (State.bootEntry t) := by
  unfold State.bootEntry
  try dsimp only
  repeat' (first
    | with_reducible assumption
    | with_reducible exact Keeps.refl _ _
    | with_reducible apply State.ledger_keeps)

theorem State.verifySlot_keeps {M : Nat} {s t : State} {a1 : _} {a2 : _}
    (hM : 33554432 &&& M = 33554432) (h : Keeps M s t) : Keeps M s (State.verifySlot t a1 a2) := by
  unfold State.verifySlot
  try dsimp only
  repeat' (first
    | with_reducible assumption
    | with_reducible exact Keeps.refl _ _
    | with_reducible apply State.updFwSlot_keeps)

theorem State.bootFirmware_keeps {M : Nat} {s t : State} {a1 : _} {a2 : _}
    (hM : 33554432 &&& M = 33554432) (h : Keeps M s t) : Keeps M s (State.bootFirmware t a1 a2) := by
  unfold State.bootFirmware
  try dsimp only
  repeat' (first
    | with_reducible assumption
    | with_reducible exact Keeps.refl _ _
    | with_reducible apply State.verifySlot_keeps
    | (dsimp only [keepsMk]; (with_reducible apply KeepsMk.put ?_ rfl rfl) <;> first | exact Or.inl (Keeps.subBit hM rfl) | exact Or.inr rfl | exact id | skip)
    | split)

theorem State.bootTo_keeps {M : Nat} {s t : State} {a1 : _}
    (hM : 33554432 &&& M = 33554432) (h : Keeps M s t) : Keeps M s (State.bootTo t a1) := by
  unfold State.bootTo
  try dsimp only
  repeat' (first
    | with_reducible assumption
    | with_reducible exact Keeps.refl _ _
    | (dsimp only [keepsMk]; (with_reducible apply KeepsMk.put ?_ rfl rfl) <;> first | exact Or.inl (Keeps.subBit hM rfl) | exact Or.inr rfl | exact id | skip))

theorem State.chainReset_keeps {M : Nat} {s t : State}
    (hM : 169345024 &&& M = 169345024) (h : Keeps M s t) : Keeps M s (State.chainReset t) := by
  unfold State.chainReset
  try dsimp only
  repeat' (first
    | with_reducible assumption
    | with_reducible exact Keeps.refl _ _
    | ((with_reducible refine Keeps.subMask hM ?_); exact rfl)
    | with_reducible apply State.ledger_keeps
    | with_reducible apply State.takeFresh_keeps
    | (dsimp only [keepsMk]; (with_reducible apply KeepsMk.put ?_ rfl rfl) <;> first | exact Or.inl (Keeps.subBit hM rfl) | exact Or.inr rfl | exact id | skip))

theorem State.chansTrain_keeps {M : Nat} {s t : State}
    (hM : 128 &&& M = 128) (h : Keeps M s t) : Keeps M s (State.chansTrain t) := by
  unfold State.chansTrain
  try dsimp only
  repeat' (first
    | with_reducible assumption
    | with_reducible exact Keeps.refl _ _
    | with_reducible apply State.updChan_keeps
    | with_reducible refine Keeps.foldl ?_ _ ?_
    | with_reducible refine Keeps.foldl_fst ?_ _ ?_
    | with_reducible refine Keeps.foldl_snd ?_ _ ?_
    | with_reducible exact ChanSt.wf_wipe _ _ (by assumption)
    | with_reducible exact ChanSt.wf_setLine _ _ _ (by assumption)
    | with_reducible exact Tbl.wf_set _ _ (by assumption)
    | with_reducible exact Tbl.wf_filter _ (by assumption)
    | with_reducible exact Tbl.wf_nil _
    | with_reducible exact State.memOk_chan (by assumption) _
    | split
    | with_reducible refine Keeps.fst ‹_ = (_, _)› ?_
    | intro _)

theorem State.failUnits_keeps {M : Nat} {s t : State} {a1 : _}
    (hM : 3764205038 &&& M = 3764205038) (h : Keeps M s t) : Keeps M s (State.failUnits t a1) := by
  unfold State.failUnits
  try dsimp only
  repeat' (first
    | with_reducible assumption
    | with_reducible exact Keeps.refl _ _
    | ((with_reducible refine Keeps.subMask hM ?_); exact rfl)
    | with_reducible apply State.bringUpSlice_keeps
    | with_reducible apply State.bringUpChannel_keeps
    | with_reducible refine Keeps.foldl ?_ _ ?_
    | with_reducible refine Keeps.foldl_fst ?_ _ ?_
    | with_reducible refine Keeps.foldl_snd ?_ _ ?_
    | split
    | with_reducible refine Keeps.fst ‹_ = (_, _)› ?_
    | intro _)

theorem State.ledgerGap_keeps {M : Nat} {s t : State}
    (hM : 1572864 &&& M = 1572864) (h : Keeps M s t) : Keeps M s (State.ledgerGap t) := by
  unfold State.ledgerGap
  try dsimp only
  repeat' (first
    | with_reducible assumption
    | with_reducible exact Keeps.refl _ _
    | with_reducible apply State.ledgerPush_keeps
    | (dsimp only [keepsMk]; (with_reducible apply KeepsMk.put ?_ rfl rfl) <;> first | exact Or.inl (Keeps.subBit hM rfl) | exact Or.inr rfl | exact id | skip)
    | split)

theorem State.linksTrain_keeps {M : Nat} {s t : State}
    (hM : 810360942 &&& M = 810360942) (h : Keeps M s t) : Keeps M s (State.linksTrain t) := by
  unfold State.linksTrain
  try dsimp only
  repeat' (first
    | with_reducible assumption
    | with_reducible exact Keeps.refl _ _
    | with_reducible apply enableLink_keeps
    | with_reducible refine Keeps.foldl ?_ _ ?_
    | with_reducible refine Keeps.foldl_fst ?_ _ ?_
    | with_reducible refine Keeps.foldl_snd ?_ _ ?_
    | split
    | with_reducible refine Keeps.fst ‹_ = (_, _)› ?_
    | intro _)

theorem State.firmwareUp_keeps {M : Nat} {s t : State} {a1 : _}
    (hM : 8589934590 &&& M = 8589934590) (h : Keeps M s t) : Keeps M s (State.firmwareUp t a1) := by
  unfold State.firmwareUp
  try dsimp only
  repeat' (first
    | with_reducible assumption
    | with_reducible exact Keeps.refl _ _
    | ((with_reducible refine Keeps.subMask hM ?_); exact rfl)
    | with_reducible apply State.ledgerGap_keeps
    | with_reducible apply State.applyLoaded_keeps
    | with_reducible apply State.loadAtReset_keeps
    | with_reducible apply State.loadRecords_keeps
    | with_reducible apply State.chainReset_keeps
    | with_reducible apply State.bootEntry_keeps
    | with_reducible apply State.linksTrain_keeps
    | with_reducible apply State.chansTrain_keeps
    | (dsimp only [keepsMk]; (with_reducible apply KeepsMk.put ?_ rfl rfl) <;> first | exact Or.inl (Keeps.subBit hM rfl) | exact Or.inr rfl | exact id | skip)
    | split)

theorem State.hardRepaired_keeps {M : Nat} {s t : State}
    (hM : 33554560 &&& M = 33554560) (h : Keeps M s t) : Keeps M s (State.hardRepaired t) := by
  unfold State.hardRepaired
  try dsimp only
  repeat' (first
    | with_reducible assumption
    | with_reducible exact Keeps.refl _ _
    | ((with_reducible refine Keeps.subMask hM ?_); exact rfl)
    | with_reducible apply State.updChan_keeps
    | with_reducible refine Keeps.foldl ?_ _ ?_
    | with_reducible refine Keeps.foldl_fst ?_ _ ?_
    | with_reducible refine Keeps.foldl_snd ?_ _ ?_
    | (dsimp only [keepsMk]; (with_reducible apply KeepsMk.put ?_ rfl rfl) <;> first | exact Or.inl (Keeps.subBit hM rfl) | exact Or.inr rfl | exact id | skip)
    | with_reducible exact ChanSt.wf_wipe _ _ (by assumption)
    | with_reducible exact ChanSt.wf_setLine _ _ _ (by assumption)
    | with_reducible exact Tbl.wf_set _ _ (by assumption)
    | with_reducible exact Tbl.wf_filter _ (by assumption)
    | with_reducible exact Tbl.wf_nil _
    | with_reducible exact State.memOk_chan (by assumption) _
    | split
    | with_reducible refine Keeps.fst ‹_ = (_, _)› ?_
    | intro _)

theorem State.lockPlls_keeps {M : Nat} {s t : State}
    (hM : 184549376 &&& M = 184549376) (h : Keeps M s t) : Keeps M s (State.lockPlls t) := by
  unfold State.lockPlls
  try dsimp only
  repeat' (first
    | with_reducible assumption
    | with_reducible exact Keeps.refl _ _
    | ((with_reducible refine Keeps.subMask hM ?_); exact rfl)
    | with_reducible apply State.takeFresh_keeps
    | (dsimp only [keepsMk]; (with_reducible apply KeepsMk.put ?_ rfl rfl) <;> first | exact Or.inl (Keeps.subBit hM rfl) | exact Or.inr rfl | exact id | skip))

theorem State.memoryCleared_keeps {M : Nat} {s t : State}
    (hM : 55083208 &&& M = 55083208) (h : Keeps M s t) : Keeps M s (State.memoryCleared t) := by
  unfold State.memoryCleared
  try dsimp only
  repeat' (first
    | with_reducible assumption
    | with_reducible exact Keeps.refl _ _
    | ((with_reducible refine Keeps.subMask hM ?_); exact rfl)
    | with_reducible apply State.updChan_keeps
    | with_reducible apply State.applyGates_keeps
    | with_reducible refine Keeps.foldl ?_ _ ?_
    | with_reducible refine Keeps.foldl_fst ?_ _ ?_
    | with_reducible refine Keeps.foldl_snd ?_ _ ?_
    | (dsimp only [keepsMk]; (with_reducible apply KeepsMk.put ?_ rfl rfl) <;> first | exact Or.inl (Keeps.subBit hM rfl) | exact Or.inr rfl | exact id | skip)
    | with_reducible exact ChanSt.wf_wipe _ _ (by assumption)
    | with_reducible exact ChanSt.wf_setLine _ _ _ (by assumption)
    | with_reducible exact Tbl.wf_set _ _ (by assumption)
    | with_reducible exact Tbl.wf_filter _ (by assumption)
    | with_reducible exact Tbl.wf_nil _
    | with_reducible exact State.memOk_chan (by assumption) _
    | split
    | with_reducible refine Keeps.fst ‹_ = (_, _)› ?_
    | intro _)

theorem State.resetIfAsked_keeps {M : Nat} {s t : State}
    (hM : 8455716862 &&& M = 8455716862) (h : Keeps M s t) : Keeps M s (State.resetIfAsked t) := by
  unfold State.resetIfAsked
  try dsimp only
  repeat' (first
    | with_reducible assumption
    | with_reducible exact Keeps.refl _ _
    | with_reducible apply State.boardReset_keeps
    | split)

theorem State.retiredAtReset_keeps {M : Nat} {s t : State}
    (hM : 2148008130 &&& M = 2148008130) (h : Keeps M s t) : Keeps M s (State.retiredAtReset t) := by
  unfold State.retiredAtReset
  try dsimp only
  repeat' (first
    | with_reducible assumption
    | with_reducible exact Keeps.refl _ _
    | ((with_reducible refine Keeps.subMask hM ?_); exact rfl)
    | with_reducible apply State.updSlice_keeps
    | with_reducible apply State.applyRetired_keeps
    | with_reducible apply State.setReg_keeps
    | (dsimp only [keepsMk]; (with_reducible apply KeepsMk.put ?_ rfl rfl) <;> first | exact Or.inl (Keeps.subBit hM rfl) | exact Or.inr rfl | exact id | skip)
    | split)

theorem State.resetRelease_keeps {M : Nat} {s t : State} {a1 : _} {a2 : _}
    (hM : 7704412354 &&& M = 7704412354) (h : Keeps M s t) : Keeps M s (State.resetRelease t a1 a2) := by
  unfold State.resetRelease
  try dsimp only
  repeat' (first
    | with_reducible assumption
    | with_reducible exact Keeps.refl _ _
    | ((with_reducible refine Keeps.subMask hM ?_); exact rfl)
    | with_reducible apply State.updSlice_keeps
    | with_reducible apply State.lockPlls_keeps
    | with_reducible apply State.retiredAtReset_keeps
    | with_reducible refine Keeps.foldl ?_ _ ?_
    | with_reducible refine Keeps.foldl_fst ?_ _ ?_
    | with_reducible refine Keeps.foldl_snd ?_ _ ?_
    | (dsimp only [keepsMk]; (with_reducible apply KeepsMk.put ?_ rfl rfl) <;> first | exact Or.inl (Keeps.subBit hM rfl) | exact Or.inr rfl | exact id | skip)
    | split
    | with_reducible refine Keeps.fst ‹_ = (_, _)› ?_
    | intro _)

theorem State.selfTested_keeps {M : Nat} {s t : State} {a1 : _}
    (hM : 33554496 &&& M = 33554496) (h : Keeps M s t) : Keeps M s (State.selfTested t a1) := by
  unfold State.selfTested
  try dsimp only
  repeat' (first
    | with_reducible assumption
    | with_reducible exact Keeps.refl _ _
    | ((with_reducible refine Keeps.subMask hM ?_); exact rfl)
    | with_reducible apply State.updSlice_keeps
    | with_reducible refine Keeps.foldl ?_ _ ?_
    | with_reducible refine Keeps.foldl_fst ?_ _ ?_
    | with_reducible refine Keeps.foldl_snd ?_ _ ?_
    | (dsimp only [keepsMk]; (with_reducible apply KeepsMk.put ?_ rfl rfl) <;> first | exact Or.inl (Keeps.subBit hM rfl) | exact Or.inr rfl | exact id | skip)
    | split
    | with_reducible refine Keeps.fst ‹_ = (_, _)› ?_
    | intro _)

theorem State.setCapacity_keeps {M : Nat} {s t : State}
    (hM : 32 &&& M = 32) (h : Keeps M s t) : Keeps M s (State.setCapacity t) := by
  unfold State.setCapacity
  try dsimp only
  repeat' (first
    | with_reducible assumption
    | with_reducible exact Keeps.refl _ _
    | (dsimp only [keepsMk]; (with_reducible apply KeepsMk.put ?_ rfl rfl) <;> first | exact Or.inl (Keeps.subBit hM rfl) | exact Or.inr rfl | exact id | skip))

theorem State.tellMismatch_keeps {M : Nat} {s t : State}
    (hM : 4718600 &&& M = 4718600) (h : Keeps M s t) : Keeps M s (State.tellMismatch t) := by
  unfold State.tellMismatch
  try dsimp only
  repeat' (first
    | with_reducible assumption
    | with_reducible exact Keeps.refl _ _
    | with_reducible apply State.crier_keeps
    | split)

theorem State.trainChan_keeps {M : Nat} {s t : State} {a1 : _} {a2 : _}
    (hM : 128 &&& M = 128) (h : Keeps M s t) : Keeps M s (State.trainChan t a1 a2) := by
  unfold State.trainChan
  try dsimp only
  repeat' (first
    | with_reducible assumption
    | with_reducible exact Keeps.refl _ _
    | with_reducible apply State.updChan_keeps
    | with_reducible exact ChanSt.wf_wipe _ _ (by assumption)
    | with_reducible exact ChanSt.wf_setLine _ _ _ (by assumption)
    | with_reducible exact Tbl.wf_set _ _ (by assumption)
    | with_reducible exact Tbl.wf_filter _ (by assumption)
    | with_reducible exact Tbl.wf_nil _
    | with_reducible exact State.memOk_chan (by assumption) _
    | split
    | with_reducible refine Keeps.fst ‹_ = (_, _)› ?_
    | intro _)

theorem State.trainStack_keeps {M : Nat} {s t : State} {a1 : _} {a2 : _}
    (hM : 128 &&& M = 128) (h : Keeps M s t) : Keeps M s (State.trainStack t a1 a2) := by
  unfold State.trainStack
  try dsimp only
  repeat' (first
    | with_reducible assumption
    | with_reducible exact Keeps.refl _ _
    | with_reducible apply State.updChan_keeps
    | with_reducible exact ChanSt.wf_wipe _ _ (by assumption)
    | with_reducible exact ChanSt.wf_setLine _ _ _ (by assumption)
    | with_reducible exact Tbl.wf_set _ _ (by assumption)
    | with_reducible exact Tbl.wf_filter _ (by assumption)
    | with_reducible exact Tbl.wf_nil _
    | with_reducible exact State.memOk_chan (by assumption) _
    | split
    | with_reducible refine Keeps.fst ‹_ = (_, _)› ?_
    | intro _)

theorem State.trained_keeps {M : Nat} {s t : State} {a1 : _} {a2 : _}
    (hM : 3797759470 &&& M = 3797759470) (h : Keeps M s t) : Keeps M s (State.trained t a1 a2) := by
  unfold State.trained
  try dsimp only
  repeat' (first
    | with_reducible assumption
    | with_reducible exact Keeps.refl _ _
    | ((with_reducible refine Keeps.subMask hM ?_); exact rfl)
    | with_reducible apply State.tellMismatch_keeps
    | with_reducible apply State.setCapacity_keeps
    | with_reducible apply State.trainChan_keeps
    | with_reducible apply State.trainStack_keeps
    | with_reducible apply State.bootTo_keeps
    | with_reducible apply State.failUnits_keeps
    | with_reducible refine Keeps.foldl ?_ _ ?_
    | with_reducible refine Keeps.foldl_fst ?_ _ ?_
    | with_reducible refine Keeps.foldl_snd ?_ _ ?_
    | split
    | with_reducible refine Keeps.fst ‹_ = (_, _)› ?_
    | intro _)

theorem actResetBoard_keeps {M : Nat} {s t : State} {a1 : _}
    (hM : 38088772 &&& M = 38088772) (h : Keeps M s t) : Keeps M s (actResetBoard a1 t).1 := by
  unfold actResetBoard
  try dsimp only
  repeat' (first
    | with_reducible assumption
    | with_reducible exact Keeps.refl _ _
    | ((with_reducible refine Keeps.subMask hM ?_); exact rfl)
    | with_reducible apply State.relinquishCycle_keeps
    | (dsimp only [keepsMk]; (with_reducible apply KeepsMk.put ?_ rfl rfl) <;> first | exact Or.inl (Keeps.subBit hM rfl) | exact Or.inr rfl | exact id | skip)
    | split)

end Sys2Proof.Machine
end

