-- ==== Sys2Proof/Laws/Frame8.lean ====
section
/-! SUPPORT. What each operation may change and that it keeps the memory's canonical form: Bringup, Kernels, Readings, Mgmt, Requests, Dispatch, Tick. -/

set_option linter.unusedTactic false
set_option linter.unreachableTactic false
set_option linter.unusedVariables false

namespace Sys2Proof.Machine

/-! ### Machine/Bringup.lean -/

theorem execResetN_keeps {M : Nat} {s t : State}
    (hM : 8455716862 &&& M = 8455716862) (h : Keeps M s t) : KeepsOut M s (execResetN t) := by
  unfold execResetN
  try dsimp only
  repeat' (first
    | with_reducible assumption
    | with_reducible exact Keeps.refl _ _
    | with_reducible apply KeepsOut.next
    | with_reducible apply State.boardReset_keeps
    | split)

theorem execResetBoard_keeps {M : Nat} {s t : State} {a1 : _} {a2 : _}
    (hM : 8455716862 &&& M = 8455716862) (h : Keeps M s t) : KeepsOut M s (execResetBoard a1 a2 t) := by
  unfold execResetBoard
  try dsimp only
  repeat' (first
    | with_reducible assumption
    | with_reducible exact Keeps.refl _ _
    | ((with_reducible refine Keeps.subMask hM ?_); exact rfl)
    | with_reducible apply KeepsOut.next
    | with_reducible apply State.resetIfAsked_keeps
    | with_reducible apply State.write_keeps
    | with_reducible apply actResetBoard_keeps
    | split
    | with_reducible refine Keeps.fst ‹_ = (_, _)› ?_
    | intro _)

theorem execResetRelease_keeps {M : Nat} {s t : State} {a1 : _} {a2 : _}
    (hM : 7704412354 &&& M = 7704412354) (h : Keeps M s t) : KeepsOut M s (execResetRelease a1 a2 t) := by
  unfold execResetRelease
  try dsimp only
  repeat' (first
    | with_reducible assumption
    | with_reducible exact Keeps.refl _ _
    | with_reducible apply KeepsOut.next
    | with_reducible apply State.resetRelease_keeps
    | split)

theorem execSelfTestDone_keeps {M : Nat} {s t : State} {a1 : _}
    (hM : 33554496 &&& M = 33554496) (h : Keeps M s t) : KeepsOut M s (execSelfTestDone a1 t) := by
  unfold execSelfTestDone
  try dsimp only
  repeat' (first
    | with_reducible assumption
    | with_reducible exact Keeps.refl _ _
    | with_reducible apply KeepsOut.next
    | with_reducible apply State.selfTested_keeps
    | split)

theorem execBootSlotVerifyDone_keeps {M : Nat} {s t : State} {a1 : _} {a2 : _}
    (hM : 33554432 &&& M = 33554432) (h : Keeps M s t) : KeepsOut M s (execBootSlotVerifyDone a1 a2 t) := by
  unfold execBootSlotVerifyDone
  try dsimp only
  repeat' (first
    | with_reducible assumption
    | with_reducible exact Keeps.refl _ _
    | with_reducible apply KeepsOut.next
    | with_reducible apply State.bootFirmware_keeps
    | split)

theorem execFirmwareBringUpDone_keeps {M : Nat} {s t : State} {a1 : _}
    (hM : 8589934590 &&& M = 8589934590) (h : Keeps M s t) : KeepsOut M s (execFirmwareBringUpDone a1 t) := by
  unfold execFirmwareBringUpDone
  try dsimp only
  repeat' (first
    | with_reducible assumption
    | with_reducible exact Keeps.refl _ _
    | with_reducible apply KeepsOut.next
    | with_reducible apply State.firmwareUp_keeps
    | split)

theorem execMemoryInitDone_keeps {M : Nat} {s t : State}
    (hM : 33554432 &&& M = 33554432) (h : Keeps M s t) : KeepsOut M s (execMemoryInitDone t) := by
  unfold execMemoryInitDone
  try dsimp only
  repeat' (first
    | with_reducible assumption
    | with_reducible exact Keeps.refl _ _
    | with_reducible apply KeepsOut.next
    | with_reducible apply State.bootTo_keeps
    | split)

theorem execHardRepairDone_keeps {M : Nat} {s t : State}
    (hM : 33554560 &&& M = 33554560) (h : Keeps M s t) : KeepsOut M s (execHardRepairDone t) := by
  unfold execHardRepairDone
  try dsimp only
  repeat' (first
    | with_reducible assumption
    | with_reducible exact Keeps.refl _ _
    | with_reducible apply KeepsOut.next
    | with_reducible apply State.hardRepaired_keeps
    | split)

theorem execMemoryTrainingDone_keeps {M : Nat} {s t : State} {a1 : _} {a2 : _}
    (hM : 3797759470 &&& M = 3797759470) (h : Keeps M s t) : KeepsOut M s (execMemoryTrainingDone a1 a2 t) := by
  unfold execMemoryTrainingDone
  try dsimp only
  repeat' (first
    | with_reducible assumption
    | with_reducible exact Keeps.refl _ _
    | with_reducible apply KeepsOut.next
    | with_reducible apply State.trained_keeps
    | split)

theorem execMemoryClearDone_keeps {M : Nat} {s t : State}
    (hM : 55083208 &&& M = 55083208) (h : Keeps M s t) : KeepsOut M s (execMemoryClearDone t) := by
  unfold execMemoryClearDone
  try dsimp only
  repeat' (first
    | with_reducible assumption
    | with_reducible exact Keeps.refl _ _
    | with_reducible apply KeepsOut.next
    | with_reducible apply State.memoryCleared_keeps
    | split)

/-! ### Machine/Kernels.lean -/

theorem State.addLine_keeps {M : Nat} {s t : State} {a1 : _} {a2 : _} {a3 : _} {a4 : _}
    (hM : 2169242860 &&& M = 2169242860) (h : Keeps M s t) : Keeps M s (State.addLine t a1 a2 a3 a4).1 := by
  unfold State.addLine
  try dsimp only
  repeat' (first
    | with_reducible assumption
    | with_reducible exact Keeps.refl _ _
    | ((with_reducible refine Keeps.subMask hM ?_); exact rfl)
    | with_reducible apply State.poisonAt_keeps
    | with_reducible apply State.accumulate_keeps
    | with_reducible refine Keeps.foldl ?_ _ ?_
    | with_reducible refine Keeps.foldl_fst ?_ _ ?_
    | with_reducible refine Keeps.foldl_snd ?_ _ ?_
    | split
    | with_reducible refine Keeps.fst ‹_ = (_, _)› ?_
    | intro _)

theorem State.addLines_keeps {M : Nat} {s t : State} {a1 : _} {a2 : _} {a3 : _}
    (hM : 2169242860 &&& M = 2169242860) (h : Keeps M s t) : Keeps M s (State.addLines t a1 a2 a3).1 := by
  induction a3 generalizing t a1 a2 with
  | nil =>
    unfold State.addLines
    try dsimp only
    repeat' (first
      | with_reducible assumption)
  | cons x l ih =>
    unfold State.addLines
    try dsimp only
    repeat' (first
      | with_reducible assumption
      | with_reducible exact Keeps.refl _ _
      | with_reducible apply ih
      | with_reducible apply State.addLine_keeps
      | split)

theorem State.addWork_keeps {M : Nat} {s t : State} {a1 : _}
    (hM : 2169308396 &&& M = 2169308396) (h : Keeps M s t) : Keeps M s (State.addWork t a1).1 := by
  unfold State.addWork
  try dsimp only
  repeat' (first
    | with_reducible assumption
    | with_reducible exact Keeps.refl _ _
    | ((with_reducible refine Keeps.subMask hM ?_); exact rfl)
    | with_reducible apply State.fetchLines_keeps
    | with_reducible apply State.countElems_keeps
    | with_reducible apply State.updRegion_keeps
    | with_reducible apply State.stickReads_keeps
    | with_reducible apply State.addLines_keeps
    | with_reducible refine Keeps.foldl ?_ _ ?_
    | with_reducible refine Keeps.foldl_fst ?_ _ ?_
    | with_reducible refine Keeps.foldl_snd ?_ _ ?_
    | split)

theorem State.armEnter_keeps {M : Nat} {s t : State} {a1 : _}
    (hM : 64 &&& M = 64) (h : Keeps M s t) : Keeps M s (State.armEnter t a1) := by
  unfold State.armEnter
  try dsimp only
  repeat' (first
    | with_reducible assumption
    | with_reducible exact Keeps.refl _ _
    | with_reducible apply State.updRegion_keeps)

theorem State.armLeave_keeps {M : Nat} {s t : State} {a1 : _}
    (hM : 1088 &&& M = 1088) (h : Keeps M s t) : Keeps M s (State.armLeave t a1).1 := by
  unfold State.armLeave
  try dsimp only
  repeat' (first
    | with_reducible assumption
    | with_reducible exact Keeps.refl _ _
    | ((with_reducible refine Keeps.subMask hM ?_); exact rfl)
    | with_reducible apply State.closeByCount_keeps
    | with_reducible apply State.updRegion_keeps
    | split)

theorem State.armWork_keeps {M : Nat} {s t : State} {a1 : _}
    (hM : 2169308396 &&& M = 2169308396) (h : Keeps M s t) : Keeps M s (State.armWork t a1).1 := by
  unfold State.armWork
  try dsimp only
  repeat' (first
    | with_reducible assumption
    | with_reducible exact Keeps.refl _ _
    | ((with_reducible refine Keeps.subMask hM ?_); exact rfl)
    | with_reducible apply State.finishWrites_keeps
    | with_reducible apply State.countElems_keeps)

theorem State.castWork_keeps {M : Nat} {s t : State} {a1 : _}
    (hM : 2169308396 &&& M = 2169308396) (h : Keeps M s t) : Keeps M s (State.castWork t a1).1 := by
  unfold State.castWork
  try dsimp only
  repeat' (first
    | with_reducible assumption
    | with_reducible exact Keeps.refl _ _
    | ((with_reducible refine Keeps.subMask hM ?_); exact rfl)
    | with_reducible apply State.fetchLines_keeps
    | with_reducible apply State.finishWrites_keeps
    | with_reducible apply State.countElems_keeps
    | with_reducible apply State.setFlags_keeps
    | with_reducible apply State.stickReads_keeps)

theorem closeSources_keeps {M : Nat} {s t : State} {a1 : _} {a2 : _}
    (hM : 1088 &&& M = 1088) (h : Keeps M s t) : Keeps M s (closeSources a1 t a2) := by
  unfold closeSources
  try dsimp only
  repeat' (first
    | with_reducible assumption
    | with_reducible exact Keeps.refl _ _
    | with_reducible apply State.closeRead_keeps
    | with_reducible refine Keeps.foldl ?_ _ ?_
    | with_reducible refine Keeps.foldl_fst ?_ _ ?_
    | with_reducible refine Keeps.foldl_snd ?_ _ ?_
    | split
    | with_reducible refine Keeps.fst ‹_ = (_, _)› ?_
    | intro _)

theorem State.compareEnter_keeps {M : Nat} {s t : State} {a1 : _}
    (hM : 1088 &&& M = 1088) (h : Keeps M s t) : Keeps M s (State.compareEnter t a1) := by
  unfold State.compareEnter
  try dsimp only
  repeat' (first
    | with_reducible assumption
    | with_reducible exact Keeps.refl _ _
    | ((with_reducible refine Keeps.subMask hM ?_); exact rfl)
    | with_reducible apply State.updMember_keeps
    | with_reducible apply closeSources_keeps)

theorem State.compareWork_keeps {M : Nat} {s t : State} {a1 : _}
    (hM : 2169046216 &&& M = 2169046216) (h : Keeps M s t) : Keeps M s (State.compareWork t a1).1 := by
  unfold State.compareWork
  try dsimp only
  repeat' (first
    | with_reducible assumption
    | with_reducible exact Keeps.refl _ _
    | ((with_reducible refine Keeps.subMask hM ?_); exact rfl)
    | with_reducible apply State.fetchLines_keeps
    | with_reducible apply State.countElems_keeps
    | with_reducible apply State.updMember_keeps)

theorem State.copyWork_keeps {M : Nat} {s t : State} {a1 : _}
    (hM : 2169308396 &&& M = 2169308396) (h : Keeps M s t) : Keeps M s (State.copyWork t a1).1 := by
  unfold State.copyWork
  try dsimp only
  repeat' (first
    | with_reducible assumption
    | with_reducible exact Keeps.refl _ _
    | ((with_reducible refine Keeps.subMask hM ?_); exact rfl)
    | with_reducible apply State.fetchLines_keeps
    | with_reducible apply State.finishWrites_keeps
    | with_reducible apply State.countElems_keeps)

theorem State.digestWork_keeps {M : Nat} {s t : State} {a1 : _}
    (hM : 2169308396 &&& M = 2169308396) (h : Keeps M s t) : Keeps M s (State.digestWork t a1).1 := by
  unfold State.digestWork
  try dsimp only
  repeat' (first
    | with_reducible assumption
    | with_reducible exact Keeps.refl _ _
    | ((with_reducible refine Keeps.subMask hM ?_); exact rfl)
    | with_reducible apply State.fetchLines_keeps
    | with_reducible apply State.finishWrites_keeps
    | with_reducible apply State.countElems_keeps)

theorem State.fillWork_keeps {M : Nat} {s t : State} {a1 : _}
    (hM : 2169308396 &&& M = 2169308396) (h : Keeps M s t) : Keeps M s (State.fillWork t a1).1 := by
  unfold State.fillWork
  try dsimp only
  repeat' (first
    | with_reducible assumption
    | with_reducible exact Keeps.refl _ _
    | ((with_reducible refine Keeps.subMask hM ?_); exact rfl)
    | with_reducible apply State.finishWrites_keeps
    | with_reducible apply State.countElems_keeps)

theorem State.finaliseEnter_keeps {M : Nat} {s t : State} {a1 : _}
    (hM : 1088 &&& M = 1088) (h : Keeps M s t) : Keeps M s (State.finaliseEnter t a1) := by
  unfold State.finaliseEnter
  try dsimp only
  repeat' (first
    | with_reducible assumption
    | with_reducible exact Keeps.refl _ _
    | ((with_reducible refine Keeps.subMask hM ?_); exact rfl)
    | with_reducible apply State.closeRead_keeps
    | with_reducible apply State.setFlags_keeps
    | split)

theorem State.finaliseWork_keeps {M : Nat} {s t : State} {a1 : _} {a2 : _}
    (hM : 2169308396 &&& M = 2169308396) (h : Keeps M s t) : Keeps M s (State.finaliseWork a1 t a2).1 := by
  unfold State.finaliseWork
  try dsimp only
  repeat' (first
    | with_reducible assumption
    | with_reducible exact Keeps.refl _ _
    | ((with_reducible refine Keeps.subMask hM ?_); exact rfl)
    | with_reducible apply State.fetchLines_keeps
    | with_reducible apply State.setFlags_keeps
    | with_reducible apply State.stickReads_keeps
    | with_reducible apply State.updMember_keeps
    | with_reducible apply State.finishWrites_keeps
    | with_reducible apply State.countElems_keeps
    | with_reducible refine Keeps.foldl ?_ _ ?_
    | with_reducible refine Keeps.foldl_fst ?_ _ ?_
    | with_reducible refine Keeps.foldl_snd ?_ _ ?_
    | split)

theorem State.hyper_keeps {M : Nat} {s t : State} {a1 : _}
    (hM : 2169045192 &&& M = 2169045192) (h : Keeps M s t) : Keeps M s (State.hyper t a1).1 := by
  unfold State.hyper
  try dsimp only
  repeat' (first
    | with_reducible assumption
    | with_reducible exact Keeps.refl _ _
    | with_reducible apply State.fetchLines_keeps)

theorem State.releaseWork_keeps {M : Nat} {s t : State} {a1 : _}
    (hM : 64 &&& M = 64) (h : Keeps M s t) : Keeps M s (State.releaseWork t a1).1 := by
  unfold State.releaseWork
  try dsimp only
  repeat' (first
    | with_reducible assumption
    | with_reducible exact Keeps.refl _ _
    | with_reducible apply State.updRegion_keeps
    | split)

theorem State.scaleWork_keeps {M : Nat} {s t : State} {a1 : _}
    (hM : 2169308396 &&& M = 2169308396) (h : Keeps M s t) : Keeps M s (State.scaleWork t a1).1 := by
  unfold State.scaleWork
  try dsimp only
  repeat' (first
    | with_reducible assumption
    | with_reducible exact Keeps.refl _ _
    | ((with_reducible refine Keeps.subMask hM ?_); exact rfl)
    | with_reducible apply State.fetchLines_keeps
    | with_reducible apply State.stickReads_keeps
    | with_reducible apply State.finishWrites_keeps
    | with_reducible apply State.countElems_keeps
    | with_reducible apply State.setFlags_keeps)

theorem State.updateBody_keeps {M : Nat} {s t : State} {a1 : _} {a2 : _} {a3 : _} {a4 : _} {a5 : _}
    (hM : 2169308396 &&& M = 2169308396) (h : Keeps M s t) : Keeps M s (State.updateBody a1 t a2 a3 a4 a5).1 := by
  unfold State.updateBody
  try dsimp only
  repeat' (first
    | with_reducible assumption
    | with_reducible exact Keeps.refl _ _
    | ((with_reducible refine Keeps.subMask hM ?_); exact rfl)
    | with_reducible apply State.fetchLines_keeps
    | with_reducible apply State.finishWrites_keeps
    | with_reducible apply State.countElems_keeps
    | with_reducible apply State.setFlags_keeps
    | with_reducible apply State.stickReads_keeps)

theorem State.updateEnter_keeps {M : Nat} {s t : State} {a1 : _} {a2 : _}
    (hM : 2169046216 &&& M = 2169046216) (h : Keeps M s t) : Keeps M s (State.updateEnter a1 t a2) := by
  unfold State.updateEnter
  try dsimp only
  repeat' (first
    | with_reducible assumption
    | with_reducible exact Keeps.refl _ _
    | ((with_reducible refine Keeps.subMask hM ?_); exact rfl)
    | with_reducible apply closeSources_keeps
    | with_reducible apply State.fetchLines_keeps
    | with_reducible apply State.updMember_keeps
    | with_reducible apply State.setFlags_keeps
    | split)

theorem State.updateWork_keeps {M : Nat} {s t : State} {a1 : _} {a2 : _} {a3 : _}
    (hM : 2169308396 &&& M = 2169308396) (h : Keeps M s t) : Keeps M s (State.updateWork a1 a2 t a3).1 := by
  unfold State.updateWork
  try dsimp only
  repeat' (first
    | with_reducible assumption
    | with_reducible exact Keeps.refl _ _
    | with_reducible apply State.updateBody_keeps
    | split)

theorem execDescFill_keeps {M : Nat} {s t : State} {a1 : _} {a2 : _}
    (hM : 2169308396 &&& M = 2169308396) (h : Keeps M s t) : KeepsOut M s (execDescFill a1 a2 t) := by
  unfold execDescFill
  try dsimp only
  repeat' (first
    | with_reducible assumption
    | with_reducible exact Keeps.refl _ _
    | ((with_reducible refine Keeps.subMask hM ?_); exact rfl)
    | with_reducible apply KeepsOut.next
    | with_reducible apply State.descriptor_keeps
    | with_reducible refine State.descriptor_keeps ?_ ?_ ?_
    | (refine ⟨fun _ _ => ?_, fun _ _ => ?_, fun _ _ => ?_⟩; all_goals try dsimp only [fillKernel])
    | with_reducible apply State.fillWork_keeps)

theorem execDescCopy_keeps {M : Nat} {s t : State} {a1 : _} {a2 : _}
    (hM : 2169308396 &&& M = 2169308396) (h : Keeps M s t) : KeepsOut M s (execDescCopy a1 a2 t) := by
  unfold execDescCopy
  try dsimp only
  repeat' (first
    | with_reducible assumption
    | with_reducible exact Keeps.refl _ _
    | ((with_reducible refine Keeps.subMask hM ?_); exact rfl)
    | with_reducible apply KeepsOut.next
    | with_reducible apply State.descriptor_keeps
    | with_reducible refine State.descriptor_keeps ?_ ?_ ?_
    | (refine ⟨fun _ _ => ?_, fun _ _ => ?_, fun _ _ => ?_⟩; all_goals try dsimp only [copyKernel])
    | with_reducible apply closeSources_keeps
    | with_reducible apply State.copyWork_keeps)

theorem execDescCompare_keeps {M : Nat} {s t : State} {a1 : _} {a2 : _}
    (hM : 2169046216 &&& M = 2169046216) (h : Keeps M s t) : KeepsOut M s (execDescCompare a1 a2 t) := by
  unfold execDescCompare
  try dsimp only
  repeat' (first
    | with_reducible assumption
    | with_reducible exact Keeps.refl _ _
    | ((with_reducible refine Keeps.subMask hM ?_); exact rfl)
    | with_reducible apply KeepsOut.next
    | with_reducible apply State.descriptor_keeps
    | with_reducible refine State.descriptor_keeps ?_ ?_ ?_
    | (refine ⟨fun _ _ => ?_, fun _ _ => ?_, fun _ _ => ?_⟩; all_goals try dsimp only [compareKernel])
    | with_reducible apply State.compareEnter_keeps
    | with_reducible apply State.compareWork_keeps)

theorem execDescDigest_keeps {M : Nat} {s t : State} {a1 : _} {a2 : _}
    (hM : 2169308396 &&& M = 2169308396) (h : Keeps M s t) : KeepsOut M s (execDescDigest a1 a2 t) := by
  unfold execDescDigest
  try dsimp only
  repeat' (first
    | with_reducible assumption
    | with_reducible exact Keeps.refl _ _
    | ((with_reducible refine Keeps.subMask hM ?_); exact rfl)
    | with_reducible apply KeepsOut.next
    | with_reducible apply State.descriptor_keeps
    | with_reducible refine State.descriptor_keeps ?_ ?_ ?_
    | (refine ⟨fun _ _ => ?_, fun _ _ => ?_, fun _ _ => ?_⟩; all_goals try dsimp only [digestKernel])
    | with_reducible apply closeSources_keeps
    | with_reducible apply State.digestWork_keeps)

theorem execReduceArm_keeps {M : Nat} {s t : State} {a1 : _} {a2 : _}
    (hM : 2169308396 &&& M = 2169308396) (h : Keeps M s t) : KeepsOut M s (execReduceArm a1 a2 t) := by
  unfold execReduceArm
  try dsimp only
  repeat' (first
    | with_reducible assumption
    | with_reducible exact Keeps.refl _ _
    | ((with_reducible refine Keeps.subMask hM ?_); exact rfl)
    | with_reducible apply KeepsOut.next
    | with_reducible apply State.descriptor_keeps
    | with_reducible refine State.descriptor_keeps ?_ ?_ ?_
    | (refine ⟨fun _ _ => ?_, fun _ _ => ?_, fun _ _ => ?_⟩; all_goals try dsimp only [armKernel])
    | with_reducible apply State.armEnter_keeps
    | with_reducible apply State.armWork_keeps
    | with_reducible apply State.armLeave_keeps)

theorem execReduceAdd_keeps {M : Nat} {s t : State} {a1 : _} {a2 : _}
    (hM : 2169308396 &&& M = 2169308396) (h : Keeps M s t) : KeepsOut M s (execReduceAdd a1 a2 t) := by
  unfold execReduceAdd
  try dsimp only
  repeat' (first
    | with_reducible assumption
    | with_reducible exact Keeps.refl _ _
    | ((with_reducible refine Keeps.subMask hM ?_); exact rfl)
    | with_reducible apply KeepsOut.next
    | with_reducible apply State.descriptor_keeps
    | with_reducible refine State.descriptor_keeps ?_ ?_ ?_
    | (refine ⟨fun _ _ => ?_, fun _ _ => ?_, fun _ _ => ?_⟩; all_goals try dsimp only [addKernel])
    | with_reducible apply closeSources_keeps
    | with_reducible apply State.addWork_keeps)

theorem execReduceFinalise_keeps {M : Nat} {s t : State} {a1 : _} {a2 : _}
    (hM : 2169308396 &&& M = 2169308396) (h : Keeps M s t) : KeepsOut M s (execReduceFinalise a1 a2 t) := by
  unfold execReduceFinalise
  try dsimp only
  repeat' (first
    | with_reducible assumption
    | with_reducible exact Keeps.refl _ _
    | ((with_reducible refine Keeps.subMask hM ?_); exact rfl)
    | with_reducible apply KeepsOut.next
    | with_reducible apply State.descriptor_keeps
    | with_reducible refine State.descriptor_keeps ?_ ?_ ?_
    | (refine ⟨fun _ _ => ?_, fun _ _ => ?_, fun _ _ => ?_⟩; all_goals try dsimp only [finaliseKernel])
    | with_reducible apply State.finaliseEnter_keeps
    | with_reducible apply State.finaliseWork_keeps)

theorem execReduceFinaliseNorm_keeps {M : Nat} {s t : State} {a1 : _} {a2 : _}
    (hM : 2169308396 &&& M = 2169308396) (h : Keeps M s t) : KeepsOut M s (execReduceFinaliseNorm a1 a2 t) := by
  unfold execReduceFinaliseNorm
  try dsimp only
  repeat' (first
    | with_reducible assumption
    | with_reducible exact Keeps.refl _ _
    | ((with_reducible refine Keeps.subMask hM ?_); exact rfl)
    | with_reducible apply KeepsOut.next
    | with_reducible apply State.descriptor_keeps
    | with_reducible refine State.descriptor_keeps ?_ ?_ ?_
    | (refine ⟨fun _ _ => ?_, fun _ _ => ?_, fun _ _ => ?_⟩; all_goals try dsimp only [finaliseKernel])
    | with_reducible apply State.finaliseEnter_keeps
    | with_reducible apply State.finaliseWork_keeps)

theorem execReduceRelease_keeps {M : Nat} {s t : State} {a1 : _} {a2 : _}
    (hM : 21496904 &&& M = 21496904) (h : Keeps M s t) : KeepsOut M s (execReduceRelease a1 a2 t) := by
  unfold execReduceRelease
  try dsimp only
  repeat' (first
    | with_reducible assumption
    | with_reducible exact Keeps.refl _ _
    | ((with_reducible refine Keeps.subMask hM ?_); exact rfl)
    | with_reducible apply KeepsOut.next
    | with_reducible apply State.descriptor_keeps
    | with_reducible refine State.descriptor_keeps ?_ ?_ ?_
    | (refine ⟨fun _ _ => ?_, fun _ _ => ?_, fun _ _ => ?_⟩; all_goals try dsimp only [releaseKernel])
    | with_reducible apply State.releaseWork_keeps)

theorem execDescCast_keeps {M : Nat} {s t : State} {a1 : _} {a2 : _}
    (hM : 2169308396 &&& M = 2169308396) (h : Keeps M s t) : KeepsOut M s (execDescCast a1 a2 t) := by
  unfold execDescCast
  try dsimp only
  repeat' (first
    | with_reducible assumption
    | with_reducible exact Keeps.refl _ _
    | ((with_reducible refine Keeps.subMask hM ?_); exact rfl)
    | with_reducible apply KeepsOut.next
    | with_reducible apply State.descriptor_keeps
    | with_reducible refine State.descriptor_keeps ?_ ?_ ?_
    | (refine ⟨fun _ _ => ?_, fun _ _ => ?_, fun _ _ => ?_⟩; all_goals try dsimp only [castKernel])
    | with_reducible apply closeSources_keeps
    | with_reducible apply State.castWork_keeps)

theorem execScaleAdd_keeps {M : Nat} {s t : State} {a1 : _} {a2 : _}
    (hM : 2169308396 &&& M = 2169308396) (h : Keeps M s t) : KeepsOut M s (execScaleAdd a1 a2 t) := by
  unfold execScaleAdd
  try dsimp only
  repeat' (first
    | with_reducible assumption
    | with_reducible exact Keeps.refl _ _
    | ((with_reducible refine Keeps.subMask hM ?_); exact rfl)
    | with_reducible apply KeepsOut.next
    | with_reducible apply State.descriptor_keeps
    | with_reducible refine State.descriptor_keeps ?_ ?_ ?_
    | (refine ⟨fun _ _ => ?_, fun _ _ => ?_, fun _ _ => ?_⟩; all_goals try dsimp only [scaleAddKernel])
    | with_reducible apply closeSources_keeps
    | with_reducible apply State.scaleWork_keeps)

theorem execUpdateSgd_keeps {M : Nat} {s t : State} {a1 : _} {a2 : _}
    (hM : 2169308396 &&& M = 2169308396) (h : Keeps M s t) : KeepsOut M s (execUpdateSgd a1 a2 t) := by
  unfold execUpdateSgd
  try dsimp only
  repeat' (first
    | with_reducible assumption
    | with_reducible exact Keeps.refl _ _
    | ((with_reducible refine Keeps.subMask hM ?_); exact rfl)
    | with_reducible apply KeepsOut.next
    | with_reducible apply State.descriptor_keeps
    | with_reducible refine State.descriptor_keeps ?_ ?_ ?_
    | (refine ⟨fun _ _ => ?_, fun _ _ => ?_, fun _ _ => ?_⟩; all_goals try dsimp only [updateKernel])
    | with_reducible apply State.updateEnter_keeps
    | with_reducible apply State.updateWork_keeps)

theorem execUpdateAdam_keeps {M : Nat} {s t : State} {a1 : _} {a2 : _}
    (hM : 2169308396 &&& M = 2169308396) (h : Keeps M s t) : KeepsOut M s (execUpdateAdam a1 a2 t) := by
  unfold execUpdateAdam
  try dsimp only
  repeat' (first
    | with_reducible assumption
    | with_reducible exact Keeps.refl _ _
    | ((with_reducible refine Keeps.subMask hM ?_); exact rfl)
    | with_reducible apply KeepsOut.next
    | with_reducible apply State.descriptor_keeps
    | with_reducible refine State.descriptor_keeps ?_ ?_ ?_
    | (refine ⟨fun _ _ => ?_, fun _ _ => ?_, fun _ _ => ?_⟩; all_goals try dsimp only [updateKernel])
    | with_reducible apply State.updateEnter_keeps
    | with_reducible apply State.updateWork_keeps)

theorem execUpdateClippedSgd_keeps {M : Nat} {s t : State} {a1 : _} {a2 : _}
    (hM : 2169308396 &&& M = 2169308396) (h : Keeps M s t) : KeepsOut M s (execUpdateClippedSgd a1 a2 t) := by
  unfold execUpdateClippedSgd
  try dsimp only
  repeat' (first
    | with_reducible assumption
    | with_reducible exact Keeps.refl _ _
    | ((with_reducible refine Keeps.subMask hM ?_); exact rfl)
    | with_reducible apply KeepsOut.next
    | with_reducible apply State.descriptor_keeps
    | with_reducible refine State.descriptor_keeps ?_ ?_ ?_
    | (refine ⟨fun _ _ => ?_, fun _ _ => ?_, fun _ _ => ?_⟩; all_goals try dsimp only [updateKernel])
    | with_reducible apply State.updateEnter_keeps
    | with_reducible apply State.updateWork_keeps)

theorem execUpdateClippedAdam_keeps {M : Nat} {s t : State} {a1 : _} {a2 : _}
    (hM : 2169308396 &&& M = 2169308396) (h : Keeps M s t) : KeepsOut M s (execUpdateClippedAdam a1 a2 t) := by
  unfold execUpdateClippedAdam
  try dsimp only
  repeat' (first
    | with_reducible assumption
    | with_reducible exact Keeps.refl _ _
    | ((with_reducible refine Keeps.subMask hM ?_); exact rfl)
    | with_reducible apply KeepsOut.next
    | with_reducible apply State.descriptor_keeps
    | with_reducible refine State.descriptor_keeps ?_ ?_ ?_
    | (refine ⟨fun _ _ => ?_, fun _ _ => ?_, fun _ _ => ?_⟩; all_goals try dsimp only [updateKernel])
    | with_reducible apply State.updateEnter_keeps
    | with_reducible apply State.updateWork_keeps)

/-! ### Machine/Readings.lean -/

theorem State.afterRead_keeps {M : Nat} {s t : State} {a1 : _}
    (hM : 155189314 &&& M = 155189314) (h : Keeps M s t) : Keeps M s (State.afterRead t a1) := by
  unfold State.afterRead
  try dsimp only
  repeat' (first
    | with_reducible assumption
    | with_reducible exact Keeps.refl _ _
    | ((with_reducible refine Keeps.subMask hM ?_); exact rfl)
    | with_reducible apply State.setReg_keeps
    | with_reducible apply State.takeFresh_keeps
    | with_reducible apply State.wakeSlice_keeps
    | split)

theorem State.wakeForRows_keeps {M : Nat} {s t : State} {a1 : _} {a2 : _} {a3 : _}
    (hM : 20971584 &&& M = 20971584) (h : Keeps M s t) : Keeps M s (State.wakeForRows t a1 a2 a3) := by
  unfold State.wakeForRows
  try dsimp only
  repeat' (first
    | with_reducible assumption
    | with_reducible exact Keeps.refl _ _
    | with_reducible apply State.wakeSlice_keeps
    | with_reducible refine Keeps.foldl ?_ _ ?_
    | with_reducible refine Keeps.foldl_fst ?_ _ ?_
    | with_reducible refine Keeps.foldl_snd ?_ _ ?_
    | split
    | with_reducible refine Keeps.fst ‹_ = (_, _)› ?_
    | intro _)

/-! ### Machine/Mgmt.lean -/

theorem State.beginSwitch_keeps {M : Nat} {s t : State} {a1 : _} {a2 : _}
    (hM : 8078047214 &&& M = 8078047214) (h : Keeps M s t) : Keeps M s (State.beginSwitch t a1 a2) := by
  unfold State.beginSwitch
  try dsimp only
  repeat' (first
    | with_reducible assumption
    | with_reducible exact Keeps.refl _ _
    | ((with_reducible refine Keeps.subMask hM ?_); exact rfl)
    | with_reducible apply State.startRevoke_keeps
    | with_reducible apply State.abortBarrow_keeps
    | with_reducible apply State.abortTree_keeps
    | with_reducible refine Keeps.foldl ?_ _ ?_
    | with_reducible refine Keeps.foldl_fst ?_ _ ?_
    | with_reducible refine Keeps.foldl_snd ?_ _ ?_
    | (dsimp only [keepsMk]; (with_reducible apply KeepsMk.put ?_ rfl rfl) <;> first | exact Or.inl (Keeps.subBit hM rfl) | exact Or.inr rfl | exact id | skip)
    | split
    | with_reducible refine Keeps.fst ‹_ = (_, _)› ?_
    | intro _)

theorem State.profileCopy_keeps {M : Nat} {s t : State}
    (hM : 4297064450 &&& M = 4297064450) (h : Keeps M s t) : Keeps M s (State.profileCopy t).1 := by
  unfold State.profileCopy
  try dsimp only
  repeat' (first
    | with_reducible assumption
    | with_reducible exact Keeps.refl _ _
    | ((with_reducible refine Keeps.subMask hM ?_); exact rfl)
    | with_reducible apply State.setReg_keeps
    | with_reducible apply State.updProfile_keeps)

theorem State.profileErase_keeps {M : Nat} {s t : State}
    (hM : 4297064450 &&& M = 4297064450) (h : Keeps M s t) : Keeps M s (State.profileErase t).1 := by
  unfold State.profileErase
  try dsimp only
  repeat' (first
    | with_reducible assumption
    | with_reducible exact Keeps.refl _ _
    | ((with_reducible refine Keeps.subMask hM ?_); exact rfl)
    | with_reducible apply State.setReg_keeps
    | with_reducible apply State.updProfile_keeps
    | split)

theorem State.profileSwitch_keeps {M : Nat} {s t : State}
    (hM : 8078047214 &&& M = 8078047214) (h : Keeps M s t) : Keeps M s (State.profileSwitch t).1 := by
  unfold State.profileSwitch
  try dsimp only
  repeat' (first
    | with_reducible assumption
    | with_reducible exact Keeps.refl _ _
    | ((with_reducible refine Keeps.subMask hM ?_); exact rfl)
    | with_reducible apply State.setReg_keeps
    | with_reducible apply State.beginSwitch_keeps
    | split)

theorem State.readRing_keeps {M : Nat} {s t : State} {a1 : _} {a2 : _}
    (hM : 4718664 &&& M = 4718664) (h : Keeps M s t) : Keeps M s (State.readRing t a1 a2) := by
  unfold State.readRing
  try dsimp only
  repeat' (first
    | with_reducible assumption
    | with_reducible exact Keeps.refl _ _
    | ((with_reducible refine Keeps.subMask hM ?_); exact rfl)
    | with_reducible apply State.sramRead_keeps
    | with_reducible apply State.sramWrite_keeps
    | with_reducible refine Keeps.foldl ?_ _ ?_
    | with_reducible refine Keeps.foldl_fst ?_ _ ?_
    | with_reducible refine Keeps.foldl_snd ?_ _ ?_
    | (dsimp only [keepsMk]; (with_reducible apply KeepsMk.put ?_ rfl rfl) <;> first | exact Or.inl (Keeps.subBit hM rfl) | exact Or.inr rfl | exact id | skip)
    | split
    | with_reducible refine Keeps.fst ‹_ = (_, _)› ?_
    | intro _)

theorem State.switchNow_keeps {M : Nat} {s t : State} {a1 : _} {a2 : _}
    (hM : 8589934590 &&& M = 8589934590) (h : Keeps M s t) : Keeps M s (State.switchNow t a1 a2) := by
  unfold State.switchNow
  try dsimp only
  repeat' (first
    | with_reducible assumption
    | with_reducible exact Keeps.refl _ _
    | ((with_reducible refine Keeps.subMask hM ?_); exact rfl)
    | with_reducible apply State.loadProfile_keeps
    | with_reducible apply State.commit_keeps
    | with_reducible apply State.updProfile_keeps
    | with_reducible apply State.ledger_keeps
    | with_reducible apply State.setReg_keeps
    | with_reducible apply State.crier_keeps
    | (dsimp only [keepsMk]; (with_reducible apply KeepsMk.put ?_ rfl rfl) <;> first | exact Or.inl (Keeps.subBit hM rfl) | exact Or.inr rfl | exact id | skip))

theorem actDescribe_keeps {M : Nat} {s t : State} {a1 : _} {a2 : _}
    (hM : 0 &&& M = 0) (h : Keeps M s t) : Keeps M s (actDescribe a1 a2 t).1 := by
  unfold actDescribe
  try dsimp only
  repeat' (first
    | with_reducible assumption
    | with_reducible exact Keeps.refl _ _
    | split)

theorem actProfileGo_keeps {M : Nat} {s t : State} {a1 : _}
    (hM : 8078047214 &&& M = 8078047214) (h : Keeps M s t) : Keeps M s (actProfileGo a1 t).1 := by
  unfold actProfileGo
  try dsimp only
  repeat' (first
    | with_reducible assumption
    | with_reducible exact Keeps.refl _ _
    | ((with_reducible refine Keeps.subMask hM ?_); exact rfl)
    | with_reducible apply State.setReg_keeps
    | with_reducible apply State.profileSwitch_keeps
    | with_reducible apply State.profileCopy_keeps
    | with_reducible apply State.profileErase_keeps
    | split)

theorem actRead_keeps {M : Nat} {s t : State} {a1 : _} {a2 : _}
    (hM : 155189314 &&& M = 155189314) (h : Keeps M s t) : Keeps M s (actRead a1 a2 t).1 := by
  unfold actRead
  try dsimp only
  repeat' (first
    | with_reducible assumption
    | with_reducible exact Keeps.refl _ _
    | with_reducible apply State.afterRead_keeps)

theorem actWindowRead_keeps {M : Nat} {s t : State} {a1 : _} {a2 : _} {a3 : _} {a4 : _}
    (hM : 21495880 &&& M = 21495880) (h : Keeps M s t) : Keeps M s (actWindowRead a1 a2 a3 a4 t).1 := by
  unfold actWindowRead
  try dsimp only
  repeat' (first
    | with_reducible assumption
    | with_reducible exact Keeps.refl _ _
    | ((with_reducible refine Keeps.subMask hM ?_); exact rfl)
    | with_reducible apply State.readRing_keeps
    | with_reducible apply State.wakeForRows_keeps
    | with_reducible refine Keeps.foldl ?_ _ ?_
    | with_reducible refine Keeps.foldl_fst ?_ _ ?_
    | with_reducible refine Keeps.foldl_snd ?_ _ ?_
    | split)

theorem actWrite_keeps {M : Nat} {s t : State} {a1 : _} {a2 : _}
    (hM : 8589932542 &&& M = 8589932542) (h : Keeps M s t) : Keeps M s (actWrite a1 a2 t).1 := by
  unfold actWrite
  try dsimp only
  repeat' (first
    | with_reducible assumption
    | with_reducible exact Keeps.refl _ _
    | ((with_reducible refine Keeps.subMask hM ?_); exact rfl)
    | with_reducible apply actProfileGo_keeps
    | with_reducible apply actResetBoard_keeps
    | with_reducible apply actEntry_keeps
    | split)

theorem execMgmtRead_keeps {M : Nat} {s t : State} {a1 : _} {a2 : _} {a3 : _}
    (hM : 158924878 &&& M = 158924878) (h : Keeps M s t) : KeepsOut M s (execMgmtRead a1 a2 a3 t) := by
  unfold execMgmtRead
  try dsimp only
  repeat' (first
    | with_reducible assumption
    | with_reducible exact Keeps.refl _ _
    | ((with_reducible refine Keeps.subMask hM ?_); exact rfl)
    | with_reducible apply KeepsOut.next
    | with_reducible apply State.mgmtFrame_keeps
    | with_reducible apply actRead_keeps
    | split
    | with_reducible refine Keeps.fst ‹_ = (_, _)› ?_
    | intro _)

theorem execMgmtWrite_keeps {M : Nat} {s t : State} {a1 : _} {a2 : _} {a3 : _} {a4 : _} {a5 : _}
    (hM : 8589934590 &&& M = 8589934590) (h : Keeps M s t) : KeepsOut M s (execMgmtWrite a1 a2 a3 a4 a5 t) := by
  unfold execMgmtWrite
  try dsimp only
  repeat' (first
    | with_reducible assumption
    | with_reducible exact Keeps.refl _ _
    | ((with_reducible refine Keeps.subMask hM ?_); exact rfl)
    | with_reducible apply KeepsOut.next
    | with_reducible apply State.resetIfAsked_keeps
    | with_reducible apply State.mgmtFrame_keeps
    | with_reducible apply actWrite_keeps
    | split
    | with_reducible refine Keeps.fst ‹_ = (_, _)› ?_
    | intro _)

theorem execWindowRead_keeps {M : Nat} {s t : State} {a1 : _} {a2 : _} {a3 : _} {a4 : _} {a5 : _}
    (hM : 24707148 &&& M = 24707148) (h : Keeps M s t) : KeepsOut M s (execWindowRead a1 a2 a3 a4 a5 t) := by
  unfold execWindowRead
  try dsimp only
  repeat' (first
    | with_reducible assumption
    | with_reducible exact Keeps.refl _ _
    | ((with_reducible refine Keeps.subMask hM ?_); exact rfl)
    | with_reducible apply KeepsOut.next
    | with_reducible apply State.mgmtFrame_keeps
    | with_reducible apply actWindowRead_keeps
    | split
    | with_reducible refine Keeps.fst ‹_ = (_, _)› ?_
    | intro _)

theorem execWindowWrite_keeps {M : Nat} {s t : State} {a1 : _} {a2 : _} {a3 : _} {a4 : _} {a5 : _}
    (hM : 5947513980 &&& M = 5947513980) (h : Keeps M s t) : KeepsOut M s (execWindowWrite a1 a2 a3 a4 a5 t) := by
  unfold execWindowWrite
  try dsimp only
  repeat' (first
    | with_reducible assumption
    | with_reducible exact Keeps.refl _ _
    | ((with_reducible refine Keeps.subMask hM ?_); exact rfl)
    | with_reducible apply KeepsOut.next
    | with_reducible apply State.writeWindow_keeps
    | with_reducible apply writeWindowRow_keeps
    | split
    | with_reducible refine Keeps.fst ‹_ = (_, _)› ?_
    | intro _)

theorem execDescribe_keeps {M : Nat} {s t : State} {a1 : _} {a2 : _} {a3 : _}
    (hM : 7929868 &&& M = 7929868) (h : Keeps M s t) : KeepsOut M s (execDescribe a1 a2 a3 t) := by
  unfold execDescribe
  try dsimp only
  repeat' (first
    | with_reducible assumption
    | with_reducible exact Keeps.refl _ _
    | ((with_reducible refine Keeps.subMask hM ?_); exact rfl)
    | with_reducible apply KeepsOut.next
    | with_reducible apply State.mgmtFrame_keeps
    | with_reducible apply actDescribe_keeps
    | split
    | with_reducible refine Keeps.fst ‹_ = (_, _)› ?_
    | intro _)

theorem execFlashCommit_keeps {M : Nat} {s t : State}
    (hM : 4297064448 &&& M = 4297064448) (h : Keeps M s t) : KeepsOut M s (execFlashCommit t) := by
  unfold execFlashCommit
  try dsimp only
  repeat' (first
    | with_reducible assumption
    | with_reducible exact Keeps.refl _ _
    | with_reducible apply KeepsOut.next
    | with_reducible apply State.commit_keeps
    | split)

theorem execProfileSwitch_keeps {M : Nat} {s t : State} {a1 : _} {a2 : _}
    (hM : 8078047214 &&& M = 8078047214) (h : Keeps M s t) : KeepsOut M s (execProfileSwitch a1 a2 t) := by
  unfold execProfileSwitch
  try dsimp only
  repeat' (first
    | with_reducible assumption
    | with_reducible exact Keeps.refl _ _
    | ((with_reducible refine Keeps.subMask hM ?_); exact rfl)
    | with_reducible apply KeepsOut.next
    | with_reducible apply State.write_keeps
    | with_reducible apply actProfileGo_keeps
    | split
    | with_reducible refine Keeps.fst ‹_ = (_, _)› ?_
    | intro _)

theorem execProfileCopy_keeps {M : Nat} {s t : State} {a1 : _} {a2 : _}
    (hM : 8078047214 &&& M = 8078047214) (h : Keeps M s t) : KeepsOut M s (execProfileCopy a1 a2 t) := by
  unfold execProfileCopy
  try dsimp only
  repeat' (first
    | with_reducible assumption
    | with_reducible exact Keeps.refl _ _
    | ((with_reducible refine Keeps.subMask hM ?_); exact rfl)
    | with_reducible apply KeepsOut.next
    | with_reducible apply State.write_keeps
    | with_reducible apply actProfileGo_keeps
    | split
    | with_reducible refine Keeps.fst ‹_ = (_, _)› ?_
    | intro _)

theorem execProfileErase_keeps {M : Nat} {s t : State} {a1 : _} {a2 : _}
    (hM : 8078047214 &&& M = 8078047214) (h : Keeps M s t) : KeepsOut M s (execProfileErase a1 a2 t) := by
  unfold execProfileErase
  try dsimp only
  repeat' (first
    | with_reducible assumption
    | with_reducible exact Keeps.refl _ _
    | ((with_reducible refine Keeps.subMask hM ?_); exact rfl)
    | with_reducible apply KeepsOut.next
    | with_reducible apply State.write_keeps
    | with_reducible apply actProfileGo_keeps
    | split
    | with_reducible refine Keeps.fst ‹_ = (_, _)› ?_
    | intro _)

theorem execProfileSwitchCycle_keeps {M : Nat} {s t : State}
    (hM : 8589934590 &&& M = 8589934590) (h : Keeps M s t) : KeepsOut M s (execProfileSwitchCycle t) := by
  unfold execProfileSwitchCycle
  try dsimp only
  repeat' (first
    | with_reducible assumption
    | with_reducible exact Keeps.refl _ _
    | with_reducible apply KeepsOut.next
    | with_reducible apply State.switchNow_keeps
    | split)

/-! ### Machine/Requests.lean -/

theorem State.passUp_keeps {M : Nat} {s t : State} {a1 : _} {a2 : _}
    (hM : 3781031934 &&& M = 3781031934) (h : Keeps M s t) : Keeps M s (State.passUp t a1 a2) := by
  unfold State.passUp
  try dsimp only
  repeat' (first
    | with_reducible assumption
    | with_reducible exact Keeps.refl _ _
    | ((with_reducible refine Keeps.subMask hM ?_); exact rfl)
    | with_reducible apply State.hostRequest_keeps
    | with_reducible apply State.count_keeps
    | split)

theorem State.readTrk_keeps {M : Nat} {s t : State} {a1 : _} {a2 : _}
    (hM : 1616707660 &&& M = 1616707660) (h : Keeps M s t) : Keeps M s (State.readTrk t a1 a2) := by
  unfold State.readTrk
  try dsimp only
  repeat' (first
    | with_reducible assumption
    | with_reducible exact Keeps.refl _ _
    | ((with_reducible refine Keeps.subMask hM ?_); exact rfl)
    | with_reducible apply State.sramRead_keeps
    | with_reducible apply State.abort_keeps
    | with_reducible apply State.sramWrite_keeps
    | split)

theorem State.release_keeps {M : Nat} {s t : State} {a1 : _} {a2 : _}
    (hM : 3781023742 &&& M = 3781023742) (h : Keeps M s t) : Keeps M s (State.release a1 a2 t) := by
  induction a2 generalizing t a1 with
  | zero =>
    unfold State.release
    try dsimp only
    repeat' (first
      | with_reducible assumption)
  | succ n ih =>
    unfold State.release
    try dsimp only
    repeat' (first
      | with_reducible assumption
      | with_reducible exact Keeps.refl _ _
      | ((with_reducible refine Keeps.subMask hM ?_); exact rfl)
      | with_reducible apply ih
      | with_reducible apply State.enter_keeps
      | with_reducible apply State.updStall_keeps
      | exact Or.inl (Keeps.subBit hM rfl)
      | exact Or.inr fun _ => rfl
      | split)

theorem State.respond_keeps {M : Nat} {s t : State} {a1 : _} {a2 : _}
    (hM : 4194400 &&& M = 4194400) (h : Keeps M s t) : Keeps M s (State.respond t a1 a2) := by
  unfold State.respond
  try dsimp only
  repeat' (first
    | with_reducible assumption
    | with_reducible exact Keeps.refl _ _
    | ((with_reducible refine Keeps.subMask hM ?_); exact rfl)
    | with_reducible apply State.discardTrk_keeps
    | with_reducible apply State.updSlice_keeps
    | with_reducible apply State.egressPush_keeps
    | split)

theorem execLinkPacketReceive_keeps {M : Nat} {s t : State} {a1 : _} {a2 : _}
    (hM : 4049467390 &&& M = 4049467390) (h : Keeps M s t) : KeepsOut M s (execLinkPacketReceive a1 a2 t) := by
  unfold execLinkPacketReceive
  try dsimp only
  repeat' (first
    | with_reducible assumption
    | with_reducible exact Keeps.refl _ _
    | ((with_reducible refine Keeps.subMask hM ?_); exact rfl)
    | with_reducible apply KeepsOut.next
    | with_reducible apply State.count_keeps
    | with_reducible apply State.updLink_keeps
    | with_reducible apply State.applyAck_keeps
    | with_reducible apply State.passUp_keeps
    | with_reducible apply State.queueCtl_keeps
    | exact Or.inl (Keeps.subBit hM rfl)
    | exact Or.inr fun _ => rfl
    | split)

theorem execRead_keeps {M : Nat} {s t : State} {a1 : _}
    (hM : 3781031934 &&& M = 3781031934) (h : Keeps M s t) : KeepsOut M s (execRead a1 t) := by
  unfold execRead
  try dsimp only
  repeat' (first
    | with_reducible assumption
    | with_reducible exact Keeps.refl _ _
    | with_reducible apply KeepsOut.next
    | with_reducible apply State.hostRequest_keeps)

theorem execWrite_keeps {M : Nat} {s t : State} {a1 : _}
    (hM : 3781031934 &&& M = 3781031934) (h : Keeps M s t) : KeepsOut M s (execWrite a1 t) := by
  unfold execWrite
  try dsimp only
  repeat' (first
    | with_reducible assumption
    | with_reducible exact Keeps.refl _ _
    | with_reducible apply KeepsOut.next
    | with_reducible apply State.hostRequest_keeps)

theorem execWriteMasked_keeps {M : Nat} {s t : State} {a1 : _}
    (hM : 3781031934 &&& M = 3781031934) (h : Keeps M s t) : KeepsOut M s (execWriteMasked a1 t) := by
  unfold execWriteMasked
  try dsimp only
  repeat' (first
    | with_reducible assumption
    | with_reducible exact Keeps.refl _ _
    | with_reducible apply KeepsOut.next
    | with_reducible apply State.hostRequest_keeps)

theorem execAtomic_keeps {M : Nat} {s t : State} {a1 : _}
    (hM : 3781031934 &&& M = 3781031934) (h : Keeps M s t) : KeepsOut M s (execAtomic a1 t) := by
  unfold execAtomic
  try dsimp only
  repeat' (first
    | with_reducible assumption
    | with_reducible exact Keeps.refl _ _
    | with_reducible apply KeepsOut.next
    | with_reducible apply State.hostRequest_keeps)

theorem execReduceWrite_keeps {M : Nat} {s t : State} {a1 : _}
    (hM : 3781031934 &&& M = 3781031934) (h : Keeps M s t) : KeepsOut M s (execReduceWrite a1 t) := by
  unfold execReduceWrite
  try dsimp only
  repeat' (first
    | with_reducible assumption
    | with_reducible exact Keeps.refl _ _
    | with_reducible apply KeepsOut.next
    | with_reducible apply State.hostRequest_keeps)

theorem execFlush_keeps {M : Nat} {s t : State} {a1 : _}
    (hM : 3781031934 &&& M = 3781031934) (h : Keeps M s t) : KeepsOut M s (execFlush a1 t) := by
  unfold execFlush
  try dsimp only
  repeat' (first
    | with_reducible assumption
    | with_reducible exact Keeps.refl _ _
    | with_reducible apply KeepsOut.next
    | with_reducible apply State.hostRequest_keeps)

theorem execInvalidate_keeps {M : Nat} {s t : State} {a1 : _}
    (hM : 3781031934 &&& M = 3781031934) (h : Keeps M s t) : KeepsOut M s (execInvalidate a1 t) := by
  unfold execInvalidate
  try dsimp only
  repeat' (first
    | with_reducible assumption
    | with_reducible exact Keeps.refl _ _
    | with_reducible apply KeepsOut.next
    | with_reducible apply State.hostRequest_keeps)

theorem execHint_keeps {M : Nat} {s t : State} {a1 : _}
    (hM : 3781031934 &&& M = 3781031934) (h : Keeps M s t) : KeepsOut M s (execHint a1 t) := by
  unfold execHint
  try dsimp only
  repeat' (first
    | with_reducible assumption
    | with_reducible exact Keeps.refl _ _
    | with_reducible apply KeepsOut.next
    | with_reducible apply State.hostRequest_keeps)

theorem execCohRead_keeps {M : Nat} {s t : State} {a1 : _}
    (hM : 3781031934 &&& M = 3781031934) (h : Keeps M s t) : KeepsOut M s (execCohRead a1 t) := by
  unfold execCohRead
  try dsimp only
  repeat' (first
    | with_reducible assumption
    | with_reducible exact Keeps.refl _ _
    | with_reducible apply KeepsOut.next
    | with_reducible apply State.hostRequest_keeps)

theorem execCohWriteback_keeps {M : Nat} {s t : State} {a1 : _}
    (hM : 3781031934 &&& M = 3781031934) (h : Keeps M s t) : KeepsOut M s (execCohWriteback a1 t) := by
  unfold execCohWriteback
  try dsimp only
  repeat' (first
    | with_reducible assumption
    | with_reducible exact Keeps.refl _ _
    | with_reducible apply KeepsOut.next
    | with_reducible apply State.hostRequest_keeps)

theorem execDoorbellLaunch_keeps {M : Nat} {s t : State} {a1 : _}
    (hM : 3781031934 &&& M = 3781031934) (h : Keeps M s t) : KeepsOut M s (execDoorbellLaunch a1 t) := by
  unfold execDoorbellLaunch
  try dsimp only
  repeat' (first
    | with_reducible assumption
    | with_reducible exact Keeps.refl _ _
    | with_reducible apply KeepsOut.next
    | with_reducible apply State.hostRequest_keeps
    | split)

theorem execDoorbellStandingParams_keeps {M : Nat} {s t : State} {a1 : _}
    (hM : 3781031934 &&& M = 3781031934) (h : Keeps M s t) : KeepsOut M s (execDoorbellStandingParams a1 t) := by
  unfold execDoorbellStandingParams
  try dsimp only
  repeat' (first
    | with_reducible assumption
    | with_reducible exact Keeps.refl _ _
    | with_reducible apply KeepsOut.next
    | with_reducible apply State.hostRequest_keeps
    | split)

theorem execMark_keeps {M : Nat} {s t : State} {a1 : _}
    (hM : 3781031934 &&& M = 3781031934) (h : Keeps M s t) : KeepsOut M s (execMark a1 t) := by
  unfold execMark
  try dsimp only
  repeat' (first
    | with_reducible assumption
    | with_reducible exact Keeps.refl _ _
    | with_reducible apply KeepsOut.next
    | with_reducible apply State.hostRequest_keeps)

theorem execNop_keeps {M : Nat} {s t : State} {a1 : _}
    (hM : 3781031934 &&& M = 3781031934) (h : Keeps M s t) : KeepsOut M s (execNop a1 t) := by
  unfold execNop
  try dsimp only
  repeat' (first
    | with_reducible assumption
    | with_reducible exact Keeps.refl _ _
    | with_reducible apply KeepsOut.next
    | with_reducible apply State.hostRequest_keeps)

theorem execReorderRelease_keeps {M : Nat} {s t : State} {a1 : _}
    (hM : 3781023742 &&& M = 3781023742) (h : Keeps M s t) : KeepsOut M s (execReorderRelease a1 t) := by
  unfold execReorderRelease
  try dsimp only
  repeat' (first
    | with_reducible assumption
    | with_reducible exact Keeps.refl _ _
    | with_reducible apply KeepsOut.next
    | with_reducible apply State.release_keeps)

theorem execReorderTimeoutExpiry_keeps {M : Nat} {s t : State} {a1 : _}
    (hM : 3781023742 &&& M = 3781023742) (h : Keeps M s t) : KeepsOut M s (execReorderTimeoutExpiry a1 t) := by
  unfold execReorderTimeoutExpiry
  try dsimp only
  repeat' (first
    | with_reducible assumption
    | with_reducible exact Keeps.refl _ _
    | ((with_reducible refine Keeps.subMask hM ?_); exact rfl)
    | with_reducible apply KeepsOut.next
    | with_reducible apply State.updStall_keeps
    | with_reducible apply State.recordTag_keeps
    | with_reducible apply State.release_keeps
    | with_reducible apply State.count_keeps
    | with_reducible apply State.crier_keeps
    | exact Or.inl (Keeps.subBit hM rfl)
    | exact Or.inr fun _ => rfl
    | split)

theorem execSliceResponseReady_keeps {M : Nat} {s t : State} {a1 : _} {a2 : _}
    (hM : 1616707692 &&& M = 1616707692) (h : Keeps M s t) : KeepsOut M s (execSliceResponseReady a1 a2 t) := by
  unfold execSliceResponseReady
  try dsimp only
  repeat' (first
    | with_reducible assumption
    | with_reducible exact Keeps.refl _ _
    | ((with_reducible refine Keeps.subMask hM ?_); exact rfl)
    | with_reducible apply KeepsOut.next
    | with_reducible apply State.respond_keeps
    | with_reducible apply State.readTrk_keeps
    | split)

theorem execResponseHoldExpiry_keeps {M : Nat} {s t : State} {a1 : _} {a2 : _}
    (hM : 4194400 &&& M = 4194400) (h : Keeps M s t) : KeepsOut M s (execResponseHoldExpiry a1 a2 t) := by
  unfold execResponseHoldExpiry
  try dsimp only
  repeat' (first
    | with_reducible assumption
    | with_reducible exact Keeps.refl _ _
    | with_reducible apply KeepsOut.next
    | with_reducible apply State.discardTrk_keeps
    | split)

/-! ### Machine/Dispatch.lean -/

theorem exec_keeps {M : Nat} {s t : State} {a1 : _}
    (hM : 8589934590 &&& M = 8589934590) (h : Keeps M s t) : KeepsOut M s (exec a1 t) := by
  unfold exec
  try dsimp only
  repeat' (first
    | with_reducible assumption
    | with_reducible exact Keeps.refl _ _
    | ((with_reducible refine Keeps.subMask hM ?_); exact rfl)
    | with_reducible apply KeepsOut.next
    | with_reducible apply execLinkPacketReceive_keeps
    | with_reducible apply execAckOnly_keeps
    | with_reducible apply execAlign_keeps
    | with_reducible apply execHello_keeps
    | with_reducible apply execLaneReq_keeps
    | with_reducible apply execLaneAccept_keeps
    | with_reducible apply execLaneSwitch_keeps
    | with_reducible apply execTimeReq_keeps
    | with_reducible apply execTimeResp_keeps
    | with_reducible apply execLinkDown_keeps
    | with_reducible apply execAckTimeoutExpiry_keeps
    | with_reducible apply execReplayLimitReached_keeps
    | with_reducible apply execLinkUp_keeps
    | with_reducible apply execLaneChangeAbandon_keeps
    | with_reducible apply execLaneDropBerExceeded_keeps
    | with_reducible apply execLaneSignalLoss_keeps
    | with_reducible apply execEmergencyDropTimeout_keeps
    | with_reducible apply execLaneAddTrained_keeps
    | with_reducible apply execTimeExchInitiate_keeps
    | with_reducible apply execTimeExchDiscard_keeps
    | with_reducible apply execCodewordLockLoss_keeps
    | with_reducible apply execLinkRetrain_keeps
    | with_reducible apply execFlapHoldExpiry_keeps
    | with_reducible apply execLinkEnableWrite_keeps
    | with_reducible apply execLinkVersionsAllowedWrite_keeps
    | with_reducible apply execRead_keeps
    | with_reducible apply execWrite_keeps
    | with_reducible apply execWriteMasked_keeps
    | with_reducible apply execAtomic_keeps
    | with_reducible apply execReduceWrite_keeps
    | with_reducible apply execFlush_keeps
    | with_reducible apply execInvalidate_keeps
    | with_reducible apply execHint_keeps
    | with_reducible apply execCohRead_keeps
    | with_reducible apply execCohWriteback_keeps
    | with_reducible apply execDoorbellLaunch_keeps
    | with_reducible apply execDoorbellStandingParams_keeps
    | with_reducible apply execMark_keeps
    | with_reducible apply execNop_keeps
    | with_reducible apply execSnoopResponse_keeps
    | with_reducible apply execSnoopRetry_keeps
    | with_reducible apply execSnoopTimeout_keeps
    | with_reducible apply execCohHoldExpiry_keeps
    | with_reducible apply execCrierNotifyResponse_keeps
    | with_reducible apply execPushResponse_keeps
    | with_reducible apply execReorderRelease_keeps
    | with_reducible apply execReorderTimeoutExpiry_keeps
    | with_reducible apply execSliceResponseReady_keeps
    | with_reducible apply execResponseHoldExpiry_keeps
    | with_reducible apply execAttach_keeps
    | with_reducible apply execDetach_keeps
    | with_reducible apply execDetachComplete_keeps
    | with_reducible apply execFence_keeps
    | with_reducible apply execHostDead_keeps
    | with_reducible apply execStallTableWrite_keeps
    | with_reducible apply execBoardNumberWrite_keeps
    | with_reducible apply execGrant_keeps
    | with_reducible apply execGrantComplete_keeps
    | with_reducible apply execRevoke_keeps
    | with_reducible apply execRevokeDeadlineExpiry_keeps
    | with_reducible apply execRevokeDone_keeps
    | with_reducible apply execClear_keeps
    | with_reducible apply execClearDone_keeps
    | with_reducible apply execAclTableWrite_keeps
    | with_reducible apply execMigrateMoveStart_keeps
    | with_reducible apply execFillComplete_keeps
    | with_reducible apply execEvictionComplete_keeps
    | with_reducible apply execMoveAbandon_keeps
    | with_reducible apply execDramCommandIssue_keeps
    | with_reducible apply execPageIdleClose_keeps
    | with_reducible apply execRefreshInterval_keeps
    | with_reducible apply execScrubRead_keeps
    | with_reducible apply execScrubPeriodEnd_keeps
    | with_reducible apply execRowRepairStart_keeps
    | with_reducible apply execRowRepairDone_keeps
    | with_reducible apply execPitchEntryRewrite_keeps
    | with_reducible apply execErrorTableWrite_keeps
    | with_reducible apply execCheckerEnableWrite_keeps
    | with_reducible apply execCheckerRawWrite_keeps
    | with_reducible apply execCheckerRawRead_keeps
    | with_reducible apply execOrphanRelease_keeps
    | with_reducible apply execOrphanReleaseDone_keeps
    | with_reducible apply execBarrowTableWrite_keeps
    | with_reducible apply execBarrowAbort_keeps
    | with_reducible apply execProgramStoreWrite_keeps
    | with_reducible apply execTriggerLaunch_keeps
    | with_reducible apply execLaunchStart_keeps
    | with_reducible apply execDescEnd_keeps
    | with_reducible apply execDescFill_keeps
    | with_reducible apply execDescCopy_keeps
    | with_reducible apply execDescCompare_keeps
    | with_reducible apply execDescDigest_keeps
    | with_reducible apply execReduceArm_keeps
    | with_reducible apply execReduceAdd_keeps
    | with_reducible apply execReduceFinalise_keeps
    | with_reducible apply execReduceFinaliseNorm_keeps
    | with_reducible apply execReduceRelease_keeps
    | with_reducible apply execDescCast_keeps
    | with_reducible apply execScaleAdd_keeps
    | with_reducible apply execUpdateSgd_keeps
    | with_reducible apply execUpdateAdam_keeps
    | with_reducible apply execUpdateClippedSgd_keeps
    | with_reducible apply execUpdateClippedAdam_keeps
    | with_reducible apply execDescSync_keeps
    | with_reducible apply execSyncComplete_keeps
    | with_reducible apply execDescBudgetExceeded_keeps
    | with_reducible apply execLaunchComplete_keeps
    | with_reducible apply execPtpSync_keeps
    | with_reducible apply execPtpFollowUp_keeps
    | with_reducible apply execPtpDelayResp_keeps
    | with_reducible apply execPtpAnnounce_keeps
    | with_reducible apply execTimeHoldover_keeps
    | with_reducible apply execMarkApplyAt_keeps
    | with_reducible apply execGuardBandPreview_keeps
    | with_reducible apply execMarkLoss_keeps
    | with_reducible apply execStepSet_keeps
    | with_reducible apply execScheduleTableWrite_keeps
    | with_reducible apply execBuntGo_keeps
    | with_reducible apply execBuntingStart_keeps
    | with_reducible apply execBuntingPageSend_keeps
    | with_reducible apply execPushRetry_keeps
    | with_reducible apply execBuntTimeoutExpiry_keeps
    | with_reducible apply execCatchupWaitExpiry_keeps
    | with_reducible apply execCatchupPass_keeps
    | with_reducible apply execBuntingComplete_keeps
    | with_reducible apply execBuntAbort_keeps
    | with_reducible apply execBuntingTableWrite_keeps
    | with_reducible apply execShaperTableWrite_keeps
    | with_reducible apply execWheelSlotDue_keeps
    | with_reducible apply execFlowSend_keeps
    | with_reducible apply execActiveGateListWrite_keeps
    | with_reducible apply execGateListsWrite_keeps
    | with_reducible apply execFbOffsetWrite_keeps
    | with_reducible apply execFbCommit_keeps
    | with_reducible apply execFallbackGateEntry_keeps
    | with_reducible apply execPipelineGrant_keeps
    | with_reducible apply execPriorityPromotion_keeps
    | with_reducible apply execCrossbarGrant_keeps
    | with_reducible apply execMirrorWrite_keeps
    | with_reducible apply execControl_keeps
    | with_reducible apply execEpochData_keeps
    | with_reducible apply execEpochEnd_keeps
    | with_reducible apply execMirrorAck_keeps
    | with_reducible apply execHeartbeat_keeps
    | with_reducible apply execRelinquish_keeps
    | with_reducible apply execStreamEnd_keeps
    | with_reducible apply execTaken_keeps
    | with_reducible apply execMoveWrite_keeps
    | with_reducible apply execMoveAck_keeps
    | with_reducible apply execMoveEnd_keeps
    | with_reducible apply execMirrorEpochEnd_keeps
    | with_reducible apply execHeartbeatSend_keeps
    | with_reducible apply execMirrorAckSend_keeps
    | with_reducible apply execRelinquishRepeat_keeps
    | with_reducible apply execTakenRepeat_keeps
    | with_reducible apply execMoveAckSend_keeps
    | with_reducible apply execMoveWriteSend_keeps
    | with_reducible apply execPairCommandRelinquish_keeps
    | with_reducible apply execPairCommandTakeover_keeps
    | with_reducible apply execPairCommandRejoin_keeps
    | with_reducible apply execRelinquishDeadline_keeps
    | with_reducible apply execStreamEndSend_keeps
    | with_reducible apply execPairPresentNHigh_keeps
    | with_reducible apply execTakeoverWaitEnd_keeps
    | with_reducible apply execTakeoverActivated_keeps
    | with_reducible apply execPairDecideExpiry_keeps
    | with_reducible apply execResyncGranuleDone_keeps
    | with_reducible apply execPartnerFence_keeps
    | with_reducible apply execPartnerDetach_keeps
    | with_reducible apply execMoveInOpen_keeps
    | with_reducible apply execMoveInCancel_keeps
    | with_reducible apply execMoveOutStart_keeps
    | with_reducible apply execMoveOutStop_keeps
    | with_reducible apply execMoveProgressTimeout_keeps
    | with_reducible apply execMoveLinksWrite_keeps
    | with_reducible apply execLaneLoopbackDone_keeps
    | with_reducible apply execSliceFault_keeps
    | with_reducible apply execSliceFold_keeps
    | with_reducible apply execChannelFault_keeps
    | with_reducible apply execChannelFold_keeps
    | with_reducible apply execPipelineHang_keeps
    | with_reducible apply execRetireSlice_keeps
    | with_reducible apply execRetireChannel_keeps
    | with_reducible apply execRetireClear_keeps
    | with_reducible apply execControlWatchdog_keeps
    | with_reducible apply execHostPortFault_keeps
    | with_reducible apply execGetVersion_keeps
    | with_reducible apply execGetCapabilities_keeps
    | with_reducible apply execNegotiateAlgorithms_keeps
    | with_reducible apply execGetDigests_keeps
    | with_reducible apply execGetCertificate_keeps
    | with_reducible apply execChallenge_keeps
    | with_reducible apply execGetMeasurements_keeps
    | with_reducible apply execKeyExchange_keeps
    | with_reducible apply execFinish_keeps
    | with_reducible apply execSpdmHeartbeat_keeps
    | with_reducible apply execKeyUpdate_keeps
    | with_reducible apply execEndSession_keeps
    | with_reducible apply execEncapsulatedRequest_keeps
    | with_reducible apply execKeyLoad_keeps
    | with_reducible apply execKeyAssign_keeps
    | with_reducible apply execKeyRetire_keeps
    | with_reducible apply execKeyGenerate_keeps
    | with_reducible apply execImportOn_keeps
    | with_reducible apply execImportOff_keeps
    | with_reducible apply execKeyDrainDone_keeps
    | with_reducible apply execKeyRetireDeadlineExpiry_keeps
    | with_reducible apply execTenantAdmit_keeps
    | with_reducible apply execTenantRemove_keeps
    | with_reducible apply execRemoveClearStart_keeps
    | with_reducible apply execTenantRemoveDone_keeps
    | with_reducible apply execTenantTableWrite_keeps
    | with_reducible apply execConfModeWrite_keeps
    | with_reducible apply execLedgerSign_keeps
    | with_reducible apply execLedgerAckedWrite_keeps
    | with_reducible apply execMgmtRead_keeps
    | with_reducible apply execMgmtWrite_keeps
    | with_reducible apply execWindowRead_keeps
    | with_reducible apply execWindowWrite_keeps
    | with_reducible apply execDescribe_keeps
    | with_reducible apply execPrincipalTableWrite_keeps
    | with_reducible apply execFlashCommit_keeps
    | with_reducible apply execProfileSwitch_keeps
    | with_reducible apply execProfileCopy_keeps
    | with_reducible apply execProfileErase_keeps
    | with_reducible apply execProfileSwitchCycle_keeps
    | with_reducible apply execTallyClear_keeps
    | with_reducible apply execHoistNow_keeps
    | with_reducible apply execHoistIn_keeps
    | with_reducible apply execHoistRelease_keeps
    | with_reducible apply execCrierNotifySend_keeps
    | with_reducible apply execCrierNotifyTimeout_keeps
    | with_reducible apply execCrierAckedWrite_keeps
    | with_reducible apply execTraceCtrlWrite_keeps
    | with_reducible apply execTraceRecord_keeps
    | with_reducible apply execPowerOn_keeps
    | with_reducible apply execPowerFailWarning_keeps
    | with_reducible apply execPowerRestore_keeps
    | with_reducible apply execPowerOff_keeps
    | with_reducible apply execRailFault_keeps
    | with_reducible apply execPmbusPoll_keeps
    | with_reducible apply execVoutAck_keeps
    | with_reducible apply execPmbusAckTimeout_keeps
    | with_reducible apply execEfuseTrip_keeps
    | with_reducible apply execPowerTargetWrite_keeps
    | with_reducible apply execClockRampDone_keeps
    | with_reducible apply execSliceParkEntry_keeps
    | with_reducible apply execLaneParkWrite_keeps
    | with_reducible apply execLaneUnparkCheckDone_keeps
    | with_reducible apply execRefSelectWrite_keeps
    | with_reducible apply execRefclkFail_keeps
    | with_reducible apply execRefHoldoffExpiry_keeps
    | with_reducible apply execCorePllLock_keeps
    | with_reducible apply execFreqGo_keeps
    | with_reducible apply execFreqMeasureDone_keeps
    | with_reducible apply execResetN_keeps
    | with_reducible apply execResetBoard_keeps
    | with_reducible apply execResetRelease_keeps
    | with_reducible apply execSelfTestDone_keeps
    | with_reducible apply execBootSlotVerifyDone_keeps
    | with_reducible apply execFirmwareBringUpDone_keeps
    | with_reducible apply execMemoryInitDone_keeps
    | with_reducible apply execHardRepairDone_keeps
    | with_reducible apply execMemoryTrainingDone_keeps
    | with_reducible apply execMemoryClearDone_keeps
    | with_reducible apply execFwImageWrite_keeps
    | with_reducible apply execFwGo_keeps
    | with_reducible apply execFwVerifyDone_keeps
    | with_reducible apply execThermalPoll_keeps
    | with_reducible apply execThermalFault_keeps
    | with_reducible apply execCheckerRawDone_keeps
    | with_reducible apply execControlCoresHalt_keeps
    | with_reducible apply execControlCoresReturn_keeps
    | split)

/-! ### Machine/Tick.lean -/

theorem State.grantNext_keeps {M : Nat} {s t : State}
    (hM : 4980772 &&& M = 4980772) (h : Keeps M s t) : Keeps M s (State.grantNext t) := by
  unfold State.grantNext
  try dsimp only
  repeat' (first
    | with_reducible assumption
    | with_reducible exact Keeps.refl _ _
    | with_reducible apply State.grantOne_keeps
    | (dsimp only [keepsMk]; (with_reducible apply KeepsMk.put ?_ rfl rfl) <;> first | exact Or.inl (Keeps.subBit hM rfl) | exact Or.inr rfl | exact id | skip)
    | split)

theorem State.tick_keeps {M : Nat} {s t : State}
    (hM : 810369132 &&& M = 810369132) (h : Keeps M s t) : Keeps M s (State.tick t) := by
  unfold State.tick
  try dsimp only
  repeat' (first
    | with_reducible assumption
    | with_reducible exact Keeps.refl _ _
    | ((with_reducible refine Keeps.subMask hM ?_); exact rfl)
    | with_reducible apply State.endSends_keeps
    | with_reducible apply State.grantNext_keeps
    | with_reducible apply State.joinNext_keeps
    | with_reducible apply State.parkNext_keeps
    | with_reducible refine Keeps.foldl ?_ _ ?_
    | with_reducible refine Keeps.foldl_fst ?_ _ ?_
    | with_reducible refine Keeps.foldl_snd ?_ _ ?_
    | (dsimp only [keepsMk]; (with_reducible apply KeepsMk.put ?_ rfl rfl) <;> first | exact Or.inl (Keeps.subBit hM rfl) | exact Or.inr rfl | exact id | skip)
    | split
    | with_reducible refine Keeps.fst ‹_ = (_, _)› ?_
    | intro _)

end Sys2Proof.Machine
end

