-- ==== Sys2Proof/Laws/State.lean ====
section
/-! SUPPORT. What the accessors read after each plain update of the state: one lemma for each part and update. -/

namespace Sys2Proof.Machine

variable (s : State)

/-! ### Reading the table an update writes -/

@[simp] theorem State.link_updLink (n : Nat) (f : LinkSt → LinkSt) : (s.updLink n f).link n = f (s.link n) := Tbl.get_upd_same _ _ _ _

theorem State.link_updLink_other {j n : Nat} (f : LinkSt → LinkSt) (h : j ≠ n) : (s.updLink n f).link j = s.link j :=
  Tbl.get_upd_other _ _ _ h

theorem State.link_updLink_if (j n : Nat) (f : LinkSt → LinkSt) :
    (s.updLink n f).link j = if j = n then f (s.link n) else s.link j := Tbl.get_upd _ _ _ _ _

@[simp] theorem State.stall_updStall (n : Nat) (f : StallSt → StallSt) : (s.updStall n f).stall n = f (s.stall n) := Tbl.get_upd_same _ _ _ _

theorem State.stall_updStall_other {j n : Nat} (f : StallSt → StallSt) (h : j ≠ n) : (s.updStall n f).stall j = s.stall j :=
  Tbl.get_upd_other _ _ _ h

theorem State.stall_updStall_if (j n : Nat) (f : StallSt → StallSt) :
    (s.updStall n f).stall j = if j = n then f (s.stall n) else s.stall j := Tbl.get_upd _ _ _ _ _

@[simp] theorem State.slice_updSlice (n : Nat) (f : SliceSt → SliceSt) : (s.updSlice n f).slice n = f (s.slice n) := Tbl.get_upd_same _ _ _ _

theorem State.slice_updSlice_other {j n : Nat} (f : SliceSt → SliceSt) (h : j ≠ n) : (s.updSlice n f).slice j = s.slice j :=
  Tbl.get_upd_other _ _ _ h

theorem State.slice_updSlice_if (j n : Nat) (f : SliceSt → SliceSt) :
    (s.updSlice n f).slice j = if j = n then f (s.slice n) else s.slice j := Tbl.get_upd _ _ _ _ _

@[simp] theorem State.chan_updChan (n : Nat) (f : ChanSt → ChanSt) : (s.updChan n f).chan n = f (s.chan n) := Tbl.get_upd_same _ _ _ _

theorem State.chan_updChan_other {j n : Nat} (f : ChanSt → ChanSt) (h : j ≠ n) : (s.updChan n f).chan j = s.chan j :=
  Tbl.get_upd_other _ _ _ h

theorem State.chan_updChan_if (j n : Nat) (f : ChanSt → ChanSt) :
    (s.updChan n f).chan j = if j = n then f (s.chan n) else s.chan j := Tbl.get_upd _ _ _ _ _

@[simp] theorem State.barrow_updBarrow (n : Nat) (f : Barrow → Barrow) : (s.updBarrow n f).barrow n = f (s.barrow n) := Tbl.get_upd_same _ _ _ _

theorem State.barrow_updBarrow_other {j n : Nat} (f : Barrow → Barrow) (h : j ≠ n) : (s.updBarrow n f).barrow j = s.barrow j :=
  Tbl.get_upd_other _ _ _ h

theorem State.barrow_updBarrow_if (j n : Nat) (f : Barrow → Barrow) :
    (s.updBarrow n f).barrow j = if j = n then f (s.barrow n) else s.barrow j := Tbl.get_upd _ _ _ _ _

@[simp] theorem State.tree_updTree (n : Nat) (f : Tree → Tree) : (s.updTree n f).tree n = f (s.tree n) := Tbl.get_upd_same _ _ _ _

theorem State.tree_updTree_other {j n : Nat} (f : Tree → Tree) (h : j ≠ n) : (s.updTree n f).tree j = s.tree j :=
  Tbl.get_upd_other _ _ _ h

theorem State.tree_updTree_if (j n : Nat) (f : Tree → Tree) :
    (s.updTree n f).tree j = if j = n then f (s.tree n) else s.tree j := Tbl.get_upd _ _ _ _ _

@[simp] theorem State.key_updKey (n : Nat) (f : KeySlot → KeySlot) : (s.updKey n f).key n = f (s.key n) := Tbl.get_upd_same _ _ _ _

theorem State.key_updKey_other {j n : Nat} (f : KeySlot → KeySlot) (h : j ≠ n) : (s.updKey n f).key j = s.key j :=
  Tbl.get_upd_other _ _ _ h

theorem State.key_updKey_if (j n : Nat) (f : KeySlot → KeySlot) :
    (s.updKey n f).key j = if j = n then f (s.key n) else s.key j := Tbl.get_upd _ _ _ _ _

@[simp] theorem State.tenant_updTenant (n : Nat) (f : TenantSt → TenantSt) : (s.updTenant n f).tenant n = f (s.tenant n) := Tbl.get_upd_same _ _ _ _

theorem State.tenant_updTenant_other {j n : Nat} (f : TenantSt → TenantSt) (h : j ≠ n) : (s.updTenant n f).tenant j = s.tenant j :=
  Tbl.get_upd_other _ _ _ h

theorem State.tenant_updTenant_if (j n : Nat) (f : TenantSt → TenantSt) :
    (s.updTenant n f).tenant j = if j = n then f (s.tenant n) else s.tenant j := Tbl.get_upd _ _ _ _ _

@[simp] theorem State.granule_updGranule (n : Nat) (f : PitchEntry → PitchEntry) : (s.updGranule n f).granule n = f (s.granule n) := Tbl.get_upd_same _ _ _ _

theorem State.granule_updGranule_other {j n : Nat} (f : PitchEntry → PitchEntry) (h : j ≠ n) : (s.updGranule n f).granule j = s.granule j :=
  Tbl.get_upd_other _ _ _ h

theorem State.granule_updGranule_if (j n : Nat) (f : PitchEntry → PitchEntry) :
    (s.updGranule n f).granule j = if j = n then f (s.granule n) else s.granule j := Tbl.get_upd _ _ _ _ _

@[simp] theorem State.revoke_updRevoke (n : Nat) (f : RevokeEntry → RevokeEntry) : (s.updRevoke n f).revoke n = f (s.revoke n) := Tbl.get_upd_same _ _ _ _

theorem State.revoke_updRevoke_other {j n : Nat} (f : RevokeEntry → RevokeEntry) (h : j ≠ n) : (s.updRevoke n f).revoke j = s.revoke j :=
  Tbl.get_upd_other _ _ _ h

theorem State.revoke_updRevoke_if (j n : Nat) (f : RevokeEntry → RevokeEntry) :
    (s.updRevoke n f).revoke j = if j = n then f (s.revoke n) else s.revoke j := Tbl.get_upd _ _ _ _ _

@[simp] theorem State.shaper_updShaper (n : Nat) (f : Shaper → Shaper) : (s.updShaper n f).shaper n = f (s.shaper n) := Tbl.get_upd_same _ _ _ _

theorem State.shaper_updShaper_other {j n : Nat} (f : Shaper → Shaper) (h : j ≠ n) : (s.updShaper n f).shaper j = s.shaper j :=
  Tbl.get_upd_other _ _ _ h

theorem State.shaper_updShaper_if (j n : Nat) (f : Shaper → Shaper) :
    (s.updShaper n f).shaper j = if j = n then f (s.shaper n) else s.shaper j := Tbl.get_upd _ _ _ _ _

@[simp] theorem State.profile_updProfile (n : Nat) (f : Profile → Profile) : (s.updProfile n f).profile n = f (s.profile n) := Tbl.get_upd_same _ _ _ _

theorem State.profile_updProfile_other {j n : Nat} (f : Profile → Profile) (h : j ≠ n) : (s.updProfile n f).profile j = s.profile j :=
  Tbl.get_upd_other _ _ _ h

theorem State.profile_updProfile_if (j n : Nat) (f : Profile → Profile) :
    (s.updProfile n f).profile j = if j = n then f (s.profile n) else s.profile j := Tbl.get_upd _ _ _ _ _

@[simp] theorem State.reg_setReg (k v : Nat) : (s.setReg k v).reg k = v := Tbl.get_set_same _ _ _ _

theorem State.reg_setReg_other {j k : Nat} (v : Nat) (h : j ≠ k) : (s.setReg k v).reg j = s.reg j := by
  have e : ∀ (t : Tbl Nat) (d d' : Nat), (t.set d k v).get d' j = t.get d' j := by
    intro t d d'
    unfold Tbl.set
    split
    · exact Tbl.get_filter_other t d' h
    · exact Tbl.get_put_other t d' v h
  exact e _ _ _

@[simp] theorem State.tallyOf_count (g : Group) (i r n : Nat) :
    (s.count g i r n).tallyOf g i r = s.tallyOf g i r + BitVec.ofNat 64 n := by
  unfold State.count State.tallyOf
  simp only [Tbl.get_upd_same]

/-! ### What an update leaves -/

@[simp] theorem State.updLink_pending (n : Nat) (f : LinkSt → LinkSt) : (s.updLink n f).pending = s.pending := rfl
@[simp] theorem State.updLink_dict (n : Nat) (f : LinkSt → LinkSt) : (s.updLink n f).dict = s.dict := rfl
@[simp] theorem State.updLink_stalls (n : Nat) (f : LinkSt → LinkSt) : (s.updLink n f).stalls = s.stalls := rfl
@[simp] theorem State.updLink_shapers (n : Nat) (f : LinkSt → LinkSt) : (s.updLink n f).shapers = s.shapers := rfl
@[simp] theorem State.updLink_pitch (n : Nat) (f : LinkSt → LinkSt) : (s.updLink n f).pitch = s.pitch := rfl
@[simp] theorem State.updLink_slices (n : Nat) (f : LinkSt → LinkSt) : (s.updLink n f).slices = s.slices := rfl
@[simp] theorem State.updLink_chans (n : Nat) (f : LinkSt → LinkSt) : (s.updLink n f).chans = s.chans := rfl
@[simp] theorem State.updLink_snoops (n : Nat) (f : LinkSt → LinkSt) : (s.updLink n f).snoops = s.snoops := rfl
@[simp] theorem State.updLink_nextTag (n : Nat) (f : LinkSt → LinkSt) : (s.updLink n f).nextTag = s.nextTag := rfl
@[simp] theorem State.updLink_barrows (n : Nat) (f : LinkSt → LinkSt) : (s.updLink n f).barrows = s.barrows := rfl
@[simp] theorem State.updLink_seeds (n : Nat) (f : LinkSt → LinkSt) : (s.updLink n f).seeds = s.seeds := rfl
@[simp] theorem State.updLink_trees (n : Nat) (f : LinkSt → LinkSt) : (s.updLink n f).trees = s.trees := rfl
@[simp] theorem State.updLink_pushes (n : Nat) (f : LinkSt → LinkSt) : (s.updLink n f).pushes = s.pushes := rfl
@[simp] theorem State.updLink_time (n : Nat) (f : LinkSt → LinkSt) : (s.updLink n f).time = s.time := rfl
@[simp] theorem State.updLink_gates (n : Nat) (f : LinkSt → LinkSt) : (s.updLink n f).gates = s.gates := rfl
@[simp] theorem State.updLink_xbar (n : Nat) (f : LinkSt → LinkSt) : (s.updLink n f).xbar = s.xbar := rfl
@[simp] theorem State.updLink_checker (n : Nat) (f : LinkSt → LinkSt) : (s.updLink n f).checker = s.checker := rfl
@[simp] theorem State.updLink_pair (n : Nat) (f : LinkSt → LinkSt) : (s.updLink n f).pair = s.pair := rfl
@[simp] theorem State.updLink_repair (n : Nat) (f : LinkSt → LinkSt) : (s.updLink n f).repair = s.repair := rfl
@[simp] theorem State.updLink_sec (n : Nat) (f : LinkSt → LinkSt) : (s.updLink n f).sec = s.sec := rfl
@[simp] theorem State.updLink_mgmt (n : Nat) (f : LinkSt → LinkSt) : (s.updLink n f).mgmt = s.mgmt := rfl
@[simp] theorem State.updLink_obs (n : Nat) (f : LinkSt → LinkSt) : (s.updLink n f).obs = s.obs := rfl
@[simp] theorem State.updLink_power (n : Nat) (f : LinkSt → LinkSt) : (s.updLink n f).power = s.power := rfl
@[simp] theorem State.updLink_clock (n : Nat) (f : LinkSt → LinkSt) : (s.updLink n f).clock = s.clock := rfl
@[simp] theorem State.updLink_boot (n : Nat) (f : LinkSt → LinkSt) : (s.updLink n f).boot = s.boot := rfl
@[simp] theorem State.updLink_orphanRun (n : Nat) (f : LinkSt → LinkSt) : (s.updLink n f).orphanRun = s.orphanRun := rfl
@[simp] theorem State.updLink_free (n : Nat) (f : LinkSt → LinkSt) : (s.updLink n f).free = s.free := rfl
@[simp] theorem State.updLink_at_stall (n : Nat) (f : LinkSt → LinkSt) (j : Nat) : (s.updLink n f).stall j = s.stall j := rfl
@[simp] theorem State.updLink_at_slice (n : Nat) (f : LinkSt → LinkSt) (j : Nat) : (s.updLink n f).slice j = s.slice j := rfl
@[simp] theorem State.updLink_at_chan (n : Nat) (f : LinkSt → LinkSt) (j : Nat) : (s.updLink n f).chan j = s.chan j := rfl
@[simp] theorem State.updLink_at_barrow (n : Nat) (f : LinkSt → LinkSt) (j : Nat) : (s.updLink n f).barrow j = s.barrow j := rfl
@[simp] theorem State.updLink_at_tree (n : Nat) (f : LinkSt → LinkSt) (j : Nat) : (s.updLink n f).tree j = s.tree j := rfl
@[simp] theorem State.updLink_at_key (n : Nat) (f : LinkSt → LinkSt) (j : Nat) : (s.updLink n f).key j = s.key j := rfl
@[simp] theorem State.updLink_at_tenant (n : Nat) (f : LinkSt → LinkSt) (j : Nat) : (s.updLink n f).tenant j = s.tenant j := rfl
@[simp] theorem State.updLink_at_granule (n : Nat) (f : LinkSt → LinkSt) (j : Nat) : (s.updLink n f).granule j = s.granule j := rfl
@[simp] theorem State.updLink_at_revoke (n : Nat) (f : LinkSt → LinkSt) (j : Nat) : (s.updLink n f).revoke j = s.revoke j := rfl
@[simp] theorem State.updLink_at_shaper (n : Nat) (f : LinkSt → LinkSt) (j : Nat) : (s.updLink n f).shaper j = s.shaper j := rfl
@[simp] theorem State.updLink_at_profile (n : Nat) (f : LinkSt → LinkSt) (j : Nat) : (s.updLink n f).profile j = s.profile j := rfl
@[simp] theorem State.updLink_tallyOf (n : Nat) (f : LinkSt → LinkSt) (g : Group) (i' r' : Nat) : (s.updLink n f).tallyOf g i' r' = s.tallyOf g i' r' := rfl
@[simp] theorem State.updLink_at_reg (n : Nat) (f : LinkSt → LinkSt) (j : Nat) : (s.updLink n f).reg j = s.reg j := rfl

@[simp] theorem State.updStall_pending (n : Nat) (f : StallSt → StallSt) : (s.updStall n f).pending = s.pending := rfl
@[simp] theorem State.updStall_dict (n : Nat) (f : StallSt → StallSt) : (s.updStall n f).dict = s.dict := rfl
@[simp] theorem State.updStall_links (n : Nat) (f : StallSt → StallSt) : (s.updStall n f).links = s.links := rfl
@[simp] theorem State.updStall_shapers (n : Nat) (f : StallSt → StallSt) : (s.updStall n f).shapers = s.shapers := rfl
@[simp] theorem State.updStall_pitch (n : Nat) (f : StallSt → StallSt) : (s.updStall n f).pitch = s.pitch := rfl
@[simp] theorem State.updStall_slices (n : Nat) (f : StallSt → StallSt) : (s.updStall n f).slices = s.slices := rfl
@[simp] theorem State.updStall_chans (n : Nat) (f : StallSt → StallSt) : (s.updStall n f).chans = s.chans := rfl
@[simp] theorem State.updStall_snoops (n : Nat) (f : StallSt → StallSt) : (s.updStall n f).snoops = s.snoops := rfl
@[simp] theorem State.updStall_nextTag (n : Nat) (f : StallSt → StallSt) : (s.updStall n f).nextTag = s.nextTag := rfl
@[simp] theorem State.updStall_barrows (n : Nat) (f : StallSt → StallSt) : (s.updStall n f).barrows = s.barrows := rfl
@[simp] theorem State.updStall_seeds (n : Nat) (f : StallSt → StallSt) : (s.updStall n f).seeds = s.seeds := rfl
@[simp] theorem State.updStall_trees (n : Nat) (f : StallSt → StallSt) : (s.updStall n f).trees = s.trees := rfl
@[simp] theorem State.updStall_pushes (n : Nat) (f : StallSt → StallSt) : (s.updStall n f).pushes = s.pushes := rfl
@[simp] theorem State.updStall_time (n : Nat) (f : StallSt → StallSt) : (s.updStall n f).time = s.time := rfl
@[simp] theorem State.updStall_gates (n : Nat) (f : StallSt → StallSt) : (s.updStall n f).gates = s.gates := rfl
@[simp] theorem State.updStall_xbar (n : Nat) (f : StallSt → StallSt) : (s.updStall n f).xbar = s.xbar := rfl
@[simp] theorem State.updStall_checker (n : Nat) (f : StallSt → StallSt) : (s.updStall n f).checker = s.checker := rfl
@[simp] theorem State.updStall_pair (n : Nat) (f : StallSt → StallSt) : (s.updStall n f).pair = s.pair := rfl
@[simp] theorem State.updStall_repair (n : Nat) (f : StallSt → StallSt) : (s.updStall n f).repair = s.repair := rfl
@[simp] theorem State.updStall_sec (n : Nat) (f : StallSt → StallSt) : (s.updStall n f).sec = s.sec := rfl
@[simp] theorem State.updStall_mgmt (n : Nat) (f : StallSt → StallSt) : (s.updStall n f).mgmt = s.mgmt := rfl
@[simp] theorem State.updStall_obs (n : Nat) (f : StallSt → StallSt) : (s.updStall n f).obs = s.obs := rfl
@[simp] theorem State.updStall_power (n : Nat) (f : StallSt → StallSt) : (s.updStall n f).power = s.power := rfl
@[simp] theorem State.updStall_clock (n : Nat) (f : StallSt → StallSt) : (s.updStall n f).clock = s.clock := rfl
@[simp] theorem State.updStall_boot (n : Nat) (f : StallSt → StallSt) : (s.updStall n f).boot = s.boot := rfl
@[simp] theorem State.updStall_orphanRun (n : Nat) (f : StallSt → StallSt) : (s.updStall n f).orphanRun = s.orphanRun := rfl
@[simp] theorem State.updStall_free (n : Nat) (f : StallSt → StallSt) : (s.updStall n f).free = s.free := rfl
@[simp] theorem State.updStall_at_link (n : Nat) (f : StallSt → StallSt) (j : Nat) : (s.updStall n f).link j = s.link j := rfl
@[simp] theorem State.updStall_at_slice (n : Nat) (f : StallSt → StallSt) (j : Nat) : (s.updStall n f).slice j = s.slice j := rfl
@[simp] theorem State.updStall_at_chan (n : Nat) (f : StallSt → StallSt) (j : Nat) : (s.updStall n f).chan j = s.chan j := rfl
@[simp] theorem State.updStall_at_barrow (n : Nat) (f : StallSt → StallSt) (j : Nat) : (s.updStall n f).barrow j = s.barrow j := rfl
@[simp] theorem State.updStall_at_tree (n : Nat) (f : StallSt → StallSt) (j : Nat) : (s.updStall n f).tree j = s.tree j := rfl
@[simp] theorem State.updStall_at_key (n : Nat) (f : StallSt → StallSt) (j : Nat) : (s.updStall n f).key j = s.key j := rfl
@[simp] theorem State.updStall_at_tenant (n : Nat) (f : StallSt → StallSt) (j : Nat) : (s.updStall n f).tenant j = s.tenant j := rfl
@[simp] theorem State.updStall_at_granule (n : Nat) (f : StallSt → StallSt) (j : Nat) : (s.updStall n f).granule j = s.granule j := rfl
@[simp] theorem State.updStall_at_revoke (n : Nat) (f : StallSt → StallSt) (j : Nat) : (s.updStall n f).revoke j = s.revoke j := rfl
@[simp] theorem State.updStall_at_shaper (n : Nat) (f : StallSt → StallSt) (j : Nat) : (s.updStall n f).shaper j = s.shaper j := rfl
@[simp] theorem State.updStall_at_profile (n : Nat) (f : StallSt → StallSt) (j : Nat) : (s.updStall n f).profile j = s.profile j := rfl
@[simp] theorem State.updStall_tallyOf (n : Nat) (f : StallSt → StallSt) (g : Group) (i' r' : Nat) : (s.updStall n f).tallyOf g i' r' = s.tallyOf g i' r' := rfl
@[simp] theorem State.updStall_at_reg (n : Nat) (f : StallSt → StallSt) (j : Nat) : (s.updStall n f).reg j = s.reg j := rfl

@[simp] theorem State.updSlice_pending (n : Nat) (f : SliceSt → SliceSt) : (s.updSlice n f).pending = s.pending := rfl
@[simp] theorem State.updSlice_dict (n : Nat) (f : SliceSt → SliceSt) : (s.updSlice n f).dict = s.dict := rfl
@[simp] theorem State.updSlice_links (n : Nat) (f : SliceSt → SliceSt) : (s.updSlice n f).links = s.links := rfl
@[simp] theorem State.updSlice_stalls (n : Nat) (f : SliceSt → SliceSt) : (s.updSlice n f).stalls = s.stalls := rfl
@[simp] theorem State.updSlice_shapers (n : Nat) (f : SliceSt → SliceSt) : (s.updSlice n f).shapers = s.shapers := rfl
@[simp] theorem State.updSlice_pitch (n : Nat) (f : SliceSt → SliceSt) : (s.updSlice n f).pitch = s.pitch := rfl
@[simp] theorem State.updSlice_chans (n : Nat) (f : SliceSt → SliceSt) : (s.updSlice n f).chans = s.chans := rfl
@[simp] theorem State.updSlice_snoops (n : Nat) (f : SliceSt → SliceSt) : (s.updSlice n f).snoops = s.snoops := rfl
@[simp] theorem State.updSlice_nextTag (n : Nat) (f : SliceSt → SliceSt) : (s.updSlice n f).nextTag = s.nextTag := rfl
@[simp] theorem State.updSlice_barrows (n : Nat) (f : SliceSt → SliceSt) : (s.updSlice n f).barrows = s.barrows := rfl
@[simp] theorem State.updSlice_seeds (n : Nat) (f : SliceSt → SliceSt) : (s.updSlice n f).seeds = s.seeds := rfl
@[simp] theorem State.updSlice_trees (n : Nat) (f : SliceSt → SliceSt) : (s.updSlice n f).trees = s.trees := rfl
@[simp] theorem State.updSlice_pushes (n : Nat) (f : SliceSt → SliceSt) : (s.updSlice n f).pushes = s.pushes := rfl
@[simp] theorem State.updSlice_time (n : Nat) (f : SliceSt → SliceSt) : (s.updSlice n f).time = s.time := rfl
@[simp] theorem State.updSlice_gates (n : Nat) (f : SliceSt → SliceSt) : (s.updSlice n f).gates = s.gates := rfl
@[simp] theorem State.updSlice_xbar (n : Nat) (f : SliceSt → SliceSt) : (s.updSlice n f).xbar = s.xbar := rfl
@[simp] theorem State.updSlice_checker (n : Nat) (f : SliceSt → SliceSt) : (s.updSlice n f).checker = s.checker := rfl
@[simp] theorem State.updSlice_pair (n : Nat) (f : SliceSt → SliceSt) : (s.updSlice n f).pair = s.pair := rfl
@[simp] theorem State.updSlice_repair (n : Nat) (f : SliceSt → SliceSt) : (s.updSlice n f).repair = s.repair := rfl
@[simp] theorem State.updSlice_sec (n : Nat) (f : SliceSt → SliceSt) : (s.updSlice n f).sec = s.sec := rfl
@[simp] theorem State.updSlice_mgmt (n : Nat) (f : SliceSt → SliceSt) : (s.updSlice n f).mgmt = s.mgmt := rfl
@[simp] theorem State.updSlice_obs (n : Nat) (f : SliceSt → SliceSt) : (s.updSlice n f).obs = s.obs := rfl
@[simp] theorem State.updSlice_power (n : Nat) (f : SliceSt → SliceSt) : (s.updSlice n f).power = s.power := rfl
@[simp] theorem State.updSlice_clock (n : Nat) (f : SliceSt → SliceSt) : (s.updSlice n f).clock = s.clock := rfl
@[simp] theorem State.updSlice_boot (n : Nat) (f : SliceSt → SliceSt) : (s.updSlice n f).boot = s.boot := rfl
@[simp] theorem State.updSlice_orphanRun (n : Nat) (f : SliceSt → SliceSt) : (s.updSlice n f).orphanRun = s.orphanRun := rfl
@[simp] theorem State.updSlice_free (n : Nat) (f : SliceSt → SliceSt) : (s.updSlice n f).free = s.free := rfl
@[simp] theorem State.updSlice_at_link (n : Nat) (f : SliceSt → SliceSt) (j : Nat) : (s.updSlice n f).link j = s.link j := rfl
@[simp] theorem State.updSlice_at_stall (n : Nat) (f : SliceSt → SliceSt) (j : Nat) : (s.updSlice n f).stall j = s.stall j := rfl
@[simp] theorem State.updSlice_at_chan (n : Nat) (f : SliceSt → SliceSt) (j : Nat) : (s.updSlice n f).chan j = s.chan j := rfl
@[simp] theorem State.updSlice_at_barrow (n : Nat) (f : SliceSt → SliceSt) (j : Nat) : (s.updSlice n f).barrow j = s.barrow j := rfl
@[simp] theorem State.updSlice_at_tree (n : Nat) (f : SliceSt → SliceSt) (j : Nat) : (s.updSlice n f).tree j = s.tree j := rfl
@[simp] theorem State.updSlice_at_key (n : Nat) (f : SliceSt → SliceSt) (j : Nat) : (s.updSlice n f).key j = s.key j := rfl
@[simp] theorem State.updSlice_at_tenant (n : Nat) (f : SliceSt → SliceSt) (j : Nat) : (s.updSlice n f).tenant j = s.tenant j := rfl
@[simp] theorem State.updSlice_at_granule (n : Nat) (f : SliceSt → SliceSt) (j : Nat) : (s.updSlice n f).granule j = s.granule j := rfl
@[simp] theorem State.updSlice_at_revoke (n : Nat) (f : SliceSt → SliceSt) (j : Nat) : (s.updSlice n f).revoke j = s.revoke j := rfl
@[simp] theorem State.updSlice_at_shaper (n : Nat) (f : SliceSt → SliceSt) (j : Nat) : (s.updSlice n f).shaper j = s.shaper j := rfl
@[simp] theorem State.updSlice_at_profile (n : Nat) (f : SliceSt → SliceSt) (j : Nat) : (s.updSlice n f).profile j = s.profile j := rfl
@[simp] theorem State.updSlice_tallyOf (n : Nat) (f : SliceSt → SliceSt) (g : Group) (i' r' : Nat) : (s.updSlice n f).tallyOf g i' r' = s.tallyOf g i' r' := rfl
@[simp] theorem State.updSlice_at_reg (n : Nat) (f : SliceSt → SliceSt) (j : Nat) : (s.updSlice n f).reg j = s.reg j := rfl

@[simp] theorem State.updChan_pending (n : Nat) (f : ChanSt → ChanSt) : (s.updChan n f).pending = s.pending := rfl
@[simp] theorem State.updChan_dict (n : Nat) (f : ChanSt → ChanSt) : (s.updChan n f).dict = s.dict := rfl
@[simp] theorem State.updChan_links (n : Nat) (f : ChanSt → ChanSt) : (s.updChan n f).links = s.links := rfl
@[simp] theorem State.updChan_stalls (n : Nat) (f : ChanSt → ChanSt) : (s.updChan n f).stalls = s.stalls := rfl
@[simp] theorem State.updChan_shapers (n : Nat) (f : ChanSt → ChanSt) : (s.updChan n f).shapers = s.shapers := rfl
@[simp] theorem State.updChan_pitch (n : Nat) (f : ChanSt → ChanSt) : (s.updChan n f).pitch = s.pitch := rfl
@[simp] theorem State.updChan_slices (n : Nat) (f : ChanSt → ChanSt) : (s.updChan n f).slices = s.slices := rfl
@[simp] theorem State.updChan_snoops (n : Nat) (f : ChanSt → ChanSt) : (s.updChan n f).snoops = s.snoops := rfl
@[simp] theorem State.updChan_nextTag (n : Nat) (f : ChanSt → ChanSt) : (s.updChan n f).nextTag = s.nextTag := rfl
@[simp] theorem State.updChan_barrows (n : Nat) (f : ChanSt → ChanSt) : (s.updChan n f).barrows = s.barrows := rfl
@[simp] theorem State.updChan_seeds (n : Nat) (f : ChanSt → ChanSt) : (s.updChan n f).seeds = s.seeds := rfl
@[simp] theorem State.updChan_trees (n : Nat) (f : ChanSt → ChanSt) : (s.updChan n f).trees = s.trees := rfl
@[simp] theorem State.updChan_pushes (n : Nat) (f : ChanSt → ChanSt) : (s.updChan n f).pushes = s.pushes := rfl
@[simp] theorem State.updChan_time (n : Nat) (f : ChanSt → ChanSt) : (s.updChan n f).time = s.time := rfl
@[simp] theorem State.updChan_gates (n : Nat) (f : ChanSt → ChanSt) : (s.updChan n f).gates = s.gates := rfl
@[simp] theorem State.updChan_xbar (n : Nat) (f : ChanSt → ChanSt) : (s.updChan n f).xbar = s.xbar := rfl
@[simp] theorem State.updChan_checker (n : Nat) (f : ChanSt → ChanSt) : (s.updChan n f).checker = s.checker := rfl
@[simp] theorem State.updChan_pair (n : Nat) (f : ChanSt → ChanSt) : (s.updChan n f).pair = s.pair := rfl
@[simp] theorem State.updChan_repair (n : Nat) (f : ChanSt → ChanSt) : (s.updChan n f).repair = s.repair := rfl
@[simp] theorem State.updChan_sec (n : Nat) (f : ChanSt → ChanSt) : (s.updChan n f).sec = s.sec := rfl
@[simp] theorem State.updChan_mgmt (n : Nat) (f : ChanSt → ChanSt) : (s.updChan n f).mgmt = s.mgmt := rfl
@[simp] theorem State.updChan_obs (n : Nat) (f : ChanSt → ChanSt) : (s.updChan n f).obs = s.obs := rfl
@[simp] theorem State.updChan_power (n : Nat) (f : ChanSt → ChanSt) : (s.updChan n f).power = s.power := rfl
@[simp] theorem State.updChan_clock (n : Nat) (f : ChanSt → ChanSt) : (s.updChan n f).clock = s.clock := rfl
@[simp] theorem State.updChan_boot (n : Nat) (f : ChanSt → ChanSt) : (s.updChan n f).boot = s.boot := rfl
@[simp] theorem State.updChan_orphanRun (n : Nat) (f : ChanSt → ChanSt) : (s.updChan n f).orphanRun = s.orphanRun := rfl
@[simp] theorem State.updChan_free (n : Nat) (f : ChanSt → ChanSt) : (s.updChan n f).free = s.free := rfl
@[simp] theorem State.updChan_at_link (n : Nat) (f : ChanSt → ChanSt) (j : Nat) : (s.updChan n f).link j = s.link j := rfl
@[simp] theorem State.updChan_at_stall (n : Nat) (f : ChanSt → ChanSt) (j : Nat) : (s.updChan n f).stall j = s.stall j := rfl
@[simp] theorem State.updChan_at_slice (n : Nat) (f : ChanSt → ChanSt) (j : Nat) : (s.updChan n f).slice j = s.slice j := rfl
@[simp] theorem State.updChan_at_barrow (n : Nat) (f : ChanSt → ChanSt) (j : Nat) : (s.updChan n f).barrow j = s.barrow j := rfl
@[simp] theorem State.updChan_at_tree (n : Nat) (f : ChanSt → ChanSt) (j : Nat) : (s.updChan n f).tree j = s.tree j := rfl
@[simp] theorem State.updChan_at_key (n : Nat) (f : ChanSt → ChanSt) (j : Nat) : (s.updChan n f).key j = s.key j := rfl
@[simp] theorem State.updChan_at_tenant (n : Nat) (f : ChanSt → ChanSt) (j : Nat) : (s.updChan n f).tenant j = s.tenant j := rfl
@[simp] theorem State.updChan_at_granule (n : Nat) (f : ChanSt → ChanSt) (j : Nat) : (s.updChan n f).granule j = s.granule j := rfl
@[simp] theorem State.updChan_at_revoke (n : Nat) (f : ChanSt → ChanSt) (j : Nat) : (s.updChan n f).revoke j = s.revoke j := rfl
@[simp] theorem State.updChan_at_shaper (n : Nat) (f : ChanSt → ChanSt) (j : Nat) : (s.updChan n f).shaper j = s.shaper j := rfl
@[simp] theorem State.updChan_at_profile (n : Nat) (f : ChanSt → ChanSt) (j : Nat) : (s.updChan n f).profile j = s.profile j := rfl
@[simp] theorem State.updChan_tallyOf (n : Nat) (f : ChanSt → ChanSt) (g : Group) (i' r' : Nat) : (s.updChan n f).tallyOf g i' r' = s.tallyOf g i' r' := rfl
@[simp] theorem State.updChan_at_reg (n : Nat) (f : ChanSt → ChanSt) (j : Nat) : (s.updChan n f).reg j = s.reg j := rfl

@[simp] theorem State.updBarrow_pending (n : Nat) (f : Barrow → Barrow) : (s.updBarrow n f).pending = s.pending := rfl
@[simp] theorem State.updBarrow_dict (n : Nat) (f : Barrow → Barrow) : (s.updBarrow n f).dict = s.dict := rfl
@[simp] theorem State.updBarrow_links (n : Nat) (f : Barrow → Barrow) : (s.updBarrow n f).links = s.links := rfl
@[simp] theorem State.updBarrow_stalls (n : Nat) (f : Barrow → Barrow) : (s.updBarrow n f).stalls = s.stalls := rfl
@[simp] theorem State.updBarrow_shapers (n : Nat) (f : Barrow → Barrow) : (s.updBarrow n f).shapers = s.shapers := rfl
@[simp] theorem State.updBarrow_pitch (n : Nat) (f : Barrow → Barrow) : (s.updBarrow n f).pitch = s.pitch := rfl
@[simp] theorem State.updBarrow_slices (n : Nat) (f : Barrow → Barrow) : (s.updBarrow n f).slices = s.slices := rfl
@[simp] theorem State.updBarrow_chans (n : Nat) (f : Barrow → Barrow) : (s.updBarrow n f).chans = s.chans := rfl
@[simp] theorem State.updBarrow_snoops (n : Nat) (f : Barrow → Barrow) : (s.updBarrow n f).snoops = s.snoops := rfl
@[simp] theorem State.updBarrow_nextTag (n : Nat) (f : Barrow → Barrow) : (s.updBarrow n f).nextTag = s.nextTag := rfl
@[simp] theorem State.updBarrow_seeds (n : Nat) (f : Barrow → Barrow) : (s.updBarrow n f).seeds = s.seeds := rfl
@[simp] theorem State.updBarrow_trees (n : Nat) (f : Barrow → Barrow) : (s.updBarrow n f).trees = s.trees := rfl
@[simp] theorem State.updBarrow_pushes (n : Nat) (f : Barrow → Barrow) : (s.updBarrow n f).pushes = s.pushes := rfl
@[simp] theorem State.updBarrow_time (n : Nat) (f : Barrow → Barrow) : (s.updBarrow n f).time = s.time := rfl
@[simp] theorem State.updBarrow_gates (n : Nat) (f : Barrow → Barrow) : (s.updBarrow n f).gates = s.gates := rfl
@[simp] theorem State.updBarrow_xbar (n : Nat) (f : Barrow → Barrow) : (s.updBarrow n f).xbar = s.xbar := rfl
@[simp] theorem State.updBarrow_checker (n : Nat) (f : Barrow → Barrow) : (s.updBarrow n f).checker = s.checker := rfl
@[simp] theorem State.updBarrow_pair (n : Nat) (f : Barrow → Barrow) : (s.updBarrow n f).pair = s.pair := rfl
@[simp] theorem State.updBarrow_repair (n : Nat) (f : Barrow → Barrow) : (s.updBarrow n f).repair = s.repair := rfl
@[simp] theorem State.updBarrow_sec (n : Nat) (f : Barrow → Barrow) : (s.updBarrow n f).sec = s.sec := rfl
@[simp] theorem State.updBarrow_mgmt (n : Nat) (f : Barrow → Barrow) : (s.updBarrow n f).mgmt = s.mgmt := rfl
@[simp] theorem State.updBarrow_obs (n : Nat) (f : Barrow → Barrow) : (s.updBarrow n f).obs = s.obs := rfl
@[simp] theorem State.updBarrow_power (n : Nat) (f : Barrow → Barrow) : (s.updBarrow n f).power = s.power := rfl
@[simp] theorem State.updBarrow_clock (n : Nat) (f : Barrow → Barrow) : (s.updBarrow n f).clock = s.clock := rfl
@[simp] theorem State.updBarrow_boot (n : Nat) (f : Barrow → Barrow) : (s.updBarrow n f).boot = s.boot := rfl
@[simp] theorem State.updBarrow_orphanRun (n : Nat) (f : Barrow → Barrow) : (s.updBarrow n f).orphanRun = s.orphanRun := rfl
@[simp] theorem State.updBarrow_free (n : Nat) (f : Barrow → Barrow) : (s.updBarrow n f).free = s.free := rfl
@[simp] theorem State.updBarrow_at_link (n : Nat) (f : Barrow → Barrow) (j : Nat) : (s.updBarrow n f).link j = s.link j := rfl
@[simp] theorem State.updBarrow_at_stall (n : Nat) (f : Barrow → Barrow) (j : Nat) : (s.updBarrow n f).stall j = s.stall j := rfl
@[simp] theorem State.updBarrow_at_slice (n : Nat) (f : Barrow → Barrow) (j : Nat) : (s.updBarrow n f).slice j = s.slice j := rfl
@[simp] theorem State.updBarrow_at_chan (n : Nat) (f : Barrow → Barrow) (j : Nat) : (s.updBarrow n f).chan j = s.chan j := rfl
@[simp] theorem State.updBarrow_at_tree (n : Nat) (f : Barrow → Barrow) (j : Nat) : (s.updBarrow n f).tree j = s.tree j := rfl
@[simp] theorem State.updBarrow_at_key (n : Nat) (f : Barrow → Barrow) (j : Nat) : (s.updBarrow n f).key j = s.key j := rfl
@[simp] theorem State.updBarrow_at_tenant (n : Nat) (f : Barrow → Barrow) (j : Nat) : (s.updBarrow n f).tenant j = s.tenant j := rfl
@[simp] theorem State.updBarrow_at_granule (n : Nat) (f : Barrow → Barrow) (j : Nat) : (s.updBarrow n f).granule j = s.granule j := rfl
@[simp] theorem State.updBarrow_at_revoke (n : Nat) (f : Barrow → Barrow) (j : Nat) : (s.updBarrow n f).revoke j = s.revoke j := rfl
@[simp] theorem State.updBarrow_at_shaper (n : Nat) (f : Barrow → Barrow) (j : Nat) : (s.updBarrow n f).shaper j = s.shaper j := rfl
@[simp] theorem State.updBarrow_at_profile (n : Nat) (f : Barrow → Barrow) (j : Nat) : (s.updBarrow n f).profile j = s.profile j := rfl
@[simp] theorem State.updBarrow_tallyOf (n : Nat) (f : Barrow → Barrow) (g : Group) (i' r' : Nat) : (s.updBarrow n f).tallyOf g i' r' = s.tallyOf g i' r' := rfl
@[simp] theorem State.updBarrow_at_reg (n : Nat) (f : Barrow → Barrow) (j : Nat) : (s.updBarrow n f).reg j = s.reg j := rfl

@[simp] theorem State.updTree_pending (n : Nat) (f : Tree → Tree) : (s.updTree n f).pending = s.pending := rfl
@[simp] theorem State.updTree_dict (n : Nat) (f : Tree → Tree) : (s.updTree n f).dict = s.dict := rfl
@[simp] theorem State.updTree_links (n : Nat) (f : Tree → Tree) : (s.updTree n f).links = s.links := rfl
@[simp] theorem State.updTree_stalls (n : Nat) (f : Tree → Tree) : (s.updTree n f).stalls = s.stalls := rfl
@[simp] theorem State.updTree_shapers (n : Nat) (f : Tree → Tree) : (s.updTree n f).shapers = s.shapers := rfl
@[simp] theorem State.updTree_pitch (n : Nat) (f : Tree → Tree) : (s.updTree n f).pitch = s.pitch := rfl
@[simp] theorem State.updTree_slices (n : Nat) (f : Tree → Tree) : (s.updTree n f).slices = s.slices := rfl
@[simp] theorem State.updTree_chans (n : Nat) (f : Tree → Tree) : (s.updTree n f).chans = s.chans := rfl
@[simp] theorem State.updTree_snoops (n : Nat) (f : Tree → Tree) : (s.updTree n f).snoops = s.snoops := rfl
@[simp] theorem State.updTree_nextTag (n : Nat) (f : Tree → Tree) : (s.updTree n f).nextTag = s.nextTag := rfl
@[simp] theorem State.updTree_barrows (n : Nat) (f : Tree → Tree) : (s.updTree n f).barrows = s.barrows := rfl
@[simp] theorem State.updTree_seeds (n : Nat) (f : Tree → Tree) : (s.updTree n f).seeds = s.seeds := rfl
@[simp] theorem State.updTree_pushes (n : Nat) (f : Tree → Tree) : (s.updTree n f).pushes = s.pushes := rfl
@[simp] theorem State.updTree_time (n : Nat) (f : Tree → Tree) : (s.updTree n f).time = s.time := rfl
@[simp] theorem State.updTree_gates (n : Nat) (f : Tree → Tree) : (s.updTree n f).gates = s.gates := rfl
@[simp] theorem State.updTree_xbar (n : Nat) (f : Tree → Tree) : (s.updTree n f).xbar = s.xbar := rfl
@[simp] theorem State.updTree_checker (n : Nat) (f : Tree → Tree) : (s.updTree n f).checker = s.checker := rfl
@[simp] theorem State.updTree_pair (n : Nat) (f : Tree → Tree) : (s.updTree n f).pair = s.pair := rfl
@[simp] theorem State.updTree_repair (n : Nat) (f : Tree → Tree) : (s.updTree n f).repair = s.repair := rfl
@[simp] theorem State.updTree_sec (n : Nat) (f : Tree → Tree) : (s.updTree n f).sec = s.sec := rfl
@[simp] theorem State.updTree_mgmt (n : Nat) (f : Tree → Tree) : (s.updTree n f).mgmt = s.mgmt := rfl
@[simp] theorem State.updTree_obs (n : Nat) (f : Tree → Tree) : (s.updTree n f).obs = s.obs := rfl
@[simp] theorem State.updTree_power (n : Nat) (f : Tree → Tree) : (s.updTree n f).power = s.power := rfl
@[simp] theorem State.updTree_clock (n : Nat) (f : Tree → Tree) : (s.updTree n f).clock = s.clock := rfl
@[simp] theorem State.updTree_boot (n : Nat) (f : Tree → Tree) : (s.updTree n f).boot = s.boot := rfl
@[simp] theorem State.updTree_orphanRun (n : Nat) (f : Tree → Tree) : (s.updTree n f).orphanRun = s.orphanRun := rfl
@[simp] theorem State.updTree_free (n : Nat) (f : Tree → Tree) : (s.updTree n f).free = s.free := rfl
@[simp] theorem State.updTree_at_link (n : Nat) (f : Tree → Tree) (j : Nat) : (s.updTree n f).link j = s.link j := rfl
@[simp] theorem State.updTree_at_stall (n : Nat) (f : Tree → Tree) (j : Nat) : (s.updTree n f).stall j = s.stall j := rfl
@[simp] theorem State.updTree_at_slice (n : Nat) (f : Tree → Tree) (j : Nat) : (s.updTree n f).slice j = s.slice j := rfl
@[simp] theorem State.updTree_at_chan (n : Nat) (f : Tree → Tree) (j : Nat) : (s.updTree n f).chan j = s.chan j := rfl
@[simp] theorem State.updTree_at_barrow (n : Nat) (f : Tree → Tree) (j : Nat) : (s.updTree n f).barrow j = s.barrow j := rfl
@[simp] theorem State.updTree_at_key (n : Nat) (f : Tree → Tree) (j : Nat) : (s.updTree n f).key j = s.key j := rfl
@[simp] theorem State.updTree_at_tenant (n : Nat) (f : Tree → Tree) (j : Nat) : (s.updTree n f).tenant j = s.tenant j := rfl
@[simp] theorem State.updTree_at_granule (n : Nat) (f : Tree → Tree) (j : Nat) : (s.updTree n f).granule j = s.granule j := rfl
@[simp] theorem State.updTree_at_revoke (n : Nat) (f : Tree → Tree) (j : Nat) : (s.updTree n f).revoke j = s.revoke j := rfl
@[simp] theorem State.updTree_at_shaper (n : Nat) (f : Tree → Tree) (j : Nat) : (s.updTree n f).shaper j = s.shaper j := rfl
@[simp] theorem State.updTree_at_profile (n : Nat) (f : Tree → Tree) (j : Nat) : (s.updTree n f).profile j = s.profile j := rfl
@[simp] theorem State.updTree_tallyOf (n : Nat) (f : Tree → Tree) (g : Group) (i' r' : Nat) : (s.updTree n f).tallyOf g i' r' = s.tallyOf g i' r' := rfl
@[simp] theorem State.updTree_at_reg (n : Nat) (f : Tree → Tree) (j : Nat) : (s.updTree n f).reg j = s.reg j := rfl

@[simp] theorem State.updKey_pending (n : Nat) (f : KeySlot → KeySlot) : (s.updKey n f).pending = s.pending := rfl
@[simp] theorem State.updKey_dict (n : Nat) (f : KeySlot → KeySlot) : (s.updKey n f).dict = s.dict := rfl
@[simp] theorem State.updKey_links (n : Nat) (f : KeySlot → KeySlot) : (s.updKey n f).links = s.links := rfl
@[simp] theorem State.updKey_stalls (n : Nat) (f : KeySlot → KeySlot) : (s.updKey n f).stalls = s.stalls := rfl
@[simp] theorem State.updKey_shapers (n : Nat) (f : KeySlot → KeySlot) : (s.updKey n f).shapers = s.shapers := rfl
@[simp] theorem State.updKey_pitch (n : Nat) (f : KeySlot → KeySlot) : (s.updKey n f).pitch = s.pitch := rfl
@[simp] theorem State.updKey_slices (n : Nat) (f : KeySlot → KeySlot) : (s.updKey n f).slices = s.slices := rfl
@[simp] theorem State.updKey_chans (n : Nat) (f : KeySlot → KeySlot) : (s.updKey n f).chans = s.chans := rfl
@[simp] theorem State.updKey_snoops (n : Nat) (f : KeySlot → KeySlot) : (s.updKey n f).snoops = s.snoops := rfl
@[simp] theorem State.updKey_nextTag (n : Nat) (f : KeySlot → KeySlot) : (s.updKey n f).nextTag = s.nextTag := rfl
@[simp] theorem State.updKey_barrows (n : Nat) (f : KeySlot → KeySlot) : (s.updKey n f).barrows = s.barrows := rfl
@[simp] theorem State.updKey_seeds (n : Nat) (f : KeySlot → KeySlot) : (s.updKey n f).seeds = s.seeds := rfl
@[simp] theorem State.updKey_trees (n : Nat) (f : KeySlot → KeySlot) : (s.updKey n f).trees = s.trees := rfl
@[simp] theorem State.updKey_pushes (n : Nat) (f : KeySlot → KeySlot) : (s.updKey n f).pushes = s.pushes := rfl
@[simp] theorem State.updKey_time (n : Nat) (f : KeySlot → KeySlot) : (s.updKey n f).time = s.time := rfl
@[simp] theorem State.updKey_gates (n : Nat) (f : KeySlot → KeySlot) : (s.updKey n f).gates = s.gates := rfl
@[simp] theorem State.updKey_xbar (n : Nat) (f : KeySlot → KeySlot) : (s.updKey n f).xbar = s.xbar := rfl
@[simp] theorem State.updKey_checker (n : Nat) (f : KeySlot → KeySlot) : (s.updKey n f).checker = s.checker := rfl
@[simp] theorem State.updKey_pair (n : Nat) (f : KeySlot → KeySlot) : (s.updKey n f).pair = s.pair := rfl
@[simp] theorem State.updKey_repair (n : Nat) (f : KeySlot → KeySlot) : (s.updKey n f).repair = s.repair := rfl
@[simp] theorem State.updKey_mgmt (n : Nat) (f : KeySlot → KeySlot) : (s.updKey n f).mgmt = s.mgmt := rfl
@[simp] theorem State.updKey_obs (n : Nat) (f : KeySlot → KeySlot) : (s.updKey n f).obs = s.obs := rfl
@[simp] theorem State.updKey_power (n : Nat) (f : KeySlot → KeySlot) : (s.updKey n f).power = s.power := rfl
@[simp] theorem State.updKey_clock (n : Nat) (f : KeySlot → KeySlot) : (s.updKey n f).clock = s.clock := rfl
@[simp] theorem State.updKey_boot (n : Nat) (f : KeySlot → KeySlot) : (s.updKey n f).boot = s.boot := rfl
@[simp] theorem State.updKey_orphanRun (n : Nat) (f : KeySlot → KeySlot) : (s.updKey n f).orphanRun = s.orphanRun := rfl
@[simp] theorem State.updKey_free (n : Nat) (f : KeySlot → KeySlot) : (s.updKey n f).free = s.free := rfl
@[simp] theorem State.updKey_at_link (n : Nat) (f : KeySlot → KeySlot) (j : Nat) : (s.updKey n f).link j = s.link j := rfl
@[simp] theorem State.updKey_at_stall (n : Nat) (f : KeySlot → KeySlot) (j : Nat) : (s.updKey n f).stall j = s.stall j := rfl
@[simp] theorem State.updKey_at_slice (n : Nat) (f : KeySlot → KeySlot) (j : Nat) : (s.updKey n f).slice j = s.slice j := rfl
@[simp] theorem State.updKey_at_chan (n : Nat) (f : KeySlot → KeySlot) (j : Nat) : (s.updKey n f).chan j = s.chan j := rfl
@[simp] theorem State.updKey_at_barrow (n : Nat) (f : KeySlot → KeySlot) (j : Nat) : (s.updKey n f).barrow j = s.barrow j := rfl
@[simp] theorem State.updKey_at_tree (n : Nat) (f : KeySlot → KeySlot) (j : Nat) : (s.updKey n f).tree j = s.tree j := rfl
@[simp] theorem State.updKey_at_granule (n : Nat) (f : KeySlot → KeySlot) (j : Nat) : (s.updKey n f).granule j = s.granule j := rfl
@[simp] theorem State.updKey_at_revoke (n : Nat) (f : KeySlot → KeySlot) (j : Nat) : (s.updKey n f).revoke j = s.revoke j := rfl
@[simp] theorem State.updKey_at_shaper (n : Nat) (f : KeySlot → KeySlot) (j : Nat) : (s.updKey n f).shaper j = s.shaper j := rfl
@[simp] theorem State.updKey_at_profile (n : Nat) (f : KeySlot → KeySlot) (j : Nat) : (s.updKey n f).profile j = s.profile j := rfl
@[simp] theorem State.updKey_tallyOf (n : Nat) (f : KeySlot → KeySlot) (g : Group) (i' r' : Nat) : (s.updKey n f).tallyOf g i' r' = s.tallyOf g i' r' := rfl
@[simp] theorem State.updKey_at_reg (n : Nat) (f : KeySlot → KeySlot) (j : Nat) : (s.updKey n f).reg j = s.reg j := rfl

@[simp] theorem State.updTenant_pending (n : Nat) (f : TenantSt → TenantSt) : (s.updTenant n f).pending = s.pending := rfl
@[simp] theorem State.updTenant_dict (n : Nat) (f : TenantSt → TenantSt) : (s.updTenant n f).dict = s.dict := rfl
@[simp] theorem State.updTenant_links (n : Nat) (f : TenantSt → TenantSt) : (s.updTenant n f).links = s.links := rfl
@[simp] theorem State.updTenant_stalls (n : Nat) (f : TenantSt → TenantSt) : (s.updTenant n f).stalls = s.stalls := rfl
@[simp] theorem State.updTenant_shapers (n : Nat) (f : TenantSt → TenantSt) : (s.updTenant n f).shapers = s.shapers := rfl
@[simp] theorem State.updTenant_pitch (n : Nat) (f : TenantSt → TenantSt) : (s.updTenant n f).pitch = s.pitch := rfl
@[simp] theorem State.updTenant_slices (n : Nat) (f : TenantSt → TenantSt) : (s.updTenant n f).slices = s.slices := rfl
@[simp] theorem State.updTenant_chans (n : Nat) (f : TenantSt → TenantSt) : (s.updTenant n f).chans = s.chans := rfl
@[simp] theorem State.updTenant_snoops (n : Nat) (f : TenantSt → TenantSt) : (s.updTenant n f).snoops = s.snoops := rfl
@[simp] theorem State.updTenant_nextTag (n : Nat) (f : TenantSt → TenantSt) : (s.updTenant n f).nextTag = s.nextTag := rfl
@[simp] theorem State.updTenant_barrows (n : Nat) (f : TenantSt → TenantSt) : (s.updTenant n f).barrows = s.barrows := rfl
@[simp] theorem State.updTenant_seeds (n : Nat) (f : TenantSt → TenantSt) : (s.updTenant n f).seeds = s.seeds := rfl
@[simp] theorem State.updTenant_trees (n : Nat) (f : TenantSt → TenantSt) : (s.updTenant n f).trees = s.trees := rfl
@[simp] theorem State.updTenant_pushes (n : Nat) (f : TenantSt → TenantSt) : (s.updTenant n f).pushes = s.pushes := rfl
@[simp] theorem State.updTenant_time (n : Nat) (f : TenantSt → TenantSt) : (s.updTenant n f).time = s.time := rfl
@[simp] theorem State.updTenant_gates (n : Nat) (f : TenantSt → TenantSt) : (s.updTenant n f).gates = s.gates := rfl
@[simp] theorem State.updTenant_xbar (n : Nat) (f : TenantSt → TenantSt) : (s.updTenant n f).xbar = s.xbar := rfl
@[simp] theorem State.updTenant_checker (n : Nat) (f : TenantSt → TenantSt) : (s.updTenant n f).checker = s.checker := rfl
@[simp] theorem State.updTenant_pair (n : Nat) (f : TenantSt → TenantSt) : (s.updTenant n f).pair = s.pair := rfl
@[simp] theorem State.updTenant_repair (n : Nat) (f : TenantSt → TenantSt) : (s.updTenant n f).repair = s.repair := rfl
@[simp] theorem State.updTenant_mgmt (n : Nat) (f : TenantSt → TenantSt) : (s.updTenant n f).mgmt = s.mgmt := rfl
@[simp] theorem State.updTenant_obs (n : Nat) (f : TenantSt → TenantSt) : (s.updTenant n f).obs = s.obs := rfl
@[simp] theorem State.updTenant_power (n : Nat) (f : TenantSt → TenantSt) : (s.updTenant n f).power = s.power := rfl
@[simp] theorem State.updTenant_clock (n : Nat) (f : TenantSt → TenantSt) : (s.updTenant n f).clock = s.clock := rfl
@[simp] theorem State.updTenant_boot (n : Nat) (f : TenantSt → TenantSt) : (s.updTenant n f).boot = s.boot := rfl
@[simp] theorem State.updTenant_orphanRun (n : Nat) (f : TenantSt → TenantSt) : (s.updTenant n f).orphanRun = s.orphanRun := rfl
@[simp] theorem State.updTenant_free (n : Nat) (f : TenantSt → TenantSt) : (s.updTenant n f).free = s.free := rfl
@[simp] theorem State.updTenant_at_link (n : Nat) (f : TenantSt → TenantSt) (j : Nat) : (s.updTenant n f).link j = s.link j := rfl
@[simp] theorem State.updTenant_at_stall (n : Nat) (f : TenantSt → TenantSt) (j : Nat) : (s.updTenant n f).stall j = s.stall j := rfl
@[simp] theorem State.updTenant_at_slice (n : Nat) (f : TenantSt → TenantSt) (j : Nat) : (s.updTenant n f).slice j = s.slice j := rfl
@[simp] theorem State.updTenant_at_chan (n : Nat) (f : TenantSt → TenantSt) (j : Nat) : (s.updTenant n f).chan j = s.chan j := rfl
@[simp] theorem State.updTenant_at_barrow (n : Nat) (f : TenantSt → TenantSt) (j : Nat) : (s.updTenant n f).barrow j = s.barrow j := rfl
@[simp] theorem State.updTenant_at_tree (n : Nat) (f : TenantSt → TenantSt) (j : Nat) : (s.updTenant n f).tree j = s.tree j := rfl
@[simp] theorem State.updTenant_at_granule (n : Nat) (f : TenantSt → TenantSt) (j : Nat) : (s.updTenant n f).granule j = s.granule j := rfl
@[simp] theorem State.updTenant_at_revoke (n : Nat) (f : TenantSt → TenantSt) (j : Nat) : (s.updTenant n f).revoke j = s.revoke j := rfl
@[simp] theorem State.updTenant_at_shaper (n : Nat) (f : TenantSt → TenantSt) (j : Nat) : (s.updTenant n f).shaper j = s.shaper j := rfl
@[simp] theorem State.updTenant_at_profile (n : Nat) (f : TenantSt → TenantSt) (j : Nat) : (s.updTenant n f).profile j = s.profile j := rfl
@[simp] theorem State.updTenant_tallyOf (n : Nat) (f : TenantSt → TenantSt) (g : Group) (i' r' : Nat) : (s.updTenant n f).tallyOf g i' r' = s.tallyOf g i' r' := rfl
@[simp] theorem State.updTenant_at_reg (n : Nat) (f : TenantSt → TenantSt) (j : Nat) : (s.updTenant n f).reg j = s.reg j := rfl

@[simp] theorem State.updGranule_pending (n : Nat) (f : PitchEntry → PitchEntry) : (s.updGranule n f).pending = s.pending := rfl
@[simp] theorem State.updGranule_dict (n : Nat) (f : PitchEntry → PitchEntry) : (s.updGranule n f).dict = s.dict := rfl
@[simp] theorem State.updGranule_links (n : Nat) (f : PitchEntry → PitchEntry) : (s.updGranule n f).links = s.links := rfl
@[simp] theorem State.updGranule_stalls (n : Nat) (f : PitchEntry → PitchEntry) : (s.updGranule n f).stalls = s.stalls := rfl
@[simp] theorem State.updGranule_shapers (n : Nat) (f : PitchEntry → PitchEntry) : (s.updGranule n f).shapers = s.shapers := rfl
@[simp] theorem State.updGranule_slices (n : Nat) (f : PitchEntry → PitchEntry) : (s.updGranule n f).slices = s.slices := rfl
@[simp] theorem State.updGranule_chans (n : Nat) (f : PitchEntry → PitchEntry) : (s.updGranule n f).chans = s.chans := rfl
@[simp] theorem State.updGranule_snoops (n : Nat) (f : PitchEntry → PitchEntry) : (s.updGranule n f).snoops = s.snoops := rfl
@[simp] theorem State.updGranule_nextTag (n : Nat) (f : PitchEntry → PitchEntry) : (s.updGranule n f).nextTag = s.nextTag := rfl
@[simp] theorem State.updGranule_barrows (n : Nat) (f : PitchEntry → PitchEntry) : (s.updGranule n f).barrows = s.barrows := rfl
@[simp] theorem State.updGranule_seeds (n : Nat) (f : PitchEntry → PitchEntry) : (s.updGranule n f).seeds = s.seeds := rfl
@[simp] theorem State.updGranule_trees (n : Nat) (f : PitchEntry → PitchEntry) : (s.updGranule n f).trees = s.trees := rfl
@[simp] theorem State.updGranule_pushes (n : Nat) (f : PitchEntry → PitchEntry) : (s.updGranule n f).pushes = s.pushes := rfl
@[simp] theorem State.updGranule_time (n : Nat) (f : PitchEntry → PitchEntry) : (s.updGranule n f).time = s.time := rfl
@[simp] theorem State.updGranule_gates (n : Nat) (f : PitchEntry → PitchEntry) : (s.updGranule n f).gates = s.gates := rfl
@[simp] theorem State.updGranule_xbar (n : Nat) (f : PitchEntry → PitchEntry) : (s.updGranule n f).xbar = s.xbar := rfl
@[simp] theorem State.updGranule_checker (n : Nat) (f : PitchEntry → PitchEntry) : (s.updGranule n f).checker = s.checker := rfl
@[simp] theorem State.updGranule_pair (n : Nat) (f : PitchEntry → PitchEntry) : (s.updGranule n f).pair = s.pair := rfl
@[simp] theorem State.updGranule_repair (n : Nat) (f : PitchEntry → PitchEntry) : (s.updGranule n f).repair = s.repair := rfl
@[simp] theorem State.updGranule_sec (n : Nat) (f : PitchEntry → PitchEntry) : (s.updGranule n f).sec = s.sec := rfl
@[simp] theorem State.updGranule_mgmt (n : Nat) (f : PitchEntry → PitchEntry) : (s.updGranule n f).mgmt = s.mgmt := rfl
@[simp] theorem State.updGranule_obs (n : Nat) (f : PitchEntry → PitchEntry) : (s.updGranule n f).obs = s.obs := rfl
@[simp] theorem State.updGranule_power (n : Nat) (f : PitchEntry → PitchEntry) : (s.updGranule n f).power = s.power := rfl
@[simp] theorem State.updGranule_clock (n : Nat) (f : PitchEntry → PitchEntry) : (s.updGranule n f).clock = s.clock := rfl
@[simp] theorem State.updGranule_boot (n : Nat) (f : PitchEntry → PitchEntry) : (s.updGranule n f).boot = s.boot := rfl
@[simp] theorem State.updGranule_orphanRun (n : Nat) (f : PitchEntry → PitchEntry) : (s.updGranule n f).orphanRun = s.orphanRun := rfl
@[simp] theorem State.updGranule_free (n : Nat) (f : PitchEntry → PitchEntry) : (s.updGranule n f).free = s.free := rfl
@[simp] theorem State.updGranule_at_link (n : Nat) (f : PitchEntry → PitchEntry) (j : Nat) : (s.updGranule n f).link j = s.link j := rfl
@[simp] theorem State.updGranule_at_stall (n : Nat) (f : PitchEntry → PitchEntry) (j : Nat) : (s.updGranule n f).stall j = s.stall j := rfl
@[simp] theorem State.updGranule_at_slice (n : Nat) (f : PitchEntry → PitchEntry) (j : Nat) : (s.updGranule n f).slice j = s.slice j := rfl
@[simp] theorem State.updGranule_at_chan (n : Nat) (f : PitchEntry → PitchEntry) (j : Nat) : (s.updGranule n f).chan j = s.chan j := rfl
@[simp] theorem State.updGranule_at_barrow (n : Nat) (f : PitchEntry → PitchEntry) (j : Nat) : (s.updGranule n f).barrow j = s.barrow j := rfl
@[simp] theorem State.updGranule_at_tree (n : Nat) (f : PitchEntry → PitchEntry) (j : Nat) : (s.updGranule n f).tree j = s.tree j := rfl
@[simp] theorem State.updGranule_at_key (n : Nat) (f : PitchEntry → PitchEntry) (j : Nat) : (s.updGranule n f).key j = s.key j := rfl
@[simp] theorem State.updGranule_at_tenant (n : Nat) (f : PitchEntry → PitchEntry) (j : Nat) : (s.updGranule n f).tenant j = s.tenant j := rfl
@[simp] theorem State.updGranule_at_shaper (n : Nat) (f : PitchEntry → PitchEntry) (j : Nat) : (s.updGranule n f).shaper j = s.shaper j := rfl
@[simp] theorem State.updGranule_at_profile (n : Nat) (f : PitchEntry → PitchEntry) (j : Nat) : (s.updGranule n f).profile j = s.profile j := rfl
@[simp] theorem State.updGranule_tallyOf (n : Nat) (f : PitchEntry → PitchEntry) (g : Group) (i' r' : Nat) : (s.updGranule n f).tallyOf g i' r' = s.tallyOf g i' r' := rfl
@[simp] theorem State.updGranule_at_reg (n : Nat) (f : PitchEntry → PitchEntry) (j : Nat) : (s.updGranule n f).reg j = s.reg j := rfl

@[simp] theorem State.updRevoke_pending (n : Nat) (f : RevokeEntry → RevokeEntry) : (s.updRevoke n f).pending = s.pending := rfl
@[simp] theorem State.updRevoke_dict (n : Nat) (f : RevokeEntry → RevokeEntry) : (s.updRevoke n f).dict = s.dict := rfl
@[simp] theorem State.updRevoke_links (n : Nat) (f : RevokeEntry → RevokeEntry) : (s.updRevoke n f).links = s.links := rfl
@[simp] theorem State.updRevoke_stalls (n : Nat) (f : RevokeEntry → RevokeEntry) : (s.updRevoke n f).stalls = s.stalls := rfl
@[simp] theorem State.updRevoke_shapers (n : Nat) (f : RevokeEntry → RevokeEntry) : (s.updRevoke n f).shapers = s.shapers := rfl
@[simp] theorem State.updRevoke_slices (n : Nat) (f : RevokeEntry → RevokeEntry) : (s.updRevoke n f).slices = s.slices := rfl
@[simp] theorem State.updRevoke_chans (n : Nat) (f : RevokeEntry → RevokeEntry) : (s.updRevoke n f).chans = s.chans := rfl
@[simp] theorem State.updRevoke_snoops (n : Nat) (f : RevokeEntry → RevokeEntry) : (s.updRevoke n f).snoops = s.snoops := rfl
@[simp] theorem State.updRevoke_nextTag (n : Nat) (f : RevokeEntry → RevokeEntry) : (s.updRevoke n f).nextTag = s.nextTag := rfl
@[simp] theorem State.updRevoke_barrows (n : Nat) (f : RevokeEntry → RevokeEntry) : (s.updRevoke n f).barrows = s.barrows := rfl
@[simp] theorem State.updRevoke_seeds (n : Nat) (f : RevokeEntry → RevokeEntry) : (s.updRevoke n f).seeds = s.seeds := rfl
@[simp] theorem State.updRevoke_trees (n : Nat) (f : RevokeEntry → RevokeEntry) : (s.updRevoke n f).trees = s.trees := rfl
@[simp] theorem State.updRevoke_pushes (n : Nat) (f : RevokeEntry → RevokeEntry) : (s.updRevoke n f).pushes = s.pushes := rfl
@[simp] theorem State.updRevoke_time (n : Nat) (f : RevokeEntry → RevokeEntry) : (s.updRevoke n f).time = s.time := rfl
@[simp] theorem State.updRevoke_gates (n : Nat) (f : RevokeEntry → RevokeEntry) : (s.updRevoke n f).gates = s.gates := rfl
@[simp] theorem State.updRevoke_xbar (n : Nat) (f : RevokeEntry → RevokeEntry) : (s.updRevoke n f).xbar = s.xbar := rfl
@[simp] theorem State.updRevoke_checker (n : Nat) (f : RevokeEntry → RevokeEntry) : (s.updRevoke n f).checker = s.checker := rfl
@[simp] theorem State.updRevoke_pair (n : Nat) (f : RevokeEntry → RevokeEntry) : (s.updRevoke n f).pair = s.pair := rfl
@[simp] theorem State.updRevoke_repair (n : Nat) (f : RevokeEntry → RevokeEntry) : (s.updRevoke n f).repair = s.repair := rfl
@[simp] theorem State.updRevoke_sec (n : Nat) (f : RevokeEntry → RevokeEntry) : (s.updRevoke n f).sec = s.sec := rfl
@[simp] theorem State.updRevoke_mgmt (n : Nat) (f : RevokeEntry → RevokeEntry) : (s.updRevoke n f).mgmt = s.mgmt := rfl
@[simp] theorem State.updRevoke_obs (n : Nat) (f : RevokeEntry → RevokeEntry) : (s.updRevoke n f).obs = s.obs := rfl
@[simp] theorem State.updRevoke_power (n : Nat) (f : RevokeEntry → RevokeEntry) : (s.updRevoke n f).power = s.power := rfl
@[simp] theorem State.updRevoke_clock (n : Nat) (f : RevokeEntry → RevokeEntry) : (s.updRevoke n f).clock = s.clock := rfl
@[simp] theorem State.updRevoke_boot (n : Nat) (f : RevokeEntry → RevokeEntry) : (s.updRevoke n f).boot = s.boot := rfl
@[simp] theorem State.updRevoke_orphanRun (n : Nat) (f : RevokeEntry → RevokeEntry) : (s.updRevoke n f).orphanRun = s.orphanRun := rfl
@[simp] theorem State.updRevoke_free (n : Nat) (f : RevokeEntry → RevokeEntry) : (s.updRevoke n f).free = s.free := rfl
@[simp] theorem State.updRevoke_at_link (n : Nat) (f : RevokeEntry → RevokeEntry) (j : Nat) : (s.updRevoke n f).link j = s.link j := rfl
@[simp] theorem State.updRevoke_at_stall (n : Nat) (f : RevokeEntry → RevokeEntry) (j : Nat) : (s.updRevoke n f).stall j = s.stall j := rfl
@[simp] theorem State.updRevoke_at_slice (n : Nat) (f : RevokeEntry → RevokeEntry) (j : Nat) : (s.updRevoke n f).slice j = s.slice j := rfl
@[simp] theorem State.updRevoke_at_chan (n : Nat) (f : RevokeEntry → RevokeEntry) (j : Nat) : (s.updRevoke n f).chan j = s.chan j := rfl
@[simp] theorem State.updRevoke_at_barrow (n : Nat) (f : RevokeEntry → RevokeEntry) (j : Nat) : (s.updRevoke n f).barrow j = s.barrow j := rfl
@[simp] theorem State.updRevoke_at_tree (n : Nat) (f : RevokeEntry → RevokeEntry) (j : Nat) : (s.updRevoke n f).tree j = s.tree j := rfl
@[simp] theorem State.updRevoke_at_key (n : Nat) (f : RevokeEntry → RevokeEntry) (j : Nat) : (s.updRevoke n f).key j = s.key j := rfl
@[simp] theorem State.updRevoke_at_tenant (n : Nat) (f : RevokeEntry → RevokeEntry) (j : Nat) : (s.updRevoke n f).tenant j = s.tenant j := rfl
@[simp] theorem State.updRevoke_at_shaper (n : Nat) (f : RevokeEntry → RevokeEntry) (j : Nat) : (s.updRevoke n f).shaper j = s.shaper j := rfl
@[simp] theorem State.updRevoke_at_profile (n : Nat) (f : RevokeEntry → RevokeEntry) (j : Nat) : (s.updRevoke n f).profile j = s.profile j := rfl
@[simp] theorem State.updRevoke_tallyOf (n : Nat) (f : RevokeEntry → RevokeEntry) (g : Group) (i' r' : Nat) : (s.updRevoke n f).tallyOf g i' r' = s.tallyOf g i' r' := rfl
@[simp] theorem State.updRevoke_at_reg (n : Nat) (f : RevokeEntry → RevokeEntry) (j : Nat) : (s.updRevoke n f).reg j = s.reg j := rfl

@[simp] theorem State.updShaper_pending (n : Nat) (f : Shaper → Shaper) : (s.updShaper n f).pending = s.pending := rfl
@[simp] theorem State.updShaper_dict (n : Nat) (f : Shaper → Shaper) : (s.updShaper n f).dict = s.dict := rfl
@[simp] theorem State.updShaper_links (n : Nat) (f : Shaper → Shaper) : (s.updShaper n f).links = s.links := rfl
@[simp] theorem State.updShaper_stalls (n : Nat) (f : Shaper → Shaper) : (s.updShaper n f).stalls = s.stalls := rfl
@[simp] theorem State.updShaper_pitch (n : Nat) (f : Shaper → Shaper) : (s.updShaper n f).pitch = s.pitch := rfl
@[simp] theorem State.updShaper_slices (n : Nat) (f : Shaper → Shaper) : (s.updShaper n f).slices = s.slices := rfl
@[simp] theorem State.updShaper_chans (n : Nat) (f : Shaper → Shaper) : (s.updShaper n f).chans = s.chans := rfl
@[simp] theorem State.updShaper_snoops (n : Nat) (f : Shaper → Shaper) : (s.updShaper n f).snoops = s.snoops := rfl
@[simp] theorem State.updShaper_nextTag (n : Nat) (f : Shaper → Shaper) : (s.updShaper n f).nextTag = s.nextTag := rfl
@[simp] theorem State.updShaper_barrows (n : Nat) (f : Shaper → Shaper) : (s.updShaper n f).barrows = s.barrows := rfl
@[simp] theorem State.updShaper_seeds (n : Nat) (f : Shaper → Shaper) : (s.updShaper n f).seeds = s.seeds := rfl
@[simp] theorem State.updShaper_trees (n : Nat) (f : Shaper → Shaper) : (s.updShaper n f).trees = s.trees := rfl
@[simp] theorem State.updShaper_pushes (n : Nat) (f : Shaper → Shaper) : (s.updShaper n f).pushes = s.pushes := rfl
@[simp] theorem State.updShaper_time (n : Nat) (f : Shaper → Shaper) : (s.updShaper n f).time = s.time := rfl
@[simp] theorem State.updShaper_gates (n : Nat) (f : Shaper → Shaper) : (s.updShaper n f).gates = s.gates := rfl
@[simp] theorem State.updShaper_xbar (n : Nat) (f : Shaper → Shaper) : (s.updShaper n f).xbar = s.xbar := rfl
@[simp] theorem State.updShaper_checker (n : Nat) (f : Shaper → Shaper) : (s.updShaper n f).checker = s.checker := rfl
@[simp] theorem State.updShaper_pair (n : Nat) (f : Shaper → Shaper) : (s.updShaper n f).pair = s.pair := rfl
@[simp] theorem State.updShaper_repair (n : Nat) (f : Shaper → Shaper) : (s.updShaper n f).repair = s.repair := rfl
@[simp] theorem State.updShaper_sec (n : Nat) (f : Shaper → Shaper) : (s.updShaper n f).sec = s.sec := rfl
@[simp] theorem State.updShaper_mgmt (n : Nat) (f : Shaper → Shaper) : (s.updShaper n f).mgmt = s.mgmt := rfl
@[simp] theorem State.updShaper_obs (n : Nat) (f : Shaper → Shaper) : (s.updShaper n f).obs = s.obs := rfl
@[simp] theorem State.updShaper_power (n : Nat) (f : Shaper → Shaper) : (s.updShaper n f).power = s.power := rfl
@[simp] theorem State.updShaper_clock (n : Nat) (f : Shaper → Shaper) : (s.updShaper n f).clock = s.clock := rfl
@[simp] theorem State.updShaper_boot (n : Nat) (f : Shaper → Shaper) : (s.updShaper n f).boot = s.boot := rfl
@[simp] theorem State.updShaper_orphanRun (n : Nat) (f : Shaper → Shaper) : (s.updShaper n f).orphanRun = s.orphanRun := rfl
@[simp] theorem State.updShaper_free (n : Nat) (f : Shaper → Shaper) : (s.updShaper n f).free = s.free := rfl
@[simp] theorem State.updShaper_at_link (n : Nat) (f : Shaper → Shaper) (j : Nat) : (s.updShaper n f).link j = s.link j := rfl
@[simp] theorem State.updShaper_at_stall (n : Nat) (f : Shaper → Shaper) (j : Nat) : (s.updShaper n f).stall j = s.stall j := rfl
@[simp] theorem State.updShaper_at_slice (n : Nat) (f : Shaper → Shaper) (j : Nat) : (s.updShaper n f).slice j = s.slice j := rfl
@[simp] theorem State.updShaper_at_chan (n : Nat) (f : Shaper → Shaper) (j : Nat) : (s.updShaper n f).chan j = s.chan j := rfl
@[simp] theorem State.updShaper_at_barrow (n : Nat) (f : Shaper → Shaper) (j : Nat) : (s.updShaper n f).barrow j = s.barrow j := rfl
@[simp] theorem State.updShaper_at_tree (n : Nat) (f : Shaper → Shaper) (j : Nat) : (s.updShaper n f).tree j = s.tree j := rfl
@[simp] theorem State.updShaper_at_key (n : Nat) (f : Shaper → Shaper) (j : Nat) : (s.updShaper n f).key j = s.key j := rfl
@[simp] theorem State.updShaper_at_tenant (n : Nat) (f : Shaper → Shaper) (j : Nat) : (s.updShaper n f).tenant j = s.tenant j := rfl
@[simp] theorem State.updShaper_at_granule (n : Nat) (f : Shaper → Shaper) (j : Nat) : (s.updShaper n f).granule j = s.granule j := rfl
@[simp] theorem State.updShaper_at_revoke (n : Nat) (f : Shaper → Shaper) (j : Nat) : (s.updShaper n f).revoke j = s.revoke j := rfl
@[simp] theorem State.updShaper_at_profile (n : Nat) (f : Shaper → Shaper) (j : Nat) : (s.updShaper n f).profile j = s.profile j := rfl
@[simp] theorem State.updShaper_tallyOf (n : Nat) (f : Shaper → Shaper) (g : Group) (i' r' : Nat) : (s.updShaper n f).tallyOf g i' r' = s.tallyOf g i' r' := rfl
@[simp] theorem State.updShaper_at_reg (n : Nat) (f : Shaper → Shaper) (j : Nat) : (s.updShaper n f).reg j = s.reg j := rfl

@[simp] theorem State.updProfile_pending (n : Nat) (f : Profile → Profile) : (s.updProfile n f).pending = s.pending := rfl
@[simp] theorem State.updProfile_dict (n : Nat) (f : Profile → Profile) : (s.updProfile n f).dict = s.dict := rfl
@[simp] theorem State.updProfile_links (n : Nat) (f : Profile → Profile) : (s.updProfile n f).links = s.links := rfl
@[simp] theorem State.updProfile_stalls (n : Nat) (f : Profile → Profile) : (s.updProfile n f).stalls = s.stalls := rfl
@[simp] theorem State.updProfile_shapers (n : Nat) (f : Profile → Profile) : (s.updProfile n f).shapers = s.shapers := rfl
@[simp] theorem State.updProfile_pitch (n : Nat) (f : Profile → Profile) : (s.updProfile n f).pitch = s.pitch := rfl
@[simp] theorem State.updProfile_slices (n : Nat) (f : Profile → Profile) : (s.updProfile n f).slices = s.slices := rfl
@[simp] theorem State.updProfile_chans (n : Nat) (f : Profile → Profile) : (s.updProfile n f).chans = s.chans := rfl
@[simp] theorem State.updProfile_snoops (n : Nat) (f : Profile → Profile) : (s.updProfile n f).snoops = s.snoops := rfl
@[simp] theorem State.updProfile_nextTag (n : Nat) (f : Profile → Profile) : (s.updProfile n f).nextTag = s.nextTag := rfl
@[simp] theorem State.updProfile_barrows (n : Nat) (f : Profile → Profile) : (s.updProfile n f).barrows = s.barrows := rfl
@[simp] theorem State.updProfile_seeds (n : Nat) (f : Profile → Profile) : (s.updProfile n f).seeds = s.seeds := rfl
@[simp] theorem State.updProfile_trees (n : Nat) (f : Profile → Profile) : (s.updProfile n f).trees = s.trees := rfl
@[simp] theorem State.updProfile_pushes (n : Nat) (f : Profile → Profile) : (s.updProfile n f).pushes = s.pushes := rfl
@[simp] theorem State.updProfile_time (n : Nat) (f : Profile → Profile) : (s.updProfile n f).time = s.time := rfl
@[simp] theorem State.updProfile_gates (n : Nat) (f : Profile → Profile) : (s.updProfile n f).gates = s.gates := rfl
@[simp] theorem State.updProfile_xbar (n : Nat) (f : Profile → Profile) : (s.updProfile n f).xbar = s.xbar := rfl
@[simp] theorem State.updProfile_checker (n : Nat) (f : Profile → Profile) : (s.updProfile n f).checker = s.checker := rfl
@[simp] theorem State.updProfile_pair (n : Nat) (f : Profile → Profile) : (s.updProfile n f).pair = s.pair := rfl
@[simp] theorem State.updProfile_repair (n : Nat) (f : Profile → Profile) : (s.updProfile n f).repair = s.repair := rfl
@[simp] theorem State.updProfile_sec (n : Nat) (f : Profile → Profile) : (s.updProfile n f).sec = s.sec := rfl
@[simp] theorem State.updProfile_obs (n : Nat) (f : Profile → Profile) : (s.updProfile n f).obs = s.obs := rfl
@[simp] theorem State.updProfile_power (n : Nat) (f : Profile → Profile) : (s.updProfile n f).power = s.power := rfl
@[simp] theorem State.updProfile_clock (n : Nat) (f : Profile → Profile) : (s.updProfile n f).clock = s.clock := rfl
@[simp] theorem State.updProfile_boot (n : Nat) (f : Profile → Profile) : (s.updProfile n f).boot = s.boot := rfl
@[simp] theorem State.updProfile_orphanRun (n : Nat) (f : Profile → Profile) : (s.updProfile n f).orphanRun = s.orphanRun := rfl
@[simp] theorem State.updProfile_free (n : Nat) (f : Profile → Profile) : (s.updProfile n f).free = s.free := rfl
@[simp] theorem State.updProfile_at_link (n : Nat) (f : Profile → Profile) (j : Nat) : (s.updProfile n f).link j = s.link j := rfl
@[simp] theorem State.updProfile_at_stall (n : Nat) (f : Profile → Profile) (j : Nat) : (s.updProfile n f).stall j = s.stall j := rfl
@[simp] theorem State.updProfile_at_slice (n : Nat) (f : Profile → Profile) (j : Nat) : (s.updProfile n f).slice j = s.slice j := rfl
@[simp] theorem State.updProfile_at_chan (n : Nat) (f : Profile → Profile) (j : Nat) : (s.updProfile n f).chan j = s.chan j := rfl
@[simp] theorem State.updProfile_at_barrow (n : Nat) (f : Profile → Profile) (j : Nat) : (s.updProfile n f).barrow j = s.barrow j := rfl
@[simp] theorem State.updProfile_at_tree (n : Nat) (f : Profile → Profile) (j : Nat) : (s.updProfile n f).tree j = s.tree j := rfl
@[simp] theorem State.updProfile_at_key (n : Nat) (f : Profile → Profile) (j : Nat) : (s.updProfile n f).key j = s.key j := rfl
@[simp] theorem State.updProfile_at_tenant (n : Nat) (f : Profile → Profile) (j : Nat) : (s.updProfile n f).tenant j = s.tenant j := rfl
@[simp] theorem State.updProfile_at_granule (n : Nat) (f : Profile → Profile) (j : Nat) : (s.updProfile n f).granule j = s.granule j := rfl
@[simp] theorem State.updProfile_at_revoke (n : Nat) (f : Profile → Profile) (j : Nat) : (s.updProfile n f).revoke j = s.revoke j := rfl
@[simp] theorem State.updProfile_at_shaper (n : Nat) (f : Profile → Profile) (j : Nat) : (s.updProfile n f).shaper j = s.shaper j := rfl
@[simp] theorem State.updProfile_tallyOf (n : Nat) (f : Profile → Profile) (g : Group) (i' r' : Nat) : (s.updProfile n f).tallyOf g i' r' = s.tallyOf g i' r' := rfl
@[simp] theorem State.updProfile_at_reg (n : Nat) (f : Profile → Profile) (j : Nat) : (s.updProfile n f).reg j = s.reg j := rfl

@[simp] theorem State.setReg_pending (n v : Nat) : (s.setReg n v).pending = s.pending := rfl
@[simp] theorem State.setReg_links (n v : Nat) : (s.setReg n v).links = s.links := rfl
@[simp] theorem State.setReg_stalls (n v : Nat) : (s.setReg n v).stalls = s.stalls := rfl
@[simp] theorem State.setReg_shapers (n v : Nat) : (s.setReg n v).shapers = s.shapers := rfl
@[simp] theorem State.setReg_pitch (n v : Nat) : (s.setReg n v).pitch = s.pitch := rfl
@[simp] theorem State.setReg_slices (n v : Nat) : (s.setReg n v).slices = s.slices := rfl
@[simp] theorem State.setReg_chans (n v : Nat) : (s.setReg n v).chans = s.chans := rfl
@[simp] theorem State.setReg_snoops (n v : Nat) : (s.setReg n v).snoops = s.snoops := rfl
@[simp] theorem State.setReg_nextTag (n v : Nat) : (s.setReg n v).nextTag = s.nextTag := rfl
@[simp] theorem State.setReg_barrows (n v : Nat) : (s.setReg n v).barrows = s.barrows := rfl
@[simp] theorem State.setReg_seeds (n v : Nat) : (s.setReg n v).seeds = s.seeds := rfl
@[simp] theorem State.setReg_trees (n v : Nat) : (s.setReg n v).trees = s.trees := rfl
@[simp] theorem State.setReg_pushes (n v : Nat) : (s.setReg n v).pushes = s.pushes := rfl
@[simp] theorem State.setReg_time (n v : Nat) : (s.setReg n v).time = s.time := rfl
@[simp] theorem State.setReg_gates (n v : Nat) : (s.setReg n v).gates = s.gates := rfl
@[simp] theorem State.setReg_xbar (n v : Nat) : (s.setReg n v).xbar = s.xbar := rfl
@[simp] theorem State.setReg_checker (n v : Nat) : (s.setReg n v).checker = s.checker := rfl
@[simp] theorem State.setReg_pair (n v : Nat) : (s.setReg n v).pair = s.pair := rfl
@[simp] theorem State.setReg_repair (n v : Nat) : (s.setReg n v).repair = s.repair := rfl
@[simp] theorem State.setReg_sec (n v : Nat) : (s.setReg n v).sec = s.sec := rfl
@[simp] theorem State.setReg_mgmt (n v : Nat) : (s.setReg n v).mgmt = s.mgmt := rfl
@[simp] theorem State.setReg_obs (n v : Nat) : (s.setReg n v).obs = s.obs := rfl
@[simp] theorem State.setReg_power (n v : Nat) : (s.setReg n v).power = s.power := rfl
@[simp] theorem State.setReg_clock (n v : Nat) : (s.setReg n v).clock = s.clock := rfl
@[simp] theorem State.setReg_boot (n v : Nat) : (s.setReg n v).boot = s.boot := rfl
@[simp] theorem State.setReg_orphanRun (n v : Nat) : (s.setReg n v).orphanRun = s.orphanRun := rfl
@[simp] theorem State.setReg_free (n v : Nat) : (s.setReg n v).free = s.free := rfl
@[simp] theorem State.setReg_at_link (n v : Nat) (j : Nat) : (s.setReg n v).link j = s.link j := rfl
@[simp] theorem State.setReg_at_stall (n v : Nat) (j : Nat) : (s.setReg n v).stall j = s.stall j := rfl
@[simp] theorem State.setReg_at_slice (n v : Nat) (j : Nat) : (s.setReg n v).slice j = s.slice j := rfl
@[simp] theorem State.setReg_at_chan (n v : Nat) (j : Nat) : (s.setReg n v).chan j = s.chan j := rfl
@[simp] theorem State.setReg_at_barrow (n v : Nat) (j : Nat) : (s.setReg n v).barrow j = s.barrow j := rfl
@[simp] theorem State.setReg_at_tree (n v : Nat) (j : Nat) : (s.setReg n v).tree j = s.tree j := rfl
@[simp] theorem State.setReg_at_key (n v : Nat) (j : Nat) : (s.setReg n v).key j = s.key j := rfl
@[simp] theorem State.setReg_at_tenant (n v : Nat) (j : Nat) : (s.setReg n v).tenant j = s.tenant j := rfl
@[simp] theorem State.setReg_at_granule (n v : Nat) (j : Nat) : (s.setReg n v).granule j = s.granule j := rfl
@[simp] theorem State.setReg_at_revoke (n v : Nat) (j : Nat) : (s.setReg n v).revoke j = s.revoke j := rfl
@[simp] theorem State.setReg_at_shaper (n v : Nat) (j : Nat) : (s.setReg n v).shaper j = s.shaper j := rfl
@[simp] theorem State.setReg_at_profile (n v : Nat) (j : Nat) : (s.setReg n v).profile j = s.profile j := rfl
@[simp] theorem State.setReg_tallyOf (n v : Nat) (g : Group) (i' r' : Nat) : (s.setReg n v).tallyOf g i' r' = s.tallyOf g i' r' := rfl

@[simp] theorem State.count_pending (g : Group) (i r n : Nat) : (s.count g i r n).pending = s.pending := rfl
@[simp] theorem State.count_dict (g : Group) (i r n : Nat) : (s.count g i r n).dict = s.dict := rfl
@[simp] theorem State.count_links (g : Group) (i r n : Nat) : (s.count g i r n).links = s.links := rfl
@[simp] theorem State.count_stalls (g : Group) (i r n : Nat) : (s.count g i r n).stalls = s.stalls := rfl
@[simp] theorem State.count_shapers (g : Group) (i r n : Nat) : (s.count g i r n).shapers = s.shapers := rfl
@[simp] theorem State.count_pitch (g : Group) (i r n : Nat) : (s.count g i r n).pitch = s.pitch := rfl
@[simp] theorem State.count_slices (g : Group) (i r n : Nat) : (s.count g i r n).slices = s.slices := rfl
@[simp] theorem State.count_chans (g : Group) (i r n : Nat) : (s.count g i r n).chans = s.chans := rfl
@[simp] theorem State.count_snoops (g : Group) (i r n : Nat) : (s.count g i r n).snoops = s.snoops := rfl
@[simp] theorem State.count_nextTag (g : Group) (i r n : Nat) : (s.count g i r n).nextTag = s.nextTag := rfl
@[simp] theorem State.count_barrows (g : Group) (i r n : Nat) : (s.count g i r n).barrows = s.barrows := rfl
@[simp] theorem State.count_seeds (g : Group) (i r n : Nat) : (s.count g i r n).seeds = s.seeds := rfl
@[simp] theorem State.count_trees (g : Group) (i r n : Nat) : (s.count g i r n).trees = s.trees := rfl
@[simp] theorem State.count_pushes (g : Group) (i r n : Nat) : (s.count g i r n).pushes = s.pushes := rfl
@[simp] theorem State.count_time (g : Group) (i r n : Nat) : (s.count g i r n).time = s.time := rfl
@[simp] theorem State.count_gates (g : Group) (i r n : Nat) : (s.count g i r n).gates = s.gates := rfl
@[simp] theorem State.count_xbar (g : Group) (i r n : Nat) : (s.count g i r n).xbar = s.xbar := rfl
@[simp] theorem State.count_checker (g : Group) (i r n : Nat) : (s.count g i r n).checker = s.checker := rfl
@[simp] theorem State.count_pair (g : Group) (i r n : Nat) : (s.count g i r n).pair = s.pair := rfl
@[simp] theorem State.count_repair (g : Group) (i r n : Nat) : (s.count g i r n).repair = s.repair := rfl
@[simp] theorem State.count_sec (g : Group) (i r n : Nat) : (s.count g i r n).sec = s.sec := rfl
@[simp] theorem State.count_mgmt (g : Group) (i r n : Nat) : (s.count g i r n).mgmt = s.mgmt := rfl
@[simp] theorem State.count_power (g : Group) (i r n : Nat) : (s.count g i r n).power = s.power := rfl
@[simp] theorem State.count_clock (g : Group) (i r n : Nat) : (s.count g i r n).clock = s.clock := rfl
@[simp] theorem State.count_boot (g : Group) (i r n : Nat) : (s.count g i r n).boot = s.boot := rfl
@[simp] theorem State.count_orphanRun (g : Group) (i r n : Nat) : (s.count g i r n).orphanRun = s.orphanRun := rfl
@[simp] theorem State.count_free (g : Group) (i r n : Nat) : (s.count g i r n).free = s.free := rfl
@[simp] theorem State.count_at_link (g : Group) (i r n : Nat) (j : Nat) : (s.count g i r n).link j = s.link j := rfl
@[simp] theorem State.count_at_stall (g : Group) (i r n : Nat) (j : Nat) : (s.count g i r n).stall j = s.stall j := rfl
@[simp] theorem State.count_at_slice (g : Group) (i r n : Nat) (j : Nat) : (s.count g i r n).slice j = s.slice j := rfl
@[simp] theorem State.count_at_chan (g : Group) (i r n : Nat) (j : Nat) : (s.count g i r n).chan j = s.chan j := rfl
@[simp] theorem State.count_at_barrow (g : Group) (i r n : Nat) (j : Nat) : (s.count g i r n).barrow j = s.barrow j := rfl
@[simp] theorem State.count_at_tree (g : Group) (i r n : Nat) (j : Nat) : (s.count g i r n).tree j = s.tree j := rfl
@[simp] theorem State.count_at_key (g : Group) (i r n : Nat) (j : Nat) : (s.count g i r n).key j = s.key j := rfl
@[simp] theorem State.count_at_tenant (g : Group) (i r n : Nat) (j : Nat) : (s.count g i r n).tenant j = s.tenant j := rfl
@[simp] theorem State.count_at_granule (g : Group) (i r n : Nat) (j : Nat) : (s.count g i r n).granule j = s.granule j := rfl
@[simp] theorem State.count_at_revoke (g : Group) (i r n : Nat) (j : Nat) : (s.count g i r n).revoke j = s.revoke j := rfl
@[simp] theorem State.count_at_shaper (g : Group) (i r n : Nat) (j : Nat) : (s.count g i r n).shaper j = s.shaper j := rfl
@[simp] theorem State.count_at_profile (g : Group) (i r n : Nat) (j : Nat) : (s.count g i r n).profile j = s.profile j := rfl
@[simp] theorem State.count_at_reg (g : Group) (i r n : Nat) (j : Nat) : (s.count g i r n).reg j = s.reg j := rfl

@[simp] theorem State.takeFresh_pending : (s.takeFresh).pending = s.pending := rfl
@[simp] theorem State.takeFresh_dict : (s.takeFresh).dict = s.dict := rfl
@[simp] theorem State.takeFresh_links : (s.takeFresh).links = s.links := rfl
@[simp] theorem State.takeFresh_stalls : (s.takeFresh).stalls = s.stalls := rfl
@[simp] theorem State.takeFresh_shapers : (s.takeFresh).shapers = s.shapers := rfl
@[simp] theorem State.takeFresh_pitch : (s.takeFresh).pitch = s.pitch := rfl
@[simp] theorem State.takeFresh_slices : (s.takeFresh).slices = s.slices := rfl
@[simp] theorem State.takeFresh_chans : (s.takeFresh).chans = s.chans := rfl
@[simp] theorem State.takeFresh_snoops : (s.takeFresh).snoops = s.snoops := rfl
@[simp] theorem State.takeFresh_nextTag : (s.takeFresh).nextTag = s.nextTag := rfl
@[simp] theorem State.takeFresh_barrows : (s.takeFresh).barrows = s.barrows := rfl
@[simp] theorem State.takeFresh_seeds : (s.takeFresh).seeds = s.seeds := rfl
@[simp] theorem State.takeFresh_trees : (s.takeFresh).trees = s.trees := rfl
@[simp] theorem State.takeFresh_pushes : (s.takeFresh).pushes = s.pushes := rfl
@[simp] theorem State.takeFresh_time : (s.takeFresh).time = s.time := rfl
@[simp] theorem State.takeFresh_gates : (s.takeFresh).gates = s.gates := rfl
@[simp] theorem State.takeFresh_xbar : (s.takeFresh).xbar = s.xbar := rfl
@[simp] theorem State.takeFresh_checker : (s.takeFresh).checker = s.checker := rfl
@[simp] theorem State.takeFresh_pair : (s.takeFresh).pair = s.pair := rfl
@[simp] theorem State.takeFresh_repair : (s.takeFresh).repair = s.repair := rfl
@[simp] theorem State.takeFresh_sec : (s.takeFresh).sec = s.sec := rfl
@[simp] theorem State.takeFresh_mgmt : (s.takeFresh).mgmt = s.mgmt := rfl
@[simp] theorem State.takeFresh_obs : (s.takeFresh).obs = s.obs := rfl
@[simp] theorem State.takeFresh_power : (s.takeFresh).power = s.power := rfl
@[simp] theorem State.takeFresh_clock : (s.takeFresh).clock = s.clock := rfl
@[simp] theorem State.takeFresh_boot : (s.takeFresh).boot = s.boot := rfl
@[simp] theorem State.takeFresh_orphanRun : (s.takeFresh).orphanRun = s.orphanRun := rfl
@[simp] theorem State.takeFresh_at_link (j : Nat) : (s.takeFresh).link j = s.link j := rfl
@[simp] theorem State.takeFresh_at_stall (j : Nat) : (s.takeFresh).stall j = s.stall j := rfl
@[simp] theorem State.takeFresh_at_slice (j : Nat) : (s.takeFresh).slice j = s.slice j := rfl
@[simp] theorem State.takeFresh_at_chan (j : Nat) : (s.takeFresh).chan j = s.chan j := rfl
@[simp] theorem State.takeFresh_at_barrow (j : Nat) : (s.takeFresh).barrow j = s.barrow j := rfl
@[simp] theorem State.takeFresh_at_tree (j : Nat) : (s.takeFresh).tree j = s.tree j := rfl
@[simp] theorem State.takeFresh_at_key (j : Nat) : (s.takeFresh).key j = s.key j := rfl
@[simp] theorem State.takeFresh_at_tenant (j : Nat) : (s.takeFresh).tenant j = s.tenant j := rfl
@[simp] theorem State.takeFresh_at_granule (j : Nat) : (s.takeFresh).granule j = s.granule j := rfl
@[simp] theorem State.takeFresh_at_revoke (j : Nat) : (s.takeFresh).revoke j = s.revoke j := rfl
@[simp] theorem State.takeFresh_at_shaper (j : Nat) : (s.takeFresh).shaper j = s.shaper j := rfl
@[simp] theorem State.takeFresh_at_profile (j : Nat) : (s.takeFresh).profile j = s.profile j := rfl
@[simp] theorem State.takeFresh_tallyOf (g : Group) (i' r' : Nat) : (s.takeFresh).tallyOf g i' r' = s.tallyOf g i' r' := rfl
@[simp] theorem State.takeFresh_at_reg (j : Nat) : (s.takeFresh).reg j = s.reg j := rfl

end Sys2Proof.Machine
end

