-- ==== Sys2Proof/Laws/Links.lean ====
section
/-! SUPPORT. The link layer: what an acknowledgement and the fields of every control block do, what sending leaves alone. -/

namespace Sys2Proof.Machine

theorem LinkSt.isUp_iff {l : LinkSt} : l.isUp = true ↔ l.phase = .up := by simp [LinkSt.isUp]

/-! ### Acknowledgement -/

@[simp] theorem State.forget_at_link (s : State) (l : List TxPkt) (j : Nat) : (s.forget l).link j = s.link j := by
  have h := (State.forget_keeps (M := 64) (a1 := l) rfl (Keeps.refl 64 s)).1 .links rfl
  exact congrArg (fun x => Tbl.get x ({} : LinkSt) j) h

@[simp] theorem State.applyAck_at_link (s : State) (n : Nat) (a : BitVec 16) :
    (s.applyAck n a).link n = (s.link n).ackd a := by
  unfold State.applyAck
  simp

theorem State.applyAck_other (s : State) (n : Nat) (a : BitVec 16) {j : Nat} (h : j ≠ n) :
    (s.applyAck n a).link j = s.link j := by
  unfold State.applyAck
  simp [State.link_updLink_other _ _ h]

/-- What an acknowledgement leaves in the replay buffer (R32). -/
theorem LinkSt.ackd_unacked (l : LinkSt) (a : BitVec 16) :
    (l.ackd a).unacked =
      (let k := (a - (l.txSeq - BitVec.ofNat 16 l.unacked.length)).toNat
       if 1 ≤ k ∧ k ≤ l.unacked.length then l.unacked.drop k else l.unacked) := by
  unfold LinkSt.ackd LinkSt.released
  dsimp only
  split_ifs <;> simp_all

@[simp] theorem LinkSt.ackd_txSeq (l : LinkSt) (a : BitVec 16) : (l.ackd a).txSeq = l.txSeq := by
  unfold LinkSt.ackd
  dsimp only
  split <;> rfl

/-! ### Control blocks -/

/-- What every control block does before its type acts: its ACK on a link that is up, and sync by its RESYNC_OFFSET. -/
def State.heard (s : State) (n : Nat) (c : Ctl) : State :=
  let s1 := if (s.link n).isUp then s.applyAck n c.ack else s
  if c.resync ≠ 0xFFFF then s1.updLink n fun l => { l with inSync := true } else s1

theorem State.control_heard {s : State} {n : Nat} {ct : BitVec 8} {c : Ctl} (f : State → State) (hn : n < 48)
    (hc : ctlOk ct c = true) (hd : (s.link n).phase ≠ .disabled) : s.control n ct c f = f (s.heard n c) := by
  unfold State.control
  rw [if_pos ⟨hn, hc, hd⟩]
  rfl

theorem State.heard_other (s : State) {n j : Nat} (c : Ctl) (h : j ≠ n) : (s.heard n c).link j = s.link j := by
  unfold State.heard
  dsimp only
  split_ifs <;> simp [State.link_updLink_other _ _ h, State.applyAck_other _ _ _ h]

theorem State.heard_face (s : State) (n : Nat) (c : Ctl) :
    ((s.heard n c).link n).face = { (s.link n).face with inSync := (s.link n).inSync || c.resync != 0xFFFF } := by
  have f0 : ((if (s.link n).isUp = true then s.applyAck n c.ack else s).link n).face = (s.link n).face := by
    split
    · rw [State.applyAck_at_link, LinkSt.face_ackd]
    · rfl
  unfold State.heard
  dsimp only
  by_cases h : c.resync = 0xFFFF
  · rw [if_neg (not_not.2 h), f0]
    have e : ((s.link n).inSync || c.resync != 0xFFFF) = (s.link n).face.inSync := by
      simp only [h, bne_self_eq_false, Bool.or_false]
      rfl
    rw [e]
  · rw [if_pos h, State.link_updLink]
    have e : ((s.link n).inSync || c.resync != 0xFFFF) = true := by rw [bne_iff_ne.2 h, Bool.or_true]
    rw [e, ← f0]
    rfl

/-- A field of a link that sending, an acknowledgement and sync do not touch is the same after a control block is heard. -/
theorem State.heard_field (s : State) (n : Nat) (c : Ctl) {β : Type} (g : LinkSt → β)
    (hg : ∀ (l : LinkSt) (b : Bool), g ({ l.face with inSync := b } : LinkSt) = g l) :
    g ((s.heard n c).link n) = g (s.link n) := by
  have h := s.heard_face n c
  have a := hg ((s.heard n c).link n) ((s.heard n c).link n).inSync
  rw [← a]
  have e : ({ ((s.heard n c).link n).face with inSync := ((s.heard n c).link n).inSync } : LinkSt)
      = ((s.heard n c).link n).face := rfl
  rw [e, h]
  exact hg _ _

theorem State.heard_inSync (s : State) (n : Nat) (c : Ctl) :
    ((s.heard n c).link n).inSync = ((s.link n).inSync || c.resync != 0xFFFF) :=
  congrArg LinkSt.inSync (s.heard_face n c)

theorem State.heard_keeps (s : State) (n : Nat) (c : Ctl) : Keeps 268435524 s (s.heard n c) := by
  unfold State.heard
  dsimp only
  have k : Keeps 268435524 s (if (s.link n).isUp = true then s.applyAck n c.ack else s) := by
    split
    · exact State.applyAck_keeps rfl (Keeps.refl _ s)
    · exact Keeps.refl _ s
  split
  · exact State.updLink_keeps rfl (Or.inl rfl) k
  · exact k

section
variable (s : State) (n : Nat) (c : Ctl)

@[simp] theorem State.heard_phase : ((s.heard n c).link n).phase = (s.link n).phase :=
  s.heard_field n c LinkSt.phase fun _ _ => rfl
@[simp] theorem State.heard_hold : ((s.heard n c).link n).hold = (s.link n).hold :=
  s.heard_field n c LinkSt.hold fun _ _ => rfl
@[simp] theorem State.heard_retrain : ((s.heard n c).link n).retrain = (s.link n).retrain :=
  s.heard_field n c LinkSt.retrain fun _ _ => rfl
@[simp] theorem State.heard_passed : ((s.heard n c).link n).passed = (s.link n).passed :=
  s.heard_field n c LinkSt.passed fun _ _ => rfl
@[simp] theorem State.heard_mask : ((s.heard n c).link n).mask = (s.link n).mask :=
  s.heard_field n c LinkSt.mask fun _ _ => rfl
@[simp] theorem State.heard_version : ((s.heard n c).link n).version = (s.link n).version :=
  s.heard_field n c LinkSt.version fun _ _ => rfl
@[simp] theorem State.heard_kind : ((s.heard n c).link n).kind = (s.link n).kind :=
  s.heard_field n c LinkSt.kind fun _ _ => rfl
@[simp] theorem State.heard_partner : ((s.heard n c).link n).partner = (s.link n).partner :=
  s.heard_field n c LinkSt.partner fun _ _ => rfl
@[simp] theorem State.heard_partnerVersions : ((s.heard n c).link n).partnerVersions = (s.link n).partnerVersions :=
  s.heard_field n c LinkSt.partnerVersions fun _ _ => rfl
@[simp] theorem State.heard_partnerCaps : ((s.heard n c).link n).partnerCaps = (s.link n).partnerCaps :=
  s.heard_field n c LinkSt.partnerCaps fun _ _ => rfl
@[simp] theorem State.heard_caps : ((s.heard n c).link n).caps = (s.link n).caps :=
  s.heard_field n c LinkSt.caps fun _ _ => rfl
@[simp] theorem State.heard_allowedAtTrain : ((s.heard n c).link n).allowedAtTrain = (s.link n).allowedAtTrain :=
  s.heard_field n c LinkSt.allowedAtTrain fun _ _ => rfl
@[simp] theorem State.heard_seenSent : ((s.heard n c).link n).seenSent = (s.link n).seenSent :=
  s.heard_field n c LinkSt.seenSent fun _ _ => rfl
@[simp] theorem State.heard_seenRecv : ((s.heard n c).link n).seenRecv = (s.link n).seenRecv :=
  s.heard_field n c LinkSt.seenRecv fun _ _ => rfl
@[simp] theorem State.heard_rxNext : ((s.heard n c).link n).rxNext = (s.link n).rxNext :=
  s.heard_field n c LinkSt.rxNext fun _ _ => rfl
@[simp] theorem State.heard_ctlOut : ((s.heard n c).link n).ctlOut = (s.link n).ctlOut :=
  s.heard_field n c LinkSt.ctlOut fun _ _ => rfl
@[simp] theorem State.heard_change : ((s.heard n c).link n).change = (s.link n).change :=
  s.heard_field n c LinkSt.change fun _ _ => rfl
@[simp] theorem State.heard_reqId : ((s.heard n c).link n).reqId = (s.link n).reqId :=
  s.heard_field n c LinkSt.reqId fun _ _ => rfl
@[simp] theorem State.heard_reqQuietUntil : ((s.heard n c).link n).reqQuietUntil = (s.link n).reqQuietUntil :=
  s.heard_field n c LinkSt.reqQuietUntil fun _ _ => rfl
@[simp] theorem State.heard_inTest : ((s.heard n c).link n).inTest = (s.link n).inTest :=
  s.heard_field n c LinkSt.inTest fun _ _ => rfl
@[simp] theorem State.heard_beforeDrop : ((s.heard n c).link n).beforeDrop = (s.link n).beforeDrop :=
  s.heard_field n c LinkSt.beforeDrop fun _ _ => rfl
@[simp] theorem State.heard_afterDrop : ((s.heard n c).link n).afterDrop = (s.link n).afterDrop :=
  s.heard_field n c LinkSt.afterDrop fun _ _ => rfl
@[simp] theorem State.heard_parked : ((s.heard n c).link n).parked = (s.link n).parked :=
  s.heard_field n c LinkSt.parked fun _ _ => rfl
@[simp] theorem State.heard_parkWant : ((s.heard n c).link n).parkWant = (s.link n).parkWant :=
  s.heard_field n c LinkSt.parkWant fun _ _ => rfl
@[simp] theorem State.heard_unparking : ((s.heard n c).link n).unparking = (s.link n).unparking :=
  s.heard_field n c LinkSt.unparking fun _ _ => rfl
@[simp] theorem State.heard_xid : ((s.heard n c).link n).xid = (s.link n).xid :=
  s.heard_field n c LinkSt.xid fun _ _ => rfl
@[simp] theorem State.heard_exch : ((s.heard n c).link n).exch = (s.link n).exch :=
  s.heard_field n c LinkSt.exch fun _ _ => rfl
@[simp] theorem State.heard_downTimes : ((s.heard n c).link n).downTimes = (s.link n).downTimes :=
  s.heard_field n c LinkSt.downTimes fun _ _ => rfl
@[simp] theorem State.heard_isUp : ((s.heard n c).link n).isUp = (s.link n).isUp :=
  s.heard_field n c LinkSt.isUp fun _ _ => rfl
@[simp] theorem State.heard_x2 : ((s.heard n c).link n).x2 = (s.link n).x2 :=
  s.heard_field n c LinkSt.x2 fun _ _ => rfl
@[simp] theorem State.heard_at_pending : (s.heard n c).pending = s.pending := (s.heard_keeps n c).1 .pending rfl
@[simp] theorem State.heard_at_dict : (s.heard n c).dict = s.dict := (s.heard_keeps n c).1 .dict rfl
@[simp] theorem State.heard_at_stalls : (s.heard n c).stalls = s.stalls := (s.heard_keeps n c).1 .stalls rfl
@[simp] theorem State.heard_at_shapers : (s.heard n c).shapers = s.shapers := (s.heard_keeps n c).1 .shapers rfl
@[simp] theorem State.heard_at_pitch : (s.heard n c).pitch = s.pitch := (s.heard_keeps n c).1 .pitch rfl
@[simp] theorem State.heard_at_chans : (s.heard n c).chans = s.chans := (s.heard_keeps n c).1 .chans rfl
@[simp] theorem State.heard_at_snoops : (s.heard n c).snoops = s.snoops := (s.heard_keeps n c).1 .snoops rfl
@[simp] theorem State.heard_at_nextTag : (s.heard n c).nextTag = s.nextTag := (s.heard_keeps n c).1 .nextTag rfl
@[simp] theorem State.heard_at_barrows : (s.heard n c).barrows = s.barrows := (s.heard_keeps n c).1 .barrows rfl
@[simp] theorem State.heard_at_seeds : (s.heard n c).seeds = s.seeds := (s.heard_keeps n c).1 .seeds rfl
@[simp] theorem State.heard_at_trees : (s.heard n c).trees = s.trees := (s.heard_keeps n c).1 .trees rfl
@[simp] theorem State.heard_at_pushes : (s.heard n c).pushes = s.pushes := (s.heard_keeps n c).1 .pushes rfl
@[simp] theorem State.heard_at_time : (s.heard n c).time = s.time := (s.heard_keeps n c).1 .time rfl
@[simp] theorem State.heard_at_gates : (s.heard n c).gates = s.gates := (s.heard_keeps n c).1 .gates rfl
@[simp] theorem State.heard_at_xbar : (s.heard n c).xbar = s.xbar := (s.heard_keeps n c).1 .xbar rfl
@[simp] theorem State.heard_at_checker : (s.heard n c).checker = s.checker := (s.heard_keeps n c).1 .checker rfl
@[simp] theorem State.heard_at_pair : (s.heard n c).pair = s.pair := (s.heard_keeps n c).1 .pair rfl
@[simp] theorem State.heard_at_repair : (s.heard n c).repair = s.repair := (s.heard_keeps n c).1 .repair rfl
@[simp] theorem State.heard_at_sec : (s.heard n c).sec = s.sec := (s.heard_keeps n c).1 .sec rfl
@[simp] theorem State.heard_at_mgmt : (s.heard n c).mgmt = s.mgmt := (s.heard_keeps n c).1 .mgmt rfl
@[simp] theorem State.heard_at_obs : (s.heard n c).obs = s.obs := (s.heard_keeps n c).1 .obs rfl
@[simp] theorem State.heard_at_power : (s.heard n c).power = s.power := (s.heard_keeps n c).1 .power rfl
@[simp] theorem State.heard_at_clock : (s.heard n c).clock = s.clock := (s.heard_keeps n c).1 .clock rfl
@[simp] theorem State.heard_at_boot : (s.heard n c).boot = s.boot := (s.heard_keeps n c).1 .boot rfl
@[simp] theorem State.heard_at_orphanRun : (s.heard n c).orphanRun = s.orphanRun := (s.heard_keeps n c).1 .orphanRun rfl
@[simp] theorem State.heard_at_free : (s.heard n c).free = s.free := (s.heard_keeps n c).1 .free rfl
@[simp] theorem State.heard_tallyOf (g : Group) (i r : Nat) : (s.heard n c).tallyOf g i r = s.tallyOf g i r := by
  simp only [State.tallyOf, State.heard_at_obs]
@[simp] theorem State.heard_reg (k : Nat) : (s.heard n c).reg k = s.reg k := by simp only [State.reg, State.heard_at_dict]

end

end Sys2Proof.Machine
end

