-- ==== Sys2Proof/Laws/Mgmt.lean ====
section
/-! SUPPORT. What a management frame that is taken does: its entry's effect, between the ledger entry and the answer, and what those
two leave alone. -/

namespace Sys2Proof.Machine

/-- A frame that is taken runs its entry's meaning once, with the ledger entry made first and the answer last. -/
theorem State.mgmtFrame_accepts {s : State} {f : Frame} {q : Ask} (act : State → State × Ans) (h : s.accepts f q) :
    s.mgmtFrame f q act = ((act (s.logged f q (act s).2)).1).answered f q (act s).2 := by
  obtain ⟨h1, h2, h3⟩ := h
  unfold State.mgmtFrame
  simp only [h1, h2, h3, Bool.not_true, Bool.false_eq_true, if_false]
  rfl

/-- The ledger changes security, and what the SRAM words hold of errors, alone. -/
theorem State.logged_keeps (s : State) (f : Frame) (q : Ask) (a : Ans) : Keeps 1572864 s (s.logged f q a) := by
  unfold State.logged
  split
  · exact State.ledger_keeps rfl (Keeps.refl _ _)
  · exact Keeps.refl _ _

/-- The answer changes links, stalls, the output ports, the kept responses and tallies alone. -/
theorem State.answered_keeps (s : State) (f : Frame) (q : Ask) (a : Ans) : Keeps 6357004 s (s.answered f q a) :=
  State.keep_keeps rfl (State.sendMgmt_keeps rfl (State.markPersist_keeps rfl (Keeps.refl _ _)))

section
variable (s : State) (f : Frame) (q : Ask) (a : Ans)

@[simp] theorem State.logged_pending : (s.logged f q a).pending = s.pending := (s.logged_keeps f q a).1 .pending rfl
@[simp] theorem State.logged_dict : (s.logged f q a).dict = s.dict := (s.logged_keeps f q a).1 .dict rfl
@[simp] theorem State.logged_links : (s.logged f q a).links = s.links := (s.logged_keeps f q a).1 .links rfl
@[simp] theorem State.logged_stalls : (s.logged f q a).stalls = s.stalls := (s.logged_keeps f q a).1 .stalls rfl
@[simp] theorem State.logged_shapers : (s.logged f q a).shapers = s.shapers := (s.logged_keeps f q a).1 .shapers rfl
@[simp] theorem State.logged_pitch : (s.logged f q a).pitch = s.pitch := (s.logged_keeps f q a).1 .pitch rfl
@[simp] theorem State.logged_slices : (s.logged f q a).slices = s.slices := (s.logged_keeps f q a).1 .slices rfl
@[simp] theorem State.logged_chans : (s.logged f q a).chans = s.chans := (s.logged_keeps f q a).1 .chans rfl
@[simp] theorem State.logged_snoops : (s.logged f q a).snoops = s.snoops := (s.logged_keeps f q a).1 .snoops rfl
@[simp] theorem State.logged_nextTag : (s.logged f q a).nextTag = s.nextTag := (s.logged_keeps f q a).1 .nextTag rfl
@[simp] theorem State.logged_barrows : (s.logged f q a).barrows = s.barrows := (s.logged_keeps f q a).1 .barrows rfl
@[simp] theorem State.logged_seeds : (s.logged f q a).seeds = s.seeds := (s.logged_keeps f q a).1 .seeds rfl
@[simp] theorem State.logged_trees : (s.logged f q a).trees = s.trees := (s.logged_keeps f q a).1 .trees rfl
@[simp] theorem State.logged_pushes : (s.logged f q a).pushes = s.pushes := (s.logged_keeps f q a).1 .pushes rfl
@[simp] theorem State.logged_time : (s.logged f q a).time = s.time := (s.logged_keeps f q a).1 .time rfl
@[simp] theorem State.logged_gates : (s.logged f q a).gates = s.gates := (s.logged_keeps f q a).1 .gates rfl
@[simp] theorem State.logged_xbar : (s.logged f q a).xbar = s.xbar := (s.logged_keeps f q a).1 .xbar rfl
@[simp] theorem State.logged_checker : (s.logged f q a).checker = s.checker := (s.logged_keeps f q a).1 .checker rfl
@[simp] theorem State.logged_pair : (s.logged f q a).pair = s.pair := (s.logged_keeps f q a).1 .pair rfl
@[simp] theorem State.logged_repairFace : (s.logged f q a).repair.face = s.repair.face := (s.logged_keeps f q a).1 .repairFace rfl
@[simp] theorem State.logged_mgmt : (s.logged f q a).mgmt = s.mgmt := (s.logged_keeps f q a).1 .mgmt rfl
@[simp] theorem State.logged_obs : (s.logged f q a).obs = s.obs := (s.logged_keeps f q a).1 .obs rfl
@[simp] theorem State.logged_power : (s.logged f q a).power = s.power := (s.logged_keeps f q a).1 .power rfl
@[simp] theorem State.logged_clock : (s.logged f q a).clock = s.clock := (s.logged_keeps f q a).1 .clock rfl
@[simp] theorem State.logged_boot : (s.logged f q a).boot = s.boot := (s.logged_keeps f q a).1 .boot rfl
@[simp] theorem State.logged_orphanRun : (s.logged f q a).orphanRun = s.orphanRun := (s.logged_keeps f q a).1 .orphanRun rfl
@[simp] theorem State.logged_free : (s.logged f q a).free = s.free := (s.logged_keeps f q a).1 .free rfl
@[simp] theorem State.logged_at_link (n : Nat) : (s.logged f q a).link n = s.link n := by
  simp only [State.link, State.logged_links]
@[simp] theorem State.logged_at_stall (n : Nat) : (s.logged f q a).stall n = s.stall n := by
  simp only [State.stall, State.logged_stalls]
@[simp] theorem State.logged_at_slice (n : Nat) : (s.logged f q a).slice n = s.slice n := by
  simp only [State.slice, State.logged_slices]
@[simp] theorem State.logged_at_chan (n : Nat) : (s.logged f q a).chan n = s.chan n := by
  simp only [State.chan, State.logged_chans]
@[simp] theorem State.logged_at_barrow (n : Nat) : (s.logged f q a).barrow n = s.barrow n := by
  simp only [State.barrow, State.logged_barrows]
@[simp] theorem State.logged_at_tree (n : Nat) : (s.logged f q a).tree n = s.tree n := by
  simp only [State.tree, State.logged_trees]
@[simp] theorem State.logged_at_granule (n : Nat) : (s.logged f q a).granule n = s.granule n := by
  simp only [State.granule, State.logged_pitch]
@[simp] theorem State.logged_at_revoke (n : Nat) : (s.logged f q a).revoke n = s.revoke n := by
  simp only [State.revoke, State.logged_pitch]
@[simp] theorem State.logged_at_shaper (n : Nat) : (s.logged f q a).shaper n = s.shaper n := by
  simp only [State.shaper, State.logged_shapers]
@[simp] theorem State.logged_at_profile (n : Nat) : (s.logged f q a).profile n = s.profile n := by
  simp only [State.profile, State.logged_mgmt]
@[simp] theorem State.logged_at_reg (n : Nat) : (s.logged f q a).reg n = s.reg n := by
  simp only [State.reg, State.logged_dict]
@[simp] theorem State.answered_pending : (s.answered f q a).pending = s.pending := (s.answered_keeps f q a).1 .pending rfl
@[simp] theorem State.answered_dict : (s.answered f q a).dict = s.dict := (s.answered_keeps f q a).1 .dict rfl
@[simp] theorem State.answered_shapers : (s.answered f q a).shapers = s.shapers := (s.answered_keeps f q a).1 .shapers rfl
@[simp] theorem State.answered_pitch : (s.answered f q a).pitch = s.pitch := (s.answered_keeps f q a).1 .pitch rfl
@[simp] theorem State.answered_slices : (s.answered f q a).slices = s.slices := (s.answered_keeps f q a).1 .slices rfl
@[simp] theorem State.answered_chans : (s.answered f q a).chans = s.chans := (s.answered_keeps f q a).1 .chans rfl
@[simp] theorem State.answered_snoops : (s.answered f q a).snoops = s.snoops := (s.answered_keeps f q a).1 .snoops rfl
@[simp] theorem State.answered_nextTag : (s.answered f q a).nextTag = s.nextTag := (s.answered_keeps f q a).1 .nextTag rfl
@[simp] theorem State.answered_barrows : (s.answered f q a).barrows = s.barrows := (s.answered_keeps f q a).1 .barrows rfl
@[simp] theorem State.answered_seeds : (s.answered f q a).seeds = s.seeds := (s.answered_keeps f q a).1 .seeds rfl
@[simp] theorem State.answered_trees : (s.answered f q a).trees = s.trees := (s.answered_keeps f q a).1 .trees rfl
@[simp] theorem State.answered_pushes : (s.answered f q a).pushes = s.pushes := (s.answered_keeps f q a).1 .pushes rfl
@[simp] theorem State.answered_time : (s.answered f q a).time = s.time := (s.answered_keeps f q a).1 .time rfl
@[simp] theorem State.answered_gates : (s.answered f q a).gates = s.gates := (s.answered_keeps f q a).1 .gates rfl
@[simp] theorem State.answered_checker : (s.answered f q a).checker = s.checker := (s.answered_keeps f q a).1 .checker rfl
@[simp] theorem State.answered_pair : (s.answered f q a).pair = s.pair := (s.answered_keeps f q a).1 .pair rfl
@[simp] theorem State.answered_repair : (s.answered f q a).repair = s.repair := (s.answered_keeps f q a).1 .repair rfl
@[simp] theorem State.answered_sec : (s.answered f q a).sec = s.sec := (s.answered_keeps f q a).1 .sec rfl
@[simp] theorem State.answered_power : (s.answered f q a).power = s.power := (s.answered_keeps f q a).1 .power rfl
@[simp] theorem State.answered_clock : (s.answered f q a).clock = s.clock := (s.answered_keeps f q a).1 .clock rfl
@[simp] theorem State.answered_boot : (s.answered f q a).boot = s.boot := (s.answered_keeps f q a).1 .boot rfl
@[simp] theorem State.answered_orphanRun : (s.answered f q a).orphanRun = s.orphanRun := (s.answered_keeps f q a).1 .orphanRun rfl
@[simp] theorem State.answered_free : (s.answered f q a).free = s.free := (s.answered_keeps f q a).1 .free rfl
@[simp] theorem State.answered_at_slice (n : Nat) : (s.answered f q a).slice n = s.slice n := by
  simp only [State.slice, State.answered_slices]
@[simp] theorem State.answered_at_chan (n : Nat) : (s.answered f q a).chan n = s.chan n := by
  simp only [State.chan, State.answered_chans]
@[simp] theorem State.answered_at_barrow (n : Nat) : (s.answered f q a).barrow n = s.barrow n := by
  simp only [State.barrow, State.answered_barrows]
@[simp] theorem State.answered_at_tree (n : Nat) : (s.answered f q a).tree n = s.tree n := by
  simp only [State.tree, State.answered_trees]
@[simp] theorem State.answered_at_key (n : Nat) : (s.answered f q a).key n = s.key n := by
  simp only [State.key, State.answered_sec]
@[simp] theorem State.answered_at_tenant (n : Nat) : (s.answered f q a).tenant n = s.tenant n := by
  simp only [State.tenant, State.answered_sec]
@[simp] theorem State.answered_at_granule (n : Nat) : (s.answered f q a).granule n = s.granule n := by
  simp only [State.granule, State.answered_pitch]
@[simp] theorem State.answered_at_revoke (n : Nat) : (s.answered f q a).revoke n = s.revoke n := by
  simp only [State.revoke, State.answered_pitch]
@[simp] theorem State.answered_at_shaper (n : Nat) : (s.answered f q a).shaper n = s.shaper n := by
  simp only [State.shaper, State.answered_shapers]
@[simp] theorem State.answered_at_reg (n : Nat) : (s.answered f q a).reg n = s.reg n := by
  simp only [State.reg, State.answered_dict]
@[simp] theorem State.logged_tallyOf (g : Group) (i r : Nat) : (s.logged f q a).tallyOf g i r = s.tallyOf g i r := by
  simp only [State.tallyOf, State.logged_obs]

end

end Sys2Proof.Machine
end

