-- ==== Sys2Proof/Laws/Sram.lean ====
section
/-! SUPPORT. While no SRAM word holds an error, reading one finds nothing and changes nothing (06 R120 to R123): one lemma for
each place that reads a word. -/

namespace Sys2Proof.Machine

theorem State.updSram_ok {s : State} (h : s.sramOk) (unit place word : Nat) (f : SramErr → Option SramErr) :
    s.updSram unit place word f = s := by
  have h' : s.repair.sram = [] := h
  obtain ⟨⟩ := s
  simp only at h'
  simp only [State.updSram, h', List.filterMap_nil]
  rename_i r _ _ _ _ _ _ _ _
  cases r
  simp_all

theorem State.sramWrite_ok {s : State} (h : s.sramOk) (unit place word : Nat) : s.sramWrite unit place word = s :=
  State.updSram_ok h _ _ _ _

theorem State.sramRead_ok {s : State} (h : s.sramOk) (unit place word host tenant : Nat) :
    s.sramRead unit place word host tenant = (s, false) := by
  have h' : s.repair.sram = [] := h
  simp [State.sramRead, h']

theorem State.readKey_ok {s : State} (h : s.sramOk) (slot host tenant : Nat) : s.readKey slot host tenant = s := by
  simp [State.readKey, State.sramRead_ok h]

theorem State.readTables_ok {s : State} (h : s.sramOk) (op : ReqOp) (r : Req) : s.readTables op r = (s, false) := by
  unfold State.readTables
  split_ifs <;> simp [State.sramRead_ok h, State.readKey_ok h]

theorem State.readTag_ok {s : State} (h : s.sramOk) (st : Nat) (t : BitVec 16) : s.readTag st t = s := by
  simp [State.readTag, State.sramRead_ok h]

theorem State.readTrk_ok {s : State} (h : s.sramOk) (slice : Nat) (t : Trk) : s.readTrk slice t = s := by
  simp [State.readTrk, State.sramRead_ok h]

theorem State.readDir_ok {s : State} (h : s.sramOk) (slice k : Nat) (t : Trk) : s.readDir slice k t = s := by
  simp [State.readDir, State.sramRead_ok h]

theorem State.readOldest_ok {s : State} (h : s.sramOk) : s.readOldest = s := by
  unfold State.readOldest
  split <;> simp [State.sramRead_ok h]

theorem State.readFrame_ok {s : State} (h : s.sramOk) (off host tenant : Nat) : s.readFrame off host tenant = s := by
  unfold State.readFrame
  simp only [State.sramRead_ok h]
  split <;> rfl

theorem State.readReplay_ok {s : State} (h : s.sramOk) (n : Nat) : s.readReplay n = (s, false) := by
  unfold State.readReplay
  generalize (s.link n).unacked = l
  induction l with
  | nil => rfl
  | cons p r ih => simpa [State.sramRead_ok h] using ih

theorem State.readRing_ok {s : State} (h : s.sramOk) (row count : Nat) : s.readRing row count = s := by
  unfold State.readRing
  generalize upTo count = l
  induction l with
  | nil => rfl
  | cons i r ih => simpa [State.sramRead_ok h] using ih

end Sys2Proof.Machine
end

