-- ==== Sys2Proof/Laws/Tail.lean ====
section
/-! SUPPORT. What the operations that most meanings end with leave alone: raising an event, a fault, a ledger entry, sending a packet. -/

namespace Sys2Proof.Machine

/-! crier -/

@[simp] theorem State.crier_at_pending {s : State} {a1 : _} {a2 : _} {a3 : _} {a4 : _} {a5 : _} : (State.crier s a1 a2 a3 a4 a5).pending = s.pending :=
  (State.crier_keeps (M := 4718600) rfl (Keeps.refl _ _)).1 .pending rfl
@[simp] theorem State.crier_at_dict {s : State} {a1 : _} {a2 : _} {a3 : _} {a4 : _} {a5 : _} : (State.crier s a1 a2 a3 a4 a5).dict = s.dict :=
  (State.crier_keeps (M := 4718600) rfl (Keeps.refl _ _)).1 .dict rfl
@[simp] theorem State.crier_at_links {s : State} {a1 : _} {a2 : _} {a3 : _} {a4 : _} {a5 : _} : (State.crier s a1 a2 a3 a4 a5).links = s.links :=
  (State.crier_keeps (M := 4718600) rfl (Keeps.refl _ _)).1 .links rfl
@[simp] theorem State.crier_at_shapers {s : State} {a1 : _} {a2 : _} {a3 : _} {a4 : _} {a5 : _} : (State.crier s a1 a2 a3 a4 a5).shapers = s.shapers :=
  (State.crier_keeps (M := 4718600) rfl (Keeps.refl _ _)).1 .shapers rfl
@[simp] theorem State.crier_at_pitch {s : State} {a1 : _} {a2 : _} {a3 : _} {a4 : _} {a5 : _} : (State.crier s a1 a2 a3 a4 a5).pitch = s.pitch :=
  (State.crier_keeps (M := 4718600) rfl (Keeps.refl _ _)).1 .pitch rfl
@[simp] theorem State.crier_at_slices {s : State} {a1 : _} {a2 : _} {a3 : _} {a4 : _} {a5 : _} : (State.crier s a1 a2 a3 a4 a5).slices = s.slices :=
  (State.crier_keeps (M := 4718600) rfl (Keeps.refl _ _)).1 .slices rfl
@[simp] theorem State.crier_at_chans {s : State} {a1 : _} {a2 : _} {a3 : _} {a4 : _} {a5 : _} : (State.crier s a1 a2 a3 a4 a5).chans = s.chans :=
  (State.crier_keeps (M := 4718600) rfl (Keeps.refl _ _)).1 .chans rfl
@[simp] theorem State.crier_at_snoops {s : State} {a1 : _} {a2 : _} {a3 : _} {a4 : _} {a5 : _} : (State.crier s a1 a2 a3 a4 a5).snoops = s.snoops :=
  (State.crier_keeps (M := 4718600) rfl (Keeps.refl _ _)).1 .snoops rfl
@[simp] theorem State.crier_at_nextTag {s : State} {a1 : _} {a2 : _} {a3 : _} {a4 : _} {a5 : _} : (State.crier s a1 a2 a3 a4 a5).nextTag = s.nextTag :=
  (State.crier_keeps (M := 4718600) rfl (Keeps.refl _ _)).1 .nextTag rfl
@[simp] theorem State.crier_at_barrows {s : State} {a1 : _} {a2 : _} {a3 : _} {a4 : _} {a5 : _} : (State.crier s a1 a2 a3 a4 a5).barrows = s.barrows :=
  (State.crier_keeps (M := 4718600) rfl (Keeps.refl _ _)).1 .barrows rfl
@[simp] theorem State.crier_at_seeds {s : State} {a1 : _} {a2 : _} {a3 : _} {a4 : _} {a5 : _} : (State.crier s a1 a2 a3 a4 a5).seeds = s.seeds :=
  (State.crier_keeps (M := 4718600) rfl (Keeps.refl _ _)).1 .seeds rfl
@[simp] theorem State.crier_at_trees {s : State} {a1 : _} {a2 : _} {a3 : _} {a4 : _} {a5 : _} : (State.crier s a1 a2 a3 a4 a5).trees = s.trees :=
  (State.crier_keeps (M := 4718600) rfl (Keeps.refl _ _)).1 .trees rfl
@[simp] theorem State.crier_at_pushes {s : State} {a1 : _} {a2 : _} {a3 : _} {a4 : _} {a5 : _} : (State.crier s a1 a2 a3 a4 a5).pushes = s.pushes :=
  (State.crier_keeps (M := 4718600) rfl (Keeps.refl _ _)).1 .pushes rfl
@[simp] theorem State.crier_at_time {s : State} {a1 : _} {a2 : _} {a3 : _} {a4 : _} {a5 : _} : (State.crier s a1 a2 a3 a4 a5).time = s.time :=
  (State.crier_keeps (M := 4718600) rfl (Keeps.refl _ _)).1 .time rfl
@[simp] theorem State.crier_at_gates {s : State} {a1 : _} {a2 : _} {a3 : _} {a4 : _} {a5 : _} : (State.crier s a1 a2 a3 a4 a5).gates = s.gates :=
  (State.crier_keeps (M := 4718600) rfl (Keeps.refl _ _)).1 .gates rfl
@[simp] theorem State.crier_at_xbar {s : State} {a1 : _} {a2 : _} {a3 : _} {a4 : _} {a5 : _} : (State.crier s a1 a2 a3 a4 a5).xbar = s.xbar :=
  (State.crier_keeps (M := 4718600) rfl (Keeps.refl _ _)).1 .xbar rfl
@[simp] theorem State.crier_at_checker {s : State} {a1 : _} {a2 : _} {a3 : _} {a4 : _} {a5 : _} : (State.crier s a1 a2 a3 a4 a5).checker = s.checker :=
  (State.crier_keeps (M := 4718600) rfl (Keeps.refl _ _)).1 .checker rfl
@[simp] theorem State.crier_at_pair {s : State} {a1 : _} {a2 : _} {a3 : _} {a4 : _} {a5 : _} : (State.crier s a1 a2 a3 a4 a5).pair = s.pair :=
  (State.crier_keeps (M := 4718600) rfl (Keeps.refl _ _)).1 .pair rfl
@[simp] theorem State.crier_at_sec {s : State} {a1 : _} {a2 : _} {a3 : _} {a4 : _} {a5 : _} : (State.crier s a1 a2 a3 a4 a5).sec = s.sec :=
  (State.crier_keeps (M := 4718600) rfl (Keeps.refl _ _)).1 .sec rfl
@[simp] theorem State.crier_at_mgmt {s : State} {a1 : _} {a2 : _} {a3 : _} {a4 : _} {a5 : _} : (State.crier s a1 a2 a3 a4 a5).mgmt = s.mgmt :=
  (State.crier_keeps (M := 4718600) rfl (Keeps.refl _ _)).1 .mgmt rfl
@[simp] theorem State.crier_at_power {s : State} {a1 : _} {a2 : _} {a3 : _} {a4 : _} {a5 : _} : (State.crier s a1 a2 a3 a4 a5).power = s.power :=
  (State.crier_keeps (M := 4718600) rfl (Keeps.refl _ _)).1 .power rfl
@[simp] theorem State.crier_at_clock {s : State} {a1 : _} {a2 : _} {a3 : _} {a4 : _} {a5 : _} : (State.crier s a1 a2 a3 a4 a5).clock = s.clock :=
  (State.crier_keeps (M := 4718600) rfl (Keeps.refl _ _)).1 .clock rfl
@[simp] theorem State.crier_at_boot {s : State} {a1 : _} {a2 : _} {a3 : _} {a4 : _} {a5 : _} : (State.crier s a1 a2 a3 a4 a5).boot = s.boot :=
  (State.crier_keeps (M := 4718600) rfl (Keeps.refl _ _)).1 .boot rfl
@[simp] theorem State.crier_at_orphanRun {s : State} {a1 : _} {a2 : _} {a3 : _} {a4 : _} {a5 : _} : (State.crier s a1 a2 a3 a4 a5).orphanRun = s.orphanRun :=
  (State.crier_keeps (M := 4718600) rfl (Keeps.refl _ _)).1 .orphanRun rfl
@[simp] theorem State.crier_at_free {s : State} {a1 : _} {a2 : _} {a3 : _} {a4 : _} {a5 : _} : (State.crier s a1 a2 a3 a4 a5).free = s.free :=
  (State.crier_keeps (M := 4718600) rfl (Keeps.refl _ _)).1 .free rfl
@[simp] theorem State.crier_at_link {s : State} {a1 : _} {a2 : _} {a3 : _} {a4 : _} {a5 : _} (j : Nat) : (State.crier s a1 a2 a3 a4 a5).link j = s.link j := by
  simp only [State.link, State.crier_at_links]
@[simp] theorem State.crier_at_slice {s : State} {a1 : _} {a2 : _} {a3 : _} {a4 : _} {a5 : _} (j : Nat) : (State.crier s a1 a2 a3 a4 a5).slice j = s.slice j := by
  simp only [State.slice, State.crier_at_slices]
@[simp] theorem State.crier_at_chan {s : State} {a1 : _} {a2 : _} {a3 : _} {a4 : _} {a5 : _} (j : Nat) : (State.crier s a1 a2 a3 a4 a5).chan j = s.chan j := by
  simp only [State.chan, State.crier_at_chans]
@[simp] theorem State.crier_at_barrow {s : State} {a1 : _} {a2 : _} {a3 : _} {a4 : _} {a5 : _} (j : Nat) : (State.crier s a1 a2 a3 a4 a5).barrow j = s.barrow j := by
  simp only [State.barrow, State.crier_at_barrows]
@[simp] theorem State.crier_at_tree {s : State} {a1 : _} {a2 : _} {a3 : _} {a4 : _} {a5 : _} (j : Nat) : (State.crier s a1 a2 a3 a4 a5).tree j = s.tree j := by
  simp only [State.tree, State.crier_at_trees]
@[simp] theorem State.crier_at_key {s : State} {a1 : _} {a2 : _} {a3 : _} {a4 : _} {a5 : _} (j : Nat) : (State.crier s a1 a2 a3 a4 a5).key j = s.key j := by
  simp only [State.key, State.crier_at_sec]
@[simp] theorem State.crier_at_tenant {s : State} {a1 : _} {a2 : _} {a3 : _} {a4 : _} {a5 : _} (j : Nat) : (State.crier s a1 a2 a3 a4 a5).tenant j = s.tenant j := by
  simp only [State.tenant, State.crier_at_sec]
@[simp] theorem State.crier_at_granule {s : State} {a1 : _} {a2 : _} {a3 : _} {a4 : _} {a5 : _} (j : Nat) : (State.crier s a1 a2 a3 a4 a5).granule j = s.granule j := by
  simp only [State.granule, State.crier_at_pitch]
@[simp] theorem State.crier_at_revoke {s : State} {a1 : _} {a2 : _} {a3 : _} {a4 : _} {a5 : _} (j : Nat) : (State.crier s a1 a2 a3 a4 a5).revoke j = s.revoke j := by
  simp only [State.revoke, State.crier_at_pitch]
@[simp] theorem State.crier_at_shaper {s : State} {a1 : _} {a2 : _} {a3 : _} {a4 : _} {a5 : _} (j : Nat) : (State.crier s a1 a2 a3 a4 a5).shaper j = s.shaper j := by
  simp only [State.shaper, State.crier_at_shapers]
@[simp] theorem State.crier_at_profile {s : State} {a1 : _} {a2 : _} {a3 : _} {a4 : _} {a5 : _} (j : Nat) : (State.crier s a1 a2 a3 a4 a5).profile j = s.profile j := by
  simp only [State.profile, State.crier_at_mgmt]
@[simp] theorem State.crier_at_reg {s : State} {a1 : _} {a2 : _} {a3 : _} {a4 : _} {a5 : _} (j : Nat) : (State.crier s a1 a2 a3 a4 a5).reg j = s.reg j := by
  simp only [State.reg, State.crier_at_dict]
theorem State.crier_stallFace {s : State} {a1 : _} {a2 : _} {a3 : _} {a4 : _} {a5 : _} (j : Nat) : ((State.crier s a1 a2 a3 a4 a5).stall j).face = (s.stall j).face :=
  (State.crier_keeps (M := 4718600) rfl (Keeps.refl _ _)).1 .stallFace rfl j
theorem State.crier_repairFace {s : State} {a1 : _} {a2 : _} {a3 : _} {a4 : _} {a5 : _} : (State.crier s a1 a2 a3 a4 a5).repair.face = s.repair.face :=
  (State.crier_keeps (M := 4718600) rfl (Keeps.refl _ _)).1 .repairFace rfl

/-! fault -/

@[simp] theorem State.fault_at_pending {s : State} {a1 : _} {a2 : _} {a3 : _} {a4 : _} {a5 : _} : (State.fault s a1 a2 a3 a4 a5).pending = s.pending :=
  (State.fault_keeps (M := 4718600) rfl (Keeps.refl _ _)).1 .pending rfl
@[simp] theorem State.fault_at_dict {s : State} {a1 : _} {a2 : _} {a3 : _} {a4 : _} {a5 : _} : (State.fault s a1 a2 a3 a4 a5).dict = s.dict :=
  (State.fault_keeps (M := 4718600) rfl (Keeps.refl _ _)).1 .dict rfl
@[simp] theorem State.fault_at_links {s : State} {a1 : _} {a2 : _} {a3 : _} {a4 : _} {a5 : _} : (State.fault s a1 a2 a3 a4 a5).links = s.links :=
  (State.fault_keeps (M := 4718600) rfl (Keeps.refl _ _)).1 .links rfl
@[simp] theorem State.fault_at_shapers {s : State} {a1 : _} {a2 : _} {a3 : _} {a4 : _} {a5 : _} : (State.fault s a1 a2 a3 a4 a5).shapers = s.shapers :=
  (State.fault_keeps (M := 4718600) rfl (Keeps.refl _ _)).1 .shapers rfl
@[simp] theorem State.fault_at_pitch {s : State} {a1 : _} {a2 : _} {a3 : _} {a4 : _} {a5 : _} : (State.fault s a1 a2 a3 a4 a5).pitch = s.pitch :=
  (State.fault_keeps (M := 4718600) rfl (Keeps.refl _ _)).1 .pitch rfl
@[simp] theorem State.fault_at_slices {s : State} {a1 : _} {a2 : _} {a3 : _} {a4 : _} {a5 : _} : (State.fault s a1 a2 a3 a4 a5).slices = s.slices :=
  (State.fault_keeps (M := 4718600) rfl (Keeps.refl _ _)).1 .slices rfl
@[simp] theorem State.fault_at_chans {s : State} {a1 : _} {a2 : _} {a3 : _} {a4 : _} {a5 : _} : (State.fault s a1 a2 a3 a4 a5).chans = s.chans :=
  (State.fault_keeps (M := 4718600) rfl (Keeps.refl _ _)).1 .chans rfl
@[simp] theorem State.fault_at_snoops {s : State} {a1 : _} {a2 : _} {a3 : _} {a4 : _} {a5 : _} : (State.fault s a1 a2 a3 a4 a5).snoops = s.snoops :=
  (State.fault_keeps (M := 4718600) rfl (Keeps.refl _ _)).1 .snoops rfl
@[simp] theorem State.fault_at_nextTag {s : State} {a1 : _} {a2 : _} {a3 : _} {a4 : _} {a5 : _} : (State.fault s a1 a2 a3 a4 a5).nextTag = s.nextTag :=
  (State.fault_keeps (M := 4718600) rfl (Keeps.refl _ _)).1 .nextTag rfl
@[simp] theorem State.fault_at_barrows {s : State} {a1 : _} {a2 : _} {a3 : _} {a4 : _} {a5 : _} : (State.fault s a1 a2 a3 a4 a5).barrows = s.barrows :=
  (State.fault_keeps (M := 4718600) rfl (Keeps.refl _ _)).1 .barrows rfl
@[simp] theorem State.fault_at_seeds {s : State} {a1 : _} {a2 : _} {a3 : _} {a4 : _} {a5 : _} : (State.fault s a1 a2 a3 a4 a5).seeds = s.seeds :=
  (State.fault_keeps (M := 4718600) rfl (Keeps.refl _ _)).1 .seeds rfl
@[simp] theorem State.fault_at_trees {s : State} {a1 : _} {a2 : _} {a3 : _} {a4 : _} {a5 : _} : (State.fault s a1 a2 a3 a4 a5).trees = s.trees :=
  (State.fault_keeps (M := 4718600) rfl (Keeps.refl _ _)).1 .trees rfl
@[simp] theorem State.fault_at_pushes {s : State} {a1 : _} {a2 : _} {a3 : _} {a4 : _} {a5 : _} : (State.fault s a1 a2 a3 a4 a5).pushes = s.pushes :=
  (State.fault_keeps (M := 4718600) rfl (Keeps.refl _ _)).1 .pushes rfl
@[simp] theorem State.fault_at_time {s : State} {a1 : _} {a2 : _} {a3 : _} {a4 : _} {a5 : _} : (State.fault s a1 a2 a3 a4 a5).time = s.time :=
  (State.fault_keeps (M := 4718600) rfl (Keeps.refl _ _)).1 .time rfl
@[simp] theorem State.fault_at_gates {s : State} {a1 : _} {a2 : _} {a3 : _} {a4 : _} {a5 : _} : (State.fault s a1 a2 a3 a4 a5).gates = s.gates :=
  (State.fault_keeps (M := 4718600) rfl (Keeps.refl _ _)).1 .gates rfl
@[simp] theorem State.fault_at_xbar {s : State} {a1 : _} {a2 : _} {a3 : _} {a4 : _} {a5 : _} : (State.fault s a1 a2 a3 a4 a5).xbar = s.xbar :=
  (State.fault_keeps (M := 4718600) rfl (Keeps.refl _ _)).1 .xbar rfl
@[simp] theorem State.fault_at_checker {s : State} {a1 : _} {a2 : _} {a3 : _} {a4 : _} {a5 : _} : (State.fault s a1 a2 a3 a4 a5).checker = s.checker :=
  (State.fault_keeps (M := 4718600) rfl (Keeps.refl _ _)).1 .checker rfl
@[simp] theorem State.fault_at_pair {s : State} {a1 : _} {a2 : _} {a3 : _} {a4 : _} {a5 : _} : (State.fault s a1 a2 a3 a4 a5).pair = s.pair :=
  (State.fault_keeps (M := 4718600) rfl (Keeps.refl _ _)).1 .pair rfl
@[simp] theorem State.fault_at_sec {s : State} {a1 : _} {a2 : _} {a3 : _} {a4 : _} {a5 : _} : (State.fault s a1 a2 a3 a4 a5).sec = s.sec :=
  (State.fault_keeps (M := 4718600) rfl (Keeps.refl _ _)).1 .sec rfl
@[simp] theorem State.fault_at_mgmt {s : State} {a1 : _} {a2 : _} {a3 : _} {a4 : _} {a5 : _} : (State.fault s a1 a2 a3 a4 a5).mgmt = s.mgmt :=
  (State.fault_keeps (M := 4718600) rfl (Keeps.refl _ _)).1 .mgmt rfl
@[simp] theorem State.fault_at_power {s : State} {a1 : _} {a2 : _} {a3 : _} {a4 : _} {a5 : _} : (State.fault s a1 a2 a3 a4 a5).power = s.power :=
  (State.fault_keeps (M := 4718600) rfl (Keeps.refl _ _)).1 .power rfl
@[simp] theorem State.fault_at_clock {s : State} {a1 : _} {a2 : _} {a3 : _} {a4 : _} {a5 : _} : (State.fault s a1 a2 a3 a4 a5).clock = s.clock :=
  (State.fault_keeps (M := 4718600) rfl (Keeps.refl _ _)).1 .clock rfl
@[simp] theorem State.fault_at_boot {s : State} {a1 : _} {a2 : _} {a3 : _} {a4 : _} {a5 : _} : (State.fault s a1 a2 a3 a4 a5).boot = s.boot :=
  (State.fault_keeps (M := 4718600) rfl (Keeps.refl _ _)).1 .boot rfl
@[simp] theorem State.fault_at_orphanRun {s : State} {a1 : _} {a2 : _} {a3 : _} {a4 : _} {a5 : _} : (State.fault s a1 a2 a3 a4 a5).orphanRun = s.orphanRun :=
  (State.fault_keeps (M := 4718600) rfl (Keeps.refl _ _)).1 .orphanRun rfl
@[simp] theorem State.fault_at_free {s : State} {a1 : _} {a2 : _} {a3 : _} {a4 : _} {a5 : _} : (State.fault s a1 a2 a3 a4 a5).free = s.free :=
  (State.fault_keeps (M := 4718600) rfl (Keeps.refl _ _)).1 .free rfl
@[simp] theorem State.fault_at_link {s : State} {a1 : _} {a2 : _} {a3 : _} {a4 : _} {a5 : _} (j : Nat) : (State.fault s a1 a2 a3 a4 a5).link j = s.link j := by
  simp only [State.link, State.fault_at_links]
@[simp] theorem State.fault_at_slice {s : State} {a1 : _} {a2 : _} {a3 : _} {a4 : _} {a5 : _} (j : Nat) : (State.fault s a1 a2 a3 a4 a5).slice j = s.slice j := by
  simp only [State.slice, State.fault_at_slices]
@[simp] theorem State.fault_at_chan {s : State} {a1 : _} {a2 : _} {a3 : _} {a4 : _} {a5 : _} (j : Nat) : (State.fault s a1 a2 a3 a4 a5).chan j = s.chan j := by
  simp only [State.chan, State.fault_at_chans]
@[simp] theorem State.fault_at_barrow {s : State} {a1 : _} {a2 : _} {a3 : _} {a4 : _} {a5 : _} (j : Nat) : (State.fault s a1 a2 a3 a4 a5).barrow j = s.barrow j := by
  simp only [State.barrow, State.fault_at_barrows]
@[simp] theorem State.fault_at_tree {s : State} {a1 : _} {a2 : _} {a3 : _} {a4 : _} {a5 : _} (j : Nat) : (State.fault s a1 a2 a3 a4 a5).tree j = s.tree j := by
  simp only [State.tree, State.fault_at_trees]
@[simp] theorem State.fault_at_key {s : State} {a1 : _} {a2 : _} {a3 : _} {a4 : _} {a5 : _} (j : Nat) : (State.fault s a1 a2 a3 a4 a5).key j = s.key j := by
  simp only [State.key, State.fault_at_sec]
@[simp] theorem State.fault_at_tenant {s : State} {a1 : _} {a2 : _} {a3 : _} {a4 : _} {a5 : _} (j : Nat) : (State.fault s a1 a2 a3 a4 a5).tenant j = s.tenant j := by
  simp only [State.tenant, State.fault_at_sec]
@[simp] theorem State.fault_at_granule {s : State} {a1 : _} {a2 : _} {a3 : _} {a4 : _} {a5 : _} (j : Nat) : (State.fault s a1 a2 a3 a4 a5).granule j = s.granule j := by
  simp only [State.granule, State.fault_at_pitch]
@[simp] theorem State.fault_at_revoke {s : State} {a1 : _} {a2 : _} {a3 : _} {a4 : _} {a5 : _} (j : Nat) : (State.fault s a1 a2 a3 a4 a5).revoke j = s.revoke j := by
  simp only [State.revoke, State.fault_at_pitch]
@[simp] theorem State.fault_at_shaper {s : State} {a1 : _} {a2 : _} {a3 : _} {a4 : _} {a5 : _} (j : Nat) : (State.fault s a1 a2 a3 a4 a5).shaper j = s.shaper j := by
  simp only [State.shaper, State.fault_at_shapers]
@[simp] theorem State.fault_at_profile {s : State} {a1 : _} {a2 : _} {a3 : _} {a4 : _} {a5 : _} (j : Nat) : (State.fault s a1 a2 a3 a4 a5).profile j = s.profile j := by
  simp only [State.profile, State.fault_at_mgmt]
@[simp] theorem State.fault_at_reg {s : State} {a1 : _} {a2 : _} {a3 : _} {a4 : _} {a5 : _} (j : Nat) : (State.fault s a1 a2 a3 a4 a5).reg j = s.reg j := by
  simp only [State.reg, State.fault_at_dict]
theorem State.fault_stallFace {s : State} {a1 : _} {a2 : _} {a3 : _} {a4 : _} {a5 : _} (j : Nat) : ((State.fault s a1 a2 a3 a4 a5).stall j).face = (s.stall j).face :=
  (State.fault_keeps (M := 4718600) rfl (Keeps.refl _ _)).1 .stallFace rfl j
theorem State.fault_repairFace {s : State} {a1 : _} {a2 : _} {a3 : _} {a4 : _} {a5 : _} : (State.fault s a1 a2 a3 a4 a5).repair.face = s.repair.face :=
  (State.fault_keeps (M := 4718600) rfl (Keeps.refl _ _)).1 .repairFace rfl

/-! ledger -/

@[simp] theorem State.ledger_at_pending {s : State} {a1 : _} {a2 : _} {a3 : _} {a4 : _} {a5 : _} : (State.ledger s a1 a2 a3 a4 a5).pending = s.pending :=
  (State.ledger_keeps (M := 1572864) rfl (Keeps.refl _ _)).1 .pending rfl
@[simp] theorem State.ledger_at_dict {s : State} {a1 : _} {a2 : _} {a3 : _} {a4 : _} {a5 : _} : (State.ledger s a1 a2 a3 a4 a5).dict = s.dict :=
  (State.ledger_keeps (M := 1572864) rfl (Keeps.refl _ _)).1 .dict rfl
@[simp] theorem State.ledger_at_links {s : State} {a1 : _} {a2 : _} {a3 : _} {a4 : _} {a5 : _} : (State.ledger s a1 a2 a3 a4 a5).links = s.links :=
  (State.ledger_keeps (M := 1572864) rfl (Keeps.refl _ _)).1 .links rfl
@[simp] theorem State.ledger_at_stalls {s : State} {a1 : _} {a2 : _} {a3 : _} {a4 : _} {a5 : _} : (State.ledger s a1 a2 a3 a4 a5).stalls = s.stalls :=
  (State.ledger_keeps (M := 1572864) rfl (Keeps.refl _ _)).1 .stalls rfl
@[simp] theorem State.ledger_at_shapers {s : State} {a1 : _} {a2 : _} {a3 : _} {a4 : _} {a5 : _} : (State.ledger s a1 a2 a3 a4 a5).shapers = s.shapers :=
  (State.ledger_keeps (M := 1572864) rfl (Keeps.refl _ _)).1 .shapers rfl
@[simp] theorem State.ledger_at_pitch {s : State} {a1 : _} {a2 : _} {a3 : _} {a4 : _} {a5 : _} : (State.ledger s a1 a2 a3 a4 a5).pitch = s.pitch :=
  (State.ledger_keeps (M := 1572864) rfl (Keeps.refl _ _)).1 .pitch rfl
@[simp] theorem State.ledger_at_slices {s : State} {a1 : _} {a2 : _} {a3 : _} {a4 : _} {a5 : _} : (State.ledger s a1 a2 a3 a4 a5).slices = s.slices :=
  (State.ledger_keeps (M := 1572864) rfl (Keeps.refl _ _)).1 .slices rfl
@[simp] theorem State.ledger_at_chans {s : State} {a1 : _} {a2 : _} {a3 : _} {a4 : _} {a5 : _} : (State.ledger s a1 a2 a3 a4 a5).chans = s.chans :=
  (State.ledger_keeps (M := 1572864) rfl (Keeps.refl _ _)).1 .chans rfl
@[simp] theorem State.ledger_at_snoops {s : State} {a1 : _} {a2 : _} {a3 : _} {a4 : _} {a5 : _} : (State.ledger s a1 a2 a3 a4 a5).snoops = s.snoops :=
  (State.ledger_keeps (M := 1572864) rfl (Keeps.refl _ _)).1 .snoops rfl
@[simp] theorem State.ledger_at_nextTag {s : State} {a1 : _} {a2 : _} {a3 : _} {a4 : _} {a5 : _} : (State.ledger s a1 a2 a3 a4 a5).nextTag = s.nextTag :=
  (State.ledger_keeps (M := 1572864) rfl (Keeps.refl _ _)).1 .nextTag rfl
@[simp] theorem State.ledger_at_barrows {s : State} {a1 : _} {a2 : _} {a3 : _} {a4 : _} {a5 : _} : (State.ledger s a1 a2 a3 a4 a5).barrows = s.barrows :=
  (State.ledger_keeps (M := 1572864) rfl (Keeps.refl _ _)).1 .barrows rfl
@[simp] theorem State.ledger_at_seeds {s : State} {a1 : _} {a2 : _} {a3 : _} {a4 : _} {a5 : _} : (State.ledger s a1 a2 a3 a4 a5).seeds = s.seeds :=
  (State.ledger_keeps (M := 1572864) rfl (Keeps.refl _ _)).1 .seeds rfl
@[simp] theorem State.ledger_at_trees {s : State} {a1 : _} {a2 : _} {a3 : _} {a4 : _} {a5 : _} : (State.ledger s a1 a2 a3 a4 a5).trees = s.trees :=
  (State.ledger_keeps (M := 1572864) rfl (Keeps.refl _ _)).1 .trees rfl
@[simp] theorem State.ledger_at_pushes {s : State} {a1 : _} {a2 : _} {a3 : _} {a4 : _} {a5 : _} : (State.ledger s a1 a2 a3 a4 a5).pushes = s.pushes :=
  (State.ledger_keeps (M := 1572864) rfl (Keeps.refl _ _)).1 .pushes rfl
@[simp] theorem State.ledger_at_time {s : State} {a1 : _} {a2 : _} {a3 : _} {a4 : _} {a5 : _} : (State.ledger s a1 a2 a3 a4 a5).time = s.time :=
  (State.ledger_keeps (M := 1572864) rfl (Keeps.refl _ _)).1 .time rfl
@[simp] theorem State.ledger_at_gates {s : State} {a1 : _} {a2 : _} {a3 : _} {a4 : _} {a5 : _} : (State.ledger s a1 a2 a3 a4 a5).gates = s.gates :=
  (State.ledger_keeps (M := 1572864) rfl (Keeps.refl _ _)).1 .gates rfl
@[simp] theorem State.ledger_at_xbar {s : State} {a1 : _} {a2 : _} {a3 : _} {a4 : _} {a5 : _} : (State.ledger s a1 a2 a3 a4 a5).xbar = s.xbar :=
  (State.ledger_keeps (M := 1572864) rfl (Keeps.refl _ _)).1 .xbar rfl
@[simp] theorem State.ledger_at_checker {s : State} {a1 : _} {a2 : _} {a3 : _} {a4 : _} {a5 : _} : (State.ledger s a1 a2 a3 a4 a5).checker = s.checker :=
  (State.ledger_keeps (M := 1572864) rfl (Keeps.refl _ _)).1 .checker rfl
@[simp] theorem State.ledger_at_pair {s : State} {a1 : _} {a2 : _} {a3 : _} {a4 : _} {a5 : _} : (State.ledger s a1 a2 a3 a4 a5).pair = s.pair :=
  (State.ledger_keeps (M := 1572864) rfl (Keeps.refl _ _)).1 .pair rfl
@[simp] theorem State.ledger_at_mgmt {s : State} {a1 : _} {a2 : _} {a3 : _} {a4 : _} {a5 : _} : (State.ledger s a1 a2 a3 a4 a5).mgmt = s.mgmt :=
  (State.ledger_keeps (M := 1572864) rfl (Keeps.refl _ _)).1 .mgmt rfl
@[simp] theorem State.ledger_at_obs {s : State} {a1 : _} {a2 : _} {a3 : _} {a4 : _} {a5 : _} : (State.ledger s a1 a2 a3 a4 a5).obs = s.obs :=
  (State.ledger_keeps (M := 1572864) rfl (Keeps.refl _ _)).1 .obs rfl
@[simp] theorem State.ledger_at_power {s : State} {a1 : _} {a2 : _} {a3 : _} {a4 : _} {a5 : _} : (State.ledger s a1 a2 a3 a4 a5).power = s.power :=
  (State.ledger_keeps (M := 1572864) rfl (Keeps.refl _ _)).1 .power rfl
@[simp] theorem State.ledger_at_clock {s : State} {a1 : _} {a2 : _} {a3 : _} {a4 : _} {a5 : _} : (State.ledger s a1 a2 a3 a4 a5).clock = s.clock :=
  (State.ledger_keeps (M := 1572864) rfl (Keeps.refl _ _)).1 .clock rfl
@[simp] theorem State.ledger_at_boot {s : State} {a1 : _} {a2 : _} {a3 : _} {a4 : _} {a5 : _} : (State.ledger s a1 a2 a3 a4 a5).boot = s.boot :=
  (State.ledger_keeps (M := 1572864) rfl (Keeps.refl _ _)).1 .boot rfl
@[simp] theorem State.ledger_at_orphanRun {s : State} {a1 : _} {a2 : _} {a3 : _} {a4 : _} {a5 : _} : (State.ledger s a1 a2 a3 a4 a5).orphanRun = s.orphanRun :=
  (State.ledger_keeps (M := 1572864) rfl (Keeps.refl _ _)).1 .orphanRun rfl
@[simp] theorem State.ledger_at_free {s : State} {a1 : _} {a2 : _} {a3 : _} {a4 : _} {a5 : _} : (State.ledger s a1 a2 a3 a4 a5).free = s.free :=
  (State.ledger_keeps (M := 1572864) rfl (Keeps.refl _ _)).1 .free rfl
@[simp] theorem State.ledger_at_link {s : State} {a1 : _} {a2 : _} {a3 : _} {a4 : _} {a5 : _} (j : Nat) : (State.ledger s a1 a2 a3 a4 a5).link j = s.link j := by
  simp only [State.link, State.ledger_at_links]
@[simp] theorem State.ledger_at_stall {s : State} {a1 : _} {a2 : _} {a3 : _} {a4 : _} {a5 : _} (j : Nat) : (State.ledger s a1 a2 a3 a4 a5).stall j = s.stall j := by
  simp only [State.stall, State.ledger_at_stalls]
@[simp] theorem State.ledger_at_slice {s : State} {a1 : _} {a2 : _} {a3 : _} {a4 : _} {a5 : _} (j : Nat) : (State.ledger s a1 a2 a3 a4 a5).slice j = s.slice j := by
  simp only [State.slice, State.ledger_at_slices]
@[simp] theorem State.ledger_at_chan {s : State} {a1 : _} {a2 : _} {a3 : _} {a4 : _} {a5 : _} (j : Nat) : (State.ledger s a1 a2 a3 a4 a5).chan j = s.chan j := by
  simp only [State.chan, State.ledger_at_chans]
@[simp] theorem State.ledger_at_barrow {s : State} {a1 : _} {a2 : _} {a3 : _} {a4 : _} {a5 : _} (j : Nat) : (State.ledger s a1 a2 a3 a4 a5).barrow j = s.barrow j := by
  simp only [State.barrow, State.ledger_at_barrows]
@[simp] theorem State.ledger_at_tree {s : State} {a1 : _} {a2 : _} {a3 : _} {a4 : _} {a5 : _} (j : Nat) : (State.ledger s a1 a2 a3 a4 a5).tree j = s.tree j := by
  simp only [State.tree, State.ledger_at_trees]
@[simp] theorem State.ledger_at_granule {s : State} {a1 : _} {a2 : _} {a3 : _} {a4 : _} {a5 : _} (j : Nat) : (State.ledger s a1 a2 a3 a4 a5).granule j = s.granule j := by
  simp only [State.granule, State.ledger_at_pitch]
@[simp] theorem State.ledger_at_revoke {s : State} {a1 : _} {a2 : _} {a3 : _} {a4 : _} {a5 : _} (j : Nat) : (State.ledger s a1 a2 a3 a4 a5).revoke j = s.revoke j := by
  simp only [State.revoke, State.ledger_at_pitch]
@[simp] theorem State.ledger_at_shaper {s : State} {a1 : _} {a2 : _} {a3 : _} {a4 : _} {a5 : _} (j : Nat) : (State.ledger s a1 a2 a3 a4 a5).shaper j = s.shaper j := by
  simp only [State.shaper, State.ledger_at_shapers]
@[simp] theorem State.ledger_at_profile {s : State} {a1 : _} {a2 : _} {a3 : _} {a4 : _} {a5 : _} (j : Nat) : (State.ledger s a1 a2 a3 a4 a5).profile j = s.profile j := by
  simp only [State.profile, State.ledger_at_mgmt]
@[simp] theorem State.ledger_at_reg {s : State} {a1 : _} {a2 : _} {a3 : _} {a4 : _} {a5 : _} (j : Nat) : (State.ledger s a1 a2 a3 a4 a5).reg j = s.reg j := by
  simp only [State.reg, State.ledger_at_dict]
@[simp] theorem State.ledger_tallyOf {s : State} {a1 : _} {a2 : _} {a3 : _} {a4 : _} {a5 : _} (g : Group) (i r : Nat) : (State.ledger s a1 a2 a3 a4 a5).tallyOf g i r = s.tallyOf g i r := by
  simp only [State.tallyOf, State.ledger_at_obs]
theorem State.ledger_secFace {s : State} {a1 : _} {a2 : _} {a3 : _} {a4 : _} {a5 : _} : (State.ledger s a1 a2 a3 a4 a5).sec.face = s.sec.face :=
  (State.ledger_keeps (M := 1572864) rfl (Keeps.refl _ _)).1 .secFace rfl
theorem State.ledger_repairFace {s : State} {a1 : _} {a2 : _} {a3 : _} {a4 : _} {a5 : _} : (State.ledger s a1 a2 a3 a4 a5).repair.face = s.repair.face :=
  (State.ledger_keeps (M := 1572864) rfl (Keeps.refl _ _)).1 .repairFace rfl

/-! transmit -/

@[simp] theorem State.transmit_at_pending {s : State} {a1 : _} {a2 : _} {a3 : _} {a4 : _} : (State.transmit s a1 a2 a3 a4).pending = s.pending :=
  (State.transmit_keeps (M := 4194308) rfl (Keeps.refl _ _)).1 .pending rfl
@[simp] theorem State.transmit_at_dict {s : State} {a1 : _} {a2 : _} {a3 : _} {a4 : _} : (State.transmit s a1 a2 a3 a4).dict = s.dict :=
  (State.transmit_keeps (M := 4194308) rfl (Keeps.refl _ _)).1 .dict rfl
@[simp] theorem State.transmit_at_stalls {s : State} {a1 : _} {a2 : _} {a3 : _} {a4 : _} : (State.transmit s a1 a2 a3 a4).stalls = s.stalls :=
  (State.transmit_keeps (M := 4194308) rfl (Keeps.refl _ _)).1 .stalls rfl
@[simp] theorem State.transmit_at_shapers {s : State} {a1 : _} {a2 : _} {a3 : _} {a4 : _} : (State.transmit s a1 a2 a3 a4).shapers = s.shapers :=
  (State.transmit_keeps (M := 4194308) rfl (Keeps.refl _ _)).1 .shapers rfl
@[simp] theorem State.transmit_at_pitch {s : State} {a1 : _} {a2 : _} {a3 : _} {a4 : _} : (State.transmit s a1 a2 a3 a4).pitch = s.pitch :=
  (State.transmit_keeps (M := 4194308) rfl (Keeps.refl _ _)).1 .pitch rfl
@[simp] theorem State.transmit_at_slices {s : State} {a1 : _} {a2 : _} {a3 : _} {a4 : _} : (State.transmit s a1 a2 a3 a4).slices = s.slices :=
  (State.transmit_keeps (M := 4194308) rfl (Keeps.refl _ _)).1 .slices rfl
@[simp] theorem State.transmit_at_chans {s : State} {a1 : _} {a2 : _} {a3 : _} {a4 : _} : (State.transmit s a1 a2 a3 a4).chans = s.chans :=
  (State.transmit_keeps (M := 4194308) rfl (Keeps.refl _ _)).1 .chans rfl
@[simp] theorem State.transmit_at_snoops {s : State} {a1 : _} {a2 : _} {a3 : _} {a4 : _} : (State.transmit s a1 a2 a3 a4).snoops = s.snoops :=
  (State.transmit_keeps (M := 4194308) rfl (Keeps.refl _ _)).1 .snoops rfl
@[simp] theorem State.transmit_at_nextTag {s : State} {a1 : _} {a2 : _} {a3 : _} {a4 : _} : (State.transmit s a1 a2 a3 a4).nextTag = s.nextTag :=
  (State.transmit_keeps (M := 4194308) rfl (Keeps.refl _ _)).1 .nextTag rfl
@[simp] theorem State.transmit_at_barrows {s : State} {a1 : _} {a2 : _} {a3 : _} {a4 : _} : (State.transmit s a1 a2 a3 a4).barrows = s.barrows :=
  (State.transmit_keeps (M := 4194308) rfl (Keeps.refl _ _)).1 .barrows rfl
@[simp] theorem State.transmit_at_seeds {s : State} {a1 : _} {a2 : _} {a3 : _} {a4 : _} : (State.transmit s a1 a2 a3 a4).seeds = s.seeds :=
  (State.transmit_keeps (M := 4194308) rfl (Keeps.refl _ _)).1 .seeds rfl
@[simp] theorem State.transmit_at_trees {s : State} {a1 : _} {a2 : _} {a3 : _} {a4 : _} : (State.transmit s a1 a2 a3 a4).trees = s.trees :=
  (State.transmit_keeps (M := 4194308) rfl (Keeps.refl _ _)).1 .trees rfl
@[simp] theorem State.transmit_at_pushes {s : State} {a1 : _} {a2 : _} {a3 : _} {a4 : _} : (State.transmit s a1 a2 a3 a4).pushes = s.pushes :=
  (State.transmit_keeps (M := 4194308) rfl (Keeps.refl _ _)).1 .pushes rfl
@[simp] theorem State.transmit_at_time {s : State} {a1 : _} {a2 : _} {a3 : _} {a4 : _} : (State.transmit s a1 a2 a3 a4).time = s.time :=
  (State.transmit_keeps (M := 4194308) rfl (Keeps.refl _ _)).1 .time rfl
@[simp] theorem State.transmit_at_gates {s : State} {a1 : _} {a2 : _} {a3 : _} {a4 : _} : (State.transmit s a1 a2 a3 a4).gates = s.gates :=
  (State.transmit_keeps (M := 4194308) rfl (Keeps.refl _ _)).1 .gates rfl
@[simp] theorem State.transmit_at_xbar {s : State} {a1 : _} {a2 : _} {a3 : _} {a4 : _} : (State.transmit s a1 a2 a3 a4).xbar = s.xbar :=
  (State.transmit_keeps (M := 4194308) rfl (Keeps.refl _ _)).1 .xbar rfl
@[simp] theorem State.transmit_at_checker {s : State} {a1 : _} {a2 : _} {a3 : _} {a4 : _} : (State.transmit s a1 a2 a3 a4).checker = s.checker :=
  (State.transmit_keeps (M := 4194308) rfl (Keeps.refl _ _)).1 .checker rfl
@[simp] theorem State.transmit_at_pair {s : State} {a1 : _} {a2 : _} {a3 : _} {a4 : _} : (State.transmit s a1 a2 a3 a4).pair = s.pair :=
  (State.transmit_keeps (M := 4194308) rfl (Keeps.refl _ _)).1 .pair rfl
@[simp] theorem State.transmit_at_repair {s : State} {a1 : _} {a2 : _} {a3 : _} {a4 : _} : (State.transmit s a1 a2 a3 a4).repair = s.repair :=
  (State.transmit_keeps (M := 4194308) rfl (Keeps.refl _ _)).1 .repair rfl
@[simp] theorem State.transmit_at_sec {s : State} {a1 : _} {a2 : _} {a3 : _} {a4 : _} : (State.transmit s a1 a2 a3 a4).sec = s.sec :=
  (State.transmit_keeps (M := 4194308) rfl (Keeps.refl _ _)).1 .sec rfl
@[simp] theorem State.transmit_at_mgmt {s : State} {a1 : _} {a2 : _} {a3 : _} {a4 : _} : (State.transmit s a1 a2 a3 a4).mgmt = s.mgmt :=
  (State.transmit_keeps (M := 4194308) rfl (Keeps.refl _ _)).1 .mgmt rfl
@[simp] theorem State.transmit_at_power {s : State} {a1 : _} {a2 : _} {a3 : _} {a4 : _} : (State.transmit s a1 a2 a3 a4).power = s.power :=
  (State.transmit_keeps (M := 4194308) rfl (Keeps.refl _ _)).1 .power rfl
@[simp] theorem State.transmit_at_clock {s : State} {a1 : _} {a2 : _} {a3 : _} {a4 : _} : (State.transmit s a1 a2 a3 a4).clock = s.clock :=
  (State.transmit_keeps (M := 4194308) rfl (Keeps.refl _ _)).1 .clock rfl
@[simp] theorem State.transmit_at_boot {s : State} {a1 : _} {a2 : _} {a3 : _} {a4 : _} : (State.transmit s a1 a2 a3 a4).boot = s.boot :=
  (State.transmit_keeps (M := 4194308) rfl (Keeps.refl _ _)).1 .boot rfl
@[simp] theorem State.transmit_at_orphanRun {s : State} {a1 : _} {a2 : _} {a3 : _} {a4 : _} : (State.transmit s a1 a2 a3 a4).orphanRun = s.orphanRun :=
  (State.transmit_keeps (M := 4194308) rfl (Keeps.refl _ _)).1 .orphanRun rfl
@[simp] theorem State.transmit_at_free {s : State} {a1 : _} {a2 : _} {a3 : _} {a4 : _} : (State.transmit s a1 a2 a3 a4).free = s.free :=
  (State.transmit_keeps (M := 4194308) rfl (Keeps.refl _ _)).1 .free rfl
@[simp] theorem State.transmit_at_stall {s : State} {a1 : _} {a2 : _} {a3 : _} {a4 : _} (j : Nat) : (State.transmit s a1 a2 a3 a4).stall j = s.stall j := by
  simp only [State.stall, State.transmit_at_stalls]
@[simp] theorem State.transmit_at_slice {s : State} {a1 : _} {a2 : _} {a3 : _} {a4 : _} (j : Nat) : (State.transmit s a1 a2 a3 a4).slice j = s.slice j := by
  simp only [State.slice, State.transmit_at_slices]
@[simp] theorem State.transmit_at_chan {s : State} {a1 : _} {a2 : _} {a3 : _} {a4 : _} (j : Nat) : (State.transmit s a1 a2 a3 a4).chan j = s.chan j := by
  simp only [State.chan, State.transmit_at_chans]
@[simp] theorem State.transmit_at_barrow {s : State} {a1 : _} {a2 : _} {a3 : _} {a4 : _} (j : Nat) : (State.transmit s a1 a2 a3 a4).barrow j = s.barrow j := by
  simp only [State.barrow, State.transmit_at_barrows]
@[simp] theorem State.transmit_at_tree {s : State} {a1 : _} {a2 : _} {a3 : _} {a4 : _} (j : Nat) : (State.transmit s a1 a2 a3 a4).tree j = s.tree j := by
  simp only [State.tree, State.transmit_at_trees]
@[simp] theorem State.transmit_at_key {s : State} {a1 : _} {a2 : _} {a3 : _} {a4 : _} (j : Nat) : (State.transmit s a1 a2 a3 a4).key j = s.key j := by
  simp only [State.key, State.transmit_at_sec]
@[simp] theorem State.transmit_at_tenant {s : State} {a1 : _} {a2 : _} {a3 : _} {a4 : _} (j : Nat) : (State.transmit s a1 a2 a3 a4).tenant j = s.tenant j := by
  simp only [State.tenant, State.transmit_at_sec]
@[simp] theorem State.transmit_at_granule {s : State} {a1 : _} {a2 : _} {a3 : _} {a4 : _} (j : Nat) : (State.transmit s a1 a2 a3 a4).granule j = s.granule j := by
  simp only [State.granule, State.transmit_at_pitch]
@[simp] theorem State.transmit_at_revoke {s : State} {a1 : _} {a2 : _} {a3 : _} {a4 : _} (j : Nat) : (State.transmit s a1 a2 a3 a4).revoke j = s.revoke j := by
  simp only [State.revoke, State.transmit_at_pitch]
@[simp] theorem State.transmit_at_shaper {s : State} {a1 : _} {a2 : _} {a3 : _} {a4 : _} (j : Nat) : (State.transmit s a1 a2 a3 a4).shaper j = s.shaper j := by
  simp only [State.shaper, State.transmit_at_shapers]
@[simp] theorem State.transmit_at_profile {s : State} {a1 : _} {a2 : _} {a3 : _} {a4 : _} (j : Nat) : (State.transmit s a1 a2 a3 a4).profile j = s.profile j := by
  simp only [State.profile, State.transmit_at_mgmt]
@[simp] theorem State.transmit_at_reg {s : State} {a1 : _} {a2 : _} {a3 : _} {a4 : _} (j : Nat) : (State.transmit s a1 a2 a3 a4).reg j = s.reg j := by
  simp only [State.reg, State.transmit_at_dict]
theorem State.transmit_linkFace {s : State} {a1 : _} {a2 : _} {a3 : _} {a4 : _} (j : Nat) : ((State.transmit s a1 a2 a3 a4).link j).face = (s.link j).face :=
  (State.transmit_keeps (M := 4194308) rfl (Keeps.refl _ _)).1 .linkFace rfl j

/-! spray -/

@[simp] theorem State.spray_at_pending {s : State} {a1 : _} {a2 : _} {a3 : _} {a4 : _} : (State.spray s a1 a2 a3 a4).1.pending = s.pending :=
  (State.spray_keeps (M := 4259852) rfl (Keeps.refl _ _)).1 .pending rfl
@[simp] theorem State.spray_at_dict {s : State} {a1 : _} {a2 : _} {a3 : _} {a4 : _} : (State.spray s a1 a2 a3 a4).1.dict = s.dict :=
  (State.spray_keeps (M := 4259852) rfl (Keeps.refl _ _)).1 .dict rfl
@[simp] theorem State.spray_at_shapers {s : State} {a1 : _} {a2 : _} {a3 : _} {a4 : _} : (State.spray s a1 a2 a3 a4).1.shapers = s.shapers :=
  (State.spray_keeps (M := 4259852) rfl (Keeps.refl _ _)).1 .shapers rfl
@[simp] theorem State.spray_at_pitch {s : State} {a1 : _} {a2 : _} {a3 : _} {a4 : _} : (State.spray s a1 a2 a3 a4).1.pitch = s.pitch :=
  (State.spray_keeps (M := 4259852) rfl (Keeps.refl _ _)).1 .pitch rfl
@[simp] theorem State.spray_at_slices {s : State} {a1 : _} {a2 : _} {a3 : _} {a4 : _} : (State.spray s a1 a2 a3 a4).1.slices = s.slices :=
  (State.spray_keeps (M := 4259852) rfl (Keeps.refl _ _)).1 .slices rfl
@[simp] theorem State.spray_at_chans {s : State} {a1 : _} {a2 : _} {a3 : _} {a4 : _} : (State.spray s a1 a2 a3 a4).1.chans = s.chans :=
  (State.spray_keeps (M := 4259852) rfl (Keeps.refl _ _)).1 .chans rfl
@[simp] theorem State.spray_at_snoops {s : State} {a1 : _} {a2 : _} {a3 : _} {a4 : _} : (State.spray s a1 a2 a3 a4).1.snoops = s.snoops :=
  (State.spray_keeps (M := 4259852) rfl (Keeps.refl _ _)).1 .snoops rfl
@[simp] theorem State.spray_at_nextTag {s : State} {a1 : _} {a2 : _} {a3 : _} {a4 : _} : (State.spray s a1 a2 a3 a4).1.nextTag = s.nextTag :=
  (State.spray_keeps (M := 4259852) rfl (Keeps.refl _ _)).1 .nextTag rfl
@[simp] theorem State.spray_at_barrows {s : State} {a1 : _} {a2 : _} {a3 : _} {a4 : _} : (State.spray s a1 a2 a3 a4).1.barrows = s.barrows :=
  (State.spray_keeps (M := 4259852) rfl (Keeps.refl _ _)).1 .barrows rfl
@[simp] theorem State.spray_at_seeds {s : State} {a1 : _} {a2 : _} {a3 : _} {a4 : _} : (State.spray s a1 a2 a3 a4).1.seeds = s.seeds :=
  (State.spray_keeps (M := 4259852) rfl (Keeps.refl _ _)).1 .seeds rfl
@[simp] theorem State.spray_at_trees {s : State} {a1 : _} {a2 : _} {a3 : _} {a4 : _} : (State.spray s a1 a2 a3 a4).1.trees = s.trees :=
  (State.spray_keeps (M := 4259852) rfl (Keeps.refl _ _)).1 .trees rfl
@[simp] theorem State.spray_at_pushes {s : State} {a1 : _} {a2 : _} {a3 : _} {a4 : _} : (State.spray s a1 a2 a3 a4).1.pushes = s.pushes :=
  (State.spray_keeps (M := 4259852) rfl (Keeps.refl _ _)).1 .pushes rfl
@[simp] theorem State.spray_at_time {s : State} {a1 : _} {a2 : _} {a3 : _} {a4 : _} : (State.spray s a1 a2 a3 a4).1.time = s.time :=
  (State.spray_keeps (M := 4259852) rfl (Keeps.refl _ _)).1 .time rfl
@[simp] theorem State.spray_at_gates {s : State} {a1 : _} {a2 : _} {a3 : _} {a4 : _} : (State.spray s a1 a2 a3 a4).1.gates = s.gates :=
  (State.spray_keeps (M := 4259852) rfl (Keeps.refl _ _)).1 .gates rfl
@[simp] theorem State.spray_at_checker {s : State} {a1 : _} {a2 : _} {a3 : _} {a4 : _} : (State.spray s a1 a2 a3 a4).1.checker = s.checker :=
  (State.spray_keeps (M := 4259852) rfl (Keeps.refl _ _)).1 .checker rfl
@[simp] theorem State.spray_at_pair {s : State} {a1 : _} {a2 : _} {a3 : _} {a4 : _} : (State.spray s a1 a2 a3 a4).1.pair = s.pair :=
  (State.spray_keeps (M := 4259852) rfl (Keeps.refl _ _)).1 .pair rfl
@[simp] theorem State.spray_at_repair {s : State} {a1 : _} {a2 : _} {a3 : _} {a4 : _} : (State.spray s a1 a2 a3 a4).1.repair = s.repair :=
  (State.spray_keeps (M := 4259852) rfl (Keeps.refl _ _)).1 .repair rfl
@[simp] theorem State.spray_at_sec {s : State} {a1 : _} {a2 : _} {a3 : _} {a4 : _} : (State.spray s a1 a2 a3 a4).1.sec = s.sec :=
  (State.spray_keeps (M := 4259852) rfl (Keeps.refl _ _)).1 .sec rfl
@[simp] theorem State.spray_at_mgmt {s : State} {a1 : _} {a2 : _} {a3 : _} {a4 : _} : (State.spray s a1 a2 a3 a4).1.mgmt = s.mgmt :=
  (State.spray_keeps (M := 4259852) rfl (Keeps.refl _ _)).1 .mgmt rfl
@[simp] theorem State.spray_at_power {s : State} {a1 : _} {a2 : _} {a3 : _} {a4 : _} : (State.spray s a1 a2 a3 a4).1.power = s.power :=
  (State.spray_keeps (M := 4259852) rfl (Keeps.refl _ _)).1 .power rfl
@[simp] theorem State.spray_at_clock {s : State} {a1 : _} {a2 : _} {a3 : _} {a4 : _} : (State.spray s a1 a2 a3 a4).1.clock = s.clock :=
  (State.spray_keeps (M := 4259852) rfl (Keeps.refl _ _)).1 .clock rfl
@[simp] theorem State.spray_at_boot {s : State} {a1 : _} {a2 : _} {a3 : _} {a4 : _} : (State.spray s a1 a2 a3 a4).1.boot = s.boot :=
  (State.spray_keeps (M := 4259852) rfl (Keeps.refl _ _)).1 .boot rfl
@[simp] theorem State.spray_at_orphanRun {s : State} {a1 : _} {a2 : _} {a3 : _} {a4 : _} : (State.spray s a1 a2 a3 a4).1.orphanRun = s.orphanRun :=
  (State.spray_keeps (M := 4259852) rfl (Keeps.refl _ _)).1 .orphanRun rfl
@[simp] theorem State.spray_at_free {s : State} {a1 : _} {a2 : _} {a3 : _} {a4 : _} : (State.spray s a1 a2 a3 a4).1.free = s.free :=
  (State.spray_keeps (M := 4259852) rfl (Keeps.refl _ _)).1 .free rfl
@[simp] theorem State.spray_at_slice {s : State} {a1 : _} {a2 : _} {a3 : _} {a4 : _} (j : Nat) : (State.spray s a1 a2 a3 a4).1.slice j = s.slice j := by
  simp only [State.slice, State.spray_at_slices]
@[simp] theorem State.spray_at_chan {s : State} {a1 : _} {a2 : _} {a3 : _} {a4 : _} (j : Nat) : (State.spray s a1 a2 a3 a4).1.chan j = s.chan j := by
  simp only [State.chan, State.spray_at_chans]
@[simp] theorem State.spray_at_barrow {s : State} {a1 : _} {a2 : _} {a3 : _} {a4 : _} (j : Nat) : (State.spray s a1 a2 a3 a4).1.barrow j = s.barrow j := by
  simp only [State.barrow, State.spray_at_barrows]
@[simp] theorem State.spray_at_tree {s : State} {a1 : _} {a2 : _} {a3 : _} {a4 : _} (j : Nat) : (State.spray s a1 a2 a3 a4).1.tree j = s.tree j := by
  simp only [State.tree, State.spray_at_trees]
@[simp] theorem State.spray_at_key {s : State} {a1 : _} {a2 : _} {a3 : _} {a4 : _} (j : Nat) : (State.spray s a1 a2 a3 a4).1.key j = s.key j := by
  simp only [State.key, State.spray_at_sec]
@[simp] theorem State.spray_at_tenant {s : State} {a1 : _} {a2 : _} {a3 : _} {a4 : _} (j : Nat) : (State.spray s a1 a2 a3 a4).1.tenant j = s.tenant j := by
  simp only [State.tenant, State.spray_at_sec]
@[simp] theorem State.spray_at_granule {s : State} {a1 : _} {a2 : _} {a3 : _} {a4 : _} (j : Nat) : (State.spray s a1 a2 a3 a4).1.granule j = s.granule j := by
  simp only [State.granule, State.spray_at_pitch]
@[simp] theorem State.spray_at_revoke {s : State} {a1 : _} {a2 : _} {a3 : _} {a4 : _} (j : Nat) : (State.spray s a1 a2 a3 a4).1.revoke j = s.revoke j := by
  simp only [State.revoke, State.spray_at_pitch]
@[simp] theorem State.spray_at_shaper {s : State} {a1 : _} {a2 : _} {a3 : _} {a4 : _} (j : Nat) : (State.spray s a1 a2 a3 a4).1.shaper j = s.shaper j := by
  simp only [State.shaper, State.spray_at_shapers]
@[simp] theorem State.spray_at_profile {s : State} {a1 : _} {a2 : _} {a3 : _} {a4 : _} (j : Nat) : (State.spray s a1 a2 a3 a4).1.profile j = s.profile j := by
  simp only [State.profile, State.spray_at_mgmt]
@[simp] theorem State.spray_at_reg {s : State} {a1 : _} {a2 : _} {a3 : _} {a4 : _} (j : Nat) : (State.spray s a1 a2 a3 a4).1.reg j = s.reg j := by
  simp only [State.reg, State.spray_at_dict]
theorem State.spray_linkFace {s : State} {a1 : _} {a2 : _} {a3 : _} {a4 : _} (j : Nat) : ((State.spray s a1 a2 a3 a4).1.link j).face = (s.link j).face :=
  (State.spray_keeps (M := 4259852) rfl (Keeps.refl _ _)).1 .linkFace rfl j
theorem State.spray_stallFace {s : State} {a1 : _} {a2 : _} {a3 : _} {a4 : _} (j : Nat) : ((State.spray s a1 a2 a3 a4).1.stall j).face = (s.stall j).face :=
  (State.spray_keeps (M := 4259852) rfl (Keeps.refl _ _)).1 .stallFace rfl j

/-! sendMgmt -/

@[simp] theorem State.sendMgmt_at_pending {s : State} {a1 : _} {a2 : _} : (State.sendMgmt s a1 a2).pending = s.pending :=
  (State.sendMgmt_keeps (M := 4259852) rfl (Keeps.refl _ _)).1 .pending rfl
@[simp] theorem State.sendMgmt_at_dict {s : State} {a1 : _} {a2 : _} : (State.sendMgmt s a1 a2).dict = s.dict :=
  (State.sendMgmt_keeps (M := 4259852) rfl (Keeps.refl _ _)).1 .dict rfl
@[simp] theorem State.sendMgmt_at_shapers {s : State} {a1 : _} {a2 : _} : (State.sendMgmt s a1 a2).shapers = s.shapers :=
  (State.sendMgmt_keeps (M := 4259852) rfl (Keeps.refl _ _)).1 .shapers rfl
@[simp] theorem State.sendMgmt_at_pitch {s : State} {a1 : _} {a2 : _} : (State.sendMgmt s a1 a2).pitch = s.pitch :=
  (State.sendMgmt_keeps (M := 4259852) rfl (Keeps.refl _ _)).1 .pitch rfl
@[simp] theorem State.sendMgmt_at_slices {s : State} {a1 : _} {a2 : _} : (State.sendMgmt s a1 a2).slices = s.slices :=
  (State.sendMgmt_keeps (M := 4259852) rfl (Keeps.refl _ _)).1 .slices rfl
@[simp] theorem State.sendMgmt_at_chans {s : State} {a1 : _} {a2 : _} : (State.sendMgmt s a1 a2).chans = s.chans :=
  (State.sendMgmt_keeps (M := 4259852) rfl (Keeps.refl _ _)).1 .chans rfl
@[simp] theorem State.sendMgmt_at_snoops {s : State} {a1 : _} {a2 : _} : (State.sendMgmt s a1 a2).snoops = s.snoops :=
  (State.sendMgmt_keeps (M := 4259852) rfl (Keeps.refl _ _)).1 .snoops rfl
@[simp] theorem State.sendMgmt_at_nextTag {s : State} {a1 : _} {a2 : _} : (State.sendMgmt s a1 a2).nextTag = s.nextTag :=
  (State.sendMgmt_keeps (M := 4259852) rfl (Keeps.refl _ _)).1 .nextTag rfl
@[simp] theorem State.sendMgmt_at_barrows {s : State} {a1 : _} {a2 : _} : (State.sendMgmt s a1 a2).barrows = s.barrows :=
  (State.sendMgmt_keeps (M := 4259852) rfl (Keeps.refl _ _)).1 .barrows rfl
@[simp] theorem State.sendMgmt_at_seeds {s : State} {a1 : _} {a2 : _} : (State.sendMgmt s a1 a2).seeds = s.seeds :=
  (State.sendMgmt_keeps (M := 4259852) rfl (Keeps.refl _ _)).1 .seeds rfl
@[simp] theorem State.sendMgmt_at_trees {s : State} {a1 : _} {a2 : _} : (State.sendMgmt s a1 a2).trees = s.trees :=
  (State.sendMgmt_keeps (M := 4259852) rfl (Keeps.refl _ _)).1 .trees rfl
@[simp] theorem State.sendMgmt_at_pushes {s : State} {a1 : _} {a2 : _} : (State.sendMgmt s a1 a2).pushes = s.pushes :=
  (State.sendMgmt_keeps (M := 4259852) rfl (Keeps.refl _ _)).1 .pushes rfl
@[simp] theorem State.sendMgmt_at_time {s : State} {a1 : _} {a2 : _} : (State.sendMgmt s a1 a2).time = s.time :=
  (State.sendMgmt_keeps (M := 4259852) rfl (Keeps.refl _ _)).1 .time rfl
@[simp] theorem State.sendMgmt_at_gates {s : State} {a1 : _} {a2 : _} : (State.sendMgmt s a1 a2).gates = s.gates :=
  (State.sendMgmt_keeps (M := 4259852) rfl (Keeps.refl _ _)).1 .gates rfl
@[simp] theorem State.sendMgmt_at_checker {s : State} {a1 : _} {a2 : _} : (State.sendMgmt s a1 a2).checker = s.checker :=
  (State.sendMgmt_keeps (M := 4259852) rfl (Keeps.refl _ _)).1 .checker rfl
@[simp] theorem State.sendMgmt_at_pair {s : State} {a1 : _} {a2 : _} : (State.sendMgmt s a1 a2).pair = s.pair :=
  (State.sendMgmt_keeps (M := 4259852) rfl (Keeps.refl _ _)).1 .pair rfl
@[simp] theorem State.sendMgmt_at_repair {s : State} {a1 : _} {a2 : _} : (State.sendMgmt s a1 a2).repair = s.repair :=
  (State.sendMgmt_keeps (M := 4259852) rfl (Keeps.refl _ _)).1 .repair rfl
@[simp] theorem State.sendMgmt_at_sec {s : State} {a1 : _} {a2 : _} : (State.sendMgmt s a1 a2).sec = s.sec :=
  (State.sendMgmt_keeps (M := 4259852) rfl (Keeps.refl _ _)).1 .sec rfl
@[simp] theorem State.sendMgmt_at_mgmt {s : State} {a1 : _} {a2 : _} : (State.sendMgmt s a1 a2).mgmt = s.mgmt :=
  (State.sendMgmt_keeps (M := 4259852) rfl (Keeps.refl _ _)).1 .mgmt rfl
@[simp] theorem State.sendMgmt_at_power {s : State} {a1 : _} {a2 : _} : (State.sendMgmt s a1 a2).power = s.power :=
  (State.sendMgmt_keeps (M := 4259852) rfl (Keeps.refl _ _)).1 .power rfl
@[simp] theorem State.sendMgmt_at_clock {s : State} {a1 : _} {a2 : _} : (State.sendMgmt s a1 a2).clock = s.clock :=
  (State.sendMgmt_keeps (M := 4259852) rfl (Keeps.refl _ _)).1 .clock rfl
@[simp] theorem State.sendMgmt_at_boot {s : State} {a1 : _} {a2 : _} : (State.sendMgmt s a1 a2).boot = s.boot :=
  (State.sendMgmt_keeps (M := 4259852) rfl (Keeps.refl _ _)).1 .boot rfl
@[simp] theorem State.sendMgmt_at_orphanRun {s : State} {a1 : _} {a2 : _} : (State.sendMgmt s a1 a2).orphanRun = s.orphanRun :=
  (State.sendMgmt_keeps (M := 4259852) rfl (Keeps.refl _ _)).1 .orphanRun rfl
@[simp] theorem State.sendMgmt_at_free {s : State} {a1 : _} {a2 : _} : (State.sendMgmt s a1 a2).free = s.free :=
  (State.sendMgmt_keeps (M := 4259852) rfl (Keeps.refl _ _)).1 .free rfl
@[simp] theorem State.sendMgmt_at_slice {s : State} {a1 : _} {a2 : _} (j : Nat) : (State.sendMgmt s a1 a2).slice j = s.slice j := by
  simp only [State.slice, State.sendMgmt_at_slices]
@[simp] theorem State.sendMgmt_at_chan {s : State} {a1 : _} {a2 : _} (j : Nat) : (State.sendMgmt s a1 a2).chan j = s.chan j := by
  simp only [State.chan, State.sendMgmt_at_chans]
@[simp] theorem State.sendMgmt_at_barrow {s : State} {a1 : _} {a2 : _} (j : Nat) : (State.sendMgmt s a1 a2).barrow j = s.barrow j := by
  simp only [State.barrow, State.sendMgmt_at_barrows]
@[simp] theorem State.sendMgmt_at_tree {s : State} {a1 : _} {a2 : _} (j : Nat) : (State.sendMgmt s a1 a2).tree j = s.tree j := by
  simp only [State.tree, State.sendMgmt_at_trees]
@[simp] theorem State.sendMgmt_at_key {s : State} {a1 : _} {a2 : _} (j : Nat) : (State.sendMgmt s a1 a2).key j = s.key j := by
  simp only [State.key, State.sendMgmt_at_sec]
@[simp] theorem State.sendMgmt_at_tenant {s : State} {a1 : _} {a2 : _} (j : Nat) : (State.sendMgmt s a1 a2).tenant j = s.tenant j := by
  simp only [State.tenant, State.sendMgmt_at_sec]
@[simp] theorem State.sendMgmt_at_granule {s : State} {a1 : _} {a2 : _} (j : Nat) : (State.sendMgmt s a1 a2).granule j = s.granule j := by
  simp only [State.granule, State.sendMgmt_at_pitch]
@[simp] theorem State.sendMgmt_at_revoke {s : State} {a1 : _} {a2 : _} (j : Nat) : (State.sendMgmt s a1 a2).revoke j = s.revoke j := by
  simp only [State.revoke, State.sendMgmt_at_pitch]
@[simp] theorem State.sendMgmt_at_shaper {s : State} {a1 : _} {a2 : _} (j : Nat) : (State.sendMgmt s a1 a2).shaper j = s.shaper j := by
  simp only [State.shaper, State.sendMgmt_at_shapers]
@[simp] theorem State.sendMgmt_at_profile {s : State} {a1 : _} {a2 : _} (j : Nat) : (State.sendMgmt s a1 a2).profile j = s.profile j := by
  simp only [State.profile, State.sendMgmt_at_mgmt]
@[simp] theorem State.sendMgmt_at_reg {s : State} {a1 : _} {a2 : _} (j : Nat) : (State.sendMgmt s a1 a2).reg j = s.reg j := by
  simp only [State.reg, State.sendMgmt_at_dict]
theorem State.sendMgmt_linkFace {s : State} {a1 : _} {a2 : _} (j : Nat) : ((State.sendMgmt s a1 a2).link j).face = (s.link j).face :=
  (State.sendMgmt_keeps (M := 4259852) rfl (Keeps.refl _ _)).1 .linkFace rfl j
theorem State.sendMgmt_stallFace {s : State} {a1 : _} {a2 : _} (j : Nat) : ((State.sendMgmt s a1 a2).stall j).face = (s.stall j).face :=
  (State.sendMgmt_keeps (M := 4259852) rfl (Keeps.refl _ _)).1 .stallFace rfl j

/-! hoist -/

@[simp] theorem State.hoist_at_pending {s : State} {a1 : _} {a2 : _} : (State.hoist s a1 a2).pending = s.pending :=
  (State.hoist_keeps (M := 4718600) rfl (Keeps.refl _ _)).1 .pending rfl
@[simp] theorem State.hoist_at_dict {s : State} {a1 : _} {a2 : _} : (State.hoist s a1 a2).dict = s.dict :=
  (State.hoist_keeps (M := 4718600) rfl (Keeps.refl _ _)).1 .dict rfl
@[simp] theorem State.hoist_at_links {s : State} {a1 : _} {a2 : _} : (State.hoist s a1 a2).links = s.links :=
  (State.hoist_keeps (M := 4718600) rfl (Keeps.refl _ _)).1 .links rfl
@[simp] theorem State.hoist_at_shapers {s : State} {a1 : _} {a2 : _} : (State.hoist s a1 a2).shapers = s.shapers :=
  (State.hoist_keeps (M := 4718600) rfl (Keeps.refl _ _)).1 .shapers rfl
@[simp] theorem State.hoist_at_pitch {s : State} {a1 : _} {a2 : _} : (State.hoist s a1 a2).pitch = s.pitch :=
  (State.hoist_keeps (M := 4718600) rfl (Keeps.refl _ _)).1 .pitch rfl
@[simp] theorem State.hoist_at_slices {s : State} {a1 : _} {a2 : _} : (State.hoist s a1 a2).slices = s.slices :=
  (State.hoist_keeps (M := 4718600) rfl (Keeps.refl _ _)).1 .slices rfl
@[simp] theorem State.hoist_at_chans {s : State} {a1 : _} {a2 : _} : (State.hoist s a1 a2).chans = s.chans :=
  (State.hoist_keeps (M := 4718600) rfl (Keeps.refl _ _)).1 .chans rfl
@[simp] theorem State.hoist_at_snoops {s : State} {a1 : _} {a2 : _} : (State.hoist s a1 a2).snoops = s.snoops :=
  (State.hoist_keeps (M := 4718600) rfl (Keeps.refl _ _)).1 .snoops rfl
@[simp] theorem State.hoist_at_nextTag {s : State} {a1 : _} {a2 : _} : (State.hoist s a1 a2).nextTag = s.nextTag :=
  (State.hoist_keeps (M := 4718600) rfl (Keeps.refl _ _)).1 .nextTag rfl
@[simp] theorem State.hoist_at_barrows {s : State} {a1 : _} {a2 : _} : (State.hoist s a1 a2).barrows = s.barrows :=
  (State.hoist_keeps (M := 4718600) rfl (Keeps.refl _ _)).1 .barrows rfl
@[simp] theorem State.hoist_at_seeds {s : State} {a1 : _} {a2 : _} : (State.hoist s a1 a2).seeds = s.seeds :=
  (State.hoist_keeps (M := 4718600) rfl (Keeps.refl _ _)).1 .seeds rfl
@[simp] theorem State.hoist_at_trees {s : State} {a1 : _} {a2 : _} : (State.hoist s a1 a2).trees = s.trees :=
  (State.hoist_keeps (M := 4718600) rfl (Keeps.refl _ _)).1 .trees rfl
@[simp] theorem State.hoist_at_pushes {s : State} {a1 : _} {a2 : _} : (State.hoist s a1 a2).pushes = s.pushes :=
  (State.hoist_keeps (M := 4718600) rfl (Keeps.refl _ _)).1 .pushes rfl
@[simp] theorem State.hoist_at_time {s : State} {a1 : _} {a2 : _} : (State.hoist s a1 a2).time = s.time :=
  (State.hoist_keeps (M := 4718600) rfl (Keeps.refl _ _)).1 .time rfl
@[simp] theorem State.hoist_at_gates {s : State} {a1 : _} {a2 : _} : (State.hoist s a1 a2).gates = s.gates :=
  (State.hoist_keeps (M := 4718600) rfl (Keeps.refl _ _)).1 .gates rfl
@[simp] theorem State.hoist_at_xbar {s : State} {a1 : _} {a2 : _} : (State.hoist s a1 a2).xbar = s.xbar :=
  (State.hoist_keeps (M := 4718600) rfl (Keeps.refl _ _)).1 .xbar rfl
@[simp] theorem State.hoist_at_checker {s : State} {a1 : _} {a2 : _} : (State.hoist s a1 a2).checker = s.checker :=
  (State.hoist_keeps (M := 4718600) rfl (Keeps.refl _ _)).1 .checker rfl
@[simp] theorem State.hoist_at_pair {s : State} {a1 : _} {a2 : _} : (State.hoist s a1 a2).pair = s.pair :=
  (State.hoist_keeps (M := 4718600) rfl (Keeps.refl _ _)).1 .pair rfl
@[simp] theorem State.hoist_at_sec {s : State} {a1 : _} {a2 : _} : (State.hoist s a1 a2).sec = s.sec :=
  (State.hoist_keeps (M := 4718600) rfl (Keeps.refl _ _)).1 .sec rfl
@[simp] theorem State.hoist_at_mgmt {s : State} {a1 : _} {a2 : _} : (State.hoist s a1 a2).mgmt = s.mgmt :=
  (State.hoist_keeps (M := 4718600) rfl (Keeps.refl _ _)).1 .mgmt rfl
@[simp] theorem State.hoist_at_power {s : State} {a1 : _} {a2 : _} : (State.hoist s a1 a2).power = s.power :=
  (State.hoist_keeps (M := 4718600) rfl (Keeps.refl _ _)).1 .power rfl
@[simp] theorem State.hoist_at_clock {s : State} {a1 : _} {a2 : _} : (State.hoist s a1 a2).clock = s.clock :=
  (State.hoist_keeps (M := 4718600) rfl (Keeps.refl _ _)).1 .clock rfl
@[simp] theorem State.hoist_at_boot {s : State} {a1 : _} {a2 : _} : (State.hoist s a1 a2).boot = s.boot :=
  (State.hoist_keeps (M := 4718600) rfl (Keeps.refl _ _)).1 .boot rfl
@[simp] theorem State.hoist_at_orphanRun {s : State} {a1 : _} {a2 : _} : (State.hoist s a1 a2).orphanRun = s.orphanRun :=
  (State.hoist_keeps (M := 4718600) rfl (Keeps.refl _ _)).1 .orphanRun rfl
@[simp] theorem State.hoist_at_free {s : State} {a1 : _} {a2 : _} : (State.hoist s a1 a2).free = s.free :=
  (State.hoist_keeps (M := 4718600) rfl (Keeps.refl _ _)).1 .free rfl
@[simp] theorem State.hoist_at_link {s : State} {a1 : _} {a2 : _} (j : Nat) : (State.hoist s a1 a2).link j = s.link j := by
  simp only [State.link, State.hoist_at_links]
@[simp] theorem State.hoist_at_slice {s : State} {a1 : _} {a2 : _} (j : Nat) : (State.hoist s a1 a2).slice j = s.slice j := by
  simp only [State.slice, State.hoist_at_slices]
@[simp] theorem State.hoist_at_chan {s : State} {a1 : _} {a2 : _} (j : Nat) : (State.hoist s a1 a2).chan j = s.chan j := by
  simp only [State.chan, State.hoist_at_chans]
@[simp] theorem State.hoist_at_barrow {s : State} {a1 : _} {a2 : _} (j : Nat) : (State.hoist s a1 a2).barrow j = s.barrow j := by
  simp only [State.barrow, State.hoist_at_barrows]
@[simp] theorem State.hoist_at_tree {s : State} {a1 : _} {a2 : _} (j : Nat) : (State.hoist s a1 a2).tree j = s.tree j := by
  simp only [State.tree, State.hoist_at_trees]
@[simp] theorem State.hoist_at_key {s : State} {a1 : _} {a2 : _} (j : Nat) : (State.hoist s a1 a2).key j = s.key j := by
  simp only [State.key, State.hoist_at_sec]
@[simp] theorem State.hoist_at_tenant {s : State} {a1 : _} {a2 : _} (j : Nat) : (State.hoist s a1 a2).tenant j = s.tenant j := by
  simp only [State.tenant, State.hoist_at_sec]
@[simp] theorem State.hoist_at_granule {s : State} {a1 : _} {a2 : _} (j : Nat) : (State.hoist s a1 a2).granule j = s.granule j := by
  simp only [State.granule, State.hoist_at_pitch]
@[simp] theorem State.hoist_at_revoke {s : State} {a1 : _} {a2 : _} (j : Nat) : (State.hoist s a1 a2).revoke j = s.revoke j := by
  simp only [State.revoke, State.hoist_at_pitch]
@[simp] theorem State.hoist_at_shaper {s : State} {a1 : _} {a2 : _} (j : Nat) : (State.hoist s a1 a2).shaper j = s.shaper j := by
  simp only [State.shaper, State.hoist_at_shapers]
@[simp] theorem State.hoist_at_profile {s : State} {a1 : _} {a2 : _} (j : Nat) : (State.hoist s a1 a2).profile j = s.profile j := by
  simp only [State.profile, State.hoist_at_mgmt]
@[simp] theorem State.hoist_at_reg {s : State} {a1 : _} {a2 : _} (j : Nat) : (State.hoist s a1 a2).reg j = s.reg j := by
  simp only [State.reg, State.hoist_at_dict]
theorem State.hoist_stallFace {s : State} {a1 : _} {a2 : _} (j : Nat) : ((State.hoist s a1 a2).stall j).face = (s.stall j).face :=
  (State.hoist_keeps (M := 4718600) rfl (Keeps.refl _ _)).1 .stallFace rfl j
theorem State.hoist_repairFace {s : State} {a1 : _} {a2 : _} : (State.hoist s a1 a2).repair.face = s.repair.face :=
  (State.hoist_keeps (M := 4718600) rfl (Keeps.refl _ _)).1 .repairFace rfl

/-! wakeSlice -/

@[simp] theorem State.wakeSlice_at_pending {s : State} {a1 : _} : (State.wakeSlice s a1).pending = s.pending :=
  (State.wakeSlice_keeps (M := 20971584) rfl (Keeps.refl _ _)).1 .pending rfl
@[simp] theorem State.wakeSlice_at_dict {s : State} {a1 : _} : (State.wakeSlice s a1).dict = s.dict :=
  (State.wakeSlice_keeps (M := 20971584) rfl (Keeps.refl _ _)).1 .dict rfl
@[simp] theorem State.wakeSlice_at_links {s : State} {a1 : _} : (State.wakeSlice s a1).links = s.links :=
  (State.wakeSlice_keeps (M := 20971584) rfl (Keeps.refl _ _)).1 .links rfl
@[simp] theorem State.wakeSlice_at_stalls {s : State} {a1 : _} : (State.wakeSlice s a1).stalls = s.stalls :=
  (State.wakeSlice_keeps (M := 20971584) rfl (Keeps.refl _ _)).1 .stalls rfl
@[simp] theorem State.wakeSlice_at_shapers {s : State} {a1 : _} : (State.wakeSlice s a1).shapers = s.shapers :=
  (State.wakeSlice_keeps (M := 20971584) rfl (Keeps.refl _ _)).1 .shapers rfl
@[simp] theorem State.wakeSlice_at_pitch {s : State} {a1 : _} : (State.wakeSlice s a1).pitch = s.pitch :=
  (State.wakeSlice_keeps (M := 20971584) rfl (Keeps.refl _ _)).1 .pitch rfl
@[simp] theorem State.wakeSlice_at_chans {s : State} {a1 : _} : (State.wakeSlice s a1).chans = s.chans :=
  (State.wakeSlice_keeps (M := 20971584) rfl (Keeps.refl _ _)).1 .chans rfl
@[simp] theorem State.wakeSlice_at_snoops {s : State} {a1 : _} : (State.wakeSlice s a1).snoops = s.snoops :=
  (State.wakeSlice_keeps (M := 20971584) rfl (Keeps.refl _ _)).1 .snoops rfl
@[simp] theorem State.wakeSlice_at_nextTag {s : State} {a1 : _} : (State.wakeSlice s a1).nextTag = s.nextTag :=
  (State.wakeSlice_keeps (M := 20971584) rfl (Keeps.refl _ _)).1 .nextTag rfl
@[simp] theorem State.wakeSlice_at_barrows {s : State} {a1 : _} : (State.wakeSlice s a1).barrows = s.barrows :=
  (State.wakeSlice_keeps (M := 20971584) rfl (Keeps.refl _ _)).1 .barrows rfl
@[simp] theorem State.wakeSlice_at_seeds {s : State} {a1 : _} : (State.wakeSlice s a1).seeds = s.seeds :=
  (State.wakeSlice_keeps (M := 20971584) rfl (Keeps.refl _ _)).1 .seeds rfl
@[simp] theorem State.wakeSlice_at_trees {s : State} {a1 : _} : (State.wakeSlice s a1).trees = s.trees :=
  (State.wakeSlice_keeps (M := 20971584) rfl (Keeps.refl _ _)).1 .trees rfl
@[simp] theorem State.wakeSlice_at_pushes {s : State} {a1 : _} : (State.wakeSlice s a1).pushes = s.pushes :=
  (State.wakeSlice_keeps (M := 20971584) rfl (Keeps.refl _ _)).1 .pushes rfl
@[simp] theorem State.wakeSlice_at_time {s : State} {a1 : _} : (State.wakeSlice s a1).time = s.time :=
  (State.wakeSlice_keeps (M := 20971584) rfl (Keeps.refl _ _)).1 .time rfl
@[simp] theorem State.wakeSlice_at_gates {s : State} {a1 : _} : (State.wakeSlice s a1).gates = s.gates :=
  (State.wakeSlice_keeps (M := 20971584) rfl (Keeps.refl _ _)).1 .gates rfl
@[simp] theorem State.wakeSlice_at_xbar {s : State} {a1 : _} : (State.wakeSlice s a1).xbar = s.xbar :=
  (State.wakeSlice_keeps (M := 20971584) rfl (Keeps.refl _ _)).1 .xbar rfl
@[simp] theorem State.wakeSlice_at_checker {s : State} {a1 : _} : (State.wakeSlice s a1).checker = s.checker :=
  (State.wakeSlice_keeps (M := 20971584) rfl (Keeps.refl _ _)).1 .checker rfl
@[simp] theorem State.wakeSlice_at_pair {s : State} {a1 : _} : (State.wakeSlice s a1).pair = s.pair :=
  (State.wakeSlice_keeps (M := 20971584) rfl (Keeps.refl _ _)).1 .pair rfl
@[simp] theorem State.wakeSlice_at_repair {s : State} {a1 : _} : (State.wakeSlice s a1).repair = s.repair :=
  (State.wakeSlice_keeps (M := 20971584) rfl (Keeps.refl _ _)).1 .repair rfl
@[simp] theorem State.wakeSlice_at_sec {s : State} {a1 : _} : (State.wakeSlice s a1).sec = s.sec :=
  (State.wakeSlice_keeps (M := 20971584) rfl (Keeps.refl _ _)).1 .sec rfl
@[simp] theorem State.wakeSlice_at_mgmt {s : State} {a1 : _} : (State.wakeSlice s a1).mgmt = s.mgmt :=
  (State.wakeSlice_keeps (M := 20971584) rfl (Keeps.refl _ _)).1 .mgmt rfl
@[simp] theorem State.wakeSlice_at_power {s : State} {a1 : _} : (State.wakeSlice s a1).power = s.power :=
  (State.wakeSlice_keeps (M := 20971584) rfl (Keeps.refl _ _)).1 .power rfl
@[simp] theorem State.wakeSlice_at_boot {s : State} {a1 : _} : (State.wakeSlice s a1).boot = s.boot :=
  (State.wakeSlice_keeps (M := 20971584) rfl (Keeps.refl _ _)).1 .boot rfl
@[simp] theorem State.wakeSlice_at_orphanRun {s : State} {a1 : _} : (State.wakeSlice s a1).orphanRun = s.orphanRun :=
  (State.wakeSlice_keeps (M := 20971584) rfl (Keeps.refl _ _)).1 .orphanRun rfl
@[simp] theorem State.wakeSlice_at_free {s : State} {a1 : _} : (State.wakeSlice s a1).free = s.free :=
  (State.wakeSlice_keeps (M := 20971584) rfl (Keeps.refl _ _)).1 .free rfl
@[simp] theorem State.wakeSlice_at_link {s : State} {a1 : _} (j : Nat) : (State.wakeSlice s a1).link j = s.link j := by
  simp only [State.link, State.wakeSlice_at_links]
@[simp] theorem State.wakeSlice_at_stall {s : State} {a1 : _} (j : Nat) : (State.wakeSlice s a1).stall j = s.stall j := by
  simp only [State.stall, State.wakeSlice_at_stalls]
@[simp] theorem State.wakeSlice_at_chan {s : State} {a1 : _} (j : Nat) : (State.wakeSlice s a1).chan j = s.chan j := by
  simp only [State.chan, State.wakeSlice_at_chans]
@[simp] theorem State.wakeSlice_at_barrow {s : State} {a1 : _} (j : Nat) : (State.wakeSlice s a1).barrow j = s.barrow j := by
  simp only [State.barrow, State.wakeSlice_at_barrows]
@[simp] theorem State.wakeSlice_at_tree {s : State} {a1 : _} (j : Nat) : (State.wakeSlice s a1).tree j = s.tree j := by
  simp only [State.tree, State.wakeSlice_at_trees]
@[simp] theorem State.wakeSlice_at_key {s : State} {a1 : _} (j : Nat) : (State.wakeSlice s a1).key j = s.key j := by
  simp only [State.key, State.wakeSlice_at_sec]
@[simp] theorem State.wakeSlice_at_tenant {s : State} {a1 : _} (j : Nat) : (State.wakeSlice s a1).tenant j = s.tenant j := by
  simp only [State.tenant, State.wakeSlice_at_sec]
@[simp] theorem State.wakeSlice_at_granule {s : State} {a1 : _} (j : Nat) : (State.wakeSlice s a1).granule j = s.granule j := by
  simp only [State.granule, State.wakeSlice_at_pitch]
@[simp] theorem State.wakeSlice_at_revoke {s : State} {a1 : _} (j : Nat) : (State.wakeSlice s a1).revoke j = s.revoke j := by
  simp only [State.revoke, State.wakeSlice_at_pitch]
@[simp] theorem State.wakeSlice_at_shaper {s : State} {a1 : _} (j : Nat) : (State.wakeSlice s a1).shaper j = s.shaper j := by
  simp only [State.shaper, State.wakeSlice_at_shapers]
@[simp] theorem State.wakeSlice_at_profile {s : State} {a1 : _} (j : Nat) : (State.wakeSlice s a1).profile j = s.profile j := by
  simp only [State.profile, State.wakeSlice_at_mgmt]
@[simp] theorem State.wakeSlice_at_reg {s : State} {a1 : _} (j : Nat) : (State.wakeSlice s a1).reg j = s.reg j := by
  simp only [State.reg, State.wakeSlice_at_dict]

end Sys2Proof.Machine
end

