-- ==== Sys2Proof/Tests/Slice0.lean ====
section
/-! SUPPORT. Tests: ill-formed commands that WellFormed refuses, values worked in the spec, and for every statement states
and operands that meet its hypotheses. -/

namespace Sys2Proof.Tests

open Sys2Proof Sys2Proof.Machine

set_option Elab.async false

/-! ### States the tests start from -/

/-- A frame of MCTP session 0. -/
def fr : Frame := ⟨.mctp, 0, 0, 7, false, 0⟩

/-- A board that is READY, with that session established; no VALID PROVIDER is listed, so the session is a provider's. -/
def rdy : State := { State.reset with
  boot := { stage := .ready, step := .ready }
  sec := { State.reset.sec with spdm := [(16, { established := true })] } }

/-- A control block with a right CCRC. -/
def ctl (ctype : BitVec 8) (ack : BitVec 16) (body : BitVec 176) : Ctl :=
  let c : Ctl := { ack := ack, resync := 0xFFFF, body := body, ccrc := 0 }
  { c with ccrc := crc32 (ctlBytes ctype c) }

/-- A packet of no payload with a right HCRC and CRC-32. -/
def pkt (seq : BitVec 16) : RxPacket :=
  let h := mkHdr 0 0 false 0 seq 0
  ⟨h, 5, [], crc32 (packetBytes h 5 [])⟩

/-- A packet that waits to be acknowledged. -/
def txp : TxPkt := ⟨0, 0, false, .hostPort, .hal 0 []⟩

/-- A link that is up at Waxon 1.2 with all capabilities, to host 5. -/
def upLink : LinkSt :=
  { phase := .up, mask := 15, passed := 15, version := 3, partner := 5, caps := 0xFFFFFFFF, allowedAtTrain := 7 }

/-- The READY board with link 47 so. -/
def onLink (l : LinkSt) : State := rdy.updLink 47 fun _ => l

/-- The READY board with an entry of the dictionary set. -/
def regAt (k v : Nat) : State := rdy.setReg k v

/-- A granule granted to tenant 1 under access list 0 and key slot 0. -/
def gran1 : PitchEntry := { phase := .granted, pitch := 1, tenant := 1, written := true }

/-- The READY board with host 5 attached as stall 2 over link 47, with every right to granule 0. -/
def hst : State :=
  let s := (onLink upLink).updStall 2 fun x => { x with phase := .attached, host := 5, caps := 15, linkSet := 2 ^ 47 }
  { s with
    pitch := { gran := 524288, table := [(0, gran1)], acl := [(0, ⟨true, true, true, true, 5⟩)] }
    sec := { s.sec with keys := [(0, { phase := .keyed, key1 := 1, key2 := 2, tenant := 1 })] } }

/-- The same board with granule 0 a coherent window. -/
def hstCoh : State := { hst with pitch := { hst.pitch with table := [(0, { gran1 with coherent := true })] } }

/-- A request of host 5 for tenant 1. -/
def req (len mod : Nat) (addr : PoolAddr) (payload : List Line) : Req :=
  ⟨47, 0, 5, 0, 1, 0, false, false, false, len, mod, addr, payload⟩

/-- A finished READ in slice 7. -/
def doneTrk : Trk := { newTrk 2 .read (req 1 0 0x7000 []) with stage := .done, id := 3 }

/-! ### Ill-formed commands -/

theorem test_wf_link : (Instr.linkUp 48).wf = false ∧ (Instr.linkUp 47).wf = true := by decide
theorem test_wf_lane : (Instr.laneSignalLoss 47 4).wf = false ∧ (Instr.laneSignalLoss 47 3).wf = true := by decide
theorem test_wf_slice : (Instr.migrateMoveStart 8).wf = false ∧ (Instr.migrateMoveStart 7).wf = true := by decide
theorem test_wf_stall : (Instr.hostDead 2048).wf = false ∧ (Instr.hostDead 2047).wf = true := by decide
theorem test_wf_channel : (Instr.dramCommandIssue 32).wf = false ∧ (Instr.dramCommandIssue 31).wf = true := by decide
theorem test_wf_barrow : (Instr.launchStart 4096).wf = false ∧ (Instr.launchStart 4095).wf = true := by decide
theorem test_wf_rail : (Instr.railFault 15).wf = false ∧ (Instr.railFault 14).wf = true := by decide
theorem test_wf_unit : (Instr.revokeDone 16).wf = false ∧ (Instr.revokeDone 15).wf = true := by decide
theorem test_wf_value : (Instr.grant fr 256).wf = false ∧ (Instr.grant fr 255).wf = true := by decide
theorem test_wf_rows : (Instr.aclTableWrite fr 1048575 [0, 0]).wf = false ∧ (Instr.aclTableWrite fr 1048575 [2 ^ 32]).wf = false ∧
    (Instr.aclTableWrite fr 1048575 [0]).wf = true := by decide
theorem test_wf_entry : (Instr.mgmtRead fr 65536 0).wf = false ∧ (Instr.mgmtRead fr 65535 256).wf = false ∧
    (Instr.mgmtRead fr 65535 255).wf = true := by decide
theorem test_wf_ack_ctype : (Instr.ackOnly 0 2 (ctl 2 0 0)).wf = false ∧ (Instr.ackOnly 0 10 (ctl 10 0 0)).wf = true := by
  decide +kernel
theorem test_wf_packet : (⟨0, 0, List.replicate 65 0, 0⟩ : RxPacket).wf = false ∧ (⟨0, 0, [0], 0⟩ : RxPacket).wf = false := by decide +kernel
theorem test_wf_request : (⟨0, 8, 0, 0, 0, 0, false, false, false, 1, 0, 0, []⟩ : Req).wf = false ∧
    (⟨0, 7, 4096, 0, 0, 0, false, false, false, 1, 0, 0, []⟩ : Req).wf = false ∧
    (⟨0, 7, 4095, 0, 255, 0, false, false, false, 127, 31, 0, []⟩ : Req).wf = true := by decide
theorem test_wf_answer : (⟨48, 0, 0, 0, 0, 0⟩ : HostResp).wf = false ∧ (⟨0, 4096, 0, 0, 0, 0⟩ : HostResp).wf = false := by decide
theorem test_wf_frame : (⟨.inband, 4096, 0, 0, false, 0⟩ : Frame).wf = false ∧ (⟨.inband, 0, 48, 0, false, 0⟩ : Frame).wf = false ∧
    fr.wf = true := by decide
theorem test_wf_halyard : (⟨48, 0, []⟩ : HalPkt).wf = false ∧ (⟨0, 0, List.replicate 65 0⟩ : HalPkt).wf = false := by decide +kernel
theorem test_wf_ptp : (⟨256, 0, 0, {}, false, 0, 0, 0⟩ : PtpMsg).wf = false ∧ (⟨0, 65536, 0, {}, false, 0, 0, 0⟩ : PtpMsg).wf = false ∧
    (⟨0, 0, 0, { priority1 := 256 }, false, 0, 0, 0⟩ : PtpMsg).wf = false := by decide
theorem test_wf_spdm : (⟨.inband, 0, 0, true, 0, false, 0, 0, true, 0, 0, true⟩ : SpdmMsg).wf = false ∧
    (⟨.mctp, 0, 0, true, 256, false, 0, 0, true, 0, 0, true⟩ : SpdmMsg).wf = false := by decide
theorem test_wf_training : (Instr.memoryTrainingDone [⟨32, 128, [], []⟩] []).wf = false ∧
    (Instr.memoryTrainingDone [⟨31, 128, [], []⟩] (List.replicate 9 [])).wf = false ∧
    (Instr.memoryTrainingDone [⟨31, 128, [], []⟩] (List.replicate 8 [])).wf = true := by decide
theorem test_wf_core : (Instr.traceRecord 4 0 0).wf = false ∧ (Instr.traceRecord 3 0 3).wf = false ∧
    (Instr.traceRecord 3 0 2).wf = true := by decide
theorem test_wf_crossbar : (Instr.crossbarGrant true 48).wf = false ∧ (Instr.crossbarGrant false 8).wf = false := by decide
theorem test_wf_measure : (Instr.pmbusPoll 0 false 65536 0).wf = false ∧ (Instr.freqMeasureDone (2 ^ 32)).wf = false := by decide
theorem test_wf_tree : (Instr.buntGo fr 256).wf = false ∧ (Instr.fence fr 65536).wf = false := by decide


/-! ### Witnesses: links -/

theorem wit_IdleStepsAreTicks_1 : State.reset.pending = [] ∧ State.reset.power.inputOn = true ∧
    ({ State.reset with power := { inputOn := false } } : State).power.inputOn = false := by decide

theorem wit_StepsKeepMemoryCanonical_1 : State.reset.memOk ∧ State.reset.sramOk ∧ ∃ t, step State.reset = .next t :=
  ⟨⟨rfl, fun _ => rfl⟩, rfl, State.reset.tick, rfl⟩

theorem wit_AcknowledgementReleasesPackets_1 :
    let s := onLink { upLink with unacked := [txp, txp], txSeq := 1 }
    (s.link 47).isUp = true ∧ ctlOk 1 (ctl 1 0 0) = true ∧ ctlOk 2 (ctl 2 0xFFFF 0) = true := by decide +kernel

/-- An uncorrectable error in one word of an SRAM. -/
def badWord (unit place word : Nat) (s : State) : State :=
  { s with repair := { s.repair with sram := [{ unit := unit, place := place, word := word, double := true }] } }

theorem wit_ReplayLimitTakesTheLinkDown_1 : let s := onLink { upLink with unacked := [txp], timerOn := true, expiries := 7 }
    (s.link 47).isUp = true ∧ (s.link 47).timerOn = true ∧ (s.link 47).unacked ≠ [] ∧
    s.reg kReplayLimit ≤ (s.link 47).expiries + 1 ∧ ((onLink { upLink with unacked := [txp] }).readReplay 47).2 = false := by
  decide +kernel
theorem wit_ReplayLimitTakesTheLinkDown_unread :
    let s := badWord 0x0A 47 0 (onLink { upLink with unacked := [txp], timerOn := true })
    (s.link 47).isUp = true ∧ (s.link 47).timerOn = true ∧ (s.link 47).unacked ≠ [] ∧
    (s.link 47).expiries + 1 < s.reg kReplayLimit ∧ (s.readReplay 47).2 = true := by decide +kernel
theorem wit_ReplayLimitTakesTheLinkDown_2 : ((onLink upLink).link 47).isUp = true ∧ ctlOk 10 (ctl 10 0 0) = true := by decide +kernel
theorem wit_ReplayLimitTakesTheLinkDown_3 : let s := onLink { upLink with unacked := [txp], timerOn := true, expiries := 8 }
    (s.link 47).isUp = true ∧ (s.link 47).timerOn = true ∧ s.reg kReplayLimit ≤ (s.link 47).expiries := by decide +kernel
theorem wit_ReplayLimitTakesTheLinkDown_4 : let s := onLink { upLink with expiries := 7 }
    (s.link 47).expiries < s.reg kReplayLimit := by decide +kernel

/-- A HELLO of a partner that offers version 1.2 alone, on all lanes, and one that offers none. -/
def helloBody (versions : Nat) : BitVec 176 := mkBody [(1, versions), (4, 0xFFFFFFFF), (1, 0), (2, 5), (1, 15), (1, 1), (12, 0)]

theorem wit_LinkControlRuns_hello : let s := onLink { phase := .training, passed := 15, allowedAtTrain := 7 }
    ctlOk 3 (ctl 3 0 (helloBody 4)) = true ∧ (s.link 47).phase = .training ∧ (s.link 47).retrain = false ∧
    commonVersion ((s.link 47).allowedAtTrain.toNat &&& 7) (bodyField (helloBody 4) 0 1) ≠ 0 ∧
    ctlOk 3 (ctl 3 0 (helloBody 0)) = true ∧ commonVersion 7 (bodyField (helloBody 0) 0 1) = 0 := by decide +kernel
theorem wit_LinkControlRuns_helloHeld : let s := onLink { phase := .held, hold := .noVersion, passed := 15, allowedAtTrain := 7 }
    (s.link 47).phase = .held ∧ (s.link 47).hold = .noVersion ∧
    (s.link 47).partnerVersions.toNat ≠ bodyField (helloBody 4) 0 1 := by decide +kernel
theorem wit_LinkControlRuns_laneFails : ((onLink { phase := .training, passed := 15 }).link 47).phase = .training ∧
    ((onLink { phase := .held, hold := .noVersion }).link 47).hold = .noVersion := by decide +kernel
theorem wit_LinkControlRuns_laneReq : let s := onLink upLink
    let c := ctl 4 0 (mkBody [(1, 1), (1, 3), (1, 0), (19, 0)])
    let d := ctl 4 0 (mkBody [(1, 1), (1, 3), (1, 1), (19, 0)])
    ctlOk 4 c = true ∧ ctlOk 4 d = true ∧ (s.link 47).isUp = true ∧ (s.link 47).change = none ∧
    bitAt (bodyField c.body 2 1) 0 = false ∧ bitAt (bodyField d.body 2 1) 0 = true ∧
    formMask ((s.link 47).allowed (BitVec.ofNat 4 (bodyField c.body 1 1)) false) (s.link 47).x2 ≠ 0 ∧
    formMask ((s.link 47).allowed (BitVec.ofNat 4 (bodyField d.body 1 1)) true) (s.link 47).x2 ≠ 0 := by decide +kernel
/-- A lane change the board asked for. -/
def chg : LaneChange := ⟨1, 3, false, true, false, false, false, false⟩
theorem wit_LinkControlRuns_laneCrosses : let s := onLink { upLink with change := some chg }
    let c := ctl 4 0 (mkBody [(1, 1), (1, 7), (1, 0), (19, 0)])
    let d := ctl 4 0 (mkBody [(1, 1), (1, 7), (1, 1), (19, 0)])
    ctlOk 4 c = true ∧ ctlOk 4 d = true ∧ (s.link 47).isUp = true ∧ (s.link 47).change = some chg ∧ chg.mine = true ∧
    chg.accepted = false ∧ chg.txSwitched = false ∧ chg.rxSwitched = false ∧ chg.emergency = false ∧
    bitAt (bodyField d.body 2 1) 0 = true ∧
    formMask (chg.mask &&& BitVec.ofNat 4 (bodyField c.body 1 1)) (s.link 47).x2 ≠ 0 := by decide +kernel
theorem wit_LinkControlRuns_laneAccept : let s := onLink { upLink with change := some chg }
    let c := ctl 5 0 (mkBody [(1, 1), (1, 3), (20, 0)])
    ctlOk 5 c = true ∧ (s.link 47).isUp = true ∧ (s.link 47).change = some chg ∧ chg.mine = true ∧ chg.accepted = false ∧
    chg.rxSwitched = false ∧ chg.reqId = BitVec.ofNat 8 (bodyField c.body 0 1) := by decide +kernel
theorem wit_LinkControlRuns_laneSwitch : let s := onLink { upLink with change := some { chg with txSwitched := true } }
    ctlOk 6 (ctl 6 0 0) = true ∧ (s.link 47).isUp = true ∧ (s.link 47).change = some { chg with txSwitched := true } ∧
    ((onLink { upLink with change := some { chg with emergency := true } }).link 47).change = some { chg with emergency := true } ∧
    ((onLink { upLink with change := some chg }).link 47).change = some chg ∧ chg.emergency = false := by decide +kernel
theorem wit_LinkControlRuns_laneChangeAbandon : let s := onLink { upLink with change := some chg }
    (s.link 47).change = some chg ∧ chg.emergency = false := by decide +kernel
theorem wit_LinkControlRuns_laneStarts : let s := onLink upLink
    let t := onLink { upLink with mask := 3, caps := 0xFFFFFFFF, addReady := 4 }
    (s.link 47).isUp = true ∧ s.canChange 47 = true ∧ (s.link 47).mask.getLsbD 3 = true ∧ 0 < s.reg kLaneDropBer ∧
    s.reg kLaneDropBer < 100001 ∧ (s.link 47).without 3 ≠ 0 ∧ (t.link 47).isUp = true ∧ t.canChange 47 = true ∧
    bitAt (t.link 47).caps.toNat 2 = true ∧ (t.link 47).mask.getLsbD 3 = false ∧ (t.link 47).barred.getLsbD 3 = false ∧
    popCount (t.link 47).mask.toNat 4 <
      popCount (formMask ((t.link 47).mask ||| ((t.link 47).addReady ||| BitVec.ofNat 4 (2 ^ 3))) (t.link 47).x2).toNat 4 := by
  decide +kernel
theorem wit_LinkControlRuns_asking : let l : LinkSt := { upLink with change := some chg }
    l.asking = some chg ∧ l.isUp = true ∧ l.downUntil ≤ 1 ∧ l.alignSlot 1 = false ∧ l.ctlOut = [] := by decide +kernel
theorem wit_LinkControlRuns_slot : let l (n : Nat) : LinkSt := { upLink with ctlOut := [{ ctype := n, body := 0 }] }
    (l 8).ctlOut = { ctype := 8, body := 0 } :: [] ∧ (l 7).ctlOut = { ctype := 7, body := 0 } :: [] ∧ (l 8).isUp = true ∧
    (l 8).downUntil ≤ 1 ∧ (l 8).alignSlot 1 = false := by decide +kernel
theorem wit_LinkControlRuns_timeReq : ctlOk 7 (ctl 7 0 0) = true ∧ ((onLink upLink).link 47).isUp = true ∧
    bitAt ((onLink upLink).link 47).caps.toNat 3 = true := by decide +kernel
theorem wit_LinkControlRuns_timeResp : let s := onLink { upLink with exch := some (1, 0) }
    let c := ctl 8 0 (mkBody [(2, 1), (20, 0)])
    ctlOk 8 c = true ∧ (s.link 47).isUp = true ∧ (s.link 47).exch = some (1, 0) ∧ (1#16).toNat = bodyField c.body 0 2 ∧
    s.reg kTimeSource ≠ 1 := by decide +kernel
theorem wit_LinkControlRuns_timeExch : let s := ((onLink upLink).setReg kTimeSource 1).setReg kTimeLinks (2 ^ 47)
    s.reg kTimeSource = 1 ∧ bitAt (s.reg kTimeLinks) 47 = true ∧ (s.link 47).isUp = true ∧
    bitAt (s.link 47).caps.toNat 3 = true ∧
    ((onLink { upLink with exch := some (1, 0) }).link 47).exch.isSome = true := by decide +kernel

theorem wit_LinksTrainComeUpAndGoDown_up :
    let s := onLink { phase := .training, seenSent := true, seenRecv := true, version := 3, mask := 15 }
    (s.link 47).phase = .training ∧ (s.link 47).retrain = false ∧ (s.link 47).seenSent = true ∧ (s.link 47).seenRecv = true ∧
    (s.link 47).version ≠ 0 ∧ (s.link 47).mask ≠ 0 ∧ s.halyardLinks.contains 47 = false := by decide +kernel
theorem wit_LinksTrainComeUpAndGoDown_retrain : let s := onLink { phase := .training, retrain := true }
    let t := onLink { phase := .held, hold := .flap }
    s.repair.hostPortDead = false ∧ (s.link 47).phase = .training ∧ (s.link 47).retrain = true ∧
    (t.link 47).phase = .held ∧ (t.link 47).hold = .flap := by decide +kernel
theorem wit_LinksTrainComeUpAndGoDown_enable : rdy.accepts fr (askWrite kLinkEnable 8 (2 ^ 47)) ∧ rdy.linksServed = true ∧
    (rdy.link 47).phase = .disabled ∧ (rdy.link 47).hold = .none ∧
    ((onLink { hold := .flap }).link 47).phase = .disabled ∧ ((onLink { hold := .flap }).link 47).hold = .flap ∧ rdy.repair.hostPortDead = false ∧ bitAt (2 ^ 47) 47 = true := by
  unfold State.accepts; decide +kernel
theorem wit_LinksTrainComeUpAndGoDown_versions : let s := onLink { phase := .held, hold := .noVersion }
    s.accepts fr (askWrite (kLinkVersionsAllowed 47) 4 7) ∧ s.repair.hostPortDead = false ∧ (s.link 47).phase = .held ∧
    (s.link 47).hold = .noVersion := by unfold State.accepts; decide +kernel
theorem wit_LinksTrainComeUpAndGoDown_down : let s := onLink { upLink with timerOn := true, expiries := 8, change := some { chg with emergency := true } }
    let t := onLink { upLink with mask := 8 }
    (s.link 47).isUp = true ∧ ctlOk 9 (ctl 9 0 0) = true ∧ (s.link 47).timerOn = true ∧ s.reg kReplayLimit ≤ (s.link 47).expiries ∧
    (s.link 47).change = some { chg with emergency := true } ∧ (t.link 47).isUp = true ∧ (t.link 47).mask.getLsbD 3 = true ∧
    (t.link 47).without 3 = 0 := by decide +kernel

theorem wit_PacketsAreTakenInSequence_1 : let s := onLink upLink
    (s.link 47).isUp = true ∧ (s.link 47).inSync = true ∧ hdrOk (mkHdr 0 0 false 0 0 0 + 1) = false ∧
    hdrOk (mkHdr 0 0 false 65 0 0) = true ∧ hdrUnits (mkHdr 0 0 false 65 0 0) = 65 ∧ hdrOk (pkt 0).hdr = true ∧
    hdrUnits (pkt 0).hdr = 0 ∧ packetCrcOk { pkt 0 with crc := (pkt 0).crc + 1 } = false ∧ packetCrcOk (pkt 0) = true ∧
    (pkt 0).payload.length = hdrUnits (pkt 0).hdr ∧ (hdrSeq (pkt 0).hdr - (s.link 47).rxNext).toNat = 0 := by decide +kernel
theorem wit_PacketsAreTakenInSequence_2 : let s := onLink upLink
    hdrOk (pkt 0x7FFF).hdr = true ∧ packetCrcOk (pkt 0x7FFF) = true ∧ (hdrSeq (pkt 0x7FFF).hdr - (s.link 47).rxNext).toNat = 32767 ∧
    hdrOk (pkt 0x8000).hdr = true ∧ packetCrcOk (pkt 0x8000) = true ∧ (hdrSeq (pkt 0x8000).hdr - (s.link 47).rxNext).toNat = 32768 := by
  decide +kernel
theorem wit_PacketsAreTakenInSequence_3 : let s := onLink { upLink with unacked := [txp], timerOn := true, expiries := 6 }
    (s.link 47).isUp = true ∧ (s.link 47).timerOn = true ∧ 0 < (s.link 47).unacked.length ∧
    (s.link 47).expiries + 1 < s.reg kReplayLimit ∧ s.repair.sram = [] := by decide +kernel


/-! ### Witnesses: host requests -/

theorem wit_OrdinaryRequestsDoTheirUnits_1 : hst.takes 2 .read (req 64 0 0 []) ∧
    requestOf (.read (req 64 0 0 [])) = some (.read, req 64 0 0 []) ∧
    ((hst.entered 2 .read (req 64 0 0 [])).slice 0).stopped = false ∧
    ((hst.entered 2 .read (req 64 0 0 [])).reqEntry (req 64 0 0 [])).coherent = false := by
  unfold State.takes State.inOrder State.goesOn State.sramOk; decide +kernel
theorem wit_OrdinaryRequestsDoTheirUnits_2 : hst.takes 2 .write (req 1 0 64 [7]) := by
  unfold State.takes State.inOrder State.goesOn State.sramOk; decide +kernel
theorem wit_OrdinaryRequestsDoTheirUnits_room : (hst.entered 2 .write (req 1 0 64 [7])).writeRoom (req 1 0 64 [7]) = true ∧
    ((hst.entered 2 .write (req 1 0 64 [7])).reqEntry (req 1 0 64 [7])).coherent = false := by decide +kernel
/-- The board whose snapshot buffer in slice 0 is full, while barrow 0 reads the first page. -/
def hstFull : State := hst.updSlice 0 fun x => { x with
  snapRanges := [⟨0, 0, 4096⟩], snapLines := List.replicate 4096 ⟨0, 1, clearLine⟩ }
theorem wit_OrdinaryRequestsDoTheirUnits_full : hstFull.takes 2 .write (req 1 0 0 [7]) ∧
    (hstFull.entered 2 .write (req 1 0 0 [7])).writeRoom (req 1 0 0 [7]) = false ∧
    ((hstFull.entered 2 .write (req 1 0 0 [7])).slice 0).stopped = false := by
  unfold State.takes State.inOrder State.goesOn State.sramOk; decide +kernel
theorem wit_OrdinaryRequestsDoTheirUnits_3 : hst.takes 2 .writeMasked (req 2 0 64 [7, 1]) := by
  unfold State.takes State.inOrder State.goesOn State.sramOk; decide +kernel
theorem wit_OrdinaryRequestsDoTheirUnits_4 : hst.takes 2 .atomic (req 1 6 56 [7]) := by
  unfold State.takes State.inOrder State.goesOn State.sramOk; decide +kernel
theorem wit_OrdinaryRequestsDoTheirUnits_5 : hst.takes 2 .flush (req 1 0 0 []) := by
  unfold State.takes State.inOrder State.goesOn State.sramOk; decide +kernel
theorem wit_OrdinaryRequestsDoTheirUnits_6 : hst.takes 2 .invalidate (req 1 0 0 []) := by
  unfold State.takes State.inOrder State.goesOn State.sramOk; decide +kernel

theorem wit_RequestsStoreOnlyToTheirLines_1 : hst.takes 2 .write (req 1 0 0xFFFFC0 [7]) ∧
    ((hst.entered 2 .write (req 1 0 0xFFFFC0 [7])).slice 7).stopped = false ∧
    ((hst.entered 2 .write (req 1 0 0xFFFFC0 [7])).sliceOf 0xFFFFC0).1 = 7 ∧
    ((hst.entered 2 .write (req 1 0 0xFFFFC0 [7])).reqEntry (req 1 0 0xFFFFC0 [7])).coherent = false := by
  unfold State.takes State.inOrder State.goesOn State.sramOk; decide +kernel

/-- A tracker entry of an ATOMIC that adds 7 to the word at offset 8. -/
def atomicTrk : Trk := newTrk 2 .atomic (req 1 0 8 [7])
theorem wit_AtomicsComputeTheirResult_1 : atomicTrk.op = .atomic ∧ atomicTrk.status = .ok ∧ hst.homeDown 0 = false ∧
    hst.snapRoom 0 = true ∧ (hst.plainOf 0 (hst.slotOf 0) (hst.stored 0).decode).1 = .ok := by decide +kernel

/-- The board with barrow 512 enabled for tenant 1. -/
def hstBarrow : State := hst.updBarrow 512 fun b => { b with tenant := 1, enable := true }
theorem wit_DoorbellsQueueLaunches_1 : hstBarrow.takes 2 .doorbell (req 1 0 512 [7]) ∧
    hstBarrow.takes 2 .doorbell (req 0 0 512 []) ∧
    ((hstBarrow.entered 2 .doorbell (req 1 0 512 [7])).slice 1).stopped = false := by
  unfold State.takes State.inOrder State.goesOn State.sramOk; decide +kernel
theorem wit_DoorbellsQueueLaunches_2 : hstBarrow.takes 2 .doorbell (req 1 1 512 [7]) ∧
    requestOf (.doorbellStandingParams (req 1 1 512 [7])) = some (.doorbell, req 1 1 512 [7]) := by
  unfold State.takes State.inOrder State.goesOn State.sramOk; decide +kernel

theorem wit_MarksNopsAndHintsTakeEffect_nop : hst.takes 2 .nop (req 0 0 0 []) := by
  unfold State.takes State.inOrder State.goesOn State.sramOk; decide +kernel
/-- A MARK of step 1, to apply at once. -/
def mark1 : Req := req 1 0 0 [1]
theorem wit_MarksNopsAndHintsTakeEffect_mark : let s := hst.setReg kMarkSource 5
    s.takes 2 .mark mark1 ∧ s.reg kMarkSource = mark1.host ∧ reqOff mark1 = 0 ∧ bits (payloadNat mark1) 64 80 = 0 ∧
    s.markLast < bits (payloadNat mark1) 0 48 * 65536 ∧ hst.takes 2 .mark mark1 ∧ hst.reg kMarkSource ≠ mark1.host := by
  unfold State.takes State.inOrder State.goesOn State.sramOk; decide +kernel
theorem wit_MarksNopsAndHintsTakeEffect_hint : hst.takes 2 .hint (req 0 3 0 []) ∧
    ((hst.entered 2 .hint (req 0 3 0 [])).slice 0).stopped = false ∧
    (hst.entered 2 .hint (req 0 3 0 [])).pitchFirst 0 = true ∧
    (hst.entered 2 .hint (req 0 3 0 [])).forPartner (req 0 3 0 []) = false ∧ (hst.granule 0).phase = .granted ∧
    (hst.granule 0).pitch = (hst.ownerOf 0).pitch := by
  unfold State.takes State.inOrder State.goesOn State.sramOk; decide +kernel
theorem wit_MarksNopsAndHintsTakeEffect_reduce : hst.takes 2 .reduceWrite (req 1 0 0 [7]) ∧
    ((hst.entered 2 .reduceWrite (req 1 0 0 [7])).slice 0).stopped = false := by
  unfold State.takes State.inOrder State.goesOn State.sramOk; decide +kernel

theorem wit_CoherentRequestsMeetTheDirectory_1 : hstCoh.takes 2 .cohRead (req 1 1 0 []) ∧
    ((hstCoh.entered 2 .cohRead (req 1 1 0 [])).slice 0).stopped = false ∧
    ((hstCoh.entered 2 .cohRead (req 1 1 0 [])).reqEntry (req 1 1 0 [])).coherent = true ∧
    hstCoh.takes 2 .read (req 1 0 0 []) := by
  unfold State.takes State.inOrder State.goesOn State.sramOk; decide +kernel
theorem wit_CoherentRequestsMeetTheDirectory_write : hstCoh.takes 2 .write (req 1 0 0 [7]) ∧
    (hstCoh.entered 2 .write (req 1 0 0 [7])).writeRoom (req 1 0 0 [7]) = true := by
  unfold State.takes State.inOrder State.goesOn State.sramOk; decide +kernel
theorem wit_CoherentRequestsMeetTheDirectory_2 : hstCoh.takes 2 .cohWriteback (req 1 0 0 [7]) := by
  unfold State.takes State.inOrder State.goesOn State.sramOk; decide +kernel

theorem wit_RefusedRequestsDoNoWork_1 : let s := hst.updStall 2 fun x => { x with phase := .fenced }
    let r := req 1 0 0 []
    r.link < 48 ∧ (s.link r.link).isUp = true ∧ (s.link r.link).kind = 0 ∧ (s.link r.link).partner = r.host ∧
    s.gapStall r = none ∧ s.stallFor r = some 2 ∧ (s.stall 2).phase ≠ .attached ∧ s.unsupported 2 .read r = false := by
  decide +kernel
theorem wit_RefusedRequestsDoNoWork_switch : let t := hst.updStall 2 fun x => { x with phase := .fenced }
    let s := t.updLink 47 fun l => { l with kind := 1, partner := 9 }
    (s.link 47).kind = 1 ∧ (s.stall 2).linkSet.getLsbD 47 = true ∧ s.stallFor (req 1 0 0 []) = some 2 := by decide +kernel
theorem wit_RefusedRequestsDoNoWork_2 : let s : State := { hst with shapers := [(2, { rateIn := 100, creditIn := -1 })] }
    let r := req 1 0 0 []
    s.inOrder 2 .read r ∧ (s.arrived 2 .read r).unsupported 2 .read r = false ∧ (s.arrived 2 .read r).mustWait 2 r = false ∧
    (s.arrived 2 .read r).staleBarrow .read r = false ∧ (s.arrived 2 .read r).inGap r = false ∧ (s.arrived 2 .read r).admits 2 = false := by
  unfold State.inOrder State.sramOk; decide +kernel
theorem wit_RefusedRequestsDoNoWork_board : let r := req 1 0 (2 ^ 44) []
    hst.inOrder 2 .read r ∧ (hst.arrived 2 .read r).unsupported 2 .read r = false ∧ (hst.arrived 2 .read r).mustWait 2 r = false ∧
    (hst.arrived 2 .read r).staleBarrow .read r = false ∧ (hst.arrived 2 .read r).inGap r = false ∧
    (hst.arrived 2 .read r).admits 2 = true ∧ (hst.arrived 2 .read r).wrongBoard .read r = true := by
  unfold State.inOrder State.sramOk; decide +kernel
theorem wit_RefusedRequestsDoNoWork_malformed : let r := req 65 0 0 []
    hst.inOrder 2 .read r ∧ (hst.arrived 2 .read r).goesOn 2 .read r ∧ wellFormedReq .read r = false := by
  unfold State.inOrder State.goesOn State.sramOk; decide +kernel
theorem wit_RefusedRequestsDoNoWork_3 : let r := req 1 0 0x1000000 []
    hst.inOrder 2 .read r ∧ (hst.arrived 2 .read r).goesOn 2 .read r ∧ wellFormedReq .read r = true ∧
    (hst.entered 2 .read r).rightsOf .read r ≠ .ok := by
  unfold State.inOrder State.goesOn State.sramOk; decide +kernel

theorem wit_HeldRequestsAndResponsesMoveOn_release : let r := req 1 0 0 []
    let s := hst.updStall 2 fun x => { x with held := [(.read, r)], next := 1, ahead := [] }
    let u := s.updStall 2 fun x => { x with held := x.held.filter fun h => h.2.tag != r.tag }
    hst.nextHeld 2 = none ∧ s.nextHeld 2 = some (.read, r) ∧ (u.stall 2).phase = .attached ∧ u.goesOn 2 .read r ∧
    wellFormedReq .read r = true ∧ s.sramOk ∧ (u.chargeIn 2 28).rightsOf .read r = .ok := by
  unfold State.goesOn State.sramOk; decide +kernel
theorem wit_HeldRequestsAndResponsesMoveOn_timeout : let s := hst.updStall 2 fun x => { x with ahead := [2] }
    (s.stall 2).phase = .attached ∧ (s.stall 2).ahead ≠ [] ∧ (s.stall 2).next ∉ (s.stall 2).ahead ∧
    (s.stall 2).next + 1 ∉ (s.stall 2).ahead := by decide +kernel
theorem wit_HeldRequestsAndResponsesMoveOn_response : let s := hst.updSlice 7 fun x => { x with tracker := [doneTrk] }
    (s.slice 7).trk 3 = some doneTrk ∧ doneTrk.stage = .done ∧ s.halCovered doneTrk.hseq = true ∧ s.waitsOver doneTrk = true ∧
    s.repair.sram = [] ∧ s.liveLinks 2 ≠ [] ∧ (s.stall 2).phase = .attached ∧
    (let t := s.updLink 47 fun l => { l with phase := .training }
     t.liveLinks 2 = [] ∧ t.halCovered doneTrk.hseq = true ∧ t.waitsOver doneTrk = true) ∧
    (let t := s.updStall 2 fun x => { x with phase := .fenced }
     (t.stall 2).phase = .fenced ∧ t.waitsOver doneTrk = true) ∧
    (let t := s.updStall 2 fun x => { x with phase := .detaching, wasFenced := true }
     (t.stall 2).phase = .detaching ∧ (t.stall 2).wasFenced = true ∧ t.waitsOver doneTrk = true) := by decide +kernel
theorem wit_HeldRequestsAndResponsesMoveOn_expiry :
    let s := hst.updSlice 7 fun x => { x with tracker := [{ doneTrk with stage := .heldResp }] }
    (s.slice 7).trk 3 = some { doneTrk with stage := .heldResp } := by decide +kernel


/-! ### Witnesses: stalls, pitches, tiers, memory -/

theorem wit_StallsAttach_1 : let s := (((onLink upLink).setReg kAttachHost 5).setReg kAttachStall 1023)
    s.accepts fr (askWrite kAttachGo 1 1) ∧ s.attachCheck = (0, 1023) := by unfold State.accepts; decide +kernel
theorem wit_StallsAttach_2 : let s := rdy.setReg kAttachStall 1024
    s.accepts fr (askWrite kAttachGo 1 1) ∧ ∃ r st, s.attachCheck = (r + 1, st) := by
  refine ⟨by unfold State.accepts; decide +kernel, ((rdy.setReg kAttachStall 1024).attachCheck).1 - 1,
    ((rdy.setReg kAttachStall 1024).attachCheck).2, by decide +kernel⟩

theorem wit_StallsAreFencedAndDetached_fence : let s := hst.updStall 1023 fun x => { x with phase := .attached, host := 9 }
    s.accepts fr (askWrite kFence 2 1023) ∧ (s.stall 1023).phase = .attached ∧
    rdy.accepts fr (askWrite kFence 2 1023) ∧ (rdy.stall 1023).phase ≠ .attached := by unfold State.accepts; decide +kernel
theorem wit_StallsAreFencedAndDetached_dead : let s := rdy.updStall 1023 fun x => { x with phase := .attached, host := 9 }
    (s.stall 1023).phase = .attached ∧ s.liveLinks 1023 = [] := by decide +kernel
theorem wit_StallsAreFencedAndDetached_detach : hst.accepts fr (askWrite kDetach 2 2) ∧ (hst.stall 2).phase = .attached ∧
    rdy.accepts fr (askWrite kDetach 2 1023) ∧ (rdy.stall 1023).phase = .free := by unfold State.accepts; decide +kernel
theorem wit_StallsAreFencedAndDetached_complete : let s := hst.updStall 2 fun x => { x with phase := .detaching }
    (s.stall 2).phase = .detaching ∧ s.stallBusy 2 = false := by decide +kernel
theorem wit_StallsAreFencedAndDetached_table : let v := 2 * 2 ^ 60 + 0xFF * 2 ^ 52
    hst.accepts fr (askRows kStallTable 16 1023 [v]) ∧ bits v 60 2 ≠ 3 ∧ hst.linkSetBad 1023 (v / 2 ^ 64) = false ∧
    hst.accepts fr (askRows kStallTable 16 1023 [3 * 2 ^ 60]) ∧ bits (3 * 2 ^ 60) 60 2 = 3 := by unfold State.accepts; decide +kernel
theorem wit_StallsAreFencedAndDetached_number : rdy.accepts fr (askWrite kBoardNumber 1 63) ∧ rdy.boardNumberFixed = false ∧
    hst.accepts fr (askWrite kBoardNumber 1 63) ∧ hst.boardNumberFixed = true := by unfold State.accepts; decide +kernel

theorem wit_GrantsWriteTheirGranules_1 : rdy.accepts fr (askWrite kGrantGo 1 1) ∧
    rdy.grantCheck ≠ 0 := by unfold State.accepts; decide +kernel
/-- The board of `hst` with a grant of granule 524,287 to tenant 0 in its dictionary. -/
def grantable : State :=
  let s := (((hst.setReg kGrantPitch 2).setReg kGrantTenant 1).setReg kGrantFirst 524287).setReg kGrantCount 1
  { s with sec := { s.sec with tenants := [(0, { phase := .admitted }), (1, { phase := .admitted })] } }
theorem wit_GrantsWriteTheirGranules_2 : grantable.accepts fr (askWrite kGrantGo 1 1) ∧ grantable.grantCheck = 0 := by
  unfold State.accepts; decide +kernel
theorem wit_GrantsWriteTheirGranules_3 : let r : GrantRun := ⟨gran1, 0, 2, 1, 0, none⟩
    let s : State := { hst with pitch := { hst.pitch with grantRun := some r } }
    s.pitch.grantRun = some r ∧ r.done ≤ r.count ∧ (s.grantRest r).1.halCovered (s.grantRest r).2 = true := by decide +kernel

/-- The board with every revoke entry in use. -/
def revFull : State := { hst with pitch := { hst.pitch with
  revokes := (upTo 16).map fun n => (n, { valid := true, value := 1 }) } }
theorem wit_GranulesAreHeldAndFreed_revoke : let s := hst.setReg kRevokeValue 1
    s.accepts fr (askWrite kRevokeGo 1 1) ∧ s.pitch.grantRun = none ∧ (s.revoke 15).valid = false ∧
    (s.granule 0).phase = .granted ∧ s.reg kRevokeMatch = 0 ∧ (s.granule 0).pitch = s.reg kRevokeValue := by
  unfold State.accepts; decide +kernel
theorem wit_GranulesAreHeldAndFreed_full : revFull.accepts fr (askWrite kRevokeGo 1 1) ∧
    ∀ n, n < 16 → (revFull.revoke n).valid = true := by unfold State.accepts; decide +kernel
theorem wit_GranulesAreHeldAndFreed_deadline : (revFull.revoke 15).valid = true ∧ (revFull.revoke 15).expired = false := by
  decide +kernel
theorem wit_GranulesAreHeldAndFreed_done : let e : PitchEntry := { gran1 with phase := .revoking }
    let s : State := { hst with pitch := { hst.pitch with revokes := [(15, { valid := true, value := 1 })], table := [(0, e)] } }
    (s.revoke 15).valid = true ∧ s.revokePending 15 = false ∧ s.repair.retiring = none ∧ (s.granule 0).phase = .revoking ∧
    (s.revoke 15).covers (s.granule 0) = true := by decide +kernel
/-- The board with granule 524,287 HELD and named for a CLEAR. -/
def clearable : State :=
  let s := (hst.setReg kClearFirst 524287).setReg kClearCount 1
  { s with pitch := { s.pitch with table := [(524287, { gran1 with phase := .held })] } }
theorem wit_GranulesAreHeldAndFreed_clear : let s := clearable
    s.accepts fr (askWrite kClearGo 1 1) ∧ s.boot.stage = .ready ∧ s.pitch.clearRun = none ∧
    (s.runWhere 524287 1 fun e => e.phase == .held).length = 1 ∧ (s.granule 524287).phase = .held ∧
    (let t : State := { s with pitch := { s.pitch with table := [(524287, { gran1 with phase := .held, written := false })] } }
     (t.granule 524287).written = false) ∧ s.reg kClearFirst + s.reg kClearCount ≤ s.reach ∧
    hst.accepts fr (askWrite kClearGo 1 1) ∧
    (hst.runWhere (hst.reg kClearFirst) (hst.reg kClearCount) fun e => e.phase == .held).length ≠ hst.reg kClearCount := by
  unfold State.accepts; decide +kernel
theorem wit_GranulesAreHeldAndFreed_busy :
    let s : State := { clearable with pitch := { clearable.pitch with clearRun := some ⟨524287, 1, none⟩ } }
    s.accepts fr (askWrite kClearGo 1 1) ∧ s.pitch.clearRun = some ⟨524287, 1, none⟩ ∧ (s.granule 524287).phase = .held ∧
    (let t : State := { rdy with boot := { stage := .memory } }
     t.accepts fr (askWrite kClearGo 1 1) ∧ t.boot.stage ≠ .ready) := by
  unfold State.accepts; decide +kernel
/-- The board of `clearable` as the CLEAR runs, whose words have been forwarded up to a HSEQ. -/
def clearing (sent : List HalOut) : State := { clearable with
  pitch := { clearable.pitch with clearRun := some ⟨524287, 1, some 4⟩ }, pair := { clearable.pair with sent := sent } }
theorem wit_GranulesAreHeldAndFreed_cleared : let s := clearing []
    let t := clearing [⟨4, 0, 0, 0, 0, 0, false, false, [], false⟩]
    let w := fun (s : State) => s.clearAll (s.runWhere 524287 1 fun e => e.phase == .held)
    s.pitch.clearRun = some ⟨524287, 1, some 4⟩ ∧ (w s).1.halCovered (laterHseq (some 4) (w s).2) = true ∧
    (w t).1.halCovered (laterHseq (some 4) (w t).2) = false := by decide +kernel
theorem wit_GranulesAreHeldAndFreed_acl :
    let v := 15 * 2 ^ 28 + 9
    hst.accepts fr (askRows kAclTable 4 1048575 [v]) ∧ hst.aclClash 1048575 (aclOfWord v) = false ∧
    ∃ w, hst.accepts fr (askRows kAclTable 4 1 [w]) ∧ hst.aclClash 1 (aclOfWord w) = true := by
  refine ⟨by unfold State.accepts; decide +kernel, by decide +kernel, 15 * 2 ^ 28 + 5, ?_⟩
  unfold State.accepts; decide +kernel

/-- The board with the migration gate of every slice open, and a COLD resident frame in slice 7. -/
def migr (e : FrameEntry) : State :=
  let s := hst.updSlice 7 fun x => { x with frames := [(0, e)] }
  { s with gates := { s.gates with migrate := 0xFF, scrub := 0xFF } }
theorem wit_RegionsMoveBetweenTiers_1 : let e : FrameEntry := { phase := .resident, hint := 2, ownHint := true }
    let s := migr e
    let t := migr { e with pages := 1 }
    (s.slice 7).inService = true ∧ s.migrateOpen 7 = true ∧ (s.slice 7).moving < s.reg kMigrateParallel ∧ s.windowOk 7 = true ∧
    (s.slice 7).frames.find? (fun p => p.2.phase == .resident && s.hintOf 7 p.2.region == 2) = some (0, e) ∧
    (t.slice 7).frames.find? (fun p => p.2.phase == .resident && t.hintOf 7 p.2.region == 2) = some (0, { e with pages := 1 }) ∧
    t.windowOk 7 = true ∧ ((t.slice 7).frames.get {} 0).pages ≠ 0 := by decide +kernel
/-- That board with two granules, of which the first has the hint HOT. -/
def hot (frames : Tbl FrameEntry) : State :=
  let s := hst.updSlice 7 fun x => { x with frames := frames }
  { s with
    gates := { s.gates with migrate := 0xFF }
    pitch := { s.pitch with gran := 2, table := [(0, { gran1 with hint := 1 })] } }
theorem wit_RegionsMoveBetweenTiers_fill : let s := hot []
    (s.slice 7).inService = true ∧ s.migrateOpen 7 = true ∧ (s.slice 7).moving < s.reg kMigrateParallel ∧ s.windowOk 7 = true ∧
    (s.slice 7).frames.find? (fun p => p.2.phase == .resident && s.hintOf 7 p.2.region == 2) = none ∧
    s.fillable 7 3 = [] ∧ s.fillable 7 1 = [0] ∧
    (setFrames 0).find? (fun f => ((s.slice 7).frames.get {} f).phase == .free) = some 0 := by decide +kernel
theorem wit_RegionsMoveBetweenTiers_victim :
    let s := hot ((upTo 16).map fun w => (w, { phase := .resident, region := 768 * (w + 1), count := 65535, pages := 1 }))
    (s.slice 7).frames.find? (fun p => p.2.phase == .resident && s.hintOf 7 p.2.region == 2) = none ∧
    s.fillable 7 3 = [] ∧ s.fillable 7 1 = [0] ∧
    (setFrames 0).find? (fun f => ((s.slice 7).frames.get {} f).phase == .free) = none ∧ s.victim 7 0 4 = some 0 ∧
    ((s.slice 7).frames.get {} 0).pages ≠ 0 := by decide +kernel
theorem wit_RegionsMoveBetweenTiers_waits :
    let s := (hot [(0, { phase := .evicting, region := 768 })]).updSlice 7 fun x => { x with waitFills := [(0, 0, false, true)] }
    ((s.slice 7).frames.get {} 0).phase = .evicting ∧
    (s.slice 7).waitFills.find? (fun w => w.1 == 0) = some (0, 0, false, true) ∧ s.migrateOpen 7 = true ∧
    s.windowOk 7 = true ∧ s.regionGranted 7 0 = true ∧ (s.slice 7).frameOf 0 = none ∧
    ((hot [(0, { phase := .evicting })]).slice 7).waitFills.find? (fun w => w.1 == 0) = none := by decide +kernel
theorem wit_RegionsMoveBetweenTiers_2 : let s := migr { phase := .filling }
    let t := migr { phase := .evicting }
    ((s.slice 7).frames.get {} 0).phase = .filling ∧ ((t.slice 7).frames.get {} 0).phase = .evicting := by decide +kernel

theorem wit_ChannelsServeTheirQueues_1 : let s := hst.updChan 31 fun c => { c with banks := [(255, { queue := [(5, false, 3)] })] }
    let c := { s.chan 31 with draining := (s.chan 31).drains }
    (s.chan 31).maint = [] ∧ c.topLevel = some 3 ∧ c.issuable (5, false, 3) = true ∧ (5, false, 3) ∈ (c.banks.get {} 255).queue := by decide +kernel
theorem wit_ChannelsServeTheirQueues_maint : let s := hst.updChan 31 fun c => { c with maint := [.sameBank 0 3] }
    (s.chan 31).maint = .sameBank 0 3 :: [] ∧ s.takesBank 31 (.sameBank 0 3) 3 = true := by decide +kernel
theorem wit_ChannelsServeTheirQueues_2 : 7 < (if true = true then 8 else 32) ∧ 31 < (if false = true then 8 else 32) := by decide

theorem wit_PatrolScrubCorrectsLines_1 : let s := (migr {}).updChan 31 fun c => { c with capacity := 128, phase := .inService }
    s.scrubOpen 7 = true ∧ (s.chan 31).stopped = false ∧ (s.slice 7).stopped = false ∧ (s.scrubNext false 31).isSome = true := by
  decide +kernel
theorem wit_PatrolScrubCorrectsLines_again :
    let s := (migr {}).updChan 31 fun c => { c with
      capacity := 128, phase := .inService, mem := [(0, { clearLine with err := 1 })] }
    s.scrubOpen 7 = true ∧ (s.scrubNext false 31).any (fun p => p.1.line == 0 && (s.at p.1 p.2).group.isSome) = true ∧
    (s.chan 31).hard.get 0 0 = 0 ∧ (∀ p ∈ (s.chan 31).remap, p.1 ≠ 0) ∧ ((s.chan 31).tableOf 31 0).length < 16 := by
  decide +kernel
theorem wit_PatrolScrubCorrectsLines_2 : let s := migr { phase := .resident }
    s.scrubOpen 7 = true ∧ (s.chan 39).stopped = false ∧ (s.slice 7).stopped = false ∧ (s.scrubNext true 7).isSome = true := by
  decide +kernel

/-- The board whose channel 31 holds four remapped lines of row 0. -/
def remapped : State := (migr {}).updChan 31 fun c => { c with
  remap := [(5, poisonLine), (6, poisonLine), (7, poisonLine), (8, poisonLine)] }
theorem wit_RowsAreRepaired_1 : let s := remapped
    s.scrubOpen (unitSlice 31) = true ∧ (s.chan 31).repair = none ∧ (s.chan 31).stopped = false ∧ s.repairRow 31 = some 0 := by
  decide +kernel

theorem wit_RowsAreRepaired_2 : let r : RowRepair := ⟨0, [(5, poisonLine)]⟩
    let s := hst.updChan 31 fun c => { c with repair := some r }
    (s.chan 31).repair = some r ∧ (r.lines.map Prod.fst).Nodup ∧ ∀ p ∈ r.lines, rowOf p.1 = r.row := by decide +kernel

theorem wit_TheCheckerActsRaw_1 : rdy.repair.coresUp = true ∧ rdy.accepts fr (askRows 0x602408 32 31 [2 ^ 63]) ∧
    bitAt (2 ^ 63) 63 = true ∧ rdy.accepts fr (askRows 0x602408 32 31 [0]) := by unfold State.accepts; decide +kernel
theorem wit_TheCheckerActsRaw_2 : let s : State := { rdy with sec := { rdy.sec with conf := true } }
    rdy.accepts fr (askWrite kCheckerEnable 1 1) ∧ rdy.sec.conf = false ∧ s.accepts fr (askWrite kCheckerEnable 1 1) ∧
    s.sec.conf = true := by unfold State.accepts; decide +kernel
theorem wit_TheCheckerActsRaw_3 : let s := rdy.setReg kCheckerEnable 1
    s.accepts fr (askWrite kCheckerOp 1 1) ∧ s.accepts fr (askWrite kCheckerOp 1 2) ∧
    rdy.accepts fr (askWrite kCheckerOp 1 2) ∧ rdy.checkerCheck ≠ 0 := by unfold State.accepts; decide +kernel
theorem wit_TheCheckerActsRaw_4 : let s : State := { rdy with checker := { rdy.checker with running := some (2, 0) } }
    let t : State := { s with pitch := { gran := 524288, table := [(0, { gran1 with tenant := 0 })] } }
    s.checker.running = some (2, 0) ∧ s.checkerAt 0 ≠ 0 ∧ t.checker.running = some (2, 0) ∧ t.checkerAt 0 = 0 ∧
    0 < checkerSramBase ∧ s.checkerAt checkerSramBase = 0 := by decide +kernel
theorem wit_TheCheckerActsRaw_start :
    let s : State := { rdy.setReg kCheckerEnable 1 with pitch := { gran := 524288, table := [(0, { gran1 with tenant := 0 })] } }
    s.accepts fr (askWrite kCheckerOp 1 1) ∧ s.checkerCheck = 0 := by unfold State.accepts; decide +kernel


/-! ### Witnesses: coherence and programs -/

/-- A request being taken up: COH_READ or another on line 0, in slice 0, as tracker entry 0. -/
def cohTrk (op : ReqOp) (mod : Nat) : Trk := { newTrk 2 op (req 1 mod 0 []) with stage := .snooping, todo := [0] }

/-- The board with that request and a directory entry of line 0. -/
def dirBoard (op : ReqOp) (mod : Nat) (e : DirEntry) : State :=
  hstCoh.updSlice 0 fun x => { x with tracker := [cohTrk op mod], dir := [((dirWays 0).headD 0, e)] }

theorem wit_DirectoryAnswersByState_shared : let e : DirEntry := { valid := true }
    let s := dirBoard .cohRead 0 e
    (s.slice 0).trk 0 = some (cohTrk .cohRead 0) ∧ s.lineNo (s.unitOff (cohTrk .cohRead 0).req 0) = 0 ∧
    (s.slice 0).dirOf 0 = some ((dirWays 0).headD 0) ∧ (s.slice 0).dirAt ((dirWays 0).headD 0) = e ∧ e.phase = .shared ∧
    s.repair.sram = [] ∧ (s.readPlain 0 (s.slotOf 0) 5).2.1 = .ok ∧ (cohTrk .cohRead 0).status = .ok := by decide +kernel
theorem wit_DirectoryAnswersByState_owned : let e : DirEntry := { valid := true, phase := .owned, holder := 9 }
    let s := (dirBoard .read 0 e).updStall 9 fun x => { x with phase := .attached, host := 6 }
    (s.slice 0).trk 0 = some (cohTrk .read 0) ∧ (s.slice 0).dirOf 0 = some ((dirWays 0).headD 0) ∧ e.phase = .owned ∧
    e.holder ≠ (cohTrk .read 0).stall ∧ s.snoopable (.request 0 0) e.holder = true := by decide +kernel
theorem wit_DirectoryAnswersByState_orphaned : let e : DirEntry := { valid := true, phase := .orphaned }
    ((dirBoard .read 0 e).slice 0).trk 0 = some (cohTrk .read 0) ∧
    ((dirBoard .read 0 e).slice 0).dirOf 0 = some ((dirWays 0).headD 0) ∧
    ((dirBoard .write 0 e).slice 0).trk 0 = some (cohTrk .write 0) ∧
    ((dirBoard .write 0 e).slice 0).dirOf 0 = some ((dirWays 0).headD 0) ∧ e.phase = .orphaned ∧
    (dirBoard .write 0 e).homeDown 0 = false ∧ (dirBoard .write 0 e).snapRoom 0 = true := by decide +kernel
theorem wit_DirectoryAnswersByState_invalidate : let e : DirEntry := { valid := true, phase := .owned, holder := 2 }
    let s := dirBoard .invalidate 0 e
    (s.slice 0).trk 0 = some (cohTrk .invalidate 0) ∧ (s.slice 0).dirOf 0 = some ((dirWays 0).headD 0) ∧
    e.holder = (cohTrk .invalidate 0).stall := by decide +kernel

/-- A SNOOP of line 0 of slice 0 to stall 2. -/
def snp : Snoop := ⟨4, 2, 0, 0, 0, 0, false, false, false, false, false, false, 0⟩
/-- The board that sent it, in a transaction of request 0. -/
def snpBoard (p : Snoop) : State :=
  let s := hstCoh.updSlice 0 fun x => { x with
    txns := [⟨0, 0, 0, .request 0 0, 0, false, true, none, none⟩], dir := [(262143, { valid := true, held := true })] }
  { s with snoops := [p] }
theorem wit_SnoopsAreAnsweredAndRetried_1 : (snpBoard snp).snoopOf ⟨47, 5, 4, 0, 3, 0⟩ = some snp ∧
    (snpBoard snp).snoopOf ⟨47, 5, 4, 1, 0, 0⟩ = some snp ∧ (snpBoard snp).snoopOf ⟨47, 5, 4, 2, 0, 0⟩ = some snp := by decide +kernel
theorem wit_SnoopsAreAnsweredAndRetried_2 : let p := { snp with retry := true }
    (snpBoard p).snoops.find? (fun q => q.tag == 4) = some p ∧ p.retry = true ∧ p.answered = false ∧ p.expired = false := by
  decide +kernel
theorem wit_SnoopsAreAnsweredAndRetried_3 : (((snpBoard snp).slice 0).dirAt 262143).held = true := by decide +kernel
theorem wit_SnoopsAreAnsweredAndRetried_4 : (snpBoard snp).snoops.find? (fun q => q.tag == 4) = some snp ∧
    ((snpBoard snp).slice snp.slice).txns.find? (fun y => y.id == snp.txn) = some ⟨0, 0, 0, .request 0 0, 0, false, true, none, none⟩ ∧
    (snpBoard snp).neverSent (.snoop 4) = false ∧
    (let s := (snpBoard snp).updSlice 0 fun x => { x with tracker := [cohTrk .read 0] }
     (s.slice 0).trk 0 = some (cohTrk .read 0) ∧ s.lineNo (s.unitOff (cohTrk .read 0).req 0) = snp.line) := by
  decide +kernel

theorem wit_OrphansAreReleased_1 : rdy.accepts fr (askWrite kOrphanReleaseGo 1 1) ∧ rdy.orphanRun = none ∧
    ({ rdy with orphanRun := some (0, 0) } : State).accepts fr (askWrite kOrphanReleaseGo 1 1) := by
  unfold State.accepts; decide +kernel
theorem wit_OrphansAreReleased_2 : let e : DirEntry := { valid := true, phase := .orphaned }
    let s : State := { dirBoard .read 0 e with orphanRun := some (2, 0) }
    s.orphanRun = some (2, 0) ∧ (s.slice 0).dirOf 0 = some ((dirWays 0).headD 0) ∧ s.releases 2 0 0 e = true := by decide +kernel

/-- A BARROW_TABLE row of tenant 1 with rows 0 to 1,023. -/
def barrowRow : Nat := 2 ^ 10 + 1023 * 2 ^ 54 + 2 ^ 68
theorem wit_BarrowRowsAndPrograms_1 : rdy.accepts fr (askRows kBarrowTable 32 4095 [barrowRow]) ∧ bitAt barrowRow 64 = false ∧
    rdy.headOf 4095 = 4095 ∧ ((rdy.barrow 4095).withRow barrowRow).base ≤ ((rdy.barrow 4095).withRow barrowRow).last ∧
    ((rdy.barrow 4095).withRow barrowRow).cqOrder ≤ 12 ∧ (rdy.barrow 4095).reassigned ((rdy.barrow 4095).withRow barrowRow) = true ∧
    rdy.barrowState 4095 < 2 ∧ rdy.mayAdvance (rdy.barrow 4095).advances = true ∧
    (rdy.barrow 4095).reassigned ((rdy.barrow 4095).withRow 0) = false := by unfold State.accepts; decide +kernel
theorem wit_BarrowRowsAndPrograms_2 : rdy.accepts fr (askRows kBarrowTable 32 4095 [2 ^ 44]) ∧ bitAt (2 ^ 44) 64 = false ∧
    ((rdy.barrow 4095).withRow (2 ^ 44)).last < ((rdy.barrow 4095).withRow (2 ^ 44)).base := by unfold State.accepts; decide +kernel
/-- Barrow 4,095 with a launch queued over rows 0 to 1,023. -/
def queued : State := rdy.updBarrow 4095 fun b => { b with
  enable := true, last := 1023, queue := [⟨1, .doorbell, 5, [], 0, 1023, false, 0, 0, 100, false, 1, 0, 16⟩] }
theorem wit_BarrowRowsAndPrograms_3 : queued.accepts fr (askRows (0x701000 + 7) 64 1023 [1]) ∧ queued.rowInUse 7 1023 = true ∧
    rdy.accepts fr (askRows (0x701000 + 7) 64 1023 [1]) ∧ rdy.rowInUse 7 1023 = false := by unfold State.accepts; decide +kernel
theorem wit_ProgramStoreRefusesRowsInUse_1 : queued.accepts fr (askRows (0x701000 + 7) 64 1023 [1]) ∧
    2 ≤ queued.barrowState (7 * 512 + 511) ∧ (queued.barrow (7 * 512 + 511)).base ≤ 1023 ∧
    1023 ≤ (queued.barrow (7 * 512 + 511)).last := by unfold State.accepts; decide +kernel

theorem wit_LaunchesRunTheirCourse_trigger :
    let s := rdy.updBarrow 4095 fun b => { b with enable := true, trigRegion := true, regionDone := true }
    (s.barrow (s.headOf 4095)).regionDone = true ∧ (s.barrow (s.headOf 4095)).trigRegion = true ∧
    (s.barrow (s.headOf 4095)).disabled = false ∧ (s.barrow (s.headOf 4095)).lastTrigger ≠ some s.time.step ∧
    (s.barrow (s.headOf 4095)).queue.length < 16 := by decide +kernel
theorem wit_LaunchesRunTheirCourse_start : (queued.barrow 4095).queue = [⟨1, .doorbell, 5, [], 0, 1023, false, 0, 0, 100, false, 1, 0, 16⟩] ∧
    queued.canStart 4095 = true := by decide +kernel
/-- A gang of the barrows with index 511 that waits while slice 7 has no free place. -/
def waitingGang : State := (rdy.updBarrow 511 fun b => { b with
    enable := true, gang := true, last := 3,
    queue := [⟨1, .doorbell, 5, [], 0, 3, false, 0, 0, 100, true, 1, 0, 1⟩] }).updSlice 7 fun x => { x with keeps := [5] }
theorem wit_LaunchesRunTheirCourse_keeps :
    let l : Launch := ⟨1, .doorbell, 5, [], 0, 3, false, 0, 0, 100, true, 1, 0, 1⟩
    (waitingGang.barrow 511).queue = [l] ∧ waitingGang.canStart 511 = false ∧ l.gang = true ∧ waitingGang.mayRun 511 = true ∧
    0 ∈ waitingGang.launchSlices 511 l ∧ waitingGang.gets 511 0 = true := by decide +kernel

/-- A launch of host 5 over rows 0 to 3. -/
def lch : Launch := ⟨1, .doorbell, 5, [1], 0, 3, false, 0, 0, 100, false, 1, 0, 16⟩
/-- A member in slice 7. -/
def mem7 : Member := { slice := 7, row := 0 }
/-- The board of `hst`, with every line of granule 0 open to barrow 4,095, which runs these members over row `d`. -/
def running (d : Nat) (ms : List Member) : State :=
  let s := hst.updBarrow 4095 fun b => { b with
    enable := true, tenant := 1, last := 3, running := some ⟨lch, 0, 0, 0, 0, none, none, ms⟩ }
  s.updSlice 7 fun x => { x with program := [(0, BitVec.ofNat 512 d)] }
theorem wit_LaunchesRunTheirCourse_complete : let s := running 0 [{ mem7 with ended := true }]
    (s.barrow (s.runHead 4095)).running = some ⟨lch, 0, 0, 0, 0, none, none, [{ mem7 with ended := true }]⟩ ∧
    s.halCovered mem7.hseq = true := by decide +kernel
theorem wit_LaunchesRunTheirCourse_budget : let s := running 0 [{ mem7 with rows := 100 }]
    (s.barrow (s.runHead 4095)).running.isSome = true ∧ lch.budget ≤ 100 ∧
    s.accepts fr (askWrite kBarrowAbort 2 4095) := by unfold State.accepts; decide +kernel

/-- A row: opcode, SET 2, MOD, COND, and operands of 32 elements at page 7. -/
def row (op mod cond : Nat) : Nat :=
  op + 2 * 2 ^ 8 + cond * 2 ^ 10 + 2 ^ 14 + 2 ^ 24 + mod * 2 ^ 64 + 13 * 2 ^ 76 * b2n (op == opReduce) + 32 * 2 ^ 112
    + 0x7000 * 2 ^ 144 + 0x7000 * 2 ^ 196 + 0x7000 * 2 ^ 248 + 0x7000 * 2 ^ 300
/-- The context of the member that runs it. -/
def ctxOf (op mod cond : Nat) : Option Ctx := (running (row op mod cond) [mem7]).ctx 4095 7
theorem wit_DescriptorsRunInTheirMember_rows :
    ∀ p ∈ [(opFill, 0), (opCopy, 0), (opCompare, 0), (opDigest, 0), (opReduce, 0), (opReduce, 1), (opReduce, 2), (opReduce, 3),
        (opReduce, 4), (opCast, 0), (opScaleAdd, 0), (opUpdate, 0), (opUpdate, 1), (opUpdate, 2), (opUpdate, 3)],
      (ctxOf p.1 p.2 0).any (fun c => isDesc p.1 p.2 c.d && (c.m.work.isNone && (!c.d.malformed && condHolds c.d.cond c.m.flags 1)))
        = true := by
  decide +kernel
theorem wit_DescriptorsRunInTheirMember_start : (ctxOf opFill 0 0).any (fun c =>
      (plainStart (fun c => c.ops [(.dest, 0)]) (running (row opFill 0 0) [mem7]) c).1.isNone) = true ∧
    (ctxOf opReduce 1 0).any (fun c => (State.addStart (running (row opReduce 1 0) [mem7]) c).1.isSome) = true ∧
    (ctxOf opFill 0 6).any (fun c => !condHolds c.d.cond c.m.flags (c.run.launch.params.getD 0 0)) = true := by decide +kernel

theorem wit_DescriptorsRunInTheirMember_malformed : let s := running (row opFill 0 8) [mem7]
    (s.ctx 4095 7).any (fun c => c.m.work.isNone && (c.d.op != 0 && (decide (7 < c.d.cond) && c.d.malformed))) = true ∧
    s.repair.sram = [] := by decide +kernel
/-- A member in slice 7 at work on a descriptor with these pages left. -/
def memAt (pages : List Nat) (bad : Bool) : Member := { mem7 with work := some { pages := pages, bad := bad } }
theorem wit_DescriptorsRunInTheirMember_pages : let s (pages : List Nat) (bad : Bool) := running (row opFill 0 0) [memAt pages bad]
    ∀ p ∈ [([8], false), ([8], true), ([8, 16], false)], ((s p.1 p.2).ctx 4095 7).any (fun c => isDesc opFill 0 c.d &&
      (c.m.work.any fun w => w.pages == p.1 && (w.bad == p.2 &&
        (fillKernel.page ((s p.1 p.2).pipePush 7 5 c.head 0) { c with page := 8 }).2 == .done))) = true := by decide +kernel
/-- The snapshot buffer of slice 7 is full, and barrow 7 reads granule 0. -/
def snapFull (s : State) : State := s.updSlice 7 fun x => { x with
  snapRanges := [⟨7, 0, 2 ^ 24⟩], snapLines := List.replicate 4096 ⟨7, 2 ^ 20, clearLine⟩ }
theorem wit_DescriptorsRunInTheirMember_full : let s := snapFull (running (row opFill 0 0 - 31 * 2 ^ 112) [memAt [7] false])
    (s.ctx 4095 7).any (fun c => (fillKernel.page (s.pipePush 7 5 c.head 0) { c with page := 7 }).2 == .full) = true := by
  decide +kernel
theorem wit_DescriptorsRunInTheirMember_none : (ctxOf opFill 0 0).any (fun c =>
      (fillKernel.start (running (row opFill 0 0) [mem7]) c).1.isNone) = true := by decide +kernel

theorem wit_MembersEndAndSynchronise_end : ((running 0 [mem7]).ctx 4095 7).any (fun c => c.d.op == 0 && c.m.work.isNone) = true := by decide +kernel
/-- The same board with the gang of barrows 511, 1,023, … running. -/
def gang (ms : List Member) : State :=
  let s := hst.updBarrow 511 fun b => { b with
    enable := true, tenant := 1, last := 3, gang := true, running := some ⟨{ lch with gang := true }, 0, 0, 0, 0, none, none, ms⟩ }
  s.updSlice 7 fun x => { x with program := [(0, BitVec.ofNat 512 (row opSync 0 0))] }
theorem wit_MembersEndAndSynchronise_sync : let s := gang [mem7, { slice := 0, row := 0 }]
    (s.ctx 4095 7).any (fun c => c.d.op == opSync && (!c.d.malformed && (condHolds c.d.cond c.m.flags 1 &&
      c.run.launch.gang))) = true ∧ s.repair.sram = [] := by decide +kernel
theorem wit_MembersEndAndSynchronise_alone : let s := running (row opSync 0 0) [mem7]
    (s.ctx 4095 7).any (fun c => c.d.op == opSync && (!c.d.malformed && (condHolds c.d.cond c.m.flags 1 &&
      (!c.run.launch.gang && c.m.work.isNone)))) = true := by decide +kernel
theorem wit_MembersEndAndSynchronise_complete : let ms : List Member := [{ mem7 with atSync := some 0 }, { slice := 0, row := 0, atSync := some 0 }]
    let s := gang ms
    (s.barrow (s.runHead 4095)).running = some ⟨{ lch with gang := true }, 0, 0, 0, 0, none, none, ms⟩ ∧ (∃ m ∈ ms, m.ended = false) ∧
    (∀ m ∈ ms, s.halCovered m.hseq = true ∧ (m.ended = false → m.atSync.isSome = true)) ∧
    (∀ m ∈ ms, m.ended = false → m.atSync = some 0 ∧ m.norm.anchor = none) := by decide +kernel
theorem wit_MembersEndAndSynchronise_apart : let ms : List Member := [{ mem7 with atSync := some 0 }, { slice := 0, row := 1, atSync := some 1 }]
    ((gang ms).barrow ((gang ms).runHead 4095)).running = some ⟨{ lch with gang := true }, 0, 0, 0, 0, none, none, ms⟩ ∧
    ∃ m ∈ ms, ∃ m' ∈ ms, m.ended = false ∧ m'.ended = false ∧ m.atSync ≠ m'.atSync := by decide +kernel


/-! ### Witnesses: time, trees, egress -/

/-- A Delay_Resp, or another message, of master 7 with sequence number 3. -/
def ptp : PtpMsg := ⟨0, 3, 7, { priority1 := 5, gm := 7 }, true, 1000, 0, 900⟩
/-- The board that follows that master, in a time state. -/
def timed (ph : TimePhase) (good bad : Nat) : State := { rdy with time := { rdy.time with
  phase := ph, goodRun := good, badRun := bad, master := some (7, ptp.dataset), sync := some (3, 900, 0), t1t2 := some (1000, 900, 0)
  delayReq := some (3, 800) } }
theorem wit_TimeFollowsItsMaster_1 : let s := timed .free 0 0
    s.reg kTimeSource = 0 ∧ ptp.domain = s.reg kTimeDomain ∧ s.time.master = some (ptp.master, ptp.dataset) ∧ ptp.twoStep = true ∧
    ({ ptp with twoStep := false } : PtpMsg).twoStep = false ∧
    s.time.sync = some (ptp.seq, 900, 0) ∧ s.time.t1t2 = some (1000, 900, 0) ∧ s.time.delayReq = some (ptp.seq, 800) := by
  decide +kernel
theorem wit_TimeFollowsItsMaster_2 : let o : PtpMsg → Int := fun m => ((1000 : Int) + 0 - 900 + (m.origin - m.correction - 800)) * 500
    let t := timed .locked 0 3
    let u := timed .acquiring 15 0
    (o { ptp with origin := 2701 } < -1000000 ∨ 1000000 < o { ptp with origin := 2701 }) ∧
    t.time.phase = .locked ∧ t.time.badRun = 3 ∧ 8000 < o ptp ∧ u.time.phase = .acquiring ∧ u.time.goodRun = 15 ∧
    o { ptp with origin := 716 } = 8000 := by decide +kernel
theorem wit_TimeFollowsItsMaster_3 : rdy.reg kTimeSource = 0 ∧ ({ ptp with domain := 255 } : PtpMsg).domain ≠ rdy.reg kTimeDomain ∧
    (∀ pr, rdy.time.master ≠ some (7, pr)) ∧ rdy.time.master = none ∧
    rdy.reg kTimeSource = 0 ∧ ptp.domain = rdy.reg kTimeDomain :=
  ⟨by decide +kernel, by decide +kernel, fun _ h => (Option.some_ne_none _ h.symm).elim, by decide +kernel, by decide +kernel,
    by decide +kernel⟩
theorem wit_TimeFollowsItsMaster_better : let d : PtpDataset := { priority1 := 6, gm := 8 }
    let s : State := { rdy with time := { rdy.time with master := some (8, d) } }
    s.time.master = some (8, d) ∧ 8 ≠ ptp.master ∧ ptp.dataset.gm ≠ d.gm ∧ ptp.dataset.priority1 < d.priority1 ∧
    ptpBetter ptp.dataset ptp.master d 8 = true ∧ ptpBetter { ptp.dataset with priority1 := 7 } ptp.master d 8 = false ∧
    (timed .holdover 0 0).time.master = some (ptp.master, ptp.dataset) ∧ (timed .locked 0 0).time.phase = .locked := by
  decide +kernel

/-- A READY board that holds a MARK of step 1. -/
def marked : State := { rdy with time := { rdy.time with heldMarks := [⟨65536, 10⟩] } }
theorem wit_MarksAdvanceTheStep_1 : marked.time.heldMarks = [⟨65536, 10⟩] ∧ marked.markValue < 65536 ∧
    ({ marked with time := { marked.time with step := 1 } } : State).markValue = 65536 := by decide +kernel
theorem wit_MarksAdvanceTheStep_2 : rdy.boot.stage = .ready ∧ rdy.time.fallback = false ∧
    rdy.time.lastMark ≠ some rdy.time.ticks ∧
    ({ rdy with time := { rdy.time with lastMark := some 0 } } : State).time.lastMark = some rdy.time.ticks ∧
    rdy.accepts fr (askWrite kStepSet 8 (2 ^ 64 - 1)) := by unfold State.accepts; decide +kernel
theorem wit_MarksAdvanceTheStep_3 : let v := ({ valid := true, action := 8, step := 1, rep := 0 } : Sched).word
    let w := ({ valid := true, action := 9 } : Sched).word
    let z := ({ valid := true, action := 8, rep := 0 } : Sched).word
    rdy.accepts fr (askRows kScheduleTable 16 1023 [v]) ∧ ¬ (8 < (schedOfWord v).action) ∧
    rdy.markValue < (schedOfWord v).step * 65536 + (schedOfWord v).phase ∧
    rdy.accepts fr (askRows kScheduleTable 16 1023 [w]) ∧ 8 < (schedOfWord w).action ∧
    (schedOfWord z).valid = true ∧ (schedOfWord z).rep = 0 ∧
    (schedOfWord z).step * 65536 + (schedOfWord z).phase ≤ rdy.markValue := by unfold State.accepts; decide +kernel

/-- A VALID tree of tenant 1 to stall 2 over one page of slice 7. -/
def tre : Tree := { valid := true, tenant := 1, lines := 64, src := 0x7000, member := 4 }
/-- The board of `hst` with tree 255 in a phase, with an operation. -/
def treed (ph : TreePhase) (o : Option BuntOp) : State :=
  { hst with trees := [(255, { tre with phase := ph, op := o })] }
/-- An operation whose one member is stall 2. -/
def bop (fate : BuntMember) (missed : List (Nat × Nat)) : BuntOp :=
  ⟨0, 0, none, [⟨2, fate, missed, false, 0⟩], 1, 0, 0, none, 0, 0, 0, 0, 0, []⟩
theorem wit_TreesStartAndComplete_table : let v := 2 ^ 63 + 64 * 2 ^ 64
    let n := (hst.tree 255).withRow (64 * 2 ^ 64)
    hst.accepts fr (askRows kBuntingTable 40 255 [64 * 2 ^ 64]) ∧ hst.accepts fr (askRows kBuntingTable 40 255 [v]) ∧
    (hst.tree 255).phase ≠ .running ∧ n.cqOrder ≤ 12 ∧ n.src % 64 = 0 ∧ n.lines ≤ 0x10000000 ∧
    hst.accepts fr (askRows kBuntingTable 40 255 [0]) ∧ ((hst.tree 255).withRow 0).lines = 0 := by unfold State.accepts; decide +kernel
theorem wit_TreesStartAndComplete_members : hst.accepts fr (askRows kBuntingMembers 128 255 [2 ^ 1024 - 1]) ∧
    (hst.tree 255).phase ≠ .running ∧ (treed .running none).accepts fr (askRows kBuntingMembers 128 255 [1]) ∧
    ((treed .running none).tree 255).phase = .running := by unfold State.accepts; decide +kernel
theorem wit_TreesStartAndComplete_go : let s := treed .idle none
    s.accepts fr (askWrite kBuntGo 1 255) ∧ s.boot.stage = .ready ∧ (s.tree 255).phase = .idle ∧ (s.tree 255).valid = true ∧
    hst.accepts fr (askWrite kBuntGo 1 255) ∧ (hst.tree 255).valid = false ∧
    (treed .waiting none).accepts fr (askWrite kBuntGo 1 255) ∧ ((treed .waiting none).tree 255).phase ≠ .idle := by
  unfold State.accepts; decide +kernel
theorem wit_TreesStartAndComplete_start : let s := treed .waiting none
    (s.tree 255).phase = .waiting ∧ (s.tree 255).valid = true ∧
    rotate 256 (s.slice s.firstSlice).treePtr (fun k => (s.tree k).phase == .waiting) = some 255 ∧ s.runningTrees < 4 := by
  decide +kernel
theorem wit_TreesStartAndComplete_abort : let s := treed .running (some (bop .active []))
    s.accepts fr (askWrite kBuntAbort 1 255) ∧ (s.tree 255).phase = .running ∧ (s.tree 255).op = some (bop .active []) ∧
    (bop .active []).stop = none := by unfold State.accepts; decide +kernel
theorem wit_TreesStartAndComplete_complete : let s := treed .running (some (bop .delivered []))
    (s.tree 255).op = some (bop .delivered []) ∧ (∀ m ∈ (bop .delivered []).mems, m.fate ≠ .active) ∧
    (s.tree 255).fromLaunch = none := by decide +kernel

/-- A PUSH of the page to stall 2. -/
def psh (waiting : Bool) (page : Option Nat) : Push := ⟨6, 255, 7, 2, page, ⟨0x38, 5, 6, 1, 0, 64, 0, 0x7000, []⟩, 0, waiting, true⟩
theorem wit_PushesReachTheMembers_send : let s := treed .running (some (bop .active []))
    (s.tree 255).op = some (bop .active []) ∧ s.pagesHeld 7 < 16 ∧ (s.buntPages (s.tree 255) 7)[0]? = some (0x7000, 64) ∧
    (let u : State := { s with pitch := { s.pitch with table := [] } }
     u.operandStatus 1 0 false .source (u.board * 2 ^ 44 + 0x7000) (64 * 64) ≠ .ok) ∧
    s.operandStatus 1 0 false .source (s.board * 2 ^ 44 + 0x7000) (64 * 64) = .ok := by decide +kernel
theorem wit_PushesReachTheMembers_response : let s : State := { treed .running (some (bop .active [])) with pushes := [psh false (some 0x7000)] }
    s.pushOf ⟨47, 5, 6, 0, 0, 0⟩ = some (psh false (some 0x7000)) ∧ Status.ofCode 0 = .ok ∧
    s.pushOf ⟨47, 5, 6, 1, 0, 0⟩ = some (psh false (some 0x7000)) ∧ Status.ofCode 1 = .retryBusy ∧
    s.pushOf ⟨47, 5, 6, 2, 0, 0⟩ = some (psh false (some 0x7000)) ∧ Status.ofCode 2 ≠ .ok ∧ Status.ofCode 2 ≠ .retryBusy ∧
    (s.tree 255).op = some (bop .active []) ∧
    (let u : State := { s with pushes := [psh false none] }; u.pushOf ⟨47, 5, 6, 0, 0, 0⟩ = some (psh false none)) := by
  decide +kernel
theorem wit_PushesReachTheMembers_retry : let s : State := { treed .running (some (bop .active [])) with pushes := [psh true none] }
    s.pushes.find? (fun q => q.tag == 6 && q.waiting) = some (psh true none) ∧ s.pushes.find? (fun q => q.tag == 6 && q.sent) = some (psh true none) ∧
    (s.tree 255).op = some (bop .active []) := by
  decide +kernel
/-- The operation of that board with its page missed by stall 2, while these PUSHes wait. -/
def catching (pushes : List Push) : State :=
  { treed .running (some { bop .active [(7, 0x7000)] with pages := [(7, 1)] }) with pushes := pushes }
theorem wit_PushesReachTheMembers_catchup : let s := catching []
    let o := { bop .active [(7, 0x7000)] with pages := [(7, 1)] }
    (s.tree 255).op = some o ∧ o.stop = none ∧ (s.buntPages (s.tree 255) 7).length ≤ o.pages.get 0 7 ∧
    o.mems = [⟨2, .active, [(7, 0x7000)], false, 0⟩] ∧ s.pagesHeld 7 + 1 ≤ 16 ∧
    s.pageStatus (s.tree 255) 0x7000 ((s.tree 255).pageLines 0x7000) = .ok := by decide +kernel
theorem wit_PushesReachTheMembers_full :
    let s := catching ((upTo 16).map fun i => { psh false (some (0x7000 + 4096 * i)) with tag := i, sent := false })
    16 ≤ s.pagesHeld 7 ∧ s.pagesHeld 7 ≤ 16 ∧ ∃ p ∈ s.pushes, p.tree = 255 ∧ p.slice = 7 ∧ p.stall = 2 ∧ p.page = some 0x7000 ∧
      p.sent = false := by decide +kernel
theorem wit_PushesReachTheMembers_unreadable :
    let s : State := { catching [] with pitch := { hst.pitch with table := [] } }
    s.pagesHeld 7 < 16 ∧ s.pageStatus (s.tree 255) 0x7000 ((s.tree 255).pageLines 0x7000) ≠ .ok := by decide +kernel

theorem wit_ShapersAndGatesAreSet_shaper : let v := 100 + 4608000 * 2 ^ 32 + 8192 * 2 ^ 64 + 67108864 * 2 ^ 96
    rdy.accepts fr (askRows kShaperTable 32 1023 [v]) ∧ 100 ≤ bits v 0 32 ∧ bits v 0 32 ≤ 4608000 ∧ 100 ≤ bits v 32 32 ∧
    bits v 32 32 ≤ 4608000 ∧ 8192 ≤ bits v 64 32 ∧ bits v 64 32 ≤ 67108864 ∧ 8192 ≤ bits v 96 32 ∧ bits v 96 32 ≤ 67108864 ∧
    rdy.accepts fr (askRows kShaperTable 32 1023 [99]) ∧ bits 99 0 32 ≠ 0 ∧ bits 99 0 32 < 100 := by unfold State.accepts; decide +kernel
/-- A gate list in a table of lists: list 3, rows out of order of PHASE. -/
def badList : State := { rdy with gates := { rdy.gates with
  lists := [(768, { valid := true, phase := 5 }), (769, { valid := true, phase := 5 })] } }
theorem wit_ShapersAndGatesAreSet_list : rdy.accepts fr (askWrite kActiveGateList 1 3) ∧ gateListOk (rdy.gateRows 3) = true ∧
    rdy.boot.stage = .ready ∧ rdy.time.fallback = false ∧ badList.accepts fr (askWrite kActiveGateList 1 3) ∧
    gateListOk (badList.gateRows 3) = false := by unfold State.accepts; decide +kernel
theorem wit_ShapersAndGatesAreSet_rows : let s := rdy.setReg kActiveGateList 1
    let r := 1023
    s.accepts fr (askRows kGateLists 4 r [0xFF]) ∧ r / 256 ≠ s.reg kActiveGateList ∧ (gateOfWord 0xFF).migrate ≠ 3 ∧
    (gateOfWord 0xFF).scrub ≠ 3 ∧ s.accepts fr (askRows kGateLists 4 256 [0xFF]) ∧ 256 / 256 = s.reg kActiveGateList := by
  unfold State.accepts; decide +kernel
theorem wit_ShapersAndGatesAreSet_commit : let s : State := { rdy with gates := { rdy.gates with fbStage := [] } }
    rdy.accepts fr (askWrite kFbOffset 4 (2 ^ 32 - 1)) ∧ rdy.accepts fr (askWrite kFbCommit 1 1) ∧ rdy.fbStageOk = true ∧
    s.accepts fr (askWrite kFbCommit 1 1) ∧ s.fbStageOk = false := by unfold State.accepts; decide +kernel
theorem wit_ShapersAndGatesAreSet_fallback : let s : State := { rdy with time := { rdy.time with fallback := true } }
    s.time.fallback = true ∧ s.boot.stage = .ready ∧ (fbAt s.fbRows 0 s.fbPhase).1 = s.gates.fbIndex ∧
    s.fbRows[(s.gates.fbIndex + 1) % max 1 s.fbRows.length]? = some { valid := true } := by decide +kernel

theorem wit_PacketsLeaveInTurn_wheel : let s := hst.updSlice 7 fun x => { x with wheel := [(16, 2)] }
    let u (st : Nat) : State := { s with time := { s.time with ao := 16 }, shapers := [(2, { rateOut := 100, creditOut := -st })] }
    ((s.slice 7).wheel.map Prod.fst).min? = some 16 ∧ (16, 2) ∈ (s.slice 7).wheel ∧ (u 0).outOpen 2 = true ∧
    (u 10000000000).outOpen 2 = false := by decide +kernel
/-- A board packet for stall 2, and the board with it at slice 7's egress under some OUT rate. -/
def eg (paid : Bool) : EgPkt := ⟨2, 0, .mgmt, .hal 0 [], paid⟩
def flowing (rate : Nat) (paid : Bool) : State :=
  { hst.updSlice 7 fun x => { x with eligible := [2], egress := [eg paid] } with shapers := [(2, { rateOut := rate })] }
theorem wit_PacketsLeaveInTurn_flow : let s := flowing 100 false
    s.xbar.sent.any (fun e => e.1 == 7) = false ∧
    rotate flowCount (s.slice 7).flowPtr (fun j => (s.slice 7).eligible.contains j) = some 2 ∧ s.silenced 2 = false ∧
    s.liveLinks 2 ≠ [] ∧ s.nextPacket 7 2 = some (eg false, 47) ∧ (s.shaper 2).rateOut ≠ 0 ∧
    (flowing 0 false).nextPacket 7 2 = some (eg false, 47) ∧ ((flowing 0 false).shaper 2).rateOut = 0 ∧
    (flowing 100 true).nextPacket 7 2 = some (eg true, 47) := by decide +kernel
theorem wit_PacketsLeaveInTurn_turn : let t := flowing 100 false
    let s : State := { t with xbar := { t.xbar with sent := [(7, 3)] } }
    s.xbar.sent.any (fun e => e.1 == 7) = true ∧
    rotate flowCount (s.endSends.slice 7).flowPtr (fun j => (s.endSends.slice 7).eligible.contains j) = some 2 := by decide +kernel
theorem wit_PacketsLeaveInTurn_silenced : let s := (flowing 0 false).updStall 2 fun x => { x with phase := .fenced }
    let u := (flowing 0 false).updLink 47 fun l => { l with phase := .held }
    rotate flowCount (s.slice 7).flowPtr (fun j => (s.slice 7).eligible.contains j) = some 2 ∧ s.silenced 2 = true ∧
    rotate flowCount (u.slice 7).flowPtr (fun j => (u.slice 7).eligible.contains j) = some 2 ∧ u.silenced 2 = false ∧
    u.liveLinks 2 = [] := by decide +kernel
theorem wit_PacketsLeaveInTurn_noPacket : let s := (flowing 0 false).updSlice 7 fun x => { x with egress := [] }
    let u : State := { flowing 0 false with gates := { rdy.gates with tcOpen := 0 } }
    s.nextPacket 7 2 = none ∧ (∀ p ∈ (s.slice 7).egress, p.stall ≠ 2) ∧ u.nextPacket 7 2 = none ∧
    (u.slice 7).egress.any (fun p => p.stall == 2) = true ∧
    (u.liveLinks 2).any (fun n => (u.link n).takes 4124) = true := by decide +kernel
/-- A request at the front of level 3 of slice 7's pipeline. -/
def granted (op : ReqOp) : State := hst.updSlice 7 fun x => { x with
  tracker := [{ doneTrk with stage := .queued, op := op }], pipe := { q3 := [⟨47, 3, 0⟩] } }
theorem wit_PacketsLeaveInTurn_pipe :
    ((granted .read).slice 7).park ≠ .parked ∧ ((granted .read).slice 7).pipe.age.overflow.pick = some 3 ∧
    (((granted .read).slice 7).pipe.age.overflow.grant 3).1 = some ⟨47, 3, 0⟩ ∧ 47 ≠ cohSource ∧
    ((granted .read).slice 7).trk 3 = some { doneTrk with stage := .queued } ∧
    ((granted .hint).slice 7).trk 3 = some { doneTrk with stage := .queued, op := .hint } := by decide +kernel
theorem wit_PacketsLeaveInTurn_pipeNone : let s := hst.updSlice 7 fun x => { x with pipe := { q1 := [⟨0, 3, 0⟩] } }
    (hst.slice 7).pipe.age.overflow.pick = none ∧ (s.slice 7).pipe.age.overflow.pick = some 1 := by decide +kernel
theorem wit_PacketsLeaveInTurn_promote : let s := hst.updSlice 7 fun x => { x with
      pipe := { q6 := [⟨0, 3, 0⟩], q4 := [⟨0, 3, 0⟩], wait6 := 32, wait4 := 16 } }
    (s.slice 7).pipe.level 6 ≠ [] ∧ promotionTime 6 ≤ (s.slice 7).pipe.waited 6 ∧ (s.slice 7).pipe.level 4 ≠ [] ∧
    promotionTime 4 ≤ (s.slice 7).pipe.waited 4 := by decide +kernel
theorem wit_PacketsLeaveInTurn_out : let s : State := { hst with xbar := { hst.xbar with outWait := [(47, [(8, eg true)])] } }
    let d := s.updLink 47 fun l => { l with phase := .training }
    let f := s.updLink 47 fun l => { l with
      unacked := List.replicate 32 ⟨0, 0, false, .hostPort, .hal 0 (List.replicate 64 0)⟩ }
    pickFrom 9 (s.xbar.outPtr.get 0 47) (s.xbar.outWait.get [] 47) = some (8, eg true) ∧
    (s.link 47).takes (eg true).msg.bytes = true ∧ (s.link 47).isUp = true ∧ (d.link 47).isUp = false ∧
    (f.link 47).isUp = true ∧ (f.link 47).takes (eg true).msg.bytes = false := by decide +kernel
theorem wit_PacketsLeaveInTurn_in : let t := hst.updSlice 7 fun x => { x with tracker := [{ doneTrk with stage := .queued }] }
    let s : State := { t with xbar := { t.xbar with inWait := [(7, [(47, 3)])] } }
    pickFrom 56 (s.xbar.inPtr.get 0 7) (s.xbar.inWait.get [] 7) = some (47, 3) ∧ ((s.slice 7).trk 3).isSome = true := by decide +kernel

theorem wit_PacketsLeaveInTurn_remote :
    let s : State := { hst with xbar := { hst.xbar with inWait := [(7, [(55, 6)])] } }
    pickFrom 56 (s.xbar.inPtr.get 0 7) (s.xbar.inWait.get [] 7) = some (55, 6) := by decide +kernel
/-! ### Witnesses: pairs and moves -/

/-- The board of `hst` in a pair state, with a window of 4,096 granules and halyard link 44 up. -/
def pairIn (ph : PairPhase) : State :=
  let s := hst.updLink 44 fun _ => { upLink with kind := 2, partner := 21 }
  { s with pair := { s.pair with phase := ph, enable := true, partnerNo := 21, window := 4096 } }

/-- A halyard packet on link 44. -/
def hal (kind hseq : Nat) (epoch : BitVec 8) (data : List Line) : HalPkt :=
  ⟨44, ({ kind := kind, poisoned := false, cleared := false, pairEpoch := epoch, sliceEpoch := 0, slot := 0, keyEpoch := 0
          hseq := hseq, offset := 0 : HalHdr }).pack, data⟩

theorem wit_PacketsAreAppliedAndMirrored_turn : let s := pairIn .paired
    44 ∈ s.liveHalyard ∧ (halHdr (hal 1 0 0 [7]).hdr).kind = 1 ∧ (halHdr (hal 1 0 0 [7]).hdr).pairEpoch = s.pair.epoch ∧
    s.pair.rxAhead = [] ∧ (halHdr (hal 1 0 0 [7]).hdr).hseq = s.pair.applyNext ∧
    (s.slice (s.sliceOf 0).1).epoch = (halHdr (hal 1 0 0 [7]).hdr).sliceEpoch ∧
    (halHdr (hal 2 0 0 [1 + 1 * 2 ^ 64]).hdr).kind = 2 ∧ bits (1 + 1 * 2 ^ 64) 0 8 = 1 ∧ 1 < ownMark ∧
    (halHdr (hal 3 0 0 []).hdr).kind = 3 ∧ (halHdr (hal 4 0 0 []).hdr).kind = 4 := by decide +kernel
theorem wit_PacketsAreAppliedAndMirrored_sliceEpoch : let s := (pairIn .paired).updSlice 0 fun x => { x with epoch := 1 }
    44 ∈ s.liveHalyard ∧ (halHdr (hal 1 0 0 [7]).hdr).pairEpoch = s.pair.epoch ∧
    (s.slice (s.sliceOf 0).1).epoch ≠ (halHdr (hal 1 0 0 [7]).hdr).sliceEpoch := by decide +kernel
theorem wit_PacketsAreAppliedAndMirrored_ahead : let s := pairIn .paired
    s.pair.applyNext = 0 ∧ ((halHdr (hal 1 (2 ^ 31 - 1) 0 [7]).hdr).hseq + 2 ^ 32 - 0) % 2 ^ 32 = 2 ^ 31 - 1 ∧
    ((halHdr (hal 1 (2 ^ 31) 0 [7]).hdr).hseq + 2 ^ 32 - 0) % 2 ^ 32 = 2 ^ 31 := by decide +kernel
theorem wit_PacketsAreAppliedAndMirrored_epoch : let s := pairIn .paired
    44 ∈ s.liveHalyard ∧ (halHdr (hal 4 0 1 [7]).hdr).pairEpoch ≠ s.pair.epoch ∧ s.pair.phase ≠ .syncing := by decide +kernel

/-- The paired board with one packet unacknowledged. -/
def pairSent : State := { pairIn .paired with pair := { (pairIn .paired).pair with
  sent := [⟨5, 1, 0, 0, 0, 0, false, false, [7], true⟩], hseqNext := 6 } }
theorem wit_PacketsAreAppliedAndMirrored_ack : let s := pairSent
    s.halArrived 5 (hal 5 4 0 [BitVec.ofNat 512 (5 + 4 * 2 ^ 32)]) = true ∧
    (halHdr (hal 5 4 0 [BitVec.ofNat 512 (5 + 4 * 2 ^ 32)]).hdr).pairEpoch = s.pair.epoch ∧ s.pair.epochDeferred = false ∧
    s.pair.copyHseq = none ∧ s.pair.relinq = none ∧ bits (5 + 4 * 2 ^ 32) 32 8 = 4 ∧ s.halArrived 5 (hal 5 5 0 [0]) = true := by
  decide +kernel
theorem wit_PacketsAreAppliedAndMirrored_ackSend : let s := pairSent
    s.pickLink s.pair.halPtr s.liveHalyard (plainHal 5 (hseqBefore s.pair.applyNext) s.pair.epoch
      [BitVec.ofNat 512 ((s.pair.nacked.map fun h => h + 4 * 2 ^ 32).getD 0)]).bytes = some 44 := by decide +kernel
theorem wit_PacketsAreAppliedAndMirrored_epochEnd : let s : State := { pairSent with pair := { pairSent.pair with
      sent := [⟨5, 4, 0, 0, 0, 0, false, false, [7], false⟩] } }
    pairSent.mirrors = true ∧ pairSent.epochUnsent = false ∧ s.mirrors = true ∧ s.epochUnsent = true := by decide +kernel
theorem wit_PacketsAreAppliedAndMirrored_copy : let s : State := { pairSent with pair := { pairSent.pair with resync := [4095] } }
    s.pair.copyHseq = none ∧ s.pair.phase = .paired ∧ s.pair.resync = [4095] ∧ s.pair.enable = true := by decide +kernel

theorem wit_PairsFollowTheirPartner_settle : let s : State := { pairIn .unpaired with pair := { (pairIn .unpaired).pair with heartbeatSent := true } }
    let u : Nat → Line := fun phase => BitVec.ofNat 512 (phase + 4096 * 2 ^ 128)
    s.halArrived 6 (hal 6 0 0 [u 0]) = true ∧ bits (u 0).toNat 0 8 = 0 ∧ bits (u 0).toNat 128 32 = s.pair.window ∧
    s.pair.phase = .unpaired ∧ s.pair.heartbeatSent = true ∧ s.mayAdvance s.pair.pairAdvances = true ∧
    bits (u 3).toNat 0 8 = 3 ∧ bits (u 3).toNat 128 32 = s.pair.window ∧ bits (u 5).toNat 0 8 = 5 ∧
    bits (BitVec.ofNat 512 0).toNat 128 32 ≠ s.pair.window := by decide +kernel
/-- A relinquish that has sent its stream end, or not. -/
def rel (handback expired ended : Bool) : Relinquish := ⟨4, 20, handback, expired, ended, false, false⟩
/-- The board that relinquishes. -/
def relIn (r : Relinquish) : State := { pairIn .relinquishing with pair := { (pairIn .relinquishing).pair with relinq := some r } }
theorem wit_PairsFollowTheirPartner_others : let u : Nat → Line := fun phase => BitVec.ofNat 512 phase
    (pairIn .solo).halArrived 6 (hal 6 0 0 [u 2]) = true ∧ (pairIn .solo).pair.phase = .solo ∧
    (pairIn .syncing).halArrived 6 (hal 6 0 0 [u 2]) = true ∧ (pairIn .syncing).pair.phase = .syncing ∧ bits (u 2).toNat 0 8 = 2 ∧
    (relIn (rel true false true)).halArrived 6 (hal 6 0 0 [u 2]) = true ∧
    (relIn (rel true false true)).pair.relinq = some (rel true false true) ∧ (rel true false true).handback = true ∧
    (relIn (rel false false true)).pair.relinq = some (rel false false true) ∧ bits (u 5).toNat 0 8 = 5 := by decide +kernel
theorem wit_PairsFollowTheirPartner_relinquish : (pairIn .paired).halArrived 7 (hal 7 0 0 [4]) = true ∧
    (pairIn .syncing).halArrived 7 (hal 7 0 0 [4]) = true ∧ (pairIn .syncing).pair.phase = .syncing ∧ bits (4#512).toNat 0 8 = 4 ∧
    (pairIn .solo).halArrived 7 (hal 7 0 0 [4]) = true ∧ (pairIn .solo).pair.phase ≠ .paired := by decide +kernel
/-- A state whose pair epoch has advanced 255 times in the last 24 hours. -/
def worn (s : State) : State := { s with pair := { s.pair with pairAdvances := List.replicate 255 0 } }
theorem wit_PairsFollowTheirPartner_worn : (worn (pairIn .paired)).halArrived 7 (hal 7 0 0 [4]) = true ∧
    (worn (pairIn .paired)).mayAdvance (worn (pairIn .paired)).pair.pairAdvances = false ∧
    (pairIn .paired).mayAdvance (pairIn .paired).pair.pairAdvances = true ∧
    (pairIn .syncing).mayAdvance (pairIn .syncing).pair.pairAdvances = true := by decide +kernel
theorem wit_PairsFollowTheirPartner_streamEnd : let s := pairIn .takingOver
    s.halArrived 8 (hal 8 0 0 []) = true ∧ s.pair.phase = .takingOver ∧ (halHdr (hal 8 0 0 []).hdr).pairEpoch = s.pair.epoch := by
  decide +kernel
theorem wit_PairsFollowTheirPartner_taken : (pairIn .paired).halArrived 9 (hal 9 0 0 [20]) = true ∧
    (pairIn .paired).pair.phase = .paired ∧ (pairIn .solo).halArrived 9 (hal 9 0 0 [20]) = true := by decide +kernel
theorem wit_PairsFollowTheirPartner_ours : let s := relIn (rel false true false)
    s.pair.relinq = some (rel false true false) ∧ (rel false true false).ended = false ∧ (rel false true false).expired = true ∧
    (relIn (rel false false false)).pair.relinq = some (rel false false false) ∧
    ((relIn (rel false false false)).trkWhere fun e => (rel false false false).concerns e && e.running) = [] ∧
    s.pair.sent = [] ∧ s.liveHalyard ≠ [] := by decide +kernel
theorem wit_PairsFollowTheirPartner_takenOn :
    ({ pairIn .takingOver with pair := { (pairIn .takingOver).pair with takenOn := true } } : State).pair.takenOn = true := by decide +kernel

theorem wit_TakeoversRunTheirCourse_commands :
    (∀ c ∈ [1, 2, 3], (pairIn .paired).accepts fr (askWrite kPairCommand 1 c) ∧ rdy.accepts fr (askWrite kPairCommand 1 c)) ∧
    (pairIn .paired).pair.phase = .paired ∧ rdy.pair.phase ≠ .paired := by unfold State.accepts; decide +kernel
theorem wit_TakeoversRunTheirCourse_rejoin : let s := pairIn .solo
    let t : State := { s with pair := { s.pair with resync := [0] } }
    let full : State := worn s
    s.accepts fr (askWrite kPairCommand 1 3) ∧ s.pair.activeSide = false ∧ s.pair.phase = .solo ∧
    s.mayAdvance s.pair.pairAdvances = true ∧ s.pair.resync = [] ∧ t.accepts fr (askWrite kPairCommand 1 3) ∧ t.pair.resync ≠ [] ∧
    full.accepts fr (askWrite kPairCommand 1 3) ∧ full.mayAdvance full.pair.pairAdvances = false := by
  unfold State.accepts; decide +kernel
theorem wit_TakeoversRunTheirCourse_worn : let s := worn (pairIn .paired)
    s.accepts fr (askWrite kPairCommand 1 2) ∧ s.pair.phase = .paired ∧ s.mayAdvance s.pair.pairAdvances = false ∧
    (pairIn .paired).mayAdvance (pairIn .paired).pair.pairAdvances = true := by unfold State.accepts; decide +kernel
theorem wit_TakeoversRunTheirCourse_present : let cut : State → State := fun s => { s with links := [] }
    let gone : State → Prop := fun s => s.pair.enable = true ∧ s.liveHalyard = [] ∧ s.pair.presentHigh = false ∧
      max s.time.ticks s.pair.halDownSince ≤ min s.time.ticks s.pair.halDownSince + s.reg kPairDecide * 1000
    gone (cut (pairIn .paired)) ∧ (cut (pairIn .paired)).pair.phase = .paired ∧
    (cut (pairIn .paired)).mayAdvance (cut (pairIn .paired)).pair.pairAdvances = true ∧
    gone (cut (pairIn .servingBoth)) ∧ (cut (pairIn .servingBoth)).pair.phase ≠ .paired ∧
    gone (cut (worn (pairIn .paired))) ∧ (pairIn .solo).pair.phase = .solo ∧ (pairIn .paired).liveHalyard ≠ [] := by
  decide +kernel
theorem wit_TakeoversRunTheirCourse_takeover : let s := pairIn .takingOver
    let t : State := { s with pair := { s.pair with finalHseq := some 9, image := { s.pair.image with
      stalls := [(1023, { phase := .attached, host := 6 })] } } }
    s.pair.phase = .takingOver ∧ s.pair.finalHseq = none ∧ t.pair.phase = .takingOver ∧ t.pair.finalHseq = some 9 ∧
    t.pair.handbackTake = false ∧ (t.pair.image.stalls.map Prod.fst).Nodup ∧
    ({ t with pair := { t.pair with handbackTake := true } } : State).pair.handbackTake = true := by decide +kernel
theorem wit_TakeoversRunTheirCourse_decide : let cut : State → State := fun s => { s with links := [] }
    (cut (pairIn .paired)).liveHalyard = [] ∧ (cut (pairIn .paired)).pair.phase = .paired ∧
    (cut { pairIn .solo with pair := { (pairIn .solo).pair with activeSide := true } }).liveHalyard = [] ∧
    (cut (relIn (rel false true true))).liveHalyard = [] ∧
    (cut (relIn (rel false true true))).pair.relinq = some (rel false true true) := by decide +kernel
theorem wit_TakeoversRunTheirCourse_partner : let s := (pairIn .servingBoth).updStall 2047 fun x => { x with phase := .attached, host := 6 }
    s.accepts fr (askWrite kPartnerFence 2 1023) ∧ s.pair.phase = .servingBoth ∧ (s.stall (1024 + 1023)).phase = .attached ∧
    rdy.accepts fr (askWrite kPartnerFence 2 1023) ∧ rdy.pair.phase ≠ .servingBoth ∧
    s.accepts fr (askWrite kPartnerDetach 2 1023) ∧ rdy.accepts fr (askWrite kPartnerDetach 2 1023) := by
  unfold State.accepts; decide +kernel

/-- The board of `hst` with a move link, link 43, to board 30, and its granule 0 HELD. -/
def movable : State :=
  let s := (hst.updLink 43 fun _ => { upLink with kind := 2, partner := 30 }).setReg kMoveLinks (2 ^ 43)
  let t := (((s.setReg kMoveInSource 30).setReg kMoveInFirst 524287).setReg kMoveInCount 1).setReg kMoveInTenant 1
  let u := (((t.setReg kMoveInTag 256).setReg kMoveOutLink 43).setReg kMoveOutCount 1).setReg kMoveOutDest 30
  { u with
    sec := { u.sec with tenants := [(1, { phase := .admitted })] }
    pitch := { u.pitch with table := [(0, { gran1 with phase := .held })] } }
/-- A move-in of granule 524,287. -/
def min1 : MoveIn := ⟨30, 524287, 1, 1, 0, 0, 0, [], 0, 0, none⟩
/-- A move-out of granule 0. -/
def mout : MoveOut := ⟨43, 0, 1, 30, 0, 0, 0, 0, 0, 0, [], false⟩
/-- A packet of the move-in. -/
def mpkt (kind hseq : Nat) (data : List Line) : HalPkt :=
  ⟨43, ({ kind := kind, poisoned := false, cleared := false, pairEpoch := 0, sliceEpoch := 0, slot := 0, keyEpoch := 0
          hseq := hseq, offset := 524287 * 2 ^ 24 : HalHdr }).pack, data⟩
theorem wit_LinesMoveBetweenBoards_open : movable.accepts fr (askWrite kMoveInGo 1 1) ∧ movable.moveInCheck = 0 ∧
    rdy.accepts fr (askWrite kMoveInGo 1 1) ∧ rdy.moveInCheck ≠ 0 := by unfold State.accepts; decide +kernel
theorem wit_LinesMoveBetweenBoards_cancel : (movable.withMoveIn min1).accepts fr (askWrite kMoveInGo 1 2) ∧
    (movable.withMoveIn min1).pair.moveIn ≠ none := by unfold State.accepts; decide +kernel
theorem wit_LinesMoveBetweenBoards_write : let s := movable.withMoveIn min1
    let t := movable.withMoveIn { min1 with finalHseq := some 0 }
    s.isMoveLink 43 = true ∧ (halHdr (mpkt 0xA 0 [7]).hdr).kind = 0xA ∧ s.pair.moveIn = some min1 ∧
    min1.takes s.pair.moveEpoch (s.link 43).partner (halHdr (mpkt 0xA 0 [7]).hdr) = true ∧ min1.ahead = [] ∧
    (halHdr (mpkt 0xA 0 [7]).hdr).hseq = min1.next ∧ min1.finalHseq ≠ some 0 ∧
    t.pair.moveIn = some { min1 with finalHseq := some 0 } ∧
    (halHdr (mpkt 0xA 1 [7]).hdr).hseq ≠ min1.next ∧ (1 + 2 ^ 32 - min1.next) % 2 ^ 32 < 2 ^ 31 := by decide +kernel
theorem wit_LinesMoveBetweenBoards_stray : movable.isMoveLink 43 = true ∧ movable.pair.moveIn = none := by decide +kernel
theorem wit_LinesMoveBetweenBoards_end : let s := movable.withMoveIn min1
    (halHdr (mpkt 0xC (2 ^ 32 - 1) []).hdr).kind = 0xC ∧ (halHdr (mpkt 0xC (2 ^ 32 - 1) []).hdr).pairEpoch = s.pair.moveEpoch ∧
    (s.link 43).partner = min1.source ∧ (halHdr (mpkt 0xC (2 ^ 32 - 1) []).hdr).hseq = hseqBefore min1.next ∧
    (halHdr (mpkt 0xC 0 []).hdr).hseq ≠ hseqBefore min1.next := by decide +kernel
theorem wit_LinesMoveBetweenBoards_endStray : let s := movable.withMoveIn { min1 with source := 31 }
    s.isMoveLink 43 = true ∧ (halHdr (mpkt 0xC 0 []).hdr).kind = 0xC ∧ s.pair.moveIn = some { min1 with source := 31 } ∧
    (s.link 43).partner ≠ 31 ∧ movable.pair.moveIn = none := by decide +kernel
theorem wit_LinesMoveBetweenBoards_ackSend : let s := movable.withMoveIn min1
    (upTo 48).find? (fun k => (s.link k).isUp && (s.isMoveLink k && (s.link k).partner == min1.source)) = some 43 ∧
    (s.link 43).takes (plainHal 0xB (hseqBefore min1.next) s.pair.moveEpoch [0]).bytes = true := by decide +kernel
theorem wit_LinesMoveBetweenBoards_out : movable.accepts fr (askWrite kMoveOutGo 1 1) ∧ movable.moveOutCheck = 0 ∧
    rdy.accepts fr (askWrite kMoveOutGo 1 1) ∧ rdy.moveOutCheck ≠ 0 := by unfold State.accepts; decide +kernel
/-- The board while it moves out. -/
def moving (m : MoveOut) : State := { movable with pair := { movable.pair with moveOut := some m } }
theorem wit_LinesMoveBetweenBoards_stop : (moving mout).pair.moveOut = some mout ∧
    (moving mout).accepts fr (askWrite kMoveOutGo 1 2) := by unfold State.accepts; decide +kernel
theorem wit_LinesMoveBetweenBoards_writeSend : let s := moving mout
    mout.nextLine < mout.count * 2 ^ 18 ∧ mout.sent.length < halyardWindow ∧
    (s.nextRun mout).any (fun r => (s.link 43).takes (TxMsg.hal (⟨0xA, r.poisoned, r.cleared, BitVec.ofNat 8 mout.epoch, 0,
      (s.ownerOf r.offset).slot, (s.key (s.ownerOf r.offset).slot).epoch, mout.nextHseq, r.offset⟩ : HalHdr).pack r.data).bytes)
      = true := by decide +kernel
theorem wit_LinesMoveBetweenBoards_ack : let m : MoveOut := { mout with nextLine := 2 ^ 18, nextHseq := 1, sent := [(0, 2 ^ 18)] }
    (moving m).pair.moveOut = some m ∧ (halHdr (mpkt 0xB 0 [0]).hdr).kind = 0xB ∧
    (halHdr (mpkt 0xB 0 [0]).hdr).pairEpoch = BitVec.ofNat 8 m.epoch ∧ m.endSent = false ∧
    (m.sent.filter fun x => decide (((halHdr (mpkt 0xB 0 [0]).hdr).hseq + 2 ^ 32 - x.1) % 2 ^ 32 < 2 ^ 31)) = m.sent ∧
    ((moving m).link 43).takes (plainHal 0xC (hseqBefore m.nextHseq) (BitVec.ofNat 8 m.epoch) []).bytes = true ∧
    (moving { m with endSent := true }).pair.moveOut = some { m with endSent := true } ∧
    (halHdr (mpkt 0xB 0 [0]).hdr).hseq = hseqBefore m.nextHseq := by decide +kernel
theorem wit_LinesMoveBetweenBoards_ackSome : let m : MoveOut := { mout with nextLine := 8, nextHseq := 1, sent := [(0, 8)] }
    (moving m).pair.moveOut = some m ∧ m.endSent = false ∧
    (m.sent.filter fun x => decide (((halHdr (mpkt 0xB 0 [0]).hdr).hseq + 2 ^ 32 - x.1) % 2 ^ 32 < 2 ^ 31)) = m.sent ∧
    8 ≠ m.count * 2 ^ 18 := by decide +kernel
theorem wit_LinesMoveBetweenBoards_links : let s := rdy.setReg kPairEnable 1
    rdy.accepts fr (askWrite kMoveLinks 8 (2 ^ 47)) ∧ rdy.reg kPairEnable ≠ 1 ∧ s.accepts fr (askWrite kMoveLinks 8 (2 ^ 47)) ∧
    s.reg kPairEnable = 1 ∧ bits (2 ^ 47) 44 4 ≠ 0 := by unfold State.accepts; decide +kernel


/-! ### Witnesses: repair, security, management -/

/-- The board of `hst` with every channel in service. -/
def chansIn : State := { hst with chans := (upTo 32).map fun c => (c, { phase := .inService, capacity := 128 }) }
theorem wit_FaultsStopAndFoldsRetire_lane : let s := onLink { upLink with inTest := 8 }
    (s.link 47).inTest.getLsbD 3 = true := by decide +kernel
theorem wit_FaultsStopAndFoldsRetire_slice : let s := hst.setReg kRetirePolicy 0
    let t : State := { hst with boot := { stage := .memory } }
    (hst.slice 7).stopped = false ∧ (hst.slice 7).inService = true ∧ hst.boot.stage = .ready ∧
    bitAt (hst.reg kRetirePolicy) 0 = true ∧ hst.repair.used = false ∧ bitAt (s.reg kRetirePolicy) 0 = false ∧
    t.boot.stage ≠ .ready ∧ (pairIn .paired).pair.phase = .paired := by decide +kernel
theorem wit_FaultsStopAndFoldsRetire_channel : let s := chansIn.setReg kRetirePolicy 2
    let t : State := { chansIn with boot := { stage := .memory } }
    (s.chan 31).stopped = false ∧ (s.chan 31).phase = .inService ∧ s.boot.stage = .ready ∧ bitAt (s.reg kRetirePolicy) 1 = true ∧
    s.repair.used = false ∧ bitAt (chansIn.reg kRetirePolicy) 1 = false ∧ t.boot.stage ≠ .ready := by decide +kernel
theorem wit_FaultsStopAndFoldsRetire_hang : let s := hst.updSlice 7 fun x => { x with pipe := { q3 := [⟨47, 3, 0⟩] } }
    (s.slice 7).pipe.q3 ≠ [] := by decide +kernel
/-- The board that retires a unit with nothing left to revoke. -/
def retiring (r : Retire) : State := { chansIn with repair := { chansIn.repair with retiring := some r } }
theorem wit_FaultsStopAndFoldsRetire_fold : (retiring ⟨false, 7, [], 0⟩).repair.retiring = some ⟨false, 7, [], 0⟩ ∧
    (retiring ⟨false, 7, [], 0⟩).retireRevokes = false ∧ (retiring ⟨true, 31, [], 0⟩).repair.retiring = some ⟨true, 31, [], 0⟩ ∧
    (retiring ⟨true, 31, [], 0⟩).repair.foldSlice = none := by decide +kernel
theorem wit_FaultsStopAndFoldsRetire_go : let k1 := (chansIn.setReg kRetireKind 1).setReg kRetireUnit 7
    let k2 := (chansIn.setReg kRetireKind 2).setReg kRetireUnit 31
    let k3 := chansIn.setReg kRetireKind 3
    let used : State := { k1 with repair := { k1.repair with used := true } }
    let folded : State := { k3 with repair := { k3.repair with foldSlice := some 7 } }
    chansIn.accepts fr (askWrite kRetireGo 1 1) ∧ chansIn.reg kRetireKind = 0 ∧
    k1.accepts fr (askWrite kRetireGo 1 1) ∧ k1.reg kRetireKind = 1 ∧ k1.retireCheck false 7 = 0 ∧
    k2.accepts fr (askWrite kRetireGo 1 1) ∧ k2.reg kRetireKind = 2 ∧ k2.retireCheck true 31 = 0 ∧
    used.accepts fr (askWrite kRetireGo 1 1) ∧ used.retireCheck false 7 ≠ 0 ∧
    k3.accepts fr (askWrite kRetireGo 1 1) ∧ k3.reg kRetireKind = 3 ∧ k3.retiredWord = 0 ∧
    folded.accepts fr (askWrite kRetireGo 1 1) ∧ folded.retiredWord ≠ 0 := by unfold State.accepts; decide +kernel

/-- A message of MCTP connection 1. -/
def msg (version : Nat) (secured : Bool) : SpdmMsg := ⟨.mctp, 1, version, true, 0, true, 0xFF, 3, true, 11, 12, secured⟩
/-- The READY board with that connection in a state. -/
def spdmIn (c : SpdmConn) : State := { rdy with sec := { rdy.sec with spdm := [(16, { established := true }), (17, c)] } }
theorem wit_TheResponderServesSessions_1 : let s : State := { rdy with repair := { rdy.repair with coresUp := false } }
    s.spdmServed (msg 0x12 false) = false ∧ rdy.spdmServed (msg 0x12 false) = true ∧
    (spdmIn { gotVersion := true }).conn (msg 0x13 false) = { gotVersion := true } ∧
    (spdmIn { gotCaps := true, version := 0x13 }).conn (msg 0x13 false) = { gotCaps := true, version := 0x13 } ∧
    (msg 0x13 false).algOk = true ∧ (msg 0x13 false).version = 0x13 ∧
    (spdmIn { algs := true }).conn (msg 0x13 false) = { algs := true } ∧ (msg 0x13 false).slot = 0 ∧
    ((msg 0x13 false).blocks ≤ 5 ∨ (msg 0x13 false).blocks = 0xFF) := by decide +kernel
theorem wit_TheResponderServesSessions_2 : let h : SpdmConn := { algs := true, handshake := true, mutualAuth := true, encap := 1 }
    let e : SpdmConn := { algs := true, mutualAuth := true, established := true }
    (spdmIn h).conn (msg 0x13 false) = h ∧ (msg 0x13 false).mutualAuth = true ∧ 0 < h.encap ∧
    (spdmIn e).conn (msg 0x13 true) = e ∧ (msg 0x13 true).secured = true ∧
    (spdmIn {}).conn (msg 0x14 false) = {} ∧ (msg 0x13 false).secured = false := by decide +kernel

/-- The board whose connection 1 may load slot 255, tenant 255's. -/
def keyable : State :=
  let s := spdmIn { established := true, mutualAuth := true, root := 11, measured := 31 }
  { s with sec := { s.sec with
      tenants := [(255, { phase := .admitted, root := 11 })], keys := [(255, { phase := .bound, epoch := 1, tenant := 255 })] } }
theorem wit_KeySlotsChangeByCommand_load : let s := keyable
    s.spdmServed (msg 0x13 true) = true ∧ (s.conn (msg 0x13 true)).established = true ∧ (s.conn (msg 0x13 true)).mutualAuth = true ∧
    (msg 0x13 true).secured = true ∧ (s.conn (msg 0x13 true)).root = (s.tenant 255).root ∧ (s.conn (msg 0x13 true)).measured = 31 ∧
    (s.tenant 255).phase = .admitted ∧ (s.key 255).phase = .bound ∧ (s.key 255).tenant = 255 ∧ (s.key 255).epoch = 1 ∧
    (1 : BitVec 256) ≠ 2 ∧ (s.key 255).epoch ≠ 0 := by decide +kernel
/-- The board with a key command for slot 255 in its dictionary. -/
def keyCmd (cmd epoch : Nat) (ph : KeyPhase) : State :=
  let s := ((keyable.setReg kKeyCmd cmd).setReg kKeyCmdSlot 255).setReg kKeyCmdEpoch epoch
  let t := s.setReg kKeyCmdTenant 255
  { t with sec := { t.sec with keys := [(255, { phase := ph, epoch := 1, tenant := 255 })] } }
theorem wit_KeySlotsChangeByCommand_assign : (keyCmd 1 0 .empty).accepts fr (askWrite kKeyGo 1 1) ∧
    (keyCmd 1 0 .empty).assignCheck 255 = 0 ∧ (keyCmd 1 0 .keyed).accepts fr (askWrite kKeyGo 1 1) ∧
    (keyCmd 1 0 .keyed).assignCheck 255 ≠ 0 := by unfold State.accepts; decide +kernel
theorem wit_KeySlotsChangeByCommand_epoch :
    (∀ c ∈ [2, 3, 4, 5], ∀ p ∈ [KeyPhase.bound, .keyed, .retiring], (keyCmd c 1 p).accepts fr (askWrite kKeyGo 1 1) ∧
      ((keyCmd c 1 p).key 255).epoch.toNat = (keyCmd c 1 p).reg kKeyCmdEpoch) ∧
    (keyCmd 2 0 .keyed).accepts fr (askWrite kKeyGo 1 1) ∧ ((keyCmd 2 0 .keyed).key 255).epoch.toNat ≠ (keyCmd 2 0 .keyed).reg kKeyCmdEpoch ∧
    (keyCmd 3 1 .bound).slotMirrored 255 = false := by unfold State.accepts; decide +kernel
theorem wit_KeySlotsChangeByCommand_mirrored : let s : State := { keyCmd 3 1 .bound with
      pitch := { table := [(0, { gran1 with slot := 255, mirrored := true })] } }
    s.accepts fr (askWrite kKeyGo 1 1) ∧ s.slotMirrored 255 = true := by unfold State.accepts; decide +kernel
theorem wit_KeySlotsChangeByCommand_drain : ((keyCmd 2 1 .retiring).key 255).phase = .retiring ∧
    ((keyCmd 2 1 .retiring).key 255).refs = 0 := by decide +kernel

/-- The board with a tenant command for tenant 255. -/
def tenantCmd (cmd : Nat) (x : TenantSt) : State :=
  let s := (rdy.setReg kTenantCmd cmd).setReg kTenantCmdId 255
  { s with sec := { s.sec with tenants := [(255, x)] } }
theorem wit_TenantsAndLedgerFollowTheirRules_commands :
    (tenantCmd 1 {}).accepts fr (askWrite kTenantGo 1 1) ∧ ((tenantCmd 1 {}).tenant 255).phase = .absent ∧
    (tenantCmd 1 { phase := .admitted }).accepts fr (askWrite kTenantGo 1 1) ∧
    (tenantCmd 2 { phase := .admitted }).accepts fr (askWrite kTenantGo 1 1) ∧ (tenantCmd 2 { phase := .admitted }).removeCheck 255 = 0 ∧
    (tenantCmd 2 {}).accepts fr (askWrite kTenantGo 1 1) ∧ (tenantCmd 2 {}).removeCheck 255 ≠ 0 ∧
    (tenantCmd 0 {}).accepts fr (askWrite kTenantGo 1 1) ∧ (tenantCmd 0 {}).reg kTenantCmd = 0 := by unfold State.accepts; decide +kernel
theorem wit_TenantsAndLedgerFollowTheirRules_remove : let s := tenantCmd 2 { phase := .removing }
    let t := tenantCmd 2 { phase := .removing, clearing := true }
    (s.tenant 255).phase = .removing ∧ (s.tenant 255).clearing = false ∧ s.removeReady 255 = true ∧
    (t.tenant 255).phase = .removing ∧ (t.tenant 255).clearing = true := by decide +kernel
theorem wit_TenantsAndLedgerFollowTheirRules_covered : let s (sent : List HalOut) : State :=
      let t := tenantCmd 2 { phase := .removing, clearing := true, hseq := some 4 }
      { t with pair := { t.pair with sent := sent }, pitch := { t.pitch with table := [(0, { gran1 with phase := .held, tenant := 255 })] } }
    let out : HalOut := ⟨4, 2, 0, 0, 0, 0, false, false, [], true⟩
    let w := fun (x : State) => x.clearAll (x.heldOf 255)
    (w (s [])).1.halCovered (laterHseq ((s []).tenant 255).hseq (w (s [])).2) = true ∧
    (w (s [out])).1.halCovered (laterHseq ((s [out]).tenant 255).hseq (w (s [out])).2) = false ∧
    ((s []).granule 0).phase = .held ∧ ((s []).granule 0).tenant = 255 := by decide +kernel
theorem wit_TenantsAndLedgerFollowTheirRules_table : rdy.accepts fr (askRows kTenantTable 56 255 [7]) ∧
    (rdy.tenant 255).phase = .absent ∧ (tenantCmd 1 { phase := .admitted }).accepts fr (askRows kTenantTable 56 255 [7]) ∧
    ((tenantCmd 1 { phase := .admitted }).tenant 255).phase ≠ .absent := by unfold State.accepts; decide +kernel
theorem wit_TenantsAndLedgerFollowTheirRules_conf :
    rdy.accepts fr (askWrite kConfMode 1 1) ∧ rdy.anyTenant = false ∧ rdy.accepts fr (askWrite kConfMode 1 0) ∧
    rdy.sec.confSource &&& 3#3 = 0 ∧ (tenantCmd 1 { phase := .admitted }).accepts fr (askWrite kConfMode 1 1) ∧
    (tenantCmd 1 { phase := .admitted }).anyTenant = true := by unfold State.accepts; decide +kernel
theorem wit_TenantsAndLedgerFollowTheirRules_ledger : let s : State := { rdy with sec := { rdy.sec with buffer := [{ seq := 3 }], head := some 2 } }
    s.repair.coresUp = true ∧ s.boot.stage = .ready ∧ s.sec.buffer = [{ seq := 3 }] ∧ s.repair.sram = [] ∧
    s.accepts fr (askWrite kLedgerAcked 8 2) ∧ 2 ≤ s.sec.head.getD 0 ∧ s.accepts fr (askWrite kLedgerAcked 8 3) ∧
    s.sec.head.getD 0 < 3 := by unfold State.accepts; decide +kernel

theorem wit_FramesReadAndWriteEntries_read : rdy.accepts fr (askRead 1 0x1005 0 0 0) ∧ rdy.accepts fr (askRead 5 0x1005 0 0 0) ∧
    (entryAt 0x1005 0).isSome = true ∧ rdy.accepts fr (askRead 3 0x4010 0 1 1023) := by unfold State.accepts; decide +kernel
theorem wit_FramesReadAndWriteEntries_snapshot : let s : State := { rdy with sec := { rdy.sec with conf := true } }
    s.accepts fr (askRead 3 0xB024 0 1 snapLinkRow) ∧ s.sec.conf = true ∧ rdy.accepts fr (askRead 3 0xB024 0 1 0) ∧ rdy.sec.conf = false := by
  unfold State.accepts; decide +kernel
theorem wit_FramesReadAndWriteEntries_fault : rdy.accepts fr (askRead 3 0xB030 0 1 0) ∧ rdy.repair.sram = [] ∧
    0xB024 * 256 ≠ 0xB03000 := by unfold State.accepts; decide +kernel
theorem wit_FramesReadAndWriteEntries_write : let k := kGrantPitch
    rdy.accepts fr ⟨2, k / 256, k % 256, 0, 0, leBytes 4 7⟩ ∧ rdy.boot.resetAsked = false ∧ k ≠ kProfileGo ∧ k ≠ kResetBoard ∧
    actByValue k 7 = none ∧ (∀ p ∈ entryActs.map Prod.fst, p ≠ k) ∧ rdy.valueBad k 7 = false ∧ rdy.ruleBad k 7 = false := by
  unfold State.accepts
  refine ⟨by decide +kernel, by decide +kernel, by decide +kernel, by decide +kernel, by rfl, by decide +kernel, by decide +kernel,
    by decide +kernel⟩
theorem wit_FramesReadAndWriteEntries_seed : rdy.accepts fr (askRows kTenantSeed 8 255 [2 ^ 64 - 1]) := by
  unfold State.accepts; decide +kernel
theorem wit_FramesReadAndWriteEntries_flash : let s : State := { rdy with mgmt := { rdy.mgmt with dirty := [kAckTimeout] } }
    s.mgmt.dirty ≠ [] ∧ (s.mgmt.dirty.any fun k => persistOf k == 1) = true ∧
    ({ rdy with mgmt := { rdy.mgmt with dirty := [kBoardNumber] } } : State).mgmt.dirty ≠ [] := by decide +kernel

theorem wit_RefusedFramesChangeNothing_served : rdy.boot.resetAsked = false ∧ State.reset.frameServed fr = false ∧
    askOf (.grant fr 1) = some (fr, askWrite kGrantGo 1 1) := ⟨by decide +kernel, by decide +kernel, rfl⟩
theorem wit_RefusedFramesChangeNothing_kept : let q := askWrite kGrantGo 1 1
    let s := rdy.answered fr q {}
    s.frameServed fr = true ∧ (s.keptFor fr q).isSome = true := by decide +kernel
theorem wit_RefusedFramesChangeNothing_refused : let q := askWrite kGrantGo 1 255
    rdy.frameServed fr = true ∧ rdy.keptFor fr q = none ∧ (rdy.precheck fr q (rdy.principalOf fr).2).isSome = true := by decide +kernel

theorem wit_WindowRowsTakeEffectInOrder_1 : kShaperTable = 0x4030 * 256 + 0 ∧
    rdy.accepts fr (askRows kShaperTable (entryBytes 0x4030 0) 0 [0, 99]) := by unfold State.accepts; decide +kernel

/-- The board with a profile command. -/
def profCmd (op target : Nat) : State := (rdy.setReg kProfileOp op).setReg kProfileTarget target
theorem wit_ProfilesAndPrincipalsChange_commands : (profCmd 1 3).accepts fr (askWrite kProfileGo 1 1) ∧
    (profCmd 1 3).mgmt.switching = none ∧ (profCmd 1 3).switchCheck 3 false ≠ 0 ∧
    (profCmd 2 3).accepts fr (askWrite kProfileGo 1 1) ∧ (profCmd 3 3).accepts fr (askWrite kProfileGo 1 1) ∧
    (profCmd 3 3).mgmt.active ≠ 3 ∧ (profCmd 3 0).accepts fr (askWrite kProfileGo 1 1) ∧ (profCmd 3 0).mgmt.active = 0 := by
  unfold State.accepts; decide +kernel
theorem wit_ProfilesAndPrincipalsChange_switch : let s : State := { profCmd 1 3 with
      mgmt := { rdy.mgmt with profiles := [(3, { a := { present := true, seq := 1 } })] } }
    let t : State := { s with mgmt := { s.mgmt with switching := some (3, false) } }
    s.accepts fr (askWrite kProfileGo 1 1) ∧ s.switchCheck 3 false = 0 ∧ t.accepts fr (askWrite kProfileGo 1 1) ∧
    t.mgmt.switching = some (3, false) ∧ t.switchReady = true ∧ t.repair.coresUp = true := by unfold State.accepts; decide +kernel
theorem wit_ProfilesAndPrincipalsChange_principals : let s : State := { rdy with mgmt := { rdy.mgmt with
      principals := [(15, { valid := true, role := 2, root := 7 })] } }
    let good := principalOfWord 0
    s.accepts fr (askRows kPrincipalTable 64 15 [0]) ∧ s.principalBad 15 good = 0 ∧ good ≠ s.mgmt.principals.get {} 15 ∧
    (s.mgmt.principals.get {} 15).valid = true ∧ (s.mgmt.principals.get {} 15).inband = false ∧
    rdy.accepts fr (askRows kPrincipalTable 64 15 [2 ^ 512 - 1]) ∧ rdy.principalBad 15 (principalOfWord (2 ^ 512 - 1)) ≠ 0 := by
  unfold State.accepts; decide +kernel


/-! ### Witnesses: instruments, power, clocks, reset -/

theorem wit_InstrumentsRecordWhatHappens_tally : let v := 6 * 2 ^ 24
    rdy.accepts fr (askWrite kTallyClear 4 v) ∧ v / 2 ^ 24 < 7 ∧ v % 2 ^ 24 < groupSize (v / 2 ^ 24) ∧
    rdy.accepts fr (askWrite kTallyClear 4 (7 * 2 ^ 24)) ∧ 7 ≤ 7 * 2 ^ 24 / 2 ^ 24 ∧
    rdy.accepts fr (askWrite kTallyClear 4 (v + 1)) ∧ groupSize ((v + 1) / 2 ^ 24) ≤ (v + 1) % 2 ^ 24 := by
  unfold State.accepts; decide +kernel
/-- The board with a hoist held, latched at tick 0, and its clock at tick `n`. -/
def heldAt (held : Bool) (n : Nat) : State := { rdy with
  obs := { rdy.obs with held := held, lastHoist := some 0 }, time := { rdy.time with ticks := n } }
theorem wit_InstrumentsRecordWhatHappens_hoist : rdy.accepts fr (askWrite kHoistNow 1 1) ∧ rdy.obs.held = false ∧
    (heldAt true 5).accepts fr (askWrite kHoistNow 1 1) ∧ (heldAt true 5).obs.held = true ∧
    rdy.accepts fr (askWrite kHoistRelease 1 1) := by unfold State.accepts; decide +kernel
theorem wit_InstrumentsRecordWhatHappens_hoistIn : rdy.power.inputOn = true ∧ rdy.power.dark = false ∧ rdy.rearming = false ∧
    (heldAt true 999).rearming = true ∧ (heldAt true 1000).rearming = false ∧ (heldAt true 1000).obs.held = true := by decide +kernel
/-- A copy of a crier record that waits for stall 2. -/
def copy1 : CrierCopy := ⟨false, 1, 7, 0, 0, 0, 0, 0⟩
theorem wit_InstrumentsRecordWhatHappens_copy : let s := hst.updStall 2 fun x => { x with crierQ := [copy1] }
    let t : State := { hst with obs := { hst.obs with copies := [⟨65535, 2, copy1⟩] } }
    (s.stall 2).phase = .attached ∧ (s.stall 2).crierQ = [copy1] ∧
    s.portLink 2 (TxMsg.req (s.notifyReq 2 s.nextTag copy1)).bytes = some 47 ∧
    t.obs.copies.find? (fun c => c.tag == 65535) = some ⟨65535, 2, copy1⟩ ∧ (t.link 47).isUp = true ∧ (t.stall 2).host = 5 ∧
    (t.obs.copies.any fun c => c.tag == 65535) = true ∧
    (let now := fun (u : State) => (u.xbar.outWait.get [] 47).isEmpty && (u.link 47).takes (TxMsg.req (u.notifyReq 2 u.nextTag copy1)).bytes
     let w : State := { s with xbar := { s.xbar with outWait := [(47, [(0, ⟨2, 0, .mgmt, .hal 0 [], true⟩)])] } }
     now s = true ∧ now w = false ∧ w.portLink 2 (TxMsg.req (w.notifyReq 2 w.nextTag copy1)).bytes = some 47) := by decide +kernel
theorem wit_InstrumentsRecordWhatHappens_idle : let s := (hst.updStall 2 fun x => { x with crierQ := [copy1] }).updLink 47 fun l =>
      { l with phase := .training }
    (rdy.stall 2).phase ≠ .attached ∧ (hst.stall 2).crierQ = [] ∧ s.liveLinks 2 = [] ∧ (s.stall 2).phase = .attached := by
  decide +kernel
theorem wit_InstrumentsRecordWhatHappens_acked : let s : State := { rdy with obs := { rdy.obs with head := 4 } }
    s.accepts fr (askWrite kCrierAcked 8 4) ∧ 4 ≤ s.obs.head ∧ s.accepts fr (askWrite kCrierAcked 8 5) ∧ s.obs.head < 5 := by
  unfold State.accepts; decide +kernel
theorem wit_InstrumentsRecordWhatHappens_trace : let s : State := { rdy with sec := { rdy.sec with conf := true } }
    let t := rdy.setReg kTraceCtrl 8
    rdy.accepts fr (askWrite kTraceCtrl 4 31) ∧ rdy.sec.conf = false ∧ s.accepts fr (askWrite kTraceCtrl 4 31) ∧ s.sec.conf = true ∧
    bitAt 31 3 = true ∧ bitAt (rdy.reg kTraceCtrl) 3 = false ∧ bitAt (t.reg kTraceCtrl) 3 = true ∧ t.repair.coresUp = true ∧
    t.obs.frozen = false := by unfold State.accepts; decide +kernel

theorem wit_HoistInIsIgnoredWhileRearming_1 : (heldAt true 999).obs.lastHoist = some 0 ∧ 0 ≤ (heldAt true 999).time.ticks ∧
    (heldAt true 999).time.ticks < 0 + (heldAt true 999).reg kHoistRearm ∧ (heldAt true 999).power.inputOn = true ∧
    (heldAt true 999).power.dark = false := by decide +kernel
theorem wit_HoistInIsIgnoredWhileRearming_2 : (heldAt true 1000).power.inputOn = true ∧ (heldAt true 1000).power.dark = false ∧
    (∀ a, (heldAt true 1000).obs.lastHoist = some a → a + (heldAt true 1000).reg kHoistRearm ≤ (heldAt true 1000).time.ticks) ∧
    (heldAt true 1000).obs.held = true :=
  ⟨rfl, rfl, fun a h => by cases h; decide +kernel, rfl⟩

/-- The board with a power state. -/
def powerIn (p : PowerSt) : State := { rdy with power := p }
theorem wit_PowerFollowsInputsAndRequests_input : (powerIn { inputOn := false }).power.inputOn = false ∧ rdy.power.inputOn = true ∧
    rdy.power.warning = false ∧ rdy.power.dark = false := by decide +kernel
theorem wit_PowerFollowsInputsAndRequests_rails : rdy.power.railsOn.getLsbD 14 = true ∧ rdy.power.railsOn.getLsbD 0 = true ∧
    rdy.power.railsOn.getLsbD 15 = true ∧ rdy.power.dark = false ∧ rdy.pair.phase ≠ .paired ∧ rdy.pair.relinq = none ∧
    (pairIn .paired).pair.phase = .paired ∧ rdy.repair.coresUp = true := by decide +kernel
theorem wit_PowerFollowsInputsAndRequests_target :
    rdy.accepts fr (askWrite kPowerTarget 1 1) ∧ rdy.powerBusy = false ∧ rdy.power.b1 = false ∧
    rdy.accepts fr (askWrite kPowerTarget 1 0) ∧ rdy.power.b1 = (0 == 1) ∧
    (powerIn { b1 := true }).accepts fr (askWrite kPowerTarget 1 0) ∧ (powerIn { b1 := true }).powerBusy = false ∧
    (powerIn { b1 := true, thermWarn := true }).accepts fr (askWrite kPowerTarget 1 0) ∧
    (powerIn { step := .raiseVolt, b1 := true }).accepts fr (askWrite kPowerTarget 1 1) ∧
    (powerIn { step := .raiseVolt, b1 := true }).powerBusy = true := by unfold State.accepts; decide +kernel
theorem wit_PowerFollowsInputsAndRequests_volts : let ramp : State := { rdy with
      power := { step := .rampDown }, clock := { rdy.clock with target := 20 } }
    (∀ st ∈ [PowerStep.lowerVolt, .restoreVolt, .raiseVolt], (powerIn { step := st }).power.heldWant = none) ∧
    ramp.power.heldWant = none ∧ ramp.coreRamping = true ∧ ramp.power.step = .rampDown ∧
    ({ ramp with power := { step := .rampUp } } : State).power.step = .rampUp := by decide +kernel
theorem wit_PowerFollowsInputsAndRequests_park : let s := (rdy.setReg kSliceParkEnable 128).setReg kSliceParkIdle 1
    ((rdy.updSlice 7 fun x => { x with park := .parking }).slice 7).park = .parking ∧
    ((rdy.updSlice 7 fun x => { x with park := .waking }).slice 7).park = .waking ∧
    bitAt (s.reg kSliceParkEnable) 7 = true ∧ s.reg kSliceParkIdle ≠ 0 ∧ (s.slice 7).park = .running ∧ s.sliceIdle 7 = true := by
  decide +kernel
theorem wit_PowerFollowsInputsAndRequests_lanes : let s := onLink upLink
    let t := onLink { upLink with mask := 3, parked := 12 }
    let u := onLink { upLink with mask := 3, parked := 12, unparking := true }
    s.accepts fr (askWrite (kLanePark 47) 1 3) ∧ 47 ∉ s.halyardLinks ∧ (s.link 47).isUp = true ∧
    bitAt (s.link 47).caps.toNat 2 = true ∧ formMask (3#4 &&& (s.link 47).passed) (s.link 47).x2 = 3 ∧ s.canChange 47 = true ∧
    (s.link 47).unparking = false ∧ 3#4 &&& (s.link 47).parked = 0 ∧
    formMask (3#4 &&& (s.link 47).mask) (s.link 47).x2 ≠ (s.link 47).mask ∧ formMask (3#4 &&& (s.link 47).mask) (s.link 47).x2 ≠ 0 ∧
    s.accepts fr (askWrite (kLanePark 47) 1 0) ∧ t.accepts fr (askWrite (kLanePark 47) 1 15) ∧ t.canChange 47 = true ∧
    15#4 &&& (t.link 47).parked ≠ 0 ∧ u.accepts fr (askWrite (kLanePark 47) 1 15) ∧ (u.link 47).unparking = true ∧
    u.canChange 47 = true := by unfold State.accepts; decide +kernel
theorem wit_PowerFollowsInputsAndRequests_thermal : let s := powerIn { die := 110 }
    let t : State := { pairIn .paired with power := { dimm := 95 } }
    100 ≤ 100 % 256 ∧ 99 % 256 < 100 ∧ 89 % 256 < 90 ∧ rdy.powerBusy = false ∧ rdy.power.thermWarn = false ∧
    s.power.inputOn = true ∧ s.power.dark = false ∧ s.power.thermFault = false ∧ 110 ≤ s.power.die ∧ s.pair.phase ≠ .paired ∧
    95 ≤ t.power.dimm ∧ t.pair.phase = .paired := by decide +kernel

/-- The board with a clock state. -/
def clockIn (c : ClockSt) : State := { rdy with clock := c }
theorem wit_ClocksFollowTheirReference_select : rdy.accepts fr (askWrite kRefSelect 1 1) ∧ rdy.refBad 1 = false ∧
    (clockIn { failed := 2 }).accepts fr (askWrite kRefSelect 1 1) ∧ (clockIn { failed := 2 }).refBad 1 = true := by
  unfold State.accepts; decide +kernel
theorem wit_ClocksFollowTheirReference_fail : let s : State := { State.reset with clock := { failed := 2 } }
    rdy.clock.inUse = 0 ∧ rdy.boot.stage = .ready ∧ (clockIn { freqRun := some 1 }).clock.freqRun = some 1 ∧
    s.boot.stage ≠ .memory ∧ s.boot.stage ≠ .ready ∧ s.refBad (1 - 0) = true ∧ State.reset.refBad (1 - 0) = false := by decide +kernel
theorem wit_ClocksFollowTheirReference_holdoff : let s : State := { rdy with boot := { rdy.boot with noReference := true } }
    let t := (clockIn { pll := .coasting, holdover := true }).setReg kRefAuto 1
    s.boot.noReference = true ∧ t.boot.noReference = false ∧ t.mayRecover = true ∧ 1 ≠ t.clock.inUse ∧ rdy.mayRecover = false := by
  decide +kernel
theorem wit_ClocksFollowTheirReference_lock : (clockIn { pll := .relocking }).clock.pll = .relocking := by decide +kernel
theorem wit_ClocksFollowTheirReference_freq : rdy.accepts fr (askWrite kFreqGo 1 1) ∧ rdy.clock.freqRun = none ∧
    rdy.refBad (rdy.reg kFreqRef) = false ∧ (clockIn { failed := 1 }).accepts fr (askWrite kFreqGo 1 1) ∧
    (clockIn { failed := 1 }).refBad ((clockIn { failed := 1 }).reg kFreqRef) = true ∧
    (clockIn { freqRun := some 0 }).accepts fr (askWrite kFreqGo 1 1) ∧ (clockIn { freqRun := some 0 }).clock.freqRun.isSome = true ∧
    rdy.power.inputOn = true ∧ rdy.power.dark = false := by unfold State.accepts; decide +kernel

theorem wit_ResetsStartTheBoardAnew_1 : rdy.power.inputOn = true ∧ rdy.boot.resetAsked = false ∧
    rdy.accepts fr (askWrite kResetBoard 1 1) ∧ rdy.pair.phase ≠ .paired ∧ (pairIn .paired).accepts fr (askWrite kResetBoard 1 1) ∧
    (pairIn .paired).pair.phase = .paired := by unfold State.accepts; decide +kernel

/-- The board at a step of its bring-up. -/
def bootIn (stage : Stage) (step : BootStep) : State := { State.reset with boot := { stage := stage, step := step } }
theorem wit_BringUpRunsInOrder_steps :
    ∀ p ∈ [(Stage.reset, BootStep.inReset), (.rom, .fused), (.rom, .tested), (.firmware, .booted), (.memory, .loaded),
        (.memory, .initialised), (.memory, .repaired), (.memory, .trained)], (bootIn p.1 p.2).bootGoes p.2 = true := by decide +kernel
theorem wit_BringUpRunsInOrder_slots : (bootIn .rom .tested).boot.stage = .rom ∧ (bootIn .rom .tested).boot.bootSlot = 0 ∧
    (bootIn .rom .tested).fwAccepted 0 false = false ∧ (bootIn .rom .tested).fwAccepted (1 - 0) false = false := by decide +kernel
theorem wit_BringUpRunsInOrder_training : let s : State := { bootIn .memory .repaired with chans := [(31, { phase := .training })] }
    let good : LaneSweep := ⟨2 ^ 20 - 1, 2 ^ 16 - 1⟩
    let weak : LaneSweep := ⟨2 ^ 20 - 1, 2 ^ 15 - 1⟩
    s.bootGoes .repaired = true ∧ (s.chan 31).phase = .training ∧
    [(⟨31, 256, [good], []⟩ : TrainResult)].find? (fun r => r.channel == 31) = some ⟨31, 256, [good], []⟩ ∧
    ([] : List TrainResult).find? (fun r => r.channel == 31) = none ∧ s.reg kMinEye ≤ (widestRun good.write).2 ∧
    ¬ s.reg kMinEye ≤ (widestRun weak.write).2 ∧ s.hbmFailed [[good], [weak]] = 2 := by decide +kernel
theorem wit_BringUpRunsInOrder_turn : State.reset.boot.step ≠ .fused ∧ (powerIn { warning := true }).power.warning = true := by
  decide +kernel
theorem wit_BringUpRunsInOrder_firmware : let s : State := { rdy with boot := { rdy.boot with fwVerifying := true } }
    rdy.accepts fr (askRows kFwImage 4096 8191 [1]) ∧ rdy.accepts fr (askWrite kFwGo 1 1) ∧ s.accepts fr (askWrite kFwGo 1 1) ∧
    s.boot.fwVerifying = true ∧ s.fwAccepted s.spareSlot false = false := by unfold State.accepts; decide +kernel


/-! ### Values worked in the spec -/

/-- The board of 04's worked example: G = 524,288 and logical slice 3 retired. -/
def folded : State := { rdy with pitch := { rdy.pitch with gran := 524288 }, repair := { rdy.repair with foldSlice := some 3 } }
/-- 04 R82, worked example: the reach, and where pages 11, 59 and 10 are served. -/
theorem test_fold_slice : folded.reach = 458752 ∧ folded.sliceOf 0xB000 = (1, 0xE000000) ∧ folded.sliceOf 0x3B000 = (0, 0xE000001) ∧
    folded.sliceOf 0xA000 = (2, 1) := by decide +kernel
/-- 14 R297, worked example: 256 GiB DIMMs, channel 1 of slice 2 retired. -/
def narrowed : State := { rdy with pitch := { rdy.pitch with gran := 524288 }, repair := { rdy.repair with foldChannel := some 9 } }
theorem test_fold_channel : narrowed.reach = 393216 ∧ narrowed.sliceOf 0x2A000 = (2, 5) ∧ narrowed.chanOf 2 5 = (10, 0x3000000) ∧
    narrowed.chanOf 2 13 = (8, 0x3000001) := by decide +kernel
/-- 05 Table 5.4, worked example: offset 0x1_2345_6000 with 256 GiB DIMMs. -/
theorem test_dram_address : hst.sliceOf 0x123456000 = (6, 0x2468A) ∧ regionOf 0x2468A = 0x123 ∧ 0x123 % 768 = 291 ∧
    hst.chanOf 6 0x2468A = (26, 0x91A2) ∧ dramOf 0 3 (chanLine 0x91A2 0x123456000) = (6, 0x11, 72) ∧
    dramOf 2 3 (chanLine 0x91A2 0x123456000) = (6, 0x19, 72) ∧ dramOf 1 3 (chanLine 0x91A2 0x123456000) = (0, 0, 18641) := by
  decide +kernel

/-- 09 R189, worked example: 2^24, 1.0 and −2^24 in BF16 on the grid of anchor 0, and their native sums. -/
theorem test_exact_grid : (toGrid 0 (bf16.decode 0x4B80)).1 = .fin (2 ^ 120) ∧ (toGrid 0 (bf16.decode 0x3F80)).1 = .fin (2 ^ 96) ∧
    (toGrid 0 (bf16.decode 0xCB80)).1 = .fin (-2 ^ 120) ∧
    (accAdd (accAdd (.fin (2 ^ 120)) (.fin (2 ^ 96))).1 (.fin (-2 ^ 120))).1.pattern = 0x00000001000000000000000000000000 ∧
    (elemOut 1 0 none ((AccVal.fin (2 ^ 96)).num 0)).1 = 0x3F80 := by decide +kernel
theorem test_native_order : fAdd (fAdd 0x4B800000 0x3F800000) 0xCB800000 = 0 ∧
    fAdd (fAdd 0x4B800000 0xCB800000) 0x3F800000 = 0x3F800000 := by decide +kernel
/-- 09 R194, the worked values of FP8 E4M3 and INT8. -/
theorem test_convert_bounds : elemOut 3 0 none (.fin 450 0) = (0x7E, 0) ∧ elemOut 3 0 none (.fin 470 0) = (0x7E, flOverflow) ∧
    elemOut 11 0 none (.fin 8151 (-6)) = (127, 0) ∧ elemOut 11 0 none (.fin 255 (-1)) = (127, flOverflow) := by decide +kernel
/-- 09 R195, worked example: an MXFP4 block of 24, 5, −0.2 and 0, rounded to nearest. -/
theorem test_mx_block : mxOut 9 ([.fin 24 0, .fin 5 0, .fin (-13421773) (-26), .fin 0 0] ++ List.replicate 28 (.fin 0 0)) (fun _ => none)
    = (0x81, 0x27, 0) := by decide +kernel
/-- The same block under ROUND 1: element 1 is 3 for a draw below 0x8000_0000 and 2 for it. -/
theorem test_mx_stochastic : (mxOut 9 (.fin 24 0 :: .fin 5 0 :: List.replicate 30 (.fin 0 0)) (fun _ => some 0x7FFFFFFF)).2.1 = 0x37 ∧
    (mxOut 9 (.fin 24 0 :: .fin 5 0 :: List.replicate 30 (.fin 0 0)) (fun _ => some 0x80000000)).2.1 = 0x27 := by decide +kernel
/-- 09 R202, worked example: the first Adam step. -/
theorem test_adam : adamStep ⟨0x3E000000, 0x3F000000, 0x3F400000, 0, 0x3E800000, 0, 0, 1⟩ 0x40000000 0 0 0x3F800000 =
    (0x3F800000, 0x3F800000, 0x3F580000) := by decide +kernel

/-- 10 Table 10.5, worked example: the stamp of slice 2 while its clock ramps. -/
theorem test_stamp : let s := rdy.updSlice 2 fun x => { x with park := .parking }
    ({ s with time := { s.time with ao := 0x6A1B2C3D * 1000000000 + 123456789, step := 0x1F40, mphase := 0x0300, phase := .locked }
              clock := { s.clock with stretch := [(2, 3)] } } : State).stamp 2 = 0x6A1B2C3D1D6F3456300000001F400300 := by
  decide +kernel
/-- 02 Table 2.7: the ACK of 0xFFFF releases packet 0xFFFE and starts the timer anew; the expiry marks the other three. -/
def replaying : State := onLink { upLink with txSeq := 2, timerOn := true, expiries := 1, unacked :=
  [{ txp with seq := 0xFFFE }, { txp with seq := 0xFFFF }, { txp with seq := 0 }, { txp with seq := 1 }] }
theorem test_ack : ∃ t, exec (.ackOnly 47 1 (ctl 1 0xFFFF 0)) replaying = .next t ∧
    (t.link 47).unacked.map (·.seq) = [0xFFFF, 0, 1] ∧ (t.link 47).expiries = 0 := ⟨_, rfl, by decide +kernel, by decide +kernel⟩
theorem test_expiry : ∃ t, exec (.ackTimeoutExpiry 47) replaying = .next t ∧ (t.link 47).unacked.map (·.replay) = [true, true, true, true] :=
  ⟨_, rfl, by decide +kernel⟩
/-- 12 R244, worked example: RATE_IN 12,000 and a full credit 4,124 bytes at a time. -/
theorem test_shaper : let s : State := { rdy with
      shapers := [(140, { rateIn := 12000, creditIn := 1048576 * 65536 })] }
    s.admits 140 = true ∧ ((s.chargeIn 140 4124).shaper 140).creditIn = (1048576 - 4124) * 65536 := by decide +kernel
/-- 02 R26: the check values of the two CRCs over the digits 1 to 9. -/
theorem test_crc : crc8 [0x31, 0x32, 0x33, 0x34, 0x35, 0x36, 0x37, 0x38, 0x39] = 0xF4 ∧
    crc32 [0x31, 0x32, 0x33, 0x34, 0x35, 0x36, 0x37, 0x38, 0x39] = 0xCBF43926 := by decide +kernel
/-- 16 R338, worked example: HEARTBEAT_TIMEOUT set to 500 ms, and a repeat of the frame answered without a second ledger entry. -/
theorem test_heartbeat_timeout : ∃ t u, exec (.mgmtWrite fr 0x4004 0 4 500) rdy = .next t ∧ t.reg kHeartbeatTimeout = 500 ∧
    t.sec.buffer.length = 1 ∧ exec (.mgmtWrite fr 0x4004 0 4 500) t = .next u ∧ u.sec.buffer.length = 1 :=
  ⟨_, _, rfl, by decide +kernel, by decide +kernel, rfl, by decide +kernel⟩
/-- 16 R335: a value out of range is refused with REASON 2 and stores nothing. -/
theorem test_heartbeat_range : ∃ t, exec (.mgmtWrite fr 0x4004 0 4 9) rdy = .next t ∧ t.dict = rdy.dict ∧
    (t.mgmt.kept.get [] 16).map (·.reason) = [2] := ⟨_, rfl, by decide +kernel, by decide +kernel⟩
/-- A line written by a WRITE reads back as what was written; the line after it does not. -/
theorem test_write_then_read : ∃ t, exec (.write (req 1 0 64 [7])) hst = .next t ∧
    (t.readPlain 64 (t.slotOf 64) 5).2.2 = 7 ∧ (t.readPlain 128 (t.slotOf 128) 5).2.2 ≠ 7 :=
  ⟨_, rfl, by decide +kernel, by decide +kernel⟩
/-- 09 R194: INT8's −128.5 lies half an ulp beyond its largest magnitude, as 127.5 does. -/
theorem test_convert_negative : elemOut 11 0 none (.fin (-257) (-1)) = (0x80, flOverflow) ∧ elemOut 11 0 none (.fin (-128) 0) = (0x80, 0) := by
  decide +kernel
/-- 06 R114: x^8 is x^4 + x^3 + x^2 + 1, and x^7 + x^3 + x^2 + x is the inverse of x. -/
theorem test_field : gfMul 0x80 2 = 0x1D ∧ gfAlpha 8 = 0x1D ∧ gfInv 2 = 0x8E ∧ gfAlpha 255 = 1 := by decide +kernel
/-- 06 R123, Table 6.1: two wrong bits in a word of slice 2's program store are uncorrectable and counted in row 90. -/
theorem test_sram : let s := { rdy with repair := { rdy.repair with sram := [{ unit := 0x0B, place := 2, word := 5, double := true }] } }
    let r := s.sramRead 0x0B 2 5 1 0
    r.2 = true ∧ r.1.tallyOf .slice 2 90 = 1 ∧ ((r.1.slice 2).errors.get {} 0).unit = 0x0B ∧ (s.sramRead 0x0B 2 6 1 0).2 = false := by
  decide +kernel
/-- 08 R167, 12 R264: lines of pages 0, 1 and 9 for a member of slice 0: the pages that slice 1 holds are reached at its input, from port 48. -/
theorem test_remote : (hst.remote 0 6 [0, 64, 576]).xbar.inWait = [(1, [(48, 6)])] := by decide +kernel

end Sys2Proof.Tests
end

section
/-! SUPPORT. Outcomes and frames: what a command leaves alone, and what a write frame that is taken does. -/

namespace Sys2Proof.Machine

/-- What an outcome's mask leaves out is unchanged in the state that is its next one. -/
theorem KeepsOut.frame {m : Nat} {s t : State} {o : Result} (h : KeepsOut m s o) (e : o = .next t) {ps : List Part}
    (hm : (Part.all.all fun p => !m.testBit p.place || decide (p ∈ ps)) = true) : s.frame t ps :=
  (h t e).frame hm

/-- A write frame that is taken runs its entry's meaning on the logged state. -/
theorem State.write_accepts {s : State} {f : Frame} {key bytes v : Nat} (act : Nat → State → State × Ans)
    (h : s.accepts f (askWrite key bytes v)) :
    s.write f key bytes v act = ((act v (s.logged f (askWrite key bytes v) (act v s).2)).1).answered f
      (askWrite key bytes v) (act v s).2 :=
  State.mgmtFrame_accepts (act v) h

end Sys2Proof.Machine
end

section
/-! SUPPORT. The host port's refusals (03 R56): a request traced from its link to the check that answers it. -/

namespace Sys2Proof.Machine

/-! ### From the command to the reorder stage -/

/-- The commands of the host requests pass their packet to the host port. -/
theorem exec_request {i : Instr} {op : ReqOp} {r : Req} (h : requestOf i = some (op, r)) (s : State) :
    exec i s = .next (s.hostRequest op r) := by
  unfold requestOf at h
  split at h
  case h_11 r' =>
    split at h
    · cases h
    · next m =>
      cases h
      exact congrArg Host.Outcome.next (if_neg m)
  case h_12 r' =>
    split at h
    · next m =>
      cases h
      exact congrArg Host.Outcome.next (if_pos m)
    · cases h
  case h_15 => cases h
  all_goals
    cases h
    rfl

/-- Every opcode that a host's command carries counts in a row of its own. -/
theorem counted_of_request {i : Instr} {op : ReqOp} {r : Req} (h : requestOf i = some (op, r)) : op.counted = true := by
  unfold requestOf at h
  split at h
  case h_11 r' =>
    split at h
    all_goals cases h
    rfl
  case h_12 r' =>
    split at h
    all_goals cases h
    rfl
  case h_15 => cases h
  all_goals
    cases h
    rfl

/-- A request on a link of its stall that is up, with no switch-over gap for it, is counted and goes to the reorder stage, or
is answered at once where it does not count. -/
theorem State.hostRequest_of_stall {s : State} {st : Nat} {op : ReqOp} {r : Req} (c : op.counted = true)
    (link : r.link < 48) (up : (s.link r.link).isUp = true)
    (own : (s.link r.link).kind = 0 ∧ (s.link r.link).partner = r.host ∨
      (s.link r.link).kind = 1 ∧ (s.stall st).linkSet.getLsbD r.link = true)
    (gap : s.gapStall r = none) (found : s.stallFor r = some st) :
    s.hostRequest op r =
      if (s.stall st).phase ≠ .attached ∨ (op ≠ .doorbell ∧ (s.stall st).epoch ≠ r.epoch) then
        (s.count .stall st op.row).notCounted st op r
      else (s.count .stall st op.row).reorder st op r := by
  have passed : ¬(r.link ≥ 48 ∨ (s.link r.link).isUp = false ∨ 2 ≤ (s.link r.link).kind) := by
    rw [up]
    simp only [Bool.true_eq_false, false_or, not_or]
    omega
  have partner : ¬((s.link r.link).kind = 0 ∧ (s.link r.link).partner ≠ r.host) := by
    rintro ⟨k, p⟩
    rcases own with ⟨_, q⟩ | ⟨q, _⟩
    · exact p q
    · omega
  have bit : ¬((s.link r.link).kind = 1 ∧ (s.stall st).linkSet.getLsbD r.link = false) := by
    rintro ⟨k, p⟩
    rcases own with ⟨q, _⟩ | ⟨_, q⟩
    · omega
    · exact Bool.false_ne_true (p.symm.trans q)
  unfold State.hostRequest
  simp only [if_neg passed, if_neg partner, gap, found, if_neg bit, c]
  rfl

/-- At a stall that is not ATTACHED a supported request is answered FENCED (R56). -/
theorem State.notCounted_fenced {s : State} {st : Nat} {op : ReqOp} {r : Req} (u : s.unsupported st op r = false)
    (p : (s.stall st).phase ≠ .attached) : s.notCounted st op r = s.reply st op r .fenced 0 := by
  unfold State.notCounted
  simp only [u, Bool.false_eq_true, if_false, if_pos p]

/-- A fresh tag in order, that nothing makes wait, goes on to admission (R59). -/
theorem State.reorder_fresh {s : State} {st : Nat} {op : ReqOp} {r : Req} (ram : s.sramOk) (first : r.hreplay = false)
    (fresh : if (s.stall st).firstSeen then behind r.tag (s.stall st).next = false else (s.stall st).lookup op r.tag = .fresh)
    (u : (s.updStall st fun x => x.firstArrive r.tag).unsupported st op r = false)
    (w : (s.updStall st fun x => x.firstArrive r.tag).mustWait st r = false) :
    s.reorder st op r = (s.updStall st fun x => x.firstArrive r.tag).enter st op r := by
  have new : (r.hreplay || (behind r.tag (s.stall st).next && (s.stall st).firstSeen)) = false := by
    rw [first]
    split at fresh
    · simp [fresh]
    · next q => simp [q]
  have read : (if (false || !(s.stall st).firstSeen) = true then s.readTag st r.tag else s) = s := by
    rw [State.readTag_ok ram, ite_self]
  have hit : (if (false || !(s.stall st).firstSeen) = true then (s.stall st).lookup op r.tag else .fresh) = .fresh := by
    split at fresh
    · next q => simp [q]
    · next q => simp [q, fresh]
  unfold State.reorder
  simp only [new, read, hit, u, w, Bool.false_eq_true, if_false, Bool.false_and]

/-! ### The state of a request in order -/

@[simp] theorem StallSt.firstArrive_phase (x : StallSt) (t : BitVec 16) : (x.firstArrive t).phase = x.phase := by
  unfold StallSt.firstArrive StallSt.arrive
  split_ifs <;> rfl

theorem State.arrived_phase (s : State) (st : Nat) (op : ReqOp) (r : Req) :
    ((s.arrived st op r).stall st).phase = (s.stall st).phase := by
  unfold State.arrived
  rw [State.stall_updStall, StallSt.firstArrive_phase]
  rfl

theorem State.inOrder.attached {s : State} {st : Nat} {op : ReqOp} {r : Req} (h : s.inOrder st op r) :
    (s.stall st).phase = .attached := by
  obtain ⟨_, _, _, _, _, phase, _⟩ := h
  exact phase

theorem State.inOrder.sramOk {s : State} {st : Nat} {op : ReqOp} {r : Req} (h : s.inOrder st op r) : s.sramOk := by
  obtain ⟨_, _, _, _, _, _, _, _, _, ram⟩ := h
  exact ram

/-- A request in order that is supported and need not wait comes to admission in the state in which it has arrived. -/
theorem State.hostRequest_inOrder {s : State} {st : Nat} {op : ReqOp} {r : Req} (c : op.counted = true)
    (h : s.inOrder st op r) (u : (s.arrived st op r).unsupported st op r = false)
    (w : (s.arrived st op r).mustWait st r = false) : s.hostRequest op r = (s.arrived st op r).enter st op r := by
  obtain ⟨link, up, own, gap, found, phase, epoch, first, fresh, ram⟩ := h
  rw [State.hostRequest_of_stall c link up own gap found,
    if_neg (by simp only [phase, ne_eq, not_true, false_or, not_and, not_not]; exact epoch)]
  exact State.reorder_fresh (s := s.count .stall st op.row) ram first fresh u w

/-! ### Admission (R56, 12 R245) -/

section
variable {s : State} {st : Nat} {op : ReqOp} {r : Req} (u : s.unsupported st op r = false)
  (phase : (s.stall st).phase = .attached) (role : s.staleBarrow op r = false)
include u phase role

/-- A request that its stall's IN shaper holds back is answered RETRY_BUSY, with LOAD 15 in a gap. -/
theorem State.enter_unadmitted (m : op ≠ .mark) (n : op ≠ .nop) (a : s.admits st = false) :
    s.enter st op r = (s.count .stall st 33).reply st op r .retryBusy (if s.inGap r then 15 else 0) := by
  unfold State.enter
  simp [u, phase, role, m, n, a]

/-- An admitted request that no gap and no full queue stops is charged, and its rights are checked. -/
theorem State.enter_charged (pass : op = .mark ∨ op = .nop ∨ s.admits st = true) (gap : s.inGap r = false)
    (room : s.wrongBoard op r = true ∨ s.busyNow st op r = false) :
    s.enter st op r = (s.chargeIn st (28 + 64 * r.payload.length)).checkRights st op r := by
  have pass' : (op == .mark || op == .nop || s.admits st) = true := by simpa [or_assoc] using pass
  have room' : (!s.wrongBoard op r && s.busyNow st op r) = false := by
    rcases room with q | q <;> simp [q]
  unfold State.enter
  simp only [u, phase, role, gap, pass', room', ne_eq, not_true, Bool.not_true, Bool.false_eq_true, if_false, if_true]

end

/-- Charging a shaper changes no board number, and no error of an SRAM word. -/
theorem State.chargeIn_wrongBoard (s : State) (st bytes : Nat) (op : ReqOp) (r : Req) :
    (s.chargeIn st bytes).wrongBoard op r = s.wrongBoard op r := by
  unfold State.chargeIn
  split <;> rfl

theorem State.entered_sramOk {s : State} (st : Nat) (op : ReqOp) (r : Req) (h : s.sramOk) : (s.entered st op r).sramOk :=
  (State.chargeIn_keeps (M := 4194320) rfl (Keeps.refl _ _)).2.2 (h : (s.arrived st op r).sramOk)

/-! ### The checks from ACCESS_DENIED on (R56) -/

theorem State.checkRights_wrongBoard {s : State} {st : Nat} {op : ReqOp} {r : Req} (b : s.wrongBoard op r = true) :
    s.checkRights st op r = ((s.count .stall st 38).switchMiss st r).reply st op r .accessDenied 0 := by
  unfold State.checkRights
  rw [if_pos b]

theorem State.checkRights_malformed {s : State} {st : Nat} {op : ReqOp} {r : Req} (b : s.wrongBoard op r = false)
    (m : wellFormedReq op r = false) :
    s.checkRights st op r = (s.count .stall st 32).reply st op r .accessDenied 0 := by
  unfold State.checkRights
  simp only [b, m, Bool.false_eq_true, if_false, Bool.not_false, if_true]

/-- What a refusal by a request's rights leaves besides its answer: its counts, a tag record of a non-idempotent request that
counts as executed, and the switch that passed it (04 R87). -/
def State.denied (s : State) (st : Nat) (op : ReqOp) (r : Req) : State :=
  let status := s.rightsOf op r
  let s1 := if s.cohMalformed op r then s.count .stall st 32 else s
  let s2 := if status = .keyRetired then s1.count .key (s1.reqEntry r).slot 1 else s1
  let s3 := if op.ni && status.executed then s2.recordTag st r.tag op.code status 0 else s2
  if op == .doorbell || (s.entryBad r || s.baseCheck op r == .ok) then s3 else s3.switchMiss st r

/-- The rights of a well-formed request of a number the board serves, while the tables are read without error. -/
theorem State.checkRights_rights {s : State} {st : Nat} {op : ReqOp} {r : Req} (ram : s.sramOk)
    (b : s.wrongBoard op r = false) (m : wellFormedReq op r = true) :
    s.checkRights st op r = if s.rightsOf op r = .ok then s.serve st op r
      else (s.denied st op r).reply st op r (s.rightsOf op r) 0 := by
  unfold State.checkRights
  simp only [b, m, State.readTables_ok ram, Bool.false_eq_true, if_false, Bool.not_true, Bool.not_false, Bool.true_and,
    Bool.false_or]
  cases op <;> rfl

theorem State.denied_keeps (s : State) (st : Nat) (op : ReqOp) (r : Req) : Keeps 541851688 s (s.denied st op r) := by
  unfold State.denied
  dsimp only
  have k1 : Keeps 541851688 s (if s.cohMalformed op r then s.count .stall st 32 else s) := by
    split
    · exact State.count_keeps rfl (Keeps.refl _ _)
    · exact Keeps.refl _ _
  generalize (if s.cohMalformed op r then s.count .stall st 32 else s) = s1 at k1 ⊢
  have k2 : Keeps 541851688 s (if s.rightsOf op r = .keyRetired then s1.count .key (s1.reqEntry r).slot 1 else s1) := by
    split
    · exact State.count_keeps rfl k1
    · exact k1
  generalize (if s.rightsOf op r = .keyRetired then s1.count .key (s1.reqEntry r).slot 1 else s1) = s2 at k2 ⊢
  have k3 : Keeps 541851688 s
      (if op.ni && (s.rightsOf op r).executed then s2.recordTag st r.tag op.code (s.rightsOf op r) 0 else s2) := by
    split
    · exact State.recordTag_keeps rfl k2
    · exact k2
  split
  · exact k3
  · exact State.switchMiss_keeps rfl k3

/-! ### What each refused request does -/

/-- Arrival counts the request, and moves its stall's place in order; charging moves its IN shaper. -/
theorem State.arrived_keeps {M : Nat} (s : State) (st : Nat) (op : ReqOp) (r : Req) (hM : 541065224 &&& M = 541065224) :
    Keeps M s (s.arrived st op r) :=
  State.updStall_keeps (Keeps.subMask hM rfl) (Or.inl (Keeps.subBit hM rfl))
    (State.count_keeps (Keeps.subMask hM rfl) (Keeps.refl _ _))

theorem State.entered_keeps {M : Nat} (s : State) (st : Nat) (op : ReqOp) (r : Req) (hM : 541065240 &&& M = 541065240) :
    Keeps M s (s.entered st op r) :=
  State.chargeIn_keeps (Keeps.subMask hM rfl) (s.arrived_keeps st op r (Keeps.subMask hM rfl))

section
variable {s : State} {st : Nat} {op : ReqOp} {r : Req} {i : Instr} (request : requestOf i = some (op, r))
include request

/-- A supported request of a stall that is not ATTACHED (R56, R73). -/
theorem request_of_unattached (link : r.link < 48) (up : (s.link r.link).isUp = true)
    (own : (s.link r.link).kind = 0 ∧ (s.link r.link).partner = r.host ∨
      (s.link r.link).kind = 1 ∧ (s.stall st).linkSet.getLsbD r.link = true)
    (gap : s.gapStall r = none) (found : s.stallFor r = some st) (phase : (s.stall st).phase ≠ .attached)
    (u : s.unsupported st op r = false) :
    ∃ t, exec i s = .next t ∧ t = (s.count .stall st op.row).reply st op r .fenced 0 ∧
      s.frame t [.links, .stalls, .xbar, .obs] := by
  refine ⟨_, exec_request request s, ?_⟩
  rw [State.hostRequest_of_stall (counted_of_request request) link up own gap found, if_pos (Or.inl phase),
    State.notCounted_fenced (s := s.count .stall st op.row) u phase]
  exact ⟨rfl, (State.reply_keeps (M := 4259852) rfl (State.count_keeps rfl (Keeps.refl _ _))).frame rfl⟩

section
variable (h : s.inOrder st op r)
include h

/-- A request that its stall's IN shaper holds back (12 R245). -/
theorem request_unadmitted (u : (s.arrived st op r).unsupported st op r = false)
    (w : (s.arrived st op r).mustWait st r = false) (role : (s.arrived st op r).staleBarrow op r = false) (m : op ≠ .mark)
    (n : op ≠ .nop) (a : (s.arrived st op r).admits st = false) :
    ∃ t, exec i s = .next t ∧
      t = ((s.arrived st op r).count .stall st 33).reply st op r .retryBusy (if (s.arrived st op r).inGap r then 15 else 0) ∧
      s.frame t [.links, .stalls, .stallFace, .xbar, .obs] := by
  have phase := (s.arrived_phase st op r).trans h.attached
  refine ⟨_, exec_request request s, ?_⟩
  rw [State.hostRequest_inOrder (counted_of_request request) h u w, State.enter_unadmitted u phase role m n a]
  exact ⟨rfl, (State.reply_keeps (M := 541130764) rfl
    (State.count_keeps rfl (s.arrived_keeps st op r rfl))).frame rfl⟩

/-- A request in order that comes past RETRY_BUSY has its rights checked in the state in which it has entered. -/
theorem request_checked (u : (s.arrived st op r).unsupported st op r = false)
    (w : (s.arrived st op r).mustWait st r = false) (role : (s.arrived st op r).staleBarrow op r = false)
    (gap : (s.arrived st op r).inGap r = false) (pass : op = .mark ∨ op = .nop ∨ (s.arrived st op r).admits st = true)
    (room : (s.arrived st op r).wrongBoard op r = true ∨ (s.arrived st op r).busyNow st op r = false) :
    exec i s = .next ((s.entered st op r).checkRights st op r) := by
  have phase := (s.arrived_phase st op r).trans h.attached
  rw [exec_request request, State.hostRequest_inOrder (counted_of_request request) h u w,
    State.enter_charged u phase role pass gap room]
  rfl

/-- A request for a board number that the board does not serve (R15). -/
theorem request_of_wrongBoard (u : (s.arrived st op r).unsupported st op r = false)
    (w : (s.arrived st op r).mustWait st r = false) (role : (s.arrived st op r).staleBarrow op r = false)
    (gap : (s.arrived st op r).inGap r = false) (pass : op = .mark ∨ op = .nop ∨ (s.arrived st op r).admits st = true)
    (b : (s.arrived st op r).wrongBoard op r = true) :
    ∃ t, exec i s = .next t ∧
      t = (((s.entered st op r).count .stall st 38).switchMiss st r).reply st op r .accessDenied 0 ∧
      s.frame t [.links, .stalls, .stallFace, .shapers, .pitch, .xbar, .repair, .obs] := by
  have b' : (s.entered st op r).wrongBoard op r = true := (State.chargeIn_wrongBoard _ _ _ _ _).trans b
  refine ⟨_, request_checked request h u w role gap pass (Or.inl b), State.checkRights_wrongBoard b', ?_⟩
  rw [State.checkRights_wrongBoard b']
  exact (State.reply_keeps (M := 541655100) rfl
    (State.switchMiss_keeps rfl (State.count_keeps rfl (s.entered_keeps st op r rfl)))).frame rfl

section
variable (on : (s.arrived st op r).goesOn st op r)
include on

/-- A request that goes on comes to the checks of its rights, for a number that the board serves. -/
theorem request_goesOn : exec i s = .next ((s.entered st op r).checkRights st op r) ∧
    (s.entered st op r).wrongBoard op r = false := by
  obtain ⟨u, w, role, gap, pass, b, room⟩ := on
  exact ⟨request_checked request h u w role gap pass (Or.inr room), (State.chargeIn_wrongBoard _ _ _ _ _).trans b⟩

/-- A malformed request (R54). -/
theorem request_malformed (m : wellFormedReq op r = false) :
    ∃ t, exec i s = .next t ∧ t = ((s.entered st op r).count .stall st 32).reply st op r .accessDenied 0 ∧
      s.frame t [.links, .stalls, .stallFace, .shapers, .xbar, .obs] := by
  obtain ⟨e, b⟩ := request_goesOn request h on
  refine ⟨_, e, State.checkRights_malformed b m, ?_⟩
  rw [State.checkRights_malformed b m]
  exact (State.reply_keeps (M := 541130780) rfl (State.count_keeps rfl (s.entered_keeps st op r rfl))).frame rfl

/-- A well-formed request whose rights fail (R56, 04 R80, 08 R159). -/
theorem request_denied (m : wellFormedReq op r = true) (d : (s.entered st op r).rightsOf op r ≠ .ok) :
    ∃ t, exec i s = .next t ∧ (∃ x, t = State.reply x st op r ((s.entered st op r).rightsOf op r) 0) ∧
      s.frame t [.links, .stalls, .stallFace, .shapers, .pitch, .xbar, .pair, .repair, .obs] := by
  obtain ⟨e, b⟩ := request_goesOn request h on
  rw [State.checkRights_rights (State.entered_sramOk st op r h.sramOk) b m, if_neg d] at e
  have k : Keeps 541917244 (s.entered st op r) ((s.entered st op r).denied st op r) :=
    (Keeps.refl _ _).then ((s.entered st op r).denied_keeps st op r) rfl
  exact ⟨_, e, ⟨_, rfl⟩, (State.reply_keeps rfl ((s.entered_keeps st op r rfl).after k)).frame rfl⟩

end
end
end

/-- Settles O17: each refusal is the first check of R56 that finds something, on the way from the link to the rights. -/
theorem refusedRequestsDoNoWork : Obligations.RefusedRequestsDoNoWork := by
  unfold Obligations.RefusedRequestsDoNoWork
  intro s st op r i request
  refine ⟨fun link up own gap found phase u => request_of_unattached request link up own gap found phase u,
    fun h => ?_, fun h on m => request_malformed request h on m, fun h on m d => request_denied request h on m d⟩
  exact fun u w role => ⟨fun m n a => request_unadmitted request h u w role m n a,
    fun gap pass b => request_of_wrongBoard request h u w role gap pass b⟩

end Sys2Proof.Machine
end

section
/-! SUPPORT. Stalls through fences and detaches (04 R73, R75): a stall's seat, which is all of it but its spray pointer, its crier
copies and its completed-tag cache, survives the coherent work that a fence or a detach lets go on. -/

namespace Sys2Proof.Machine

/-! ### Seats -/

/-- A stall without what sending and completed requests change of it: its spray pointer, crier copies and tag cache. -/
def StallSt.seat (x : StallSt) : StallSt := { x.face with tags := [] }

/-- Every stall's seat is as it was. -/
def SeatsKept (s t : State) : Prop := ∀ n, (t.stall n).seat = (s.stall n).seat

theorem SeatsKept.refl (s : State) : SeatsKept s s := fun _ => rfl

theorem SeatsKept.trans {s t u : State} (h : SeatsKept s t) (k : SeatsKept t u) : SeatsKept s u :=
  fun n => (k n).trans (h n)

/-- The mask that lets every part change but the stalls' faces. -/
abbrev facesKept : Nat := 2 ^ 33 - 1 - 2 ^ 29

/-- An operation that keeps the stalls' faces keeps their seats. -/
theorem SeatsKept.of {s t u : State} (h : SeatsKept s t) (k : Keeps facesKept t u) : SeatsKept s u :=
  h.trans fun n => congrArg (fun x : StallSt => { x with tags := [] }) (k.1 .stallFace rfl n)

/-- A field of a seat is as it was. -/
theorem SeatsKept.field {s t : State} {β : Type} (h : SeatsKept s t) (g : StallSt → β) (hg : ∀ x : StallSt, g x.seat = g x)
    (n : Nat) : g (t.stall n) = g (s.stall n) := by
  rw [← hg, h n, hg]

theorem SeatsKept.phase {s t : State} (h : SeatsKept s t) (n : Nat) : (t.stall n).phase = (s.stall n).phase :=
  h.field StallSt.phase (fun _ => rfl) n

theorem SeatsKept.held {s t : State} (h : SeatsKept s t) (n : Nat) : (t.stall n).held = (s.stall n).held :=
  h.field StallSt.held (fun _ => rfl) n

/-! ### Completed requests -/

section
variable {s t : State} (h : SeatsKept s t)
include h

theorem SeatsKept.updStall (st : Nat) {f : StallSt → StallSt} (hf : ∀ x : StallSt, (f x).seat = x.seat) :
    SeatsKept s (t.updStall st f) := by
  refine h.trans fun n => ?_
  rw [State.stall_updStall_if]
  split
  · next q => rw [q, hf]
  · rfl

theorem SeatsKept.recordTag (st : Nat) (tag : BitVec 16) (op : Nat) (status : Status) (result : BitVec 64) :
    SeatsKept s (t.recordTag st tag op status result) := by
  have k : SeatsKept s (t.sramWrite 0x09 8 (st * 4096 + tag.toNat % 4096)) :=
    h.of (State.sramWrite_keeps rfl (Keeps.refl _ _))
  exact k.updStall st (f := fun x => { x with tags := x.tags.set {} (tag.toNat % 4096) {
    valid := true, tag := tag, opcode := op, status := status, result := result } }) fun _ => rfl

theorem SeatsKept.recordDone (e : Trk) : SeatsKept s (t.recordDone e).1 := by
  have k := h.recordTag e.stall e.req.tag e.op.code e.status e.result
  unfold State.recordDone
  dsimp only
  split
  · exact k.of (State.halRecord_keeps rfl (Keeps.refl _ _))
  · exact k

theorem SeatsKept.complete (slice id : Nat) (f : Trk → Trk) : SeatsKept s (t.complete slice id f) := by
  unfold State.complete
  split
  · exact h
  · refine SeatsKept.of ?_ (State.updSlice_keeps rfl (Keeps.refl _ _))
    split
    · refine SeatsKept.recordDone ?_ _
      split
      · exact h.of (State.endUse_keeps rfl (Keeps.refl _ _))
      · exact h
    · split
      · exact h.of (State.endUse_keeps rfl (Keeps.refl _ _))
      · exact h

theorem SeatsKept.settle (slice : Nat) (e : Trk) : SeatsKept s (t.settle slice e) := by
  have k : SeatsKept s (t.putTrk slice e) := h.of (State.putTrk_keeps rfl (Keeps.refl _ _))
  unfold State.settle
  dsimp only
  split
  · exact k.complete _ _ _
  · exact k

theorem SeatsKept.failUnit (slice u : Nat) (e : Trk) (st : Status) : SeatsKept s (t.failUnit slice u e st) :=
  h.settle _ _

theorem SeatsKept.grantLine (slice line : Nat) (e : Trk) (state : Nat) (f : DirEntry → DirEntry) :
    SeatsKept s (t.grantLine slice line e state f) := by
  have k : SeatsKept s ((t.setDir slice line f).tellDir slice line).1 :=
    (h.of (State.setDir_keeps rfl (Keeps.refl _ _))).of (State.tellDir_keeps rfl (Keeps.refl _ _))
  exact (k.settle _ _).of (State.recallGranted_keeps rfl (Keeps.refl _ _))

/-! ### Units in memory -/

theorem SeatsKept.unitRead (e : Trk) (u : Nat) : SeatsKept s (t.unitRead e u).1 :=
  h.of (State.unitRead_keeps rfl (Keeps.refl _ _))

theorem SeatsKept.unitDo (e : Trk) (u : Nat) : SeatsKept s (t.unitDo e u).1 :=
  h.of (State.unitDo_keeps rfl (Keeps.refl _ _))

theorem SeatsKept.freeLine (slice line : Nat) : SeatsKept s (t.freeLine slice line) :=
  h.of (State.freeLine_keeps rfl (Keeps.refl _ _))

theorem SeatsKept.takeDirty (off : Nat) (d : Option Line) : SeatsKept s (t.takeDirty off d).1 :=
  h.of (State.takeDirty_keeps rfl (Keeps.refl _ _))

theorem SeatsKept.lowerShared (slice line : Nat) (e : DirEntry) (l : List Snoop) :
    SeatsKept s (t.lowerShared slice line e l) :=
  h.of (State.lowerShared_keeps rfl (Keeps.refl _ _))

theorem SeatsKept.startTxn (slice line mod : Nat) (targets : List Nat) (cause : TxnCause) (spared : Option Nat) :
    SeatsKept s (t.startTxn slice line mod targets cause spared) :=
  h.of (State.startTxn_keeps rfl (Keeps.refl _ _))

theorem SeatsKept.dropTxn (slice : Nat) (x : Txn) : SeatsKept s (t.dropTxn slice x) :=
  h.of (State.dropTxn_keeps rfl (Keeps.refl _ _))

theorem SeatsKept.cohMemory (slice u : Nat) (e : Trk) (stale : Bool) {after : State → State}
    (ha : ∀ x, SeatsKept s x → SeatsKept s (after x)) : SeatsKept s (t.cohMemory slice u e stale after) := by
  have k := h.unitDo e u
  unfold State.cohMemory
  dsimp only
  refine SeatsKept.settle ?_ _ _
  split
  · exact ha _ k
  · exact k

theorem SeatsKept.grantMemory (slice line u : Nat) (e : Trk) (state : Nat) (f : DirEntry → DirEntry)
    {fail : State → State} (hf : ∀ x, SeatsKept s x → SeatsKept s (fail x)) :
    SeatsKept s (t.grantMemory slice line u e state f fail) := by
  have k := h.unitRead e u
  unfold State.grantMemory
  dsimp only
  split
  · exact k.grantLine _ _ _ _ _
  · exact (hf _ k).settle _ _

/-! ### A request that is taken up -/

theorem SeatsKept.cohFresh (slice line u : Nat) (e : Trk) : SeatsKept s (t.cohFresh slice line u e) := by
  unfold State.cohFresh
  split
  · have k := h.unitRead e u
    dsimp only
    split
    · exact (k.of (State.updSlice_keeps rfl (Keeps.refl _ _))).grantLine _ _ _ _ _
    · exact k.settle _ _
  · exact (h.of (State.updSlice_keeps rfl (Keeps.refl _ _))).startTxn _ _ _ _ _ _
  · exact (h.of (State.tellFull_keeps rfl (Keeps.refl _ _))).failUnit _ _ _ _

theorem SeatsKept.cohLost (slice line u : Nat) (e : Trk) (stale : Bool) :
    SeatsKept s (t.cohLost slice line u e stale) := by
  have k := h.unitRead e u
  unfold State.cohLost
  split
  · exact h.cohMemory _ _ _ _ fun _ q => q.freeLine _ _
  · exact h.settle _ _
  · dsimp only
    split_ifs
    · exact k.grantLine _ _ _ _ _
    · exact k.settle _ _
    · exact h.failUnit _ _ _ _
  · split
    · exact h.cohMemory _ _ _ _ fun _ q => q
    · exact h.failUnit _ _ _ _
  · split
    · exact h.cohMemory _ _ _ _ fun _ q => q
    · exact h.failUnit _ _ _ _
  · split
    · exact h.cohMemory _ _ _ _ fun _ q => q.freeLine _ _
    · exact h.failUnit _ _ _ _

theorem SeatsKept.cohDirect (slice line u : Nat) (e : Trk) (d : DirEntry) :
    SeatsKept s (t.cohDirect slice line u e d) := by
  unfold State.cohDirect
  split
  · split
    · exact h.grantMemory _ _ _ _ _ _ fun _ q => q.freeLine _ _
    · exact h.grantMemory _ _ _ _ _ _ fun _ q => q
  · exact h.cohMemory _ _ _ _ fun _ q => q
  · split
    · exact ((h.unitDo e u).of (State.writebackEntry_keeps rfl (Keeps.refl _ _))).settle _ _
    · exact h.settle _ _
  · split
    · refine SeatsKept.settle ?_ _ _
      split
      · exact h.freeLine _ _
      · exact h
    · refine SeatsKept.settle ?_ _ _
      split
      · exact h.freeLine _ _
      · exact (h.of (State.setDir_keeps rfl (Keeps.refl _ _))).of (State.tellDir_keeps rfl (Keeps.refl _ _))
  · exact h.settle _ _

theorem SeatsKept.cohTake (slice u : Nat) (e : Trk) : SeatsKept s (t.cohTake slice u e) := by
  unfold State.cohTake
  dsimp only
  split
  · split
    · exact h.cohFresh _ _ _ _
    · exact h.settle _ _
    · exact h.cohMemory _ _ _ _ fun _ q => q
  · next k _ =>
    have r : SeatsKept s (t.readDir slice k e) := h.of (State.readDir_keeps rfl (Keeps.refl _ _))
    split
    · exact r.cohLost _ _ _ _ _
    · exact r.cohLost _ _ _ _ _
    · split
      · exact r.startTxn _ _ _ _ _ _
      · exact r.cohDirect _ _ _ _ _

/-! ### A transaction that ends -/

theorem SeatsKept.cohGone (slice u : Nat) (e : Trk) (line : Nat) (l : List Snoop) :
    SeatsKept s (t.cohGone slice u e line l) := by
  have k := h.unitRead e u
  unfold State.cohGone
  split
  · dsimp only
    split
    · exact (k.of (State.updSlice_keeps rfl (Keeps.refl _ _))).grantLine _ _ _ _ _
    · exact k.settle _ _
  · exact h.cohTake _ _ _

theorem SeatsKept.cohReadEnd (slice u : Nat) (e : Trk) (d : DirEntry) (l : List Snoop) :
    SeatsKept s (t.cohReadEnd slice u e d l) := by
  have memory (state : Nat) (f : DirEntry → DirEntry) {fail : State → State}
      (hf : ∀ x, SeatsKept s x → SeatsKept s (fail x)) := h.grantMemory slice d.line u e state f hf
  have free (x : State) (q : SeatsKept s x) := q.freeLine slice d.line
  unfold State.cohReadEnd
  generalize d.phase = p
  generalize dirtyOf l = o
  cases p
  case pennant =>
    cases o
    · exact h.grantLine _ _ _ _ _
    · dsimp only
      split
      all_goals exact h.grantLine _ _ _ _ _
  case owned =>
    cases o
    · dsimp only
      split
      · exact memory _ _ fun _ q => q.lowerShared _ _ _ _
      · exact memory _ _ free
    · dsimp only
      split
      all_goals exact h.grantLine _ _ _ _ _
  all_goals
    dsimp only
    split
    · exact memory _ _ fun _ q => q
    · exact memory _ _ free

theorem SeatsKept.cohEnd (slice u : Nat) (e : Trk) (x : Txn) (d : DirEntry) (l : List Snoop) :
    SeatsKept s (t.cohEnd slice u e x d l) := by
  unfold State.cohEnd
  dsimp only
  split
  · exact (h.of (State.lostPennant_keeps rfl (Keeps.refl _ _))).cohLost _ _ _ _ _
  · split
    · exact h.cohReadEnd _ _ _ _ _
    · split
      · exact (h.lowerShared _ _ _ _).settle _ _
      · exact (h.lowerShared _ _ _ _).cohMemory _ _ _ _ fun _ q => q
    · exact ((h.takeDirty _ _).lowerShared _ _ _ _).settle _ _
    · exact (h.freeLine _ _).settle _ _
    · refine SeatsKept.settle (SeatsKept.freeLine ?_ _ _) _ _
      split
      · exact h.unitDo _ _
      · exact (h.unitDo _ _).takeDirty _ _
    · exact (((h.takeDirty _ _).unitDo _ _).freeLine _ _).settle _ _

theorem SeatsKept.endTxn (slice : Nat) (x : Txn) : SeatsKept s (t.endTxn slice x) := by
  have k := h.dropTxn slice x
  unfold State.endTxn
  dsimp only
  split
  · split
    · exact k.cohGone _ _ _ _ _
    · exact k
    · exact k
    · exact h.of (State.recallOver_keeps rfl (Keeps.refl _ _))
  · split
    · exact k.of (State.endOrphaned_keeps rfl (Keeps.refl _ _))
    · split
      · exact k.cohEnd _ _ _ _ _ _
      · exact k.of (State.endAborted_keeps rfl (Keeps.refl _ _))
      · exact k
      · exact h.of (State.endRecall_keeps rfl (Keeps.refl _ _))

end

/-! ### All coherent work -/

theorem SeatsKept.cohRun {s : State} (slice : Nat) : ∀ (fuel : Nat) {t : State}, SeatsKept s t →
    SeatsKept s (State.cohRun slice fuel t)
  | 0, _, h => h
  | fuel + 1, t, h => by
    unfold State.cohRun
    split
    · exact SeatsKept.cohRun slice fuel (h.endTxn slice _)
    · split
      · exact SeatsKept.cohRun slice fuel (h.of (State.startWaiting_keeps rfl (Keeps.refl _ _)))
      · split
        · exact SeatsKept.cohRun slice fuel
            ((h.of (State.updSlice_keeps rfl (Keeps.refl _ _))).cohTake slice _ _)
        · exact h

theorem SeatsKept.foldl {β : Type} {s t : State} {f : State → β → State} (h : SeatsKept s t)
    (hf : ∀ x b, SeatsKept s x → SeatsKept s (f x b)) (l : List β) : SeatsKept s (l.foldl f t) := by
  induction l generalizing t with
  | nil => exact h
  | cons b l ih => exact ih (hf t b h)

theorem SeatsKept.cohGoAll {s t : State} (h : SeatsKept s t) : SeatsKept s t.cohGoAll := by
  unfold State.cohGoAll
  exact h.foldl (fun _ n q => SeatsKept.cohRun n _ q) _

/-! ### The fence and the detach -/

/-- A stall's row may be told to the partner. -/
theorem SeatsKept.tellStallIf {s t : State} (h : SeatsKept s t) (b : Bool) (st : Nat) :
    SeatsKept s (if b then t.tellStall st else t) := by
  split
  · exact h.of (State.tellStall_keeps rfl (Keeps.refl _ _))
  · exact h

theorem SeatsKept.setObs {s t : State} (h : SeatsKept s t) (o : ObsSt) : SeatsKept s { t with obs := o } := fun n => h n

/-- The fence cycle's work on the slices: lines orphaned, snoops of the stall answered, and coherent work gone on (07 R148). -/
theorem SeatsKept.orphaned {s t : State} (h : SeatsKept s t) (st : Nat) :
    SeatsKept s (((upTo 8).foldl (fun a n => a.orphanSlice n st) t).absentStall st).cohGoAll :=
  ((h.foldl (fun _ _ q => q.of (State.orphanSlice_keeps rfl (Keeps.refl _ _))) _).of
    (State.absentStall_keeps rfl (Keeps.refl _ _))).cohGoAll

/-- After a fence every seat is as it was, but that the fenced stall is FENCED and holds no packet. -/
theorem State.fenceStall_seats (s : State) (st cause : Nat) :
    SeatsKept (s.updStall st fun y => { y with phase := .fenced, wasFenced := true, held := [], crierQ := [] })
      (s.fenceStall st cause) := by
  have discarded := (((SeatsKept.refl (s.updStall st fun y => { y with
        phase := .fenced, wasFenced := true, held := [], crierQ := [] })).of
      (State.answerHeld_keeps (a1 := st) (a2 := (s.stall st).held) rfl (Keeps.refl _ _))).of
    (State.pruneStall_keeps (a1 := st) rfl (Keeps.refl _ _))).of (State.discardStall_keeps (a1 := st) rfl (Keeps.refl _ _))
  unfold State.fenceStall
  dsimp only
  refine SeatsKept.tellStallIf ?_ _ _
  refine SeatsKept.of (SeatsKept.of (SeatsKept.of (SeatsKept.of ?_ (State.crier_keeps rfl (Keeps.refl _ _)))
    (State.crier_keeps rfl (Keeps.refl _ _))) (State.fault_keeps rfl (Keeps.refl _ _)))
    (State.ledger_keeps rfl (Keeps.refl _ _))
  exact (discarded.setObs _).orphaned st

/-- The same of a detach, which leaves the stall DETACHING. -/
theorem State.detachStall_seats (s : State) (st : Nat) :
    SeatsKept (s.updStall st fun y => { y with phase := .detaching, held := [], crierQ := [] }) (s.detachStall st) := by
  have pruned := ((SeatsKept.refl (s.updStall st fun y => { y with phase := .detaching, held := [], crierQ := [] })).of
      (State.answerHeld_keeps (a1 := st) (a2 := (s.stall st).held) rfl (Keeps.refl _ _))).of
    (State.pruneStall_keeps (a1 := st) rfl (Keeps.refl _ _))
  unfold State.detachStall
  refine SeatsKept.tellStallIf (SeatsKept.cohGoAll ?_) _ _
  split
  · exact pruned.foldl (fun _ _ q => q.of
      (State.recallWhere_keeps rfl (fun _ _ => Keeps.refl _ _) (Keeps.refl _ _))) _
  · exact pruned

/-! ### The bits of LINK_SET (R72) -/

theorem sumBits_lt (b : Nat → Bool) (k : Nat) :
    (upTo k).foldl (fun a n => a + (if b n then 2 ^ n else 0)) 0 < 2 ^ k := by
  induction k with
  | zero => exact Nat.one_pos
  | succ k ih =>
    simp only [upTo, List.range_succ, List.foldl_append, List.foldl_cons, List.foldl_nil] at ih ⊢
    split <;> omega

/-- A sum of distinct powers of two has just their bits. -/
theorem testBit_sumBits (b : Nat → Bool) (k n : Nat) :
    ((upTo k).foldl (fun a n => a + (if b n then 2 ^ n else 0)) 0).testBit n = (decide (n < k) && b n) := by
  induction k with
  | zero => simp [upTo]
  | succ k ih =>
    have lt := sumBits_lt b k
    simp only [upTo, List.range_succ, List.foldl_append, List.foldl_cons, List.foldl_nil] at ih lt ⊢
    split
    · next set =>
      have or := Nat.two_pow_add_eq_or_of_lt lt 1
      rw [Nat.mul_one] at or
      rw [Nat.add_comm, or, Nat.testBit_or, ih, Nat.testBit_two_pow]
      rcases Nat.lt_trichotomy n k with q | rfl | q
      · simp [q, q.ne', Nat.lt_succ_of_lt q]
      · simp [set]
      · simp [q.ne, q.not_gt, Nat.not_lt.2 q]
    · next unset =>
      rw [Nat.add_zero, ih]
      rcases Nat.lt_trichotomy n k with q | rfl | q
      · simp [q, Nat.lt_succ_of_lt q]
      · simp [unset]
      · simp [q.not_gt, Nat.not_lt.2 q]

theorem State.linkSetNew_getLsbD (s : State) (st v : Nat) {n : Nat} (h : n < 48) :
    (s.linkSetNew st v).getLsbD n = if s.hostLink n then (s.stall st).linkSet.getLsbD n else bitAt v n := by
  unfold State.linkSetNew
  rw [BitVec.getLsbD_ofNat, testBit_sumBits (fun n => if s.hostLink n then (s.stall st).linkSet.getLsbD n else bitAt v n)]
  simp [h]

/-! ### Frames of the stall commands -/

/-- A frame that its entry refuses leaves the ledger entry and the answer. -/
theorem State.refused_frame (s : State) (f : Frame) (q : Ask) (a b : Ans) :
    s.frame ((s.logged f q a).answered f q b) [.links, .stalls, .xbar, .repair, .sec, .mgmt, .obs] :=
  Keeps.frame (((Keeps.refl 7929868 s).then (s.logged_keeps f q a) rfl).then (State.answered_keeps _ f q b) rfl) rfl

/-- An answer keeps the seats. -/
theorem SeatsKept.answered {s t : State} (h : SeatsKept s t) (f : Frame) (q : Ask) (a : Ans) :
    SeatsKept s (t.answered f q a) :=
  h.of ((Keeps.refl _ _).then (t.answered_keeps f q a) rfl)

theorem actFence_attached {s : State} {st : Nat} (h : st < 1024) (p : (s.stall st).phase = .attached) :
    actFence st s = (s.fenceStall st 1, {}) := if_pos ⟨h, p⟩

theorem actFence_refused {s : State} {st : Nat} (p : (s.stall st).phase ≠ .attached) : actFence st s = (s, refuse 3) :=
  if_neg fun q => p q.2

theorem fence_effect {s : State} {f : Frame} {st : Nat} (n : st < 1024) (h : s.accepts f (askWrite kFence 2 st)) :
    ∃ t, exec (.fence f st) s = .next t ∧
      ((s.stall st).phase = .attached → (t.stall st).phase = .fenced ∧ (t.stall st).held = []) ∧
      ((s.stall st).phase ≠ .attached → s.frame t [.links, .stalls, .xbar, .repair, .sec, .mgmt, .obs]) ∧
      s.frame t [.links, .stalls, .stallFace, .pitch, .slices, .chans, .snoops, .nextTag, .trees, .pushes, .xbar,
        .pair, .repair, .repairFace, .sec, .secFace, .mgmt, .obs, .clock] := by
  refine ⟨_, rfl, fun p => ?_, fun p => ?_, (execFence_keeps (M := 3783078892) rfl (Keeps.refl _ s)).frame rfl rfl⟩
  · rw [State.write_accepts _ h, actFence_attached n (by simpa using p)]
    have k := (State.fenceStall_seats (s.logged f (askWrite kFence 2 st) (actFence st s).2) st 1).answered f
      (askWrite kFence 2 st) (actFence st s).2
    rw [k.phase, k.held, State.stall_updStall]
    exact ⟨rfl, rfl⟩
  · rw [State.write_accepts _ h, actFence_refused (by simpa using p)]
    exact State.refused_frame _ _ _ _ _

theorem hostDead_effect {s : State} {st : Nat} (p : (s.stall st).phase = .attached) (l : s.liveLinks st = []) :
    ∃ t, exec (.hostDead st) s = .next t ∧ (t.stall st).phase = .fenced ∧ (t.stall st).held = [] ∧
      s.frame t [.links, .stalls, .stallFace, .pitch, .slices, .chans, .snoops, .nextTag, .trees, .pushes, .xbar,
        .pair, .repair, .repairFace, .sec, .secFace, .obs, .clock] := by
  have e : execHostDead st s = .next (s.fenceStall st 2) := congrArg Host.Outcome.next (if_pos ⟨p, l⟩)
  have k := State.fenceStall_seats s st 2
  refine ⟨_, e, ?_, ?_, (execHostDead_keeps (M := 3780981740) rfl (Keeps.refl _ s)).frame e rfl⟩
  · rw [k.phase, State.stall_updStall]
  · rw [k.held, State.stall_updStall]

theorem actDetach_taken {s : State} {st : Nat} (h : st < 1024)
    (p : (s.stall st).phase = .attached ∨ (s.stall st).phase = .fenced) : actDetach st s = (s.detachStall st, {}) :=
  if_pos ⟨h, p⟩

theorem actDetach_refused {s : State} {st : Nat}
    (p : (s.stall st).phase = .free ∨ (s.stall st).phase = .detaching) : actDetach st s = (s, refuse 3) :=
  if_neg fun q => by rcases p with p | p <;> simp [p] at q

theorem detach_effect {s : State} {f : Frame} {st : Nat} (n : st < 1024) (h : s.accepts f (askWrite kDetach 2 st)) :
    ∃ t, exec (.detach f st) s = .next t ∧
      ((s.stall st).phase = .attached ∨ (s.stall st).phase = .fenced →
        (t.stall st).phase = .detaching ∧ (t.stall st).held = []) ∧
      ((s.stall st).phase = .free ∨ (s.stall st).phase = .detaching →
        s.frame t [.links, .stalls, .xbar, .repair, .sec, .mgmt, .obs]) ∧
      s.frame t [.links, .stalls, .stallFace, .pitch, .slices, .chans, .snoops, .nextTag, .trees, .pushes, .xbar,
        .pair, .repair, .repairFace, .sec, .secFace, .mgmt, .obs, .clock] := by
  refine ⟨_, rfl, fun p => ?_, fun p => ?_, (execDetach_keeps (M := 3783078892) rfl (Keeps.refl _ s)).frame rfl rfl⟩
  · rw [State.write_accepts _ h, actDetach_taken n (by simpa using p)]
    have k := (State.detachStall_seats (s.logged f (askWrite kDetach 2 st) (actDetach st s).2) st).answered f
      (askWrite kDetach 2 st) (actDetach st s).2
    rw [k.phase, k.held, State.stall_updStall]
    exact ⟨rfl, rfl⟩
  · rw [State.write_accepts _ h, actDetach_refused (by simpa using p)]
    exact State.refused_frame _ _ _ _ _

/-- A detach that is over frees the stall and clears its links; its epoch and host stay (R75). -/
theorem detachComplete_effect {s : State} {st : Nat} (p : (s.stall st).phase = .detaching) (b : s.stallBusy st = false) :
    ∃ t, exec (.detachComplete st) s = .next t ∧ (t.stall st).phase = .free ∧ (t.stall st).linkSet = 0 ∧
      (t.stall st).epoch = (s.stall st).epoch ∧ (t.stall st).host = (s.stall st).host ∧
      s.frame t [.links, .stalls, .stallFace, .pair, .repair, .obs] := by
  let s1 := s.updStall st fun x => { x with phase := .free, linkSet := 0, wasFenced := false }
  have e : execDetachComplete st s = .next ((if decide (st < 1024) || s1.pair.activeSide then s1.tellStall st
      else s1).crier 8 0x05 st (s.stall st).host) := congrArg Host.Outcome.next (if_pos ⟨p, b⟩)
  have k := ((SeatsKept.refl s1).tellStallIf (decide (st < 1024) || s1.pair.activeSide) st).of
    (State.crier_keeps (a1 := 8) (a2 := 0x05) (a3 := st) (a4 := (s.stall st).host) (a5 := []) rfl (Keeps.refl _ _))
  have freed : s1.stall st = { s.stall st with phase := .free, linkSet := 0, wasFenced := false } :=
    State.stall_updStall _ _ _
  refine ⟨_, e, ?_, ?_, ?_, ?_, (execDetachComplete_keeps (M := 541851660) rfl (Keeps.refl _ s)).frame e rfl⟩
  · rw [k.phase, freed]
  · rw [k.field StallSt.linkSet fun _ => rfl, freed]
  · rw [k.field StallSt.epoch fun _ => rfl, freed]
  · rw [k.field StallSt.host fun _ => rfl, freed]

/-! ### STALL_TABLE and BOARD_NUMBER (R72, 01 R14) -/

theorem writeRows_one_stored {wr : Nat → Nat → State → State × Nat} {row v : Nat} {s : State} (h : (wr row v s).2 = 0) :
    (writeRows wr row [v] s).1 = (wr row v s).1 := by
  unfold writeRows
  split
  · next q => rw [q]; rfl
  · next k q => exact absurd (by rw [q] at h; exact h) k

theorem writeRows_one_refused {wr : Nat → Nat → State → State × Nat} {row v : Nat} {s : State} (h : (wr row v s).2 ≠ 0) :
    (writeRows wr row [v] s).1 = s := by
  unfold writeRows
  split
  · next q => exact absurd (by rw [q]) h
  · rfl

theorem State.recomputeCaps_face (s : State) (st j : Nat) : ((s.recomputeCaps st).stall j).face =
    if j = st then { (s.stall st).face with caps := s.capsOver st } else (s.stall j).face := by
  have caps : ((s.updStall st fun x => { x with caps := s.capsOver st }).stall j).face =
      if j = st then { (s.stall st).face with caps := s.capsOver st } else (s.stall j).face := by
    rw [State.stall_updStall_if]
    split <;> rfl
  unfold State.recomputeCaps
  dsimp only
  split
  · rw [State.crier_stallFace, caps]
  · exact caps

theorem State.tellStall_face (s : State) (st j : Nat) : ((s.tellStall st).stall j).face = (s.stall j).face :=
  (State.tellStall_keeps (M := facesKept) rfl (Keeps.refl _ _)).1 .stallFace rfl j

theorem State.answered_face (s : State) (f : Frame) (q : Ask) (a : Ans) (j : Nat) :
    ((s.answered f q a).stall j).face = (s.stall j).face := (s.answered_keeps f q a).1 .stallFace rfl j

/-- The state with a row of STALL_TABLE stored in its stall (Tables 4.1 and 4.2). -/
def State.withRow (s : State) (st v : Nat) : State := s.updStall st fun x => { x with
  orderMode := bits v 60 2, strictTc := BitVec.ofNat 8 (bits v 52 8), linkSet := s.linkSetNew st (v / 2 ^ 64) }

/-- A row that stands is stored, and the stall's capabilities follow its new links. -/
theorem State.writeStallRow_stored {s : State} {st v : Nat} (m : bits v 60 2 ≠ 3)
    (b : s.linkSetBad st (v / 2 ^ 64) = false) :
    State.writeStallRow st v s = (((s.withRow st v).recomputeCaps st).tellStall st, 0) := by
  unfold State.writeStallRow
  rw [if_neg m, b, if_neg Bool.false_ne_true]
  rfl

/-- Of the stalls' faces a stored row changes that of its own stall, by its row and its capabilities. -/
theorem State.storedRow_face (s : State) (st v j : Nat) :
    ((((s.withRow st v).recomputeCaps st).tellStall st).stall j).face =
      if j = st then { (s.stall st).face with
        orderMode := bits v 60 2, strictTc := BitVec.ofNat 8 (bits v 52 8), linkSet := s.linkSetNew st (v / 2 ^ 64)
        caps := (s.withRow st v).capsOver st }
      else (s.stall j).face := by
  rw [State.tellStall_face, State.recomputeCaps_face]
  split
  · rw [State.withRow, State.stall_updStall]
    rfl
  · next o => rw [State.withRow, State.stall_updStall_other _ _ o]

/-- What a state whose stalls' faces are those of the stored row reads in that row, and in the others. -/
theorem State.storedRow_reads {s t : State} {st v : Nat}
    (h : ∀ j, (t.stall j).face = ((((s.withRow st v).recomputeCaps st).tellStall st).stall j).face) :
    (t.stall st).orderMode = bits v 60 2 ∧ (t.stall st).strictTc = BitVec.ofNat 8 (bits v 52 8) ∧
    (t.stall st).phase = (s.stall st).phase ∧ (t.stall st).epoch = (s.stall st).epoch ∧
    (∀ n, n < 48 → (t.stall st).linkSet.getLsbD n = if s.hostLink n then (s.stall st).linkSet.getLsbD n
      else bitAt (v / 2 ^ 64) n) ∧
    ∀ j, j ≠ st → (t.stall j).face = (s.stall j).face := by
  have row := (h st).trans ((s.storedRow_face st v st).trans (if_pos rfl))
  refine ⟨?_, ?_, ?_, ?_, fun n hn => ?_, fun j o => (h j).trans ((s.storedRow_face st v j).trans (if_neg o))⟩
  · exact (congrArg StallSt.orderMode row : (t.stall st).face.orderMode = _)
  · exact (congrArg StallSt.strictTc row : (t.stall st).face.strictTc = _)
  · exact (congrArg StallSt.phase row : (t.stall st).face.phase = _)
  · exact (congrArg StallSt.epoch row : (t.stall st).face.epoch = _)
  · rw [← s.linkSetNew_getLsbD st _ hn]
    exact congrArg (fun l : BitVec 48 => l.getLsbD n)
      (congrArg StallSt.linkSet row : (t.stall st).face.linkSet = s.linkSetNew st (v / 2 ^ 64))

theorem State.writeStallRow_refused {s : State} {st v : Nat}
    (b : bits v 60 2 = 3 ∨ s.linkSetBad st (v / 2 ^ 64) = true) : (State.writeStallRow st v s).2 ≠ 0 := by
  unfold State.writeStallRow
  split
  · exact Nat.succ_ne_zero 1
  · next m =>
    rw [if_pos (b.resolve_left m)]
    exact Nat.succ_ne_zero 2

theorem State.logged_linkSetBad (s : State) (f : Frame) (q : Ask) (a : Ans) (st v : Nat) :
    (s.logged f q a).linkSetBad st v = s.linkSetBad st v := by
  simp only [State.linkSetBad, State.hostLink, State.logged_at_link, State.logged_at_stall]

theorem State.logged_hostLink (s : State) (f : Frame) (q : Ask) (a : Ans) (n : Nat) :
    (s.logged f q a).hostLink n = s.hostLink n := by
  simp only [State.hostLink, State.logged_at_link]

theorem stallTableWrite_effect {s : State} {f : Frame} {st v : Nat} (h : s.accepts f (askRows kStallTable 16 st [v])) :
    ∃ t, exec (.stallTableWrite f st [v]) s = .next t ∧
      (bits v 60 2 ≠ 3 → s.linkSetBad st (v / 2 ^ 64) = false →
        (t.stall st).orderMode = bits v 60 2 ∧ (t.stall st).strictTc = BitVec.ofNat 8 (bits v 52 8) ∧
        (t.stall st).phase = (s.stall st).phase ∧ (t.stall st).epoch = (s.stall st).epoch ∧
        (∀ n, n < 48 → (t.stall st).linkSet.getLsbD n = if s.hostLink n then (s.stall st).linkSet.getLsbD n
          else bitAt (v / 2 ^ 64) n) ∧
        ∀ j, j ≠ st → (t.stall j).face = (s.stall j).face) ∧
      (bits v 60 2 = 3 ∨ s.linkSetBad st (v / 2 ^ 64) = true → ∀ j, (t.stall j).face = (s.stall j).face) ∧
      s.frame t [.links, .stalls, .stallFace, .xbar, .pair, .repair, .sec, .mgmt, .obs] := by
  refine ⟨_, rfl, fun m b => ?_, fun b => ?_,
    (execStallTableWrite_keeps (M := 545062924) rfl (Keeps.refl _ s)).frame rfl rfl⟩
  · unfold State.writeWindow
    rw [State.mgmtFrame_accepts _ h]
    generalize (writeRows (fun r v s => State.writeStallRow r v s) st [v] s).2 = a
    have stored := State.writeStallRow_stored (s := s.logged f (askRows kStallTable 16 st [v]) a) (st := st) m
      (by rw [State.logged_linkSetBad, b])
    rw [writeRows_one_stored (congrArg Prod.snd stored), stored]
    have reads := State.storedRow_reads (s := s.logged f (askRows kStallTable 16 st [v]) a) (st := st) (v := v)
      fun j => State.answered_face _ f (askRows kStallTable 16 st [v]) a j
    simpa only [State.logged_at_stall, State.logged_hostLink] using reads
  · intro j
    unfold State.writeWindow
    rw [State.mgmtFrame_accepts _ h, State.answered_face, writeRows_one_refused, State.logged_at_stall]
    exact State.writeStallRow_refused (by rwa [State.logged_linkSetBad])

theorem storeEntry_boardNumber {s : State} {v : Nat} (h : v < 256) :
    storeEntry kBoardNumber v s = (s.setReg kBoardNumber v, {}) := by
  have all : v &&& storeMask kBoardNumber = v := Nat.and_two_pow_sub_one_of_lt_two_pow (n := 64) (by omega)
  unfold storeEntry
  rw [all]
  rfl

theorem State.logged_boardNumberFixed (s : State) (f : Frame) (q : Ask) (a : Ans) :
    (s.logged f q a).boardNumberFixed = s.boardNumberFixed := by
  simp only [State.boardNumberFixed, State.logged_pitch, State.logged_pair]

theorem boardNumberWrite_effect {s : State} {f : Frame} {v : Nat} (lt : v < 256)
    (h : s.accepts f (askWrite kBoardNumber 1 v)) :
    ∃ t, exec (.boardNumberWrite f v) s = .next t ∧
      (s.boardNumberFixed = false → t.board = v ∧ ∀ k, k ≠ kBoardNumber → t.reg k = s.reg k) ∧
      (s.boardNumberFixed = true → t.dict = s.dict) ∧
      s.frame t [.dict, .links, .stalls, .xbar, .pair, .repair, .sec, .mgmt, .obs] := by
  refine ⟨_, rfl, fun b => ?_, fun b => ?_,
    (execBoardNumberWrite_keeps (M := 8192014) rfl (Keeps.refl _ s)).frame rfl rfl⟩
  · rw [State.write_accepts _ h]
    unfold actBoardNumberWrite
    rw [State.logged_boardNumberFixed, b, if_neg Bool.false_ne_true, storeEntry_boardNumber lt]
    refine ⟨?_, fun k o => ?_⟩
    · exact (State.answered_at_reg _ _ _ _ _).trans (State.reg_setReg _ _ _)
    · rw [State.answered_at_reg, State.reg_setReg_other _ _ o, State.logged_at_reg]
  · rw [State.write_accepts _ h]
    unfold actBoardNumberWrite
    rw [State.logged_boardNumberFixed, b, if_pos rfl, State.answered_dict, State.logged_dict]

/-- Settles O20, a lemma for each command. -/
theorem stallsAreFencedAndDetached : Obligations.StallsAreFencedAndDetached := by
  unfold Obligations.StallsAreFencedAndDetached
  exact ⟨⟨fun _ _ _ n h => fence_effect n h, fun _ _ p l => hostDead_effect p l, fun _ _ _ n h => detach_effect n h,
    fun _ _ p b => detachComplete_effect p b⟩, fun _ _ _ _ h => stallTableWrite_effect h,
    fun _ _ _ lt h => boardNumberWrite_effect lt h⟩

end Sys2Proof.Machine
end

section
/-! SUPPORT. References, coasting and recovery (19): what a reference's failure, its recovery and a measurement do. -/

namespace Sys2Proof.Machine

/-! ### FAULT_SEQ -/

theorem State.crier_faultSeq (s : State) (g : RegionNo) (c u d : Nat) (hs : List Nat) :
    (s.crier g c u d hs).repair.faultSeq = s.repair.faultSeq := by
  unfold State.crier
  dsimp only
  rw [(State.queueCopies_keeps (M := 4194312) rfl (Keeps.refl _ _)).1 .repair rfl]
  rfl

theorem State.hoist_faultSeq (s : State) (b c : Nat) : (s.hoist b c).repair.faultSeq = s.repair.faultSeq := by
  unfold State.hoist
  dsimp only
  split
  · rfl
  · rw [State.crier_faultSeq]
    rfl

/-- A logged fault takes one number of FAULT_SEQ (14 R302). -/
theorem State.fault_faultSeq (s : State) (g : RegionNo) (c u d a : Nat) :
    (s.fault g c u d a).repair.faultSeq = s.repair.faultSeq + 1 := by
  unfold State.fault
  dsimp only
  split
  · rw [State.hoist_faultSeq, State.crier_faultSeq]
  · rw [State.crier_faultSeq]

/-! ### Unfit to serve -/

/-- A PAIRED board that becomes unfit relinquishes (14 R299). -/
theorem State.unfit_phase {s : State} (reason : Nat) (h : s.pair.phase = .paired) :
    (s.unfit reason).pair.phase = .relinquishing := by
  unfold State.unfit State.relinquishCycle
  rw [h]
  unfold State.newRelinquish
  dsimp only
  rw [(State.sendRelinquish_keeps (M := 4194308) rfl (Keeps.refl _ _)).1 .pair rfl]

theorem State.unfit_repair (s : State) (reason : Nat) : (s.unfit reason).repair = s.repair :=
  (State.unfit_keeps (M := 4534340) rfl (Keeps.refl _ _)).1 .repair rfl

theorem State.unfit_clock (s : State) (reason : Nat) : (s.unfit reason).clock = s.clock :=
  (State.unfit_keeps (M := 4534340) rfl (Keeps.refl _ _)).1 .clock rfl

/-! ### The selected reference is lost (R383) -/

theorem State.refLost_clock (s : State) :
    s.refLost.clock = { s.clock with pll := .coasting, holdover := true, refFailed := true } := by
  unfold State.refLost
  dsimp only
  rw [State.unfit_clock, State.fault_at_clock]

theorem State.refLost_faultSeq (s : State) : s.refLost.repair.faultSeq = s.repair.faultSeq + 1 := by
  unfold State.refLost
  dsimp only
  rw [State.unfit_repair, State.fault_faultSeq]

theorem State.refLost_phase {s : State} (h : s.pair.phase = .paired) : s.refLost.pair.phase = .relinquishing := by
  unfold State.refLost
  exact State.unfit_phase _ (by rw [State.fault_at_pair]; exact h)

theorem State.refLost_reg (s : State) (k : Nat) : s.refLost.reg k = s.reg k := by
  unfold State.reg
  rw [(State.refLost_keeps (M := 21835852) rfl (Keeps.refl _ _)).1 .dict rfl]

/-! ### A reference's failed bit -/

theorem getLsbD_or_ofNat_two_pow {r : Nat} (hr : r < 2) (a : BitVec 2) :
    (a ||| BitVec.ofNat 2 (2 ^ r)).getLsbD r = true := by
  obtain rfl | rfl : r = 0 ∨ r = 1 := by omega
  all_goals simp

theorem getLsbD_or_ofNat_two_pow_other {r : Nat} (hr : r < 2) (a : BitVec 2) :
    (a ||| BitVec.ofNat 2 (2 ^ r)).getLsbD (1 - r) = a.getLsbD (1 - r) := by
  obtain rfl | rfl : r = 0 ∨ r = 1 := by omega
  all_goals simp

theorem getLsbD_and_not_ofNat_two_pow {r : Nat} (hr : r < 2) (a : BitVec 2) :
    (a &&& ~~~(BitVec.ofNat 2 (2 ^ r))).getLsbD r = false := by
  obtain rfl | rfl : r = 0 ∨ r = 1 := by omega
  all_goals simp

/-- The state with a reference's failed bit set (R383). -/
def State.refMarked (s : State) (r : Nat) : State :=
  { s with clock := { s.clock with failed := s.clock.failed ||| BitVec.ofNat 2 (2 ^ r) } }

/-- The state in which a reference is marked failed and a measurement against it has ended (R381, R383). -/
def State.refFailed (s : State) (r : Nat) : State := (s.refMarked r).freqLost r

/-- A failed reference ends a measurement against it with result 3, and leaves any other (R381). -/
theorem State.freqLost_of_run {s : State} {r : Nat} (h : s.clock.freqRun = some r) :
    s.freqLost r = ({ s with clock := { s.clock with freqRun := none } } : State).setReg kFreqResult 3 := by
  simp [State.freqLost, h]

theorem State.freqLost_of_other {s : State} {r : Nat} (h : s.clock.freqRun ≠ some r) : s.freqLost r = s := by
  unfold State.freqLost
  split
  · next n e => rw [if_neg fun q => h (by rw [e, q])]
  · rfl

/-- The failed bits, the PLL, the selected reference, the pair and bring-up after a reference is marked failed. -/
theorem State.refFailed_parts (s : State) (r : Nat) :
    (s.refFailed r).clock.failed = s.clock.failed ||| BitVec.ofNat 2 (2 ^ r) ∧
    (s.refFailed r).clock.pll = s.clock.pll ∧ (s.refFailed r).clock.inUse = s.clock.inUse ∧
    (s.refFailed r).pair = s.pair ∧ (s.refFailed r).repair = s.repair := by
  unfold State.refFailed
  by_cases h : (s.refMarked r).clock.freqRun = some r
  · rw [State.freqLost_of_run h]
    exact ⟨rfl, rfl, rfl, rfl, rfl⟩
  · rw [State.freqLost_of_other h]
    exact ⟨rfl, rfl, rfl, rfl, rfl⟩

theorem State.refFailed_freqRun {s : State} {r : Nat} (h : s.clock.freqRun = some r) :
    (s.refFailed r).clock.freqRun = none ∧ (s.refFailed r).reg kFreqResult = 3 := by
  have h' : (s.refMarked r).clock.freqRun = some r := h
  unfold State.refFailed
  rw [State.freqLost_of_run h']
  exact ⟨rfl, State.reg_setReg _ _ _⟩

theorem State.refFailed_refBad {s : State} {r : Nat} (hr : r < 2) :
    (s.refFailed r).refBad (1 - r) = s.refBad (1 - r) := by
  unfold State.refBad
  rw [(s.refFailed_parts r).1, getLsbD_or_ofNat_two_pow_other hr]

/-! ### REFCLK_FAIL by case (R383, 20 R402) -/

section
variable {s : State} {r : Nat} (hr : r < 2)
include hr

theorem execRefclkFail_standby (h : r ≠ s.clock.inUse) : execRefclkFail r s = .next (s.refFailed r) := by
  unfold execRefclkFail
  simp only [if_neg (Nat.not_le.2 hr), if_pos h]
  rfl

theorem execRefclkFail_late (h : r = s.clock.inUse) (b : s.boot.stage = .memory ∨ s.boot.stage = .ready) :
    execRefclkFail r s = .next (s.refFailed r).refLost := by
  have late : (s.boot.stage == .memory || s.boot.stage == .ready) = true := by simpa using b
  unfold execRefclkFail
  simp only [if_neg (Nat.not_le.2 hr), if_neg (not_not.2 h), late, if_true]
  rfl

theorem execRefclkFail_early (h : r = s.clock.inUse) (b : s.boot.stage ≠ .memory) (c : s.boot.stage ≠ .ready) :
    execRefclkFail r s = .next (if s.refBad (1 - r) then
        { s.refFailed r with boot := { (s.refFailed r).boot with noReference := true } }
      else { s.refFailed r with clock := { (s.refFailed r).clock with inUse := 1 - r } }) := by
  have late : (s.boot.stage == .memory || s.boot.stage == .ready) = false := by simp [b, c]
  rw [← State.refFailed_refBad hr]
  unfold execRefclkFail
  simp only [if_neg (Nat.not_le.2 hr), if_neg (not_not.2 h), late, Bool.false_eq_true, if_false]
  rfl

end

/-! ### REF_HOLDOFF_EXPIRY by case (R384) -/

/-- The state in which a reference is good again. -/
def State.refGood (s : State) (r : Nat) : State :=
  { s with clock := { s.clock with failed := s.clock.failed &&& ~~~(BitVec.ofNat 2 (2 ^ r)) } }

section
variable {s : State} {r : Nat} (hr : r < 2)
include hr

theorem execRefHoldoffExpiry_waiting (h : s.boot.noReference = true) :
    execRefHoldoffExpiry r s = .next { s.refGood r with
      clock := { (s.refGood r).clock with inUse := r }
      boot := { s.boot with noReference := false, step := if s.boot.step = .released then .fused else s.boot.step } } := by
  unfold execRefHoldoffExpiry
  simp only [if_neg (Nat.not_le.2 hr), h, if_true]
  rfl

theorem execRefHoldoffExpiry_recovers (h : s.boot.noReference = false) (m : s.mayRecover = true)
    (c : r ≠ s.clock.inUse ∨ s.clock.holdover = false) :
    execRefHoldoffExpiry r s = .next ((s.refGood r).recoverRef r) := by
  have go : ((s.refGood r).mayRecover && (r != s.clock.inUse || !s.clock.holdover)) = true := by
    rw [Bool.and_eq_true]
    exact ⟨m, by simpa using c⟩
  unfold execRefHoldoffExpiry
  simp only [if_neg (Nat.not_le.2 hr), h, Bool.false_eq_true, if_false]
  exact congrArg Host.Outcome.next (if_pos go)

theorem execRefHoldoffExpiry_stays (h : s.boot.noReference = false)
    (c : ¬(s.mayRecover = true ∧ (r ≠ s.clock.inUse ∨ s.clock.holdover = false))) :
    execRefHoldoffExpiry r s = .next (s.refGood r) := by
  have stay : ¬((s.refGood r).mayRecover && (r != s.clock.inUse || !s.clock.holdover)) = true := by
    rw [Bool.and_eq_true]
    exact fun q => c ⟨q.1, by simpa using q.2⟩
  unfold execRefHoldoffExpiry
  simp only [if_neg (Nat.not_le.2 hr), h, Bool.false_eq_true, if_false]
  exact congrArg Host.Outcome.next (if_neg stay)

end

/-! ### The ramp of the core domain (R377, R384) -/

/-- The clock but for the stretch counts, which every ramp advances. -/
def ClockSt.unstretched (c : ClockSt) : ClockSt := { c with stretch := [] }

theorem State.beginRamp_unstretched (s : State) (n : RegionNo) :
    (s.beginRamp n).clock.unstretched = s.clock.unstretched := rfl

theorem State.beginRamps_unstretched (l : List RegionNo) (s : State) :
    (l.foldl (fun a n => a.beginRamp n) s).clock.unstretched = s.clock.unstretched := by
  induction l generalizing s with
  | nil => rfl
  | cons n l ih => rw [List.foldl_cons, ih, State.beginRamp_unstretched]

/-- A ramp sets the core domain's target, and moves nothing else of the clock but the stretch counts. -/
theorem State.rampCore_unstretched (s : State) (d : Nat) :
    (s.rampCore d).clock.unstretched = { s.clock.unstretched with target := d } := by
  unfold State.rampCore
  rw [State.beginRamp_unstretched, State.beginRamps_unstretched]
  rfl

theorem State.rampCore_parts (s : State) (d : Nat) :
    (s.rampCore d).clock.pll = s.clock.pll ∧ (s.rampCore d).clock.source = s.clock.source ∧
    (s.rampCore d).clock.d = s.clock.d ∧ (s.rampCore d).clock.target = d := by
  have h := s.rampCore_unstretched d
  generalize (s.rampCore d).clock = c at h ⊢
  exact ⟨(congrArg ClockSt.pll h : c.unstretched.pll = _), (congrArg ClockSt.source h : c.unstretched.source = _),
    (congrArg ClockSt.d h : c.unstretched.d = _), (congrArg ClockSt.target h : c.unstretched.target = _)⟩

/-- The core PLL's lock: the core domain on it, with twice the divider, and a ramp to two fifths of it (R384). -/
theorem execCorePllLock_relocking {s : State} (h : s.clock.pll = .relocking) :
    execCorePllLock s = .next (({ s with clock := { s.clock with
      pll := .locked, source := .corePll, d := 2 * s.clock.d, target := 2 * s.clock.d } } : State).rampCore
        (2 * s.clock.d / 5)) := by
  unfold execCorePllLock
  rw [if_pos h]

/-! ### REF_SELECT and FREQ_GO by case (R382, R381) -/

theorem actRefSelectWrite_bad {s : State} {v : Nat} (h : s.refBad v = true) : actRefSelectWrite v s = (s, refuse 3) := by
  simp [actRefSelectWrite, h]

theorem actRefSelectWrite_good {s : State} {v : Nat} (h : s.refBad v = false) :
    actRefSelectWrite v s =
      (({ s with clock := { s.clock with inUse := v, holdover := false } } : State).setReg kRefSelect v, {}) := by
  simp [actRefSelectWrite, h]

theorem actFreqGo_running {s : State} {v : Nat} (h : s.clock.freqRun.isSome = true) :
    actFreqGo v s = (s.setReg kFreqResult 1, done 1) := by
  simp [actFreqGo, h]

theorem actFreqGo_failed {s : State} {v : Nat} (h : s.clock.freqRun = none) (b : s.refBad (s.reg kFreqRef) = true) :
    actFreqGo v s = (s.setReg kFreqResult 3, done 3) := by
  simp [actFreqGo, h, b]

theorem actFreqGo_starts {s : State} {v : Nat} (h : s.clock.freqRun = none) (b : s.refBad (s.reg kFreqRef) = false) :
    actFreqGo v s =
      (({ s with clock := { s.clock with freqRun := some (s.reg kFreqRef) } } : State).setReg kFreqResult 2, done 2) := by
  simp [actFreqGo, h, b]

@[simp] theorem State.logged_refBad (s : State) (f : Frame) (q : Ask) (a : Ans) (r : Nat) :
    (s.logged f q a).refBad r = s.refBad r := by
  unfold State.refBad
  rw [State.logged_clock]

/-! ### What each command does -/

theorem refSelectWrite_effect {s : State} {f : Frame} {v : Nat} (h : s.accepts f (askWrite kRefSelect 1 v)) :
    ∃ t, exec (.refSelectWrite f v) s = .next t ∧
      s.frame t [.dict, .links, .stalls, .xbar, .repair, .sec, .mgmt, .obs, .clock] ∧
      (s.refBad v = true → t.dict = s.dict ∧ t.clock = s.clock) ∧
      (s.refBad v = false → t.reg kRefSelect = v ∧ t.clock.inUse = v ∧ t.clock.holdover = false ∧
        t.clock.pll = s.clock.pll) := by
  refine ⟨_, rfl, (execRefSelectWrite_keeps (M := 24707086) rfl (Keeps.refl _ s)).frame rfl rfl, fun b => ?_, fun b => ?_⟩
  · rw [State.write_accepts _ h, actRefSelectWrite_bad (by simpa using b)]
    simp
  · rw [State.write_accepts _ h, actRefSelectWrite_good (by simpa using b)]
    simp

/-- A reference's failure, by the standby, the selected one from bring-up step 5 on, and the selected one before it. -/
theorem refclkFail_effect (s : State) {r : Nat} (hr : r < 2) :
    ∃ t, exec (.refclkFail r) s = .next t ∧
      s.frame t [.dict, .links, .stalls, .slices, .trees, .pushes, .xbar, .pair, .repair, .obs, .clock, .boot] ∧
      t.clock.failed.getLsbD r = true ∧ (s.clock.freqRun = some r → t.clock.freqRun = none ∧ t.reg kFreqResult = 3) ∧
      (r ≠ s.clock.inUse → t.clock.pll = s.clock.pll ∧ t.clock.inUse = s.clock.inUse) ∧
      (r = s.clock.inUse → s.boot.stage = .memory ∨ s.boot.stage = .ready → t.clock.pll = .coasting ∧ t.clock.holdover =
        true ∧
        t.clock.refFailed = true ∧ t.repair.faultSeq = s.repair.faultSeq + 1 ∧
        (s.pair.phase = .paired → t.pair.phase = .relinquishing)) ∧
      (r = s.clock.inUse → s.boot.stage ≠ .memory → s.boot.stage ≠ .ready →
        (s.refBad (1 - r) = true → t.boot.noReference = true) ∧ (s.refBad (1 - r) = false → t.clock.inUse = 1 - r)) := by
  have fr {t : State} (e : execRefclkFail r s = .next t) :=
    (execRefclkFail_keeps (M := 55390286) rfl (Keeps.refl _ s)).frame e (ps := [.dict, .links, .stalls, .slices, .trees,
      .pushes, .xbar, .pair, .repair, .obs, .clock, .boot]) rfl
  obtain ⟨failed, pll, inUse, pair, repair⟩ := s.refFailed_parts r
  have bit : (s.refFailed r).clock.failed.getLsbD r = true := by rw [failed, getLsbD_or_ofNat_two_pow hr]
  by_cases sel : r = s.clock.inUse
  · by_cases late : s.boot.stage = .memory ∨ s.boot.stage = .ready
    · have e := execRefclkFail_late hr sel late
      refine ⟨_, e, fr e, ?_, fun q => ?_, fun q => absurd sel q, fun _ _ => ?_, fun _ a b => absurd late (by simp [a, b])⟩
      · rw [State.refLost_clock, bit]
      · rw [State.refLost_clock, State.refLost_reg]
        exact State.refFailed_freqRun q
      · rw [State.refLost_clock, State.refLost_faultSeq, repair]
        exact ⟨rfl, rfl, rfl, rfl, fun p => State.refLost_phase (by rw [pair, p])⟩
    · obtain ⟨nm, nr⟩ := not_or.1 late
      have e := execRefclkFail_early hr sel nm nr
      cases bad : s.refBad (1 - r)
      all_goals simp only [bad, if_true, Bool.false_eq_true, if_false] at e
      · refine ⟨_, e, fr e, bit, State.refFailed_freqRun, fun q => absurd sel q, fun _ q => absurd q late, fun _ _ _ => ?_⟩
        exact ⟨fun q => Bool.noConfusion q, fun _ => rfl⟩
      · refine ⟨_, e, fr e, bit, State.refFailed_freqRun, fun q => absurd sel q, fun _ q => absurd q late, fun _ _ _ => ?_⟩
        exact ⟨fun _ => rfl, fun q => Bool.noConfusion q⟩
  · have e := execRefclkFail_standby hr sel
    exact ⟨_, e, fr e, bit, State.refFailed_freqRun, fun _ => ⟨pll, inUse⟩, fun q => absurd q sel, fun q => absurd q sel⟩

/-- A reference good again: it ends the wait for one, starts the recovery, or only has its bit cleared. -/
theorem refHoldoffExpiry_effect (s : State) {r : Nat} (hr : r < 2) :
    ∃ t, exec (.refHoldoffExpiry r) s = .next t ∧ s.frame t [.dict, .clock, .boot] ∧ t.clock.failed.getLsbD r = false ∧
      (s.boot.noReference = true → t.boot.noReference = false ∧ t.clock.inUse = r) ∧
      (s.boot.noReference = false → s.mayRecover = true → r ≠ s.clock.inUse ∨ s.clock.holdover = false →
        t.clock.pll = .relocking ∧ t.clock.source = .alwaysOn ∧ t.clock.inUse = r ∧ t.reg kRefSelect = r) ∧
      (s.boot.noReference = false → s.mayRecover = false → t.clock.pll = s.clock.pll ∧ t.clock.inUse = s.clock.inUse) := by
  have fr {t : State} (e : execRefHoldoffExpiry r s = .next t) :=
    (execRefHoldoffExpiry_keeps (M := 50331650) rfl (Keeps.refl _ s)).frame e (ps := [.dict, .clock, .boot]) rfl
  have bit : (s.refGood r).clock.failed.getLsbD r = false := getLsbD_and_not_ofNat_two_pow hr _
  cases wait : s.boot.noReference
  · by_cases go : s.mayRecover = true ∧ (r ≠ s.clock.inUse ∨ s.clock.holdover = false)
    · have e := execRefHoldoffExpiry_recovers hr wait go.1 go.2
      refine ⟨_, e, fr e, bit, fun q => Bool.noConfusion q, fun _ _ _ => ⟨rfl, rfl, rfl, State.reg_setReg _ _ _⟩, fun _ m => ?_⟩
      exact absurd go.1 (by simp [m])
    · have e := execRefHoldoffExpiry_stays hr wait go
      exact ⟨_, e, fr e, bit, fun q => Bool.noConfusion q, fun _ m c => absurd ⟨m, c⟩ go, fun _ _ => ⟨rfl, rfl⟩⟩
  · have e := execRefHoldoffExpiry_waiting hr wait
    exact ⟨_, e, fr e, bit, fun _ => ⟨rfl, rfl⟩, fun q => Bool.noConfusion q, fun q => Bool.noConfusion q⟩

theorem corePllLock_effect {s : State} (h : s.clock.pll = .relocking) :
    ∃ t, exec .corePllLock s = .next t ∧ s.frame t [.obs, .clock] ∧ t.clock.pll = .locked ∧ t.clock.source = .corePll ∧
      t.clock.d = 2 * s.clock.d ∧ t.clock.target = 2 * s.clock.d / 5 := by
  have e := execCorePllLock_relocking h
  obtain ⟨pll, source, d, target⟩ := State.rampCore_parts ({ s with clock := { s.clock with
    pll := .locked, source := .corePll, d := 2 * s.clock.d, target := 2 * s.clock.d } } : State) (2 * s.clock.d / 5)
  exact ⟨_, e, (execCorePllLock_keeps (M := 20971520) rfl (Keeps.refl _ s)).frame e rfl, pll, source, d, target⟩

theorem freqGo_effect {s : State} {f : Frame} {v : Nat} (h : s.accepts f (askWrite kFreqGo 1 v)) :
    ∃ t, exec (.freqGo f v) s = .next t ∧ s.frame t [.dict, .links, .stalls, .xbar, .repair, .sec, .mgmt, .obs, .clock] ∧
      (s.clock.freqRun.isSome = true → t.reg kFreqResult = 1 ∧ t.clock = s.clock) ∧
      (s.clock.freqRun = none → s.refBad (s.reg kFreqRef) = true → t.reg kFreqResult = 3 ∧ t.clock = s.clock) ∧
      (s.clock.freqRun = none → s.refBad (s.reg kFreqRef) = false → t.reg kFreqResult = 2 ∧
        t.clock.freqRun = some (s.reg kFreqRef)) := by
  refine ⟨_, rfl, (execFreqGo_keeps (M := 24707086) rfl (Keeps.refl _ s)).frame rfl rfl, fun a => ?_, fun a b => ?_,
    fun a b => ?_⟩
  · rw [State.write_accepts _ h, actFreqGo_running (by simpa using a)]
    simp
  · rw [State.write_accepts _ h, actFreqGo_failed (by simpa using a) (by simpa using b)]
    simp
  · rw [State.write_accepts _ h, actFreqGo_starts (by simpa using a) (by simpa using b)]
    simp

theorem freqMeasureDone_effect {s : State} (count : Nat) (h : s.clock.freqRun.isSome = true) :
    ∃ t, exec (.freqMeasureDone count) s = .next t ∧ s.frame t [.dict, .clock] ∧ t.clock.freqRun = none ∧
      t.reg kFreqCount = count % 2 ^ 64 ∧ t.reg kFreqResult = 0 := by
  have e : execFreqMeasureDone count s = .next ((({ s with clock := { s.clock with freqRun := none } } :
      State).setReg kFreqCount (count % 2 ^ 64)).setReg kFreqResult 0) := by
    unfold execFreqMeasureDone
    rw [if_pos h]
  refine ⟨_, e, (execFreqMeasureDone_keeps (M := 16777218) rfl (Keeps.refl _ s)).frame e rfl, rfl, ?_,
    State.reg_setReg _ _ _⟩
  rw [State.reg_setReg_other _ _ (by decide), State.reg_setReg]

theorem controlCoresReturn_effect {s : State} (i : s.power.inputOn = true) (d : s.power.dark = false) :
    ∃ t, exec .controlCoresReturn s = .next t ∧ s.frame t [.repair, .repairFace] ∧ t.repair.coresUp = true ∧
      t.repair.faultLog = s.repair.faultLog := by
  have e : execControlCoresReturn s = .next { s with repair := { s.repair with coresUp := true } } := by
    simp [execControlCoresReturn, i, d]
  exact ⟨_, e, (execControlCoresReturn_keeps (M := 2148007936) rfl (Keeps.refl _ s)).frame e rfl, rfl, rfl⟩

/-- Settles O58, a lemma for each command. -/
theorem clocksFollowTheirReference : Obligations.ClocksFollowTheirReference := by
  unfold Obligations.ClocksFollowTheirReference
  refine ⟨fun _ _ _ h => refSelectWrite_effect h, fun s _ hr => refclkFail_effect s hr,
    fun s _ hr => refHoldoffExpiry_effect s hr, fun _ h => corePllLock_effect h, fun _ _ _ h => freqGo_effect h,
    fun _ count h => freqMeasureDone_effect count h, fun s => ?_, fun _ i d => controlCoresReturn_effect i d⟩
  exact ⟨_, rfl, (execControlCoresHalt_keeps (M := 2148007936) rfl (Keeps.refl _ s)).frame rfl rfl, rfl, rfl⟩

end Sys2Proof.Machine
end

section
/-! SUPPORT. Acknowledgement, sequence and replay (02 R25 to R33): the transmit side of a link whose control block is heard, and
the receiver's numbers at each packet. -/

namespace Sys2Proof.Machine

/-! ### The transmit side after an acknowledgement -/

/-- Links whose faces are the same agree in every field but those of the transmit side. -/
theorem LinkSt.of_face {l m : LinkSt} {β : Type} (h : l.face = m.face) (g : LinkSt → β) (hg : ∀ x : LinkSt, g x.face = g x) :
    g l = g m := by rw [← hg, h, hg]

@[simp] theorem LinkSt.ackd_inSync (l : LinkSt) (a : BitVec 16) : (l.ackd a).inSync = l.inSync :=
  LinkSt.of_face (l.face_ackd a) LinkSt.inSync fun _ => rfl

@[simp] theorem LinkSt.ackd_rxNext (l : LinkSt) (a : BitVec 16) : (l.ackd a).rxNext = l.rxNext :=
  LinkSt.of_face (l.face_ackd a) LinkSt.rxNext fun _ => rfl

@[simp] theorem LinkSt.ackd_ctlOut (l : LinkSt) (a : BitVec 16) : (l.ackd a).ctlOut = l.ctlOut :=
  LinkSt.of_face (l.face_ackd a) LinkSt.ctlOut fun _ => rfl

/-- An acknowledgement that releases packets begins the count of expiries anew (R34). -/
theorem LinkSt.ackd_expiries (l : LinkSt) (a : BitVec 16) :
    (l.ackd a).expiries =
      (let k := (a - (l.txSeq - BitVec.ofNat 16 l.unacked.length)).toNat
       if 1 ≤ k ∧ k ≤ l.unacked.length then 0 else l.expiries) := by
  unfold LinkSt.ackd LinkSt.released
  dsimp only
  generalize (a - (l.txSeq - BitVec.ofNat 16 l.unacked.length)).toNat = k
  by_cases h : 1 ≤ k ∧ k ≤ l.unacked.length
  · rw [if_pos h, if_pos h, if_neg (by omega)]
  · rw [if_neg h, if_neg h, if_pos rfl]

/-- On a link that is up a control block applies its ACK, and restores sync where it names a header (R28). -/
theorem State.heard_up {s : State} {n : Nat} (c : Ctl) (up : (s.link n).isUp = true) :
    (s.heard n c).link n =
      { (s.link n).ackd c.ack with inSync := (s.link n).inSync || c.resync != 0xFFFF } := by
  unfold State.heard
  dsimp only
  rw [if_pos up]
  by_cases h : c.resync = 0xFFFF
  · rw [if_neg (not_not.2 h), State.applyAck_at_link, h, bne_self_eq_false, Bool.or_false,
      ← LinkSt.ackd_inSync _ c.ack]
  · rw [if_pos h, State.link_updLink, State.applyAck_at_link, bne_iff_ne.2 h, Bool.or_true]

/-- A control block of any type on a link that is up is heard before its type acts. -/
theorem State.control_up {s : State} {n : Nat} {ct : BitVec 8} {c : Ctl} (f : State → State) (hn : n < 48)
    (hc : ctlOk ct c = true) (up : (s.link n).isUp = true) : s.control n ct c f = f (s.heard n c) :=
  State.control_heard f hn hc (by rw [LinkSt.isUp_iff.1 up]; decide)

/-- Settles O6: what ACK_ONLY and ALIGN do is what every control block does when it is heard. -/
theorem acknowledgementReleasesPackets : Obligations.AcknowledgementReleasesPackets := by
  unfold Obligations.AcknowledgementReleasesPackets
  intro s n ctype c i hn up hi
  have e : exec i s = .next (s.heard n c) := by
    rcases hi with ⟨rfl, hc⟩ | ⟨rfl, hc⟩
    · exact congrArg Host.Outcome.next (State.control_up id hn hc up)
    · exact congrArg Host.Outcome.next (State.control_up id hn hc up)
  have h := State.heard_up c up
  refine ⟨_, e, ?_, ?_, s.heard_inSync n c, fun j hj => s.heard_other c hj, (s.heard_keeps n c).frame rfl⟩
  · rw [h]
    exact LinkSt.ackd_unacked _ _
  · rw [h]
    exact LinkSt.ackd_txSeq _ _

/-! ### The receiver at each packet (Table 2.6) -/

@[simp] theorem State.passUp_rxNext (s : State) (n : Nat) (p : RxPacket) (j : Nat) :
    ((s.passUp n p).link j).rxNext = (s.link j).rxNext :=
  LinkSt.of_face ((State.passUp_keeps (M := 3781031934) rfl (Keeps.refl _ s)).1 .linkFace rfl j) LinkSt.rxNext fun _ => rfl

@[simp] theorem State.applyAck_tallyOf (s : State) (n : Nat) (a : BitVec 16) (g : Group) (i r : Nat) :
    (s.applyAck n a).tallyOf g i r = s.tallyOf g i r := by
  unfold State.tallyOf
  rw [(State.applyAck_keeps (M := 68) rfl (Keeps.refl _ s)).1 .obs rfl]

section
variable {s : State} {n : Nat} {p : RxPacket} (up : (s.link n).isUp = true) (sync : (s.link n).inSync = true)
include up sync

theorem execLinkPacketReceive_badHeader (bad : (hdrOk p.hdr && decide (hdrUnits p.hdr ≤ 64)) = false) :
    execLinkPacketReceive n p s = .next ((s.updLink n fun l => { l with inSync := false }).count .link n 3) := by
  rw [Bool.and_eq_false_iff, decide_eq_false_iff_not, Nat.not_le] at bad
  unfold execLinkPacketReceive
  simp [up, sync, bad]

section
variable (good : (hdrOk p.hdr && decide (hdrUnits p.hdr ≤ 64)) = true)
include good

theorem execLinkPacketReceive_badPayload (bad : (packetCrcOk p && p.payload.length == hdrUnits p.hdr) = false) :
    execLinkPacketReceive n p s = .next (s.count .link n 2) := by
  obtain ⟨hcrc, units⟩ : hdrOk p.hdr = true ∧ hdrUnits p.hdr ≤ 64 := by simpa using good
  have bad' : (!packetCrcOk p || p.payload.length != hdrUnits p.hdr) = true := by rw [bne, ← Bool.not_and, bad, Bool.not_false]
  unfold execLinkPacketReceive
  simp [up, sync, hcrc, Nat.not_lt.2 units, bad']

section
variable (whole : (packetCrcOk p && p.payload.length == hdrUnits p.hdr) = true)
include whole

/-- A whole packet's ACK applies, and its distance from the expected number decides the rest. -/
theorem execLinkPacketReceive_whole :
    execLinkPacketReceive n p s = .next (
      if (hdrSeq p.hdr - (s.link n).rxNext).toNat = 0 then
        (((s.applyAck n (hdrAck p.hdr)).updLink n fun l => { l with rxNext := l.rxNext + 1 }).count .link n 0).passUp n p
      else if (hdrSeq p.hdr - (s.link n).rxNext).toNat < 32768 then (s.applyAck n (hdrAck p.hdr)).count .link n 4
      else ((s.applyAck n (hdrAck p.hdr)).count .link n 5).queueCtl n ctAckOnly 0) := by
  obtain ⟨hcrc, units⟩ : hdrOk p.hdr = true ∧ hdrUnits p.hdr ≤ 64 := by simpa using good
  have whole' : (!packetCrcOk p || p.payload.length != hdrUnits p.hdr) = false := by
    rw [bne, ← Bool.not_and, whole, Bool.not_true]
  unfold execLinkPacketReceive
  simp [up, sync, hcrc, Nat.not_lt.2 units, whole']

/-- The expected packet is accepted. -/
theorem linkPacketReceive_expected (d : (hdrSeq p.hdr - (s.link n).rxNext).toNat = 0) :
    ∃ t, exec (.linkPacketReceive n p) s = .next t ∧ (t.link n).rxNext = (s.link n).rxNext + 1 := by
  refine ⟨_, execLinkPacketReceive_whole up sync good whole, ?_⟩
  rw [if_pos d]
  simp

/-- One ahead of it is dropped. -/
theorem linkPacketReceive_ahead (d : (hdrSeq p.hdr - (s.link n).rxNext).toNat ≠ 0)
    (a : (hdrSeq p.hdr - (s.link n).rxNext).toNat < 32768) :
    ∃ t, exec (.linkPacketReceive n p) s = .next t ∧ (t.link n).rxNext = (s.link n).rxNext ∧
      t.tallyOf .link n 4 = s.tallyOf .link n 4 + 1 ∧ s.frame t [.links, .linkFace, .slices, .obs] := by
  refine ⟨_, execLinkPacketReceive_whole up sync good whole, ?_⟩
  rw [if_neg d, if_pos a]
  refine ⟨by simp, by simp, Keeps.frame (m := 272629828) ?_ rfl⟩
  exact State.count_keeps rfl (State.applyAck_keeps rfl (Keeps.refl _ s))

/-- One behind it is a duplicate, and the current ACK goes out again. -/
theorem linkPacketReceive_behind (d : (hdrSeq p.hdr - (s.link n).rxNext).toNat ≠ 0)
    (b : ¬(hdrSeq p.hdr - (s.link n).rxNext).toNat < 32768) :
    ∃ t, exec (.linkPacketReceive n p) s = .next t ∧ (t.link n).rxNext = (s.link n).rxNext ∧
      t.tallyOf .link n 5 = s.tallyOf .link n 5 + 1 ∧
      (t.link n).ctlOut = (s.link n).ctlOut ++ [{ ctype := 1, body := 0 }] ∧
      s.frame t [.links, .linkFace, .slices, .obs] := by
  refine ⟨_, execLinkPacketReceive_whole up sync good whole, ?_⟩
  rw [if_neg d, if_neg b]
  refine ⟨by simp [State.queueCtl], by simp [State.queueCtl], by simp [State.queueCtl, ctAckOnly],
    Keeps.frame (m := 272629828) ?_ rfl⟩
  exact State.queueCtl_keeps rfl (State.count_keeps rfl (State.applyAck_keeps rfl (Keeps.refl _ s)))

end

end

end

/-- On an expiry short of the limit every packet that waits is sent again (R33). -/
theorem ackTimeoutExpiry_replays {s : State} {n : Nat} (up : (s.link n).isUp = true) (timer : (s.link n).timerOn = true)
    (waits : 0 < (s.link n).unacked.length) (short : (s.link n).expiries + 1 < s.reg kReplayLimit) (ram : s.sramOk) :
    execAckTimeoutExpiry n s = .next (((s.updLink n fun l => { l with
      unacked := l.unacked.map fun p => { p with replay := true }
      expiries := l.expiries + 1
      ackSent := l.rxNext
      waitBytes := l.waitBytes + l.occupancy }).count .link n 6 (s.link n).unacked.length).count .link n 1
        (s.link n).unacked.length) := by
  unfold execAckTimeoutExpiry
  simp only [up, timer, waits, State.readReplay_ok ram, decide_true, Bool.and_self, Bool.not_true, Bool.false_eq_true, if_false,
    if_neg (Nat.not_le.2 short)]

/-- Settles O10, a lemma for each row of Table 2.6. -/
theorem packetsAreTakenInSequence : Obligations.PacketsAreTakenInSequence := by
  unfold Obligations.PacketsAreTakenInSequence
  refine ⟨fun s n p up sync => ?_, fun s n up timer waits short ram => ?_⟩
  · intro good whole d
    cases hg : good
    · refine ⟨_, execLinkPacketReceive_badHeader up sync hg, by simp, nofun, nofun,
        fun _ => Keeps.frame (m := 272629828) ?_ rfl⟩
      exact State.count_keeps rfl (State.updLink_keeps rfl (Or.inl rfl) (Keeps.refl _ s))
    cases hw : whole
    · refine ⟨_, execLinkPacketReceive_badPayload up sync hg hw, nofun, by simp, nofun,
        fun _ => Keeps.frame (m := 272629828) ?_ rfl⟩
      exact State.count_keeps rfl (Keeps.refl _ s)
    by_cases hd : d = 0
    · obtain ⟨t, e, next⟩ := linkPacketReceive_expected up sync hg hw hd
      refine ⟨t, e, nofun, nofun, fun _ _ => ⟨fun _ => next, fun a => absurd hd a.ne', fun a => ?_⟩, fun a => ?_⟩
      · omega
      · simp [hd] at a
    by_cases ha : d < 32768
    · obtain ⟨t, e, next, tally, fr⟩ := linkPacketReceive_ahead up sync hg hw hd ha
      exact ⟨t, e, nofun, nofun,
        fun _ _ => ⟨fun a => absurd a hd, fun _ _ => ⟨next, tally⟩, fun a => absurd ha (Nat.not_lt.2 a)⟩, fun _ => fr⟩
    · obtain ⟨t, e, next, tally, out, fr⟩ := linkPacketReceive_behind up sync hg hw hd ha
      exact ⟨t, e, nofun, nofun, fun _ _ => ⟨fun a => absurd a hd, fun _ a => absurd a ha, fun _ => ⟨next, tally, out⟩⟩,
        fun _ => fr⟩
  · refine ⟨_, ackTimeoutExpiry_replays up timer waits short ram, by simp, by simp, by simp, fun j hj => ?_,
      Keeps.frame (m := 4194308) ?_ rfl⟩
    · simp [State.link_updLink_other _ _ hj]
    · exact State.count_keeps rfl (State.count_keeps rfl (State.updLink_keeps rfl (Or.inr fun _ => rfl) (Keeps.refl _ s)))

end Sys2Proof.Machine
end

section
/-! SUPPORT. Links that go down (02 R34, R48 to R50): the state at each step of a link-down, and what the steps after the first
leave of the links and of LAST_DOWN_REASON. -/

namespace Sys2Proof.Machine

/-! ### One link falls -/

/-- The link has gone down FLAP_LIMIT times within 1 s, now among them (R50). -/
def State.flaps (s : State) (n : Nat) : Bool :=
  decide (s.reg kFlapLimit ≤
    ((s.time.ticks :: (s.link n).downTimes).filter fun d => decide (s.time.ticks < d + 1000000000)).length)

/-- A link just fallen: disabled, held for flapping, or to train again (R48, R50). -/
def State.fallenLink (s : State) (n reason : Nat) : LinkSt :=
  (s.link n).downed (if reason = 4 then .disabled else if s.flaps n then .held else .training)
    (if s.flaps n then .flap else .none) (!s.flaps n && reason != 4) reason s.time.ticks

/-- The state with a link just fallen, and why. -/
def State.fallen (s : State) (n reason : Nat) : State :=
  (s.updLink n fun _ => s.fallenLink n reason).setReg (kLastDownReason n) reason

@[simp] theorem State.fallen_link_same (s : State) (n reason : Nat) : (s.fallen n reason).link n = s.fallenLink n reason :=
  State.link_updLink s n fun _ => s.fallenLink n reason

theorem State.fallen_link_other (s : State) {j n : Nat} (reason : Nat) (h : j ≠ n) : (s.fallen n reason).link j = s.link j :=
  State.link_updLink_other s (fun _ => s.fallenLink n reason) h

/-- Besides, a falling link only counts, raises an event and leaves LINK_SETs. -/
theorem State.linkFalls_keeps_fallen (s : State) (n reason partner : Nat) :
    Keeps 541589512 (s.fallen n reason) (s.linkFalls n reason partner) := by
  have told : Keeps 541589512 (s.fallen n reason)
      (((s.fallen n reason).count .link n 9).crier 8 0x02 n (reason + partner % 256 * 2 ^ 8)) :=
    State.crier_keeps rfl (State.count_keeps rfl (Keeps.refl _ _))
  have e : s.linkFalls n reason partner =
      (let s3 := ((s.fallen n reason).count .link n 9).crier 8 0x02 n (reason + partner % 256 * 2 ^ 8)
       if (s.link n).kind = 0 then (s.stallsOn n).foldl (fun a st => a.setLinkBit st n false) s3 else s3) := rfl
  rw [e]
  dsimp only
  split
  · exact Keeps.foldl (fun a st => State.setLinkBit_keeps rfl (Keeps.refl _ a)) _ told
  · exact told

theorem State.linkFalls_link (s : State) (n reason partner j : Nat) :
    (s.linkFalls n reason partner).link j = (s.fallen n reason).link j := by
  unfold State.link
  rw [(s.linkFalls_keeps_fallen n reason partner).1 .links rfl]

theorem State.linkFalls_reg (s : State) (n reason partner k : Nat) :
    (s.linkFalls n reason partner).reg k = if k = kLastDownReason n then reason else s.reg k := by
  have h : (s.linkFalls n reason partner).reg k = (s.setReg (kLastDownReason n) reason).reg k := by
    unfold State.reg
    rw [(s.linkFalls_keeps_fallen n reason partner).1 .dict rfl]
    rfl
  rw [h]
  split
  · next q => rw [q, State.reg_setReg]
  · next q => exact State.reg_setReg_other _ _ q

/-! ### The steps of a link-down, one after the other -/

/-- The links that are up fall, one by one. -/
def State.fallAll (s : State) (up : List Nat) (reason partner : Nat) : State :=
  up.foldl (fun a n => a.linkFalls n reason partner) s

/-- A LINK fault for each (14 R302). -/
def State.faultAll (s : State) (up : List Nat) (reason : Nat) : State :=
  up.foldl (fun a n => a.fault 8 0x02 n reason actContained) s

/-- A move-out on one of them stops (13 R290). -/
def State.stopMoveOn (s : State) (up : List Nat) : State :=
  match s.pair.moveOut with
  | some m => if up.contains m.link then s.endMoveOut 3 else s
  | none => s

/-- With the last halyard link the partner may be gone (13 R279). -/
def State.loseHalyard (s : State) (up : List Nat) (now : Nat) : State :=
  if up.any (fun n => s.halyardLinks.contains n) && s.liveHalyard.isEmpty then
    ({ s with pair := { s.pair with halDownSince := now } } : State).partnerGone
  else s

theorem State.linksDown_eq (s : State) (links : List Nat) (reason partner : Nat) :
    s.linksDown links reason partner =
      (let up := links.filter fun n => (s.link n).isUp
       (((((s.fallAll up reason partner).recomputeAll (up.flatMap s.stallsOn).eraseDups).returnPackets
          (up.flatMap fun n => (s.link n).unacked)).faultAll up reason).stopMoveOn up).loseHalyard up s.time.ticks) := rfl

theorem State.stopMoveOn_keeps (s : State) (up : List Nat) : Keeps 4980746 s (s.stopMoveOn up) := by
  unfold State.stopMoveOn
  split
  · split
    · exact State.endMoveOut_keeps rfl (Keeps.refl _ s)
    · exact Keeps.refl _ s
  · exact Keeps.refl _ s

theorem State.endMoveOut_reg (s : State) (result : Nat) {k : Nat} (h : k ≠ kMoveOutResult) (h' : k ≠ kMoveOutDone) :
    (s.endMoveOut result).reg k = s.reg k := by
  unfold State.endMoveOut
  split
  · rfl
  · dsimp only
    rw [State.crier_at_reg, State.reg_setReg_other _ _ h', State.reg_setReg_other _ _ h]
    rfl

theorem State.stopMoveOn_reg (s : State) (up : List Nat) {k : Nat} (h : k ≠ kMoveOutResult) (h' : k ≠ kMoveOutDone) :
    (s.stopMoveOn up).reg k = s.reg k := by
  unfold State.stopMoveOn
  split
  · split
    · exact s.endMoveOut_reg 3 h h'
    · rfl
  · rfl

theorem State.loseHalyard_keeps (s : State) (up : List Nat) (now : Nat) : Keeps 4456452 s (s.loseHalyard up now) := by
  unfold State.loseHalyard
  split
  · exact State.partnerGone_keeps rfl ((Keeps.refl _ s).setPair _ rfl)
  · exact Keeps.refl _ s

/-- After the links have fallen, a link-down sends packets, raises faults, and may end a move and the pair's hold of its
partner. -/
theorem State.linksDown_keeps_fallAll (s : State) (links : List Nat) (reason partner : Nat) :
    Keeps 541925486 (s.fallAll (links.filter fun n => (s.link n).isUp) reason partner) (s.linksDown links reason partner) := by
  rw [State.linksDown_eq]
  dsimp only
  refine Keeps.then (Keeps.then (Keeps.foldl (fun a n => ?_) _ ?_) (State.stopMoveOn_keeps _ _) rfl)
    (State.loseHalyard_keeps _ _ _) rfl
  · exact State.fault_keeps rfl (Keeps.refl _ a)
  · exact State.returnPackets_keeps rfl (State.recomputeAll_keeps rfl (Keeps.refl _ _))

theorem State.linksDown_face (s : State) (links : List Nat) (reason partner j : Nat) :
    ((s.linksDown links reason partner).link j).face =
      ((s.fallAll (links.filter fun n => (s.link n).isUp) reason partner).link j).face :=
  (s.linksDown_keeps_fallAll links reason partner).1 .linkFace rfl j

theorem State.linksDown_reg (s : State) (links : List Nat) (reason partner : Nat) {k : Nat} (h : k ≠ kMoveOutResult)
    (h' : k ≠ kMoveOutDone) :
    (s.linksDown links reason partner).reg k =
      (s.fallAll (links.filter fun n => (s.link n).isUp) reason partner).reg k := by
  have lost (t : State) (up : List Nat) (now : Nat) : (t.loseHalyard up now).reg k = t.reg k := by
    unfold State.reg
    rw [(t.loseHalyard_keeps up now).1 .dict rfl]
  have told (t : State) (stalls : List Nat) (ps : List TxPkt) (up : List Nat) :
      (((t.recomputeAll stalls).returnPackets ps).faultAll up reason).reg k = t.reg k := by
    unfold State.reg
    have kept : Keeps 541925484 t (((t.recomputeAll stalls).returnPackets ps).faultAll up reason) := by
      refine Keeps.foldl (fun a n => ?_) _ ?_
      · exact State.fault_keeps rfl (Keeps.refl _ a)
      · exact State.returnPackets_keeps rfl (State.recomputeAll_keeps rfl (Keeps.refl _ _))
    rw [kept.1 .dict rfl]
  rw [State.linksDown_eq]
  dsimp only
  rw [lost, State.stopMoveOn_reg _ _ h h', told]

theorem State.fallAll_link_other (s : State) {up : List Nat} (reason partner : Nat) {j : Nat} (h : j ∉ up) :
    (s.fallAll up reason partner).link j = s.link j := by
  unfold State.fallAll
  refine List.foldlRecOn up _ (motive := fun a : State => a.link j = s.link j) rfl fun a ih n m => ?_
  rw [State.linkFalls_link, State.fallen_link_other a reason fun q : j = n => h (q ▸ m), ih]

theorem State.fallAll_reg_other (s : State) {up : List Nat} (reason partner : Nat) {k : Nat}
    (h : ∀ n ∈ up, k ≠ kLastDownReason n) : (s.fallAll up reason partner).reg k = s.reg k := by
  unfold State.fallAll
  refine List.foldlRecOn up _ (motive := fun a : State => a.reg k = s.reg k) rfl fun a ih n m => ?_
  rw [State.linkFalls_reg, if_neg (h n m), ih]

/-- A link that is not among those that go down keeps its face. -/
theorem State.linksDown_face_other (s : State) {links : List Nat} (reason partner : Nat) {j : Nat} (h : j ∉ links) :
    ((s.linksDown links reason partner).link j).face = (s.link j).face := by
  rw [State.linksDown_face, State.fallAll_link_other _ _ _ fun q => h (List.mem_of_mem_filter q)]

/-! ### One link goes down (R48 to R50) -/

/-- Link `n` of `s` has gone down in `t`: its phase, its numbers and its partner's capabilities, and the reason recorded. -/
def State.wentDown (s t : State) (n reason : Nat) : Prop :=
  (t.link n).phase = (if s.reg kFlapLimit ≤
    (((s.time.ticks :: (s.link n).downTimes).filter fun d => decide (s.time.ticks < d + 1000000000)).length)
    then .held else .training) ∧
  (t.link n).rxNext = 0 ∧ (t.link n).mask = 0 ∧ (t.link n).caps = 0 ∧ (t.link n).version = 0 ∧
    (t.link n).change = none ∧
  t.reg (kLastDownReason n) = reason ∧
  (∀ j, j ≠ n → (t.link j).face = (s.link j).face)

section
variable {s : State} {n : Nat} (up : (s.link n).isUp = true)
include up

theorem State.fallAll_up (reason partner : Nat) :
    s.fallAll ([n].filter fun n => (s.link n).isUp) reason partner = s.linkFalls n reason partner := by
  unfold State.fallAll
  simp [up]

theorem State.linkDown_face (reason partner : Nat) :
    ((s.linkDown n reason partner).link n).face = (s.fallenLink n reason).face := by
  unfold State.linkDown
  rw [State.linksDown_face, State.fallAll_up up, State.linkFalls_link, State.fallen_link_same]

theorem State.linkDown_lastReason (reason partner : Nat) (hn : n < 48) :
    (s.linkDown n reason partner).reg (kLastDownReason n) = reason := by
  unfold State.linkDown
  rw [State.linksDown_reg, State.fallAll_up up, State.linkFalls_reg, if_pos rfl]
  all_goals
    unfold kLastDownReason
    simp only [kMoveOutResult, kMoveOutDone]
    omega

theorem State.linkDown_isUp (reason partner : Nat) : ((s.linkDown n reason partner).link n).isUp = false := by
  rw [LinkSt.of_face (State.linkDown_face up reason partner) LinkSt.isUp fun _ => rfl]
  unfold State.fallenLink LinkSt.downed LinkSt.isUp
  dsimp only
  split_ifs <;> rfl

/-- A link-down for any reason but DISABLED. -/
theorem State.linkDown_wentDown {reason : Nat} (hr : reason ≠ 4) (partner : Nat) (hn : n < 48) :
    s.wentDown (s.linkDown n reason partner) n reason := by
  have h := State.linkDown_face up reason partner
  have phase : (s.fallenLink n reason).phase = if s.flaps n then .held else .training := if_neg hr
  simp only [State.flaps, decide_eq_true_eq] at phase
  refine ⟨(LinkSt.of_face h LinkSt.phase fun _ => rfl).trans phase, LinkSt.of_face h LinkSt.rxNext fun _ => rfl,
    LinkSt.of_face h LinkSt.mask fun _ => rfl, LinkSt.of_face h LinkSt.caps fun _ => rfl,
    LinkSt.of_face h LinkSt.version fun _ => rfl, LinkSt.of_face h LinkSt.change fun _ => rfl,
    State.linkDown_lastReason up reason partner hn, fun j hj => ?_⟩
  exact s.linksDown_face_other reason partner (by simpa using hj)

end

/-- What a link-down reads of a state is as it was before its control block was heard. -/
theorem State.wentDown_of_heard {s t : State} {n reason : Nat} (c : Ctl) (h : (s.heard n c).wentDown t n reason) :
    s.wentDown t n reason := by
  obtain ⟨phase, rxNext, mask, caps, version, change, why, others⟩ := h
  simp only [State.heard_reg, State.heard_at_time, State.heard_downTimes] at phase
  exact ⟨phase, rxNext, mask, caps, version, change, why, fun j hj => by rw [others j hj, s.heard_other c hj]⟩

end Sys2Proof.Machine
end

section
/-! SUPPORT. Replay runs out (02 R34, 06 Table 6.1): expiries up to REPLAY_LIMIT, and packets that cannot be read again. -/

namespace Sys2Proof.Machine

/-- A link without the packets of its replay buffer. -/
def LinkSt.unloaded (l : LinkSt) : LinkSt := { l with unacked := [] }

/-- Reading the replay buffer may lose packets of it, and nothing else of a link. -/
theorem State.readReplay_unloaded (s : State) (n j : Nat) :
    ((s.readReplay n).1.link j).unloaded = (s.link j).unloaded := by
  unfold State.readReplay
  refine List.foldlRecOn _ _ (motive := fun a : State × Bool => (a.1.link j).unloaded = (s.link j).unloaded) rfl
    fun a ih p _ => ?_
  have read (q : TxPkt) : (a.1.sramRead 0x0A n q.seq.toNat 0 0).1.link j = a.1.link j := by
    unfold State.link
    rw [(State.sramRead_keeps (M := 4718664) rfl (Keeps.refl _ a.1)).1 .links rfl]
  dsimp only
  split
  · rw [State.link_updLink_if, ← ih, ← read p]
    split
    · next q => rw [q]; rfl
    · rfl
  · rw [read p, ih]

theorem State.readReplay_isUp (s : State) (n : Nat) : ((s.readReplay n).1.link n).isUp = (s.link n).isUp :=
  (congrArg LinkSt.isUp (s.readReplay_unloaded n n) : ((s.readReplay n).1.link n).unloaded.isUp = (s.link n).unloaded.isUp)

theorem State.readReplay_expiries (s : State) (n : Nat) : ((s.readReplay n).1.link n).expiries = (s.link n).expiries :=
  (congrArg LinkSt.expiries (s.readReplay_unloaded n n) :
    ((s.readReplay n).1.link n).unloaded.expiries = (s.link n).unloaded.expiries)

section
variable {s : State} {n : Nat} (up : (s.link n).isUp = true) (timer : (s.link n).timerOn = true)
include up timer

/-- An expiry counts while the limit is reached with it, or every packet that waits can be read. -/
theorem ackTimeoutExpiry_counts (waits : (s.link n).unacked ≠ [])
    (h : s.reg kReplayLimit ≤ (s.link n).expiries + 1 ∨ (s.readReplay n).2 = false) :
    ∃ t, exec (.ackTimeoutExpiry n) s = .next t ∧ (t.link n).expiries = (s.link n).expiries + 1 ∧ (t.link n).isUp = true := by
  have any : decide (0 < (s.link n).unacked.length) = true := decide_eq_true (List.length_pos_iff.2 waits)
  refine ⟨_, rfl, ?_⟩
  simp only [up, timer, any, Bool.and_self, Bool.not_true, Bool.false_eq_true, if_false]
  split
  · rw [State.link_updLink]
    exact ⟨rfl, up⟩
  · next short =>
    rw [h.resolve_left short, if_neg Bool.false_ne_true, State.count_at_link, State.count_at_link, State.link_updLink]
    exact ⟨congrArg (· + 1) (s.readReplay_expiries n), (s.readReplay_isUp n).trans up⟩

/-- A packet that cannot be read takes the link down. -/
theorem ackTimeoutExpiry_unreadable (hn : n < 48) (waits : (s.link n).unacked ≠ [])
    (short : (s.link n).expiries + 1 < s.reg kReplayLimit) (lost : (s.readReplay n).2 = true) :
    ∃ t, exec (.ackTimeoutExpiry n) s = .next t ∧ (t.link n).isUp = false ∧ t.reg (kLastDownReason n) = 3 := by
  have any : decide (0 < (s.link n).unacked.length) = true := decide_eq_true (List.length_pos_iff.2 waits)
  have up' := (s.readReplay_isUp n).trans up
  refine ⟨_, rfl, ?_⟩
  simp only [up, timer, any, Bool.and_self, Bool.not_true, Bool.false_eq_true, if_false, if_neg (Nat.not_le.2 short), lost, if_true]
  exact ⟨State.linkDown_isUp up' 3 0, State.linkDown_lastReason up' 3 0 hn⟩

theorem execReplayLimitReached_reached (limit : s.reg kReplayLimit ≤ (s.link n).expiries) :
    execReplayLimitReached n s = .next (s.linkDown n 3 0) := by
  unfold execReplayLimitReached
  simp only [up, timer, limit, decide_true, Bool.and_self, if_true]

end

theorem execReplayLimitReached_short {s : State} {n : Nat} (h : (s.link n).expiries < s.reg kReplayLimit) :
    execReplayLimitReached n s = .next s := by
  unfold execReplayLimitReached
  simp [Nat.not_le.2 h]

/-- Settles O7, a lemma for each clause. -/
theorem replayLimitTakesTheLinkDown : Obligations.ReplayLimitTakesTheLinkDown := by
  unfold Obligations.ReplayLimitTakesTheLinkDown
  refine ⟨rfl, fun s n _ up timer waits h => ackTimeoutExpiry_counts up timer waits h,
    fun s n hn up timer waits short lost => ackTimeoutExpiry_unreadable up timer hn waits short lost,
    fun s n ctype c hn up hc => ⟨_, congrArg Host.Outcome.next (State.control_up id hn hc up), ?_⟩,
    fun s n hn up timer limit => ⟨_, execReplayLimitReached_reached up timer limit, State.linkDown_isUp up 3 0,
      State.linkDown_lastReason up 3 0 hn⟩,
    fun s n h => execReplayLimitReached_short h⟩
  exact (congrArg LinkSt.expiries (State.heard_up c up)).trans (LinkSt.ackd_expiries _ _)

end Sys2Proof.Machine
end

section
/-! SUPPORT. When links train, come up and go down (02 R38, R48 to R51): the steps of a link-up, the writes of LINK_ENABLE and
LINK_VERSIONS_ALLOWED, and every way down. -/

namespace Sys2Proof.Machine

/-! ### A link comes up (R38 step 6) -/

/-- A link that is up, its numbers at 0. -/
def LinkSt.raised (l : LinkSt) (park : Option (BitVec 4)) : LinkSt := { l with
  parkWant := park
  phase := .up, txSeq := 0, rxNext := 0, ackSent := 0, unacked := [], timerOn := false, expiries := 0
  inSync := true, waitBytes := 0, hold := .none, retrain := false }

/-- The state in which a link is up, before its stall and its partner take notice. -/
def State.raised (s : State) (n : Nat) : State := s.updLink n fun l => l.raised (s.parkStored n)

/-- A host's link enters its stall's LINK_SET, or an unknown host is seen (04 R70, R72). -/
def State.enterStall (s : State) (n : Nat) (l : LinkSt) : State :=
  if l.kind = 0 then
    match s.stallOfHost l.partner with
    | none => s.crier 8 0x03 n l.partner
    | some st => s.setLinkBit st n true
  else s

/-- The stalls of a link that has come up take up their work again (R66, R67). -/
def State.resumeOn (s : State) (n : Nat) : State :=
  ((s.recomputeAll (s.stallsOn n)).sendHeldOf (s.stallsOn n)).sendWaiting (s.stallsOn n)

theorem State.linkComesUp_eq {s : State} {n : Nat} (h : s.halyardLinks.contains n = false) :
    s.linkComesUp n =
      (let t := (((s.raised n).crier 8 0x01 n ((s.raised n).link n).statusWord).enterStall n (s.link n)).resumeOn n
       if t.halyardLinks.contains n then t.halFlush else t) := by
  unfold State.linkComesUp
  simp only [h, Bool.false_and, Bool.false_eq_true, if_false]
  rfl

theorem State.enterStall_keeps (s : State) (n : Nat) (l : LinkSt) : Keeps 541589512 s (s.enterStall n l) := by
  unfold State.enterStall
  split
  · split
    · exact State.crier_keeps rfl (Keeps.refl _ s)
    · exact State.setLinkBit_keeps rfl (Keeps.refl _ s)
  · exact Keeps.refl _ s

theorem State.resumeOn_keeps (s : State) (n : Nat) : Keeps 541663340 s (s.resumeOn n) :=
  State.sendWaiting_keeps rfl (State.sendHeldOf_keeps rfl (State.recomputeAll_keeps rfl (Keeps.refl _ s)))

/-- A link that is not of the halyard comes up without the halyard's stream. -/
theorem State.linkComesUp_keeps_raised {s : State} {n : Nat} (h : s.halyardLinks.contains n = false) :
    Keeps 541663340 (s.raised n) (s.linkComesUp n) := by
  rw [State.linkComesUp_eq h]
  dsimp only
  have k : Keeps 541663340 (s.raised n)
      ((((s.raised n).crier 8 0x01 n ((s.raised n).link n).statusWord).enterStall n (s.link n)).resumeOn n) :=
    Keeps.then (Keeps.then (State.crier_keeps rfl (Keeps.refl _ _)) (State.enterStall_keeps _ n _) rfl)
      (State.resumeOn_keeps _ n) rfl
  generalize (((s.raised n).crier 8 0x01 n ((s.raised n).link n).statusWord).enterStall n (s.link n)).resumeOn n = t at k ⊢
  have same : t.halyardLinks = s.halyardLinks := by
    unfold State.halyardLinks
    rw [k.1 .pair rfl]
    rfl
  rw [same, h, if_neg Bool.false_ne_true]
  exact k

theorem linkUp_effect {s : State} {n : Nat} (hn : n < 48) (training : (s.link n).phase = .training)
    (begun : (s.link n).retrain = false) (sent : (s.link n).seenSent = true) (recv : (s.link n).seenRecv = true)
    (version : (s.link n).version ≠ 0) (mask : (s.link n).mask ≠ 0) (plain : s.halyardLinks.contains n = false) :
    ∃ t, exec (.linkUp n) s = .next t ∧ (t.link n).phase = .up ∧ (t.link n).rxNext = 0 ∧
      (t.link n).version = (s.link n).version ∧ (t.link n).mask = (s.link n).mask ∧
      (∀ j, j ≠ n → (t.link j).face = (s.link j).face) ∧
      s.frame t [.links, .linkFace, .stalls, .stallFace, .pitch, .slices, .pushes, .xbar, .repair, .obs] := by
  have e : execLinkUp n s = .next (s.linkComesUp n) :=
    congrArg Host.Outcome.next (if_pos ⟨hn, training, begun, sent, recv, version, mask⟩)
  have k := State.linkComesUp_keeps_raised plain
  have face := k.1 .linkFace rfl
  have reads {β : Type} (g : LinkSt → β) (hg : ∀ x : LinkSt, g x.face = g x) :
      g ((s.linkComesUp n).link n) = g ((s.link n).raised (s.parkStored n)) :=
    (LinkSt.of_face (face n) g hg).trans (congrArg g (State.link_updLink s n fun l => l.raised (s.parkStored n)))
  refine ⟨_, e, reads LinkSt.phase fun _ => rfl, reads LinkSt.rxNext fun _ => rfl, reads LinkSt.version fun _ => rfl,
    reads LinkSt.mask fun _ => rfl, fun j hj => ?_, Keeps.frame (m := 810098796) ?_ rfl⟩
  · exact (face j).trans (congrArg LinkSt.face (State.link_updLink_other s _ hj))
  · exact Keeps.then (State.updLink_keeps rfl (Or.inl rfl) (Keeps.refl _ s)) k rfl

/-! ### Training begins (R38 step 1) -/

/-- A link in training from step 1, with the versions that are allowed now. -/
theorem State.startTraining_link {s : State} (n : Nat) (alive : s.repair.hostPortDead = false) :
    ((s.startTraining n).link n).phase = .training ∧ ((s.startTraining n).link n).retrain = false ∧
    ((s.startTraining n).link n).version = 0 ∧
    ((s.startTraining n).link n).allowedAtTrain = BitVec.ofNat 32 (s.reg (kLinkVersionsAllowed n)) := by
  unfold State.startTraining
  rw [alive, Bool.false_and, if_neg Bool.false_ne_true, State.link_updLink]
  exact ⟨rfl, rfl, rfl, rfl⟩

theorem State.startTraining_link_other (s : State) {j n : Nat} (h : j ≠ n) : (s.startTraining n).link j = s.link j := by
  unfold State.startTraining
  split
  · rfl
  · exact State.link_updLink_other s _ h

theorem State.startTraining_reg (s : State) (n k : Nat) : (s.startTraining n).reg k = s.reg k := by
  unfold State.reg
  rw [(State.startTraining_keeps (M := 268435460) rfl (Keeps.refl _ s)).1 .dict rfl]

theorem training_effect {s : State} {n : Nat} {i : Instr} (alive : s.repair.hostPortDead = false)
    (h : i = .linkRetrain n ∧ (s.link n).phase = .training ∧ (s.link n).retrain = true ∨
      i = .flapHoldExpiry n ∧ (s.link n).phase = .held ∧ (s.link n).hold = .flap) :
    ∃ t, exec i s = .next t ∧ (t.link n).phase = .training ∧ (t.link n).retrain = false ∧ (t.link n).version = 0 ∧
      (t.link n).allowedAtTrain = BitVec.ofNat 32 (s.reg (kLinkVersionsAllowed n)) ∧
      (∀ j, j ≠ n → t.link j = s.link j) ∧ s.frame t [.links, .linkFace] := by
  have e : exec i s = .next (s.startTraining n) := by
    rcases h with ⟨rfl, training, waits⟩ | ⟨rfl, held, flap⟩
    · exact congrArg Host.Outcome.next (if_pos ⟨training, waits⟩)
    · exact congrArg Host.Outcome.next (if_pos ⟨held, flap⟩)
  obtain ⟨phase, retrain, version, allowed⟩ := State.startTraining_link n alive
  exact ⟨_, e, phase, retrain, version, allowed, fun j hj => s.startTraining_link_other hj,
    (State.startTraining_keeps (M := 268435460) rfl (Keeps.refl _ s)).frame rfl⟩

/-! ### LINK_VERSIONS_ALLOWED (R41, R51) -/

theorem State.answered_linkFace (s : State) (f : Frame) (q : Ask) (a : Ans) (j : Nat) :
    ((s.answered f q a).link j).face = (s.link j).face := (s.answered_keeps f q a).1 .linkFace rfl j

theorem State.logged_hostPortDead (s : State) (f : Frame) (q : Ask) (a : Ans) :
    (s.logged f q a).repair.hostPortDead = s.repair.hostPortDead :=
  (congrArg RepairSt.hostPortDead (s.logged_repairFace f q a) :
    (s.logged f q a).repair.face.hostPortDead = s.repair.face.hostPortDead)

theorem actVersionsAllowed_reg (n v : Nat) (s : State) (k : Nat) :
    (actVersionsAllowed n v s).1.reg k = (s.setReg (kLinkVersionsAllowed n) v).reg k := by
  unfold actVersionsAllowed
  dsimp only
  split
  · exact State.startTraining_reg _ _ _
  · rfl

theorem actVersionsAllowed_held {s : State} {n : Nat} (v : Nat) (held : (s.link n).phase = .held)
    (hold : (s.link n).hold = .noVersion) :
    (actVersionsAllowed n v s).1 = (s.setReg (kLinkVersionsAllowed n) v).startTraining n :=
  if_pos ⟨held, hold⟩

theorem linkVersionsAllowedWrite_effect {s : State} {f : Frame} {n v : Nat}
    (h : s.accepts f (askWrite (kLinkVersionsAllowed n) 4 v)) (alive : s.repair.hostPortDead = false) :
    ∃ t, exec (.linkVersionsAllowedWrite f n v) s = .next t ∧ t.reg (kLinkVersionsAllowed n) = v ∧
      (∀ k, k ≠ kLinkVersionsAllowed n → t.reg k = s.reg k) ∧
      ((s.link n).phase = .held → (s.link n).hold = .noVersion →
        (t.link n).phase = .training ∧ (t.link n).allowedAtTrain = BitVec.ofNat 32 v) ∧
      s.frame t [.dict, .links, .linkFace, .stalls, .xbar, .repair, .sec, .mgmt, .obs] := by
  refine ⟨_, rfl, ?_, fun k hk => ?_, fun held hold => ?_,
    (execLinkVersionsAllowedWrite_keeps (M := 276365326) rfl (Keeps.refl _ s)).frame rfl rfl⟩
  · rw [State.write_accepts _ h, State.answered_at_reg, actVersionsAllowed_reg, State.reg_setReg]
  · rw [State.write_accepts _ h, State.answered_at_reg, actVersionsAllowed_reg, State.reg_setReg_other _ _ hk,
      State.logged_at_reg]
  · rw [State.write_accepts _ h]
    generalize (actVersionsAllowed n v s).2 = a
    have trains := actVersionsAllowed_held (s := s.logged f (askWrite (kLinkVersionsAllowed n) 4 v) a) v
      (by rwa [State.logged_at_link]) (by rwa [State.logged_at_link])
    have face := State.answered_linkFace (actVersionsAllowed n v (s.logged f (askWrite (kLinkVersionsAllowed n) 4 v) a)).1 f
      (askWrite (kLinkVersionsAllowed n) 4 v) a n
    obtain ⟨phase, _, _, allowed⟩ := State.startTraining_link
      (s := (s.logged f (askWrite (kLinkVersionsAllowed n) 4 v) a).setReg (kLinkVersionsAllowed n) v) n
      (by rw [State.setReg_repair, State.logged_hostPortDead, alive])
    rw [State.reg_setReg] at allowed
    refine ⟨?_, ?_⟩
    · rw [LinkSt.of_face face LinkSt.phase fun _ => rfl, trains, phase]
    · rw [LinkSt.of_face face LinkSt.allowedAtTrain fun _ => rfl, trains, allowed]

/-! ### LINK_ENABLE (R51) -/

/-- A fold over a list without repetition: the steps before the one at `x` keep what it needs, and those after it keep what it
brings. -/
theorem foldl_of_step_at {σ β : Type} {P Q : σ → Prop} {f : σ → β → σ} {l : List β} {x : β} (nd : l.Nodup) (m : x ∈ l)
    (before : ∀ a y, P a → y ≠ x → P (f a y)) (step : ∀ a, P a → Q (f a x)) (after : ∀ a y, Q a → y ≠ x → Q (f a y)) {s : σ}
    (h : P s) : Q (l.foldl f s) := by
  obtain ⟨l1, l2, rfl⟩ := List.append_of_mem m
  obtain ⟨_, nd2, apart⟩ := List.nodup_append.1 nd
  rw [List.foldl_append, List.foldl_cons]
  refine List.foldlRecOn l2 f (step _ ?_) fun a q y my => after a y q ?_
  · exact List.foldlRecOn l1 f h fun a p y my => before a y p (apart y my x (List.mem_cons_self ..))
  · rintro rfl
    exact (List.nodup_cons.1 nd2).1 my

theorem State.linksDown_linkEnable (s : State) (links : List Nat) (reason partner : Nat) :
    (s.linksDown links reason partner).reg kLinkEnable = s.reg kLinkEnable := by
  rw [State.linksDown_reg _ _ _ _ (by decide) (by decide), State.fallAll_reg_other]
  intro n _
  unfold kLastDownReason
  simp only [kLinkEnable]
  omega

theorem enableLink_linkEnable (on : Bool) (n : Nat) (s : State) :
    (enableLink on n s).reg kLinkEnable = s.reg kLinkEnable := by
  unfold enableLink
  dsimp only
  split_ifs
  · rfl
  · exact s.startTraining_reg n _
  · rfl
  · exact s.linksDown_linkEnable _ _ _
  · rfl
  · rfl

/-- Bringing one link to the state its bit asks for leaves the others' faces alone. -/
theorem enableLink_face_other (on : Bool) {j n : Nat} (s : State) (h : j ≠ n) :
    ((enableLink on n s).link j).face = (s.link j).face := by
  unfold enableLink
  dsimp only
  split_ifs
  · rw [State.link_updLink_other _ _ h]
  · rw [State.startTraining_link_other _ h]
  · rfl
  · exact s.linksDown_face_other 4 0 (by simpa using h)
  · rfl
  · rw [State.link_updLink_other _ _ h]

/-- The mask that lets every part change but bring-up, and of repair only its logs and SRAM errors. -/
abbrev servingKept : Nat := 2 ^ 33 - 1 - 2 ^ 25 - 2 ^ 31

/-- Link `n` is disabled, and trains once its bit is set, or is held while a flap hold lasts. -/
def State.mayTrain (s : State) (n : Nat) (hold : HoldCause) : Prop :=
  (s.link n).phase = .disabled ∧ (s.link n).hold = hold ∧ s.linksServed = true ∧ s.repair.hostPortDead = false

theorem State.mayTrain.of {s t : State} {n : Nat} {hold : HoldCause} (h : s.mayTrain n hold) (k : Keeps servingKept s t)
    (face : (t.link n).face = (s.link n).face) : t.mayTrain n hold := by
  obtain ⟨phase, held, served, alive⟩ := h
  refine ⟨?_, ?_, ?_, ?_⟩
  · rw [LinkSt.of_face face LinkSt.phase fun _ => rfl, phase]
  · rw [LinkSt.of_face face LinkSt.hold fun _ => rfl, held]
  · unfold State.linksServed
    rw [k.1 .boot rfl]
    exact served
  · exact (congrArg RepairSt.hostPortDead (k.1 .repairFace rfl) :
      t.repair.face.hostPortDead = s.repair.face.hostPortDead).trans alive

theorem enableLink_mayTrain {s : State} {n : Nat} {hold : HoldCause} (h : s.mayTrain n hold) :
    ((enableLink true n s).link n).phase = if hold = .flap then .held else .training := by
  obtain ⟨phase, rfl, served, alive⟩ := h
  unfold enableLink
  rw [if_pos rfl, if_pos ⟨phase, served⟩]
  split
  · rw [State.link_updLink]
  · exact (State.startTraining_link n alive).1

theorem bitAt_eq_testBit (v n : Nat) : bitAt v n = v.testBit n := by
  rw [Nat.testBit_eq_decide_div_mod_eq]
  rfl

theorem linkEnable_mask (v : Nat) : v &&& storeMask kLinkEnable = v % 2 ^ 48 := Nat.and_two_pow_sub_one_eq_mod v 48

theorem actLinkEnable_reg (v : Nat) (s : State) : (actLinkEnable v s).1.reg kLinkEnable = v % 2 ^ 48 := by
  unfold actLinkEnable
  dsimp only
  refine List.foldlRecOn _ _ (motive := fun a : State => a.reg kLinkEnable = v % 2 ^ 48) ?_ fun a ih n _ => ?_
  · rw [State.linksDown_linkEnable, State.reg_setReg, linkEnable_mask]
  · rw [enableLink_linkEnable, ih]

/-- A link whose bit is set leaves the phase DISABLED. -/
theorem actLinkEnable_phase {s : State} {n v : Nat} {hold : HoldCause} (hn : n < 48) (bit : bitAt v n = true)
    (h : s.mayTrain n hold) :
    ((actLinkEnable v s).1.link n).phase = if hold = .flap then .held else .training := by
  have on : bitAt (v &&& storeMask kLinkEnable) n = true := by
    rw [linkEnable_mask, bitAt_eq_testBit, Nat.testBit_mod_two_pow, ← bitAt_eq_testBit, bit]
    simpa using hn
  unfold actLinkEnable
  dsimp only
  generalize v &&& storeMask kLinkEnable = m at on
  refine foldl_of_step_at (P := fun a : State => a.mayTrain n hold)
    (Q := fun a : State => (a.link n).phase = if hold = .flap then .held else .training) List.nodup_range (List.mem_range.2 hn)
    (fun a k may o => ?_) (fun a may => ?_) (fun a k q o => ?_) ?_
  · exact may.of (enableLink_keeps rfl (Keeps.refl _ a)) (enableLink_face_other _ a o.symm)
  · rw [on]
    exact enableLink_mayTrain may
  · rw [← q]
    exact LinkSt.of_face (enableLink_face_other _ a o.symm) LinkSt.phase fun _ => rfl
  · refine h.of (State.linksDown_keeps rfl (State.setReg_keeps rfl (Keeps.refl _ s))) ?_
    rw [State.linksDown_face_other _ _ _ (by simp [on])]
    rfl

theorem linkEnableWrite_effect {s : State} {f : Frame} {v : Nat} (h : s.accepts f (askWrite kLinkEnable 8 v)) :
    ∃ t, exec (.linkEnableWrite f v) s = .next t ∧ t.reg kLinkEnable = v % 2 ^ 48 ∧
      ∀ n, n < 48 → (s.link n).phase = .disabled → s.linksServed = true → s.repair.hostPortDead = false →
        bitAt v n = true → (t.link n).phase = if (s.link n).hold = .flap then .held else .training := by
  refine ⟨_, rfl, ?_, fun n hn disabled served alive bit => ?_⟩
  · rw [State.write_accepts _ h, State.answered_at_reg, actLinkEnable_reg]
  · rw [State.write_accepts _ h, LinkSt.of_face (State.answered_linkFace _ _ _ _ n) LinkSt.phase fun _ => rfl]
    refine actLinkEnable_phase hn bit (State.mayTrain.of ⟨disabled, rfl, served, alive⟩ ?_ (by rw [State.logged_at_link]))
    exact (Keeps.refl _ s).then (s.logged_keeps _ _ _) rfl

/-! ### Every way down -/

theorem execLaneSignalLoss_last {s : State} {n lane : Nat} (up : (s.link n).isUp = true)
    (bit : (s.link n).mask.getLsbD lane = true) (last : (s.link n).without lane = 0) :
    execLaneSignalLoss n lane s = .next (s.linkDown n 1 0) := by
  unfold execLaneSignalLoss
  simp only [up, bit, last, Bool.and_self, if_true]

theorem execEmergencyDropTimeout_emergency {s : State} {n : Nat} {ch : LaneChange} (change : (s.link n).change = some ch)
    (em : ch.emergency = true) : execEmergencyDropTimeout n s = .next (s.linkDown n 1 0) := by
  unfold execEmergencyDropTimeout
  simp only [change, em, if_true]

theorem linkGoesDown_effect {s : State} {n reason : Nat} {i : Instr} (hn : n < 48) (up : (s.link n).isUp = true)
    (h : (∃ c, i = .linkDown n c ∧ ctlOk 9 c = true ∧ reason = 6) ∨
      (i = .replayLimitReached n ∧ (s.link n).timerOn = true ∧ s.reg kReplayLimit ≤ (s.link n).expiries ∧ reason = 3) ∨
      (∃ ch, i = .emergencyDropTimeout n ∧ (s.link n).change = some ch ∧ ch.emergency = true ∧ reason = 1) ∨
      (∃ lane, i = .laneSignalLoss n lane ∧ (s.link n).mask.getLsbD lane = true ∧ (s.link n).without lane = 0 ∧
        reason = 1) ∨
      i = .codewordLockLoss n ∧ reason = 2) :
    ∃ t, exec i s = .next t ∧ s.wentDown t n reason ∧
      s.frame t [.dict, .links, .linkFace, .stalls, .stallFace, .pitch, .slices, .pushes, .xbar, .pair, .repair, .obs] := by
  have down {r : Nat} (p : Nat) (hr : r ≠ 4) (e : exec i s = .next (s.linkDown n r p)) : ∃ t, exec i s = .next t ∧
      s.wentDown t n r ∧
      s.frame t [.dict, .links, .linkFace, .stalls, .stallFace, .pitch, .slices, .pushes, .xbar, .pair, .repair, .obs] :=
    ⟨_, e, State.linkDown_wentDown up hr p hn, (State.linkDown_keeps (M := 810360942) rfl (Keeps.refl _ s)).frame rfl⟩
  rcases h with ⟨c, rfl, hc, rfl⟩ | ⟨rfl, timer, limit, rfl⟩ | ⟨ch, rfl, change, em, rfl⟩ |
    ⟨lane, rfl, bit, last, rfl⟩ | ⟨rfl, rfl⟩
  · have e : execLinkDown n c s = .next ((s.heard n c).linkDown n 6 (bodyField c.body 0 1)) :=
      congrArg Host.Outcome.next (State.control_up _ hn hc up)
    refine ⟨_, e, ?_, (execLinkDown_keeps (M := 810360942) rfl (Keeps.refl _ s)).frame e rfl⟩
    exact State.wentDown_of_heard c (State.linkDown_wentDown ((s.heard_isUp n c).trans up) (by decide) _ hn)
  · exact down 0 (by decide) (execReplayLimitReached_reached up timer limit)
  · exact down 0 (by decide) (execEmergencyDropTimeout_emergency change em)
  · exact down 0 (by decide) (execLaneSignalLoss_last up bit last)
  · exact down 0 (by decide) rfl

/-- Settles O9, a lemma for each clause. -/
theorem linksTrainComeUpAndGoDown : Obligations.LinksTrainComeUpAndGoDown := by
  unfold Obligations.LinksTrainComeUpAndGoDown
  refine ⟨⟨fun s n hn training begun sent recv version mask plain =>
      linkUp_effect hn training begun sent recv version mask plain,
    fun s n i alive h => training_effect alive h, fun s f v h => linkEnableWrite_effect h,
    fun s f n v _ h alive => linkVersionsAllowedWrite_effect h alive⟩, fun s n reason i hn up h => ?_⟩
  obtain ⟨t, e, ⟨phase, rxNext, mask, caps, version, change, why, others⟩, fr⟩ := linkGoesDown_effect hn up h
  exact ⟨t, e, phase, rxNext, mask, caps, version, change, why, others, fr⟩

end Sys2Proof.Machine
end

section
/-! SUPPORT. Link control (02 R38 to R47): what HELLO, the lane-change blocks and the time exchange do once a control block is
heard, how the board's own lane changes start, and what a control slot carries. -/

namespace Sys2Proof.Machine

/-! ### Queued control blocks -/

section
variable (s : State) (n ctype : Nat) (body : BitVec 176)

@[simp] theorem State.queueCtl_link :
    (s.queueCtl n ctype body).link n =
      { s.link n with ctlOut := (s.link n).ctlOut ++ [{ ctype := ctype, body := body }] } := State.link_updLink _ _ _

@[simp] theorem State.queueFirst_link :
    (s.queueFirst n ctype body).link n =
      { s.link n with ctlOut := { ctype := ctype, body := body } :: (s.link n).ctlOut } := State.link_updLink _ _ _

theorem State.queueCtl_link_other {j : Nat} (h : j ≠ n) : (s.queueCtl n ctype body).link j = s.link j :=
  State.link_updLink_other _ _ h

@[simp] theorem State.queueCtl_tallyOf (g : Group) (i r : Nat) : (s.queueCtl n ctype body).tallyOf g i r = s.tallyOf g i r := rfl

end

/-! ### HELLO (R38 to R41) -/

/-- A HELLO with a common version: the link, at step 5, takes what it says. -/
def State.takeHello (s : State) (n : Nat) (b : BitVec 176) : State :=
  s.updLink n fun l => helloFields s n b { l with phase := .training, hold := .none }

/-- A HELLO without one: the link is held. -/
def State.refuseHello (s : State) (n : Nat) (b : BitVec 176) : State :=
  (s.updLink n fun l => { l with partnerVersions := BitVec.ofNat 8 (bodyField b 0 1) }).noVersion n (bodyField b 0 1)

/-- The link takes a HELLO: it trains, or is held for want of a common version and its partner's VERSIONS has changed. -/
def LinkSt.hears (l : LinkSt) (theirs : Nat) : Prop :=
  l.phase = .training ∧ l.retrain = false ∨ l.phase = .held ∧ l.hold = .noVersion ∧ l.partnerVersions.toNat ≠ theirs

theorem State.heard_ourVersions (s : State) (n : Nat) (c : Ctl) :
    (s.heard n c).ourVersions n = (s.link n).allowedAtTrain.toNat &&& 7 := by
  unfold State.ourVersions
  rw [State.heard_allowedAtTrain]
  rfl

theorem execHello_hears {s : State} {n : Nat} {c : Ctl} (hn : n < 48) (hc : ctlOk 3 c = true)
    (h : (s.link n).hears (bodyField c.body 0 1)) :
    execHello n c s = .next (
      if commonVersion ((s.link n).allowedAtTrain.toNat &&& 7) (bodyField c.body 0 1) = 0 then (s.heard n c).refuseHello n c.body
      else (s.heard n c).takeHello n c.body) := by
  have live : (s.link n).phase ≠ .disabled := by
    rcases h with ⟨p, _⟩ | ⟨p, _⟩
    all_goals rw [p]; decide
  refine (congrArg Host.Outcome.next (State.control_heard _ hn hc live)).trans ?_
  dsimp only
  rw [State.heard_ourVersions, State.heard_phase, State.heard_retrain, State.heard_hold, State.heard_partnerVersions]
  rcases h with training | ⟨held, hold⟩
  · rw [if_pos training]
    rfl
  · rw [if_neg (by simp [held]), if_pos ⟨held, hold⟩]
    rfl

theorem hello_effect {s : State} {n : Nat} {c : Ctl} (hn : n < 48) (hc : ctlOk 3 c = true)
    (h : (s.link n).hears (bodyField c.body 0 1)) :
    let v := commonVersion ((s.link n).allowedAtTrain.toNat &&& 7) (bodyField c.body 0 1)
    let caps := effectiveCaps (ourCaps ((s.link n).allowedAtTrain.toNat &&& 7)) (bodyField c.body 1 4) v
    ∃ t, exec (.hello n c) s = .next t ∧
      (v ≠ 0 →
        (t.link n).phase = .training ∧ (t.link n).version = v ∧ (t.link n).caps = BitVec.ofNat 32 caps ∧
        (t.link n).kind = bodyField c.body 5 1 % 16 ∧ (t.link n).partner = bodyField c.body 6 2 % 4096 ∧
        (t.link n).mask = formMask ((s.link n).passed &&& BitVec.ofNat 4 (bodyField c.body 8 1)) (bitAt caps 1) ∧
        (t.link n).gotHello = true ∧
        (t.link n).seenRecv = ((s.link n).seenRecv || bitAt (bodyField c.body 9 1) 0) ∧
        (∀ j, j ≠ n → t.link j = s.link j) ∧ s.frame t [.links, .slices, .linkFace]) ∧
      (v = 0 →
        (t.link n).phase = .held ∧ (t.link n).hold = .noVersion ∧ t.reg (kLastDownReason n) = 5) := by
  intro v caps
  refine ⟨_, execHello_hears hn hc h, fun common => ?_, fun unmatched => ?_⟩
  · rw [if_neg common]
    have taken : ((s.heard n c).takeHello n c.body).link n =
        helloFields (s.heard n c) n c.body { (s.heard n c).link n with phase := .training, hold := .none } :=
      State.link_updLink _ _ _
    rw [taken]
    unfold helloFields
    dsimp only
    rw [State.heard_ourVersions, State.heard_passed, State.heard_seenRecv]
    refine ⟨rfl, rfl, rfl, rfl, rfl, rfl, rfl, rfl, fun j hj => ?_, Keeps.frame (m := 268435524) ?_ rfl⟩
    · exact (State.link_updLink_other _ _ hj).trans (s.heard_other c hj)
    · exact State.updLink_keeps rfl (Or.inl rfl) (s.heard_keeps n c)
  · rw [if_pos unmatched]
    unfold State.refuseHello State.noVersion
    simp

/-! ### A lane fails in training (R38) -/

theorem laneFails_effect {s : State} {n lane : Nat} (hl : lane < 4)
    (h : (s.link n).phase = .training ∧ (s.link n).retrain = false ∨ (s.link n).phase = .held ∧ (s.link n).hold = .noVersion) :
    ∃ t, exec (.laneSignalLoss n lane) s = .next t ∧ (t.link n).passed.getLsbD lane = false ∧
      (t.link n).mask = formMask ((t.link n).passed &&& (s.link n).partnerLanes) (s.link n).x2 ∧
      (∀ k, k < 4 → k ≠ lane → (t.link n).passed.getLsbD k = (s.link n).passed.getLsbD k) ∧
      (∀ j, j ≠ n → t.link j = s.link j) ∧ s.frame t [.links, .linkFace] := by
  have down : (s.link n).isUp = false := by
    unfold LinkSt.isUp
    rcases h with ⟨p, _⟩ | ⟨p, _⟩
    all_goals rw [p]; rfl
  have e : execLaneSignalLoss n lane s = .next (s.updLink n fun l => l.laneFailed lane) := by
    unfold execLaneSignalLoss
    dsimp only
    rw [down, Bool.false_and, if_neg Bool.false_ne_true, if_pos ⟨hl, h⟩]
  have bit (k : Nat) (hk : k < 4) : ((s.link n).passed &&& ~~~(BitVec.ofNat 4 (2 ^ (lane % 4)))).getLsbD k =
      ((s.link n).passed.getLsbD k && decide (k ≠ lane)) := by
    rw [Nat.mod_eq_of_lt hl, BitVec.getLsbD_and, BitVec.getLsbD_not, BitVec.getLsbD_ofNat, Nat.testBit_two_pow]
    simp [hk, eq_comm]
  refine ⟨_, e, ?_, ?_, fun k hk o => ?_, fun j hj => State.link_updLink_other s _ hj,
    (State.updLink_keeps (M := 268435460) rfl (Or.inl rfl) (Keeps.refl _ s)).frame rfl⟩
  all_goals
    rw [State.link_updLink]
    unfold LinkSt.laneFailed
    dsimp only
  · rw [bit lane hl]
    simp
  · rw [bit k hk]
    simp [o]

/-! ### Lane changes (R42 to R46) -/

theorem setChange_half {ch : LaneChange} (h : (ch.txSwitched && ch.rxSwitched) = false) (n : Nat) (s : State) :
    setChange n ch s = s.updLink n fun l => { l with change := some ch } := by
  unfold setChange
  rw [h, if_neg Bool.false_ne_true]

theorem setChange_both {ch : LaneChange} (h : (ch.txSwitched && ch.rxSwitched) = true) (n : Nat) (s : State) :
    setChange n ch s = finishChange n ch s := if_pos h

/-- A lane change that is complete: the new mask holds, no change runs, and it is counted. -/
theorem finishChange_reads (n : Nat) (ch : LaneChange) (s : State) :
    ((finishChange n ch s).link n).mask = ch.mask ∧ ((finishChange n ch s).link n).change = none ∧
    ((finishChange n ch s).link n).ctlOut = (s.link n).ctlOut ∧
    (finishChange n ch s).tallyOf .link n 8 = s.tallyOf .link n 8 + 1 := by
  unfold finishChange
  simp

/-- The board's answer to a change that its receiver has not followed yet: its transmitter switches, and the blocks that say
so wait. -/
theorem answerChange_link {ch : LaneChange} (h : ch.rxSwitched = false) (n : Nat) (id : BitVec 8) (em : Bool) (s : State) :
    ∃ b, (answerChange n id em ch s).link n = { s.link n with
      change := some { ch with txSwitched := true }
      ctlOut := if em then { ctype := 6, body := b } :: (s.link n).ctlOut
        else (s.link n).ctlOut ++ [{ ctype := 5, body := b }] ++ [{ ctype := 6, body := b }] } := by
  refine ⟨mkBody [(1, id.toNat), (1, ch.mask.toNat)], ?_⟩
  unfold answerChange
  rw [setChange_half (by rw [h, Bool.and_false])]
  cases em
  · simp [ctLaneAccept, ctLaneSwitch]
  · simp [ctLaneSwitch]

theorem State.heard_allowed (s : State) (n : Nat) (c : Ctl) (want : BitVec 4) (em : Bool) :
    ((s.heard n c).link n).allowed want em = (s.link n).allowed want em :=
  s.heard_field n c (fun l => l.allowed want em) fun _ _ => rfl

section
variable {s : State} {n : Nat} {c : Ctl} (hn : n < 48) (up : (s.link n).isUp = true)
include hn up

section
variable (hc : ctlOk 4 c = true) {em : Bool} {m : BitVec 4} (lanes : m ≠ 0)
include hc lanes

/-- A LANE_REQ while no change runs. -/
theorem execLaneReq_fresh (change : (s.link n).change = none) (hem : em = bitAt (bodyField c.body 2 1) 0)
    (hm : m = formMask ((s.link n).allowed (BitVec.ofNat 4 (bodyField c.body 1 1)) em) (s.link n).x2) :
    execLaneReq n c s = .next (answerChange n (BitVec.ofNat 8 (bodyField c.body 0 1)) em {
      reqId := BitVec.ofNat 8 (bodyField c.body 0 1), mask := m, emergency := em, mine := false, accepted := true
      txSwitched := false, rxSwitched := false, parking := false } (s.heard n c)) := by
  refine (congrArg Host.Outcome.next (State.control_up _ hn hc up)).trans ?_
  simp only [State.heard_isUp, up, State.heard_change, change, State.heard_allowed, State.heard_x2, ← hem, ← hm, lanes,
    Bool.not_true, Bool.false_eq_true, if_false]

theorem laneReq_fresh_effect (change : (s.link n).change = none) (hem : em = bitAt (bodyField c.body 2 1) 0)
    (hm : m = formMask ((s.link n).allowed (BitVec.ofNat 4 (bodyField c.body 1 1)) em) (s.link n).x2) :
    ∃ t, exec (.laneReq n c) s = .next t ∧ ∃ ch, (t.link n).change = some ch ∧ ch.mask = m ∧ ch.mine = false ∧
      ch.emergency = em ∧ ch.txSwitched = true ∧ ch.rxSwitched = false ∧ (t.link n).mask = (s.link n).mask ∧
      (t.link n).ctlOut.map (·.ctype) = (if em then 6 :: (s.link n).ctlOut.map (·.ctype)
        else (s.link n).ctlOut.map (·.ctype) ++ [5, 6]) ∧
      s.frame t [.links, .slices, .linkFace, .obs] := by
  have e := execLaneReq_fresh hn up hc lanes change hem hm
  have fr := (execLaneReq_keeps (M := 272629828) rfl (Keeps.refl _ s)).frame e (ps := [.links, .slices, .linkFace, .obs]) rfl
  obtain ⟨b, answered⟩ := answerChange_link (ch := {
    reqId := BitVec.ofNat 8 (bodyField c.body 0 1), mask := m, emergency := em, mine := false, accepted := true
    txSwitched := false, rxSwitched := false, parking := false }) rfl n (BitVec.ofNat 8 (bodyField c.body 0 1)) em (s.heard n c)
  refine ⟨_, e, _, congrArg LinkSt.change answered, rfl, rfl, rfl, rfl, rfl,
    (congrArg LinkSt.mask answered).trans (s.heard_mask n c), ?_, fr⟩
  rw [answered]
  cases em
  all_goals simp

section
variable {ch : LaneChange} (change : (s.link n).change = some ch) (mine : ch.mine = true) (waits : ch.accepted = false)
  (tx : ch.txSwitched = false) (hm : m = formMask (ch.mask &&& BitVec.ofNat 4 (bodyField c.body 1 1)) (s.link n).x2)
include change mine waits tx hm

/-- A LANE_REQ that crosses the board's own request takes the lanes that both name. -/
theorem execLaneReq_crossing (hem : em = (bitAt (bodyField c.body 2 1) 0 || ch.emergency)) :
    execLaneReq n c s = .next (
      if em then
        answerChange n (BitVec.ofNat 8 (bodyField c.body 0 1)) true { ch with mask := m, emergency := true } (s.heard n c)
      else ((s.heard n c).updLink n fun l => { l with change := some { ch with mask := m } }).queueCtl n ctLaneAccept
        (mkBody [(1, (BitVec.ofNat 8 (bodyField c.body 0 1)).toNat), (1, m.toNat)])) := by
  refine (congrArg Host.Outcome.next (State.control_up _ hn hc up)).trans ?_
  simp only [State.heard_isUp, up, State.heard_change, change, State.heard_x2, mine, waits, tx, ← hm, lanes, Bool.not_true,
    Bool.not_false, Bool.and_self, Bool.false_eq_true, if_false, if_true, hem]

theorem laneReq_crossing_effect (rx : ch.rxSwitched = false) (hem : em = (bitAt (bodyField c.body 2 1) 0 || ch.emergency)) :
    ∃ t, exec (.laneReq n c) s = .next t ∧
      (t.link n).change = some
        (if em then { ch with mask := m, emergency := true, txSwitched := true } else { ch with mask := m }) ∧
      (t.link n).mask = (s.link n).mask ∧
      (t.link n).ctlOut.map (·.ctype) = (if em then 6 :: (s.link n).ctlOut.map (·.ctype)
        else (s.link n).ctlOut.map (·.ctype) ++ [5]) ∧
      s.frame t [.links, .slices, .linkFace, .obs] := by
  have e := execLaneReq_crossing hn up hc lanes change mine waits tx hm hem
  have fr := (execLaneReq_keeps (M := 272629828) rfl (Keeps.refl _ s)).frame e (ps := [.links, .slices, .linkFace, .obs]) rfl
  clear hem hm
  cases em
  · refine ⟨_, e, ?_, ?_, ?_, fr⟩
    all_goals simp [ctLaneAccept]
  · obtain ⟨b, answered⟩ := answerChange_link (ch := { ch with mask := m, emergency := true }) rx n
      (BitVec.ofNat 8 (bodyField c.body 0 1)) true (s.heard n c)
    refine ⟨_, e, congrArg LinkSt.change answered, (congrArg LinkSt.mask answered).trans (s.heard_mask n c), ?_, fr⟩
    rw [if_pos rfl, answered]
    simp

end

end

/-- LANE_ACCEPT of the board's own request: its transmitter switches, and LANE_SWITCH says so. -/
theorem laneAccept_effect (hc : ctlOk 5 c = true) {ch : LaneChange} (change : (s.link n).change = some ch)
    (mine : ch.mine = true) (waits : ch.accepted = false) (rx : ch.rxSwitched = false)
    (id : ch.reqId = BitVec.ofNat 8 (bodyField c.body 0 1)) :
    ∃ t, exec (.laneAccept n c) s = .next t ∧
      (t.link n).change = some { ch with
        accepted := true, mask := BitVec.ofNat 4 (bodyField c.body 1 1), txSwitched := true } ∧
      (t.link n).ctlOut.map (·.ctype) = (s.link n).ctlOut.map (·.ctype) ++ [6] ∧
      s.frame t [.links, .slices, .linkFace, .obs] := by
  have e : execLaneAccept n c s = .next (((s.heard n c).updLink n fun l => { l with
      change := some { ch with accepted := true, mask := BitVec.ofNat 4 (bodyField c.body 1 1), txSwitched := true } }).queueCtl n
        ctLaneSwitch (mkBody [(1, (BitVec.ofNat 8 (bodyField c.body 0 1)).toNat),
          (1, (BitVec.ofNat 4 (bodyField c.body 1 1)).toNat)])) := by
    refine (congrArg Host.Outcome.next (State.control_up _ hn hc up)).trans ?_
    simp only [State.heard_change, change, mine, waits, id, BEq.rfl, Bool.not_false, Bool.and_self, if_true]
    rw [setChange_half (by rw [rx, Bool.and_false])]
  refine ⟨_, e, ?_, ?_, (execLaneAccept_keeps (M := 272629828) rfl (Keeps.refl _ s)).frame e rfl⟩
  all_goals simp [ctLaneSwitch]

section
variable (hc : ctlOk 6 c = true) {ch : LaneChange} (change : (s.link n).change = some ch)
include hc change

/-- LANE_SWITCH first of all of the board's own emergency drop: the board's transmitter follows at once (R45). -/
theorem execLaneSwitch_first (first : (ch.emergency && (ch.mine && !ch.txSwitched)) = true) :
    execLaneSwitch n c s = .next ((finishChange n { ch with
      mask := BitVec.ofNat 4 (bodyField c.body 1 1), rxSwitched := true, txSwitched := true } (s.heard n c)).queueCtl n
        ctLaneSwitch (mkBody [(1, ch.reqId.toNat), (1, (BitVec.ofNat 4 (bodyField c.body 1 1)).toNat)])) := by
  refine (congrArg Host.Outcome.next (State.control_up _ hn hc up)).trans ?_
  simp only [State.heard_change, change, first, if_true]
  rw [setChange_both rfl]

/-- LANE_SWITCH otherwise: the receiver follows the partner's transmitter (R42). -/
theorem execLaneSwitch_follows (first : (ch.emergency && (ch.mine && !ch.txSwitched)) = false) :
    execLaneSwitch n c s = .next (setChange n { ch with rxSwitched := true } (s.heard n c)) := by
  refine (congrArg Host.Outcome.next (State.control_up _ hn hc up)).trans ?_
  simp only [State.heard_change, change, first, Bool.false_eq_true, if_false]

theorem laneSwitch_effect :
    let first := ch.emergency && (ch.mine && !ch.txSwitched)
    ∃ t, exec (.laneSwitch n c) s = .next t ∧
      (ch.txSwitched = true ∨ first = true →
        (t.link n).mask = (if first then BitVec.ofNat 4 (bodyField c.body 1 1) else ch.mask) ∧ (t.link n).change = none ∧
        t.tallyOf .link n 8 = s.tallyOf .link n 8 + 1) ∧
      (ch.txSwitched = false → first = false →
        (t.link n).mask = (s.link n).mask ∧ (t.link n).change = some { ch with rxSwitched := true }) ∧
      (t.link n).ctlOut.map (·.ctype) = (s.link n).ctlOut.map (·.ctype) ++ (if first then [6] else []) ∧
      s.frame t [.links, .slices, .linkFace, .obs] := by
  intro first
  have fr {t : State} (e : execLaneSwitch n c s = .next t) : s.frame t [.links, .slices, .linkFace, .obs] :=
    (execLaneSwitch_keeps (M := 272629828) rfl (Keeps.refl _ s)).frame e rfl
  cases hf : first
  · have e := execLaneSwitch_follows hn up hc change hf
    cases tx : ch.txSwitched
    · rw [setChange_half (by simp [tx])] at e
      refine ⟨_, e, by simp, fun _ _ => ?_, ?_, fr e⟩
      all_goals simp [tx]
    · rw [setChange_both (by simp [tx])] at e
      obtain ⟨mask, none, out, tally⟩ := finishChange_reads n { ch with rxSwitched := true } (s.heard n c)
      refine ⟨_, e, fun _ => ⟨mask, none, ?_⟩, nofun, ?_, fr e⟩
      · rw [tally, State.heard_tallyOf]
      · rw [out]
        simp
  · have e := execLaneSwitch_first hn up hc change hf
    obtain ⟨mask, none, out, tally⟩ := finishChange_reads n { ch with
      mask := BitVec.ofNat 4 (bodyField c.body 1 1), rxSwitched := true, txSwitched := true } (s.heard n c)
    refine ⟨_, e, fun _ => ⟨?_, ?_, ?_⟩, nofun, ?_, fr e⟩
    · rw [State.queueCtl_link]
      exact mask
    · rw [State.queueCtl_link]
      exact none
    · rw [State.queueCtl_tallyOf, tally, State.heard_tallyOf]
    · rw [State.queueCtl_link, out]
      simp [ctLaneSwitch]

end

end

theorem laneChangeAbandon_effect {s : State} {n : Nat} {ch : LaneChange} (change : (s.link n).change = some ch)
    (planned : ch.emergency = false) :
    ∃ t, exec (.laneChangeAbandon n) s = .next t ∧ (t.link n).change = none ∧
      (t.link n).reqQuietUntil = s.time.ticks + 100000 ∧ (t.link n).mask = (s.link n).mask ∧
      (∀ j, j ≠ n → t.link j = s.link j) ∧ s.frame t [.links, .linkFace] := by
  have e : execLaneChangeAbandon n s = .next (s.updLink n fun l => { l with
      change := none, reqQuietUntil := s.time.ticks + 100000 }) := by
    unfold execLaneChangeAbandon
    simp only [change, planned, Bool.false_eq_true, if_false]
  refine ⟨_, e, ?_, ?_, ?_, fun j hj => State.link_updLink_other s _ hj,
    (execLaneChangeAbandon_keeps (M := 268435460) rfl (Keeps.refl _ s)).frame e rfl⟩
  all_goals rw [State.link_updLink]

/-! ### The board's own lane changes (R42, R44 to R46) -/

/-- `t` has a lane change of the board's own on link `n`, asked for and not answered, and is else as `s`. -/
def State.asksFor (s t : State) (n : Nat) (m : BitVec 4) (em : Bool) : Prop :=
  (∃ ch, (t.link n).change = some ch ∧ ch.mask = m ∧ ch.mine = true ∧ ch.emergency = em ∧
    ch.accepted = false ∧ ch.txSwitched = false ∧ ch.rxSwitched = false ∧
    (t.link n).reqId = (s.link n).reqId + 1 ∧ ch.reqId = (t.link n).reqId ∧ (t.link n).asking = some ch ∧
    (t.link n).ctlOut = (s.link n).ctlOut) ∧
  (∀ j, j ≠ n → t.link j = s.link j) ∧ s.frame t [.links, .linkFace, .dict]

/-- The change that the board asks for under the link's next REQ_ID. -/
def LinkSt.ownChange (l : LinkSt) (m : BitVec 4) (em parking : Bool) : LaneChange where
  reqId := l.reqId + 1
  mask := m
  emergency := em
  mine := true
  accepted := false
  txSwitched := false
  rxSwitched := false
  parking := parking

theorem State.asksFor_of {s t : State} {n : Nat} {m : BitVec 4} {em parking : Bool}
    (change : (t.link n).change = some ((s.link n).ownChange m em parking)) (reqId : (t.link n).reqId = (s.link n).reqId + 1)
    (out : (t.link n).ctlOut = (s.link n).ctlOut) (others : ∀ j, j ≠ n → t.link j = s.link j)
    (k : Keeps 268435462 s t) : s.asksFor t n m em := by
  have asking : (t.link n).asking = some ((s.link n).ownChange m em parking) := by
    unfold LinkSt.asking
    rw [change]
    rfl
  exact ⟨⟨_, change, rfl, rfl, rfl, rfl, rfl, rfl, reqId, reqId.symm, asking, out⟩, others, k.frame rfl⟩

@[simp] theorem startChange_link (n : Nat) (m : BitVec 4) (em parking : Bool) (s : State) :
    (startChange n m em parking s).link n =
      { s.link n with reqId := (s.link n).reqId + 1, change := some ((s.link n).ownChange m em parking) } :=
  State.link_updLink _ _ _

theorem startChange_link_other (m : BitVec 4) (em parking : Bool) (s : State) {j n : Nat} (h : j ≠ n) :
    (startChange n m em parking s).link j = s.link j := State.link_updLink_other _ _ h

/-- A planned drop of a lane with too many errors (R44). -/
theorem laneDropBer_effect {s : State} {n lane errors : Nat} {m : BitVec 4} (hm : m = (s.link n).without lane)
    (can : s.canChange n = true) (bit : (s.link n).mask.getLsbD lane = true) (on : 0 < s.reg kLaneDropBer)
    (above : s.reg kLaneDropBer < errors) (lanes : m ≠ 0) :
    ∃ t, exec (.laneDropBerExceeded n lane errors) s = .next t ∧ s.asksFor t n m false := by
  have e : execLaneDropBerExceeded n lane errors s = .next (startChange n m false false s) := by
    have left : ((s.link n).without lane != 0) = true := bne_iff_ne.2 (hm ▸ lanes)
    unfold execLaneDropBerExceeded
    simp only [can, bit, on, above, left, decide_true, Bool.and_self, if_true, hm]
  refine ⟨_, e, State.asksFor_of (parking := false) ?_ ?_ ?_ (fun j hj => startChange_link_other m false false s hj)
    (startChange_keeps rfl (Keeps.refl _ s))⟩
  all_goals rw [startChange_link]

theorem State.joinNext_widens {s : State} {n : Nat} {m : BitVec 4} (can : s.canChange n = true)
    (ready : (s.link n).addReady ≠ 0) (hm : m = formMask ((s.link n).mask ||| (s.link n).addReady) (s.link n).x2)
    (wider : popCount (s.link n).mask.toNat 4 < popCount m.toNat 4) : s.joinNext n = startChange n m false true s := by
  have any : ((s.link n).addReady != 0) = true := bne_iff_ne.2 ready
  unfold State.joinNext
  simp only [can, any, ← hm, wider, decide_true, Bool.and_self, if_true]

/-- A lane that has trained alone joins by a planned change that widens the link (R46). -/
theorem laneAdd_effect {s : State} {n lane : Nat} {m : BitVec 4} (hl : lane < 4) (up : (s.link n).isUp = true)
    (can : s.canChange n = true) (cap : bitAt (s.link n).caps.toNat 2 = true) (bit : (s.link n).mask.getLsbD lane = false)
    (free : (s.link n).barred.getLsbD lane = false)
    (hm : m = formMask ((s.link n).mask ||| ((s.link n).addReady ||| BitVec.ofNat 4 (2 ^ lane))) (s.link n).x2)
    (wider : popCount (s.link n).mask.toNat 4 < popCount m.toNat 4) :
    ∃ t, exec (.laneAddTrained n lane) s = .next t ∧ s.asksFor t n m false := by
  have ready : ((s.link n).addReady ||| BitVec.ofNat 4 (2 ^ lane)) ≠ 0 := by
    intro q
    have b := congrArg (fun x : BitVec 4 => x.getLsbD lane) q
    rw [BitVec.getLsbD_or, BitVec.getLsbD_ofNat, Nat.testBit_two_pow] at b
    simp [hl] at b
  have e : execLaneAddTrained n lane s = .next (startChange n m false true (s.updLink n fun l => { l with
      addReady := l.addReady ||| BitVec.ofNat 4 (2 ^ (lane % 4))
      lost := l.lost &&& ~~~(BitVec.ofNat 4 (2 ^ (lane % 4))) })) := by
    unfold execLaneAddTrained
    simp only [up, cap, bit, free, hl, decide_true, Bool.not_false, Bool.and_self, if_true]
    rw [State.joinNext_widens (m := m)]
    · unfold State.canChange at can ⊢
      rw [State.link_updLink]
      exact can
    all_goals rw [State.link_updLink, Nat.mod_eq_of_lt hl]
    · exact ready
    · exact hm
    · exact wider
  refine ⟨_, e, State.asksFor_of (parking := true) ?_ ?_ ?_ (fun j hj => ?_)
    (startChange_keeps rfl (State.updLink_keeps rfl (Or.inl rfl) (Keeps.refl _ s)))⟩
  · rw [startChange_link, State.link_updLink]
    rfl
  · rw [startChange_link, State.link_updLink]
  · rw [startChange_link, State.link_updLink]
  · rw [startChange_link_other _ _ _ _ hj, State.link_updLink_other _ _ hj]

/-- An emergency drop unparks its parked lanes, and touches neither the change nor the queue. -/
theorem State.unparkAll_link (s : State) (n : Nat) :
    ((s.unparkAll n).link n).change = (s.link n).change ∧ ((s.unparkAll n).link n).reqId = (s.link n).reqId ∧
    ((s.unparkAll n).link n).ctlOut = (s.link n).ctlOut := by
  unfold State.unparkAll
  split
  · exact ⟨rfl, rfl, rfl⟩
  · rw [State.setReg_at_link, State.link_updLink]
    exact ⟨rfl, rfl, rfl⟩

theorem State.unparkAll_link_other (s : State) {j n : Nat} (h : j ≠ n) : (s.unparkAll n).link j = s.link j := by
  unfold State.unparkAll
  split
  · rfl
  · rw [State.setReg_at_link, State.link_updLink_other _ _ h]

/-- A lane of the mask has lost its signal, and others are left: an emergency drop (R45). -/
theorem laneLoss_effect {s : State} {n lane : Nat} {m : BitVec 4} (up : (s.link n).isUp = true)
    (bit : (s.link n).mask.getLsbD lane = true) (hm : m = (s.link n).without lane) (lanes : m ≠ 0) :
    ∃ t, exec (.laneSignalLoss n lane) s = .next t ∧ s.asksFor t n m true := by
  have e : execLaneSignalLoss n lane s = .next (((startChange n m true false s).updLink n fun l => { l with
      lost := l.lost ||| BitVec.ofNat 4 (2 ^ (lane % 4)) }).unparkAll n) := by
    subst hm
    unfold execLaneSignalLoss
    simp only [up, bit, lanes, Bool.and_self, if_true, if_false]
  obtain ⟨change, reqId, out⟩ := State.unparkAll_link ((startChange n m true false s).updLink n fun l => { l with
      lost := l.lost ||| BitVec.ofNat 4 (2 ^ (lane % 4)) }) n
  refine ⟨_, e, State.asksFor_of (parking := false) ?_ ?_ ?_ (fun j hj => ?_)
    (State.unparkAll_keeps rfl (State.updLink_keeps rfl (Or.inl rfl) (startChange_keeps rfl (Keeps.refl _ s))))⟩
  · rw [change, State.link_updLink, startChange_link]
  · rw [reqId, State.link_updLink, startChange_link]
  · rw [out, State.link_updLink, startChange_link]
  · rw [State.unparkAll_link_other _ hj, State.link_updLink_other _ _ hj, startChange_link_other _ _ _ _ hj]

/-! ### What a control slot carries (R28, R42, R47) -/

section
variable {l : LinkSt} {board now : Nat} (up : l.isUp = true) (span : l.downUntil ≤ now) (slot : l.alignSlot now = false)
include up span slot

theorem LinkSt.nextCtl_asking {ch : LaneChange} (asking : l.asking = some ch) (empty : l.ctlOut = []) :
    l.nextCtl board now =
      some { ctype := 4, body := mkBody [(1, ch.reqId.toNat), (1, ch.mask.toNat), (1, b2n ch.emergency)] } := by
  unfold LinkSt.nextCtl
  simp only [Nat.not_lt.2 span, up, slot, asking, empty, Bool.not_true, Bool.false_and, Bool.false_eq_true, if_false]
  rfl

theorem LinkSt.nextCtl_queued {o : CtlOut} {rest : List CtlOut} (queue : l.ctlOut = o :: rest) : l.nextCtl board now = some o := by
  unfold LinkSt.nextCtl
  simp only [Nat.not_lt.2 span, up, slot, queue, Bool.not_true, Bool.false_and, Bool.false_eq_true, if_false]

/-- The block that waits in front leaves, stamped. -/
theorem LinkSt.sendCtl_queued {o : CtlOut} {rest : List CtlOut} (ao : Nat) (queue : l.ctlOut = o :: rest) :
    l.sendCtl board ao now =
      (let p := LinkSt.stamped { l with ctlOut := rest } o ao
       { p.1 with
         ctlLast := some p.2, ackSent := l.rxNext, seenSent := l.seenSent || (o.ctype == ctHello && l.gotHello) }) := by
  unfold LinkSt.sendCtl
  rw [LinkSt.nextCtl_queued up span slot queue]
  simp only [queue, List.head?_cons, if_true, List.drop_succ_cons, List.drop_zero]

theorem LinkSt.sendCtl_effect {o : CtlOut} {rest : List CtlOut} (ao : Nat) (queue : l.ctlOut = o :: rest) :
    (l.sendCtl board ao now).ctlOut = rest ∧
    (o.ctype = 8 → (l.sendCtl board ao now).ctlLast = some { o with
      body := mkBody [(2, bodyField o.body 0 2), (10, bodyField o.body 2 10), (10, aoStamp ao)] }) ∧
    (o.ctype = 7 → (l.sendCtl board ao now).exch = l.exch.map (fun e => (e.1, BitVec.ofNat 80 (aoStamp ao))) ∧
      (l.sendCtl board ao now).ctlLast = some { o with body := mkBody [(2, bodyField o.body 0 2), (10, aoStamp ao)] }) := by
  rw [LinkSt.sendCtl_queued up span slot ao queue]
  unfold LinkSt.stamped
  refine ⟨?_, fun q => ?_, fun q => ?_⟩
  · dsimp only
    split_ifs
    all_goals rfl
  · simp [q, ctTimeReq, ctTimeResp]
  · simp [q, ctTimeReq]

end

/-! ### Time exchanges (R47) -/

theorem timeReq_effect {s : State} {n : Nat} {c : Ctl} (hn : n < 48) (hc : ctlOk 7 c = true) (up : (s.link n).isUp = true)
    (cap : bitAt (s.link n).caps.toNat 3 = true) :
    ∃ t, exec (.timeReq n c) s = .next t ∧
      (t.link n).ctlOut = { ctype := 8, body := mkBody [(2, bodyField c.body 0 2), (10, aoStamp s.time.ao), (10, 0)] } ::
        (s.link n).ctlOut ∧
      s.frame t [.links, .slices, .linkFace] := by
  have e : execTimeReq n c s = .next ((s.heard n c).queueFirst n ctTimeResp
      (mkBody [(2, bodyField c.body 0 2), (10, aoStamp s.time.ao), (10, 0)])) := by
    refine (congrArg Host.Outcome.next (State.control_up _ hn hc up)).trans ?_
    simp only [State.heard_isUp, up, State.heard_caps, cap, State.heard_at_time, Bool.and_self, if_true]
  refine ⟨_, e, ?_, (execTimeReq_keeps (M := 268435524) rfl (Keeps.refl _ s)).frame e rfl⟩
  rw [State.queueFirst_link, State.heard_ctlOut]
  rfl

/-- The state with an exchange over and the link's offset recorded. -/
def State.timed (s : State) (n : Nat) (off : Int) : State :=
  { s.updLink n fun l => { l with exch := none } with
    time := { s.time with linkOffset := s.time.linkOffset.set 0 n off } }

/-- A change of time alone. -/
theorem Keeps.setTime {m : Nat} {s t : State} (h : Keeps m s t) (v : TimeSt) (hm : m.testBit 14 = true) :
    Keeps m s { t with time := v } := by
  refine ⟨fun p hp => State.same_trans (h.1 p hp) ?_, fun w => h.2.1 w, fun w => h.2.2 w⟩
  cases p
  case time => exact absurd (hm.symm.trans hp) Bool.true_eq_false.mp
  case linkFace | stallFace => exact fun _ => rfl
  all_goals rfl

theorem State.timed_keeps (s : State) (n : Nat) (off : Int) : Keeps 268451844 s (s.timed n off) :=
  (State.updLink_keeps rfl (Or.inl rfl) (Keeps.refl _ s)).setTime _ rfl

theorem State.timed_exch (s : State) (n : Nat) (off : Int) : ((s.timed n off).link n).exch = none :=
  congrArg LinkSt.exch (State.link_updLink s n fun l => { l with exch := none })

theorem State.timed_linkOffset (s : State) (n : Nat) (off : Int) : (s.timed n off).time.linkOffset.get 0 n = off :=
  Tbl.get_set_same s.time.linkOffset 0 n off

theorem State.timed_ao (s : State) (n : Nat) (off : Int) : (s.timed n off).time.ao = s.time.ao := rfl

/-- The offset of R47 in ps: half of (T2 − T1) − (T4 − T3), less the link's asymmetry. -/
def State.timeOffset (s : State) (n : Nat) (t1 : BitVec 80) (b : BitVec 176) : Int :=
  ((stampNs (bodyField b 2 10) - stampNs t1.toNat : Int) - (s.time.ao - stampNs (bodyField b 12 10))) * 500
    - signed (s.reg (kTimeAsymmetry n)) 32

theorem State.heard_timeOffset (s : State) (n : Nat) (c : Ctl) (t1 : BitVec 80) (b : BitVec 176) :
    (s.heard n c).timeOffset n t1 b = s.timeOffset n t1 b := by
  unfold State.timeOffset
  rw [State.heard_at_time, State.heard_reg]

/-- A TIME_RESP that ends its exchange; without TIME_SOURCE 1 AO_TIME is not disciplined by it. -/
theorem execTimeResp_answers {s : State} {n : Nat} {c : Ctl} {xid : BitVec 16} {t1 : BitVec 80} (hn : n < 48)
    (hc : ctlOk 8 c = true) (up : (s.link n).isUp = true) (exch : (s.link n).exch = some (xid, t1))
    (id : xid.toNat = bodyField c.body 0 2) (free : s.reg kTimeSource ≠ 1) :
    execTimeResp n c s = .next ((s.heard n c).timed n ((s.heard n c).timeOffset n t1 c.body)) := by
  refine (congrArg Host.Outcome.next (State.control_up _ hn hc up)).trans ?_
  have free' (k : Option Nat) : ¬((s.heard n c).reg kTimeSource = 1 ∧ k = some n) := by
    rintro ⟨q, _⟩
    exact free ((s.heard_reg n c kTimeSource).symm.trans q)
  generalize hh : s.heard n c = h at free'
  have exch' : (h.link n).exch = some (xid, t1) := by rw [← hh, State.heard_exch, exch]
  simp only [exch', id, if_true]
  exact congrArg Host.Outcome.next (if_neg (free' _))

theorem timeResp_effect {s : State} {n : Nat} {c : Ctl} {xid : BitVec 16} {t1 : BitVec 80} (hn : n < 48)
    (hc : ctlOk 8 c = true) (up : (s.link n).isUp = true) (exch : (s.link n).exch = some (xid, t1))
    (id : xid.toNat = bodyField c.body 0 2) (free : s.reg kTimeSource ≠ 1) :
    ∃ t, exec (.timeResp n c) s = .next t ∧ (t.link n).exch = none ∧
      t.time.linkOffset.get 0 n = s.timeOffset n t1 c.body ∧
      t.time.ao = s.time.ao ∧ s.frame t [.links, .slices, .linkFace, .time] := by
  have e := execTimeResp_answers hn hc up exch id free
  rw [State.heard_timeOffset] at e
  have k : Keeps 268451908 s ((s.heard n c).timed n (s.timeOffset n t1 c.body)) :=
    Keeps.then (Keeps.then (Keeps.refl _ s) (s.heard_keeps n c) rfl) (State.timed_keeps _ n _) rfl
  have fr : s.frame ((s.heard n c).timed n (s.timeOffset n t1 c.body)) [.links, .slices, .linkFace, .time] := k.frame rfl
  exact ⟨_, e, State.timed_exch _ _ _, State.timed_linkOffset _ _ _,
    (State.timed_ao _ _ _).trans (congrArg TimeSt.ao (s.heard_at_time n c)), fr⟩

theorem timeExchDiscard_effect {s : State} {n : Nat} (h : (s.link n).exch.isSome = true) :
    ∃ t, exec (.timeExchDiscard n) s = .next t ∧ t.link n = { s.link n with exch := none } ∧
      (∀ j, j ≠ n → t.link j = s.link j) ∧ s.frame t [.links, .linkFace] := by
  have e : execTimeExchDiscard n s = .next (s.updLink n fun l => { l with exch := none }) :=
    congrArg Host.Outcome.next (if_pos h)
  exact ⟨_, e, State.link_updLink _ _ _, fun j hj => State.link_updLink_other s _ hj,
    (execTimeExchDiscard_keeps (M := 268435460) rfl (Keeps.refl _ s)).frame e rfl⟩

/-- One exchange begun on a link: the next XID, and a TIME_REQ that waits. -/
def State.startExchange (s : State) (n : Nat) : State :=
  (s.updLink n fun l => { l with
    xid := (s.link n).xid + 1, exch := some ((s.link n).xid + 1, BitVec.ofNat 80 (aoStamp s.time.ao)) }).queueCtl n ctTimeReq
      (mkBody [(2, ((s.link n).xid + 1).toNat), (10, aoStamp s.time.ao)])

theorem startExchanges_eq_foldl (l : List Nat) (s : State) : startExchanges l s = l.foldl State.startExchange s := by
  induction l generalizing s with
  | nil => rfl
  | cons n r ih => exact ih _

theorem State.startExchange_link_other (s : State) {j n : Nat} (h : j ≠ n) : (s.startExchange n).link j = s.link j := by
  unfold State.startExchange
  rw [State.queueCtl_link_other _ _ _ _ h, State.link_updLink_other _ _ h]

theorem timeExchInitiate_effect {s : State} {n : Nat} (source : s.reg kTimeSource = 1) (hn : n < 48)
    (chosen : bitAt (s.reg kTimeLinks) n = true) (up : (s.link n).isUp = true) (cap : bitAt (s.link n).caps.toNat 3 = true) :
    ∃ t, exec .timeExchInitiate s = .next t ∧ (t.link n).xid = (s.link n).xid + 1 ∧
      (t.link n).exch = some ((s.link n).xid + 1, BitVec.ofNat 80 (aoStamp s.time.ao)) ∧
      (t.link n).ctlOut.map (·.ctype) = (s.link n).ctlOut.map (·.ctype) ++ [7] ∧ s.frame t [.links, .linkFace] := by
  have e : execTimeExchInitiate s = .next (startExchanges s.timeLinks s) := congrArg Host.Outcome.next (if_pos source)
  have fr := (execTimeExchInitiate_keeps (M := 268435460) rfl (Keeps.refl _ s)).frame e (ps := [.links, .linkFace]) rfl
  refine ⟨_, e, ?_⟩
  have mem : n ∈ s.timeLinks := by
    unfold State.timeLinks
    rw [List.mem_filter]
    exact ⟨List.mem_range.2 hn, by rw [chosen, up, cap]; rfl⟩
  have nodup : s.timeLinks.Nodup := List.nodup_range.filter _
  have begun : (startExchanges s.timeLinks s).link n = (s.startExchange n).link n := by
    rw [startExchanges_eq_foldl]
    refine foldl_of_step_at (P := fun t : State => t.link n = s.link n ∧ t.time = s.time)
      (Q := fun t : State => t.link n = (s.startExchange n).link n) nodup mem (fun a k p o => ?_)
      (fun a p => ?_) (fun a k q o => ?_) ⟨rfl, rfl⟩
    · exact ⟨(a.startExchange_link_other o.symm).trans p.1, p.2⟩
    · unfold State.startExchange
      rw [State.queueCtl_link, State.queueCtl_link, State.link_updLink, State.link_updLink, p.1, p.2]
    · exact (a.startExchange_link_other o.symm).trans q
  unfold State.startExchange at begun
  rw [State.queueCtl_link, State.link_updLink] at begun
  rw [begun]
  exact ⟨rfl, rfl, by simp [ctTimeReq], fr⟩

/-- Settles O8, a lemma for each clause. -/
theorem linkControlRuns : Obligations.LinkControlRuns := by
  unfold Obligations.LinkControlRuns
  refine ⟨fun s n c hn hc h => hello_effect hn hc h, fun s n lane hl h => laneFails_effect hl h,
    ⟨fun s n c hn hc up change lanes => laneReq_fresh_effect hn up hc lanes change rfl rfl,
      fun s n c ch hn hc up change mine waits tx rx lanes =>
        laneReq_crossing_effect hn up hc lanes change mine waits tx rfl rx rfl,
      fun s n c ch hn hc up change mine waits rx id => laneAccept_effect hn up hc change mine waits rx id,
      fun s n c ch hn hc up change => laneSwitch_effect hn up hc change,
      fun s n ch change planned => laneChangeAbandon_effect change planned,
      fun s n lane errors i m em up h => ?_,
      fun l ch board now asking up span slot empty => LinkSt.nextCtl_asking up span slot asking empty⟩,
    fun s n c hn hc up cap => timeReq_effect hn hc up cap,
    fun l o rest board ao now queue up span slot => LinkSt.sendCtl_effect up span slot ao queue,
    fun s n c xid t1 hn hc up exch id free => timeResp_effect hn hc up exch id free,
    fun s n source hn chosen up cap => timeExchInitiate_effect source hn chosen up cap,
    fun s n h => timeExchDiscard_effect h⟩
  have asked : ∃ t, exec i s = .next t ∧ s.asksFor t n m em := by
    rcases h with ⟨rfl, rfl, hm, can, bit, on, above, lanes⟩ | ⟨rfl, rfl, hl, can, cap, bit, free, hm, wider⟩ |
      ⟨rfl, rfl, bit, hm, lanes⟩
    · exact laneDropBer_effect hm can bit on above lanes
    · exact laneAdd_effect hl up can cap bit free hm wider
    · exact laneLoss_effect up bit hm lanes
  obtain ⟨t, e, ⟨ch, change, mask, mine, emergency, waits, tx, rx, reqId, id, asking, out⟩, others, fr⟩ := asked
  exact ⟨t, e, ch, change, mask, mine, emergency, waits, tx, rx, reqId, id, asking, out, others, fr⟩

end Sys2Proof.Machine
end

section
/-! SUPPORT. Attaches (03 R64, R71): what an accepted one leaves in its stall, its shaper and its registers, and that a refused one leaves
its code alone. -/

namespace Sys2Proof.Machine

/-- The stall that an attach takes, before its capabilities are those of its links (R71). -/
def State.seated (s : State) (st : Nat) : StallSt := { s.stall st with
  phase := .attached, epoch := (s.stall st).epoch + 1, host := s.reg kAttachHost
  linkSet := (s.stall st).linkSet ||| s.hostLinks (s.reg kAttachHost), caps := 0, next := 0, firstSeen := true
  ahead := [], held := [], tags := [], advances := s.advanced (s.stall st).advances, crierQ := [], wasFenced := false }

/-- Of the stalls' faces an attach changes that of the stall it takes. -/
theorem State.attachStall_face (s : State) (st j : Nat) : ((s.attachStall st).stall j).face =
    if j = st then { (s.seated st).face with caps := (s.updStall st fun _ => s.seated st).capsOver st }
    else (s.stall j).face := by
  unfold State.attachStall
  dsimp only
  rw [State.crier_stallFace, State.tellStall_face, State.updShaper_at_stall, State.recomputeCaps_face]
  split
  · rw [State.stall_updStall]
    simp only [State.capsOver, State.liveLinks, State.capsOn, State.stall_updStall]
    rfl
  · next o => rw [State.stall_updStall_other _ _ o]

/-- What a state whose stalls' faces an attach has left reads in the attached stall, and in the others. -/
theorem State.attachStall_reads {s t : State} {st : Nat}
    (h : ∀ j, (t.stall j).face = ((s.attachStall st).stall j).face) :
    (t.stall st).phase = .attached ∧ (t.stall st).epoch = (s.stall st).epoch + 1 ∧
    (t.stall st).host = s.reg kAttachHost ∧
    (t.stall st).linkSet = (s.stall st).linkSet ||| s.hostLinks (s.reg kAttachHost) ∧
    (t.stall st).next = 0 ∧ (t.stall st).ahead = [] ∧ (t.stall st).held = [] ∧ (t.stall st).tags = [] ∧
    ∀ j, j ≠ st → (t.stall j).face = (s.stall j).face := by
  have own := (h st).trans ((s.attachStall_face st st).trans (if_pos rfl))
  refine ⟨?_, ?_, ?_, ?_, ?_, ?_, ?_, ?_, fun j o => (h j).trans ((s.attachStall_face st j).trans (if_neg o))⟩
  · exact (congrArg StallSt.phase own : (t.stall st).face.phase = _)
  · exact (congrArg StallSt.epoch own : (t.stall st).face.epoch = _)
  · exact (congrArg StallSt.host own : (t.stall st).face.host = _)
  · exact (congrArg StallSt.linkSet own : (t.stall st).face.linkSet = _)
  · exact (congrArg StallSt.next own : (t.stall st).face.next = _)
  · exact (congrArg StallSt.ahead own : (t.stall st).face.ahead = _)
  · exact (congrArg StallSt.held own : (t.stall st).face.held = _)
  · exact (congrArg StallSt.tags own : (t.stall st).face.tags = _)

theorem State.attachStall_epoch (s : State) (st : Nat) :
    ((s.attachStall st).stall st).epoch = (s.stall st).epoch + 1 :=
  (State.attachStall_reads fun _ => rfl).2.1

theorem State.tellStall_shaper (s : State) (st j : Nat) : (s.tellStall st).shaper j = s.shaper j :=
  congrArg (fun x => Tbl.get x ({} : Shaper) j)
    ((State.tellStall_keeps (M := 4456452) rfl (Keeps.refl _ s)).1 .shapers rfl)

/-- Both credits of an attached stall are 0 (12 R247). -/
theorem State.attachStall_credits (s : State) (st : Nat) :
    ((s.attachStall st).shaper st).creditIn = 0 ∧ ((s.attachStall st).shaper st).creditOut = 0 := by
  unfold State.attachStall
  dsimp only
  rw [State.crier_at_shaper, State.tellStall_shaper, State.shaper_updShaper]
  exact ⟨rfl, rfl⟩

/-- The ledger entry of a frame moves nothing that an attach is decided by. -/
theorem State.logged_attachCheck (s : State) (f : Frame) (q : Ask) (a : Ans) :
    (s.logged f q a).attachCheck = s.attachCheck := by
  simp only [State.attachCheck, State.attachTarget, State.mayAdvance, State.recent, State.logged_at_stall,
    State.logged_stalls, State.logged_at_reg, State.logged_time] <;> rfl

theorem State.logged_hostLinks (s : State) (f : Frame) (q : Ask) (a : Ans) (host : Nat) :
    (s.logged f q a).hostLinks host = s.hostLinks host := by
  simp only [State.hostLinks, State.logged_at_link]

theorem actAttach_taken {s : State} {st v : Nat} (h : s.attachCheck = (0, st)) : (actAttach v s).1 =
    (s.attachStall st).setReg kAttachResult (((s.attachStall st).stall st).epoch.toNat * 2 ^ 16 + st) := by
  unfold actAttach
  rw [h]
  rfl

theorem actAttach_refused {s : State} {r st v : Nat} (h : s.attachCheck = (r + 1, st)) :
    (actAttach v s).1 = s.setReg kAttachResult ((r + 1) * 2 ^ 24) := by
  unfold actAttach
  rw [h]
  rfl

/-- Settles O19: an attach by what its check answers. -/
theorem stallsAttach : Obligations.StallsAttach := by
  unfold Obligations.StallsAttach
  intro s f v h
  refine ⟨_, rfl, fun st taken => ?_, fun r st refused => ?_,
    (execAttach_keeps (M := 545062942) rfl (Keeps.refl _ s)).frame rfl rfl⟩
  · rw [State.write_accepts _ h, actAttach_taken ((s.logged_attachCheck _ _ _).trans taken), State.attachStall_epoch,
      State.logged_at_stall]
    generalize (actAttach v s).2 = a
    obtain ⟨phase, epoch, host, links, next, ahead, held, tags, others⟩ := State.attachStall_reads (st := st) fun j =>
      State.answered_face ((State.attachStall (s.logged f (askWrite kAttachGo 1 v) a) st).setReg kAttachResult
        (((s.stall st).epoch + 1).toNat * 2 ^ 16 + st)) f (askWrite kAttachGo 1 v) a j
    refine ⟨phase, ?_, ?_, ?_, next, ahead, held, tags, ?_, ?_, ?_, fun j o => ?_⟩
    · rw [epoch, State.logged_at_stall]
    · rw [host, State.logged_at_reg]
    · rw [links, State.logged_at_stall, State.logged_at_reg, State.logged_hostLinks]
    · rw [State.answered_at_reg, State.reg_setReg]
    · rw [State.answered_at_shaper, State.setReg_at_shaper, (State.attachStall_credits _ st).1]
    · rw [State.answered_at_shaper, State.setReg_at_shaper, (State.attachStall_credits _ st).2]
    · rw [others j o, State.logged_at_stall]
  · rw [State.write_accepts _ h, actAttach_refused ((s.logged_attachCheck _ _ _).trans refused)]
    refine ⟨?_, fun j => ?_⟩
    · rw [State.answered_at_reg, State.reg_setReg]
    · rw [State.answered_face, State.setReg_at_stall, State.logged_at_stall]

end Sys2Proof.Machine
end

section
/-! SUPPORT. Admitted requests (03 R54, R65): from the checks to the slice, the tracker entry that a request takes there, and the work of
its units on arrival. -/

namespace Sys2Proof.Machine

/-! ### From the checks to the slice -/

/-- A request that passes every check is served in the state in which it has entered. -/
theorem request_served {s : State} {st : Nat} {op : ReqOp} {r : Req} {i : Instr} (request : requestOf i = some (op, r))
    (h : s.takes st op r) : exec i s = .next ((s.entered st op r).serve st op r) := by
  obtain ⟨order, on, formed, rights⟩ := h
  obtain ⟨e, board⟩ := request_goesOn request order on
  rw [e, State.checkRights_rights (State.entered_sramOk st op r order.sramOk) board formed, if_pos rights]

theorem State.takes.sramOk {s : State} {st : Nat} {op : ReqOp} {r : Req} (h : s.takes st op r) :
    (s.entered st op r).sramOk := by
  obtain ⟨order, _⟩ := h
  exact State.entered_sramOk st op r order.sramOk

/-- The opcodes whose work outside coherent windows is done unit by unit on arrival. -/
abbrev unitOps : List ReqOp := [.read, .write, .writeMasked, .atomic, .flush, .invalidate]

/-- The slice of a request's address. -/
def State.reqHome (s : State) (r : Req) : Nat := (s.sliceOf (s.localOff r)).1

/-- A request's tracker entry before its outcome is known, with the key slot that it uses and room for the units it reads. -/
def State.freshTrk (s : State) (st : Nat) (op : ReqOp) (r : Req) : Trk := { newTrk st op r with
  slot := if op.usesKey then some (s.slotOf (s.localOff r)) else none
  units := if op == .read || op == .cohRead then List.replicate r.len 0 else [] }

/-- The entry with all its units to do. -/
def State.todoTrk (s : State) (st : Nat) (op : ReqOp) (r : Req) : Trk := { s.freshTrk st op r with
  waits := s.flushWaits st op r, todo := upTo (unitCount op r) }

/-- What the units of a request outside coherent windows leave: the state, and the entry with their outcomes. -/
def State.unitsOf (s : State) (st : Nat) (op : ReqOp) (r : Req) : State × Trk :=
  (s.touch (s.localOff r)).unitsDo (s.todoTrk st op r) (upTo (unitCount op r))

section
variable {s : State} {st : Nat} {op : ReqOp} {r : Req}

theorem State.serve_running (m : op ∈ unitOps) (run : (s.slice (s.reqHome r)).stopped = false) :
    s.serve st op r = s.begin st op r := by
  have served (home : s.reqSlice op r = some (s.reqHome r)) : (match s.reqSlice op r with
      | some n => if (s.slice n).stopped then s.replyStopped st op r else s.begin st op r
      | none => s) = s.begin st op r := by
    rw [home]
    exact if_neg (by rw [run]; exact Bool.false_ne_true)
  simp only [unitOps, List.mem_cons, List.not_mem_nil, or_false] at m
  rcases m with rfl | rfl | rfl | rfl | rfl | rfl
  all_goals exact served rfl

/-- 08 R177: a WRITE for whose lines snapshots have no room takes its entry, and nothing else. -/
theorem State.begin_noRoom (full : s.writeRoom r = false) :
    s.begin st .write r = s.track (s.reqHome r) { s.freshTrk st .write r with status := .retryBusy } := by
  unfold State.begin
  exact if_pos (by rw [full]; rfl)

theorem State.begin_units (m : op ∈ unitOps) (ram : s.sramOk) (room : op = .write → s.writeRoom r = true)
    (plain : (s.reqEntry r).coherent = false) :
    s.begin st op r = (s.unitsOf st op r).1.track (s.reqHome r)
      { (s.unitsOf st op r).2 with result := (s.unitsOf st op r).2.finalResult, todo := [] } := by
  have pass : (op == .write && !s.writeRoom r) = false := by
    by_cases w : op = .write
    · rw [room w, Bool.not_true, Bool.and_false]
    · simp [w]
  unfold State.begin
  extract_lets off slice src base d w0 x
  split
  · simp [unitOps] at m
  · simp [unitOps] at m
  · simp [unitOps] at m
  · have home : (s.reqSlice op r).getD 0 = s.reqHome r := by
      simp only [unitOps, List.mem_cons, List.not_mem_nil, or_false] at m
      rcases m with rfl | rfl | rfl | rfl | rfl | rfl <;> rfl
    have same : x = s := State.readFrame_ok ram _ _ _
    clear_value x
    subst same
    rw [pass, if_neg Bool.false_ne_true, ← home]
    exact if_neg (by rw [plain]; exact Bool.false_ne_true)

end

/-! ### Tracker entries -/

/-- Waking a slice moves its parking alone. -/
theorem State.wakeSlice_slice (s : State) (n j : Nat) :
    ∃ park wanted, (s.wakeSlice n).slice j = { s.slice j with park := park, wakeWanted := wanted } := by
  have same : ∃ park wanted, s.slice j = { s.slice j with park := park, wakeWanted := wanted } := ⟨_, _, rfl⟩
  unfold State.wakeSlice
  split
  · rw [State.slice_updSlice_if]
    split
    · next q => rw [q]; exact ⟨_, _, rfl⟩
    · exact same
  · rw [State.slice_updSlice_if]
    split
    · next q => rw [q]; exact ⟨_, _, rfl⟩
    · exact same
  · exact same

theorem State.wakeSlice_tracker (s : State) (n j : Nat) : ((s.wakeSlice n).slice j).tracker = (s.slice j).tracker := by
  obtain ⟨park, wanted, e⟩ := s.wakeSlice_slice n j
  rw [e]

section
variable (s : State) (n : Nat) (t : Trk)

theorem State.track_chans : (s.track n t).chans = s.chans :=
  (State.track_keeps (M := 1096351808) rfl (Keeps.refl _ s)).1 .chans rfl

/-- The entry joins its slice's tracker under the next number. -/
theorem State.track_tracker :
    ((s.track n t).slice n).tracker = (s.slice n).tracker ++ [{ t with id := (s.slice n).nextId }] := by
  unfold State.track
  dsimp only
  refine (State.wakeSlice_tracker _ n n).trans ?_
  cases t.slot
  all_goals
    simp only [State.beginUse, State.count_at_slice, State.updKey_at_slice, State.slice_updSlice]
    rfl

/-- It waits at the slice's input port, for the link it came in on. -/
theorem State.track_inWait :
    (s.track n t).xbar.inWait.get [] n = s.xbar.inWait.get [] n ++ [(t.req.link, (s.slice n).nextId)] := by
  unfold State.track
  dsimp only
  rw [Tbl.get_upd_same, State.wakeSlice_at_xbar]
  cases t.slot <;> rfl

end

/-! ### The units of a request -/

@[simp] theorem Trk.unitDone_req (t : Trk) (u : Nat) (st : Status) (d : Line) : (t.unitDone u st d).req = t.req := rfl
@[simp] theorem Trk.unitDone_op (t : Trk) (u : Nat) (st : Status) (d : Line) : (t.unitDone u st d).op = t.op := rfl
@[simp] theorem Trk.withHseq_req (t : Trk) (h : Option Nat) : (t.withHseq h).req = t.req := rfl
@[simp] theorem Trk.withHseq_op (t : Trk) (h : Option Nat) : (t.withHseq h).op = t.op := rfl

/-- A unit's outcome leaves its entry's request and opcode. -/
theorem State.unitModify_trk (s : State) (t : Trk) (u : Nat) (f : Line → Line) :
    (s.unitModify t u f).2.1.req = t.req ∧ (s.unitModify t u f).2.1.op = t.op := by
  unfold State.unitModify
  dsimp only
  split <;> exact ⟨rfl, rfl⟩

theorem State.unitDo_trk (s : State) (t : Trk) (u : Nat) :
    (s.unitDo t u).2.req = t.req ∧ (s.unitDo t u).2.op = t.op := by
  unfold State.unitDo
  split
  · exact ⟨rfl, rfl⟩
  · unfold State.unitWrite
    dsimp only
    split_ifs <;> exact ⟨rfl, rfl⟩
  · exact s.unitModify_trk t 0 _
  · exact s.unitModify_trk t 0 _
  · exact ⟨rfl, rfl⟩
  · exact s.unitModify_trk t 0 _
  · exact ⟨rfl, rfl⟩

theorem State.unitsDo_trk (l : List Nat) (s : State) (t : Trk) :
    (s.unitsDo t l).2.req = t.req ∧ (s.unitsDo t l).2.op = t.op := by
  induction l generalizing s t with
  | nil => exact ⟨rfl, rfl⟩
  | cons u l ih =>
    obtain ⟨req, op⟩ := ih (s.unitDo t u).1 (s.unitDo t u).2
    obtain ⟨req', op'⟩ := s.unitDo_trk t u
    exact ⟨req.trans req', op.trans op'⟩

theorem State.unitsOf_keeps (s : State) (st : Nat) (op : ReqOp) (r : Req) :
    Keeps 3780968700 (s.entered st op r) ((s.entered st op r).unitsOf st op r).1 :=
  State.unitsDo_keeps rfl (State.touch_keeps rfl (Keeps.refl _ _))

/-- Settles O11: the entry that an admitted request takes, by whether snapshots have room for it. -/
theorem ordinaryRequestsDoTheirUnits : Obligations.OrdinaryRequestsDoTheirUnits := by
  unfold Obligations.OrdinaryRequestsDoTheirUnits
  intro s st op r i request takes m u off n b run
  have e := request_served request takes
  rw [State.serve_running m run] at e
  have entered : Keeps 3780968700 s u := s.entered_keeps st op r rfl
  refine ⟨_, e, fun w full => ?_, fun room plain => ?_, fun o => ?_⟩
  · subst w
    rw [State.begin_noRoom full]
    exact ⟨State.track_tracker _ _ _, State.track_chans _ _ _, State.track_inWait _ _ _⟩
  · rw [State.begin_units m takes.sramOk room plain]
    refine ⟨State.track_tracker _ _ _, State.track_chans _ _ _, (State.track_inWait _ _ _).trans ?_⟩
    rw [show Trk.req _ = r from (State.unitsDo_trk _ _ _).1]
    rfl
  · by_cases full : op = .write ∧ u.writeRoom r = false
    · obtain ⟨rfl, full⟩ := full
      rw [State.begin_noRoom full]
      exact (State.track_keeps rfl entered).frame rfl
    · have room : op = .write → u.writeRoom r = true := fun w => by
        simpa using fun q => full ⟨w, q⟩
      rw [State.begin_units m takes.sramOk room (o.resolve_left full)]
      exact (State.track_keeps rfl (entered.after (s.unitsOf_keeps st op r))).frame rfl

end Sys2Proof.Machine
end

section
/-! SUPPORT. Doorbells (08 R159, R160, R182): the launch that one queues, the standing parameters that one replaces, and the slot of the
completed-tag cache that records it. -/

namespace Sys2Proof.Machine

/-- A frame that holds of all but repair, where repair is as it was. -/
theorem Keeps.frame_of_repair {m : Nat} {s t : State} (h : Keeps m s t) (e : t.repair = s.repair) {ps : List Part}
    (hm : (Part.all.all fun p => !m.testBit p.place || decide (p ∈ Part.repair :: Part.repairFace :: ps)) = true) :
    s.frame t ps := by
  intro p hp
  by_cases r : p = .repair ∨ p = .repairFace
  · rcases r with rfl | rfl
    · exact e
    · exact congrArg RepairSt.face e
  · rw [not_or] at r
    exact h.frame hm p (by simp [r, hp])

/-! ### Launches -/

/-- The launch that a head queues: its number, and its barrow's configuration as it stands (08 R182). -/
def State.newLaunch (s : State) (head : Nat) (kind : LaunchKind) (host : Nat) (params : List Nat) : Launch where
  seq := ((s.barrow head).launchSeq + 1) % 2 ^ 32
  kind := kind
  host := host
  params := params
  base := (s.barrow head).base
  last := (s.barrow head).last
  notify := (s.barrow head).notify
  cqOrder := (s.barrow head).cqOrder
  cqBase := (s.barrow head).cqBase
  budget := s.reg kDescBudget
  gang := (s.barrow head).gang && head / 512 == s.firstSlice
  tenant := (s.barrow head).tenant
  owner := (s.barrow head).owner
  active := s.reg kActivePrograms

/-- Members take a launch number, and their queues stay. -/
theorem foldl_launchSeq_queue (seq head : Nat) (l : List Nat) (s : State) :
    ((l.foldl (fun (a : State) m => (a.updBarrow m fun b => { b with launchSeq := seq }).count .barrow m 0) s).barrow
      head).queue = (s.barrow head).queue := by
  induction l generalizing s with
  | nil => rfl
  | cons m l ih =>
    rw [List.foldl_cons, ih, State.count_at_barrow, State.barrow_updBarrow_if]
    split
    · next q => rw [q]
    · rfl

/-- A head whose queue has room takes the launch at its end (08 R155). -/
theorem State.queueLaunch_room {s : State} {head : Nat} (kind : LaunchKind) (host : Nat) (params : List Nat)
    (room : (s.barrow head).queue.length < 16) :
    (s.queueLaunch head kind host params).2 = some (s.newLaunch head kind host params).seq ∧
    ((s.queueLaunch head kind host params).1.barrow head).queue =
      (s.barrow head).queue ++ [s.newLaunch head kind host params] := by
  unfold State.queueLaunch
  dsimp only
  rw [if_neg (Nat.not_le.2 room)]
  refine ⟨rfl, ?_⟩
  rw [foldl_launchSeq_queue, State.barrow_updBarrow]
  rfl

/-! ### Tag records -/

/-- A record changes its stall's cache in the slot of its tag. -/
theorem State.recordTag_stall (s : State) (st : Nat) (tag : BitVec 16) (op : Nat) (status : Status) (result : BitVec 64) :
    (s.recordTag st tag op status result).stall st = { s.stall st with
      tags := (s.stall st).tags.set {} (tag.toNat % 4096)
        { valid := true, tag := tag, opcode := op, status := status, result := result } } :=
  State.stall_updStall (s.sramWrite 0x09 8 (st * 4096 + tag.toNat % 4096)) st fun x => { x with
    tags := x.tags.set {} (tag.toNat % 4096)
      { valid := true, tag := tag, opcode := op, status := status, result := result } }

theorem State.recordTag_slot (s : State) (st : Nat) (tag : BitVec 16) (op : Nat) (status : Status) (result : BitVec 64) :
    ((s.recordTag st tag op status result).stall st).slot tag =
      ({ valid := true, tag := tag, opcode := op, status := status, result := result } : TagSlot) := by
  rw [State.recordTag_stall, StallSt.slot, Tbl.get_set_same]

theorem State.recordTag_at_barrow (s : State) (st : Nat) (tag : BitVec 16) (op : Nat) (status : Status)
    (result : BitVec 64) (j : Nat) : (s.recordTag st tag op status result).barrow j = s.barrow j := rfl

theorem State.recordTag_repair {s : State} (ram : s.sramOk) (st : Nat) (tag : BitVec 16) (op : Nat) (status : Status)
    (result : BitVec 64) : (s.recordTag st tag op status result).repair = s.repair := by
  unfold State.recordTag
  rw [State.sramWrite_ok ram]
  rfl

theorem State.track_repair {s : State} (ram : s.sramOk) (n : Nat) (t : Trk) : (s.track n t).repair = s.repair := by
  unfold State.track
  dsimp only
  rw [State.sramWrite_ok ram]
  refine (State.wakeSlice_keeps (M := 20971584) rfl (Keeps.refl _ _)).1 .repair rfl |>.trans ?_
  cases t.slot <;> rfl

theorem State.track_at_barrow (s : State) (n : Nat) (t : Trk) (j : Nat) : (s.track n t).barrow j = s.barrow j :=
  congrArg (fun x => Tbl.get x ({} : Barrow) j)
    ((State.track_keeps (M := 1096351808) rfl (Keeps.refl _ s)).1 .barrows rfl)

theorem State.track_at_stall (s : State) (n : Nat) (t : Trk) (j : Nat) : (s.track n t).stall j = s.stall j :=
  congrArg (fun x => Tbl.get x ({} : StallSt) j)
    ((State.track_keeps (M := 1096351808) rfl (Keeps.refl _ s)).1 .stalls rfl)

/-! ### The doorbell in its slice -/

theorem State.serve_doorbell {s : State} {st : Nat} {r : Req} (run : (s.slice (r.addr.toNat % 4096 / 512)).stopped = false) :
    s.serve st .doorbell r = (s.doorbellDo st r).1.track (r.addr.toNat % 4096 / 512) (s.doorbellDo st r).2 :=
  if_neg (by rw [run]; exact Bool.false_ne_true)

theorem State.doorbellDo_standing {s : State} {st : Nat} {r : Req} (m : r.mod = 1) : (s.doorbellDo st r).1 =
    (s.updBarrow (s.headOf (r.addr.toNat % 4096)) fun b => { b with standing := paramsOf r }).recordTag st r.tag 0x20
      .ok 0 := by
  unfold State.doorbellDo
  dsimp only
  rw [if_pos m]

/-- The parameters of a DOORBELL's launch: its own, or the standing ones (08 R159, R160). -/
abbrev State.doorbellParams (s : State) (r : Req) : List Nat :=
  if r.len = 1 then paramsOf r else (s.barrow (s.headOf (r.addr.toNat % 4096))).standing

theorem State.doorbellDo_launch {s : State} {st : Nat} {r : Req} (m : r.mod = 0)
    (room : (s.barrow (s.headOf (r.addr.toNat % 4096))).queue.length < 16) : (s.doorbellDo st r).1 =
    (s.queueLaunch (s.headOf (r.addr.toNat % 4096)) .doorbell r.host (s.doorbellParams r)).1.recordTag st r.tag 0x20 .ok
      (BitVec.ofNat 64 (s.newLaunch (s.headOf (r.addr.toNat % 4096)) .doorbell r.host (s.doorbellParams r)).seq) := by
  obtain ⟨seq, _⟩ := State.queueLaunch_room .doorbell r.host (s.doorbellParams r) room
  have queued : s.queueLaunch (s.headOf (r.addr.toNat % 4096)) .doorbell r.host (s.doorbellParams r) = (_, some _) :=
    Prod.ext rfl seq
  unfold State.doorbellDo
  dsimp only
  rw [if_neg (by omega), queued]

theorem State.queueLaunch_repair (s : State) (head : Nat) (kind : LaunchKind) (host : Nat) (params : List Nat) :
    (s.queueLaunch head kind host params).1.repair = s.repair :=
  (State.queueLaunch_keeps (M := 4195328) rfl (Keeps.refl _ s)).1 .repair rfl

theorem State.doorbellDo_repair {s : State} (ram : s.sramOk) (st : Nat) (r : Req) :
    (s.doorbellDo st r).1.repair = s.repair := by
  unfold State.doorbellDo
  dsimp only
  split
  · exact State.recordTag_repair (s := s.updBarrow _ _) ram _ _ _ _ _
  · have launched := s.queueLaunch_repair (s.headOf (r.addr.toNat % 4096)) .doorbell r.host (s.doorbellParams r)
    split
    · next s1 n q =>
      rw [q] at launched
      exact (State.recordTag_repair (s := s1) (by rw [State.sramOk, launched]; exact ram) _ _ _ _ _).trans launched
    · next s1 q =>
      rw [q] at launched
      exact launched

/-! ### A request that has entered -/

theorem State.entered_at_barrow (s : State) (st : Nat) (op : ReqOp) (r : Req) (j : Nat) :
    (s.entered st op r).barrow j = s.barrow j :=
  congrArg (fun x => Tbl.get x ({} : Barrow) j) ((s.entered_keeps (M := 541065240) st op r rfl).1 .barrows rfl)

theorem State.entered_reg (s : State) (st : Nat) (op : ReqOp) (r : Req) (k : Nat) :
    (s.entered st op r).reg k = s.reg k := by
  unfold State.reg
  rw [(s.entered_keeps (M := 541065240) st op r rfl).1 .dict rfl]

theorem State.entered_firstSlice (s : State) (st : Nat) (op : ReqOp) (r : Req) :
    (s.entered st op r).firstSlice = s.firstSlice := by
  unfold State.firstSlice State.servingSlices State.slice
  rw [(s.entered_keeps (M := 541065240) st op r rfl).1 .slices rfl]

theorem State.newLaunch_entered (s : State) (st : Nat) (op : ReqOp) (r : Req) (head : Nat) (kind : LaunchKind)
    (host : Nat) (params : List Nat) :
    (s.entered st op r).newLaunch head kind host params = s.newLaunch head kind host params := by
  simp only [State.newLaunch, State.entered_at_barrow, State.entered_reg, State.entered_firstSlice]

theorem State.headOf_congr {s t : State} (e : t.barrows = s.barrows) (f : t.slices = s.slices) (b : Nat) :
    t.headOf b = s.headOf b := by
  unfold State.headOf State.firstSlice State.servingSlices State.slice State.barrow
  rw [e, f]

/-- A doorbell that passes every check finds room in its barrow's queue, where it launches. -/
theorem State.takes.launchRoom {s : State} {st : Nat} {r : Req} (h : s.takes st .doorbell r) (m : r.mod = 0) :
    ((s.entered st .doorbell r).barrow ((s.entered st .doorbell r).headOf (r.addr.toNat % 4096))).queue.length < 16 := by
  obtain ⟨_, ⟨_, _, _, _, _, _, busy⟩, _⟩ := h
  have full : (s.arrived st .doorbell r).doorbellBusy r = false := by
    simp only [State.busyNow, Bool.or_eq_false_iff] at busy
    exact busy.2
  have entered := s.entered_keeps (M := 541065240) st .doorbell r rfl
  rw [State.entered_at_barrow, State.headOf_congr (s := s) (entered.1 .barrows rfl) (entered.1 .slices rfl)]
  simp only [State.doorbellBusy, m, beq_self_eq_true, Bool.true_and, Bool.or_eq_false_iff, decide_eq_false_iff_not,
    Nat.not_le] at full
  exact full.2

/-- What a doorbell that launches leaves in its barrow and its stall's cache. -/
theorem State.serve_doorbell_launch {s : State} {st : Nat} {r : Req} (m : r.mod = 0)
    (run : (s.slice (r.addr.toNat % 4096 / 512)).stopped = false)
    (room : (s.barrow (s.headOf (r.addr.toNat % 4096))).queue.length < 16) :
    let head := s.headOf (r.addr.toNat % 4096)
    let l := s.newLaunch head .doorbell r.host (s.doorbellParams r)
    ((s.serve st .doorbell r).barrow head).queue = (s.barrow head).queue ++ [l] ∧
    ((s.serve st .doorbell r).stall st).slot r.tag = ({
      valid := true, tag := r.tag, opcode := 0x20, status := .ok, result := BitVec.ofNat 64 l.seq } : TagSlot) := by
  dsimp only
  rw [State.serve_doorbell run, State.track_at_barrow, State.track_at_stall, State.doorbellDo_launch m room,
    State.recordTag_at_barrow, State.recordTag_slot]
  exact ⟨(State.queueLaunch_room .doorbell r.host (s.doorbellParams r) room).2, rfl⟩

/-- What one that sets the standing parameters leaves there. -/
theorem State.serve_doorbell_standing {s : State} {st : Nat} {r : Req} (m : r.mod = 1)
    (run : (s.slice (r.addr.toNat % 4096 / 512)).stopped = false) :
    let head := s.headOf (r.addr.toNat % 4096)
    (s.serve st .doorbell r).barrow head = { s.barrow head with standing := paramsOf r } ∧
    ((s.serve st .doorbell r).stall st).slot r.tag =
      ({ valid := true, tag := r.tag, opcode := 0x20, status := .ok, result := 0 } : TagSlot) := by
  dsimp only
  rw [State.serve_doorbell run, State.track_at_barrow, State.track_at_stall, State.doorbellDo_standing m,
    State.recordTag_at_barrow, State.recordTag_slot, State.barrow_updBarrow]
  exact ⟨rfl, rfl⟩

theorem State.serve_doorbell_frame {s : State} {st : Nat} {r : Req} (h : s.takes st .doorbell r)
    (run : ((s.entered st .doorbell r).slice (r.addr.toNat % 4096 / 512)).stopped = false) :
    s.frame ((s.entered st .doorbell r).serve st .doorbell r)
      [.stalls, .stallFace, .shapers, .slices, .barrows, .xbar, .pair, .sec, .secFace, .obs, .clock] := by
  have rang := State.doorbellDo_repair h.sramOk st r
  have ram : ((s.entered st .doorbell r).doorbellDo st r).1.sramOk := by
    rw [State.sramOk, rang]
    exact h.sramOk
  have entered := s.entered_keeps (M := 1633485912) st .doorbell r rfl
  rw [State.serve_doorbell run]
  refine Keeps.frame_of_repair (State.track_keeps rfl (State.doorbellDo_keeps rfl entered)) ?_ rfl
  rw [State.track_repair ram, rang]
  exact (s.entered_keeps (M := 541065240) st .doorbell r rfl).1 .repair rfl

/-- Settles O14, by the MOD of the doorbell. -/
theorem doorbellsQueueLaunches : Obligations.DoorbellsQueueLaunches := by
  unfold Obligations.DoorbellsQueueLaunches
  intro s st r i request h u head run
  refine ⟨_, request_served request h, fun m => ?_, fun m => ?_, State.serve_doorbell_frame h run⟩
  · obtain ⟨queue, slot⟩ := State.serve_doorbell_launch (st := st) m run (h.launchRoom m)
    have params : u.doorbellParams r = if r.len = 1 then paramsOf r else (s.barrow head).standing := by
      rw [State.doorbellParams, State.entered_at_barrow]
    rw [State.newLaunch_entered, params] at slot
    rw [State.newLaunch_entered, State.entered_at_barrow, params] at queue
    exact ⟨_, queue, rfl, rfl, rfl, rfl, rfl, rfl, rfl, rfl, rfl, rfl, rfl, slot⟩
  · obtain ⟨barrow, slot⟩ := State.serve_doorbell_standing (st := st) m run
    exact ⟨barrow.trans (by rw [State.entered_at_barrow]), slot⟩

end Sys2Proof.Machine
end

section
/-! SUPPORT. The reorder stage and the responses of the slices (03 R59 to R62, R65, R67, R73): how a held packet is admitted, how a tag is
skipped, and where a finished request's entry goes. -/

namespace Sys2Proof.Machine

/-! ### Tracker entries by number -/

/-- A change that keeps numbers is seen by the entry it changes alone. -/
theorem SliceSt.trk_updTrk (x : SliceSt) (id j : Nat) {f : Trk → Trk} (keep : ∀ t, (f t).id = t.id) :
    (x.updTrk id f).trk j = (x.trk j).map fun t => if j = id then f t else t := by
  have numbers : ((fun t : Trk => t.id == j) ∘ fun t => if t.id == id then f t else t) = fun t => t.id == j := by
    funext t
    simp only [Function.comp_apply]
    split <;> simp [keep]
  unfold SliceSt.trk SliceSt.updTrk
  rw [List.find?_map, numbers]
  cases found : x.tracker.find? fun t => t.id == j with
  | none => rfl
  | some t =>
    have number : t.id = j := by simpa using List.find?_some found
    simp [number]

theorem SliceSt.trk_stage {x : SliceSt} {id : Nat} {e : Trk} (entry : x.trk id = some e) (stage : TrkStage) :
    (x.updTrk id fun t => { t with stage := stage }).trk id = some { e with stage := stage } := by
  rw [x.trk_updTrk id id (f := fun t => { t with stage := stage }) fun _ => rfl, entry, Option.map_some, if_pos rfl]

theorem SliceSt.trk_updTrk_other (x : SliceSt) {id j : Nat} {f : Trk → Trk} (keep : ∀ t, (f t).id = t.id) (o : j ≠ id) :
    (x.updTrk id f).trk j = x.trk j := by
  simp [SliceSt.trk_updTrk x id j keep, o]

theorem SliceSt.trk_dropTrk_same (x : SliceSt) (id : Nat) : (x.dropTrk id).trk id = none := by
  simp [SliceSt.trk, SliceSt.dropTrk]

theorem SliceSt.trk_dropTrk_other (x : SliceSt) {id j : Nat} (o : j ≠ id) : (x.dropTrk id).trk j = x.trk j := by
  unfold SliceSt.trk SliceSt.dropTrk
  rw [List.find?_filter]
  refine List.find?_congr fun t _ => ?_
  by_cases same : t.id = j <;> simp [same, o]

/-! ### Responses that are discarded, held or sent -/

/-- The drain counts of a freed entry move no slice but its own, and there the entry's marks alone. -/
theorem State.drainMarks_slice (s : State) (k id : Nat) : (s.drainMarks k id).slice k = s.slice k ∨
    (s.drainMarks k id).slice k = (s.slice k).updTrk id fun t => { t with marks := [] } := by
  have counted (l : List Nat) (x : State) :
      (l.foldl (fun a m => a.updRevoke m fun r => { r with drained := r.drained + 1 }) x).slice k = x.slice k := by
    induction l generalizing x with
    | nil => rfl
    | cons m l ih => exact ih _
  unfold State.drainMarks
  split
  · exact Or.inl rfl
  · refine Or.inr ?_
    rw [State.slice_updSlice, counted]

/-- A discarded response leaves its entry free, and the other entries and the egress of its slice as they were. -/
theorem State.discardTrk_slice (s : State) (st k id : Nat) :
    ((s.discardTrk st k id).slice k).trk id = none ∧ ((s.discardTrk st k id).slice k).egress = (s.slice k).egress ∧
    ∀ j, j ≠ id → ((s.discardTrk st k id).slice k).trk j = (s.slice k).trk j := by
  have freed : (s.discardTrk st k id).slice k = ((s.drainMarks k id).slice k).dropTrk id := by
    unfold State.discardTrk State.freeTrk
    rw [State.count_at_slice, State.slice_updSlice]
  rw [freed]
  refine ⟨SliceSt.trk_dropTrk_same _ id, ?_, fun j o => (SliceSt.trk_dropTrk_other _ o).trans ?_⟩
  · rcases s.drainMarks_slice k id with e | e <;> rw [e] <;> rfl
  · rcases s.drainMarks_slice k id with e | e <;> rw [e]
    exact SliceSt.trk_updTrk_other _ (fun _ => rfl) o

/-- A packet joins the end of its slice's egress, and moves no entry. -/
theorem State.egressPush_slice (s : State) (k : Nat) (p : EgPkt) :
    ((s.egressPush k p).slice k).egress = (s.slice k).egress ++ [p] ∧
    ∀ j, ((s.egressPush k p).slice k).trk j = (s.slice k).trk j := by
  unfold State.egressPush
  dsimp only
  split
  · rw [State.slice_updSlice]
    exact ⟨rfl, fun _ => rfl⟩
  · unfold State.placeFlow
    simp only [State.slice_updSlice]
    split_ifs <;> exact ⟨rfl, fun _ => rfl⟩

section
variable {s : State} {k id : Nat} {e : Trk} (entry : (s.slice k).trk id = some e)
include entry

/-- A finished request whose writes are acknowledged and whose waits are over is answered (R65, R18). -/
theorem responseReady_responds (stage : e.stage = .done) (covered : s.halCovered e.hseq = true)
    (waits : s.waitsOver e = true) (ram : s.sramOk) : exec (.sliceResponseReady k id) s = .next (s.respond k id) := by
  have go : execSliceResponseReady k id s = .next (s.respond k id) := by
    unfold execSliceResponseReady
    rw [entry]
    dsimp only
    rw [if_neg (by simp [stage, covered, waits]), State.readTrk_ok ram]
  exact go

theorem State.respond_silenced (q : s.silenced e.stall = true) : s.respond k id = s.discardTrk e.stall k id := by
  unfold State.respond
  rw [entry]
  exact if_pos q

theorem State.respond_held (q : s.silenced e.stall = false) (links : s.liveLinks e.stall = []) :
    s.respond k id = s.updSlice k fun x => x.updTrk id fun t => { t with stage := .heldResp } := by
  unfold State.respond
  rw [entry]
  dsimp only
  rw [q, if_neg Bool.false_ne_true, if_pos links]

theorem State.respond_sent (q : s.silenced e.stall = false) (links : s.liveLinks e.stall ≠ []) :
    s.respond k id = (s.updSlice k fun x => x.updTrk id fun t => { t with stage := .egress }).egressPush k {
      stall := e.stall, tc := e.req.tc, origin := .slice k id, msg := .resp (e.resp (s.trkLoad k e)) } := by
  unfold State.respond
  rw [entry]
  dsimp only
  rw [q, if_neg Bool.false_ne_true, if_neg links]

end

/-! ### The reorder stage -/

theorem State.nextHeld_held {s : State} {st : Nat} {p : ReqOp × Req} (h : s.nextHeld st = some p) :
    (s.stall st).held ≠ [] := by
  intro none
  simp [State.nextHeld, none] at h

/-- With no packet that may go, a release changes nothing. -/
theorem State.release_none {s : State} {st : Nat} (h : s.nextHeld st = none) (n : Nat) : s.release st n = s := by
  cases n with
  | zero => rfl
  | succ n => rw [State.release, h]

/-- With one that may go it comes to admission, and the others have their turn. -/
theorem State.release_some {s : State} {st : Nat} {op : ReqOp} {r : Req} (h : s.nextHeld st = some (op, r)) :
    State.release st (s.stall st).held.length s = State.release st ((s.stall st).held.length - 1)
      ((s.updStall st fun x => { x with held := x.held.filter fun h => h.2.tag != r.tag }).enter st op r) := by
  obtain ⟨n, len⟩ := Nat.exists_eq_succ_of_ne_zero (mt List.length_eq_zero_iff.1 (State.nextHeld_held h))
  rw [len, State.release, h]
  rfl

/-- A packet at admission that every check passes is charged and served. -/
theorem State.enter_served {s : State} {st : Nat} {op : ReqOp} {r : Req} (phase : (s.stall st).phase = .attached)
    (on : s.goesOn st op r) (formed : wellFormedReq op r = true) (ram : s.sramOk)
    (rights : (s.chargeIn st (28 + 64 * r.payload.length)).rightsOf op r = .ok) :
    s.enter st op r = (s.chargeIn st (28 + 64 * r.payload.length)).serve st op r := by
  obtain ⟨u, _, role, gap, pass, board, room⟩ := on
  have ram' : (s.chargeIn st (28 + 64 * r.payload.length)).sramOk :=
    (State.chargeIn_keeps (M := 4194320) rfl (Keeps.refl _ _)).2.2 ram
  rw [State.enter_charged u phase role pass gap (Or.inr room),
    State.checkRights_rights ram' ((s.chargeIn_wrongBoard _ _ _ _).trans board) formed, if_pos rights]

/-! ### A tag that is skipped (R62) -/

theorem advanceNext_absent {n : BitVec 16} {l : List (BitVec 16)} (h : n ∉ l) (k : Nat) : advanceNext k n l = (n, l) := by
  cases k with
  | zero => rfl
  | succ k => rw [advanceNext, if_neg (by simpa using h)]

/-- The arrival of N moves it by one, where its successor has not arrived. -/
theorem StallSt.arrive_next {x : StallSt} (h : x.next ∉ x.ahead) (h' : x.next + 1 ∉ x.ahead) :
    (x.arrive x.next).next = x.next + 1 := by
  have here : behind x.next x.next = false := by simp [behind]
  have later : x.next + 1 ∉ (x.next :: x.ahead).filter (· ≠ x.next) := by simpa using h'
  unfold StallSt.arrive
  simp only [here, Bool.false_eq_true, if_false, List.contains_iff_mem, h, List.length_cons]
  rw [advanceNext, if_pos (by simp), advanceNext_absent later]

/-- An arrival moves N and what stands ahead of it alone. -/
theorem StallSt.arrive_tags (x : StallSt) (t : BitVec 16) : (x.arrive t).tags = x.tags := by
  unfold StallSt.arrive
  split <;> rfl

theorem StallSt.arrive_held (x : StallSt) (t : BitVec 16) : (x.arrive t).held = x.held := by
  unfold StallSt.arrive
  split <;> rfl

theorem StallSt.arrive_next_of_tags (x : StallSt) (tags : Tbl TagSlot) (t : BitVec 16) :
    ({ x with tags := tags }.arrive t).next = (x.arrive t).next := by
  unfold StallSt.arrive
  dsimp only
  split <;> rfl

/-- The state in which tag N has been skipped. -/
def State.skipped (s : State) (st : Nat) : State :=
  ((s.recordTag st (s.stall st).next 0 .timeout 0).updStall st fun x => x.arrive x.next).count .stall st 37

theorem State.skipped_stall (s : State) (st : Nat) : (s.skipped st).stall st = { s.stall st with
    tags := (s.stall st).tags.set {} ((s.stall st).next.toNat % 4096) {
      valid := true, tag := (s.stall st).next, opcode := 0, status := .timeout, result := 0 } }.arrive
        (s.stall st).next := by
  unfold State.skipped
  rw [State.count_at_stall, State.stall_updStall, State.recordTag_stall]

theorem State.skipped_frame (s : State) (st : Nat) : s.frame (s.skipped st) [.stalls, .stallFace, .pair, .repair, .obs] :=
  (State.count_keeps (M := 541851656) rfl (State.updStall_keeps rfl (Or.inl rfl)
    (State.recordTag_keeps rfl (Keeps.refl _ s)))).frame rfl

/-- REORDER_TIMEOUT_EXPIRY with a later tag arrived: N is skipped, held packets go on, and REORDER_SKIP is raised. -/
theorem reorderTimeout_skips {s : State} {st : Nat} (phase : (s.stall st).phase = .attached)
    (ahead : (s.stall st).ahead ≠ []) : exec (.reorderTimeoutExpiry st) s =
    .next ((State.release st (s.stall st).held.length (s.skipped st)).crier 8 0x07 st (s.stall st).next.toNat
      [(s.stall st).host]) :=
  congrArg Host.Outcome.next (if_pos ⟨phase, ahead⟩)

theorem State.skipped_reads (s : State) (st : Nat) :
    (((s.skipped st).stall st).tags.get {} ((s.stall st).next.toNat % 4096) = ({
      valid := true, tag := (s.stall st).next, opcode := 0, status := .timeout, result := 0 } : TagSlot)) ∧
    ((s.skipped st).stall st).next = ((s.stall st).arrive (s.stall st).next).next ∧
    ((s.skipped st).stall st).held = (s.stall st).held := by
  rw [State.skipped_stall]
  refine ⟨?_, StallSt.arrive_next_of_tags _ _ _, ?_⟩
  · rw [StallSt.arrive_tags, Tbl.get_set_same]
  · rw [StallSt.arrive_held]

theorem State.skipped_tally (s : State) (st : Nat) :
    s.tallyOf .stall st 37 + 1 = (s.skipped st).tallyOf .stall st 37 := by
  unfold State.skipped
  rw [State.tallyOf_count]
  rfl

/-! ### The statement, by command -/

/-- REORDER_RELEASE with a packet that may go, where every check passes. -/
theorem reorderRelease_effect {s u : State} {st : Nat} {op : ReqOp} {r : Req} (next : s.nextHeld st = some (op, r))
    (left : u = s.updStall st (fun x => { x with held := x.held.filter fun h => h.2.tag != r.tag }))
    (phase : (u.stall st).phase = .attached) (on : u.goesOn st op r) (formed : wellFormedReq op r = true) (ram : s.sramOk)
    (rights : (u.chargeIn st (28 + 64 * r.payload.length)).rightsOf op r = .ok) :
    ∃ t, exec (.reorderRelease st) s = .next t ∧ s.frame t [.dict, .links, .stalls, .stallFace, .shapers, .pitch,
      .slices, .chans, .snoops, .nextTag, .barrows, .trees, .time, .gates, .xbar, .pair, .repair, .repairFace, .sec,
      .secFace, .obs, .clock] ∧
      t = State.release st ((s.stall st).held.length - 1) ((u.chargeIn st (28 + 64 * r.payload.length)).serve st op r) := by
  refine ⟨_, rfl, (execReorderRelease_keeps (M := 3781023742) rfl (Keeps.refl _ s)).frame rfl rfl, ?_⟩
  rw [State.release_some next, ← left, State.enter_served phase on formed (by rw [left]; exact ram) rights]

/-- REORDER_TIMEOUT_EXPIRY, and what the skipped tag leaves. -/
theorem reorderTimeout_effect {s : State} {st : Nat} (phase : (s.stall st).phase = .attached)
    (ahead : (s.stall st).ahead ≠ []) :
    ∃ u t, exec (.reorderTimeoutExpiry st) s = .next t ∧ s.frame t [.dict, .links, .stalls, .stallFace, .shapers, .pitch,
      .slices, .chans, .snoops, .nextTag, .barrows, .trees, .time, .gates, .xbar, .pair, .repair, .repairFace, .sec,
      .secFace, .obs, .clock] ∧
      s.frame u [.stalls, .stallFace, .pair, .repair, .obs] ∧
      (let x := s.stall st
       (u.stall st).tags.get {} (x.next.toNat % 4096) =
         ({ valid := true, tag := x.next, opcode := 0, status := .timeout, result := 0 } : TagSlot) ∧
       (u.stall st).next = (x.arrive x.next).next ∧
       (x.next ∉ x.ahead → x.next + 1 ∉ x.ahead → (u.stall st).next = x.next + 1) ∧
       (u.stall st).held = x.held ∧
       t = (State.release st x.held.length u).crier 8 0x07 st x.next.toNat [x.host] ∧
       s.tallyOf .stall st 37 + 1 = u.tallyOf .stall st 37) := by
  have e := reorderTimeout_skips phase ahead
  obtain ⟨slot, next, held⟩ := s.skipped_reads st
  exact ⟨_, _, e, (execReorderTimeoutExpiry_keeps (M := 3781023742) rfl (Keeps.refl _ s)).frame e rfl,
    s.skipped_frame st, slot, next, fun h h' => next.trans (StallSt.arrive_next h h'), held, rfl, s.skipped_tally st⟩

/-- SLICE_RESPONSE_READY of a finished request, by where its response can go. -/
theorem responseReady_effect {s : State} {k id : Nat} {e : Trk} (entry : (s.slice k).trk id = some e)
    (stage : e.stage = .done) (covered : s.halCovered e.hseq = true) (waits : s.waitsOver e = true) (ram : s.sramOk) :
    let silent := (s.stall e.stall).phase = .fenced ∨ (s.stall e.stall).phase = .detaching ∧
      (s.stall e.stall).wasFenced = true
    ∃ t, exec (.sliceResponseReady k id) s = .next t ∧ s.frame t [.pitch, .slices, .obs] ∧
      (silent → (t.slice k).trk id = none ∧ (t.slice k).egress = (s.slice k).egress) ∧
      (¬ silent → s.liveLinks e.stall = [] →
        (t.slice k).trk id = some { e with stage := .heldResp } ∧ (t.slice k).egress = (s.slice k).egress) ∧
      (¬ silent → s.liveLinks e.stall ≠ [] →
        (t.slice k).trk id = some { e with stage := .egress } ∧
        (t.slice k).egress = (s.slice k).egress ++ [({
          stall := e.stall, tc := e.req.tc, origin := .slice k id, msg := .resp (e.resp (s.trkLoad k e)) } : EgPkt)]) := by
  intro silent
  have silenced : s.silenced e.stall = true ↔ silent := by simp [State.silenced, silent]
  refine ⟨_, responseReady_responds entry stage covered waits ram,
    (State.respond_keeps (M := 4194400) rfl (Keeps.refl _ s)).frame rfl, fun q => ?_, fun q links => ?_, fun q links => ?_⟩
  · rw [State.respond_silenced entry (silenced.2 q)]
    obtain ⟨freed, egress, _⟩ := s.discardTrk_slice e.stall k id
    exact ⟨freed, egress⟩
  · rw [State.respond_held entry (Bool.eq_false_iff.2 (mt silenced.1 q)) links, State.slice_updSlice]
    exact ⟨SliceSt.trk_stage entry _, rfl⟩
  · rw [State.respond_sent entry (Bool.eq_false_iff.2 (mt silenced.1 q)) links]
    obtain ⟨egress, entries⟩ := State.egressPush_slice (s.updSlice k fun x => x.updTrk id fun t => { t with stage := .egress })
      k { stall := e.stall, tc := e.req.tc, origin := .slice k id, msg := .resp (e.resp (s.trkLoad k e)) }
    rw [egress, entries, State.slice_updSlice]
    exact ⟨SliceSt.trk_stage entry _, rfl⟩

/-- RESPONSE_HOLD_EXPIRY of a held response. -/
theorem holdExpiry_effect {s : State} {k id : Nat} {e : Trk} (entry : (s.slice k).trk id = some e)
    (stage : e.stage = .heldResp) :
    ∃ t, exec (.responseHoldExpiry k id) s = .next t ∧ s.frame t [.pitch, .slices, .obs] ∧ (t.slice k).trk id = none ∧
      ∀ j, j ≠ id → (t.slice k).trk j = (s.slice k).trk j := by
  have dropped : execResponseHoldExpiry k id s = .next (s.discardTrk e.stall k id) := by
    unfold execResponseHoldExpiry
    rw [entry]
    exact congrArg Host.Outcome.next (if_pos stage)
  obtain ⟨freed, _, others⟩ := s.discardTrk_slice e.stall k id
  exact ⟨_, dropped, (State.discardTrk_keeps (M := 4194400) rfl (Keeps.refl _ s)).frame rfl, freed, others⟩

/-- Settles O18, a lemma for each command. -/
theorem heldRequestsAndResponsesMoveOn : Obligations.HeldRequestsAndResponsesMoveOn := by
  unfold Obligations.HeldRequestsAndResponsesMoveOn
  exact ⟨fun s st => ⟨fun none => congrArg Host.Outcome.next (State.release_none none _),
      fun op r u next left phase on formed ram rights => reorderRelease_effect next left phase on formed ram rights⟩,
    fun s st phase ahead => reorderTimeout_effect phase ahead,
    fun s k id e entry stage covered waits ram => responseReady_effect entry stage covered waits ram,
    fun s k id e entry stage => holdExpiry_effect entry stage⟩

end Sys2Proof.Machine
end

section
/-! SUPPORT. Stored lines (06 R117 to R119, 05 R92): what reading and writing one changes. Every operation on the way keeps the homes of
all offsets, and changes no served line but those that a set allows. -/

namespace Sys2Proof.Machine

/-! ### One memory unit -/

theorem lookupLine_none {l : List (Nat × SLine)} {a : Nat} (h : ¬ l.any (fun p => p.1 == a) = true) :
    lookupLine l a = none := by
  unfold lookupLine
  rw [List.find?_eq_none.2 fun p m q => h (List.any_eq_true.2 ⟨p, m, q⟩)]
  rfl

theorem lookupLine_append (l : List (Nat × SLine)) (a b : Nat) (v : SLine) :
    lookupLine (l ++ [(b, v)]) a = (lookupLine l a).or (if b = a then some v else none) := by
  unfold lookupLine
  rw [List.find?_append]
  by_cases same : b = a
  · cases l.find? fun p => p.1 == a <;> simp [same]
  · cases l.find? fun p => p.1 == a <;> simp [same]

theorem lookupLine_replace (l : List (Nat × SLine)) (a b : Nat) (v : SLine) :
    lookupLine (l.map fun p => if p.1 == b then (b, v) else p) a =
      if a = b then (lookupLine l a).map fun _ => v else lookupLine l a := by
  have keys : ((fun p : Nat × SLine => p.1 == a) ∘ fun p => if p.1 == b then (b, v) else p) = fun p => p.1 == a := by
    funext p
    simp only [Function.comp_apply, beq_iff_eq]
    split
    · next q => rw [q]
    · rfl
  unfold lookupLine
  rw [List.find?_map, keys]
  cases found : l.find? fun p => p.1 == a with
  | none => simp
  | some p =>
    have key : p.1 = a := by simpa using List.find?_some found
    by_cases same : a = b <;> simp [key, same]

theorem lookupLine_putPair_same (l : List (Nat × SLine)) (a : Nat) (v : SLine) : lookupLine (putPair l a v) a = some v := by
  unfold putPair
  split
  · next h =>
    rw [lookupLine_replace, if_pos rfl]
    obtain ⟨p, m, key⟩ := List.any_eq_true.1 h
    have found : (l.find? fun p => p.1 == a).isSome = true := List.find?_isSome.2 ⟨p, m, key⟩
    unfold lookupLine
    obtain ⟨q, e⟩ := Option.isSome_iff_exists.1 found
    rw [e]
    rfl
  · next h =>
    rw [lookupLine_append, lookupLine_none h, if_pos rfl]
    rfl

theorem lookupLine_putPair_other (l : List (Nat × SLine)) {a b : Nat} (v : SLine) (o : b ≠ a) :
    lookupLine (putPair l a v) b = lookupLine l b := by
  unfold putPair
  split
  · rw [lookupLine_replace, if_neg o]
  · rw [lookupLine_append, if_neg o.symm, Option.or_none]

/-- A line just written is the one that is served. -/
theorem ChanSt.lineAt_setLine_same (c : ChanSt) (a : Nat) (l : SLine) : (c.setLine a l).lineAt a = l := by
  unfold ChanSt.setLine
  split
  · next r q =>
    split_ifs with staged moved
    · simp [ChanSt.lineAt, lookupLine_putPair_same]
    · simp [ChanSt.lineAt, q, lookupLine_none staged, lookupLine_putPair_same]
    · simp [ChanSt.lineAt, q, lookupLine_none staged, lookupLine_none moved]
  · next q =>
    have unstaged : lookupLine [] a = none := rfl
    split_ifs with moved
    · simp [ChanSt.lineAt, q, unstaged, lookupLine_putPair_same]
    · simp [ChanSt.lineAt, q, unstaged, lookupLine_none moved]

/-- The other lines are served as before. -/
theorem ChanSt.lineAt_setLine_other (c : ChanSt) {a b : Nat} (l : SLine) (o : b ≠ a) :
    (c.setLine a l).lineAt b = c.lineAt b := by
  unfold ChanSt.setLine
  split
  · next r q =>
    split_ifs with staged moved
    · simp [ChanSt.lineAt, q, lookupLine_putPair_other _ _ o]
    · simp [ChanSt.lineAt, lookupLine_putPair_other _ _ o]
    · simp [ChanSt.lineAt, Tbl.get_set_other _ _ _ o]
  · next q =>
    split_ifs with moved
    · simp [ChanSt.lineAt, lookupLine_putPair_other _ _ o]
    · simp [ChanSt.lineAt, Tbl.get_set_other _ _ _ o]

/-! ### What keeps homes, and which lines it may change -/

/-- What the home of an offset asks of a frame table entry. -/
def FrameEntry.seat (e : FrameEntry) : FramePhase × Nat := (e.phase, e.region)

/-- From `s` to `t` every offset keeps its home and every request its units' offsets, and no line is served otherwise but those that `L`
has: by unit and line number. -/
structure Stores (L : Nat → Nat → Prop) (s t : State) : Prop where
  foldSlice : t.repair.foldSlice = s.repair.foldSlice
  foldChannel : t.repair.foldChannel = s.repair.foldChannel
  gran : t.pitch.gran = s.pitch.gran
  frames : ∀ n f, ((t.slice n).frames.get {} f).seat = ((s.slice n).frames.get {} f).seat
  window : t.pair.window = s.pair.window
  board : t.board = s.board
  lines : ∀ c k, ¬ L c k → t.unitLine c k = s.unitLine c k

/-- No line at all. -/
abbrev noLine : Nat → Nat → Prop := fun _ _ => False

/-- The line that a home names. -/
def Home.here (h : Home) : Nat → Nat → Prop := fun c k => c = h.unit ∧ k = h.line

theorem Stores.refl (L : Nat → Nat → Prop) (s : State) : Stores L s s :=
  ⟨rfl, rfl, rfl, fun _ _ => rfl, rfl, rfl, fun _ _ _ => rfl⟩

theorem Stores.trans {L : Nat → Nat → Prop} {s t u : State} (h : Stores L s t) (k : Stores L t u) : Stores L s u :=
  ⟨k.foldSlice.trans h.foldSlice, k.foldChannel.trans h.foldChannel, k.gran.trans h.gran,
    fun n f => (k.frames n f).trans (h.frames n f), k.window.trans h.window, k.board.trans h.board,
    fun c a o => (k.lines c a o).trans (h.lines c a o)⟩

theorem Stores.mono {L M : Nat → Nat → Prop} {s t : State} (h : Stores L s t) (le : ∀ c k, L c k → M c k) : Stores M s t :=
  { h with lines := fun c k o => h.lines c k (mt (le c k) o) }

/-- What stores no line stores none but those of any set. -/
theorem Stores.of_noLine {L : Nat → Nat → Prop} {s t : State} (h : Stores noLine s t) : Stores L s t :=
  h.mono fun _ _ f => f.elim

/-! ### Homes that are kept -/

section
variable {L : Nat → Nat → Prop} {s t : State} (h : Stores L s t)
include h

theorem Stores.sliceOf (off : Nat) : t.sliceOf off = s.sliceOf off := by
  unfold State.sliceOf
  rw [h.foldSlice, h.gran]

theorem Stores.chanOf (slice q : Nat) : t.chanOf slice q = s.chanOf slice q := by
  unfold State.chanOf
  rw [h.foldChannel, h.gran]

theorem Stores.farHome (off : Nat) : t.farHome off = s.farHome off := by
  unfold State.farHome
  rw [h.sliceOf]
  dsimp only
  rw [h.chanOf]

theorem Stores.framePhase (n f : Nat) :
    ((t.slice n).frames.get {} f).phase = ((s.slice n).frames.get {} f).phase := congrArg Prod.fst (h.frames n f)

theorem Stores.frameRegion (n f : Nat) :
    ((t.slice n).frames.get {} f).region = ((s.slice n).frames.get {} f).region := congrArg Prod.snd (h.frames n f)

theorem Stores.frameOf (n region : Nat) : (t.slice n).frameOf region = (s.slice n).frameOf region := by
  unfold SliceSt.frameOf
  simp only [h.framePhase, h.frameRegion]

theorem Stores.home (off : Nat) : t.home off = s.home off := by
  unfold State.home
  simp only [h.sliceOf, h.farHome, h.frameOf, h.framePhase]

theorem Stores.unitOff (r : Req) (u : Nat) : t.unitOff r u = s.unitOff r u := by
  unfold State.unitOff State.localOff
  rw [h.board, h.window]

theorem Stores.movedPage (off : Nat) : t.movedPage off = s.movedPage off := by
  unfold State.movedPage
  rw [h.foldSlice, h.foldChannel]

end

/-- Where no line is stored and repair is as before, every offset reads as before. -/
theorem Stores.stored {s t : State} (h : Stores noLine s t) (e : t.repair = s.repair) (off : Nat) :
    t.stored off = s.stored off := by
  have line (c k : Nat) : t.unitLine c k = s.unitLine c k := h.lines c k not_false
  unfold State.stored State.at State.farLine State.movedForm
  simp only [h.home, h.movedPage, h.farHome, line, e]

/-! ### Operations that store no line -/

/-- What leaves registers, pitches, slices, channels, the pairing and the folds alone stores nothing. -/
theorem Stores.of_keeps {m : Nat} {s t : State} (h : Keeps m s t)
    (hm : ([.dict, .pitch, .slices, .chans, .pair, .repairFace].all fun p : Part => !m.testBit p.place) = true) :
    Stores noLine s t := by
  simp only [List.all_cons, List.all_nil, Bool.and_true, Bool.and_eq_true, Bool.not_eq_true'] at hm
  obtain ⟨dict, pitch, slices, chans, pair, face⟩ := hm
  have fold : t.repair.face = s.repair.face := h.1 .repairFace face
  have slice (n : Nat) : t.slice n = s.slice n := congrArg (fun x : Tbl SliceSt => x.get {} n) (h.1 .slices slices)
  exact {
    foldSlice := (congrArg RepairSt.foldSlice fold :)
    foldChannel := (congrArg RepairSt.foldChannel fold :)
    gran := congrArg PitchSt.gran (h.1 .pitch pitch)
    frames := fun n f => by rw [slice]
    window := congrArg PairSt.window (h.1 .pair pair)
    board := congrArg (fun d : Tbl Nat => d.get (dfltOf kBoardNumber) kBoardNumber) (h.1 .dict dict)
    lines := fun c k _ => congrArg (fun x : Tbl ChanSt => (x.get {} c).lineAt k) (h.1 .chans chans) }

section
variable (s : State) (n : Nat)

theorem Stores.count (g : Group) (inst row amount : Nat) : Stores noLine s (s.count g inst row amount) :=
  ⟨rfl, rfl, rfl, fun _ _ => rfl, rfl, rfl, fun _ _ _ => rfl⟩

theorem Stores.updSlice (f : SliceSt → SliceSt)
    (hf : ∀ x k, ((f x).frames.get {} k).seat = (x.frames.get {} k).seat) : Stores noLine s (s.updSlice n f) where
  foldSlice := rfl
  foldChannel := rfl
  gran := rfl
  frames j k := by
    rw [State.slice_updSlice_if]
    split
    · next q => rw [q, hf]
    · rfl
  window := rfl
  board := rfl
  lines _ _ _ := rfl

/-- A frame's change that leaves its seat leaves the seat of every frame. -/
theorem SliceSt.updFrame_seat (x : SliceSt) (f : Nat) (g : FrameEntry → FrameEntry) (hg : ∀ e, (g e).seat = e.seat) (k : Nat) :
    ((x.updFrame f g).frames.get {} k).seat = (x.frames.get {} k).seat := by
  unfold SliceSt.updFrame
  by_cases q : k = f
  · rw [q, Tbl.get_upd_same, hg]
  · rw [Tbl.get_upd_other _ _ _ q]

theorem Stores.updChan {L : Nat → Nat → Prop} (f : ChanSt → ChanSt)
    (hf : ∀ c k, ¬ L n k → (f c).lineAt k = c.lineAt k) : Stores L s (s.updChan n f) where
  foldSlice := rfl
  foldChannel := rfl
  gran := rfl
  frames _ _ := rfl
  window := rfl
  board := rfl
  lines c k o := by
    unfold State.unitLine
    rw [State.chan_updChan_if]
    split
    · next q => rw [q] at o ⊢; exact hf _ _ o
    · rfl

theorem Stores.wakeSlice : Stores noLine s (s.wakeSlice n) where
  foldSlice := by rw [State.wakeSlice_at_repair]
  foldChannel := by rw [State.wakeSlice_at_repair]
  gran := by rw [State.wakeSlice_at_pitch]
  frames j k := by
    obtain ⟨park, wanted, e⟩ := s.wakeSlice_slice n j
    rw [e]
  window := by rw [State.wakeSlice_at_pair]
  board := State.wakeSlice_at_reg _
  lines c k _ := by rw [State.unitLine, State.unitLine, State.wakeSlice_at_chan]

theorem Stores.pipePush (level source what : Nat) : Stores noLine s (s.pipePush n level source what) := by
  unfold State.pipePush
  split_ifs
  · exact Stores.refl _ s
  · exact Stores.updSlice s n _ fun _ _ => rfl
  · exact (Stores.wakeSlice s n).trans (Stores.updSlice _ n _ fun _ _ => rfl)

theorem Stores.maintain (m : MaintOp) : Stores noLine s (s.maintain n m) := by
  unfold State.maintain
  refine Stores.trans ?_ (Stores.pipePush _ _ _ _ _)
  exact Stores.updChan s n _ fun _ _ _ => rfl

theorem Stores.setErrTable (e : Tbl ErrEntry) : Stores noLine s (s.setErrTable n e) := by
  unfold State.setErrTable
  split
  · exact Stores.updSlice s n _ fun _ _ => rfl
  · exact ⟨rfl, rfl, rfl, fun _ _ => rfl, rfl, rfl, fun _ _ _ => rfl⟩

theorem Stores.crier (g : RegionNo) (code unit detail : Nat) (hosts : List Nat) :
    Stores noLine s (s.crier g code unit detail hosts) :=
  .of_keeps (State.crier_keeps rfl (Keeps.refl 4718600 s)) rfl

theorem Stores.logError (e : ErrEntry) : Stores noLine s (s.logError n e) := by
  unfold State.logError
  extract_lets region entry w s1 s2
  have stored : Stores noLine s s1 := Stores.setErrTable s n _
  have counted : Stores noLine s s2 := by
    dsimp only [s2]
    split_ifs
    · exact stored.trans (Stores.count _ _ _ _ _)
    · exact stored.trans (Stores.count _ _ _ _ _)
    · exact stored
  split
  · exact counted
  · exact counted.trans (Stores.crier _ _ _ _ _ _)

theorem Stores.snapKeep (off : Nat) : Stores noLine s (s.snapKeep off) := Stores.updSlice s _ _ fun _ _ => rfl

theorem Stores.markPage (h : Home) : Stores noLine s (s.markPage h) := by
  unfold State.markPage
  split
  · refine Stores.updSlice s _ _ fun x k => SliceSt.updFrame_seat _ _ _ ?_ k
    exact fun _ => rfl
  · exact Stores.refl _ s

theorem Stores.markWritten (off : Nat) : Stores noLine s (s.markWritten off) := by
  unfold State.markWritten
  split <;> exact ⟨rfl, rfl, rfl, fun _ _ => rfl, rfl, rfl, fun _ _ _ => rfl⟩

theorem Stores.touch (off : Nat) : Stores noLine s (s.touch off) := by
  unfold State.touch
  dsimp only
  split
  · split
    · refine Stores.updSlice s _ _ fun x k => SliceSt.updFrame_seat _ _ _ ?_ k
      exact fun _ => rfl
    · exact Stores.refl _ s
  · split_ifs
    · exact Stores.refl _ s
    · exact Stores.updSlice s _ _ fun _ _ => rfl
    · exact Stores.updSlice s _ _ fun _ _ => rfl
    · exact Stores.refl _ s

theorem Stores.queueDram (h : Home) (write : Bool) (level : Nat) : Stores noLine s (s.queueDram h write level) := by
  have woken : Stores noLine s (if level = 5 then s.wakeSlice h.slice else s) := by
    split
    · exact Stores.wakeSlice s _
    · exact Stores.refl _ s
  unfold State.queueDram
  dsimp only
  split
  · exact woken
  · refine woken.trans (Stores.updChan _ _ _ ?_)
    intro c k _
    split_ifs <;> rfl

theorem Stores.transmit (tc : Nat) (origin : Origin) (m : TxMsg) : Stores noLine s (s.transmit n tc origin m) :=
  .of_keeps (State.transmit_keeps rfl (Keeps.refl 4194308 s)) rfl

theorem Stores.halSendOne (hseq : Nat) : Stores noLine s (s.halSendOne hseq) := by
  unfold State.halSendOne
  split
  · exact Stores.refl _ s
  · dsimp only
    split
    · exact Stores.refl _ s
    · refine Stores.trans (t := { s with pair := _ }) ?_ (Stores.transmit _ _ _ _ _)
      exact ⟨rfl, rfl, rfl, fun _ _ => rfl, rfl, rfl, fun _ _ _ => rfl⟩

theorem Stores.foldl {α : Type} {L : Nat → Nat → Prop} {f : State → α → State} (hf : ∀ a x, Stores L a (f a x)) (l : List α) :
    Stores L s (l.foldl f s) := by
  induction l generalizing s with
  | nil => exact Stores.refl L s
  | cons x l ih => exact (hf s x).trans (ih _)

theorem Stores.forward (off : Nat) (l : SLine) : Stores noLine s (s.forward off l).1 := by
  unfold State.forward State.halPush State.halFlush
  split
  · refine Stores.trans (t := { s with pair := _ }) ?_ (Stores.foldl _ (fun a o => Stores.halSendOne a _) _)
    exact ⟨rfl, rfl, rfl, fun _ _ => rfl, rfl, rfl, fun _ _ _ => rfl⟩
  · exact Stores.refl _ s

end

/-! ### Operations that store the line of a home -/

/-- A far-tier home is the offset's far-tier place. -/
theorem State.home_far (s : State) (off : Nat) (far : (s.home off).unit < 32) :
    s.farHome off = ((s.home off).unit, (s.home off).line) := by
  unfold State.home at far ⊢
  dsimp only at far ⊢
  split at far
  · split at far
    · exact absurd far (Nat.not_lt.2 (Nat.le_add_right _ _))
    · next h => rw [if_neg h]
  · rfl

/-- The dates of a channel's errors. -/
theorem Stores.updUeTimes (s : State) (n : Nat) (f : ChanSt → List Nat) :
    Stores noLine s (s.updChan n fun c => { c with ueTimes := f c }) :=
  Stores.updChan s n _ fun _ _ _ => rfl

section
variable {s : State} {off : Nat} {h : Home} (homed : s.home off = h)
include homed

theorem Stores.setAt (l : SLine) : Stores h.here s (s.setAt h off l) := by
  have put : Stores h.here s (s.setUnitLine h.unit h.line l) :=
    Stores.updChan s _ _ fun c k o => c.lineAt_setLine_other l fun e => o ⟨rfl, e⟩
  unfold State.setAt
  split
  · next far =>
    have place : s.farHome off = (h.unit, h.line) := by
      rw [← homed] at far ⊢
      exact s.home_far off far
    unfold State.setFarLine
    dsimp only
    rw [place]
    split
    · exact put.trans ⟨rfl, rfl, rfl, fun _ _ => rfl, rfl, rfl, fun _ _ _ => rfl⟩
    · exact put
  · exact put

theorem Stores.noteUncorrectable (host : Nat) : Stores h.here s (s.noteUncorrectable h off host) := by
  unfold State.noteUncorrectable
  extract_lets code now s1 s2
  have stored : Stores h.here s s1 := (Stores.setAt homed _).trans (Stores.count _ _ _ _ _).of_noLine
  have timed : Stores h.here s s2 := stored.trans (Stores.updUeTimes _ _ _).of_noLine
  exact timed.trans (Stores.logError _ _ _).of_noLine

end

/-- A remapped line stays the only one that reads otherwise. -/
theorem Stores.hardFault (s : State) (h : Home) (off group : Nat) (value : SLine) :
    Stores h.here s (s.hardFault h off group value) := by
  unfold State.hardFault
  dsimp only
  split_ifs
  · exact Stores.refl _ s
  · refine Stores.trans ?_ (((Stores.maintain _ _ _).trans (Stores.logError _ _ _)).of_noLine)
    refine Stores.updChan s _ _ fun c k o => ?_
    have other : k ≠ h.line := fun e => o ⟨rfl, e⟩
    simp only [ChanSt.lineAt, lookupLine_append, if_neg other.symm, Option.or_none, Tbl.get_set_other _ _ _ other]
  · refine (Stores.logError s h.slice _).of_noLine.trans (Stores.updChan _ _ _ ?_)
    exact fun _ _ _ => rfl
  · exact Stores.refl _ s

theorem Stores.verify (s : State) (h : Home) (off group : Nat) (again : BitVec 640) :
    Stores h.here s (s.verify h off group again) := by
  unfold State.verify
  dsimp only
  split
  · exact Stores.refl _ s
  · exact Stores.hardFault s h off _ _

section
variable {s : State} {off : Nat} {h : Home} (homed : s.home off = h)
include homed

theorem Stores.noteCorrected (host g : Nat) : Stores h.here s (s.noteCorrected h off host g) := by
  unfold State.noteCorrected
  extract_lets code s1
  have counted : Stores noLine s s1 := Stores.count s _ _ _ _
  split
  · have back := Stores.setAt ((counted.home off).trans homed) (s1.at h off).corrected
    exact (counted.of_noLine.trans back).trans ((Stores.logError _ _ _).of_noLine.trans (Stores.verify _ h off _ _))
  · exact counted.of_noLine

theorem Stores.note (host : Nat) : Stores h.here s (s.note h off host) := by
  unfold State.note
  dsimp only
  split
  · exact Stores.noteUncorrectable homed host
  · exact (Stores.count s _ _ _ _).of_noLine
  · split
    · exact Stores.noteCorrected homed host _
    · exact Stores.refl _ s

end

section
variable (s : State) (off : Nat)

theorem Stores.readLine (host level : Nat) : Stores (s.home off).here s (s.readLine off host level).1 :=
  (Stores.note rfl host).trans ((Stores.count _ _ _ _ _).trans (Stores.queueDram _ _ _ _)).of_noLine

/-- What follows the store itself. -/
theorem Stores.afterStore (h : Home) (l : SLine) (level : Nat) (t : State) :
    Stores noLine t (((((t.markPage h).markWritten off).count .slice h.slice (h.row true)).queueDram h true level).forward
      off l).1 :=
  (Stores.markPage t h).trans <| (Stores.markWritten _ off).trans <| (Stores.count _ _ _ _ _).trans <|
    (Stores.queueDram _ h true level).trans (Stores.forward _ off l)

theorem Stores.storeLine (l : SLine) (level : Nat) : Stores (s.home off).here s (s.storeLine off l level).1 := by
  have kept : Stores noLine s (s.snapKeep off) := Stores.snapKeep s off
  have put : Stores ((s.snapKeep off).home off).here (s.snapKeep off) ((s.snapKeep off).setStored off l) :=
    Stores.setAt rfl l
  rw [kept.home] at put
  exact (kept.of_noLine.trans put).trans (Stores.afterStore off _ l level _).of_noLine

/-- A line just stored is the one that requests are served from. -/
theorem State.stored_setStored (l : SLine) : (s.setStored off l).stored off = l := by
  have same (c k : Nat) : (s.setUnitLine c k l).unitLine c k = l := by
    unfold State.setUnitLine State.unitLine
    rw [State.chan_updChan, ChanSt.lineAt_setLine_same]
  have put : Stores (s.home off).here s (s.setStored off l) := Stores.setAt rfl l
  unfold State.stored
  rw [put.home]
  unfold State.at
  split
  · next far =>
    have stored : s.setStored off l = s.setFarLine off l := if_pos far
    have formed : (s.setStored off l).movedForm off = none := by
      unfold State.movedForm
      rw [put.movedPage, stored]
      unfold State.setFarLine
      cases moved : s.movedPage off
      · rfl
      · dsimp only
        rw [if_pos rfl, Tbl.get_set_same]
        rfl
    unfold State.farLine
    rw [formed, put.farHome, stored]
    unfold State.setFarLine
    dsimp only
    split
    · exact same _ _
    · exact same _ _
  · next near =>
    have stored : s.setStored off l = s.setUnitLine (s.home off).unit (s.home off).line l := if_neg near
    rw [stored, same]

theorem State.stored_storeLine (l : SLine) (level : Nat) : (s.storeLine off l level).1.stored off = l := by
  have after := Stores.afterStore off (s.home off) l level ((s.snapKeep off).setStored off l)
  have repair : Keeps 8589410303 ((s.snapKeep off).setStored off l) (s.storeLine off l level).1 :=
    State.forward_keeps rfl <| State.queueDram_keeps rfl <| State.count_keeps rfl <| State.markWritten_keeps rfl <|
      State.markPage_keeps rfl <| Keeps.refl _ _
  exact (after.stored (repair.1 .repair rfl) off).trans (State.stored_setStored _ off l)

end

/-! ### Units of requests -/

theorem Stores.readPlain (s : State) (off slot host level : Nat) :
    Stores (s.home off).here s (s.readPlain off slot host level).1 := by
  unfold State.readPlain
  split
  · exact Stores.refl _ s
  · exact Stores.readLine s off host level

theorem Stores.modifyPlain (s : State) (off slot host : Nat) (f : Line → Line) (level : Nat) :
    Stores (s.home off).here s (s.modifyPlain off slot host f level).1 := by
  have read := Stores.readLine s off host level
  unfold State.modifyPlain
  dsimp only
  split
  · exact Stores.refl _ s
  · split
    · have write := Stores.storeLine (s.readLine off host level).1 off
      rw [read.home] at write
      exact read.trans (write _ level)
    · exact read

/-- A line of one of a request's units. -/
def State.unitLines (s : State) (op : ReqOp) (r : Req) (c k : Nat) : Prop :=
  ∃ j, j < unitCount op r ∧ (s.home (s.unitOff r j)).here c k

theorem Stores.unitLines {L : Nat → Nat → Prop} {s t : State} (h : Stores L s t) (op : ReqOp) (r : Req) :
    t.unitLines op r = s.unitLines op r := by
  funext c k
  unfold State.unitLines
  simp only [h.home, h.unitOff]

section
variable (s : State) (t : Trk) (u : Nat)

theorem Stores.unitRead : Stores (s.home (s.unitOff t.req u)).here s (s.unitRead t u).1 := Stores.readPlain s _ _ _ _

theorem Stores.unitWrite (d : Line) : Stores (s.home (s.unitOff t.req u)).here s (s.unitWrite t u d).1 := by
  unfold State.unitWrite State.writePlain
  dsimp only
  split_ifs
  · exact Stores.refl _ s
  · exact Stores.refl _ s
  · exact Stores.storeLine s _ _ _
  · exact Stores.storeLine s _ _ _

theorem Stores.unitModify (f : Line → Line) : Stores (s.home (s.unitOff t.req u)).here s (s.unitModify t u f).1 := by
  unfold State.unitModify
  dsimp only
  split
  · exact Stores.refl _ s
  · exact Stores.modifyPlain s _ _ _ f _

/-- A unit stores to lines of its request. -/
theorem Stores.unitDo (m : u < unitCount t.op t.req) : Stores (s.unitLines t.op t.req) s (s.unitDo t u).1 := by
  have own : ∀ c k, (s.home (s.unitOff t.req u)).here c k → s.unitLines t.op t.req c k := fun _ _ e => ⟨u, m, e⟩
  have first (one : unitCount t.op t.req = 1) :
      ∀ c k, (s.home (s.unitOff t.req 0)).here c k → s.unitLines t.op t.req c k :=
    fun _ _ e => ⟨0, one ▸ Nat.one_pos, e⟩
  unfold State.unitDo
  split
  · exact (Stores.unitRead s t u).mono own
  · exact (Stores.unitWrite s t u _).mono own
  · next e => exact (Stores.unitModify s t 0 _).mono (first (by rw [e]; rfl))
  · next e => exact (Stores.unitModify s t 0 _).mono (first (by rw [e]; rfl))
  · exact (Stores.unitRead s t u).mono own
  · next e => exact (Stores.unitModify s t 0 _).mono (first (by rw [e]; rfl))
  · exact Stores.refl _ s

end

theorem Stores.unitsDo (l : List Nat) (s : State) (t : Trk) (m : ∀ u ∈ l, u < unitCount t.op t.req) :
    Stores (s.unitLines t.op t.req) s (s.unitsDo t l).1 := by
  induction l generalizing s t with
  | nil => exact Stores.refl _ s
  | cons u l ih =>
    obtain ⟨req, op⟩ := s.unitDo_trk t u
    have one := Stores.unitDo s t u (m u List.mem_cons_self)
    have rest := ih (s.unitDo t u).1 (s.unitDo t u).2
    rw [req, op, one.unitLines] at rest
    exact one.trans (rest fun v mv => m v (List.mem_cons_of_mem u mv))

/-- A FLUSH or INVALIDATE has no work of its own at its units. -/
theorem State.unitsDo_flush (l : List Nat) (s : State) (t : Trk) (flush : t.op = .flush ∨ t.op = .invalidate) :
    (s.unitsDo t l).1 = s := by
  induction l generalizing t with
  | nil => rfl
  | cons u l ih =>
    have one : (s.unitDo t u).1 = s := by
      unfold State.unitDo
      rcases flush with e | e <;> rw [e]
    have op := (s.unitDo_trk t u).2
    exact (congrArg (fun a : State => (a.unitsDo (s.unitDo t u).2 l).1) one).trans (ih _ (op ▸ flush))

/-! ### The two statements -/

section
variable {s : State} {off slot : Nat} {old : Line}

/-- A line that reads is merged into and stored. -/
theorem State.modifyPlain_ok (host : Nat) (f : Line → Line) (level : Nat) (up : s.homeDown off = false)
    (plain : s.plainOf off slot (s.stored off).decode = (.ok, old)) :
    (s.modifyPlain off slot host f level).2.1 = .ok ∧ (s.modifyPlain off slot host f level).2.2.1 = old ∧
    (s.modifyPlain off slot host f level).1.stored off = codeword ((s.key slot).seal (s.tweakOf off) (f old)) := by
  have read : s.plainOf off slot (s.readLine off host level).2 = (.ok, old) := plain
  unfold State.modifyPlain
  rw [up, if_neg Bool.false_ne_true]
  dsimp only
  rw [read]
  exact ⟨rfl, rfl, State.stored_storeLine _ off _ level⟩

/-- A unit that merges into such a line: its status, the old line and what its home then holds. -/
theorem State.unitModify_ok {t : Trk} {u : Nat} (f : Line → Line) (up : s.homeDown (s.unitOff t.req u) = false)
    (room : s.snapRoom (s.unitOff t.req u) = true)
    (plain : s.plainOf (s.unitOff t.req u) (s.slotOf (s.unitOff t.req u)) (s.stored (s.unitOff t.req u)).decode = (.ok, old)) :
    (s.unitModify t u f).2.1.status = t.status.join .ok ∧ (s.unitModify t u f).2.2 = old ∧
    (s.unitModify t u f).1.stored (s.unitOff t.req u) =
      codeword ((s.key (s.slotOf (s.unitOff t.req u))).seal (s.tweakOf (s.unitOff t.req u)) (f old)) := by
  obtain ⟨status, answer, stored⟩ := State.modifyPlain_ok t.req.host f 3 up plain
  unfold State.unitModify
  dsimp only
  rw [room, if_neg (by decide)]
  exact ⟨congrArg t.status.join status, answer, stored⟩

end

/-- Settles O13: the one unit of an ATOMIC merges the word that its MOD computes. -/
theorem atomicsComputeTheirResult : Obligations.AtomicsComputeTheirResult := by
  unfold Obligations.AtomicsComputeTheirResult
  intro s t op ok off b up room old plain
  have atomic : s.unitDo t 0 = s.unitAtomic t := by
    unfold State.unitDo
    rw [op]
  have byte : bits t.req.addr.toNat 0 6 = b := by
    unfold bits
    rw [Nat.pow_zero, Nat.div_one]
    rfl
  rw [atomic]
  unfold State.unitAtomic
  rw [byte]
  dsimp only
  obtain ⟨status, answer, stored⟩ := State.unitModify_ok (fun l => setLineWord l b
    (atomicNew t.req.mod (lineWord l b) (lineWord (unitOf t.req 0) 0) (lineWord (unitOf t.req 0) 8))) up room plain
  rw [status, answer, ok]
  refine ⟨rfl, rfl, stored.trans ?_⟩
  refine congrArg codeword (congrArg (KeySlot.seal _ _) (congrArg (setLineWord old b) ?_))
  generalize lineWord old b = x, lineWord (unitOf t.req 0) 0 = y, lineWord (unitOf t.req 0) 8 = z, t.req.mod = n
  simp only [BitVec.ult_iff_lt]
  rcases n with _ | _ | _ | _ | _ | _ | _
  all_goals rfl

theorem State.unitLine_of_chans {s t : State} (e : t.chans = s.chans) (c k : Nat) : t.unitLine c k = s.unitLine c k :=
  congrArg (fun x : Tbl ChanSt => (x.get {} c).lineAt k) e

/-- The units of a request leave every line but their own. -/
theorem State.unitLine_unitsOf (s : State) (st : Nat) (op : ReqOp) (r : Req) {c k : Nat}
    (o : op = .flush ∨ op = .invalidate ∨ ¬ s.unitLines op r c k) :
    (s.unitsOf st op r).1.unitLine c k = s.unitLine c k := by
  have touched : Stores noLine s (s.touch (s.localOff r)) := Stores.touch s _
  unfold State.unitsOf
  refine Eq.trans ?_ (touched.lines c k not_false)
  rcases or_assoc.2 o with flush | other
  · rw [State.unitsDo_flush _ _ _ flush]
  · have work := Stores.unitsDo (upTo (unitCount op r)) (s.touch (s.localOff r)) (s.todoTrk st op r)
      fun u m => List.mem_range.1 m
    rw [touched.unitLines] at work
    exact work.lines c k other

/-- Settles O12: the state that an admitted request enters serves the lines as before, and its units store to their own alone. -/
theorem requestsStoreOnlyToTheirLines : Obligations.RequestsStoreOnlyToTheirLines := by
  unfold Obligations.RequestsStoreOnlyToTheirLines
  refine ⟨fun s st op r i request takes m => ?_, fun s off l => ⟨s.stored_storeLine off l 3, fun c k o => ?_⟩⟩
  · intro u run plain
    have e := request_served request takes
    rw [State.serve_running m run] at e
    refine ⟨_, e, fun c k o => ?_⟩
    have entered : u.unitLine c k = s.unitLine c k :=
      State.unitLine_of_chans ((s.entered_keeps (M := 541065240) st op r rfl).1 .chans rfl) c k
    refine Eq.trans ?_ entered
    by_cases full : op = .write ∧ u.writeRoom r = false
    · obtain ⟨rfl, full⟩ := full
      rw [State.begin_noRoom full]
      exact State.unitLine_of_chans (State.track_chans _ _ _) c k
    · have room : op = .write → u.writeRoom r = true := fun w => by simpa using fun q => full ⟨w, q⟩
      rw [State.begin_units m takes.sramOk room plain]
      refine (State.unitLine_of_chans (State.track_chans _ _ _) c k).trans (u.unitLine_unitsOf st op r ?_)
      refine o.imp_right (Or.imp_right fun other => ?_)
      rintro ⟨j, less, unit, line⟩
      exact other j less (by rw [unit, line])
  · exact (Stores.storeLine s off l 3).lines c k fun ⟨e, e'⟩ => o (by rw [e, e'])

end Sys2Proof.Machine
end

section
/-! SUPPORT. Granules and revokes through coherent work (04 R76, R84 to R86): a stored line marks its granule WRITTEN, an entry or a
recall that ends counts as drained, and nothing else of the pitch table or of the match entries changes. -/

namespace Sys2Proof.Machine

/-! ### What coherent work keeps of the pitches -/

/-- A granule's entry without WRITTEN. -/
def PitchEntry.unwritten (e : PitchEntry) : PitchEntry := { e with written := false }

/-- A match entry without what it counts and the record it waits for. -/
def RevokeEntry.uncounted (r : RevokeEntry) : RevokeEntry := { r with drained := 0, aborted := 0, hseq := none }

/-- Every granule is as it was but for WRITTEN, and every match entry but for its counts and its record. -/
structure PitchKept (s t : State) : Prop where
  granule : ∀ g, (t.granule g).unwritten = (s.granule g).unwritten
  revoke : ∀ n, (t.revoke n).uncounted = (s.revoke n).uncounted

theorem PitchKept.refl (s : State) : PitchKept s s := ⟨fun _ => rfl, fun _ => rfl⟩

theorem PitchKept.trans {s t u : State} (h : PitchKept s t) (k : PitchKept t u) : PitchKept s u :=
  ⟨fun g => (k.granule g).trans (h.granule g), fun n => (k.revoke n).trans (h.revoke n)⟩

theorem State.granule_of_pitch {s t : State} (e : t.pitch = s.pitch) (g : Nat) : t.granule g = s.granule g := by
  rw [State.granule, State.granule, e]

theorem State.revoke_of_pitch {s t : State} (e : t.pitch = s.pitch) (n : Nat) : t.revoke n = s.revoke n := by
  rw [State.revoke, State.revoke, e]

/-- The mask that lets every part change but the pitches. -/
abbrev allButPitch : Nat := 2 ^ 33 - 1 - 2 ^ 5

theorem PitchKept.of {s t u : State} (h : PitchKept s t) (k : Keeps allButPitch t u) : PitchKept s u := by
  have e : u.pitch = t.pitch := k.1 .pitch rfl
  exact h.trans ⟨fun g => by rw [State.granule_of_pitch e], fun n => by rw [State.revoke_of_pitch e]⟩

theorem PitchKept.phase {s t : State} (h : PitchKept s t) (g : Nat) : (t.granule g).phase = (s.granule g).phase :=
  (congrArg PitchEntry.phase (h.granule g) :)

theorem RevokeEntry.covers_unwritten (r : RevokeEntry) (e : PitchEntry) : r.covers e.unwritten = r.covers e := rfl

theorem PitchKept.covers {s t : State} (h : PitchKept s t) (r : RevokeEntry) (g : Nat) :
    r.covers (t.granule g) = r.covers (s.granule g) := by
  rw [← r.covers_unwritten, h.granule, r.covers_unwritten]

theorem RevokeEntry.of_uncounted {x r : RevokeEntry} (e : x.uncounted = r.uncounted) :
    x.valid = r.valid ∧ x.expired = r.expired ∧ x.kind = r.kind ∧ x.value = r.value :=
  ⟨(congrArg RevokeEntry.valid e :), (congrArg RevokeEntry.expired e :), (congrArg RevokeEntry.kind e :),
    (congrArg RevokeEntry.value e :)⟩

theorem PitchKept.foldl {β : Type} {s t : State} {f : State → β → State} (h : PitchKept s t)
    (hf : ∀ x b, PitchKept s x → PitchKept s (f x b)) (l : List β) : PitchKept s (l.foldl f t) := by
  induction l generalizing t with
  | nil => exact h
  | cons b l ih => exact ih (hf t b h)

/-- The mask that lets every part change but the dictionary. -/
abbrev allButDict : Nat := 2 ^ 33 - 1 - 2

theorem State.reg_of_keeps {s t : State} (h : Keeps allButDict s t) (k : Nat) : t.reg k = s.reg k := by
  rw [State.reg, State.reg, h.1 .dict rfl]

/-! ### Stored lines and drained entries -/

section
variable {s t : State} (h : PitchKept s t)
include h

theorem PitchKept.updRevoke (n : Nat) {f : RevokeEntry → RevokeEntry} (hf : ∀ r, (f r).uncounted = r.uncounted) :
    PitchKept s (t.updRevoke n f) := by
  refine h.trans ⟨fun _ => rfl, fun j => ?_⟩
  rw [State.revoke_updRevoke_if]
  split
  · next q => rw [q, hf]
  · rfl

/-- An entry or a recall that ends counts as drained. -/
theorem PitchKept.drained (n : Nat) : PitchKept s (t.updRevoke n fun r => { r with drained := r.drained + 1 }) :=
  h.updRevoke n fun _ => rfl

theorem PitchKept.markWritten (off : Nat) : PitchKept s (t.markWritten off) := by
  unfold State.markWritten
  split
  · exact h.trans ⟨fun _ => rfl, fun _ => rfl⟩
  · refine h.trans ⟨fun g => ?_, fun _ => rfl⟩
    rw [State.granule_updGranule_if]
    split
    · next q => rw [q]; rfl
    · rfl

theorem PitchKept.storeLine (off : Nat) (l : SLine) (level : Nat) : PitchKept s (t.storeLine off l level).1 := by
  have stored := ((h.of (State.snapKeep_keeps (a1 := off) rfl (Keeps.refl _ _))).of
    (State.setStored_keeps (a1 := off) (a2 := l) rfl (Keeps.refl _ _))).of
    (State.markPage_keeps (a1 := t.home off) rfl (Keeps.refl _ _))
  unfold State.storeLine
  exact (((stored.markWritten off).of (State.count_keeps rfl (Keeps.refl _ _))).of
    (State.queueDram_keeps rfl (Keeps.refl _ _))).of (State.forward_keeps rfl (Keeps.refl _ _))

theorem PitchKept.readLine (off host level : Nat) : PitchKept s (t.readLine off host level).1 :=
  h.of (State.readLine_keeps rfl (Keeps.refl _ _))

theorem PitchKept.modifyPlain (off slot host : Nat) (f : Line → Line) (level : Nat) :
    PitchKept s (t.modifyPlain off slot host f level).1 := by
  have read := h.readLine off host level
  unfold State.modifyPlain
  dsimp only
  split
  · exact h
  · split
    · exact read.storeLine _ _ _
    · exact read

theorem PitchKept.unitModify (e : Trk) (u : Nat) (f : Line → Line) : PitchKept s (t.unitModify e u f).1 := by
  unfold State.unitModify
  dsimp only
  split
  · exact h
  · exact h.modifyPlain _ _ _ _ _

theorem PitchKept.unitWrite (e : Trk) (u : Nat) (d : Line) : PitchKept s (t.unitWrite e u d).1 := by
  unfold State.unitWrite
  dsimp only
  split_ifs
  · exact h
  · exact h
  · exact h.storeLine _ _ _

theorem PitchKept.unitRead (e : Trk) (u : Nat) : PitchKept s (t.unitRead e u).1 :=
  h.of (State.unitRead_keeps rfl (Keeps.refl _ _))

theorem PitchKept.unitDo (e : Trk) (u : Nat) : PitchKept s (t.unitDo e u).1 := by
  unfold State.unitDo
  split
  · exact h.unitRead e u
  · exact h.unitWrite e u _
  · exact h.unitModify e 0 _
  · exact h.unitModify e 0 _
  · exact h.unitRead e u
  · exact h.unitModify e 0 _
  · exact h

theorem PitchKept.takeDirty (off : Nat) (d : Option Line) : PitchKept s (t.takeDirty off d).1 := by
  unfold State.takeDirty State.writeBack
  split
  · split
    · exact h
    · exact h.storeLine _ _ _
  · exact h

/-! ### Requests at the directory -/

theorem PitchKept.settle (slice : Nat) (e : Trk) : PitchKept s (t.settle slice e) :=
  h.of (State.settle_keeps rfl (Keeps.refl _ _))

theorem PitchKept.freeLine (slice line : Nat) : PitchKept s (t.freeLine slice line) :=
  h.of (State.freeLine_keeps rfl (Keeps.refl _ _))

theorem PitchKept.dropTxn (slice : Nat) (x : Txn) : PitchKept s (t.dropTxn slice x) :=
  h.of (State.dropTxn_keeps rfl (Keeps.refl _ _))

theorem PitchKept.lowerShared (slice line : Nat) (e : DirEntry) (l : List Snoop) :
    PitchKept s (t.lowerShared slice line e l) :=
  h.of (State.lowerShared_keeps rfl (Keeps.refl _ _))

theorem PitchKept.lostPennant (slice line st : Nat) (b : Bool) : PitchKept s (t.lostPennant slice line st b) :=
  h.of (State.lostPennant_keeps rfl (Keeps.refl _ _))

theorem PitchKept.cohMemory (slice u : Nat) (e : Trk) (stale : Bool) {after : State → State}
    (ha : ∀ x, PitchKept s x → PitchKept s (after x)) : PitchKept s (t.cohMemory slice u e stale after) := by
  have k := h.unitDo e u
  unfold State.cohMemory
  dsimp only
  refine PitchKept.settle ?_ _ _
  split
  · exact ha _ k
  · exact k

theorem PitchKept.cohLost (slice line u : Nat) (e : Trk) (stale : Bool) :
    PitchKept s (t.cohLost slice line u e stale) := by
  have failed : PitchKept s (t.failUnit slice u e .orphaned) := h.settle _ _
  unfold State.cohLost
  split
  · exact h.cohMemory _ _ _ _ fun _ q => q.freeLine _ _
  · exact h.settle _ _
  · dsimp only
    split_ifs
    · exact (h.unitRead e u).of (State.grantLine_keeps rfl (Keeps.refl _ _))
    · exact (h.unitRead e u).settle _ _
    · exact failed
  · split
    · exact h.cohMemory _ _ _ _ fun _ q => q
    · exact failed
  · split
    · exact h.cohMemory _ _ _ _ fun _ q => q
    · exact failed
  · split
    · exact h.cohMemory _ _ _ _ fun _ q => q.freeLine _ _
    · exact failed

theorem PitchKept.cohDirect (slice line u : Nat) (e : Trk) (d : DirEntry) :
    PitchKept s (t.cohDirect slice line u e d) := by
  unfold State.cohDirect
  split
  · split
    · exact h.of (State.grantMemory_keeps rfl (fun _ => State.freeLine_keeps rfl (Keeps.refl _ _)) (Keeps.refl _ _))
    · exact h.of (State.grantMemory_keeps rfl (fun _ => Keeps.refl _ _) (Keeps.refl _ _))
  · exact h.cohMemory _ _ _ _ fun _ q => q
  · split
    · exact ((h.unitDo e u).of (State.writebackEntry_keeps rfl (Keeps.refl _ _))).settle _ _
    · exact h.settle _ _
  · split
    · refine PitchKept.settle ?_ _ _
      split
      · exact h.freeLine _ _
      · exact h
    · refine PitchKept.settle ?_ _ _
      split
      · exact h.freeLine _ _
      · exact (h.of (State.setDir_keeps rfl (Keeps.refl _ _))).of (State.tellDir_keeps rfl (Keeps.refl _ _))
  · exact h.settle _ _

theorem PitchKept.cohTake (slice u : Nat) (e : Trk) : PitchKept s (t.cohTake slice u e) := by
  unfold State.cohTake
  dsimp only
  split
  · split
    · exact h.of (State.cohFresh_keeps rfl (Keeps.refl _ _))
    · exact h.settle _ _
    · exact h.cohMemory _ _ _ _ fun _ q => q
  · next k _ =>
    have r : PitchKept s (t.readDir slice k e) := h.of (State.readDir_keeps rfl (Keeps.refl _ _))
    split
    · exact r.cohLost _ _ _ _ _
    · exact r.cohLost _ _ _ _ _
    · split
      · exact r.of (State.startTxn_keeps rfl (Keeps.refl _ _))
      · exact r.cohDirect _ _ _ _ _

/-! ### Transactions that end -/

theorem PitchKept.recallOver (slice : Nat) (x : Txn) : PitchKept s (t.recallOver slice x) := by
  have k : PitchKept s (((t.dropTxn slice x).freeLine slice x.line).pipePush slice 2 0 x.id) :=
    ((h.dropTxn slice x).freeLine slice x.line).of (State.pipePush_keeps rfl (Keeps.refl _ _))
  unfold State.recallOver
  dsimp only
  split
  · exact k.drained _
  · exact k

theorem PitchKept.endOrphaned (slice : Nat) (x : Txn) (e : DirEntry) : PitchKept s (t.endOrphaned slice x e) := by
  have k := h.freeLine slice x.line
  unfold State.endOrphaned
  split
  · dsimp only
    refine PitchKept.drained ?_ _
    split
    · exact k.storeLine _ _ _
    · exact k
  · exact h

theorem PitchKept.endAborted (slice : Nat) (x : Txn) (e : DirEntry) (l : List Snoop) :
    PitchKept s (t.endAborted slice x e l) := by
  have k := h.takeDirty x.offset (dirtyOf l)
  unfold State.endAborted
  dsimp only
  split
  · exact h.lostPennant _ _ _ _
  · split
    · exact k.lowerShared _ _ _ _
    · exact k.of (State.lowerFree_keeps rfl (Keeps.refl _ _))

theorem PitchKept.endRecall (slice : Nat) (x : Txn) (e : DirEntry) (l : List Snoop) :
    PitchKept s (t.endRecall slice x e l) := by
  have k := h.takeDirty x.offset (dirtyOf l)
  unfold State.endRecall
  dsimp only
  split
  · exact h.recallOver _ _
  · split
    · exact ((h.dropTxn _ _).lostPennant _ _ _ _).endOrphaned _ _ _
    · split
      · exact k.recallOver _ _
      · exact k.of (State.updSlice_keeps rfl (Keeps.refl _ _))

theorem PitchKept.cohGone (slice u : Nat) (e : Trk) (line : Nat) (l : List Snoop) :
    PitchKept s (t.cohGone slice u e line l) := by
  have k := h.unitRead e u
  unfold State.cohGone
  split
  · dsimp only
    split
    · exact (k.of (State.updSlice_keeps rfl (Keeps.refl _ _))).of (State.grantLine_keeps rfl (Keeps.refl _ _))
    · exact k.settle _ _
  · exact h.cohTake _ _ _

theorem PitchKept.cohEnd (slice u : Nat) (e : Trk) (x : Txn) (d : DirEntry) (l : List Snoop) :
    PitchKept s (t.cohEnd slice u e x d l) := by
  unfold State.cohEnd
  dsimp only
  split
  · exact (h.lostPennant _ _ _ _).cohLost _ _ _ _ _
  · split
    · exact h.of (State.cohReadEnd_keeps rfl (Keeps.refl _ _))
    · split
      · exact (h.lowerShared _ _ _ _).settle _ _
      · exact (h.lowerShared _ _ _ _).cohMemory _ _ _ _ fun _ q => q
    · exact ((h.takeDirty _ _).lowerShared _ _ _ _).settle _ _
    · exact (h.freeLine _ _).settle _ _
    · refine PitchKept.settle (PitchKept.freeLine ?_ _ _) _ _
      split
      · exact h.unitDo _ _
      · exact (h.unitDo _ _).takeDirty _ _
    · exact (((h.takeDirty _ _).unitDo _ _).freeLine _ _).settle _ _

theorem PitchKept.endTxn (slice : Nat) (x : Txn) : PitchKept s (t.endTxn slice x) := by
  have k := h.dropTxn slice x
  unfold State.endTxn
  dsimp only
  split
  · split
    · exact k.cohGone _ _ _ _ _
    · exact k
    · exact k
    · exact h.recallOver _ _
  · split
    · exact k.endOrphaned _ _ _
    · split
      · exact k.cohEnd _ _ _ _ _ _
      · exact k.endAborted _ _ _ _
      · exact k
      · exact h.endRecall _ _ _ _

theorem PitchKept.startWaiting (slice : Nat) (x : Txn) : PitchKept s (t.startWaiting slice x) := by
  have k := h.dropTxn slice x
  unfold State.startWaiting
  dsimp only
  split
  · split
    · exact k.drained _
    · exact k
  · split_ifs
    · exact k.endOrphaned _ _ _
    · exact k
    · exact k.of (State.startTxn_keeps rfl (Keeps.refl _ _))

end

theorem PitchKept.cohRun {s : State} (slice : Nat) : ∀ (fuel : Nat) {t : State}, PitchKept s t →
    PitchKept s (State.cohRun slice fuel t)
  | 0, _, h => h
  | fuel + 1, t, h => by
    unfold State.cohRun
    split
    · exact PitchKept.cohRun slice fuel (h.endTxn slice _)
    · split
      · exact PitchKept.cohRun slice fuel (h.startWaiting slice _)
      · split
        · exact PitchKept.cohRun slice fuel
            ((h.of (State.updSlice_keeps rfl (Keeps.refl _ _))).cohTake slice _ _)
        · exact h

theorem PitchKept.cohGoAll {s t : State} (h : PitchKept s t) : PitchKept s t.cohGoAll := by
  unfold State.cohGoAll
  exact h.foldl (fun _ n q => PitchKept.cohRun n _ q) _

end Sys2Proof.Machine
end

section
/-! SUPPORT. Grants (04 R83): what one granule's write changes, what a run of them changes, and what a grant does when it begins and
when it is complete. -/

namespace Sys2Proof.Machine

/-! ### Writing granules -/

/-- Of the pitches, a granule's write changes its entry. -/
theorem State.setGranule_pitch (s : State) (g : Nat) (f : PitchEntry → PitchEntry) :
    (s.setGranule g f).1.pitch = (s.updGranule g f).pitch := by
  unfold State.setGranule
  exact ((State.tellPitch_keeps (M := allButPitch) rfl (Keeps.refl _ _)).1 .pitch rfl).trans
    ((State.sramWrite_keeps (M := allButPitch) rfl (Keeps.refl _ _)).1 .pitch rfl)

/-- A step that puts `f` of its entry at one granule, given by the step's item. -/
def WritesAt {β : Type} (F : State × Option Nat → β → State × Option Nat) (key : β → Nat)
    (f : PitchEntry → PitchEntry) : Prop :=
  ∀ a x g, (F a x).1.granule g = if g = key x then f (a.1.granule g) else a.1.granule g

theorem State.setGranule_granule (s : State) (k g : Nat) (f : PitchEntry → PitchEntry) :
    (s.setGranule k f).1.granule g = if g = k then f (s.granule g) else s.granule g := by
  rw [State.granule_of_pitch (s.setGranule_pitch k f), State.granule_updGranule_if]
  split
  · next e => rw [e]
  · rfl

/-- Steps that write by an `f` that may be repeated put it at the granules of their items, and at no other. -/
theorem WritesAt.foldl {β : Type} {F : State × Option Nat → β → State × Option Nat} {key : β → Nat}
    {f : PitchEntry → PitchEntry} (w : WritesAt F key f) (again : ∀ e, f (f e) = f e) (l : List β)
    (a : State × Option Nat) (g : Nat) :
    (l.foldl F a).1.granule g = if g ∈ l.map key then f (a.1.granule g) else a.1.granule g := by
  induction l generalizing a with
  | nil => rfl
  | cons x l ih =>
    rw [List.foldl_cons, ih, w, List.map_cons]
    by_cases here : g = key x
    · by_cases later : g ∈ l.map key <;> simp [here, again]
    · simp [here]

/-! ### The run of a grant -/

theorem mem_upTo_shift {first n g : Nat} : g ∈ (upTo n).map (first + ·) ↔ first ≤ g ∧ g < first + n := by
  rw [upTo, List.mem_map]
  constructor
  · rintro ⟨i, less, rfl⟩
    have := List.mem_range.1 less
    omega
  · rintro ⟨le, lt⟩
    exact ⟨g - first, List.mem_range.2 (by omega), by omega⟩

/-- A granted granule's entry: the grant's fields, with WRITTEN as it was. -/
def GrantRun.fill (r : GrantRun) (old : PitchEntry) : PitchEntry := { r.entry with written := old.written }

/-- The rest of a grant writes the granules of its run that are not done, keeping WRITTEN. -/
theorem State.grantRest_granule (s : State) {r : GrantRun} (le : r.done ≤ r.count) (g : Nat) :
    (s.grantRest r).1.granule g =
      if r.first + r.done ≤ g ∧ g < r.first + r.count then r.fill (s.granule g) else s.granule g := by
  have step : WritesAt (fun a i =>
      let b := a.1.grantOne r.entry (r.first + r.done + i)
      (b.1, laterHseq a.2 b.2)) (r.first + r.done + ·) r.fill :=
    fun a i g => a.1.setGranule_granule (r.first + r.done + i) g r.fill
  have mem : g ∈ (upTo (r.count - r.done)).map (r.first + r.done + ·) ↔
      r.first + r.done ≤ g ∧ g < r.first + r.count := by
    rw [mem_upTo_shift, show r.first + r.done + (r.count - r.done) = r.first + r.count by omega]
  exact (step.foldl (fun _ => rfl) _ _ g).trans (if_congr mem rfl rfl)

/-! ### A grant begins -/

theorem State.logged_at_key (s : State) (f : Frame) (q : Ask) (a : Ans) (n : Nat) : (s.logged f q a).key n = s.key n := by
  have face : (s.logged f q a).sec.face = s.sec.face := (s.logged_keeps f q a).1 .secFace rfl
  exact congrArg (fun x : Tbl KeySlot => x.get {} n) (congrArg SecSt.keys face :)

theorem State.logged_reach (s : State) (f : Frame) (q : Ask) (a : Ans) : (s.logged f q a).reach = s.reach := by
  have slice : (s.logged f q a).repair.foldSlice = s.repair.foldSlice :=
    (congrArg RepairSt.foldSlice (s.logged_repairFace f q a) :)
  have channel : (s.logged f q a).repair.foldChannel = s.repair.foldChannel :=
    (congrArg RepairSt.foldChannel (s.logged_repairFace f q a) :)
  simp only [State.reach, State.logged_pitch, slice, channel]

theorem State.logged_grantFields (s : State) (f : Frame) (q : Ask) (a : Ans) :
    (s.logged f q a).grantFields = s.grantFields := by
  simp only [State.grantFields, State.logged_at_reg]

theorem State.logged_meetsMoveIn (s : State) (f : Frame) (q : Ask) (a : Ans) (first count : Nat) :
    (s.logged f q a).meetsMoveIn first count = s.meetsMoveIn first count := by
  unfold State.meetsMoveIn
  rw [State.logged_pair]

/-- The ledger entry of a frame moves nothing that a grant is decided by. -/
theorem State.logged_grantCheck (s : State) (f : Frame) (q : Ask) (a : Ans) :
    (s.logged f q a).grantCheck = s.grantCheck := by
  unfold State.grantCheck State.runAny State.coherentGranules
  dsimp only
  rw [State.logged_at_reg, State.logged_at_reg, State.logged_meetsMoveIn, State.logged_grantFields, State.logged_at_key,
    State.logged_reach, State.logged_boot, State.logged_pitch, State.logged_pair]

/-- The run that an accepted grant starts. -/
def State.newGrant (s : State) : GrantRun :=
  ⟨s.grantFields, s.reg kGrantFirst, s.reg kGrantCount, 0, s.reg kGrantFlags, none⟩

theorem State.logged_newGrant (s : State) (f : Frame) (q : Ask) (a : Ans) : (s.logged f q a).newGrant = s.newGrant := by
  simp only [State.newGrant, State.logged_grantFields, State.logged_at_reg]

theorem actGrant_taken {s : State} {v : Nat} (h : s.grantCheck = 0) : (actGrant v s).1 =
    State.setReg { s with pitch := { s.pitch with grantRun := some s.newGrant } } kGrantResult 2 := by
  unfold actGrant
  rw [h]
  rfl

theorem actGrant_refused {s : State} {v : Nat} (h : s.grantCheck ≠ 0) :
    (actGrant v s).1 = s.setReg kGrantResult s.grantCheck := by
  unfold actGrant
  split
  · next e => exact absurd e h
  · next r e => rw [e]

theorem grant_effect {s : State} {f : Frame} {v : Nat} (h : s.accepts f (askWrite kGrantGo 1 v)) :
    ∃ t, exec (.grant f v) s = .next t ∧
      (s.grantCheck = 0 → t.reg kGrantResult = 2 ∧ t.pitch.grantRun = some s.newGrant) ∧
      (s.grantCheck ≠ 0 → t.reg kGrantResult = s.grantCheck ∧ t.pitch = s.pitch) ∧
      s.frame t [.dict, .links, .stalls, .pitch, .xbar, .repair, .sec, .mgmt, .obs] := by
  refine ⟨_, rfl, fun taken => ?_, fun refused => ?_,
    (execGrant_keeps (M := 7929902) rfl (Keeps.refl _ s)).frame rfl rfl⟩
  · rw [State.write_accepts _ h, actGrant_taken ((s.logged_grantCheck _ _ _).trans taken), State.logged_newGrant]
    refine ⟨?_, ?_⟩
    · rw [State.answered_at_reg, State.reg_setReg]
    · rw [State.answered_pitch, State.setReg_pitch]
  · rw [State.write_accepts _ h, actGrant_refused (by rwa [State.logged_grantCheck]), State.logged_grantCheck]
    refine ⟨?_, ?_⟩
    · rw [State.answered_at_reg, State.reg_setReg]
    · rw [State.answered_pitch, State.setReg_pitch, State.logged_pitch]

/-! ### A grant is complete -/

theorem State.grantRest_reg (s : State) (r : GrantRun) (k : Nat) : (s.grantRest r).1.reg k = s.reg k :=
  State.reg_of_keeps (State.grantRest_keeps rfl (Keeps.refl _ s)) k

/-- The state of a grant that is complete, before its ledger entry. -/
def State.grantOver (s : State) (r : GrantRun) : State :=
  (State.setReg { (s.grantRest r).1 with pitch := { (s.grantRest r).1.pitch with grantRun := none } } kPitchGeneration
    (((s.grantRest r).1.reg kPitchGeneration + 1) % 2 ^ 32)).setReg kGrantResult 0

theorem execGrantComplete_covered {s : State} {r : GrantRun} (run : s.pitch.grantRun = some r)
    (covered : (s.grantRest r).1.halCovered (s.grantRest r).2 = true) : execGrantComplete s =
      .next ((s.grantOver r).ledger 0x02 0 Actor.board r.entry.tenant
        (grantBody r (((s.grantRest r).1.reg kPitchGeneration + 1) % 2 ^ 32))) := by
  unfold execGrantComplete
  rw [run]
  exact congrArg Host.Outcome.next (if_pos covered)

theorem grantComplete_effect {s : State} {r : GrantRun} (run : s.pitch.grantRun = some r) (le : r.done ≤ r.count)
    (covered : (s.grantRest r).1.halCovered (s.grantRest r).2 = true) :
    ∃ t, exec .grantComplete s = .next t ∧
      (∀ g, r.first + r.done ≤ g → g < r.first + r.count → t.granule g = r.fill (s.granule g)) ∧
      (∀ g, g < r.first + r.done ∨ r.first + r.count ≤ g → t.granule g = s.granule g) ∧
      t.pitch.grantRun = none ∧ t.reg kPitchGeneration = (s.reg kPitchGeneration + 1) % 2 ^ 32 ∧ t.reg kGrantResult = 0 ∧
      s.frame t [.dict, .links, .pitch, .pair, .repair, .sec, .obs] := by
  have e := execGrantComplete_covered run covered
  have granule (g : Nat) : (s.grantOver r).granule g = (s.grantRest r).1.granule g := rfl
  refine ⟨_, e, fun g low high => ?_, fun g out => ?_, ?_, ?_, ?_,
    (execGrantComplete_keeps (M := 6029350) rfl (Keeps.refl _ s)).frame e rfl⟩
  · rw [State.ledger_at_granule, granule, s.grantRest_granule le, if_pos ⟨low, high⟩]
  · rw [State.ledger_at_granule, granule, s.grantRest_granule le, if_neg (by omega)]
  · rw [State.ledger_at_pitch]
    rfl
  · have other : kPitchGeneration ≠ kGrantResult := by decide
    rw [State.ledger_at_reg, State.grantOver, State.reg_setReg_other _ _ other, State.reg_setReg, State.grantRest_reg]
  · rw [State.ledger_at_reg, State.grantOver, State.reg_setReg]

/-- Settles O21: a grant by what its check answers, and a complete one by what the rest of its run writes. -/
theorem grantsWriteTheirGranules : Obligations.GrantsWriteTheirGranules := by
  unfold Obligations.GrantsWriteTheirGranules
  exact ⟨fun _ _ _ h => grant_effect h, fun _ _ run le covered => grantComplete_effect run le covered⟩

end Sys2Proof.Machine
end

section
/-! SUPPORT. Revokes (04 R84 to R86): the revoke cycle sets the granules it covers REVOKING and takes a match entry, a deadline marks
the entry expired, and a revoke that is done leaves its granules HELD and its entry free. -/

namespace Sys2Proof.Machine

/-! ### Granules that pass a test -/

theorem Tbl.mem_of_get_ne {α : Type} {t : Tbl α} {d : α} {k : Nat} (h : t.get d k ≠ d) : (k, t.get d k) ∈ t := by
  induction t with
  | nil => exact absurd rfl h
  | cons p r ih =>
    obtain ⟨k', v⟩ := p
    by_cases e : k = k'
    · simp [Tbl.get, e]
    · have rest : Tbl.get ((k', v) :: r) d k = Tbl.get r d k := by simp [Tbl.get, e]
      rw [rest] at h ⊢
      exact List.mem_cons_of_mem _ (ih h)

theorem State.mem_granulesWhere {s : State} {p : Nat → PitchEntry → Bool} {g : Nat} :
    g ∈ s.granulesWhere p ↔ ∃ q ∈ s.pitch.table, q.1 = g ∧ p q.1 q.2 = true := by
  simp only [State.granulesWhere, List.mem_map, List.mem_filter]
  constructor
  · rintro ⟨q, ⟨m, h⟩, e⟩
    exact ⟨q, m, e, h⟩
  · rintro ⟨q, m, e, h⟩
    exact ⟨q, ⟨m, h⟩, e⟩

/-- A granule that is not FREE is listed, with the entry it reads. -/
theorem State.granule_mem_granulesWhere {s : State} {p : Nat → PitchEntry → Bool} {g : Nat}
    (used : (s.granule g).phase ≠ .free) (h : p g (s.granule g) = true) : g ∈ s.granulesWhere p :=
  State.mem_granulesWhere.2
    ⟨_, Tbl.mem_of_get_ne fun e => used (congrArg PitchEntry.phase e), rfl, h⟩

/-! ### Rewriting entries -/

theorem State.setGranules_step (f : PitchEntry → PitchEntry) :
    WritesAt (fun (a : State × Option Nat) g =>
      let b := a.1.setGranule g f
      (b.1, laterHseq a.2 b.2)) (fun g => g) f :=
  fun a k g => a.1.setGranule_granule k g f

theorem State.setGranules_granule (s : State) (gs : List Nat) {f : PitchEntry → PitchEntry} (again : ∀ e, f (f e) = f e)
    (g : Nat) : (s.setGranules gs f).1.granule g = if g ∈ gs then f (s.granule g) else s.granule g := by
  have all := (State.setGranules_step f).foldl again gs (s, none) g
  rwa [List.map_id'] at all

theorem State.setGranules_revoke (s : State) (gs : List Nat) (f : PitchEntry → PitchEntry) (n : Nat) :
    (s.setGranules gs f).1.revoke n = s.revoke n := by
  have keep (l : List Nat) (a : State × Option Nat) : (l.foldl (fun a g =>
      let b := a.1.setGranule g f
      (b.1, laterHseq a.2 b.2)) a).1.revoke n = a.1.revoke n := by
    induction l generalizing a with
    | nil => rfl
    | cons g l ih => exact (ih _).trans (State.revoke_of_pitch (a.1.setGranule_pitch g f) n)
  exact keep gs (s, none)

/-! ### The revoke cycle (R84) -/

/-- The match entry that a revoke takes. -/
def State.newRevoke (s : State) (kind value : Nat) (cause : RevokeFor) : RevokeEntry := {
  valid := true, kind := kind, value := value, drained := 0, aborted := 0
  generation := (s.reg kPitchGeneration + 1) % 2 ^ 32, expired := false, cause := cause, hseq := none }

/-- The state with a match entry taken and PITCH_GENERATION advanced. -/
def State.matching (s : State) (n : Nat) (r : RevokeEntry) : State :=
  (s.setReg kPitchGeneration ((s.reg kPitchGeneration + 1) % 2 ^ 32)).updRevoke n fun _ => r

/-- The state with what a revoke covers marked, recalled or stopped. -/
def State.marked (s : State) (n : Nat) (r : RevokeEntry) : State :=
  ((upTo 8).foldl (fun a sl => (a.markSlice r n sl).recallRevoked r n sl) s).markDescs r n

/-- A granule's entry in a phase. -/
def PitchEntry.inPhase (p : PitchPhase) (e : PitchEntry) : PitchEntry := { e with phase := p }

/-- The granules that a revoke covers are set REVOKING, and its entry keeps the last of their records. -/
def State.setRevoking (s : State) (n : Nat) (r : RevokeEntry) : State :=
  (s.setGranules (s.coveredBy r) (.inPhase .revoking)).1.updRevoke n fun x => { x with
    hseq := (s.setGranules (s.coveredBy r) (.inPhase .revoking)).2 }

theorem State.startRevoke_full {s : State} {kind value : Nat} {cause : RevokeFor}
    (full : ((upTo 16).find? fun n => !(s.revoke n).valid) = none) : s.startRevoke kind value cause = (s, false) := by
  unfold State.startRevoke
  rw [full]

theorem State.startRevoke_taken {s : State} {kind value n : Nat} {cause : RevokeFor}
    (found : ((upTo 16).find? fun n => !(s.revoke n).valid) = some n) : s.startRevoke kind value cause =
      ((((s.matching n (s.newRevoke kind value cause)).marked n (s.newRevoke kind value cause)).setRevoking n
        (s.newRevoke kind value cause)).cohGoAll, true) := by
  unfold State.startRevoke
  rw [found]
  rfl

section
variable {s t : State} (h : PitchKept s t)
include h

theorem PitchKept.recallWhere (slice : Nat) (p : DirEntry → Bool) (cause : TxnCause) {gone : State → DirEntry → State}
    (hg : ∀ x e, PitchKept s x → PitchKept s (gone x e)) : PitchKept s (t.recallWhere slice p cause gone) := by
  unfold State.recallWhere
  refine h.foldl (fun x q k => ?_) _
  dsimp only
  split_ifs
  · exact hg _ _ k
  · exact k.of (State.waitTxn_keeps rfl (Keeps.refl _ _))
  · exact k.of (State.waitTxn_keeps rfl (Keeps.refl _ _))
  · exact k.of (State.startTxn_keeps rfl (Keeps.refl _ _))

theorem PitchKept.recallRevoked (r : RevokeEntry) (n slice : Nat) : PitchKept s (t.recallRevoked r n slice) := by
  unfold State.recallRevoked
  refine h.recallWhere _ _ _ fun x e k => ?_
  dsimp only
  split
  · exact (k.freeLine _ _).storeLine _ _ _
  · exact k.freeLine _ _

theorem PitchKept.markDescs (r : RevokeEntry) (n : Nat) : PitchKept s (t.markDescs r n) := by
  unfold State.markDescs
  exact ((h.of (State.stopWorkers_keeps rfl (Keeps.refl _ _))).of (State.stopTrees_keeps rfl (Keeps.refl _ _))).updRevoke n
    fun _ => rfl

theorem PitchKept.marked (n : Nat) (r : RevokeEntry) : PitchKept s (t.marked n r) := by
  unfold State.marked
  exact (h.foldl (fun _ sl k => (k.of (State.markSlice_keeps rfl (Keeps.refl _ _))).recallRevoked r n sl) _).markDescs r n

end

theorem State.matching_granule (s : State) (n : Nat) (r : RevokeEntry) (g : Nat) :
    (s.matching n r).granule g = s.granule g := rfl

theorem State.setRevoking_granule (s : State) (n : Nat) (r : RevokeEntry) (g : Nat) : (s.setRevoking n r).granule g =
    if g ∈ s.coveredBy r then (s.granule g).inPhase .revoking else s.granule g :=
  s.setGranules_granule _ (f := .inPhase .revoking) (fun _ => rfl) g

/-- A covered granule that is GRANTED becomes REVOKING. -/
theorem State.setRevoking_phase {s : State} {r : RevokeEntry} {g : Nat} (granted : (s.granule g).phase = .granted)
    (covered : r.covers (s.granule g) = true) (n : Nat) : ((s.setRevoking n r).granule g).phase = .revoking := by
  have m : g ∈ s.coveredBy r := State.granule_mem_granulesWhere (by simp [granted]) (by simp [covered, granted])
  rw [State.setRevoking_granule, if_pos m]
  rfl

theorem State.setRevoking_revoke (s : State) (n j : Nat) (r : RevokeEntry) :
    ((s.setRevoking n r).revoke j).uncounted = (s.revoke j).uncounted := by
  have counted := ((PitchKept.refl (s.setGranules (s.coveredBy r) (.inPhase .revoking)).1).updRevoke n
    (f := fun x => { x with hseq := (s.setGranules (s.coveredBy r) (.inPhase .revoking)).2 }) fun _ => rfl).revoke j
  rw [State.setRevoking, counted, State.setGranules_revoke]

theorem State.marked_keeps (s : State) (n : Nat) (r : RevokeEntry) : Keeps allButDict s (s.marked n r) := by
  unfold State.marked
  exact State.markDescs_keeps rfl (Keeps.foldl (fun _ _ => State.recallRevoked_keeps rfl
    (State.markSlice_keeps rfl (Keeps.refl _ _))) _ (Keeps.refl _ s))

theorem State.setRevoking_keeps (s : State) (n : Nat) (r : RevokeEntry) : Keeps allButDict s (s.setRevoking n r) := by
  unfold State.setRevoking
  exact State.updRevoke_keeps rfl (State.setGranules_keeps rfl (Keeps.refl _ s))

/-- What a revoke that takes a match entry leaves: its entry, PITCH_GENERATION, and the granules it covers REVOKING. -/
theorem State.startRevoke_reads {s : State} {kind value n : Nat} {cause : RevokeFor}
    (found : ((upTo 16).find? fun n => !(s.revoke n).valid) = some n) :
    ∃ t, s.startRevoke kind value cause = (t, true) ∧ t.reg kPitchGeneration = (s.reg kPitchGeneration + 1) % 2 ^ 32 ∧
    (t.revoke n).valid = true ∧ (t.revoke n).kind = kind ∧ (t.revoke n).value = value ∧
    ∀ g, (s.granule g).phase = .granted → (s.newRevoke kind value cause).covers (s.granule g) = true →
      (t.granule g).phase = .revoking := by
  generalize q : s.newRevoke kind value cause = r
  have marks := (PitchKept.refl (s.matching n r)).marked n r
  have work := (PitchKept.refl (((s.matching n r).marked n r).setRevoking n r)).cohGoAll
  have entry : (((((s.matching n r).marked n r).setRevoking n r).cohGoAll).revoke n).uncounted = r.uncounted := by
    rw [work.revoke, State.setRevoking_revoke, marks.revoke, State.matching, State.revoke_updRevoke]
  obtain ⟨valid, -, kind', value'⟩ := RevokeEntry.of_uncounted entry
  refine ⟨_, q ▸ State.startRevoke_taken found, ?_, ?_, ?_, ?_, fun g granted covered => ?_⟩
  · rw [State.reg_of_keeps (State.cohGoAll_keeps rfl (Keeps.refl _ _)), State.reg_of_keeps (State.setRevoking_keeps _ n r),
      State.reg_of_keeps (State.marked_keeps _ n r), State.matching, State.updRevoke_at_reg, State.reg_setReg]
  · rw [valid, ← q, State.newRevoke]
  · rw [kind', ← q, State.newRevoke]
  · rw [value', ← q, State.newRevoke]
  · rw [work.phase]
    refine State.setRevoking_phase ?_ ?_ n
    · rw [marks.phase, State.matching_granule, granted]
    · rw [marks.covers, State.matching_granule, covered]

theorem State.newRevoke_covers (s : State) (kind value : Nat) (cause : RevokeFor) (e : PitchEntry) :
    (s.newRevoke kind value cause).covers e = true ↔
      kind = 0 ∧ e.pitch = value ∨ kind = 1 ∧ e.tenant = value ∨ 2 ≤ kind := by
  match kind with
  | 0 => simp [RevokeEntry.covers, State.newRevoke]
  | 1 => simp [RevokeEntry.covers, State.newRevoke]
  | k + 2 => simp [RevokeEntry.covers, State.newRevoke]

theorem find_freeRevoke_some {s : State} (free : ∃ n, n < 16 ∧ (s.revoke n).valid = false) :
    ∃ n, ((upTo 16).find? fun n => !(s.revoke n).valid) = some n ∧ n < 16 ∧ (s.revoke n).valid = false := by
  obtain ⟨n, lt, invalid⟩ := free
  have some : ((upTo 16).find? fun n => !(s.revoke n).valid).isSome = true :=
    List.find?_isSome.2 ⟨n, List.mem_range.2 lt, by simp [invalid]⟩
  obtain ⟨m, found⟩ := Option.isSome_iff_exists.1 some
  exact ⟨m, found, List.mem_range.1 (List.mem_of_find?_eq_some found), by simpa using List.find?_some found⟩

theorem find_freeRevoke_none {s : State} (full : ∀ n, n < 16 → (s.revoke n).valid = true) :
    ((upTo 16).find? fun n => !(s.revoke n).valid) = none :=
  List.find?_eq_none.2 fun n m => by simp [full n (List.mem_range.1 m)]

/-! ### REVOKE -/

theorem actRevoke_taken {s t : State} {v : Nat} (idle : s.pitch.grantRun = none)
    (taken : s.startRevoke (s.reg kRevokeMatch) (s.reg kRevokeValue) .manager = (t, true)) :
    (actRevoke v s).1 = t.setReg kRevokeResult 2 := by
  unfold actRevoke
  rw [idle, taken]
  rfl

/-- A revoke during a grant, or without a free match entry, is refused with 1. -/
theorem actRevoke_refused {s : State} {v : Nat}
    (h : s.pitch.grantRun.isSome = true ∨ ∀ n, n < 16 → (s.revoke n).valid = true) :
    (actRevoke v s).1 = s.setReg kRevokeResult 1 := by
  unfold actRevoke
  split
  · rfl
  · next idle => rw [State.startRevoke_full (find_freeRevoke_none (h.resolve_left idle))]

theorem revoke_effect {s : State} {f : Frame} {v : Nat} (h : s.accepts f (askWrite kRevokeGo 1 v)) :
    ∃ t, exec (.revoke f v) s = .next t ∧
      (s.pitch.grantRun = none → (∃ n, n < 16 ∧ (s.revoke n).valid = false) →
        t.reg kRevokeResult = 2 ∧ t.reg kPitchGeneration = (s.reg kPitchGeneration + 1) % 2 ^ 32 ∧
        (∃ n, n < 16 ∧ (s.revoke n).valid = false ∧ (t.revoke n).valid = true ∧
          (t.revoke n).kind = s.reg kRevokeMatch ∧ (t.revoke n).value = s.reg kRevokeValue) ∧
        ∀ g, (s.granule g).phase = .granted →
          (s.reg kRevokeMatch = 0 ∧ (s.granule g).pitch = s.reg kRevokeValue ∨
            s.reg kRevokeMatch = 1 ∧ (s.granule g).tenant = s.reg kRevokeValue ∨ 2 ≤ s.reg kRevokeMatch) →
          (t.granule g).phase = .revoking) ∧
      (s.pitch.grantRun.isSome = true ∨ (∀ n, n < 16 → (s.revoke n).valid = true) →
        t.reg kRevokeResult = 1 ∧ t.pitch = s.pitch) ∧
      s.frame t [.dict, .links, .stalls, .stallFace, .pitch, .slices, .chans, .snoops, .nextTag, .barrows, .trees,
        .xbar, .pair, .repair, .repairFace, .sec, .secFace, .mgmt, .obs, .clock] := by
  refine ⟨_, rfl, fun idle free => ?_, fun refused => ?_,
    (execRevoke_keeps (M := 3783071726) rfl (Keeps.refl _ s)).frame rfl rfl⟩
  · rw [State.write_accepts _ h]
    generalize (actRevoke v s).2 = a
    obtain ⟨n, found, lt, invalid⟩ := find_freeRevoke_some free
    obtain ⟨t, taken, gen, valid, kind, value, phase⟩ := State.startRevoke_reads
      (s := s.logged f (askWrite kRevokeGo 1 v) a) (cause := .manager)
      (kind := (s.logged f (askWrite kRevokeGo 1 v) a).reg kRevokeMatch)
      (value := (s.logged f (askWrite kRevokeGo 1 v) a).reg kRevokeValue)
      (by simpa only [State.logged_at_revoke] using found)
    rw [actRevoke_taken (by rw [State.logged_pitch, idle]) taken]
    simp only [State.logged_at_reg, State.logged_at_granule, State.newRevoke_covers] at gen kind value phase
    have other : kPitchGeneration ≠ kRevokeResult := by decide
    simp only [State.answered_at_reg, State.answered_at_revoke, State.answered_at_granule, State.reg_setReg,
      State.setReg_at_revoke, State.setReg_at_granule, State.reg_setReg_other _ _ other]
    exact ⟨trivial, gen, ⟨n, lt, invalid, valid, kind, value⟩, phase⟩
  · rw [State.write_accepts _ h, actRevoke_refused (by simpa using refused), State.answered_at_reg, State.reg_setReg,
      State.answered_pitch, State.setReg_pitch, State.logged_pitch]
    exact ⟨rfl, rfl⟩

/-! ### The deadline (R85) -/

/-- A deadline settles what the revoke waits for, marks its entry expired, and lets coherent work go on. -/
theorem State.expireRevoke_steps (s : State) (n : Nat) : ∃ x, PitchKept s x ∧
    s.expireRevoke n = (x.updRevoke n fun r => { r with expired := true }).cohGoAll := by
  unfold State.expireRevoke
  extract_lets unmark one
  have unmarked {x : State} (k : PitchKept s x) (sl id : Nat) : PitchKept s (unmark x sl id) :=
    k.of (State.updSlice_keeps rfl (Keeps.refl _ _))
  refine ⟨_, (PitchKept.refl s).foldl (fun x sl k => ?_) _, rfl⟩
  refine PitchKept.foldl (k.foldl (fun c e q => ?_) _) (fun c x q => ?_) _
  · split
    · exact (unmarked q _ _).drained n
    · exact (unmarked (q.of (State.abort_keeps rfl (Keeps.refl _ _))) _ _).updRevoke n fun _ => rfl
  · exact (((q.dropTxn _ _).freeLine _ _).storeLine _ _ _).updRevoke n fun _ => rfl

theorem revokeDeadlineExpiry_effect {s : State} {n : Nat} (valid : (s.revoke n).valid = true)
    (early : (s.revoke n).expired = false) :
    ∃ t, exec (.revokeDeadlineExpiry n) s = .next t ∧ (t.revoke n).expired = true ∧ (t.revoke n).valid = true ∧
      s.frame t [.links, .stalls, .stallFace, .pitch, .slices, .chans, .snoops, .nextTag, .xbar, .pair, .repair,
        .repairFace, .sec, .secFace, .obs, .clock] := by
  obtain ⟨x, kept, steps⟩ := s.expireRevoke_steps n
  have e : execRevokeDeadlineExpiry n s = .next (s.expireRevoke n) :=
    congrArg Host.Outcome.next (if_pos (by rw [valid, early]; rfl))
  obtain ⟨valid', expired', -⟩ := RevokeEntry.of_uncounted
    ((PitchKept.refl (x.updRevoke n fun r => { r with expired := true })).cohGoAll.revoke n)
  refine ⟨_, e, ?_, ?_, (execRevokeDeadlineExpiry_keeps (M := 3780969452) rfl (Keeps.refl _ s)).frame e rfl⟩
  · rw [steps, expired', State.revoke_updRevoke]
  · rw [steps, valid', State.revoke_updRevoke, (RevokeEntry.of_uncounted (kept.revoke n)).1, valid]

/-! ### A revoke that is done (R86) -/

/-- The granules that a revoke leaves HELD. -/
def State.releasedBy (s : State) (n : Nat) : List Nat :=
  s.granulesWhere fun _ e => (s.revoke n).covers e && e.phase == .revoking

theorem State.finishRevoke_pitch (s : State) (n : Nat) : (s.finishRevoke n).pitch =
    ((s.setGranules (s.releasedBy n) (.inPhase .held)).1.updRevoke n fun _ => {}).pitch := by
  let s1 := (s.setGranules (s.releasedBy n) (.inPhase .held)).1
  let s2 := (upTo 8).foldl (fun a sl => (a.dropHints sl fun g => (s.releasedBy n).contains g).repin sl) s1
  have hints : Keeps allButPitch s1 s2 := Keeps.foldl
    (fun _ _ => State.repin_keeps rfl (State.dropHints_keeps rfl (Keeps.refl _ _))) _ (Keeps.refl _ s1)
  have freed : (s2.updRevoke n fun _ => {}).pitch = (s1.updRevoke n fun _ => {}).pitch := by
    rw [State.updRevoke, hints.1 .pitch rfl, State.updRevoke]
  unfold State.finishRevoke
  dsimp only
  rw [State.ledger_at_pitch, State.crier_at_pitch, State.setReg_pitch]
  exact freed

theorem State.finishRevoke_reg (s : State) (n : Nat) : (s.finishRevoke n).reg kRevokeResult = 0 := by
  unfold State.finishRevoke
  dsimp only
  rw [State.ledger_at_reg, State.crier_at_reg, State.reg_setReg]

theorem State.finishRevoke_granule (s : State) (n g : Nat) : (s.finishRevoke n).granule g =
    if g ∈ s.releasedBy n then (s.granule g).inPhase .held else s.granule g :=
  (State.granule_of_pitch (s.finishRevoke_pitch n) g).trans
    (s.setGranules_granule _ (f := .inPhase .held) (fun _ => rfl) g)

/-- Where nothing is being retired, no further batch of revokes is issued. -/
theorem State.issueRetire_none {s : State} (h : s.repair.retiring = none) : s.issueRetire = s := by
  unfold State.issueRetire
  rw [h]

theorem State.finishRevoke_retiring (s : State) (n : Nat) : (s.finishRevoke n).repair.retiring = s.repair.retiring :=
  (congrArg RepairSt.retiring ((State.finishRevoke_keeps (M := 6029422) rfl (Keeps.refl _ s)).1 .repairFace rfl) :)

theorem revokeDone_effect {s : State} {n : Nat} (valid : (s.revoke n).valid = true) (settled : s.revokePending n = false)
    (still : s.repair.retiring = none) :
    ∃ t, exec (.revokeDone n) s = .next t ∧ t.revoke n = {} ∧ t.reg kRevokeResult = 0 ∧
      (∀ g, (s.granule g).phase = .revoking → (s.revoke n).covers (s.granule g) = true →
        t.granule g = { s.granule g with phase := .held }) ∧
      (∀ g, (∀ q ∈ s.pitch.table, q.1 = g → q.2.phase ≠ .revoking ∨ (s.revoke n).covers q.2 = false) →
        t.granule g = s.granule g) ∧
      s.frame t [.dict, .links, .stalls, .pitch, .slices, .pair, .repair, .sec, .obs] := by
  have e : execRevokeDone n s = .next (s.finishRevoke n) := by
    unfold execRevokeDone
    rw [valid, settled, State.issueRetire_none ((s.finishRevoke_retiring n).trans still)]
    rfl
  refine ⟨_, e, ?_, s.finishRevoke_reg n, fun g phase covered => ?_, fun g out => ?_,
    (State.finishRevoke_keeps (M := 6029422) rfl (Keeps.refl _ s)).frame rfl⟩
  · rw [State.revoke_of_pitch (s.finishRevoke_pitch n), State.revoke_updRevoke]
  · have m : g ∈ s.releasedBy n := State.granule_mem_granulesWhere (by simp [phase]) (by simp [phase, covered])
    rw [State.finishRevoke_granule, if_pos m]
    rfl
  · have m : g ∉ s.releasedBy n := fun m => by
      obtain ⟨q, listed, key, test⟩ := State.mem_granulesWhere.1 m
      rcases out q listed key with phase | uncovered
      · simp [phase] at test
      · simp [uncovered] at test
    rw [State.finishRevoke_granule, if_neg m]

end Sys2Proof.Machine
end

section
/-! SUPPORT. Clears and access lists (04 R77, R78, 05 R102, 13 R274): a clear frees HELD granules, with their entries as at reset, and a
row of ACL_TABLE is stored unless it gives a host a second valid entry of its list. -/

namespace Sys2Proof.Machine

/-! ### Clearing granules -/

/-- Clearing a granule frees it, and changes no other's entry. -/
theorem State.clearAndFree_granule (s : State) (k g : Nat) :
    (s.clearAndFree k).1.granule g = if g = k then {} else s.granule g := by
  let s1 := s.servingSlices.foldl (fun a n => a.pipePush n 6 k 0) s
  have cleared : Keeps allButPitch s ((s1.forwardClear k).clearGranule k) :=
    State.clearGranule_keeps rfl (State.forwardClear_keeps rfl
      (Keeps.foldl (fun _ _ => State.pipePush_keeps rfl (Keeps.refl _ _)) _ (Keeps.refl _ s)))
  rw [← State.granule_of_pitch (cleared.1 .pitch rfl) g]
  exact State.setGranule_granule _ k g fun _ => {}

/-- A clear of several granules frees each of them, and changes no other's entry. -/
theorem State.clearAll_granule (s : State) (gs : List Nat) (g : Nat) :
    (s.clearAll gs).1.granule g = if g ∈ gs then {} else s.granule g := by
  have step : WritesAt (fun (a : State × Option Nat) g =>
      let b := a.1.clearAndFree g
      (b.1, laterHseq a.2 b.2)) (fun g => g) fun _ => {} := fun a k g => a.1.clearAndFree_granule k g
  have all := step.foldl (fun _ => rfl) gs (s, none) g
  rwa [List.map_id'] at all

/-- The granules of a run that are HELD. -/
def State.heldIn (s : State) (first count : Nat) : List Nat := s.runWhere first count fun e => e.phase == .held

/-- The granules of a run that are HELD and have never been written. -/
def State.freshIn (s : State) (first count : Nat) : List Nat :=
  s.runWhere first count fun e => e.phase == .held && !e.written

theorem State.runWhere_of_pitch {s t : State} (e : t.pitch = s.pitch) (first count : Nat) (p : PitchEntry → Bool) :
    t.runWhere first count p = s.runWhere first count p := by
  rw [State.runWhere, State.runWhere, State.granulesWhere, State.granulesWhere, e]

theorem State.mem_runWhere {s : State} {first count g : Nat} {p : PitchEntry → Bool} (low : first ≤ g)
    (high : g < first + count) (used : (s.granule g).phase ≠ .free) (h : p (s.granule g) = true) :
    g ∈ s.runWhere first count p :=
  State.granule_mem_granulesWhere used (by simp [low, high, h])

theorem State.mem_heldIn {s : State} {first count g : Nat} (low : first ≤ g) (high : g < first + count)
    (held : (s.granule g).phase = .held) : g ∈ s.heldIn first count :=
  State.mem_runWhere low high (by simp [held]) (by simp [held])

theorem State.not_mem_heldIn {s : State} {first count g : Nat} (h : g < first ∨ first + count ≤ g ∨
    ∀ q ∈ s.pitch.table, q.1 = g → q.2.phase ≠ .held) : g ∉ s.heldIn first count := by
  intro m
  unfold State.heldIn State.runWhere at m
  obtain ⟨q, listed, key, test⟩ := State.mem_granulesWhere.1 m
  simp only [Bool.and_eq_true, decide_eq_true_eq, beq_iff_eq] at test
  obtain ⟨⟨low, high⟩, held⟩ := test
  rcases h with below | above | none
  · omega
  · omega
  · exact none q listed key held

/-! ### CLEAR (R77) -/

/-- The state once a move-out that meets a clear's run has stopped (13 R290). -/
def State.clearStops (s : State) (first count : Nat) : State := match s.pair.moveOut with
  | some m => if first < m.first + m.count ∧ m.first < first + count then s.endMoveOut 3 else s
  | none => s

theorem State.clearStops_pitch (s : State) (first count : Nat) : (s.clearStops first count).pitch = s.pitch := by
  unfold State.clearStops
  split
  · split
    · exact (State.endMoveOut_keeps (M := allButPitch) rfl (Keeps.refl _ s)).1 .pitch rfl
    · rfl
  · rfl

/-- A clear's run is free to start: every granule named is HELD and within reach. -/
def State.clearable (s : State) : Prop :=
  (s.heldIn (s.reg kClearFirst) (s.reg kClearCount)).length = s.reg kClearCount ∧
    s.reg kClearFirst + s.reg kClearCount ≤ s.reach

/-- The state and the HSEQ of a clear that starts, its run's granules that were never written freed. -/
def State.freshCleared (s : State) (first count : Nat) : State × Option Nat :=
  (s.clearStops first count).clearAll ((s.clearStops first count).freshIn first count)

theorem State.freshCleared_granule {s : State} {first count g : Nat} (low : first ≤ g) (high : g < first + count)
    (held : (s.granule g).phase = .held) (fresh : (s.granule g).written = false) :
    (s.freshCleared first count).1.granule g = {} := by
  have m : g ∈ (s.clearStops first count).freshIn first count := by
    rw [State.freshIn, State.runWhere_of_pitch (s.clearStops_pitch first count)]
    exact State.mem_runWhere low high (by simp [held]) (by simp [held, fresh])
  rw [State.freshCleared, State.clearAll_granule, if_pos m]

theorem actClear_busy {s : State} {v : Nat} (h : s.boot.stage ≠ .ready ∨ s.pitch.clearRun.isSome = true) :
    (actClear v s).1 = s.setReg kClearResult 1 := by
  unfold actClear
  dsimp only
  rw [if_pos (by simpa using h)]

theorem actClear_refused {s : State} {v : Nat} (ready : s.boot.stage = .ready) (idle : s.pitch.clearRun = none)
    (h : ¬ s.clearable) : (actClear v s).1 = s.setReg kClearResult 3 := by
  have bad : (s.heldIn (s.reg kClearFirst) (s.reg kClearCount)).length ≠ s.reg kClearCount ∨
      s.reach < s.reg kClearFirst + s.reg kClearCount := by
    rw [← not_le]
    exact not_and_or.1 h
  unfold actClear
  dsimp only
  rw [if_neg (by simp [ready, idle])]
  exact congrArg Prod.fst (if_pos bad)

theorem actClear_taken {s : State} {v : Nat} (ready : s.boot.stage = .ready) (idle : s.pitch.clearRun = none)
    (h : s.clearable) :
    let w := s.freshCleared (s.reg kClearFirst) (s.reg kClearCount)
    (actClear v s).1 = State.setReg { w.1 with pitch := { w.1.pitch with
      clearRun := some ⟨s.reg kClearFirst, s.reg kClearCount, w.2⟩ } } kClearResult 2 := by
  have good : ¬ ((s.heldIn (s.reg kClearFirst) (s.reg kClearCount)).length ≠ s.reg kClearCount ∨
      s.reach < s.reg kClearFirst + s.reg kClearCount) := by
    rw [← not_le]
    exact fun q => q.elim (fun n => n h.1) fun n => n h.2
  unfold actClear
  dsimp only
  rw [if_neg (by simp [ready, idle])]
  exact congrArg Prod.fst (if_neg good)

theorem State.logged_clearable (s : State) (f : Frame) (q : Ask) (a : Ans) :
    (s.logged f q a).clearable ↔ s.clearable := by
  rw [State.clearable, State.clearable, State.heldIn, State.heldIn, State.runWhere_of_pitch (s.logged_pitch f q a),
    State.logged_at_reg, State.logged_at_reg, State.logged_reach]

theorem clear_effect {s : State} {f : Frame} {v : Nat} (h : s.accepts f (askWrite kClearGo 1 v)) :
    ∃ t, exec (.clear f v) s = .next t ∧
      (let first := s.reg kClearFirst
       let count := s.reg kClearCount
       let held := (s.runWhere first count fun e => e.phase == .held).length
       (s.boot.stage = .ready → s.pitch.clearRun = none → held = count → first + count ≤ s.reach →
         (∃ r, t.pitch.clearRun = some r ∧ r.first = first ∧ r.count = count) ∧ t.reg kClearResult = 2 ∧
         ∀ g, first ≤ g → g < first + count → (s.granule g).phase = .held → (s.granule g).written = false →
           t.granule g = {}) ∧
       (s.boot.stage = .ready → s.pitch.clearRun = none → held ≠ count ∨ s.reach < first + count →
         t.reg kClearResult = 3 ∧ t.pitch = s.pitch ∧ t.chans = s.chans) ∧
       (s.boot.stage ≠ .ready ∨ s.pitch.clearRun.isSome = true →
         t.reg kClearResult = 1 ∧ t.pitch = s.pitch ∧ t.chans = s.chans)) ∧
      s.frame t [.dict, .links, .stalls, .pitch, .slices, .chans, .xbar, .pair, .repair, .repairFace, .sec, .mgmt, .obs,
        .clock] := by
  refine ⟨_, rfl, ⟨fun ready idle held reach => ?_, fun ready idle bad => ?_, fun busy => ?_⟩,
    (execClear_keeps (M := 2172453102) rfl (Keeps.refl _ s)).frame rfl rfl⟩
  · rw [State.write_accepts _ h, actClear_taken (by rw [State.logged_boot, ready]) (by rw [State.logged_pitch, idle])
      ((s.logged_clearable _ _ _).2 ⟨held, reach⟩)]
    simp only [State.logged_at_reg]
    refine ⟨⟨_, by rw [State.answered_pitch, State.setReg_pitch], rfl, rfl⟩, ?_, fun g low high phase fresh => ?_⟩
    · rw [State.answered_at_reg, State.reg_setReg]
    · rw [State.answered_at_granule, State.setReg_at_granule]
      exact State.freshCleared_granule low high (by rw [State.logged_at_granule, phase])
        (by rw [State.logged_at_granule, fresh])
  · have refused : ¬ s.clearable := fun q => bad.elim (fun n => n q.1) fun lt => absurd q.2 (not_le.2 lt)
    rw [State.write_accepts _ h, actClear_refused (by rw [State.logged_boot, ready]) (by rw [State.logged_pitch, idle])
      ((s.logged_clearable _ _ _).not.2 refused), State.answered_at_reg, State.reg_setReg, State.answered_pitch,
      State.setReg_pitch, State.logged_pitch, State.answered_chans, State.setReg_chans, State.logged_chans]
    exact ⟨rfl, rfl, rfl⟩
  · rw [State.write_accepts _ h, actClear_busy (by simpa using busy), State.answered_at_reg, State.reg_setReg,
      State.answered_pitch, State.setReg_pitch, State.logged_pitch, State.answered_chans, State.setReg_chans,
      State.logged_chans]
    exact ⟨rfl, rfl, rfl⟩

/-! ### A clear is done (R102, R274) -/

/-- The state and the record of a clear's end: every HELD granule of its run is cleared and freed. -/
def State.runCleared (s : State) (r : ClearRun) : State × Option Nat :=
  let w := s.clearAll (s.heldIn r.first r.count)
  (w.1, laterHseq r.hseq w.2)

theorem execClearDone_covered {s : State} {r : ClearRun} (run : s.pitch.clearRun = some r)
    (covered : (s.runCleared r).1.halCovered (s.runCleared r).2 = true) : execClearDone s =
      .next (State.setReg { (s.runCleared r).1 with pitch := { (s.runCleared r).1.pitch with clearRun := none } }
        kClearResult 0) := by
  unfold execClearDone
  rw [run]
  exact congrArg Host.Outcome.next (if_pos covered)

theorem execClearDone_waits {s : State} {r : ClearRun} (run : s.pitch.clearRun = some r)
    (waits : (s.runCleared r).1.halCovered (s.runCleared r).2 = false) : execClearDone s =
      .next { (s.runCleared r).1 with pitch := { (s.runCleared r).1.pitch with
        clearRun := some { r with hseq := (s.runCleared r).2 } } } := by
  unfold execClearDone
  rw [run]
  exact congrArg Host.Outcome.next (if_neg fun q => absurd (q.symm.trans waits) Bool.noConfusion)

/-- A clear's end by its state, whether or not the partner has acknowledged its records. -/
theorem execClearDone_reads {s : State} {r : ClearRun} (run : s.pitch.clearRun = some r) :
    ∃ t, execClearDone s = .next t ∧ (∀ g, t.granule g = (s.runCleared r).1.granule g) ∧
      ((s.runCleared r).1.halCovered (s.runCleared r).2 = true → t.pitch.clearRun = none ∧ t.reg kClearResult = 0) ∧
      ((s.runCleared r).1.halCovered (s.runCleared r).2 = false →
        t.pitch.clearRun = some { r with hseq := (s.runCleared r).2 } ∧ t.dict = s.dict) := by
  cases covered : (s.runCleared r).1.halCovered (s.runCleared r).2 with
  | true =>
    refine ⟨_, execClearDone_covered run covered, fun _ => rfl, fun _ => ⟨rfl, ?_⟩, fun q => Bool.noConfusion q⟩
    rw [State.reg_setReg]
  | false =>
    refine ⟨_, execClearDone_waits run covered, fun _ => rfl, fun q => Bool.noConfusion q, fun _ => ⟨rfl, ?_⟩⟩
    exact (State.clearAll_keeps (M := allButDict) rfl (Keeps.refl _ s)).1 .dict rfl

theorem clearDone_effect {s : State} {r : ClearRun} (run : s.pitch.clearRun = some r) :
    let w := s.clearAll (s.runWhere r.first r.count fun e => e.phase == .held)
    let h := laterHseq r.hseq w.2
    ∃ t, exec .clearDone s = .next t ∧
      (w.1.halCovered h = true → t.pitch.clearRun = none ∧ t.reg kClearResult = 0) ∧
      (w.1.halCovered h = false → t.pitch.clearRun = some { r with hseq := h } ∧ t.dict = s.dict) ∧
      (∀ g, r.first ≤ g → g < r.first + r.count → (s.granule g).phase = .held → t.granule g = {}) ∧
      (∀ g, g < r.first ∨ r.first + r.count ≤ g ∨ (∀ q ∈ s.pitch.table, q.1 = g → q.2.phase ≠ .held) →
        t.granule g = s.granule g) ∧
      s.frame t [.dict, .links, .pitch, .slices, .chans, .pair, .repair, .repairFace, .obs, .clock] := by
  obtain ⟨t, e, granule, covered, waits⟩ := execClearDone_reads run
  have cleared (g : Nat) : t.granule g = if g ∈ s.heldIn r.first r.count then {} else s.granule g :=
    (granule g).trans (s.clearAll_granule _ g)
  refine ⟨t, e, covered, waits, fun g low high held => ?_, fun g out => ?_,
    (execClearDone_keeps (M := 2169241830) rfl (Keeps.refl _ s)).frame e rfl⟩
  · rw [cleared, if_pos (State.mem_heldIn low high held)]
  · rw [cleared, if_neg (State.not_mem_heldIn out)]

/-! ### ACL_TABLE (R78) -/

/-- The state with a row of ACL_TABLE stored. -/
def State.withAcl (s : State) (row : Nat) (e : AclEntry) : State :=
  { s with pitch := { s.pitch with acl := s.pitch.acl.set {} row e } }

theorem State.writeAcl_stored {s : State} {row v : Nat} (h : s.aclClash row (aclOfWord v) = false) :
    State.writeAcl row v s = ((s.withAcl row (aclOfWord v)).tellAcl (row / 64) (row % 64), 0) := by
  unfold State.writeAcl
  dsimp only
  rw [h]
  rfl

theorem State.writeAcl_refused {s : State} {row v : Nat} (h : s.aclClash row (aclOfWord v) = true) :
    (State.writeAcl row v s).2 ≠ 0 := by
  unfold State.writeAcl
  dsimp only
  rw [h]
  exact Nat.succ_ne_zero 2

theorem State.tellAcl_pitch (s : State) (list entry : Nat) : (s.tellAcl list entry).pitch = s.pitch :=
  (State.tellAcl_keeps (M := allButPitch) rfl (Keeps.refl _ s)).1 .pitch rfl

theorem State.logged_aclClash (s : State) (f : Frame) (q : Ask) (a : Ans) (row : Nat) (e : AclEntry) :
    (s.logged f q a).aclClash row e = s.aclClash row e := by
  rw [State.aclClash, State.logged_pitch, State.aclClash]

theorem aclTableWrite_effect {s : State} {f : Frame} {row v : Nat} (h : s.accepts f (askRows kAclTable 4 row [v])) :
    ∃ t, exec (.aclTableWrite f row [v]) s = .next t ∧
      (s.aclClash row (aclOfWord v) = false → t.pitch.acl.get {} row = aclOfWord v ∧
        (∀ j, j ≠ row → t.pitch.acl.get {} j = s.pitch.acl.get {} j) ∧ t.pitch.table = s.pitch.table) ∧
      (s.aclClash row (aclOfWord v) = true → t.pitch = s.pitch) ∧
      s.frame t [.links, .stalls, .pitch, .xbar, .pair, .repair, .sec, .mgmt, .obs] := by
  refine ⟨_, rfl, fun clear => ?_, fun clash => ?_,
    (execAclTableWrite_keeps (M := 8192044) rfl (Keeps.refl _ s)).frame rfl rfl⟩
  · unfold State.writeWindow
    rw [State.mgmtFrame_accepts _ h]
    generalize (writeRows (fun r v s => State.writeAcl r v s) row [v] s).2 = a
    have stored := State.writeAcl_stored (s := s.logged f (askRows kAclTable 4 row [v]) a)
      ((s.logged_aclClash _ _ _ _ _).trans clear)
    rw [writeRows_one_stored (congrArg Prod.snd stored), stored, State.answered_pitch, State.tellAcl_pitch,
      State.withAcl, State.logged_pitch]
    exact ⟨Tbl.get_set_same _ _ _ _, fun j o => Tbl.get_set_other _ _ _ o, rfl⟩
  · unfold State.writeWindow
    rw [State.mgmtFrame_accepts _ h, State.answered_pitch, writeRows_one_refused, State.logged_pitch]
    exact State.writeAcl_refused ((s.logged_aclClash _ _ _ _ _).trans clash)

/-- Settles O22, a lemma for each command. -/
theorem granulesAreHeldAndFreed : Obligations.GranulesAreHeldAndFreed := by
  unfold Obligations.GranulesAreHeldAndFreed
  exact ⟨⟨fun _ _ _ h => revoke_effect h, fun _ _ valid early => revokeDeadlineExpiry_effect valid early,
    fun _ _ valid settled still => revokeDone_effect valid settled still⟩, fun _ _ _ h => clear_effect h,
    fun _ _ run => clearDone_effect run, fun _ _ _ _ h => aclTableWrite_effect h⟩

end Sys2Proof.Machine
end

section
/-! SUPPORT. The DRAM channels (05 R105, R106, R108): the access that a command serves, the rows that maintenance closes, and the commands
that a refresh interval adds. -/

namespace Sys2Proof.Machine

/-! ### Maintenance that waits -/

theorem State.pipePush_at_chan (s : State) (n level source what j : Nat) :
    (s.pipePush n level source what).chan j = s.chan j :=
  congrArg (fun x => Tbl.get x ({} : ChanSt) j)
    ((State.pipePush_keeps (M := 20971584) rfl (Keeps.refl _ s)).1 .chans rfl)

/-- A command of maintenance joins the end of its unit's list. -/
theorem State.maintain_at_chan (s : State) (n : Nat) (m : MaintOp) (j : Nat) :
    (s.maintain n m).chan j = if j = n then { s.chan n with maint := (s.chan n).maint ++ [m] } else s.chan j :=
  (State.pipePush_at_chan _ _ _ _ _ j).trans (s.chan_updChan_if j n _)

theorem State.maintain_all_at_chan (n : Nat) (ops : List MaintOp) (s : State) (j : Nat) :
    (ops.foldl (fun a m => a.maintain n m) s).chan j =
      if j = n then { s.chan n with maint := (s.chan n).maint ++ ops } else s.chan j := by
  induction ops generalizing s with
  | nil =>
    rw [List.foldl_nil, List.append_nil]
    split
    · next q => rw [q]
    · rfl
  | cons m ops ih =>
    rw [List.foldl_cons, ih, State.maintain_at_chan, State.maintain_at_chan, if_pos rfl, List.append_assoc]
    split
    · rfl
    · rfl

/-! ### An access that is served (R105) -/

/-- The rotating pointer finds a number that passes the test, where one of the range does. -/
theorem rotate_of_exists {n b : Nat} (start : Nat) {p : Nat → Bool} (less : b < n) (pass : p b = true) :
    ∃ a, rotate n start p = some a ∧ a < n ∧ p a = true := by
  have reach : (start + (b + n - start % n) % n) % n = b := by
    have := Nat.mod_lt start (Nat.zero_lt_of_lt less)
    rw [Nat.add_mod_mod, ← Nat.mod_add_mod, show start % n + (b + n - start % n) = b + n by omega, Nat.add_mod_right,
      Nat.mod_eq_of_lt less]
  have found : (rotate n start p).isSome = true :=
    List.findSome?_isSome_iff.2 ⟨(b + n - start % n) % n, List.mem_range.2 (Nat.mod_lt _ (Nat.zero_lt_of_lt less)), by
      rw [reach, if_pos pass]
      rfl⟩
  obtain ⟨a, e⟩ := Option.isSome_iff_exists.1 found
  obtain ⟨i, _, at_i⟩ := List.exists_of_findSome?_eq_some e
  split at at_i
  · next pass =>
    cases at_i
    exact ⟨_, e, Nat.mod_lt _ (Nat.zero_lt_of_lt less), pass⟩
  · cases at_i

/-- A bank with an entry that may issue serves such an entry. -/
theorem Bank.pick_of_any {b : Bank} {ok : Nat × Bool × Nat → Bool} (cap : Nat) (h : b.queue.any ok = true) :
    ∃ q, b.pick ok cap = some q ∧ q ∈ b.queue ∧ ok q = true := by
  have listed {q} (m : q ∈ b.queue.filter ok) : q ∈ b.queue ∧ ok q = true := List.mem_filter.1 m
  have oldest : ∃ q, (b.queue.filter ok).head? = some q ∧ q ∈ b.queue ∧ ok q = true := by
    obtain ⟨q, m, pass⟩ := List.any_eq_true.1 h
    obtain ⟨a, e⟩ := Option.isSome_iff_exists.1 (List.isSome_head?.2 (List.ne_nil_of_mem (List.mem_filter.2 ⟨m, pass⟩)))
    exact ⟨a, e, listed (List.mem_of_head? e)⟩
  unfold Bank.pick
  dsimp only
  split
  · exact oldest
  · split
    · next q hit => exact ⟨q, rfl, listed (List.mem_of_find?_eq_some hit)⟩
    · exact oldest

/-- A channel once its write buffer has begun, or ceased, to drain. -/
def ChanSt.drained (c : ChanSt) : ChanSt := { c with draining := c.drains }

/-- A channel once a bank has served an entry. -/
def ChanSt.served (c : ChanSt) (b : Nat) (q : Nat × Bool × Nat) (idle : Nat) : ChanSt := { c with
  banks := c.banks.upd {} b fun k => k.serve q idle
  bankPtr := (b + 1) % 256
  wbuf := if q.2.1 then c.wbuf.filter (· ≠ q.1) else c.wbuf }

theorem ChanSt.served_bank (c : ChanSt) (b : Nat) (q : Nat × Bool × Nat) (idle j : Nat) :
    (c.served b q idle).banks.get {} j = if j = b then (c.banks.get {} b).serve q idle else c.banks.get {} j :=
  c.banks.get_upd {} j b fun k => k.serve q idle

/-- With no maintenance waiting, the bank at the pointer serves the entry it picks at the highest level. -/
theorem execDramCommandIssue_access {s : State} {n lv b : Nat} {q : Nat × Bool × Nat} (less : n < 32)
    (idle : (s.chan n).maint.head? = none) (top : (s.chan n).drained.topLevel = some lv)
    (turn : rotate 256 (s.chan n).drained.bankPtr (fun b => ((s.chan n).drained.banks.get {} b).queue.any fun q =>
      (s.chan n).drained.issuable q && q.2.2 == lv) = some b)
    (pick : ((s.chan n).drained.banks.get {} b).pick (fun q => (s.chan n).drained.issuable q && q.2.2 == lv)
      (s.reg kRowHitCap) = some q) :
    execDramCommandIssue n s =
      .next ((s.updChan n fun _ => (s.chan n).drained.served b q (s.reg kPageIdle)).manageBank n b) := by
  unfold ChanSt.drained at top turn pick
  unfold execDramCommandIssue
  dsimp only
  rw [if_pos less, idle]
  dsimp only
  rw [top]
  dsimp only
  rw [turn]
  dsimp only
  rw [pick]
  rfl

/-- From `s` to `t` a bank of a unit keeps its queue, the unit its other banks and its lines, and every other unit all it has. -/
structure BanksKept (n b : Nat) (s t : State) : Prop where
  queue : ((t.chan n).banks.get {} b).queue = ((s.chan n).banks.get {} b).queue
  banks : ∀ j, j ≠ b → (t.chan n).banks.get {} j = (s.chan n).banks.get {} j
  mem : (t.chan n).mem = (s.chan n).mem
  wbuf : (t.chan n).wbuf = (s.chan n).wbuf
  others : ∀ j, j ≠ n → t.chan j = s.chan j

/-- Refresh management of a bank (R110) sets its count of activations and adds a command of maintenance. -/
theorem State.manageBank_kept (s : State) (n b : Nat) : BanksKept n b s (s.manageBank n b) := by
  unfold State.manageBank
  split
  · constructor
    case others =>
      intro j o
      rw [State.maintain_at_chan, if_neg o, State.chan_updChan_other _ _ o]
    case banks =>
      intro j o
      rw [State.maintain_at_chan, if_pos rfl, State.chan_updChan]
      dsimp only
      rw [Tbl.get_upd_other _ _ _ o]
    all_goals
      rw [State.maintain_at_chan, if_pos rfl, State.chan_updChan]
    case queue =>
      dsimp only
      rw [Tbl.get_upd_same]
  · exact ⟨rfl, fun _ _ => rfl, rfl, rfl, fun _ _ => rfl⟩

/-- R105: where no maintenance waits, one waiting access of the highest level leaves its bank's queue. -/
theorem dramCommandIssue_access {s : State} {n lv : Nat} (less : n < 32) (idle : (s.chan n).maint = [])
    (top : (s.chan n).drained.topLevel = some lv)
    (waits : ∃ b, b < 256 ∧ ∃ q ∈ ((s.chan n).banks.get {} b).queue, (s.chan n).drained.issuable q = true ∧ q.2.2 = lv) :
    ∃ t, exec (.dramCommandIssue n) s = .next t ∧
      (∃ b q, b < 256 ∧ q ∈ ((s.chan n).banks.get {} b).queue ∧ (s.chan n).drained.issuable q = true ∧ q.2.2 = lv ∧
        ((t.chan n).banks.get {} b).queue = dropFirst q ((s.chan n).banks.get {} b).queue ∧
        (∀ j, j ≠ b → (t.chan n).banks.get {} j = (s.chan n).banks.get {} j) ∧
        (t.chan n).wbuf = (if q.2.1 then (s.chan n).wbuf.filter (· ≠ q.1) else (s.chan n).wbuf)) ∧
      (t.chan n).mem = (s.chan n).mem ∧ (∀ j, j ≠ n → t.chan j = s.chan j) ∧ s.frame t [.slices, .chans, .obs, .clock] := by
  obtain ⟨b₀, less₀, q₀, m₀, issues₀, level₀⟩ := waits
  obtain ⟨b, turn, low, any⟩ := rotate_of_exists (s.chan n).drained.bankPtr (p := fun b =>
    ((s.chan n).drained.banks.get {} b).queue.any fun q => (s.chan n).drained.issuable q && q.2.2 == lv) less₀
    (List.any_eq_true.2 ⟨q₀, m₀, by simp [issues₀, level₀]⟩)
  obtain ⟨q, pick, m, ok⟩ := Bank.pick_of_any (s.reg kRowHitCap) any
  obtain ⟨issues, level⟩ : (s.chan n).drained.issuable q = true ∧ q.2.2 = lv := by simpa using ok
  have e := execDramCommandIssue_access less (by rw [idle]; rfl) top turn pick
  have kept := State.manageBank_kept (s.updChan n fun _ => (s.chan n).drained.served b q (s.reg kPageIdle)) n b
  have at_n := s.chan_updChan n fun _ => (s.chan n).drained.served b q (s.reg kPageIdle)
  refine ⟨_, e, ⟨b, q, low, m, issues, level, ?_, fun j o => ?_, ?_⟩, ?_, fun j o => ?_,
    (execDramCommandIssue_keeps (M := 20971712) rfl (Keeps.refl _ s)).frame e rfl⟩
  · rw [kept.queue, at_n, ChanSt.served_bank, if_pos rfl]
    rfl
  · rw [kept.banks j o, at_n, ChanSt.served_bank, if_neg o]
    rfl
  · rw [kept.wbuf, at_n]
    rfl
  · rw [kept.mem, at_n]
    rfl
  · rw [kept.others j o, State.chan_updChan_other _ _ o]

/-! ### Rows that close (R106, R108) -/

theorem Bank.closed_closed (b : Bank) : b.closed.closed = b.closed := rfl

/-- The listed banks that a command takes are closed; one that is not listed is closed as it stands. -/
theorem get_closeTaken (p : Nat → Bool) (keys : List Nat) (t : Tbl Bank) (b : Nat) :
    (keys.foldl (fun t k => if p k then t.upd {} k Bank.closed else t) t).get {} b =
      if p b = true ∧ b ∈ keys then (t.get {} b).closed else t.get {} b := by
  induction keys generalizing t with
  | nil => simp
  | cons k keys ih =>
    rw [List.foldl_cons, ih]
    by_cases same : b = k
    · subst same
      cases p b <;> simp [Tbl.get_upd_same, Bank.closed_closed]
    · cases taken : p k <;> simp [same, Tbl.get_upd_other _ _ _ same]

/-- R108: the rows of the banks that a maintenance command takes close, and the other banks stay. -/
theorem State.maintIssue_at_chan (s : State) (n : Nat) (m : MaintOp) (b : Nat) :
    ((s.maintIssue n m).chan n).banks.get {} b =
      if s.takesBank n m b then ((s.chan n).banks.get {} b).closed else (s.chan n).banks.get {} b := by
  unfold State.maintIssue
  rw [State.chan_updChan]
  refine (get_closeTaken (s.takesBank n m) _ _ b).trans ?_
  by_cases listed : b ∈ (s.chan n).banks.map Prod.fst
  · simp only [listed, and_true]
  · have unlisted : (s.chan n).banks.get {} b = {} := by
      by_contra other
      exact listed (List.mem_map.2 ⟨_, Tbl.mem_of_get_ne other, rfl⟩)
    rw [if_neg fun h => listed h.2, unlisted]
    exact (ite_self _).symm

theorem dramCommandIssue_maintenance {s : State} {n : Nat} {m : MaintOp} {l : List MaintOp} (less : n < 32)
    (waits : (s.chan n).maint = m :: l) :
    ∃ t, exec (.dramCommandIssue n) s = .next t ∧ (t.chan n).maint = l ∧
      (∀ b, (t.chan n).banks.get {} b = if s.takesBank n m b then ((s.chan n).banks.get {} b).closed
        else (s.chan n).banks.get {} b) ∧
      (t.chan n).mem = (s.chan n).mem ∧ (t.chan n).wbuf = (s.chan n).wbuf ∧ (∀ j, j ≠ n → t.chan j = s.chan j) ∧
      s.frame t [.chans] := by
  have e : execDramCommandIssue n s = .next (s.maintIssue n m) := by
    have head : (s.chan n).maint.head? = some m := by rw [waits]; rfl
    unfold execDramCommandIssue
    dsimp only
    rw [if_pos less, head]
  have at_n : (s.maintIssue n m).chan n = _ := s.chan_updChan n _
  refine ⟨_, e, ?_, s.maintIssue_at_chan n m, ?_, ?_, fun j o => s.chan_updChan_other _ o,
    (State.maintIssue_keeps (M := 128) rfl (Keeps.refl _ s)).frame rfl⟩
  · rw [at_n]
    exact congrArg (List.drop 1) waits
  · rw [at_n]
  · rw [at_n]

theorem pageIdleClose_effect {s : State} {n b : Nat} (less : n < 32) (low : b < 256) :
    ∃ t, exec (.pageIdleClose n b) s = .next t ∧
      (t.chan n).banks.get {} b = { (s.chan n).banks.get {} b with openRow := none, hits := 0 } ∧
      (∀ j, j ≠ b → (t.chan n).banks.get {} j = (s.chan n).banks.get {} j) ∧
      (t.chan n).mem = (s.chan n).mem ∧ (∀ j, j ≠ n → t.chan j = s.chan j) ∧ s.frame t [.chans] := by
  have e : execPageIdleClose n b s = .next (s.updChan n fun c => { c with
      banks := c.banks.upd {} b fun k => { k with openRow := none, hits := 0 } }) :=
    congrArg Host.Outcome.next (if_pos ⟨less, low⟩)
  refine ⟨_, e, ?_, fun j o => ?_, ?_, fun j o => s.chan_updChan_other _ o,
    (execPageIdleClose_keeps (M := 128) rfl (Keeps.refl _ s)).frame e rfl⟩
  · rw [State.chan_updChan, Tbl.get_upd_same]
  · rw [State.chan_updChan, Tbl.get_upd_other _ _ _ o]
  · rw [State.chan_updChan]

/-! ### Refresh (R108) -/

/-- A channel whose refresh interval is over: it is counted, and the next one is due. -/
def ChanSt.refreshed (c : ChanSt) (due : Nat) : ChanSt := { c with refreshes := c.refreshes + 1, nextRefresh := due }

theorem State.refreshOps_fold_at_chan (s : State) (n due j : Nat) :
    ((s.refreshOps n).foldl (fun a m => a.maintain n m) (s.updChan n fun c => c.refreshed due)).chan j =
      if j = n then { (s.chan n).refreshed due with maint := (s.chan n).maint ++ s.refreshOps n } else s.chan j := by
  rw [State.maintain_all_at_chan, State.chan_updChan]
  split
  · rfl
  · next o => rw [State.chan_updChan_other _ _ o]

/-- What a refresh interval leaves in a unit: its commands wait behind those that wait already. -/
theorem refreshInterval_at_chan {s : State} {hbm : Bool} {unit : Nat} (less : unit < if hbm then 8 else 32) :
    let n := if hbm then 32 + unit else unit
    ∃ t, exec (.refreshInterval hbm unit) s = .next t ∧ ∀ j, t.chan j =
      if j = n then { (s.chan n).refreshed (s.time.ticks + s.refreshNs hbm n) with
        maint := (s.chan n).maint ++ if hbm then [] else s.refreshOps n } else s.chan j := by
  cases hbm
  case false =>
    have slice : unit / 4 < 8 := by simp only [Bool.false_eq_true, if_false] at less; omega
    refine ⟨_, congrArg Host.Outcome.next (if_pos slice), fun j => ?_⟩
    exact State.refreshOps_fold_at_chan s unit _ j
  case true =>
    refine ⟨_, congrArg Host.Outcome.next (if_pos less), fun j => ?_⟩
    refine (State.pipePush_at_chan _ _ _ _ _ j).trans ((s.chan_updChan_if j (32 + unit) _).trans ?_)
    simp only [if_true, List.append_nil]
    rfl

theorem refreshInterval_effect {s : State} {hbm : Bool} {unit : Nat} (less : unit < if hbm then 8 else 32) :
    let n := if hbm then 32 + unit else unit
    ∃ t, exec (.refreshInterval hbm unit) s = .next t ∧
      (t.chan n).refreshes = (s.chan n).refreshes + 1 ∧
      (t.chan n).maint = (s.chan n).maint ++ (if hbm then [] else s.refreshOps n) ∧
      (t.chan n).nextRefresh = s.time.ticks + s.refreshNs hbm n ∧ (t.chan n).banks = (s.chan n).banks ∧
      (t.chan n).mem = (s.chan n).mem ∧ (∀ j, j ≠ n → t.chan j = s.chan j) ∧ s.frame t [.chans, .slices, .obs, .clock] := by
  intro n
  obtain ⟨t, e, at_chan⟩ := refreshInterval_at_chan (s := s) less
  have own := (at_chan n).trans (if_pos rfl)
  exact ⟨t, e, congrArg ChanSt.refreshes own, congrArg ChanSt.maint own, congrArg ChanSt.nextRefresh own,
    (congrArg ChanSt.banks own :), (congrArg ChanSt.mem own :), fun j o => (at_chan j).trans (if_neg o),
    (execRefreshInterval_keeps (M := 20971712) rfl (Keeps.refl _ s)).frame e rfl⟩

/-- Settles O24, a lemma for each command, and two for the command that finds maintenance waiting or not. -/
theorem channelsServeTheirQueues : Obligations.ChannelsServeTheirQueues := by
  unfold Obligations.ChannelsServeTheirQueues
  exact ⟨fun _ _ _ less idle top waits => dramCommandIssue_access less idle top waits,
    fun _ _ _ _ less waits => dramCommandIssue_maintenance less waits, fun _ _ _ less low => pageIdleClose_effect less low,
    fun _ _ _ less => refreshInterval_effect less⟩

end Sys2Proof.Machine
end

section
/-! SUPPORT. Frames through a copy (05 R99, R101): the lines of a region that move between the tiers leave every frame table entry, the
fills that wait and the fold, and no count of moves; and what the steps of a move write. -/

namespace Sys2Proof.Machine

/-! ### Counts of other rows -/

/-- Rows of a tally lie below 128, so a count leaves what every instance of any group reads in another row. -/
theorem State.tallyOf_count_otherRow (s : State) (g g' : Group) (i i' n : Nat) {r r' : Nat} (low : r < 128) (low' : r' < 128)
    (o : r' ≠ r) : (s.count g i r n).tallyOf g' i' r' = s.tallyOf g' i' r' := by
  have keys : tallyKey g'.no i' r' ≠ tallyKey g.no i r := by
    unfold tallyKey
    omega
  exact s.obs.tally.get_upd_other 0 (fun v => v + BitVec.ofNat 64 n) keys

/-! ### What a copy keeps -/

/-- From `s` to `t` the frame tables and the fills that wait are the same, the pool is folded as it was, and no move is counted. -/
structure FramesKept (s t : State) : Prop where
  frames : ∀ n, (t.slice n).frames = (s.slice n).frames
  waitFills : ∀ n, (t.slice n).waitFills = (s.slice n).waitFills
  foldSlice : t.repair.foldSlice = s.repair.foldSlice
  fills : ∀ n, t.tallyOf .slice n 52 = s.tallyOf .slice n 52
  evictions : ∀ n, t.tallyOf .slice n 53 = s.tallyOf .slice n 53

theorem FramesKept.refl (s : State) : FramesKept s s := ⟨fun _ => rfl, fun _ => rfl, rfl, fun _ => rfl, fun _ => rfl⟩

theorem FramesKept.trans {s t u : State} (h : FramesKept s t) (k : FramesKept t u) : FramesKept s u :=
  ⟨fun n => (k.frames n).trans (h.frames n), fun n => (k.waitFills n).trans (h.waitFills n), k.foldSlice.trans h.foldSlice,
    fun n => (k.fills n).trans (h.fills n), fun n => (k.evictions n).trans (h.evictions n)⟩

/-- What leaves slices, folds and tallies alone keeps the frames. -/
theorem FramesKept.of_same {s t : State} (slices : t.slices = s.slices) (fold : t.repair.foldSlice = s.repair.foldSlice)
    (tally : t.obs.tally = s.obs.tally) : FramesKept s t := by
  have slice (n : Nat) : t.slice n = s.slice n := congrArg (fun x : Tbl SliceSt => x.get {} n) slices
  have row (n r : Nat) : t.tallyOf .slice n r = s.tallyOf .slice n r := by rw [State.tallyOf, State.tallyOf, tally]
  exact ⟨fun n => by rw [slice], fun n => by rw [slice], fold, fun n => row n 52, fun n => row n 53⟩

theorem FramesKept.foldl {α : Type} {f : State → α → State} (hf : ∀ a x, FramesKept a (f a x)) (l : List α) (s : State) :
    FramesKept s (l.foldl f s) := by
  induction l generalizing s with
  | nil => exact FramesKept.refl s
  | cons x l ih => exact (hf s x).trans (ih _)

section
variable (s : State) (n : Nat)

theorem FramesKept.count (g : Group) (i amount : Nat) {r : Nat} (low : r < 128) (fill : r ≠ 52) (evict : r ≠ 53) :
    FramesKept s (s.count g i r amount) where
  frames _ := rfl
  waitFills _ := rfl
  foldSlice := rfl
  fills j := s.tallyOf_count_otherRow g .slice i j amount low (by decide) fill.symm
  evictions j := s.tallyOf_count_otherRow g .slice i j amount low (by decide) evict.symm

theorem FramesKept.updSlice {f : SliceSt → SliceSt} (frames : ∀ x, (f x).frames = x.frames)
    (waits : ∀ x, (f x).waitFills = x.waitFills) : FramesKept s (s.updSlice n f) where
  frames j := by
    rw [State.slice_updSlice_if]
    split
    · next q => rw [q, frames]
    · rfl
  waitFills j := by
    rw [State.slice_updSlice_if]
    split
    · next q => rw [q, waits]
    · rfl
  foldSlice := rfl
  fills _ := rfl
  evictions _ := rfl

theorem FramesKept.updChan (f : ChanSt → ChanSt) : FramesKept s (s.updChan n f) :=
  FramesKept.of_same rfl rfl rfl

theorem FramesKept.beginRamp : FramesKept s (s.beginRamp n) := by
  unfold State.beginRamp
  dsimp only
  have low : (if n < 8 then 18 + n else if n = 8 then 16 else if n = 9 then 17 else 26) ≤ 26 := by split_ifs <;> omega
  generalize (if n < 8 then 18 + n else if n = 8 then 16 else if n = 9 then 17 else 26) = row at low ⊢
  refine FramesKept.trans ?_ (FramesKept.count _ .board 0 1 (r := row) (by omega) (by omega) (by omega))
  exact FramesKept.of_same rfl rfl rfl

theorem FramesKept.wakeSlice : FramesKept s (s.wakeSlice n) := by
  unfold State.wakeSlice
  split
  · exact (FramesKept.beginRamp s n).trans (FramesKept.updSlice _ n (fun _ => rfl) fun _ => rfl)
  · exact FramesKept.updSlice s n (fun _ => rfl) fun _ => rfl
  · exact FramesKept.refl s

theorem FramesKept.pipePush (level source what : Nat) : FramesKept s (s.pipePush n level source what) := by
  unfold State.pipePush
  split_ifs
  · exact FramesKept.refl s
  · exact FramesKept.updSlice s n (fun _ => rfl) fun _ => rfl
  · exact (FramesKept.wakeSlice s n).trans (FramesKept.updSlice _ n (fun _ => rfl) fun _ => rfl)

theorem FramesKept.maintain (m : MaintOp) : FramesKept s (s.maintain n m) :=
  (FramesKept.updChan s n _).trans (FramesKept.pipePush _ _ _ _ _)

theorem FramesKept.queueCopies (c : CrierCopy) (l : List Nat) : FramesKept s (s.queueCopies c l) := by
  induction l generalizing s with
  | nil => exact FramesKept.refl s
  | cons st l ih =>
    unfold State.queueCopies
    dsimp only
    refine FramesKept.trans ?_ (ih _)
    refine FramesKept.trans (t := s.updStall st _) ?_ (FramesKept.count _ _ _ _ (by decide) (by decide) (by decide))
    exact FramesKept.of_same rfl rfl rfl

theorem FramesKept.crier (g : RegionNo) (code unit detail : Nat) (hosts : List Nat) :
    FramesKept s (s.crier g code unit detail hosts) := by
  unfold State.crier
  dsimp only
  refine FramesKept.trans ?_ (FramesKept.queueCopies _ _ _)
  exact FramesKept.of_same rfl rfl rfl

theorem FramesKept.setErrTable (e : Tbl ErrEntry) : FramesKept s (s.setErrTable n e) := by
  unfold State.setErrTable
  split
  · exact FramesKept.updSlice s n (fun _ => rfl) fun _ => rfl
  · exact FramesKept.of_same rfl rfl rfl

theorem FramesKept.logError (e : ErrEntry) : FramesKept s (s.logError n e) := by
  unfold State.logError
  extract_lets region entry w s1 s2
  have stored : FramesKept s s1 := FramesKept.setErrTable s n _
  have counted : FramesKept s s2 := by
    dsimp only [s2]
    split_ifs
    · exact stored.trans (FramesKept.count _ _ _ _ (by decide) (by decide) (by decide))
    · exact stored.trans (FramesKept.count _ _ _ _ (by decide) (by decide) (by decide))
    · exact stored
  split
  · exact counted
  · exact counted.trans (FramesKept.crier _ _ _ _ _ _)

theorem FramesKept.setFarLine (off : Nat) (l : SLine) : FramesKept s (s.setFarLine off l) := by
  unfold State.setFarLine
  dsimp only
  split
  · exact FramesKept.of_same rfl rfl rfl
  · exact FramesKept.updChan s _ _

theorem FramesKept.setAt (h : Home) (off : Nat) (l : SLine) : FramesKept s (s.setAt h off l) := by
  unfold State.setAt
  split
  · exact FramesKept.setFarLine s off l
  · exact FramesKept.updChan s _ _

theorem FramesKept.queueDram (h : Home) (write : Bool) (level : Nat) : FramesKept s (s.queueDram h write level) := by
  have woken : FramesKept s (if level = 5 then s.wakeSlice h.slice else s) := by
    split
    · exact FramesKept.wakeSlice s _
    · exact FramesKept.refl s
  unfold State.queueDram
  dsimp only
  split
  · exact woken
  · exact woken.trans (FramesKept.updChan _ _ _)

end

/-! ### Errors that a copy meets -/

theorem State.unitCode_le (s : State) (h : Home) : s.unitCode h ≤ 3 := by
  unfold State.unitCode
  split
  · split
    · split <;> decide
    · decide
  · split <;> decide

section
variable (s : State) (h : Home) (off : Nat)

theorem FramesKept.hardFault (group : Nat) (value : SLine) : FramesKept s (s.hardFault h off group value) := by
  unfold State.hardFault
  dsimp only
  split_ifs
  · exact FramesKept.refl s
  · exact (FramesKept.updChan s _ _).trans ((FramesKept.maintain _ _ _).trans (FramesKept.logError _ _ _))
  · exact (FramesKept.logError s _ _).trans (FramesKept.updChan _ _ _)
  · exact FramesKept.refl s

theorem FramesKept.verify (group : Nat) (again : BitVec 640) : FramesKept s (s.verify h off group again) := by
  unfold State.verify
  dsimp only
  split
  · exact FramesKept.refl s
  · exact FramesKept.hardFault s h off _ _

theorem FramesKept.noteUncorrectable (host : Nat) : FramesKept s (s.noteUncorrectable h off host) := by
  have code := s.unitCode_le h
  unfold State.noteUncorrectable
  dsimp only
  refine FramesKept.trans ?_ (FramesKept.logError _ _ _)
  refine FramesKept.trans ?_ (FramesKept.updChan _ _ _)
  exact (FramesKept.setAt s h off _).trans (FramesKept.count _ _ _ _ (by omega) (by omega) (by omega))

theorem FramesKept.noteCorrected (host g : Nat) : FramesKept s (s.noteCorrected h off host g) := by
  have code := s.unitCode_le h
  have counted : FramesKept s (s.count .slice h.slice (63 + s.unitCode h)) :=
    FramesKept.count _ _ _ _ (by omega) (by omega) (by omega)
  unfold State.noteCorrected
  dsimp only
  split
  · exact (counted.trans (FramesKept.setAt _ h off _)).trans
      ((FramesKept.logError _ _ _).trans (FramesKept.verify _ h off _ _))
  · exact counted

theorem FramesKept.note (host : Nat) : FramesKept s (s.note h off host) := by
  unfold State.note
  dsimp only
  split
  · exact FramesKept.noteUncorrectable s h off host
  · exact FramesKept.count _ _ _ _ (by decide) (by decide) (by decide)
  · split
    · exact FramesKept.noteCorrected s h off host _
    · exact FramesKept.refl s

end

/-! ### Pages up and down -/

section
variable (s : State) (n f : Nat)

theorem FramesKept.copyUp (q i : Nat) : FramesKept s (s.copyUp n f q i) := by
  unfold State.copyUp
  dsimp only
  exact (FramesKept.note s _ _ _).trans ((FramesKept.queueDram _ _ _ _).trans (FramesKept.updChan _ _ _))

theorem FramesKept.copyDown (q i : Nat) : FramesKept s (s.copyDown n f q i) := by
  unfold State.copyDown
  dsimp only
  exact (FramesKept.note s _ _ _).trans ((FramesKept.queueDram _ _ _ _).trans (FramesKept.setFarLine _ _ _))

theorem FramesKept.pagesUp (pages : List Nat) : FramesKept s (s.pagesUp n f pages) :=
  FramesKept.foldl (fun a _ => (FramesKept.pipePush a _ _ _ _).trans
    (FramesKept.foldl (fun b _ => FramesKept.copyUp b n f _ _) _ _)) pages s

theorem FramesKept.pagesDown (pages : List Nat) : FramesKept s (s.pagesDown n f pages) :=
  FramesKept.foldl (fun a _ => (FramesKept.pipePush a _ _ _ _).trans
    (FramesKept.foldl (fun b _ => FramesKept.copyDown b n f _ _) _ _)) pages s

end

end Sys2Proof.Machine
end

section
/-! SUPPORT. Moves between the tiers (05 R99 to R102): how a move starts in an open window, what it leaves when it is finished, and what one
that is abandoned leaves. -/

namespace Sys2Proof.Machine

/-! ### What a window asks -/

theorem State.windowOk_congr {s t : State} (time : t.time = s.time) (gates : t.gates = s.gates) (dict : t.dict = s.dict)
    (n : Nat) : t.windowOk n = s.windowOk n := by
  unfold State.windowOk State.windowLeft State.fbPhase State.fbBefore State.fbCycle State.reg
  rw [time, gates, dict]

theorem State.regionGranted_congr {s t : State} (pitch : t.pitch = s.pitch)
    (fold : t.repair.foldSlice = s.repair.foldSlice) (n r : Nat) : t.regionGranted n r = s.regionGranted n r := by
  unfold State.regionGranted State.regionGranules State.pageOf State.granule
  rw [pitch, fold]

/-! ### Frames that are freed, filled and evicted -/

theorem SliceSt.putCand_frames (x : SliceSt) (c : Candidate) :
    ((x.putCand c).getD x).frames = x.frames ∧ ((x.putCand c).getD x).waitFills = x.waitFills := by
  unfold SliceSt.putCand
  dsimp only
  split
  · exact ⟨rfl, rfl⟩
  · split <;> exact ⟨rfl, rfl⟩

/-- A frame whose lines are forgotten, and which is released. -/
def State.freed (s : State) (n f : Nat) : State := (s.wipeFrame n f).releaseFrame n f

section
variable (s : State) (n f : Nat)

theorem State.wipeFrame_slice (j : Nat) : (s.wipeFrame n f).slice j = s.slice j := rfl

theorem State.freed_slice : ((s.freed n f).slice n).frames = (s.slice n).frames.set {} f {} ∧
    ((s.freed n f).slice n).waitFills = (s.slice n).waitFills := by
  unfold State.freed State.releaseFrame
  rw [State.slice_updSlice, State.wipeFrame_slice]
  dsimp only
  split
  · rw [(SliceSt.putCand_frames _ _).1, (SliceSt.putCand_frames _ _).2]
    with_reducible exact ⟨rfl, rfl⟩
  · with_reducible exact ⟨rfl, rfl⟩

theorem State.freed_frame : ((s.freed n f).slice n).frames.get {} f = {} := by
  rw [(s.freed_slice n f).1, Tbl.get_set_same]

theorem State.freed_keeps : Keeps 192 s (s.freed n f) :=
  State.releaseFrame_keeps rfl (State.wipeFrame_keeps rfl (Keeps.refl _ s))

theorem State.freed_tallyOf (g : Group) (i r : Nat) : (s.freed n f).tallyOf g i r = s.tallyOf g i r := by
  have obs : (s.freed n f).obs = s.obs := (s.freed_keeps n f).1 .obs rfl
  rw [State.tallyOf, obs]
  rfl

/-- A frame that begins to fill holds its region, of which it has no page yet (R101). -/
theorem State.beginFill_frame (r : Nat) (pinned walked : Bool) :
    let e := ((s.beginFill n f r pinned walked).slice n).frames.get {} f
    e.phase = .filling ∧ e.region = r ∧ e.pages = 0 ∧ e.pinned = pinned := by
  unfold State.beginFill
  rw [State.slice_updSlice]
  dsimp only
  rw [Tbl.get_set_same]
  exact ⟨rfl, rfl, rfl, rfl⟩

theorem State.beginFill_walk (r : Nat) (pinned walked : Bool) :
    ((s.beginFill n f r pinned walked).slice n).walk = if walked then r + 1 else (s.slice n).walk := by
  unfold State.beginFill
  rw [State.slice_updSlice]
  rfl

/-- A clean frame leaves at once (R100). -/
theorem State.beginEvict_clean {s : State} {n f : Nat} (clean : ((s.slice n).frames.get {} f).pages = 0) :
    s.beginEvict n f = (s.freed n f).count .slice n 53 := if_pos clean

theorem State.beginEvict_dirty {s : State} {n f : Nat} (dirty : ((s.slice n).frames.get {} f).pages ≠ 0) :
    s.beginEvict n f = s.updSlice n fun x => x.updFrame f fun e => { e with phase := .evicting } := if_neg dirty

end

theorem SliceSt.updFrame_get (x : SliceSt) (f : Nat) (g : FrameEntry → FrameEntry) :
    (x.updFrame f g).frames.get {} f = g (x.frames.get {} f) := Tbl.get_upd_same _ _ _ _

/-! ### PIN regions that no way was left for (R98) -/

/-- A slice without the PIN regions that its window has counted. -/
def SliceSt.uncounted (x : SliceSt) : SliceSt := { x with pinned := [], pinOver := 0 }

/-- From `s` to `t` slices have counted PIN regions, and nothing else has changed. -/
structure PinsCounted (s t : State) : Prop where
  rest : t = { s with slices := t.slices }
  slice : ∀ n, (t.slice n).uncounted = (s.slice n).uncounted

theorem PinsCounted.refl (s : State) : PinsCounted s s := ⟨rfl, fun _ => rfl⟩

theorem PinsCounted.trans {s t u : State} (h : PinsCounted s t) (k : PinsCounted t u) : PinsCounted s u where
  rest := by rw [k.rest, h.rest]
  slice n := (k.slice n).trans (h.slice n)

theorem PinsCounted.pinOverflow (s : State) (n r : Nat) : PinsCounted s (s.pinOverflow n r) := by
  unfold State.pinOverflow
  split
  · exact PinsCounted.refl s
  · refine ⟨rfl, fun j => ?_⟩
    rw [State.slice_updSlice_if]
    split
    · next q =>
      rw [q]
      rfl
    · rfl

/-- A slice that has counted its unpinned PIN regions, as it does before it fills. -/
def State.pinsCounted (s : State) (n : Nat) : State := (s.unpinned n).foldl (fun a r => a.pinOverflow n r) s

theorem State.pinsCounted_pins (s : State) (n : Nat) : PinsCounted s (s.pinsCounted n) := by
  unfold State.pinsCounted
  generalize s.unpinned n = l
  induction l generalizing s with
  | nil => exact PinsCounted.refl s
  | cons r l ih => exact (PinsCounted.pinOverflow s n r).trans (ih _)

section
variable {s t : State} (h : PinsCounted s t) (n : Nat)
include h

theorem PinsCounted.frames : (t.slice n).frames = (s.slice n).frames := (congrArg SliceSt.frames (h.slice n) :)

theorem PinsCounted.waitFills : (t.slice n).waitFills = (s.slice n).waitFills := (congrArg SliceSt.waitFills (h.slice n) :)

theorem PinsCounted.walk : (t.slice n).walk = (s.slice n).walk := (congrArg SliceSt.walk (h.slice n) :)

theorem PinsCounted.ownHint (r : Nat) : (t.slice n).ownHint r = (s.slice n).ownHint r :=
  (congrArg (SliceSt.ownHint · r) (h.slice n) :)

theorem PinsCounted.regionGranted (r : Nat) : t.regionGranted n r = s.regionGranted n r := by rw [h.rest]; rfl

theorem PinsCounted.hintOf (r : Nat) : t.hintOf n r = s.hintOf n r := by
  have owner : t.ownerOf ((t.regionGranules n r).headD r * 2 ^ 24) = s.ownerOf ((s.regionGranules n r).headD r * 2 ^ 24) := by
    rw [h.rest]
    rfl
  unfold State.hintOf
  rw [h.ownHint, owner]

theorem PinsCounted.walkOrder : t.walkOrder n = s.walkOrder n := by
  have cands : (t.slice n).cands = (s.slice n).cands := (congrArg SliceSt.cands (h.slice n) :)
  have regions : t.granuleRegions n = s.granuleRegions n := by rw [h.rest]; rfl
  have table : t.pitch = s.pitch := by rw [h.rest]
  unfold State.walkOrder
  dsimp only
  rw [cands, regions, table, h.walk]

theorem PinsCounted.fillable (hint : Nat) : t.fillable n hint = s.fillable n hint := by
  have frameOf (r : Nat) : (t.slice n).frameOf r = (s.slice n).frameOf r := (congrArg (SliceSt.frameOf · r) (h.slice n) :)
  have waits (r : Nat) : (t.slice n).fillWaits r = (s.slice n).fillWaits r := (congrArg (SliceSt.fillWaits · r) (h.slice n) :)
  unfold State.fillable
  simp only [h.walkOrder, h.hintOf, h.regionGranted, frameOf, waits]

theorem PinsCounted.victim (r rank : Nat) : t.victim n r rank = s.victim n r rank := by
  have ptr : (t.slice n).setPtr = (s.slice n).setPtr := (congrArg SliceSt.setPtr (h.slice n) :)
  unfold State.victim
  simp only [h.frames, h.hintOf, ptr]

end

/-! ### The fill of a HOT region (R100) -/

/-- With no PIN region to fill, the first HOT one is tried first. -/
theorem State.nextFill_hot {s t : State} {n r : Nat} {l : List Nat} (pins : s.fillable n 3 = [])
    (hot : s.fillable n 1 = r :: l) (fill : (s.pinsCounted n).tryFill n r 4 false = some t) : s.nextFill n = t := by
  have hot' := ((s.pinsCounted_pins n).fillable n 1).trans hot
  unfold State.pinsCounted at hot' fill
  unfold State.nextFill
  dsimp only
  rw [pins, List.filter_nil, List.filter_nil, List.nil_append, List.nil_append, hot']
  unfold State.firstFill
  rw [fill]

section
variable {s : State} {n r f : Nat}

/-- A free way takes the region at once. -/
theorem State.tryFill_free
    (free : (setFrames r).find? (fun f => ((s.slice n).frames.get {} f).phase == .free) = some f) :
    s.tryFill n r 4 false = some (s.beginFill n f r false ((s.slice n).ownHint r).isNone) := by
  unfold State.tryFill
  dsimp only
  rw [free]
  rfl

/-- The state in which a victim of a region's fill has been picked: the pointer of its set has moved past it. -/
def State.pickedVictim (s : State) (n r f : Nat) : State :=
  s.updSlice n fun x => { x with setPtr := x.setPtr.set 0 (r % 768) ((f + 1) % 16) }

/-- A dirty victim leaves first, and the fill waits for it. -/
theorem State.tryFill_dirty
    (none_free : (setFrames r).find? (fun f => ((s.slice n).frames.get {} f).phase == .free) = none)
    (victim : s.victim n r 4 = some f) (dirty : ((s.slice n).frames.get {} f).pages ≠ 0) :
    s.tryFill n r 4 false = some (((s.pickedVictim n r f).beginEvict n f).updSlice n fun x => { x with
      waitFills := x.waitFills ++ [(f, r, false, ((s.slice n).ownHint r).isNone)] }) := by
  have unclean : (((s.slice n).frames.get {} f).pages == 0) = false := by simpa using dirty
  unfold State.tryFill
  dsimp only
  rw [none_free]
  dsimp only
  rw [victim]
  dsimp only
  rw [unclean]
  rfl

end

/-! ### MIGRATE_MOVE_START (R99 to R101) -/

section
variable {s : State} {n : Nat} (less : n < 8) (serves : (s.slice n).inService = true) (isOpen : s.migrateOpen n = true)
  (room : (s.slice n).moving < s.reg kMigrateParallel) (time : s.windowOk n = true)
include less serves isOpen room time

theorem execMigrateMoveStart_cold {f : Nat} {e : FrameEntry} (cold : (s.slice n).frames.find? (fun p =>
    p.2.phase == .resident && s.hintOf n p.2.region == 2) = some (f, e)) :
    execMigrateMoveStart n s = .next (s.beginEvict n f) := by
  unfold execMigrateMoveStart
  dsimp only
  rw [if_pos (by simp [less, serves, isOpen, room, time]), cold]
  rfl

theorem execMigrateMoveStart_fill (warm : (s.slice n).frames.find? (fun p =>
    p.2.phase == .resident && s.hintOf n p.2.region == 2) = none) : execMigrateMoveStart n s = .next (s.nextFill n) := by
  unfold execMigrateMoveStart
  dsimp only
  rw [if_pos (by simp [less, serves, isOpen, room, time]), warm]
  rfl

end

theorem migrateMoveStart_effect {s : State} {n : Nat} (less : n < 8) (serves : (s.slice n).inService = true)
    (isOpen : s.migrateOpen n = true) (room : (s.slice n).moving < s.reg kMigrateParallel) (time : s.windowOk n = true) :
    ∃ t, exec (.migrateMoveStart n) s = .next t ∧
      (∀ f e, (s.slice n).frames.find? (fun p => p.2.phase == .resident && s.hintOf n p.2.region == 2) = some (f, e) →
        ((s.slice n).frames.get {} f).pages = 0 → (t.slice n).frames.get {} f = {} ∧
          t.tallyOf .slice n 53 = s.tallyOf .slice n 53 + 1) ∧
      (∀ f e, (s.slice n).frames.find? (fun p => p.2.phase == .resident && s.hintOf n p.2.region == 2) = some (f, e) →
        ((s.slice n).frames.get {} f).pages ≠ 0 →
        (t.slice n).frames.get {} f = { (s.slice n).frames.get {} f with phase := .evicting } ∧ t.chans = s.chans) ∧
      (∀ r l f, (s.slice n).frames.find? (fun p => p.2.phase == .resident && s.hintOf n p.2.region == 2) = none →
        s.fillable n 3 = [] → s.fillable n 1 = r :: l →
        (setFrames r).find? (fun f => ((s.slice n).frames.get {} f).phase == .free) = some f →
        ((t.slice n).frames.get {} f).phase = .filling ∧ ((t.slice n).frames.get {} f).region = r ∧
        ((t.slice n).frames.get {} f).pages = 0 ∧ ((t.slice n).frames.get {} f).pinned = false ∧
        (t.slice n).walk = if ((s.slice n).ownHint r).isNone then r + 1 else (s.slice n).walk) ∧
      (∀ r l f, (s.slice n).frames.find? (fun p => p.2.phase == .resident && s.hintOf n p.2.region == 2) = none →
        s.fillable n 3 = [] → s.fillable n 1 = r :: l →
        (setFrames r).find? (fun f => ((s.slice n).frames.get {} f).phase == .free) = none → s.victim n r 4 = some f →
        ((s.slice n).frames.get {} f).pages ≠ 0 →
        ((t.slice n).frames.get {} f).phase = .evicting ∧
        (t.slice n).waitFills = (s.slice n).waitFills ++ [(f, r, false, ((s.slice n).ownHint r).isNone)]) ∧
      s.frame t [.slices, .chans, .repair, .obs] := by
  obtain ⟨t, run⟩ : ∃ t, execMigrateMoveStart n s = .next t := ⟨_, rfl⟩
  have evicts {f e} (cold : (s.slice n).frames.find? (fun p => p.2.phase == .resident && s.hintOf n p.2.region == 2) =
      some (f, e)) : t = s.beginEvict n f :=
    Host.Outcome.next.inj (run.symm.trans (execMigrateMoveStart_cold less serves isOpen room time cold))
  have fills {r l u} (warm : (s.slice n).frames.find? (fun p => p.2.phase == .resident && s.hintOf n p.2.region == 2) = none)
      (pins : s.fillable n 3 = []) (hot : s.fillable n 1 = r :: l)
      (fill : (s.pinsCounted n).tryFill n r 4 false = some u) : t = u :=
    (Host.Outcome.next.inj (run.symm.trans (execMigrateMoveStart_fill less serves isOpen room time warm))).trans
      (State.nextFill_hot pins hot fill)
  have counted := s.pinsCounted_pins n
  refine ⟨t, run, fun f e cold clean => ?_, fun f e cold dirty => ?_, fun r l f warm pins hot free => ?_,
    fun r l f warm pins hot full victim dirty => ?_,
    (execMigrateMoveStart_keeps (M := 4718784) rfl (Keeps.refl _ s)).frame run rfl⟩
  · rw [evicts cold, State.beginEvict_clean clean, State.tallyOf_count, State.freed_tallyOf, State.count_at_slice,
      State.freed_frame]
    exact ⟨rfl, rfl⟩
  · rw [evicts cold, State.beginEvict_dirty dirty, State.slice_updSlice, SliceSt.updFrame_get]
    exact ⟨rfl, rfl⟩
  · rw [← counted.frames] at free
    rw [fills warm pins hot (State.tryFill_free free), State.beginFill_walk, counted.ownHint, counted.walk]
    obtain ⟨phase, region, pages, pinned⟩ := (s.pinsCounted n).beginFill_frame n f r false ((s.slice n).ownHint r).isNone
    exact ⟨phase, region, pages, pinned, rfl⟩
  · rw [← counted.frames] at full dirty
    have dirty' : ((((s.pinsCounted n).pickedVictim n r f).slice n).frames.get {} f).pages ≠ 0 := by
      rw [State.pickedVictim, State.slice_updSlice]
      exact dirty
    rw [fills warm pins hot (State.tryFill_dirty full ((counted.victim n r 4).trans victim) dirty), counted.ownHint,
      State.beginEvict_dirty dirty', State.slice_updSlice, State.slice_updSlice, State.pickedVictim, State.slice_updSlice]
    refine ⟨?_, ?_⟩
    · dsimp only
      rw [SliceSt.updFrame_get]
    · rw [← counted.waitFills]
      rfl

/-! ### Moves that end (R100, R101) -/

theorem fillComplete_effect {s : State} {n f : Nat} (fills : ((s.slice n).frames.get {} f).phase = .filling) :
    ∃ t, exec (.fillComplete n f) s = .next t ∧
      (t.slice n).frames.get {} f = { (s.slice n).frames.get {} f with phase := .resident, pages := 0 } ∧
      t.tallyOf .slice n 52 = s.tallyOf .slice n 52 + 1 ∧
      s.frame t [.stalls, .slices, .chans, .repair, .repairFace, .obs, .clock] := by
  have run : execFillComplete n f s = .next (((s.pagesUp n f (regionPages ((s.slice n).frames.get {} f).region)).updSlice n
      fun x => x.updFrame f fun e => { e with phase := .resident, pages := 0 }).count .slice n 52) :=
    congrArg Host.Outcome.next (if_pos fills)
  have copied := FramesKept.pagesUp s n f (regionPages ((s.slice n).frames.get {} f).region)
  refine ⟨_, run, ?_, ?_, (execFillComplete_keeps (M := 2168979656) rfl (Keeps.refl _ s)).frame run rfl⟩
  · rw [State.count_at_slice, State.slice_updSlice, SliceSt.updFrame_get, copied.frames]
  · rw [State.tallyOf_count, State.updSlice_tallyOf, copied.fills]
    rfl

/-- The state in which a frame's dirty pages have been written back, and it has been freed. -/
def State.writtenBack (s : State) (n f : Nat) : State :=
  ((s.pagesDown n f ((s.slice n).frames.get {} f).marked).freed n f).count .slice n 53

section
variable (s : State) (n f : Nat)

theorem State.writtenBack_slice : ((s.writtenBack n f).slice n).frames = (s.slice n).frames.set {} f {} ∧
    ((s.writtenBack n f).slice n).waitFills = (s.slice n).waitFills := by
  have copied := FramesKept.pagesDown s n f ((s.slice n).frames.get {} f).marked
  obtain ⟨frames, waits⟩ := State.freed_slice (s.pagesDown n f ((s.slice n).frames.get {} f).marked) n f
  rw [copied.frames] at frames
  rw [copied.waitFills] at waits
  rw [State.writtenBack, State.count_at_slice]
  exact ⟨frames, waits⟩

theorem State.writtenBack_keeps : Keeps 2168979656 s (s.writtenBack n f) :=
  State.count_keeps rfl (State.releaseFrame_keeps rfl (State.wipeFrame_keeps rfl
    (State.pagesDown_keeps rfl (Keeps.refl _ s))))

theorem State.writtenBack_foldSlice : (s.writtenBack n f).repair.foldSlice = s.repair.foldSlice := by
  have copied := FramesKept.pagesDown s n f ((s.slice n).frames.get {} f).marked
  have repair := (State.freed_keeps (s.pagesDown n f ((s.slice n).frames.get {} f).marked) n f).1 .repair rfl
  rw [State.writtenBack, State.count_repair, show (State.freed _ n f).repair = _ from repair, copied.foldSlice]

theorem State.writtenBack_evictions : (s.writtenBack n f).tallyOf .slice n 53 = s.tallyOf .slice n 53 + 1 := by
  unfold State.writtenBack
  rw [State.tallyOf_count, State.freed_tallyOf, (FramesKept.pagesDown s n f _).evictions]
  rfl

/-- A region in no frame is in none once another frame is freed. -/
theorem SliceSt.frameOf_freed {x y : SliceSt} {f r : Nat} (frames : y.frames = x.frames.set {} f {})
    (absent : x.frameOf r = none) : y.frameOf r = none := by
  unfold SliceSt.frameOf at absent ⊢
  rw [List.find?_eq_none] at absent ⊢
  intro k m
  rw [frames, Tbl.get_set]
  split
  · simp
  · exact absent k m

end

theorem execEvictionComplete_evicting {s : State} {n f : Nat} (evicts : ((s.slice n).frames.get {} f).phase = .evicting) :
    execEvictionComplete n f s = .next ((s.writtenBack n f).fillWaiting n f) := by
  unfold execEvictionComplete State.writtenBack State.freed
  dsimp only
  rw [if_pos evicts]

theorem State.fillWaiting_none {s : State} {n f : Nat} (h : (s.slice n).waitFills.find? (fun w => w.1 == f) = none) :
    s.fillWaiting n f = s := by
  unfold State.fillWaiting
  rw [h]

/-- The state in which a fill waits for a frame no longer. -/
def State.waitedFor (s : State) (n f : Nat) : State :=
  s.updSlice n fun x => { x with waitFills := x.waitFills.filter fun w => w.1 != f }

/-- R100: the fill that waited starts while the window leaves time for it and its region is granted and in no frame. -/
theorem State.fillWaiting_starts {s : State} {n f k r : Nat} {pinned walked : Bool}
    (waits : (s.slice n).waitFills.find? (fun w => w.1 == f) = some (k, r, pinned, walked)) (isOpen : s.migrateOpen n = true)
    (time : s.windowOk n = true) (granted : s.regionGranted n r = true) (absent : (s.slice n).frameOf r = none) :
    ∃ pinned', s.fillWaiting n f = (s.waitedFor n f).beginFill n f r pinned' walked := by
  have absent' : ((s.waitedFor n f).slice n).frameOf r = none := by
    rw [State.waitedFor, State.slice_updSlice]
    exact absent
  have go : ((s.waitedFor n f).migrateOpen n && ((s.waitedFor n f).windowOk n && ((s.waitedFor n f).regionGranted n r &&
      (((s.waitedFor n f).slice n).frameOf r).isNone))) = true := by
    rw [absent', show (s.waitedFor n f).migrateOpen n = true from isOpen, show (s.waitedFor n f).windowOk n = true from time,
      show (s.waitedFor n f).regionGranted n r = true from granted]
    rfl
  unfold State.fillWaiting
  rw [waits]
  exact ⟨_, if_pos go⟩

theorem evictionComplete_effect {s : State} {n f : Nat} (evicts : ((s.slice n).frames.get {} f).phase = .evicting) :
    ∃ t, exec (.evictionComplete n f) s = .next t ∧
      ((s.slice n).waitFills.find? (fun w => w.1 == f) = none → (t.slice n).frames.get {} f = {}) ∧
      (∀ k r pinned walked, (s.slice n).waitFills.find? (fun w => w.1 == f) = some (k, r, pinned, walked) →
        s.migrateOpen n = true → s.windowOk n = true → s.regionGranted n r = true → (s.slice n).frameOf r = none →
        ((t.slice n).frames.get {} f).phase = .filling ∧ ((t.slice n).frames.get {} f).region = r) ∧
      t.tallyOf .slice n 53 = s.tallyOf .slice n 53 + 1 ∧
      s.frame t [.stalls, .slices, .chans, .repair, .repairFace, .obs, .clock] := by
  have run : execEvictionComplete n f s = .next ((s.writtenBack n f).fillWaiting n f) :=
    execEvictionComplete_evicting evicts
  obtain ⟨frames, waits⟩ := s.writtenBack_slice n f
  have kept := s.writtenBack_keeps n f
  refine ⟨_, run, fun idle => ?_, fun k r pinned walked waiting isOpen time granted absent => ?_, ?_,
    (execEvictionComplete_keeps (M := 2168979656) rfl (Keeps.refl _ s)).frame run rfl⟩
  · rw [← waits] at idle
    rw [State.fillWaiting_none idle, frames, Tbl.get_set_same]
  · rw [← waits] at waiting
    have gates : (s.writtenBack n f).gates = s.gates := kept.1 .gates rfl
    have isOpen' : (s.writtenBack n f).migrateOpen n = true := by
      rw [State.migrateOpen, gates]
      exact isOpen
    have time' := (State.windowOk_congr (kept.1 .time rfl) gates (kept.1 .dict rfl) n).trans time
    have granted' := (State.regionGranted_congr (kept.1 .pitch rfl) (s.writtenBack_foldSlice n f) n r).trans granted
    obtain ⟨pinned', e⟩ := State.fillWaiting_starts waiting isOpen' time' granted' (SliceSt.frameOf_freed frames absent)
    obtain ⟨phase, region, _⟩ := ((s.writtenBack n f).waitedFor n f).beginFill_frame n f r pinned' walked
    rw [e]
    exact ⟨phase, region⟩
  · have obs : ((s.writtenBack n f).fillWaiting n f).obs = (s.writtenBack n f).obs :=
      (State.fillWaiting_keeps (M := 524480) rfl (Keeps.refl _ _)).1 .obs rfl
    rw [← s.writtenBack_evictions n f, State.tallyOf, obs]
    rfl

/-! ### Moves that are abandoned (R101) -/

theorem State.abandonMove_filling {s : State} {n f : Nat} (fills : ((s.slice n).frames.get {} f).phase = .filling) :
    s.abandonMove n f = (s.freed n f).count .slice n 54 := by
  unfold State.abandonMove
  dsimp only
  rw [fills]
  rfl

theorem State.abandonMove_evicting {s : State} {n f : Nat} (evicts : ((s.slice n).frames.get {} f).phase = .evicting) :
    s.abandonMove n f = (s.updSlice n fun x => { x.updFrame f fun e => { e with phase := .resident } with
      waitFills := x.waitFills.filter fun w => w.1 != f }).count .slice n 54 := by
  unfold State.abandonMove
  dsimp only
  rw [evicts]

theorem moveAbandon_effect {s : State} {n f : Nat} (moves : ((s.slice n).frames.get {} f).phase = .filling ∨
    ((s.slice n).frames.get {} f).phase = .evicting) :
    ∃ t, exec (.moveAbandon n f) s = .next t ∧
      (((s.slice n).frames.get {} f).phase = .filling → (t.slice n).frames.get {} f = {}) ∧
      (((s.slice n).frames.get {} f).phase = .evicting →
        (t.slice n).frames.get {} f = { (s.slice n).frames.get {} f with phase := .resident } ∧ t.chans = s.chans) ∧
      t.tallyOf .slice n 54 = s.tallyOf .slice n 54 + 1 ∧ s.frame t [.slices, .chans, .obs] := by
  refine ⟨_, rfl, fun fills => ?_, fun evicts => ?_, ?_,
    (execMoveAbandon_keeps (M := 4194496) rfl (Keeps.refl _ s)).frame rfl rfl⟩
  · rw [State.abandonMove_filling fills, State.count_at_slice, State.freed_frame]
  · rw [State.abandonMove_evicting evicts, State.count_at_slice, State.slice_updSlice]
    refine ⟨?_, rfl⟩
    dsimp only
    rw [SliceSt.updFrame_get]
  · rcases moves with fills | evicts
    · rw [State.abandonMove_filling fills, State.tallyOf_count, State.freed_tallyOf]
      rfl
    · rw [State.abandonMove_evicting evicts, State.tallyOf_count, State.updSlice_tallyOf]
      rfl

/-- Settles O23, a lemma for each command. -/
theorem regionsMoveBetweenTiers : Obligations.RegionsMoveBetweenTiers := by
  unfold Obligations.RegionsMoveBetweenTiers
  exact ⟨fun _ _ less serves isOpen room time => migrateMoveStart_effect less serves isOpen room time,
    fun _ _ _ fills => fillComplete_effect fills, fun _ _ _ evicts => evictionComplete_effect evicts,
    fun _ _ _ moves => moveAbandon_effect moves⟩

end Sys2Proof.Machine
end

section
/-! SUPPORT. A HINT granted during bring-up (05 R95, R97) in a slice that has a candidate for retirement (06 R128): the board that
refutes O15. -/

namespace Sys2Proof.Machine

/-! ### The board of the counterexample -/

/-- The last granule of a pool of 524,288. -/
abbrev lastGranule : Nat := 524287

/-- A HINT HOT at pitch scope for the pitch of the last granule. -/
def lastHint : Req where
  link := 47
  tc := 0
  host := 5
  epoch := 0
  tenant := 1
  tag := 0
  strict := false
  fence := false
  hreplay := false
  len := 0
  mod := 1
  addr := BitVec.ofNat 52 (lastGranule * 2 ^ 24)
  payload := []

/-- A board in bring-up: its last granule is granted, the HINT waits at level 3 in slice 0, and channel 0 has a REMAP_FULL finding that
RETIRE_POLICY bit 2 makes a channel fault. -/
def bringUpBoard : State :=
  let s := State.reset.setReg kRetirePolicy 4
  { (s.updSlice 0 fun x => { x with tracker := [newTrk 2 .hint lastHint], pipe := { q3 := [⟨0, 0, 0⟩] } }).updChan 0 fun c => { c with
      phase := .inService, candidate := true } with
    pitch := { gran := 524288, table := [(lastGranule, { phase := .granted, pitch := 1 })] } }

/-- The grant carries the HINT out, then retires channel 0 and folds it out (14 R296, R301), which frees the granules from 3/4 of the
pool up: the granted one loses its entry, and with it the hint. -/
theorem bringUpBoard_granted : ∃ t, exec (.pipelineGrant 0) bringUpBoard = .next t ∧ t.granule lastGranule = {} :=
  ⟨_, rfl, by decide +kernel⟩

/-- Refutes O15: its clause on a granted HINT supposes nothing of the channels of the HINT's slice. In bring-up a REMAP_FULL finding
there is acted on with the grant, and the fold that follows frees a granule of the hinted pitch. -/
theorem not_marksNopsAndHintsTakeEffect : ¬ Obligations.MarksNopsAndHintsTakeEffect := by
  unfold Obligations.MarksNopsAndHintsTakeEffect
  rintro ⟨_, _, granted, _⟩
  obtain ⟨t, e, _, hinted⟩ := granted bringUpBoard 0 ⟨0, 0, 0⟩ (newTrk 2 .hint lastHint) (by decide) (by decide +kernel)
    (by decide +kernel) (by decide +kernel) (by decide) (by decide +kernel) rfl rfl
  have hot := hinted (by decide +kernel) (by decide +kernel) (by decide +kernel) (by decide +kernel) lastGranule
    (by decide +kernel) (by decide +kernel)
  obtain ⟨u, e', freed⟩ := bringUpBoard_granted
  cases e.symm.trans e'
  rw [freed] at hot
  exact absurd hot (by decide)

end Sys2Proof.Machine
end

section
/-! SUPPORT. What steps keep of memory and of the SRAM words (06 R117, R119, R123). -/

namespace Sys2Proof.Machine

/-- Memory is in its canonical form in `t`, and no SRAM word holds an error, where that holds in `s`. -/
def MemoryKept (s t : State) : Prop := (s.memOk → t.memOk) ∧ (s.sramOk → t.sramOk)

theorem State.tick_memoryKept (s : State) : MemoryKept s s.tick :=
  (State.tick_keeps (M := 810369132) rfl (Keeps.refl _ s)).2

theorem exec_memoryKept {i : Instr} {s t : State} (h : exec i s = .next t) : MemoryKept s t :=
  (exec_keeps (M := 8589934590) rfl (Keeps.refl _ s) t h).2

/-- Settles O4: a step is a tick, or the command at the front of the queue, whose removal touches neither memory nor SRAM words. -/
theorem stepsKeepMemoryCanonical : Obligations.StepsKeepMemoryCanonical := by
  unfold Obligations.StepsKeepMemoryCanonical step
  intro s t h
  split at h
  · cases h
    exact s.tick_memoryKept
  · next c rest _ => exact (exec_memoryKept h : MemoryKept { s with pending := rest } t)

end Sys2Proof.Machine
end

section
/-! SUPPORT. Row repair (06 R127): a row's lines read as before from the staging buffer, and are written back from it. -/

namespace Sys2Proof.Machine

/-! ### Staging a row -/

/-- The copies of a line in the order in which they are served (R126, R127). -/
theorem ChanSt.lineAt_eq (c : ChanSt) (a : Nat) : c.lineAt a =
    (lookupLine ((c.repair.map (·.lines)).getD []) a).getD ((lookupLine c.remap a).getD (c.mem.get clearLine a)) := by
  unfold ChanSt.lineAt
  split
  · next q => rw [q, Option.getD_some]
  · next q r => rw [q, r, Option.getD_none, Option.getD_some]
  · next q r => rw [q, r, Option.getD_none, Option.getD_none]

/-- A list that pairs lines with their content answers with that content, or not at all. -/
theorem lookupLine_map (f : Nat → SLine) (l : List Nat) (a : Nat) :
    lookupLine (l.map fun k => (k, f k)) a = if a ∈ l then some (f a) else none := by
  induction l with
  | nil => rfl
  | cons k l ih =>
    unfold lookupLine at ih ⊢
    rw [List.map_cons, List.find?_cons]
    by_cases e : k = a
    · subst e
      simp
    · simp only [beq_false_of_ne e, ih, List.mem_cons, Ne.symm e, false_or]

/-- The lines of a row. -/
def rowLines (row : Nat) : List Nat := (upTo 128).map fun i => row * 128 + i

/-- The channel once a row of it is staged. -/
def ChanSt.staged (c : ChanSt) (row : Nat) : ChanSt := { c with
  rowPtr := row + 1
  repair := some { row := row, lines := (rowLines row).map fun a => (a, c.lineAt a) } }

/-- While no other row is staged, a channel whose row is staged serves every line as before. -/
theorem ChanSt.lineAt_staged {c : ChanSt} (idle : c.repair = none) (row a : Nat) : (c.staged row).lineAt a = c.lineAt a := by
  have unstaged : c.lineAt a = (lookupLine c.remap a).getD (c.mem.get clearLine a) := by
    rw [ChanSt.lineAt_eq, idle]
    rfl
  rw [ChanSt.lineAt_eq]
  change (lookupLine ((rowLines row).map fun k => (k, c.lineAt k)) a).getD
    ((lookupLine c.remap a).getD (c.mem.get clearLine a)) = _
  rw [lookupLine_map, ← unstaged]
  split
  · rfl
  · rfl

theorem execRowRepairStart_starts {s : State} {n row : Nat} (less : n < 40) (gate : s.scrubOpen (unitSlice n) = true)
    (idle : (s.chan n).repair = none) (runs : (s.chan n).stopped = false) (due : s.repairRow n = some row) :
    exec (.rowRepairStart n) s = .next ((s.updChan n fun c => c.staged row).maintain n (.repairRow row)) := by
  change execRowRepairStart n s = _
  unfold execRowRepairStart
  simp only [less, gate, idle, runs, due, decide_true, Option.isNone_none, Bool.not_false, Bool.and_self, if_true]
  unfold ChanSt.staged rowLines
  simp only [List.map_map]
  rfl

theorem rowRepairStart_effect {s : State} {n row : Nat} (less : n < 40) (gate : s.scrubOpen (unitSlice n) = true)
    (idle : (s.chan n).repair = none) (runs : (s.chan n).stopped = false) (due : s.repairRow n = some row) :
    ∃ t, exec (.rowRepairStart n) s = .next t ∧
      (∃ r, (t.chan n).repair = some r ∧ r.row = row ∧ r.lines.map Prod.fst = rowLines row) ∧
      (∀ c a, t.unitLine c a = s.unitLine c a) ∧ (t.chan n).rowPtr = row + 1 ∧
      (t.chan n).maint = (s.chan n).maint ++ [.repairRow row] ∧ s.frame t [.slices, .chans, .obs, .clock] := by
  have starts := execRowRepairStart_starts less gate idle runs due
  have chans : ∀ j, ((s.updChan n fun c => c.staged row).maintain n (.repairRow row)).chan j =
      if j = n then { (s.chan n).staged row with maint := (s.chan n).maint ++ [.repairRow row] } else s.chan j := by
    intro j
    rw [State.maintain_at_chan, State.chan_updChan, State.chan_updChan_if]
    split
    · rfl
    · rfl
  refine ⟨_, starts, ?_, fun c a => ?_, ?_, ?_,
    (execRowRepairStart_keeps (M := 20971712) rfl (Keeps.refl _ s)).frame starts rfl⟩
  · rw [chans, if_pos rfl]
    exact ⟨_, rfl, rfl, by rw [List.map_map]; exact List.map_id _⟩
  · rw [State.unitLine, chans]
    split
    · next e =>
      subst e
      exact ChanSt.lineAt_staged idle row a
    · rfl
  · rw [chans, if_pos rfl]
    rfl
  · rw [chans, if_pos rfl]

/-! ### The row written back -/

/-- Lines stored one after another leave every other line as it was. -/
theorem Tbl.get_foldl_set_other {α : Type} [DecidableEq α] {d : α} {l : List (Nat × α)} {k : Nat} (o : k ∉ l.map Prod.fst)
    (t : Tbl α) : Tbl.get (l.foldl (fun m p => m.set d p.1 p.2) t) d k = t.get d k := by
  refine List.foldlRecOn (motive := fun m : Tbl α => m.get d k = t.get d k) l _ rfl fun m h p mem => ?_
  rw [Tbl.get_set_other _ _ _ (by rintro rfl; exact o (List.mem_map_of_mem mem)), h]

/-- Of distinct lines stored one after another each reads as it was stored. -/
theorem Tbl.get_foldl_set {α : Type} [DecidableEq α] {d : α} {l : List (Nat × α)} (nodup : (l.map Prod.fst).Nodup)
    {p : Nat × α} (mem : p ∈ l) (t : Tbl α) : Tbl.get (l.foldl (fun m q => m.set d q.1 q.2) t) d p.1 = p.2 := by
  induction l generalizing t with
  | nil => cases mem
  | cons q l ih =>
    rw [List.map_cons, List.nodup_cons] at nodup
    obtain ⟨apart, nodup⟩ := nodup
    rw [List.foldl_cons]
    rcases List.mem_cons.1 mem with rfl | later
    · rw [Tbl.get_foldl_set_other apart, Tbl.get_set_same]
    · exact ih nodup later _

/-- Once the entries of a row are free, the remap table finds none of its lines. -/
theorem lookupLine_filter_row {l : List (Nat × SLine)} {row a : Nat} (inRow : rowOf a = row) :
    lookupLine (l.filter fun p => rowOf p.1 != row) a = none := by
  refine lookupLine_none fun found => ?_
  obtain ⟨p, mem, e⟩ := List.any_eq_true.1 found
  have apart := (List.mem_filter.1 mem).2
  rw [eq_of_beq e, inRow, bne_self_eq_false] at apart
  exact Bool.false_ne_true apart

/-- A repaired row reads as it was staged. -/
theorem ChanSt.lineAt_repaired (c : ChanSt) {r : RowRepair} (group : Nat) (nodup : (r.lines.map Prod.fst).Nodup)
    {p : Nat × SLine} (mem : p ∈ r.lines) (inRow : rowOf p.1 = r.row) : (c.repaired r group).lineAt p.1 = p.2 := by
  rw [ChanSt.lineAt_eq]
  change (lookupLine (c.remap.filter fun p => rowOf p.1 != r.row) p.1).getD (Tbl.get _ clearLine p.1) = p.2
  rw [lookupLine_filter_row inRow, Option.getD_none]
  exact Tbl.get_foldl_set nodup mem c.mem

theorem State.ledger_faultSeq (s : State) (kind result : Nat) (a : Actor) (tenant body : Nat) :
    (s.ledger kind result a tenant body).repair.faultSeq = s.repair.faultSeq := by
  unfold State.ledger
  dsimp only
  split_ifs
  all_goals rfl

/-- The state whose row is repaired, with its ROW_REPAIR fault. -/
def State.rowRepaired (s : State) (n : Nat) (r : RowRepair) : State :=
  (s.updChan n fun c => c.repaired r (s.groupOfRow n r.row)).fault (unitSlice n) 0x04 n 0 actSpared

theorem execRowRepairDone_repairs {s : State} {n : Nat} {r : RowRepair} (repair : (s.chan n).repair = some r) :
    exec (.rowRepairDone n) s =
      .next ((s.rowRepaired n r).ledger 0x07 0 Actor.board 0 (s.rowRepaired n r).lastFaultWords) := by
  change execRowRepairDone n s = _
  unfold execRowRepairDone
  rw [repair]
  rfl

theorem rowRepairDone_effect {s : State} {n : Nat} {r : RowRepair} (repair : (s.chan n).repair = some r) :
    ∃ t, exec (.rowRepairDone n) s = .next t ∧ (t.chan n).repair = none ∧
      (t.chan n).remap = (s.chan n).remap.filter (fun p => rowOf p.1 != r.row) ∧
      (t.chan n).softRepairs = (s.chan n).softRepairs + 1 ∧
      (t.chan n).usedGroups = s.groupOfRow n r.row :: (s.chan n).usedGroups ∧
      ((r.lines.map Prod.fst).Nodup → ∀ p ∈ r.lines, rowOf p.1 = r.row → t.unitLine n p.1 = p.2) ∧
      t.repair.faultSeq = s.repair.faultSeq + 1 ∧ (∀ j, j ≠ n → t.chan j = s.chan j) ∧
      s.frame t [.stalls, .chans, .repair, .sec, .obs] := by
  have done := execRowRepairDone_repairs repair
  have chans : ∀ j, ((s.rowRepaired n r).ledger 0x07 0 Actor.board 0 (s.rowRepaired n r).lastFaultWords).chan j =
      if j = n then (s.chan n).repaired r (s.groupOfRow n r.row) else s.chan j := by
    intro j
    rw [State.ledger_at_chan, State.rowRepaired, State.fault_at_chan, State.chan_updChan_if]
  have own := (chans n).trans (if_pos rfl)
  refine ⟨_, done, congrArg ChanSt.repair own, congrArg ChanSt.remap own, congrArg ChanSt.softRepairs own,
    congrArg ChanSt.usedGroups own, fun nodup p mem inRow => ?_, ?_,
    fun j o => (chans j).trans (if_neg o), (execRowRepairDone_keeps (M := 5767304) rfl (Keeps.refl _ s)).frame done rfl⟩
  · rw [State.unitLine, own]
    exact ChanSt.lineAt_repaired _ _ nodup mem inRow
  · rw [State.ledger_faultSeq, State.rowRepaired, State.fault_faultSeq]
    rfl

/-- Settles O26, a lemma for each command. -/
theorem rowsAreRepaired : Obligations.RowsAreRepaired := by
  unfold Obligations.RowsAreRepaired
  exact ⟨fun _ _ _ less gate idle runs due => rowRepairStart_effect less gate idle runs due,
    fun _ _ _ repair => rowRepairDone_effect repair⟩

end Sys2Proof.Machine
end

section
/-! SUPPORT. The patrol scrub of a channel that is larger than any qualified one (05 Table 5.5): the board that refutes O25. -/

namespace Sys2Proof.Machine

/-- REMAP_FULL findings that RETIRE_POLICY makes no channel fault leave every remap table as it was (06 R128). -/
theorem State.takeCandidates_remap {s : State} (policy : bitAt (s.reg kRetirePolicy) 2 = false) (n j : Nat) :
    ((s.takeCandidates n).chan j).remap = (s.chan j).remap := by
  unfold State.takeCandidates
  refine (List.foldlRecOn (motive := fun a : State => (∀ k, a.reg k = s.reg k) ∧ (a.chan j).remap = (s.chan j).remap)
    _ _ ⟨fun _ => rfl, rfl⟩ ?_).2
  rintro a ⟨regs, remaps⟩ u _
  split
  · rw [regs, policy]
    simp only [Bool.false_and, Bool.false_eq_true, if_false]
    refine ⟨fun k => State.fault_at_reg k |>.trans (regs k), ?_⟩
    rw [State.fault_at_chan, State.chan_updChan_if]
    split
    · next e => rw [← remaps, e]
    · exact remaps
  · exact ⟨regs, remaps⟩

/-- A stored line with an error in its first symbol group. -/
def wornLine : SLine := { data := 5, err := 1 }

/-- A board whose channel 0 has 1,024 GiB, where 05 Table 5.5 knows 128 and 256, and one remap entry, for its line 0, which holds an
error. The scrub engine stands at line 2^33, whose page number 2^32 does not fit the 32 bits that an offset has for it. -/
def oversizedBoard : State :=
  let s := State.reset.updChan 0 fun c => { c with
    phase := .inService, capacity := 1024, scrubPos := 2 ^ 33, remap := [(0, wornLine)] }
  { s with gates := { s.gates with scrub := 0xFF } }

/-- The home of the line that the scrub engine of that channel reads next. -/
def oversizedHome : Home where
  slice := 0
  page := 2 ^ 29
  frame := none
  unit := 0
  line := 2 ^ 33

/-- The scrub read meets line 0 under the number of line 2^33: it corrects the remap entry of line 0, and moves the corrected value to a
new entry. -/
theorem oversizedBoard_scrubbed : ∃ t, exec (.scrubRead false 0 1) oversizedBoard = .next t ∧
    (t.chan 0).remap = [(0, codeword 5), (2 ^ 33, codeword 5)] := ⟨_, rfl, by decide +kernel⟩

/-- Refutes O25: its clause on a read that finds an error supposes no qualified capacity. Past 512 GiB two lines of a channel have the
same offset, and the write-back changes an entry that the remap table had before. -/
theorem not_patrolScrubCorrectsLines : ¬ Obligations.PatrolScrubCorrectsLines := by
  unfold Obligations.PatrolScrubCorrectsLines
  rintro ⟨scrub, _⟩
  obtain ⟨t, v, e, rfl, _, moved, _, _, frame⟩ := scrub oversizedBoard false 0 (2 ^ 44) oversizedHome 1 (by decide)
    (by decide +kernel) (by decide +kernel) (by decide +kernel) (by decide +kernel)
  have remap : (v.chan 0).remap = _ :=
    moved (by decide +kernel) (by decide +kernel) (by decide +kernel) (by decide +kernel) (by decide +kernel)
  have dict : v.dict = oversizedBoard.dict := frame .dict (by decide)
  have policy : bitAt (v.reg kRetirePolicy) 2 = false := by
    rw [State.reg, dict]
    decide +kernel
  obtain ⟨u, e', remap'⟩ := oversizedBoard_scrubbed
  cases e.symm.trans e'
  rw [State.takeCandidates_remap policy, remap] at remap'
  exact absurd remap' (by decide +kernel)

end Sys2Proof.Machine
end

section
/-! SUPPORT. A raw write in a granule of the board's own mirror window while the board serves its partner from it (13 R267, R282): the
board that refutes O27. -/

namespace Sys2Proof.Machine

/-- A board that serves its partner's number from a mirror window of one granule. Its own pitch table holds a GRANTED entry of tenant 0
for that granule, which nothing has written, and a raw write of the granule's first line runs. -/
def windowGrantedBoard : State := { State.reset with
  pitch := { gran := 524288, table := [(0, { phase := .granted })] }
  pair := { State.reset.pair with phase := .servingBoth, window := 1 }
  checker := { State.reset.checker with running := some (1, 0) } }

/-- The raw write marks the image's entry WRITTEN, which governs the granule, and not the board's own. -/
theorem windowGrantedBoard_written : ∃ t, exec .checkerRawDone windowGrantedBoard = .next t ∧
    (t.granule 0).written = false := ⟨_, rfl, by decide +kernel⟩

/-- Refutes O27: its clause on a raw write supposes nothing of the pair. Where the board serves its partner from the mirror window and its
own table has a granted entry there (which 13 R267 keeps a grant from making), the write does not mark that entry. -/
theorem not_theCheckerActsRaw : ¬ Obligations.TheCheckerActsRaw := by
  unfold Obligations.TheCheckerActsRaw
  rintro ⟨_, _, _, _, finished⟩
  obtain ⟨t, e, _, _, wrote, _⟩ := finished windowGrantedBoard 1 0 rfl
  have written : (t.granule 0).written = true :=
    (wrote (by decide +kernel) (by decide +kernel) rfl).2
  obtain ⟨u, e', unwritten⟩ := windowGrantedBoard_written
  cases e.symm.trans e'
  rw [written] at unwritten
  exact Bool.noConfusion unwritten

end Sys2Proof.Machine
end

section
/-! SUPPORT. Directories and trackers through memory work (07 R136, 03 R65): reading and storing lines, and the events that errors raise
on the way, leave the directory and the tracker of every slice. -/

namespace Sys2Proof.Machine

/-! ### What memory work keeps of the slices -/

/-- The directory and the tracker of a slice. -/
def SliceSt.lines (x : SliceSt) : Tbl DirEntry × List Trk := (x.dir, x.tracker)

/-- From `s` to `t` every slice keeps its directory and its tracker. -/
def LinesKept (s t : State) : Prop := ∀ n, (t.slice n).lines = (s.slice n).lines

theorem LinesKept.refl (s : State) : LinesKept s s := fun _ => rfl

theorem LinesKept.trans {s t u : State} (h : LinesKept s t) (k : LinesKept t u) : LinesKept s u :=
  fun n => (k n).trans (h n)

/-- The mask that lets every part change but the slices. -/
abbrev allButSlices : Nat := 2 ^ 33 - 1 - 2 ^ 6

theorem State.slice_of_slices {s t : State} (e : t.slices = s.slices) (n : Nat) : t.slice n = s.slice n := by
  rw [State.slice, State.slice, e]

theorem State.slice_of_keeps {s t : State} (k : Keeps allButSlices s t) (n : Nat) : t.slice n = s.slice n :=
  State.slice_of_slices (k.1 .slices rfl) n

section
variable {s t : State} (h : LinesKept s t)
include h

theorem LinesKept.dirAt (n k : Nat) : (t.slice n).dirAt k = (s.slice n).dirAt k :=
  congrArg (fun x : Tbl DirEntry × List Trk => x.1.get {} k) (h n)

theorem LinesKept.dirOf (n line : Nat) : (t.slice n).dirOf line = (s.slice n).dirOf line := by
  unfold SliceSt.dirOf
  simp only [h.dirAt]

theorem LinesKept.trk (n id : Nat) : (t.slice n).trk id = (s.slice n).trk id :=
  congrArg (fun x : Tbl DirEntry × List Trk => x.2.find? fun e : Trk => e.id == id) (h n)

theorem LinesKept.of {u : State} (k : Keeps allButSlices t u) : LinesKept s u :=
  h.trans fun n => by rw [State.slice_of_keeps k]

theorem LinesKept.updSlice (n : Nat) {f : SliceSt → SliceSt} (hf : ∀ x, (f x).lines = x.lines) :
    LinesKept s (t.updSlice n f) := by
  refine h.trans fun j => ?_
  rw [State.slice_updSlice_if]
  split
  · next q => rw [q, hf]
  · rfl

theorem LinesKept.updChan (n : Nat) (f : ChanSt → ChanSt) : LinesKept s (t.updChan n f) := h.trans fun _ => rfl

theorem LinesKept.foldl {β : Type} {f : State → β → State} (hf : ∀ x b, LinesKept s x → LinesKept s (f x b)) (l : List β) :
    LinesKept s (l.foldl f t) :=
  List.foldlRecOn l f h fun x k b _ => hf x b k

/-! ### Events and queues -/

theorem LinesKept.wakeSlice (n : Nat) : LinesKept s (t.wakeSlice n) := by
  refine h.trans fun j => ?_
  obtain ⟨park, wanted, e⟩ := t.wakeSlice_slice n j
  rw [e]
  rfl

theorem LinesKept.pipePush (n level source what : Nat) : LinesKept s (t.pipePush n level source what) := by
  unfold State.pipePush
  split_ifs
  · exact h
  · exact h.updSlice n fun _ => rfl
  · exact (h.wakeSlice n).updSlice n fun _ => rfl

theorem LinesKept.maintain (n : Nat) (m : MaintOp) : LinesKept s (t.maintain n m) :=
  (h.updChan n _).pipePush _ _ _ _

theorem LinesKept.setErrTable (n : Nat) (e : Tbl ErrEntry) : LinesKept s (t.setErrTable n e) := by
  unfold State.setErrTable
  split
  · exact h.updSlice n fun _ => rfl
  · exact h.trans fun _ => rfl

theorem LinesKept.logError (n : Nat) (e : ErrEntry) : LinesKept s (t.logError n e) := by
  unfold State.logError
  extract_lets region entry w s1 s2
  have counted : LinesKept s s2 := by
    have stored : LinesKept s s1 := h.setErrTable n _
    dsimp only [s2]
    split_ifs
    · exact stored.of (State.count_keeps rfl (Keeps.refl _ _))
    · exact stored.of (State.count_keeps rfl (Keeps.refl _ _))
    · exact stored
  split
  · exact counted
  · exact counted.of (State.crier_keeps rfl (Keeps.refl _ _))

theorem LinesKept.queueDram (home : Home) (write : Bool) (level : Nat) : LinesKept s (t.queueDram home write level) := by
  have woken : LinesKept s (if level = 5 then t.wakeSlice home.slice else t) := by
    split
    · exact h.wakeSlice _
    · exact h
  unfold State.queueDram
  dsimp only
  split
  · exact woken
  · exact woken.updChan _ _

/-! ### Lines that are read -/

theorem LinesKept.hardFault (home : Home) (off group : Nat) (value : SLine) :
    LinesKept s (t.hardFault home off group value) := by
  unfold State.hardFault
  dsimp only
  split_ifs
  · exact h
  · exact ((h.updChan _ _).maintain _ _).logError _ _
  · exact (h.logError _ _).updChan _ _
  · exact h

theorem LinesKept.verify (home : Home) (off group : Nat) (again : BitVec 640) :
    LinesKept s (t.verify home off group again) := by
  unfold State.verify
  dsimp only
  split
  · exact h
  · exact h.hardFault _ _ _ _

theorem LinesKept.setAt (home : Home) (off : Nat) (l : SLine) : LinesKept s (t.setAt home off l) :=
  h.of (State.setAt_keeps rfl (Keeps.refl _ _))

theorem LinesKept.note (home : Home) (off host : Nat) : LinesKept s (t.note home off host) := by
  have counted (row : Nat) : LinesKept s (t.count .slice home.slice row) := h.of (State.count_keeps rfl (Keeps.refl _ _))
  unfold State.note
  dsimp only
  split
  · have stored := (h.setAt home off poisonLine).of
      (State.count_keeps (a1 := .slice) (a2 := home.slice) (a3 := 79 + t.unitCode home) (a4 := 1) rfl (Keeps.refl _ _))
    exact (stored.updChan _ _).logError _ _
  · exact counted 97
  · split
    · unfold State.noteCorrected
      dsimp only
      split
      · exact (((counted _).setAt _ _ _).logError _ _).verify _ _ _ _
      · exact counted _
    · exact h

theorem LinesKept.readLine (off host level : Nat) : LinesKept s (t.readLine off host level).1 :=
  ((h.note _ _ _).of (State.count_keeps rfl (Keeps.refl _ _))).queueDram _ _ _

theorem LinesKept.unitRead (e : Trk) (u : Nat) : LinesKept s (t.unitRead e u).1 := by
  unfold State.unitRead State.readPlain
  dsimp only
  split
  · exact h
  · exact h.readLine _ _ _

/-! ### Lines that are stored -/

theorem LinesKept.storeLine (off : Nat) (l : SLine) (level : Nat) : LinesKept s (t.storeLine off l level).1 := by
  have stored : LinesKept s ((t.snapKeep off).setStored off l) :=
    (h.updSlice _ fun _ => rfl : LinesKept s (t.snapKeep off)).of (State.setStored_keeps rfl (Keeps.refl _ _))
  have marked : LinesKept s (((t.snapKeep off).setStored off l).markPage (t.home off)) := by
    unfold State.markPage
    split
    · exact stored.updSlice _ fun _ => rfl
    · exact stored
  have counted := marked.of (State.count_keeps (a1 := .slice) (a2 := (t.home off).slice) (a3 := (t.home off).row true) (a4 := 1)
    rfl (State.markWritten_keeps (a1 := off) rfl (Keeps.refl _ _)))
  exact (counted.queueDram (t.home off) true level).of (State.forward_keeps rfl (Keeps.refl _ _))

theorem LinesKept.unitWrite (e : Trk) (u : Nat) (d : Line) : LinesKept s (t.unitWrite e u d).1 := by
  unfold State.unitWrite
  dsimp only
  split_ifs
  · exact h
  · exact h
  · exact h.storeLine _ _ _

end

end Sys2Proof.Machine
end

section
/-! SUPPORT. What a request does to its line's directory entry (07 R141 to R144, R149): the entry a unit leaves in the tracker once it is
settled, and the lemmas that say what taking up a unit, granting a line, sending snoops and freeing an entry do. -/

namespace Sys2Proof.Machine

/-! ### Tracker entries that are replaced -/

/-- An entry put in place of the one of its number is the one found under it. -/
theorem SliceSt.trk_put (x : SliceSt) {z e : Trk} (entry : x.trk z.id = some e) : (x.updTrk z.id fun _ => z).trk z.id = some z := by
  have same : (x.updTrk z.id fun _ => z) = x.updTrk z.id fun y => if y.id = z.id then z else y := by
    unfold SliceSt.updTrk
    congr 1
    refine List.map_congr_left fun y _ => ?_
    by_cases q : y.id = z.id <;> simp [q]
  have number : e.id = z.id := by simpa using List.find?_some entry
  rw [same, x.trk_updTrk z.id z.id (f := fun y => if y.id = z.id then z else y)
    (fun y => by split <;> simp_all), entry]
  simp [number]

theorem SliceSt.trk_put_other (x : SliceSt) {z : Trk} {id : Nat} (o : id ≠ z.id) :
    (x.updTrk z.id fun _ => z).trk id = x.trk id := by
  unfold SliceSt.trk SliceSt.updTrk
  induction x.tracker with
  | nil => rfl
  | cons y l ih =>
    by_cases q : y.id = z.id <;> simp_all [List.find?_cons, Ne.symm o]

/-- The later of two entries put under one number stays. -/
theorem SliceSt.put_put (x : SliceSt) {z w : Trk} (number : z.id = w.id) :
    ((x.updTrk w.id fun _ => z).updTrk w.id fun _ => w) = x.updTrk w.id fun _ => w := by
  unfold SliceSt.updTrk
  simp only [List.map_map]
  congr 1
  refine List.map_congr_left fun y _ => ?_
  by_cases q : y.id = w.id <;> simp [q, number]

/-! ### Settled units -/

/-- An entry whose units are all done. -/
def Trk.finished (t : Trk) : Trk := { t with stage := .done, result := t.finalResult }

/-- A complete entry, its slot's use over and its TAG record's HSEQ noted. -/
def Trk.closed (t : Trk) (hseq : Option Nat) : Trk := { t with slot := none, hseq := hseq }

/-- The entry of a request once a unit of it is settled: complete with its last unit. -/
def Trk.settled (t : Trk) (hseq : Option Nat) : Trk :=
  if t.todo.isEmpty && t.stage == .snooping then t.finished.closed hseq else t

@[simp] theorem Trk.settled_id (t : Trk) (hseq : Option Nat) : (t.settled hseq).id = t.id := by
  unfold Trk.settled
  split <;> rfl

@[simp] theorem Trk.settled_status (t : Trk) (hseq : Option Nat) : (t.settled hseq).status = t.status := by
  unfold Trk.settled
  split <;> rfl

/-- The last unit of a request that waits completes it. -/
theorem Trk.settled_last {t : Trk} (last : t.todo = []) (stage : t.stage = .snooping) (hseq : Option Nat) :
    (t.settled hseq).stage = .done ∧ (t.settled hseq).result = t.finalResult := by
  have whole : (t.todo.isEmpty && t.stage == .snooping) = true := by rw [last, stage]; rfl
  unfold Trk.settled
  rw [if_pos whole]
  exact ⟨rfl, rfl⟩

/-- One that is complete already stays as it is. -/
theorem Trk.settled_done {t : Trk} (stage : t.stage = .done) (hseq : Option Nat) : t.settled hseq = t := by
  unfold Trk.settled
  rw [stage]
  simp

/-- Completing a request changes its tracker entry and nothing else in any slice. -/
theorem State.complete_slice {s : State} {n id : Nat} {e : Trk} (f : Trk → Trk) (entry : (s.slice n).trk id = some e) :
    ∃ hseq, ∀ j, (s.complete n id f).slice j =
      (s.updSlice n fun x => x.updTrk id fun _ => (f e).closed hseq).slice j := by
  have recorded (a : State) (b : Bool) (j : Nat) : (if b then a.recordDone (f e) else (a, none)).1.slice j = a.slice j := by
    split
    · exact State.slice_of_keeps (State.recordDone_keeps rfl (Keeps.refl _ _)) j
    · rfl
  have used (o : Option Nat) (j : Nat) : (match o with | some k => s.endUse k | none => s).slice j = s.slice j := by
    cases o <;> rfl
  have whole : ∃ w : State × Option Nat, (∀ j, w.1.slice j = s.slice j) ∧ s.complete n id f =
      w.1.updSlice n fun x => x.updTrk id fun _ => (f e).closed (laterHseq (f e).hseq w.2) := by
    unfold State.complete
    rw [entry]
    exact ⟨_, fun j => (recorded _ _ j).trans (used _ j), rfl⟩
  obtain ⟨w, kept, whole⟩ := whole
  refine ⟨laterHseq (f e).hseq w.2, fun j => ?_⟩
  rw [whole, State.slice_updSlice_if, State.slice_updSlice_if, kept, kept]

/-- Settling a unit changes its request's tracker entry and nothing else in any slice. -/
theorem State.settle_slice {s : State} {n : Nat} {t e : Trk} (entry : (s.slice n).trk t.id = some e) :
    ∃ hseq, ∀ j, (s.settle n t).slice j = (s.putTrk n (t.settled hseq)).slice j := by
  have put : ((s.putTrk n t).slice n).trk t.id = some t := by
    rw [State.putTrk, State.slice_updSlice, SliceSt.trk_put _ entry]
  unfold State.settle
  dsimp only
  split
  · next last =>
    obtain ⟨hseq, whole⟩ := State.complete_slice Trk.finished put
    refine ⟨hseq, fun j => (whole j).trans ?_⟩
    rw [Trk.settled, if_pos last, State.putTrk, State.putTrk, State.slice_updSlice_if, State.slice_updSlice,
      State.slice_updSlice_if, State.slice_updSlice_if]
    split
    · exact SliceSt.put_put (w := t.finished.closed hseq) _ rfl
    · rfl
  · next more => exact ⟨none, fun j => by rw [Trk.settled, if_neg more]⟩

section
variable {s : State} {n : Nat} {t e : Trk} (entry : (s.slice n).trk t.id = some e)
include entry

theorem State.settle_dirAt (j k : Nat) : ((s.settle n t).slice j).dirAt k = (s.slice j).dirAt k := by
  obtain ⟨hseq, settled⟩ := State.settle_slice entry
  rw [settled, State.putTrk, State.slice_updSlice_if]
  split
  · next q => rw [q]; rfl
  · rfl

theorem State.settle_slice_other {j : Nat} (o : j ≠ n) : (s.settle n t).slice j = s.slice j := by
  obtain ⟨hseq, settled⟩ := State.settle_slice entry
  rw [settled, State.putTrk, State.slice_updSlice_other _ _ o]

theorem State.settle_trk : ∃ hseq, ((s.settle n t).slice n).trk t.id = some (t.settled hseq) := by
  obtain ⟨hseq, settled⟩ := State.settle_slice entry
  refine ⟨hseq, ?_⟩
  rw [settled, State.putTrk, State.slice_updSlice]
  exact (congrArg _ (t.settled_id hseq).symm).trans ((s.slice n).trk_put (by rw [t.settled_id, entry]))

theorem State.settle_trk_other {id : Nat} (o : id ≠ t.id) : ((s.settle n t).slice n).trk id = (s.slice n).trk id := by
  obtain ⟨hseq, settled⟩ := State.settle_slice entry
  rw [settled, State.putTrk, State.slice_updSlice]
  exact (s.slice n).trk_put_other (by rwa [t.settled_id])

/-- The last unit of a request settles it: its outcome is that of its units. -/
theorem State.settle_last (last : t.todo = []) (stage : t.stage = .snooping) :
    ∃ x, ((s.settle n t).slice n).trk t.id = some x ∧ x.stage = .done ∧ x.status = t.status ∧ x.result = t.finalResult := by
  obtain ⟨hseq, found⟩ := State.settle_trk entry
  obtain ⟨done, result⟩ := Trk.settled_last last stage hseq
  exact ⟨_, found, done, t.settled_status hseq, result⟩

end

/-- The one unit that a request has left is its last. -/
theorem Trk.unitDone_last {t : Trk} {u : Nat} (todo : t.todo = [u]) (st : Status) (d : Line) : (t.unitDone u st d).todo = [] := by
  rw [Trk.unitDone, todo, List.filter_cons_of_neg (by simp), List.filter_nil]

/-! ### Directory entries -/

@[simp] theorem SliceSt.updDir_dirAt (x : SliceSt) (k : Nat) (f : DirEntry → DirEntry) : (x.updDir k f).dirAt k = f (x.dirAt k) :=
  Tbl.get_upd_same _ _ _ _

theorem SliceSt.updDir_dirAt_other (x : SliceSt) {j k : Nat} (f : DirEntry → DirEntry) (o : j ≠ k) :
    (x.updDir k f).dirAt j = x.dirAt j :=
  Tbl.get_upd_other _ _ _ o

/-- The entry of a line is one of its set's ways, in use for the line. -/
theorem SliceSt.dirOf_some {x : SliceSt} {line k : Nat} (found : x.dirOf line = some k) :
    k ∈ dirWays line ∧ (x.dirAt k).valid = true ∧ (x.dirAt k).line = line := by
  have holds := List.find?_some found
  simp only [Bool.and_eq_true, beq_iff_eq] at holds
  exact ⟨List.mem_of_find?_eq_some found, holds⟩

theorem State.updSlice_congr {s : State} {n : Nat} {f g : SliceSt → SliceSt} (e : f (s.slice n) = g (s.slice n)) :
    s.updSlice n f = s.updSlice n g := by
  unfold State.updSlice Tbl.upd
  exact congrArg (fun x => { s with slices := s.slices.set {} n x }) e

section
variable {s : State} {n line k : Nat} (found : (s.slice n).dirOf line = some k)
include found

theorem State.setDir_found (f : DirEntry → DirEntry) : s.setDir n line f = s.updSlice n fun x => x.updDir k f :=
  State.updSlice_congr (by rw [found])

/-- Freeing a line's entry frees its way, and changes nothing else in any slice. -/
theorem State.freeLine_slice (j : Nat) : (s.freeLine n line).slice j = (s.freeDir n k).slice j := by
  unfold State.freeLine
  rw [found]
  exact State.slice_of_keeps (State.tellDir_keeps rfl (Keeps.refl _ _)) j

theorem State.freeLine_dirAt : ((s.freeLine n line).slice n).dirAt k = {} := by
  rw [State.freeLine_slice found, State.freeDir, State.slice_updSlice, SliceSt.updDir_dirAt]

theorem State.freeLine_trk (id : Nat) : ((s.freeLine n line).slice n).trk id = (s.slice n).trk id := by
  rw [State.freeLine_slice found, State.freeDir, State.slice_updSlice]
  rfl

end

/-! ### Grants (R141) -/

theorem LinesKept.waitTxn {s t : State} (h : LinesKept s t) (n line : Nat) (cause : TxnCause) :
    LinesKept s (t.waitTxn n line cause) :=
  h.updSlice n fun _ => rfl

theorem LinesKept.recallGranted {s t : State} (h : LinesKept s t) (n line st : Nat) :
    LinesKept s (t.recallGranted n line st) := by
  have due (l : List (Nat × RevokeEntry)) :
      LinesKept s (l.foldl (fun a p => a.waitTxn n line (.revoke p.1)) t) :=
    h.foldl (fun _ _ k => k.waitTxn _ _ _) l
  unfold State.recallGranted
  dsimp only
  split
  · exact (due _).waitTxn _ _ _
  · exact due _

/-- A grant changes the line's entry, and its request is answered OK with the state granted. -/
theorem State.grantLine_effect {s : State} {n line k : Nat} {t e : Trk} (state : Nat) (f : DirEntry → DirEntry)
    (found : (s.slice n).dirOf line = some k) (entry : (s.slice n).trk t.id = some e) (last : t.todo = [])
    (stage : t.stage = .snooping) (ok : t.status = .ok) :
    ((s.grantLine n line t state f).slice n).dirAt k = f ((s.slice n).dirAt k) ∧
    ∃ x, ((s.grantLine n line t state f).slice n).trk t.id = some x ∧ x.stage = .done ∧ x.status = .ok ∧
      x.result = BitVec.ofNat 64 state := by
  have told (j : Nat) : ((s.setDir n line f).tellDir n line).1.slice j = (s.updSlice n fun x => x.updDir k f).slice j := by
    rw [State.setDir_found found]
    exact State.slice_of_keeps (State.tellDir_keeps rfl (Keeps.refl _ _)) j
  have entry' : (((s.setDir n line f).tellDir n line).1.slice n).trk t.id = some e := by
    rw [told, State.slice_updSlice]
    exact entry
  unfold State.grantLine
  dsimp only
  generalize granted : ({ t with result := BitVec.ofNat 64 state }.withHseq _ : Trk) = g
  have fields : g.id = t.id ∧ g.todo = t.todo ∧ g.stage = t.stage ∧ g.status = t.status ∧
      g.finalResult = if t.status == .ok then BitVec.ofNat 64 state else g.finalResult := by
    subst granted
    simp [Trk.withHseq, Trk.finalResult, ok]
  obtain ⟨id, todo, stage', status, result⟩ := fields
  rw [← id] at entry' ⊢
  have kept : LinesKept _ _ := (LinesKept.refl (((s.setDir n line f).tellDir n line).1.settle n g)).recallGranted n line t.stall
  obtain ⟨x, found', done, status', result'⟩ := State.settle_last entry' (todo.trans last) (stage'.trans stage)
  refine ⟨?_, x, (kept.trk n g.id).trans found', done, status'.trans (status.trans ok), ?_⟩
  · rw [kept.dirAt, State.settle_dirAt entry', told, State.slice_updSlice, SliceSt.updDir_dirAt]
  · rw [result', result, ok]
    rfl

/-! ### Snoops (R142, R147) -/

/-- A snoop that is sent stands at the end of those that are out, unanswered. -/
theorem State.sendSnoop_snoops (s : State) (n line off mod txn st : Nat) :
    ∃ p, (s.sendSnoop n line off mod txn st).snoops = s.snoops ++ [p] ∧ p.stall = st ∧ p.line = line ∧ p.slice = n ∧
      p.answered = false ∧ p.mod = mod := by
  unfold State.sendSnoop
  dsimp only
  exact ⟨_, (State.sprayReq_keeps (M := 4259852) rfl (Keeps.refl _ _)).1 .snoops rfl, rfl, rfl, rfl, rfl, rfl⟩

/-- A transaction that snoops one stall makes its line's entry BUSY. -/
theorem State.startTxn_effect {s : State} {n line k st : Nat} {cause : TxnCause} (mod : Nat) (spared : Option Nat)
    (found : (s.slice n).dirOf line = some k) (snoopable : s.snoopable cause st = true) :
    (((s.startTxn n line mod [st] cause spared).slice n).dirAt k).busy = true ∧
    ∃ p, (s.startTxn n line mod [st] cause spared).snoops = s.snoops ++ [p] ∧ p.stall = st ∧ p.line = line ∧ p.slice = n ∧
      p.answered = false ∧ p.mod = mod := by
  have one : (([st] : List Nat).eraseDups.filter fun x => s.snoopable cause x) = [st] := by
    change [st].filter _ = [st]
    rw [List.filter_cons_of_pos snoopable, List.filter_nil]
  unfold State.startTxn
  extract_lets off id s1 s2
  rw [one, List.foldl_cons, List.foldl_nil]
  have counted : s2.slices = s1.slices ∧ s2.snoops = s1.snoops := by
    dsimp only [s2]
    split <;> exact ⟨rfl, rfl⟩
  obtain ⟨slices, snoops⟩ := counted
  refine ⟨?_, snoops ▸ s2.sendSnoop_snoops n line off mod id st⟩
  rw [State.slice_of_keeps (State.sendSnoop_keeps rfl (Keeps.refl _ _)), State.slice_of_slices slices]
  dsimp only [s1]
  rw [State.slice_updSlice, found]
  dsimp only
  rw [SliceSt.updDir_dirAt]

/-! ### A unit that is taken up -/

section
variable {s : State} {n u k : Nat} {t : Trk} (ram : s.sramOk) (found : (s.slice n).dirOf (s.lineNo (s.unitOff t.req u)) = some k)
include ram found

/-- On a held line a unit that needs no snoop goes on at once. -/
theorem State.cohTake_direct (live : ((s.slice n).dirAt k).phase ≠ .orphaned) (fresh : ((s.slice n).dirAt k).phase ≠ .stale)
    (quiet : s.cohSnoops u t ((s.slice n).dirAt k) = none) :
    s.cohTake n u t = s.cohDirect n (s.lineNo (s.unitOff t.req u)) u t ((s.slice n).dirAt k) := by
  unfold State.cohTake
  dsimp only
  rw [found]
  dsimp only
  rw [State.readDir_ok ram, quiet]
  split
  · exact absurd ‹_› live
  · exact absurd ‹_› fresh
  · rfl

/-- One that needs snoops sends them. -/
theorem State.cohTake_snoops {mod : Nat} {targets : List Nat} (live : ((s.slice n).dirAt k).phase ≠ .orphaned)
    (fresh : ((s.slice n).dirAt k).phase ≠ .stale) (needs : s.cohSnoops u t ((s.slice n).dirAt k) = some (mod, targets)) :
    ∃ spared, s.cohTake n u t = s.startTxn n (s.lineNo (s.unitOff t.req u)) mod targets (.request t.id u) spared := by
  unfold State.cohTake
  dsimp only
  rw [found]
  dsimp only
  rw [State.readDir_ok ram, needs]
  split
  · exact absurd ‹_› live
  · exact absurd ‹_› fresh
  · exact ⟨_, rfl⟩

theorem State.cohTake_orphaned (lost : ((s.slice n).dirAt k).phase = .orphaned) :
    s.cohTake n u t = s.cohLost n (s.lineNo (s.unitOff t.req u)) u t false := by
  unfold State.cohTake
  dsimp only
  rw [found]
  dsimp only
  rw [State.readDir_ok ram, lost]

end

/-- What an ORPHANED line answers: all but the whole-line WRITE and INVALIDATE (R149, Table 7.7). -/
theorem State.cohLost_orphaned (s : State) (n line u : Nat) {t : Trk} (write : t.op ≠ .write) (invalidate : t.op ≠ .invalidate) :
    s.cohLost n line u t false = s.failUnit n u t .orphaned := by
  unfold State.cohLost
  split
  · exact absurd ‹_› write
  · exact absurd ‹_› invalidate
  all_goals rfl

/-- A whole-line write of a line that is up, with room for its old content, is performed (R118, 08 R177). -/
theorem State.unitWrite_ok {s : State} {t : Trk} {u : Nat} (d : Line) (up : s.homeDown (s.unitOff t.req u) = false)
    (room : s.snapRoom (s.unitOff t.req u) = true) (ok : t.status = .ok) :
    (s.unitWrite t u d).2.status = .ok ∧ (s.unitWrite t u d).2.id = t.id := by
  unfold State.unitWrite
  dsimp only
  rw [up, room, if_neg Bool.false_ne_true, if_neg (by decide)]
  exact ⟨by rw [Trk.withHseq, Trk.unitDone, ok]; rfl, rfl⟩

/-! ### The directory by opcode and state -/

section
variable {s : State} {n u k : Nat} {t : Trk} (found : (s.slice n).dirOf (s.lineNo (s.unitOff t.req u)) = some k) (ram : s.sramOk)
include found ram

/-- COH_READ MOD 0 of a SHARED line (Table 7.4). -/
theorem cohRead_shared_effect (entry : (s.slice n).trk t.id = some t) (stage : t.stage = .snooping) (todo : t.todo = [u])
    (op : t.op = .cohRead) (mod : t.req.mod = 0) (shared : ((s.slice n).dirAt k).phase = .shared)
    (reads : (s.readPlain (s.unitOff t.req u) (s.slotOf (s.unitOff t.req u)) t.req.host).2.1 = .ok) (ok : t.status = .ok) :
    ((s.cohTake n u t).slice n).dirAt k = ((s.slice n).dirAt k).add t.stall ∧
    ∃ x, ((s.cohTake n u t).slice n).trk t.id = some x ∧ x.stage = .done ∧ x.status = .ok ∧ x.result = 1 := by
  have quiet : s.cohSnoops u t ((s.slice n).dirAt k) = none := by
    simp [State.cohSnoops, shared, op, mod, ReqOp.overwrites]
  have status : (s.unitRead t u).2.status = .ok := by
    rw [State.unitRead, Trk.unitDone, reads, ok]
    rfl
  have granted : s.cohTake n u t = (s.unitRead t u).1.grantLine n (s.lineNo (s.unitOff t.req u)) (s.unitRead t u).2 1
      (sharedWith t.stall) := by
    rw [State.cohTake_direct ram found (by simp [shared]) (by simp [shared]) quiet, State.cohDirect, op, shared]
    exact if_pos (beq_iff_eq.2 status)
  have kept : LinesKept s (s.unitRead t u).1 := (LinesKept.refl s).unitRead t u
  rw [granted, ← kept.dirAt]
  exact State.grantLine_effect 1 (sharedWith t.stall) ((kept.dirOf _ _).trans found) ((kept.trk _ _).trans entry)
    (Trk.unitDone_last todo _ _) stage status

/-- READ or COH_READ of a line that another stall owns. -/
theorem read_owned_effect (op : t.op ∈ [ReqOp.read, .cohRead]) (owned : ((s.slice n).dirAt k).phase = .owned)
    (other : ((s.slice n).dirAt k).holder ≠ t.stall)
    (snoopable : s.snoopable (.request t.id u) ((s.slice n).dirAt k).holder = true) :
    (((s.cohTake n u t).slice n).dirAt k).busy = true ∧
    ∃ p, (s.cohTake n u t).snoops = s.snoops ++ [p] ∧ p.stall = ((s.slice n).dirAt k).holder ∧
      p.line = s.lineNo (s.unitOff t.req u) ∧ p.slice = n ∧ p.answered = false ∧
      p.mod = (if t.op = .cohRead then t.req.mod else 0) := by
  have needs : s.cohSnoops u t ((s.slice n).dirAt k) =
      some (if t.op = .cohRead then t.req.mod else 0, [((s.slice n).dirAt k).holder]) := by
    simp only [List.mem_cons, List.not_mem_nil, or_false] at op
    rcases op with op | op <;> simp [State.cohSnoops, owned, op, other]
  obtain ⟨spared, sent⟩ := State.cohTake_snoops ram found (by simp [owned]) (by simp [owned]) needs
  rw [sent]
  exact State.startTxn_effect _ spared found snoopable

/-- Any request but a whole-line WRITE and INVALIDATE on an ORPHANED line. -/
theorem orphaned_effect (entry : (s.slice n).trk t.id = some t) (stage : t.stage = .snooping) (todo : t.todo = [u])
    (write : t.op ≠ .write) (invalidate : t.op ≠ .invalidate) (lost : ((s.slice n).dirAt k).phase = .orphaned)
    (ok : t.status = .ok) :
    (∀ j, ((s.cohTake n u t).slice n).dirAt j = (s.slice n).dirAt j) ∧
    ∃ x, ((s.cohTake n u t).slice n).trk t.id = some x ∧ x.stage = .done ∧ x.status = .orphaned := by
  rw [State.cohTake_orphaned ram found lost, State.cohLost_orphaned s n _ u write invalidate]
  obtain ⟨x, found', done, status, _⟩ := State.settle_last (t := t.unitDone u .orphaned 0) entry
    (Trk.unitDone_last todo _ _) stage
  refine ⟨fun j => State.settle_dirAt (t := t.unitDone u .orphaned 0) entry n j, x, found', done, status.trans ?_⟩
  rw [Trk.unitDone, ok]
  rfl

/-- A whole-line WRITE of an ORPHANED line. -/
theorem write_orphaned_effect (entry : (s.slice n).trk t.id = some t) (op : t.op = .write) (lost : ((s.slice n).dirAt k).phase = .orphaned)
    (ok : t.status = .ok) (up : s.homeDown (s.unitOff t.req u) = false) (room : s.snapRoom (s.unitOff t.req u) = true) :
    (((s.cohTake n u t).slice n).dirAt k).valid = false := by
  have kept : LinesKept s (s.unitWrite t u (unitOf t.req u)).1 := (LinesKept.refl s).unitWrite t u _
  obtain ⟨status, id⟩ := State.unitWrite_ok (unitOf t.req u) up room ok
  have written : s.cohTake n u t = ((s.unitWrite t u (unitOf t.req u)).1.freeLine n (s.lineNo (s.unitOff t.req u))).settle n
      (s.unitWrite t u (unitOf t.req u)).2 := by
    rw [State.cohTake_orphaned ram found lost, State.cohLost, op]
    dsimp only
    unfold State.cohMemory State.unitDo
    rw [op]
    dsimp only
    rw [status]
    rfl
  have found' := (kept.dirOf n (s.lineNo (s.unitOff t.req u))).trans found
  have entry' : (((s.unitWrite t u (unitOf t.req u)).1.freeLine n (s.lineNo (s.unitOff t.req u))).slice n).trk
      (s.unitWrite t u (unitOf t.req u)).2.id = some t := by
    rw [State.freeLine_trk found', kept.trk, id, entry]
  rw [written, State.settle_dirAt entry', State.freeLine_dirAt found']

/-- INVALIDATE by the owner. -/
theorem invalidate_owned_effect (entry : (s.slice n).trk t.id = some t) (op : t.op = .invalidate)
    (owned : ((s.slice n).dirAt k).phase = .owned) (own : ((s.slice n).dirAt k).holder = t.stall) :
    (((s.cohTake n u t).slice n).dirAt k).valid = false ∧ (s.cohTake n u t).chans = s.chans := by
  have quiet : s.cohSnoops u t ((s.slice n).dirAt k) = none := by
    simp [State.cohSnoops, owned, op, ReqOp.overwrites]
  have freed : s.cohTake n u t = (s.freeLine n (s.lineNo (s.unitOff t.req u))).settle n (t.unitDone u .ok 0) := by
    rw [State.cohTake_direct ram found (by simp [owned]) (by simp [owned]) quiet, State.cohDirect, op, owned, own]
    rw [if_pos rfl]
    rfl
  have entry' : ((s.freeLine n (s.lineNo (s.unitOff t.req u))).slice n).trk (t.unitDone u .ok 0).id = some t :=
    (State.freeLine_trk found t.id).trans entry
  rw [freed]
  refine ⟨?_, ?_⟩
  · rw [State.settle_dirAt entry', State.freeLine_dirAt found]
  · exact (State.settle_keeps (M := 1616642124) rfl (State.freeLine_keeps rfl (Keeps.refl _ _))).1 .chans rfl

end

/-- Settles O28, a lemma for each cell of the tables that it names. -/
theorem directoryAnswersByState : Obligations.DirectoryAnswersByState := by
  unfold Obligations.DirectoryAnswersByState
  intro s n u t k entry stage todo
  dsimp only
  intro found ram
  refine ⟨fun op mod shared reads ok => cohRead_shared_effect found ram entry stage todo op mod shared reads ok,
    fun op owned other snoopable => read_owned_effect found ram op owned other snoopable, fun op lost ok => ?_,
    fun op lost ok up room => write_orphaned_effect found ram entry op lost ok up room,
    fun op owned own _ => invalidate_owned_effect found ram entry op owned own⟩
  have others : t.op ≠ .write ∧ t.op ≠ .invalidate := by
    constructor
    all_goals
      intro q
      rw [q] at op
      exact absurd op (by decide)
  exact orphaned_effect found ram entry stage todo others.1 others.2 lost ok

end Sys2Proof.Machine
end

section
/-! SUPPORT. Snoops and their answers (07 R139, R146, R147): an answer, a resend and the end of a minimum hold, up to where the slice's
coherent work goes on. -/

namespace Sys2Proof.Machine

/-! ### Counts of wakes -/

/-- Waking a slice counts in rows of the board alone that lie below every slice's row of stale snoops. -/
theorem State.wakeSlice_tallyOf (s : State) (n i : Nat) (g : Group) {r : Nat} (high : 26 < r) (low : r < 128) :
    (s.wakeSlice n).tallyOf g i r = s.tallyOf g i r := by
  have ramp : (s.beginRamp n).tallyOf g i r = s.tallyOf g i r := by
    unfold State.beginRamp
    dsimp only
    have row : (if n < 8 then 18 + n else if n = 8 then 16 else if n = 9 then 17 else 26) ≤ 26 := by split_ifs <;> omega
    exact State.tallyOf_count_otherRow _ .board g 0 i 1 (by omega) low (by omega)
  unfold State.wakeSlice
  split
  · exact ramp
  · rfl
  · rfl

theorem State.pipePush_tallyOf (s : State) (n level source what i : Nat) (g : Group) {r : Nat} (high : 26 < r) (low : r < 128) :
    (s.pipePush n level source what).tallyOf g i r = s.tallyOf g i r := by
  unfold State.pipePush
  split_ifs
  · rfl
  · rfl
  · exact s.wakeSlice_tallyOf n i g high low

/-! ### Snoops that change -/

theorem State.updSnoop_snoops (s : State) (tag : Nat) (f : Snoop → Snoop) :
    (s.updSnoop tag f).snoops = s.snoops.map fun q => if q.tag = tag then f q else q := by
  unfold State.updSnoop
  simp only [beq_iff_eq]

/-- The first that passes one test, if it passes another too, is the first that passes both. -/
theorem find?_and {α : Type} {l : List α} {p : α → Bool} {a : α} (found : l.find? p = some a) (q : α → Bool) (holds : q a = true) :
    l.find? (fun x => p x && q x) = some a := by
  obtain ⟨first, before, after, e, others⟩ := List.find?_eq_some_iff_append.1 found
  exact List.find?_eq_some_iff_append.2 ⟨by rw [first, holds]; rfl, before, after, e, fun x m => by
    have other := others x m
    rw [Bool.not_eq_true'] at other
    rw [other]
    rfl⟩

/-! ### An answer (R139) -/

/-- A SNOOP with the answer OK of its host: a stall that has written the line back brings no data (R143). -/
def Snoop.answeredBy (h : HostResp) (dead : Bool) (q : Snoop) : Snoop := { q with
  answered := true, present := h.result.getLsbD 0, dirty := h.result.getLsbD 1 && !dead, data := h.data }

/-- The state in which a SNOOP is answered OK, before its slice's work goes on. -/
def State.answeredOk (s : State) (h : HostResp) (p : Snoop) : State :=
  ((s.updSnoop p.tag (Snoop.answeredBy h p.dead)).pipePush p.slice 2 p.stall p.tag).countStale
    (if h.result.getLsbD 0 then [] else [p])

theorem State.countStale_unless (t : State) (present : Bool) (p : Snoop) :
    (if present then t else t.countStale [p]) = t.countStale (if present then [] else [p]) := by
  cases present
  · rfl
  · rfl

section
variable {s : State} {h : HostResp} {p : Snoop}

theorem State.answeredOk_keeps : Keeps 20971840 s (s.answeredOk h p) :=
  State.countStale_keeps rfl (State.pipePush_keeps rfl (State.updSnoop_keeps rfl (Keeps.refl _ s)))

theorem State.answeredOk_snoops :
    (s.answeredOk h p).snoops = s.snoops.map fun q => if q.tag = p.tag then q.answeredBy h p.dead else q := by
  have kept : Keeps 20971584 (s.updSnoop p.tag (Snoop.answeredBy h p.dead)) (s.answeredOk h p) :=
    State.countStale_keeps rfl (State.pipePush_keeps rfl (Keeps.refl _ _))
  rw [kept.1 .snoops rfl, State.updSnoop_snoops]

theorem State.answeredOk_lines : LinesKept s (s.answeredOk h p) :=
  (((LinesKept.refl s).of (State.updSnoop_keeps rfl (Keeps.refl _ s))).pipePush _ _ _ _).of
    (State.countStale_keeps rfl (Keeps.refl _ _))

/-- A stale snoop is counted in the tally of its slice (R141), unless its stall has written the line back. -/
theorem State.answeredOk_stale :
    (s.answeredOk h p).tallyOf .slice p.slice 56 = s.tallyOf .slice p.slice 56 + b2n (!h.result.getLsbD 0 && !p.dead) := by
  have pushed := (s.updSnoop p.tag (Snoop.answeredBy h p.dead)).pipePush_tallyOf p.slice 2 p.stall p.tag p.slice .slice
    (r := 56) (by decide) (by decide)
  have before : (s.updSnoop p.tag (Snoop.answeredBy h p.dead)).tallyOf .slice p.slice 56 = s.tallyOf .slice p.slice 56 := rfl
  rw [before] at pushed
  unfold State.answeredOk State.countStale
  rw [← pushed]
  generalize (s.updSnoop p.tag (Snoop.answeredBy h p.dead)).pipePush p.slice 2 p.stall p.tag = t
  cases h.result.getLsbD 0
  · cases dead : p.dead
    · simp [dead, b2n]
    · simp [dead, b2n]
  · simp [b2n]

theorem snoopResponse_effect (found : s.snoopOf h = some p) :
    ∃ t, exec (.snoopResponse h) s = .next t ∧
      (h.status = 0 → ∃ v : State, t = v.cohGo p.slice ∧ s.frame v [.slices, .snoops, .obs, .clock] ∧
        (v.snoops = s.snoops.map fun (q : Snoop) => if q.tag = p.tag then { q with
          answered := true, present := h.result.getLsbD 0, dirty := h.result.getLsbD 1 && !p.dead,
            data := h.data } else q) ∧
        (∀ m k, (v.slice m).dirAt k = (s.slice m).dirAt k) ∧
        v.tallyOf .slice p.slice 56 = s.tallyOf .slice p.slice 56 + b2n (!h.result.getLsbD 0 && !p.dead)) ∧
      (h.status = 1 → s.frame t [.snoops] ∧
        t.snoops = s.snoops.map fun (q : Snoop) => if q.tag = p.tag then { q with retry := true } else q) ∧
      (2 ≤ h.status → t = s) := by
  have run (r : State) (e : execSnoopResponse h s = .next r) : exec (.snoopResponse h) s = .next r := e
  match status : h.status with
  | 0 =>
    refine ⟨(s.answeredOk h p).cohGo p.slice, run _ ?_, fun _ => ?_,
      fun e => absurd e (by decide), fun e => absurd e (by decide)⟩
    · rw [execSnoopResponse, found, status]
      exact congrArg (fun t : State => Host.Outcome.next (t.cohGo p.slice)) (State.countStale_unless _ _ p)
    · exact ⟨_, rfl, State.answeredOk_keeps.frame rfl, State.answeredOk_snoops, State.answeredOk_lines.dirAt,
        State.answeredOk_stale⟩
  | 1 =>
    refine ⟨s.updSnoop p.tag fun x => { x with retry := true }, run _ (by rw [execSnoopResponse, found, status]; rfl),
      fun e => absurd e (by decide), fun _ => ?_, fun e => absurd e (by decide)⟩
    exact ⟨(State.updSnoop_keeps (M := 256) rfl (Keeps.refl _ s)).frame rfl, State.updSnoop_snoops _ _ _⟩
  | n + 2 =>
    exact ⟨s, run _ (by rw [execSnoopResponse, found, status]; rfl), fun e => absurd e (by omega), fun e => absurd e (by omega),
      fun _ => rfl⟩

end

/-! ### A resend (R147) -/

theorem snoopRetry_effect {s : State} {tag : Nat} {p : Snoop} (found : s.snoops.find? (fun q => q.tag == tag) = some p)
    (retry : p.retry = true) (answered : p.answered = false) (expired : p.expired = false) :
    ∃ t, exec (.snoopRetry tag) s = .next t ∧
      t.snoops = (s.snoops.map fun (q : Snoop) => if q.tag = tag then { q with retry := false } else q) ∧
      s.frame t [.links, .stalls, .snoops, .xbar, .obs] := by
  have due := find?_and found (fun q => q.retry && (!q.answered && !q.expired)) (by simp [retry, answered, expired])
  have sent : exec (.snoopRetry tag) s = .next ((s.updSnoop tag fun x => { x with retry := false }).sprayReq p.stall 0
      (.snoop tag) (.req (s.snoopReq p.stall tag p.mod (s.lineOff p.slice p.line)))) := by
    change execSnoopRetry tag s = _
    rw [execSnoopRetry, due]
  refine ⟨_, sent, ?_, (execSnoopRetry_keeps (M := 4260108) rfl (Keeps.refl _ s)).frame sent rfl⟩
  rw [(State.sprayReq_keeps (M := 4259852) rfl (Keeps.refl _ _)).1 .snoops rfl, State.updSnoop_snoops]

/-! ### The end of a minimum hold (R146) -/

theorem cohHoldExpiry_effect {s : State} {n k : Nat} (held : ((s.slice n).dirAt k).held = true) :
    ∃ t, exec (.cohHoldExpiry n k) s = .next t ∧ ∃ v : State, t = v.cohGo n ∧ s.frame v [.slices] ∧
      (v.slice n).dirAt k = { (s.slice n).dirAt k with held := false } ∧
      (∀ j, j ≠ k → (v.slice n).dirAt j = (s.slice n).dirAt j) ∧ ∀ m, m ≠ n → v.slice m = s.slice m := by
  refine ⟨_, congrArg Host.Outcome.next (if_pos held), _, rfl,
    (State.updSlice_keeps (M := 64) rfl (Keeps.refl _ s)).frame rfl, ?_, fun j o => ?_,
    fun m o => State.slice_updSlice_other s _ o⟩
  · rw [State.slice_updSlice, SliceSt.updDir_dirAt]
  · rw [State.slice_updSlice, SliceSt.updDir_dirAt_other _ _ o]

end Sys2Proof.Machine
end

section
/-! SUPPORT. SNOOP_TIMEOUT (07 R147): the SEQ of the crier through the requests that it ends, and how each request that waits on the line
is answered. -/

namespace Sys2Proof.Machine

/-! ### The SEQ of the crier -/

theorem State.queueCopies_head (c : CrierCopy) (l : List Nat) (s : State) : (s.queueCopies c l).obs.head = s.obs.head := by
  induction l generalizing s with
  | nil => rfl
  | cons st l ih => exact ih _

/-- A crier record takes the next SEQ. -/
theorem State.crier_head (s : State) (g : RegionNo) (code unit detail : Nat) (hosts : List Nat) :
    (s.crier g code unit detail hosts).obs.head = s.obs.head + 1 :=
  State.queueCopies_head _ _ _

theorem State.transmit_head (s : State) (n tc : Nat) (origin : Origin) (m : TxMsg) :
    (s.transmit n tc origin m).obs.head = s.obs.head := by
  unfold State.transmit
  dsimp only
  split
  · rfl
  · rfl

theorem State.halSendOne_head (s : State) (hseq : Nat) : (s.halSendOne hseq).obs.head = s.obs.head := by
  unfold State.halSendOne
  split
  · rfl
  · dsimp only
    split
    · rfl
    · exact State.transmit_head _ _ _ _ _

theorem State.halRecord_head (s : State) (type content : Nat) : (s.halRecord type content).1.obs.head = s.obs.head := by
  have flushed (a : State) : a.halFlush.obs.head = a.obs.head :=
    List.foldlRecOn (motive := fun x : State => x.obs.head = a.obs.head) _ _ rfl
      fun x h o _ => (x.halSendOne_head o.hseq).trans h
  unfold State.halRecord
  split
  · exact flushed _
  · rfl

/-- Settling a unit raises no event. -/
theorem State.settle_head (s : State) (n : Nat) (t : Trk) : (s.settle n t).obs.head = s.obs.head := by
  have recorded (a : State) (e : Trk) : (a.recordDone e).1.obs.head = a.obs.head := by
    unfold State.recordDone
    dsimp only
    split
    · exact State.halRecord_head _ _ _
    · rfl
  have completed (a : State) (id : Nat) (f : Trk → Trk) : (a.complete n id f).obs.head = a.obs.head := by
    unfold State.complete
    split
    · rfl
    · next e _ =>
      have used : (match (f e).slot with | some k => a.endUse k | none => a).obs.head = a.obs.head := by
        cases (f e).slot <;> rfl
      dsimp only
      split
      · exact (recorded _ _).trans used
      · exact used
  unfold State.settle
  dsimp only
  split
  · exact completed _ _ _
  · rfl

/-! ### One unit that times out -/

/-- A unit of a request that still has an entry is answered TIMEOUT. -/
def State.timeoutUnit (n id : Nat) (s : State) (u : Nat) : State :=
  match (s.slice n).trk id with
  | some t => s.failUnit n u t .timeout
  | none => s

/-- The units of a request that are on the line, of which there may be several, are answered TIMEOUT. -/
def State.timeoutUnits (line n : Nat) (s₀ s : State) (t : Trk) : State :=
  (t.todo.filter fun u => s₀.lineNo (s₀.unitOff t.req u) == line).foldl (State.timeoutUnit n t.id) s

theorem State.timeoutLine_eq (s : State) (n line : Nat) :
    s.timeoutLine n line = ((s.slice n).tracker.filter fun t => t.stage == .snooping).foldl (s.timeoutUnits line n) s := rfl

/-- The request is done with TIMEOUT. -/
def SliceSt.timedOut (x : SliceSt) (id : Nat) : Prop := ∃ y, x.trk id = some y ∧ y.stage = .done ∧ y.status = .timeout

section
variable {s : State} {n : Nat}

theorem State.timeoutUnit_slice_other {m : Nat} (o : m ≠ n) (id u : Nat) : (s.timeoutUnit n id u).slice m = s.slice m := by
  unfold State.timeoutUnit
  split
  · next t entry =>
    obtain rfl : t.id = id := by simpa using List.find?_some entry
    exact State.settle_slice_other (t := t.unitDone u .timeout 0) entry o
  · rfl


theorem State.timeoutUnit_trk_other {id j : Nat} (o : j ≠ id) (u : Nat) :
    ((s.timeoutUnit n id u).slice n).trk j = (s.slice n).trk j := by
  unfold State.timeoutUnit
  split
  · next t entry =>
    obtain rfl : t.id = id := by simpa using List.find?_some entry
    exact State.settle_trk_other (t := t.unitDone u .timeout 0) entry o
  · rfl

theorem State.timeoutUnit_head (id u : Nat) : (s.timeoutUnit n id u).obs.head = s.obs.head := by
  unfold State.timeoutUnit
  split
  · exact State.settle_head _ _ _
  · rfl

/-- A request that waits for its one unit is done with TIMEOUT. -/
theorem State.timeoutUnit_last {t : Trk} {u : Nat} (entry : (s.slice n).trk t.id = some t) (stage : t.stage = .snooping)
    (todo : t.todo = [u]) (ok : t.status = .ok) : ((s.timeoutUnit n t.id u).slice n).timedOut t.id := by
  unfold State.timeoutUnit
  rw [entry]
  obtain ⟨x, found, done, status, _⟩ := State.settle_last (t := t.unitDone u .timeout 0) entry (Trk.unitDone_last todo _ _) stage
  refine ⟨x, found, done, status.trans ?_⟩
  rw [Trk.unitDone, ok]
  rfl

/-- A request done with TIMEOUT stays so, whichever unit is answered next. -/
theorem State.timeoutUnit_timedOut {j : Nat} (h : (s.slice n).timedOut j) (id u : Nat) :
    ((s.timeoutUnit n id u).slice n).timedOut j := by
  obtain ⟨y, entry, done, status⟩ := h
  by_cases same : j = id
  · subst same
    obtain rfl : y.id = j := by simpa using List.find?_some entry
    obtain ⟨hseq, found⟩ := State.settle_trk (t := y.unitDone u .timeout 0) entry
    unfold State.timeoutUnit
    rw [entry]
    have stays : (y.unitDone u .timeout 0).settled hseq = y.unitDone u .timeout 0 :=
      Trk.settled_done (t := y.unitDone u .timeout 0) done hseq
    refine ⟨_, found, ?_⟩
    rw [stays]
    refine ⟨done, ?_⟩
    rw [Trk.unitDone, status]
    rfl
  · exact ⟨y, (State.timeoutUnit_trk_other same u).trans entry, done, status⟩

end

/-! ### Every request that waits on the line -/

section
variable {s₀ : State} {line n : Nat}

theorem State.timeoutUnits_timedOut {s : State} {j : Nat} (h : (s.slice n).timedOut j) (t : Trk) :
    ((s₀.timeoutUnits line n s t).slice n).timedOut j :=
  List.foldlRecOn (motive := fun x : State => (x.slice n).timedOut j) _ _ h fun _ k u _ => State.timeoutUnit_timedOut k t.id u

theorem State.timeoutUnits_trk_other (s : State) {t : Trk} {j : Nat} (o : j ≠ t.id) :
    ((s₀.timeoutUnits line n s t).slice n).trk j = (s.slice n).trk j :=
  List.foldlRecOn (motive := fun x : State => (x.slice n).trk j = (s.slice n).trk j) _ _ rfl
    fun _ k u _ => (State.timeoutUnit_trk_other o u).trans k

end

section
variable (s : State) (n line : Nat)

theorem State.timeoutLine_slice_other {m : Nat} (o : m ≠ n) : (s.timeoutLine n line).slice m = s.slice m :=
  List.foldlRecOn (motive := fun x : State => x.slice m = s.slice m) _ (s.timeoutUnits line n) rfl fun _ k t _ =>
    List.foldlRecOn (motive := fun x : State => x.slice m = s.slice m) _ _ k
      fun _ k' u _ => (State.timeoutUnit_slice_other o t.id u).trans k'

theorem State.timeoutLine_head : (s.timeoutLine n line).obs.head = s.obs.head :=
  List.foldlRecOn (motive := fun x : State => x.obs.head = s.obs.head) _ (s.timeoutUnits line n) rfl fun _ k t _ =>
    List.foldlRecOn (motive := fun x : State => x.obs.head = s.obs.head) _ _ k
      fun _ k' u _ => (State.timeoutUnit_head t.id u).trans k'

/-- Before a request's turn its entry is as it was, in its turn it is answered TIMEOUT, and after it it stays so. -/
theorem State.timeoutLine_timedOut {t : Trk} {u : Nat} (entry : (s.slice n).trk t.id = some t) (stage : t.stage = .snooping)
    (todo : t.todo = [u]) (ok : t.status = .ok) (waits : s.lineNo (s.unitOff t.req u) = line) :
    ((s.timeoutLine n line).slice n).timedOut t.id := by
  obtain ⟨_, before, after, e, others⟩ := List.find?_eq_some_iff_append.1 entry
  have split : (s.slice n).tracker.filter (fun t => t.stage == .snooping) = before.filter (fun t => t.stage == .snooping) ++
      t :: after.filter (fun t => t.stage == .snooping) := by
    rw [e, List.filter_append, List.filter_cons_of_pos (by rw [stage]; rfl)]
  have apart (y : Trk) (m : y ∈ before.filter fun t => t.stage == .snooping) : t.id ≠ y.id := by
    have other := others y (List.mem_of_mem_filter m)
    rw [Bool.not_eq_true', beq_eq_false_iff_ne] at other
    exact other.symm
  have untouched : (((before.filter fun t => t.stage == .snooping).foldl (s.timeoutUnits line n) s).slice n).trk t.id =
      some t :=
    List.foldlRecOn (motive := fun x : State => (x.slice n).trk t.id = some t) _ _ entry
      fun x k y m => (State.timeoutUnits_trk_other x (apart y m)).trans k
  have own : (t.todo.filter fun u => s.lineNo (s.unitOff t.req u) == line) = [u] := by
    simp [todo, waits]
  rw [State.timeoutLine_eq, split, List.foldl_append, List.foldl_cons]
  refine List.foldlRecOn (motive := fun x : State => (x.slice n).timedOut t.id) _ _ ?_
    fun _ k y _ => State.timeoutUnits_timedOut k y
  rw [State.timeoutUnits, own]
  exact State.timeoutUnit_last untouched stage todo ok

end

/-! ### SNOOP_TIMEOUT -/

/-- The slice without a transaction: BUSY of its line clears unless another works on it. -/
def SliceSt.withoutTxn (y : SliceSt) (x : Txn) : SliceSt :=
  let z := { y with txns := y.txns.filter fun u => u.id != x.id }
  match y.dirOf x.line with
  | some k => z.updDir k fun e => { e with busy := z.txns.any fun u => u.line == x.line && u.holds }
  | none => z

theorem SliceSt.withoutTxn_parts (y : SliceSt) (x : Txn) :
    (y.withoutTxn x).tracker = y.tracker ∧ (y.withoutTxn x).frames = y.frames := by
  unfold SliceSt.withoutTxn
  dsimp only
  split
  · exact ⟨rfl, rfl⟩
  · exact ⟨rfl, rfl⟩

section
variable (s : State) (n : Nat) (x : Txn)

theorem State.dropTxn_slice (m : Nat) : (s.dropTxn n x).slice m = (s.updSlice n fun y => y.withoutTxn x).slice m := rfl

theorem State.dropTxn_slice_other {m : Nat} (o : m ≠ n) : (s.dropTxn n x).slice m = s.slice m := by
  rw [State.dropTxn_slice, State.slice_updSlice_other _ _ o]

theorem State.dropTxn_tracker : ((s.dropTxn n x).slice n).tracker = (s.slice n).tracker := by
  rw [State.dropTxn_slice, State.slice_updSlice, ((s.slice n).withoutTxn_parts x).1]

theorem Stores.dropTxn : Stores noLine s (s.dropTxn n x) := by
  have dropped : Stores noLine s (s.updSlice n fun y => y.withoutTxn x) :=
    Stores.updSlice s n _ fun y _ => by rw [(y.withoutTxn_parts x).2]
  exact dropped.trans ⟨rfl, rfl, rfl, fun _ _ => rfl, rfl, rfl, fun _ _ _ => rfl⟩

end

theorem Stores.lineNo {L : Nat → Nat → Prop} {s t : State} (h : Stores L s t) (off : Nat) : t.lineNo off = s.lineNo off := by
  unfold State.lineNo
  rw [h.sliceOf]

/-- The state in which a SNOOP has timed out: its event is raised and its transaction is over. -/
def State.snoopExpired (s : State) (p : Snoop) (x : Txn) : State :=
  (s.crier p.slice 0x11 p.stall (p.slice + p.line * 2 ^ 64) [(s.stall p.stall).host]).dropTxn p.slice x

section
variable {s : State} {p : Snoop} {x : Txn}

theorem State.snoopExpired_slice_other {m : Nat} (o : m ≠ p.slice) : (s.snoopExpired p x).slice m = s.slice m :=
  (State.dropTxn_slice_other _ _ _ o).trans (State.crier_at_slice m)

theorem State.snoopExpired_trk (id : Nat) : ((s.snoopExpired p x).slice p.slice).trk id = (s.slice p.slice).trk id := by
  unfold SliceSt.trk
  rw [State.snoopExpired, State.dropTxn_tracker, State.crier_at_slice]

theorem State.snoopExpired_lineNo (r : Req) (u : Nat) :
    (s.snoopExpired p x).lineNo ((s.snoopExpired p x).unitOff r u) = s.lineNo (s.unitOff r u) := by
  have kept : Stores noLine s (s.snoopExpired p x) := (Stores.crier s _ _ _ _ _).trans (Stores.dropTxn _ _ _)
  rw [kept.lineNo, kept.unitOff]

/-- The timeout of a request's SNOOP answers every request that waits on the line; then the slice's work goes on. -/
theorem execSnoopTimeout_request {tag id u : Nat} (found : s.snoops.find? (fun q => q.tag == tag) = some p)
    (answered : p.answered = false) (expired : p.expired = false)
    (txn : (s.slice p.slice).txns.find? (fun y => y.id == p.txn) = some x) (cause : x.cause = .request id u)
    (sent : s.neverSent (.snoop tag) = false) :
    exec (.snoopTimeout tag) s = .next (((s.snoopExpired p x).timeoutLine p.slice p.line).cohGo p.slice) := by
  have due := find?_and found (fun q => !q.answered && (!q.expired && !s.neverSent (.snoop tag)))
    (by simp [answered, expired, sent])
  change execSnoopTimeout tag s = _
  unfold execSnoopTimeout
  rw [due]
  dsimp only
  rw [txn]
  dsimp only
  rw [cause]
  rfl

theorem snoopTimeout_effect {tag id u : Nat} (found : s.snoops.find? (fun q => q.tag == tag) = some p)
    (answered : p.answered = false) (expired : p.expired = false)
    (txn : (s.slice p.slice).txns.find? (fun y => y.id == p.txn) = some x) (cause : x.cause = .request id u)
    (sent : s.neverSent (.snoop tag) = false) :
    ∃ t, exec (.snoopTimeout tag) s = .next t ∧ ∃ v : State, t = v.cohGo p.slice ∧ v.chans = s.chans ∧
      v.snoops = s.snoops.filter (fun q => !(q.slice == p.slice && q.txn == x.id)) ∧
      s.obs.head + 1 ≤ v.obs.head ∧
      (∀ e w, (s.slice p.slice).trk e.id = some e → e.stage = .snooping → e.todo = [w] → e.status = .ok →
        s.lineNo (s.unitOff e.req w) = p.line →
        ∃ y, (v.slice p.slice).trk e.id = some y ∧ y.stage = .done ∧ y.status = .timeout) ∧
      (∀ m, m ≠ p.slice → v.slice m = s.slice m) := by
  have expires : Keeps 1616642380 s (s.snoopExpired p x) := State.dropTxn_keeps rfl (State.crier_keeps rfl (Keeps.refl _ s))
  refine ⟨_, execSnoopTimeout_request found answered expired txn cause sent, _, rfl,
    (State.timeoutLine_keeps rfl expires).1 .chans rfl, ?_, ?_, fun e w entry stage todo ok waits => ?_, fun m o => ?_⟩
  · rw [(State.timeoutLine_keeps (M := 1616642124) rfl (Keeps.refl _ _)).1 .snoops rfl, State.snoopExpired, State.dropTxn,
      State.crier_at_snoops]
  · rw [State.timeoutLine_head]
    exact (State.crier_head _ _ _ _ _ _).ge
  · exact State.timeoutLine_timedOut _ p.slice p.line ((State.snoopExpired_trk _).trans entry) stage todo ok
      ((State.snoopExpired_lineNo _ _).trans waits)
  · exact (State.timeoutLine_slice_other _ _ _ o).trans (State.snoopExpired_slice_other o)

end

/-- Settles O29, a lemma for each command. -/
theorem snoopsAreAnsweredAndRetried : Obligations.SnoopsAreAnsweredAndRetried := by
  unfold Obligations.SnoopsAreAnsweredAndRetried
  exact ⟨fun _ _ _ found => snoopResponse_effect found,
    fun _ _ _ found retry answered expired => snoopRetry_effect found retry answered expired,
    fun _ _ _ held => cohHoldExpiry_effect held,
    fun _ _ _ _ _ _ found answered expired txn cause sent => snoopTimeout_effect found answered expired txn cause sent⟩

end Sys2Proof.Machine
end

section
/-! SUPPORT. ORPHAN_RELEASE (07 R150): when a release starts, and the lines that it leaves without an entry. -/

namespace Sys2Proof.Machine

/-! ### A release starts -/

theorem actOrphanRelease_running {s : State} {v : Nat} (runs : s.orphanRun.isSome = true) :
    actOrphanRelease v s = (s.setReg kOrphanReleaseResult 1, done 1) := if_pos runs

theorem actOrphanRelease_idle {s : State} {v : Nat} (idle : s.orphanRun = none) :
    actOrphanRelease v s = (({ s with orphanRun := some (s.reg kOrphanReleaseMatch, s.reg kOrphanReleaseValue) } :
      State).setReg kOrphanReleaseResult 2, done 2) :=
  if_neg (by rw [idle]; exact Bool.false_ne_true)

theorem orphanRelease_effect {s : State} {f : Frame} {v : Nat} (h : s.accepts f (askWrite kOrphanReleaseGo 1 v)) :
    ∃ t, exec (.orphanRelease f v) s = .next t ∧
      (s.orphanRun = none → t.orphanRun = some (s.reg kOrphanReleaseMatch, s.reg kOrphanReleaseValue) ∧
        t.reg kOrphanReleaseResult = 2) ∧
      (s.orphanRun.isSome = true → t.orphanRun = s.orphanRun ∧ t.reg kOrphanReleaseResult = 1) ∧
      s.frame t [.dict, .links, .stalls, .xbar, .repair, .sec, .mgmt, .obs, .orphanRun] := by
  refine ⟨_, rfl, fun idle => ?_, fun runs => ?_, (execOrphanRelease_keeps (M := 75038734) rfl (Keeps.refl _ s)).frame rfl rfl⟩
  · rw [State.write_accepts _ h, actOrphanRelease_idle (by rwa [State.logged_orphanRun])]
    simp
  · rw [State.write_accepts _ h, actOrphanRelease_running (by rwa [State.logged_orphanRun])]
    simp

/-! ### Entries that are freed -/

/-- From `s` to `t` every entry of a slice is as it was, or free. -/
def FreesOnly (n : Nat) (s t : State) : Prop := ∀ j, (t.slice n).dirAt j = (s.slice n).dirAt j ∨ (t.slice n).dirAt j = {}

theorem FreesOnly.refl (n : Nat) (s : State) : FreesOnly n s s := fun _ => .inl rfl

theorem FreesOnly.trans {n : Nat} {s t u : State} (h : FreesOnly n s t) (k : FreesOnly n t u) : FreesOnly n s u := by
  intro j
  rcases k j with same | free
  · rw [same]
    exact h j
  · exact .inr free

/-- An entry in use was in use before, with the same content. -/
theorem FreesOnly.used {n j : Nat} {s t : State} (h : FreesOnly n s t) (valid : ((t.slice n).dirAt j).valid = true) :
    (t.slice n).dirAt j = (s.slice n).dirAt j := by
  rcases h j with same | free
  · exact same
  · rw [free] at valid
    exact absurd valid Bool.false_ne_true

/-- A line without an entry gains none. -/
theorem FreesOnly.dirOf_none {n line : Nat} {s t : State} (h : FreesOnly n s t) (absent : (s.slice n).dirOf line = none) :
    (t.slice n).dirOf line = none := by
  refine List.find?_eq_none.2 fun k way used => List.find?_eq_none.1 absent k way ?_
  rw [Bool.and_eq_true] at used
  rw [← h.used used.1, used.1, used.2]
  rfl

theorem FreesOnly.freeLine (n m line : Nat) (s : State) : FreesOnly n s (s.freeLine m line) := by
  intro j
  cases found : (s.slice m).dirOf line with
  | none => exact .inl (by rw [State.freeLine, found])
  | some k =>
    rw [State.freeLine_slice found, State.freeDir, State.slice_updSlice_if]
    split
    · next q =>
      subst q
      by_cases way : j = k
      · exact .inr (by rw [way, SliceSt.updDir_dirAt])
      · exact .inl (SliceSt.updDir_dirAt_other _ _ way)
    · exact .inl rfl

/-- Freeing the one entry of a line leaves the line without any. -/
theorem State.freeLine_dirOf {s : State} {n line k : Nat}
    (sole : ∀ j, ((s.slice n).dirAt j).valid = true → ((s.slice n).dirAt j).line = line → j = k) :
    ((s.freeLine n line).slice n).dirOf line = none := by
  cases found : (s.slice n).dirOf line with
  | none => exact (FreesOnly.freeLine n n line s).dirOf_none found
  | some i =>
    obtain ⟨_, valid, line'⟩ := SliceSt.dirOf_some found
    obtain rfl : i = k := sole i valid line'
    refine List.find?_eq_none.2 fun j way used => ?_
    rw [Bool.and_eq_true, beq_iff_eq] at used
    have before := (FreesOnly.freeLine n n line s).used used.1
    obtain rfl : j = i := sole j (by rw [← before, used.1]) (by rw [← before, used.2])
    rw [State.freeLine_dirAt found] at used
    exact absurd used.1 Bool.false_ne_true

/-! ### A release ends -/

/-- One entry of those that a release matches is freed: its slice, and its line. -/
def State.releaseLine (s : State) (p : Nat × Nat) : State := (s.pipePush p.1 6 0 p.2).freeLine p.1 p.2

/-- The entries that a release matches, by slice and line. -/
def State.releaseHits (s : State) (kind value : Nat) : List (Nat × Nat) :=
  (upTo 8).flatMap fun n => ((s.slice n).dir.filter fun q => s.releases kind value n q.2).map fun q => (n, q.2.line)

/-- The state once they are freed, and the release is over. -/
def State.released (s : State) (kind value : Nat) : State :=
  (((s.releaseHits kind value).foldl State.releaseLine { s with orphanRun := none }).setReg kOrphanReleaseResult 0).ledger 0x0E 0
    Actor.board 0 (kind % 256 + value % 2 ^ 32 * 2 ^ 32 + (s.releaseHits kind value).length % 2 ^ 32 * 2 ^ 64)

theorem execOrphanReleaseDone_released {s : State} {kind value : Nat} (run : s.orphanRun = some (kind, value)) :
    exec .orphanReleaseDone s = .next (s.released kind value).cohGoAll := by
  change execOrphanReleaseDone s = _
  unfold execOrphanReleaseDone
  rw [run]
  rfl

section
variable {s : State} {n k line : Nat}

theorem FreesOnly.releaseLine (n : Nat) (s : State) (p : Nat × Nat) : FreesOnly n s (s.releaseLine p) :=
  FreesOnly.trans (fun j => .inl (((LinesKept.refl s).pipePush _ _ _ _).dirAt n j)) (FreesOnly.freeLine n _ _ _)

theorem FreesOnly.releaseAll (n : Nat) (l : List (Nat × Nat)) (s : State) : FreesOnly n s (l.foldl State.releaseLine s) :=
  List.foldlRecOn (motive := fun x : State => FreesOnly n s x) l _ (FreesOnly.refl n s)
    fun x h p _ => h.trans (FreesOnly.releaseLine n x p)

/-- A line with one entry has none once those of a list that names it are freed. -/
theorem State.releaseAll_dirOf {l : List (Nat × Nat)} (mem : (n, line) ∈ l)
    (sole : ∀ j, ((s.slice n).dirAt j).valid = true → ((s.slice n).dirAt j).line = line → j = k) :
    ((l.foldl State.releaseLine s).slice n).dirOf line = none := by
  obtain ⟨before, after, rfl⟩ := List.append_of_mem mem
  rw [List.foldl_append, List.foldl_cons]
  refine (FreesOnly.releaseAll n after _).dirOf_none (State.freeLine_dirOf (k := k) fun j valid line' => ?_)
  have earlier : FreesOnly n s ((before.foldl State.releaseLine s).pipePush n 6 0 line) :=
    (FreesOnly.releaseAll n before s).trans fun j => .inl (((LinesKept.refl _).pipePush _ _ _ _).dirAt n j)
  have same := earlier.used valid
  exact sole j (by rw [← same, valid]) (by rw [← same, line'])

/-- The entry of a line that a release matches is among those it frees. -/
theorem State.mem_releaseHits {kind value : Nat} (less : n < 8) (found : (s.slice n).dirOf line = some k)
    (hit : s.releases kind value n ((s.slice n).dirAt k) = true) : (n, line) ∈ s.releaseHits kind value := by
  obtain ⟨_, valid, rfl⟩ := SliceSt.dirOf_some found
  have listed : (k, (s.slice n).dirAt k) ∈ (s.slice n).dir :=
    Tbl.mem_of_get_ne fun free => by
      have unused : ((s.slice n).dirAt k).valid = false := congrArg DirEntry.valid free
      rw [unused] at valid
      exact Bool.false_ne_true valid
  exact List.mem_flatMap.2 ⟨n, List.mem_range.2 less, List.mem_map.2 ⟨_, List.mem_filter.2 ⟨listed, hit⟩, rfl⟩⟩

end

theorem orphanReleaseDone_effect {s : State} {kind value : Nat} (run : s.orphanRun = some (kind, value)) :
    ∃ t, exec .orphanReleaseDone s = .next t ∧ t.orphanRun = none ∧ t.reg kOrphanReleaseResult = 0 ∧
      ∃ v : State, t = v.cohGoAll ∧ v.chans = s.chans ∧
        ∀ n k line, n < 8 → (s.slice n).dirOf line = some k → s.releases kind value n ((s.slice n).dirAt k) = true →
          (∀ j, ((s.slice n).dirAt j).valid = true → ((s.slice n).dirAt j).line = line → j = k) →
          (v.slice n).dirOf line = none := by
  have freed : Keeps 22806598 { s with orphanRun := none }
      ((s.releaseHits kind value).foldl State.releaseLine { s with orphanRun := none }) :=
    Keeps.foldl (fun _ _ => State.freeLine_keeps rfl (State.pipePush_keeps rfl (Keeps.refl _ _))) _ (Keeps.refl _ _)
  have ended : Keeps 22806598 { s with orphanRun := none } (s.released kind value) :=
    State.ledger_keeps rfl (State.setReg_keeps rfl freed)
  refine ⟨_, execOrphanReleaseDone_released run, ?_, ?_, _, rfl, ended.1 .chans rfl, fun n k line less found hit sole => ?_⟩
  · exact ((State.cohGoAll_keeps (M := 3780969452) rfl (Keeps.refl _ _)).1 .orphanRun rfl).trans (ended.1 .orphanRun rfl)
  · rw [State.reg_of_keeps (State.cohGoAll_keeps rfl (Keeps.refl _ _)), State.released, State.ledger_at_reg, State.reg_setReg]
  · rw [State.released, State.ledger_at_slice, State.setReg_at_slice]
    exact State.releaseAll_dirOf (s := { s with orphanRun := none }) (State.mem_releaseHits less found hit) sole

/-- Settles O30, a lemma for each command. -/
theorem orphansAreReleased : Obligations.OrphansAreReleased := by
  unfold Obligations.OrphansAreReleased
  exact ⟨fun _ _ _ h => orphanRelease_effect h, fun _ _ _ run => orphanReleaseDone_effect run⟩

end Sys2Proof.Machine
end

section
/-! SUPPORT. A member's descriptors (08 R166 to R175, R179): the context a command finds, the ways a new row goes, and one page of
a row at work. -/

namespace Sys2Proof.Machine

/-! ### The commands of Table 8.4 -/

/-- A command that runs a descriptor is `State.descriptor` with its rows and its kernel. -/
theorem exec_descCmd {i : Instr} {k : DescCmd} (h : descCmdOf i = some k) (s : State) :
    exec i s = .next (s.descriptor k.barrow k.slice k.mine k.kernel) := by
  unfold descCmdOf at h
  split at h
  case h_16 => cases h
  all_goals
    cases h
    rfl

/-- What a command that runs a descriptor may change. -/
theorem exec_descCmd_keeps {i : Instr} {k : DescCmd} (h : descCmdOf i = some k) (s : State) :
    KeepsOut 2169308396 s (exec i s) := by
  have still := Keeps.refl 2169308396 s
  unfold descCmdOf at h
  split at h
  case h_1 => exact execDescFill_keeps rfl still
  case h_2 => exact execDescCopy_keeps rfl still
  case h_3 => exact execDescCompare_keeps rfl still
  case h_4 => exact execDescDigest_keeps rfl still
  case h_5 => exact execReduceArm_keeps rfl still
  case h_6 => exact execReduceAdd_keeps rfl still
  case h_7 => exact execReduceFinalise_keeps rfl still
  case h_8 => exact execReduceFinaliseNorm_keeps rfl still
  case h_9 => exact execReduceRelease_keeps rfl still
  case h_10 => exact execDescCast_keeps rfl still
  case h_11 => exact execScaleAdd_keeps rfl still
  case h_12 => exact execUpdateSgd_keeps rfl still
  case h_13 => exact execUpdateAdam_keeps rfl still
  case h_14 => exact execUpdateClippedSgd_keeps rfl still
  case h_15 => exact execUpdateClippedAdam_keeps rfl still
  case h_16 => cases h

theorem State.armLeave_done (s : State) (c : Ctx) : (s.armLeave c).2 = .done := by
  unfold State.armLeave
  split <;> rfl

theorem State.releaseWork_done (s : State) (c : Ctx) : (s.releaseWork c).2 = .done := by
  unfold State.releaseWork
  split <;> rfl

/-- Every operation but END and SYNC lets its member go on at its end (08 R168, R172). -/
theorem DescCmd.leave_done {i : Instr} {k : DescCmd} (h : descCmdOf i = some k) (s : State) (c : Ctx) :
    (k.kernel.leave s c).2 = .done := by
  unfold descCmdOf at h
  split at h
  case h_5 =>
    cases h
    exact s.armLeave_done c
  case h_9 =>
    cases h
    exact s.releaseWork_done c
  case h_16 => cases h
  all_goals
    cases h
    rfl

/-! ### The context -/

/-- A context names its slice, and its member is the one that stands in the launch. -/
theorem State.ctx_some {s : State} {b n : Nat} {c : Ctx} (h : s.ctx b n = some c) :
    c.slice = n ∧ s.member c.head n = some c.m := by
  unfold State.ctx at h
  dsimp only at h
  split at h
  · next r m run member =>
    split at h
    · cases h
    · cases h
      exact ⟨rfl, member⟩
  · cases h

/-- The context of a member that stands as it was found. -/
theorem State.again_of_ctx {s : State} {b n : Nat} {c : Ctx} (h : s.ctx b n = some c) : s.again c = c := by
  obtain ⟨rfl, member⟩ := State.ctx_some h
  rw [State.again, member]
  rfl

/-! ### A new row -/

section
variable {s : State} {c : Ctx} {mine : Desc → Bool} {k : Kernel}

/-- The condition of the context's row, in its member's flags and the launch's first parameter (08 Table 8.8). -/
def Ctx.holds (c : Ctx) : Bool := condHolds c.d.cond c.m.flags (c.run.launch.params.getD 0 0)

theorem State.startDesc_skipped (op : c.d.op ≠ 0) (cond : c.d.cond ≤ 7) (fails : c.holds = false)
    (hers : mine c.d = true ∨ c.d.malformed = true) :
    s.startDesc c mine k = (s.countRow c.head c.slice).goOn c.head c.slice c.d c.m.row c.d.alt := by
  unfold Ctx.holds at fails
  unfold State.startDesc
  dsimp only
  rw [fails, if_pos (by simp [op, cond]), if_pos (by simpa using hers)]

/-- The skip of 08 R174 does not apply. -/
theorem Ctx.not_skipped (h : 7 < c.d.cond ∨ c.holds = true) :
    ¬ (decide (c.d.op ≠ 0) && (decide (c.d.cond ≤ 7) &&
      !condHolds c.d.cond c.m.flags (c.run.launch.params.getD 0 0))) = true := by
  rcases h with large | holds
  · simp [Nat.not_le.2 large]
  · unfold Ctx.holds at holds
    rw [holds]
    simp

theorem State.startDesc_malformed (op : c.d.op ≠ 0) (goes : 7 < c.d.cond ∨ c.holds = true) (bad : c.d.malformed = true) :
    s.startDesc c mine k = (s.countRow c.head c.slice).stopMember c.head c.slice .accessDenied .malformed := by
  unfold State.startDesc
  dsimp only
  rw [if_neg (Ctx.not_skipped goes), if_pos (by simp [op, bad])]

/-- The state in which the start's checks of a row are made: it counts in its barrow and by its opcode (08 R175, 17 R347). -/
def State.counted (s : State) (c : Ctx) : State :=
  (s.countRow c.head c.slice).count .slice c.slice (descRow c.d.op)

/-- The state of a row that begins: its key slots are used, its operation has entered, and its pages are known. -/
def State.begun (s : State) (c : Ctx) (k : Kernel) (ops : List (Need × Nat × Nat)) : State :=
  let s2 := (s.countUses c ops).updMember c.head c.slice fun m => { m with work := some { grans := c.grans ops } }
  let s3 := k.enter s2 (s2.again c)
  let ps := k.pages s3 (s3.again c)
  s3.updMember c.head c.slice fun m => { m with work := m.work.map fun x => { x with pages := ps } }

theorem State.startDesc_runs (runs : c.runs) (hers : mine c.d = true) :
    s.startDesc c mine k =
      match (k.start (s.counted c) c).1 with
      | some (st, cause) => (s.counted c).stopMember c.head c.slice st cause
      | none => ((s.counted c).begun c k (k.start (s.counted c) c).2).runPage c k := by
  obtain ⟨formed, holds⟩ := runs
  unfold State.startDesc
  dsimp only
  rw [if_neg (Ctx.not_skipped (.inr holds)), if_neg (by simp [formed]), if_neg (by simp [hers])]
  rfl

/-! ### One page -/

/-- What one page leaves of its member: the pages after it, and whether a line without data was met. -/
def State.paged (s : State) (c : Ctx) (rest : List Nat) (bad : Bool) : State :=
  s.updMember c.head c.slice fun m => { m with work := m.work.map fun x => { x with pages := rest, bad := bad } }

theorem State.runPage_next {w : DescWork} {p : Nat} {rest : List Nat} (here : s.again c = c) (work : c.m.work = some w)
    (pages : w.pages = p :: rest) (ram : s.sramOk) :
    s.runPage c k =
      let r := k.page (s.pipePush c.slice 5 c.head 0) { c with page := p }
      let bad := w.bad || r.2 == .poisoned
      if r.2 = .full then r.1.stopMember c.head c.slice .retryBusy .snapFull
      else if rest.isEmpty then (r.1.paged c rest bad).endDesc ((r.1.paged c rest bad).again c) k bad
      else r.1.paged c rest bad := by
  unfold State.runPage
  simp only [here, work, pages, State.sramRead_ok ram]
  rfl

/-- The end of a descriptor whose operation lets its member go on. -/
theorem State.endDesc_done {bad : Bool} (done : ∀ (t : State) (c : Ctx), (k.leave t c).2 = .done) :
    s.endDesc c k bad =
      let z := k.leave (s.updMember c.head c.slice fun m => { m with work := none }) c
      if bad then z.1.stopMember c.head c.slice .poison .poisoned else z.1.goOn c.head c.slice c.d c.m.row c.d.next := by
  unfold State.endDesc
  dsimp only
  rw [if_neg (by rw [done]; decide)]

/-! ### The command -/

theorem State.descriptor_new {b n : Nat} (found : s.ctx b n = some c) (idle : c.m.work = none) (ram : s.sramOk) :
    s.descriptor b n mine k = s.startDesc c mine k := by
  unfold State.descriptor
  rw [found]
  simp [idle, State.sramRead_ok ram]

theorem State.descriptor_page {b n : Nat} {w : DescWork} (found : s.ctx b n = some c) (work : c.m.work = some w)
    (hers : mine c.d = true) : s.descriptor b n mine k = s.runPage c k := by
  unfold State.descriptor
  rw [found]
  simp [work, hers]

end

/-- Settles O34: a new row by its condition, its form and what its start finds, and a page by what its operation answers. -/
theorem descriptorsRunInTheirMember : Obligations.DescriptorsRunInTheirMember := by
  unfold Obligations.DescriptorsRunInTheirMember
  intro s i ⟨b, n, mine, kernel⟩ c cmd found ram
  have here := State.again_of_ctx found
  obtain rfl : c.slice = n := (State.ctx_some found).1
  refine ⟨_, exec_descCmd cmd s, fun idle hers runs => ?_, fun idle op cond fails hers => ?_, fun idle op goes bad => ?_,
    fun w p rest work hers pages => ?_, (exec_descCmd_keeps cmd s).frame (exec_descCmd cmd s) rfl⟩
  · rw [State.descriptor_new found idle ram, State.startDesc_runs runs hers]
    refine ⟨fun st cause finds => ?_, fun clear => ?_⟩
    · rw [State.counted, finds]
    · rw [State.counted, clear]
      rfl
  · rw [State.descriptor_new found idle ram]
    exact State.startDesc_skipped op cond fails hers
  · rw [State.descriptor_new found idle ram]
    exact State.startDesc_malformed op goes bad
  · rw [State.descriptor_page found work hers, State.runPage_next here work pages ram]
    refine ⟨fun full => if_pos full, fun room more => ?_, fun room last => ?_⟩
    · dsimp only
      rw [if_neg room, if_neg (by simpa using more)]
      rfl
    · dsimp only
      rw [if_neg room, if_pos (by simpa using last), State.endDesc_done (DescCmd.leave_done cmd)]
      exact ⟨fun bad => if_pos bad, fun good => if_neg (by rw [good]; exact Bool.false_ne_true)⟩

end Sys2Proof.Machine
end

section
/-! SUPPORT. The rows of BARROW_TABLE and of the program stores (08 R156 to R158, R163): what a window write of one row does, what the
check of a row goes by, and which barrows and rows change. -/

namespace Sys2Proof.Machine

/-! ### A window write of one row -/

section
variable {s : State} {f : Frame} {key bytes row v : Nat} {wr : Nat → Nat → State → State × Nat}

/-- The answer to a refused row (16 R336). -/
theorem writeRows_one_answer (refused : (wr row v s).2 ≠ 0) :
    (writeRows wr row [v] s).2.status = .accessDenied ∧ (writeRows wr row [v] s).2.rowOut = row := by
  unfold writeRows
  split
  · next q => exact absurd (by rw [q]) refused
  · exact ⟨rfl, rfl⟩

/-- A row that is refused, before the write is in the ledger and after it, leaves the logged state, and is named in the answer. -/
theorem State.writeWindow_refused (h : s.accepts f (askRows key bytes row [v])) (refused : (wr row v s).2 ≠ 0)
    (still : ∀ a, (wr row v (s.logged f (askRows key bytes row [v]) a)).2 ≠ 0) :
    ∃ a : Ans, s.writeWindow f key bytes row [v] wr =
      (s.logged f (askRows key bytes row [v]) a).answered f (askRows key bytes row [v]) a ∧
      a.status = .accessDenied ∧ a.rowOut = row := by
  refine ⟨(writeRows wr row [v] s).2, ?_, writeRows_one_answer refused⟩
  rw [State.writeWindow, State.mgmtFrame_accepts _ h, writeRows_one_refused (still _)]

/-- A row that stands is stored in the logged state. -/
theorem State.writeWindow_stored (h : s.accepts f (askRows key bytes row [v]))
    (stored : ∀ a, (wr row v (s.logged f (askRows key bytes row [v]) a)).2 = 0) :
    ∃ a, s.writeWindow f key bytes row [v] wr =
      (wr row v (s.logged f (askRows key bytes row [v]) a)).1.answered f (askRows key bytes row [v]) a := by
  refine ⟨(writeRows wr row [v] s).2, ?_⟩
  rw [State.writeWindow, State.mgmtFrame_accepts _ h, writeRows_one_stored (stored _)]

end

/-- The answer to a frame is the newest response that is kept for its sender (16 R330). -/
theorem State.answered_kept (s : State) (f : Frame) (q : Ask) (a : Ans) :
    ∃ m r, (s.answered f q a).mgmt.kept.get [] (frameKey f) = m :: r ∧ m.status = a.status ∧ m.rowOut = a.rowOut :=
  ⟨mgmtResp f q a, _, Tbl.get_upd_same _ [] (frameKey f) fun l => (mgmtResp f q a :: l).take 64, rfl, rfl⟩

/-! ### What a barrow's state goes by -/

section
variable {s t : State} (barrows : t.barrows = s.barrows) (slices : t.slices = s.slices)
include barrows slices

theorem State.runHead_congr (b : Nat) : t.runHead b = s.runHead b := by
  unfold State.runHead State.runsIn State.barrow
  rw [State.headOf_congr barrows slices, barrows]

theorem State.barrowState_congr (b : Nat) : t.barrowState b = s.barrowState b := by
  unfold State.barrowState State.barrow
  rw [State.headOf_congr barrows slices, State.runHead_congr barrows slices, barrows]

theorem State.rowInUse_congr (n row : Nat) : t.rowInUse n row = s.rowInUse n row := by
  unfold State.rowInUse State.barrow
  simp only [State.headOf_congr barrows slices, State.runHead_congr barrows slices,
    State.barrowState_congr barrows slices, barrows]

end

theorem State.servingSlices_congr {s t : State} (slices : t.slices = s.slices) : t.servingSlices = s.servingSlices := by
  unfold State.servingSlices State.slice
  rw [slices]

theorem State.rowTargets_congr {s t : State} (slices : t.slices = s.slices) (b : Nat) (gang : Bool) :
    t.rowTargets b gang = s.rowTargets b gang := by
  unfold State.rowTargets State.firstSlice
  rw [State.servingSlices_congr slices]

theorem State.mayAdvance_congr {s t : State} (time : t.time = s.time) (dict : t.dict = s.dict) (l : List Nat) :
    t.mayAdvance l = s.mayAdvance l := by
  unfold State.mayAdvance State.recent State.reg
  rw [time, dict]

theorem State.advanced_congr {s t : State} (time : t.time = s.time) (dict : t.dict = s.dict) (l : List Nat) :
    t.advanced l = s.advanced l := by
  unfold State.advanced State.recent State.reg
  rw [time, dict]

/-! ### Barrows changed one after the other -/

/-- Steps that each change the barrow they name by a function of it, and no other, change each of a list once, if the list has no
repeats or the function's second application changes nothing. -/
theorem foldl_barrow {g : State → Nat → State} {f : Nat → Barrow → Barrow}
    (h : ∀ a n j, (g a n).barrow j = if j = n then f n (a.barrow n) else a.barrow j) (j : Nat) :
    ∀ {l : List Nat} (_ : l.Nodup ∨ ∀ n x, f n (f n x) = f n x) (s : State),
      (l.foldl g s).barrow j = if j ∈ l then f j (s.barrow j) else s.barrow j
  | [], _, s => (if_neg List.not_mem_nil).symm
  | n :: l, once, s => by
    rw [List.foldl_cons, foldl_barrow h j (once.imp_left fun nodup => (List.nodup_cons.1 nodup).2), h]
    by_cases first : j = n
    · subst first
      rw [if_pos rfl, if_pos List.mem_cons_self]
      split
      · next again =>
        exact once.elim (fun nodup => absurd again (List.nodup_cons.1 nodup).1) fun idem => idem j _
      · rfl
    · rw [if_neg first]
      simp only [List.mem_cons, first, false_or]

/-! ### BARROW_TABLE (R156 to R158) -/

/-- A row reassigns a barrow that it is written to. -/
def State.rowMoves (s : State) (v j : Nat) : Bool := (s.barrow j).reassigned ((s.barrow j).withRow v)

/-- A row may stand: it is a head's, its program does not end before it begins, and its ring is no larger than may be. -/
def State.rowFits (s : State) (b v : Nat) : Prop :=
  s.headOf b = b ∧ ((s.barrow b).withRow v).base ≤ ((s.barrow b).withRow v).last ∧ ((s.barrow b).withRow v).cqOrder ≤ 12

/-- A barrow that the row reassigns may be: nothing is queued or running, and its epoch may advance (R158, 03 R64). -/
def State.mayMove (s : State) (j : Nat) : Prop :=
  s.barrowState j < 2 ∧ s.mayAdvance (s.barrow j).advances = true

/-- The state in which reassigned barrows have their new epochs, and no region of theirs is bound. -/
def State.movedOn (s : State) (l : List Nat) : State :=
  l.foldl (fun a t => (a.freeBound t).updBarrow t fun x => { x with
    epoch := x.epoch + 1, advances := s.advanced x.advances }) s

/-- The state in which a row is stored in its targets. -/
def State.rowStored (s : State) (b v : Nat) : State :=
  (s.rowTargets b (bitAt v 64)).foldl (fun a t => a.updBarrow t fun x => x.withRow v)
    (s.movedOn ((s.rowTargets b (bitAt v 64)).filter (s.rowMoves v)))

theorem State.writeBarrow_stored {s : State} {b v : Nat} (fits : s.rowFits b v)
    (may : ∀ j ∈ s.rowTargets b (bitAt v 64), s.rowMoves v j = true → s.mayMove j) :
    State.writeBarrow b v s = (s.rowStored b v, 0) := by
  obtain ⟨head, order, ring⟩ := fits
  unfold State.writeBarrow
  dsimp only
  rw [if_neg (by simpa using head), if_neg (by omega), if_neg, if_neg]
  · rfl
  · rw [List.any_eq_true]
    rintro ⟨j, mem, full⟩
    obtain ⟨target, moves⟩ := List.mem_filter.1 mem
    rw [(may j target moves).2] at full
    exact Bool.noConfusion full
  · rw [List.any_eq_true]
    rintro ⟨j, mem, busy⟩
    obtain ⟨target, moves⟩ := List.mem_filter.1 mem
    have idle := (may j target moves).1
    have := of_decide_eq_true busy
    omega

theorem State.writeBarrow_refused {s : State} {b v : Nat}
    (bad : ¬ s.rowFits b v ∨ ∃ j ∈ s.rowTargets b (bitAt v 64), s.rowMoves v j = true ∧ ¬ s.mayMove j) :
    (State.writeBarrow b v s).2 ≠ 0 := by
  unfold State.writeBarrow
  dsimp only
  split_ifs with head form busy held
  · exact Nat.succ_ne_zero 2
  · exact Nat.succ_ne_zero 1
  · exact Nat.succ_ne_zero 2
  · exact Nat.succ_ne_zero 2
  · rcases bad with unfit | ⟨j, target, moves, may⟩
    · exact absurd ⟨not_not.1 head, by omega, by omega⟩ unfit
    · have mem := List.mem_filter.2 ⟨target, moves⟩
      refine absurd ⟨?_, ?_⟩ may
      · by_contra full
        exact busy (List.any_eq_true.2 ⟨j, mem, decide_eq_true (by omega)⟩)
      · by_contra full
        exact held (List.any_eq_true.2 ⟨j, mem, by simpa using full⟩)

theorem State.freeBound_at_barrow (s : State) (b j : Nat) : (s.freeBound b).barrow j = s.barrow j :=
  congrArg (fun x => Tbl.get x ({} : Barrow) j)
    ((State.freeBound_keeps (M := 64) rfl (Keeps.refl _ s)).1 .barrows rfl)

theorem State.rowTargets_nodup (s : State) (b : Nat) (gang : Bool) : (s.rowTargets b gang).Nodup := by
  unfold State.rowTargets
  split
  · exact (List.nodup_range.filter _).map fun m n e => Nat.eq_of_mul_eq_mul_right (by decide) (Nat.add_right_cancel e)
  · exact List.nodup_singleton b

theorem State.movedOn_barrow (s : State) {l : List Nat} (nodup : l.Nodup) (j : Nat) : (s.movedOn l).barrow j =
    if j ∈ l then { s.barrow j with epoch := (s.barrow j).epoch + 1, advances := s.advanced (s.barrow j).advances }
    else s.barrow j :=
  foldl_barrow (f := fun _ x => { x with epoch := x.epoch + 1, advances := s.advanced x.advances }) (fun a n j => by
    rw [State.barrow_updBarrow_if, State.freeBound_at_barrow, State.freeBound_at_barrow]) j (.inl nodup) s

theorem State.rowStored_barrow (s : State) (b v j : Nat) : (s.rowStored b v).barrow j =
    if j ∈ s.rowTargets b (bitAt v 64) then
      if s.rowMoves v j then { (s.barrow j).withRow v with
        epoch := (s.barrow j).epoch + 1, advances := s.advanced (s.barrow j).advances }
      else (s.barrow j).withRow v
    else s.barrow j := by
  have nodup := s.rowTargets_nodup b (bitAt v 64)
  rw [State.rowStored, foldl_barrow (f := fun _ x => x.withRow v) (fun a n j => a.barrow_updBarrow_if j n _) j (.inl nodup),
    State.movedOn_barrow _ (nodup.filter _)]
  by_cases target : j ∈ s.rowTargets b (bitAt v 64)
  · simp only [List.mem_filter, target, true_and, if_true]
    split <;> rfl
  · simp only [List.mem_filter, target, false_and, if_false]

theorem State.rowFits_congr {s t : State} (barrows : t.barrows = s.barrows) (slices : t.slices = s.slices) (b v : Nat) :
    t.rowFits b v ↔ s.rowFits b v := by
  unfold State.rowFits State.barrow
  rw [State.headOf_congr barrows slices, barrows]

theorem State.mayMove_logged (s : State) (f : Frame) (q : Ask) (a : Ans) (j : Nat) :
    (s.logged f q a).mayMove j ↔ s.mayMove j := by
  unfold State.mayMove
  rw [State.barrowState_congr (s.logged_barrows f q a) (s.logged_slices f q a),
    State.mayAdvance_congr (s.logged_time f q a) (s.logged_dict f q a), State.logged_at_barrow]

theorem State.rowMoves_logged (s : State) (f : Frame) (q : Ask) (a : Ans) (v j : Nat) :
    (s.logged f q a).rowMoves v j = s.rowMoves v j := by
  unfold State.rowMoves
  rw [State.logged_at_barrow]

theorem State.rowTargets_logged (s : State) (f : Frame) (q : Ask) (a : Ans) (b : Nat) (gang : Bool) :
    (s.logged f q a).rowTargets b gang = s.rowTargets b gang := State.rowTargets_congr (s.logged_slices f q a) b gang

/-- A barrow that the row reassigns and that may not be is busy, or its epoch may not advance. -/
theorem State.not_mayMove {s : State} {j : Nat} :
    ¬ s.mayMove j ↔ 2 ≤ s.barrowState j ∨ s.mayAdvance (s.barrow j).advances = false := by
  rw [State.mayMove, not_and_or, Nat.not_lt, Bool.not_eq_true]

/-- A row that is refused changes no barrow. -/
theorem barrowTableWrite_refused {s : State} {f : Frame} {b v : Nat} (h : s.accepts f (askRows kBarrowTable 32 b [v]))
    (bad : ¬ s.rowFits b v ∨ ∃ j ∈ s.rowTargets b (bitAt v 64), s.rowMoves v j = true ∧ ¬ s.mayMove j) :
    ∃ t, exec (.barrowTableWrite f b [v]) s = .next t ∧ t.barrows = s.barrows ∧ t.slices = s.slices := by
  obtain ⟨a, e, _⟩ := State.writeWindow_refused (wr := fun r v s => State.writeBarrow r v s) h
    (State.writeBarrow_refused bad) fun a => State.writeBarrow_refused (by
      simpa only [State.rowFits_congr (s.logged_barrows f _ a) (s.logged_slices f _ a), State.rowTargets_logged,
        State.rowMoves_logged, State.mayMove_logged] using bad)
  refine ⟨_, rfl, ?_, ?_⟩
  · rw [e, State.answered_barrows, State.logged_barrows]
  · rw [e, State.answered_slices, State.logged_slices]

/-- A row that stands is written to its targets, and those it reassigns advance their epochs. -/
theorem barrowTableWrite_stored {s : State} {f : Frame} {b v : Nat} (h : s.accepts f (askRows kBarrowTable 32 b [v]))
    (fits : s.rowFits b v) (may : ∀ j ∈ s.rowTargets b (bitAt v 64), s.rowMoves v j = true → s.mayMove j) :
    ∃ t, exec (.barrowTableWrite f b [v]) s = .next t ∧ ∀ j, t.barrow j = if j ∈ s.rowTargets b (bitAt v 64) then
        if s.rowMoves v j then { (s.barrow j).withRow v with
          epoch := (s.barrow j).epoch + 1, advances := s.advanced (s.barrow j).advances }
        else (s.barrow j).withRow v
      else s.barrow j := by
  have stands (a : Ans) := State.writeBarrow_stored (s := s.logged f (askRows kBarrowTable 32 b [v]) a)
    ((State.rowFits_congr (s.logged_barrows f _ a) (s.logged_slices f _ a) b v).2 fits) (by
      simpa only [State.rowTargets_logged, State.rowMoves_logged, State.mayMove_logged] using may)
  obtain ⟨a, e⟩ := State.writeWindow_stored (wr := fun r v s => State.writeBarrow r v s) h fun a =>
    congrArg Prod.snd (stands a)
  refine ⟨_, rfl, fun j => ?_⟩
  rw [e, stands, State.answered_at_barrow, State.rowStored_barrow, State.rowTargets_logged, State.rowMoves_logged,
    State.advanced_congr (s.logged_time f _ a) (s.logged_dict f _ a), State.logged_at_barrow]

theorem barrowTableWrite_effect {s : State} {f : Frame} {b v : Nat} (h : s.accepts f (askRows kBarrowTable 32 b [v])) :
    let ts := s.rowTargets b (bitAt v 64)
    ∃ t, exec (.barrowTableWrite f b [v]) s = .next t ∧
      (¬ s.rowFits b v ∨ (∃ j ∈ ts, s.rowMoves v j = true ∧
          (2 ≤ s.barrowState j ∨ s.mayAdvance (s.barrow j).advances = false)) →
        t.barrows = s.barrows ∧ t.slices = s.slices) ∧
      (s.rowFits b v → (∀ j ∈ ts, s.rowMoves v j = true → s.mayMove j) →
        ∀ j ∈ ts, t.barrow j = if s.rowMoves v j then { (s.barrow j).withRow v with
          epoch := (s.barrow j).epoch + 1, advances := s.advanced (s.barrow j).advances } else (s.barrow j).withRow v) ∧
      (∀ j, j ∉ ts → t.barrow j = s.barrow j) ∧
      s.frame t [.links, .stalls, .slices, .barrows, .xbar, .repair, .sec, .mgmt, .obs] := by
  have frame := execBarrowTableWrite_keeps (M := 7930956) (a1 := f) (a2 := b) (a3 := [v]) rfl (Keeps.refl _ s)
  simp only [← State.not_mayMove]
  by_cases bad : ¬ s.rowFits b v ∨ ∃ j ∈ s.rowTargets b (bitAt v 64), s.rowMoves v j = true ∧ ¬ s.mayMove j
  · obtain ⟨t, e, barrows, slices⟩ := barrowTableWrite_refused h bad
    refine ⟨t, e, fun _ => ⟨barrows, slices⟩, fun fits may => ?_, fun j _ => ?_, (frame t e).frame rfl⟩
    · obtain unfit | ⟨j, target, moves, no⟩ := bad
      · exact absurd fits unfit
      · exact absurd (may j target moves) no
    · rw [State.barrow, barrows, State.barrow]
  · obtain ⟨fits, may⟩ := not_or.1 bad
    obtain ⟨t, e, barrow⟩ := barrowTableWrite_stored h (not_not.1 fits) fun j target moves => by
      by_contra no
      exact may ⟨j, target, moves, no⟩
    exact ⟨t, e, fun found => absurd found bad, fun _ _ j target => (barrow j).trans (if_pos target),
      fun j other => (barrow j).trans (if_neg other), (frame t e).frame rfl⟩

/-! ### The program stores (R163) -/

theorem State.writeProgram_refused {s : State} {n row v : Nat} (used : s.rowInUse n row = true) :
    (State.writeProgram n row v s).2 ≠ 0 := by
  unfold State.writeProgram
  rw [if_pos used]
  exact Nat.succ_ne_zero 2

theorem State.writeProgram_stored {s : State} {n row v : Nat} (free : s.rowInUse n row = false) :
    State.writeProgram n row v s = ((s.sramWrite 0x0B n row).updSlice n fun x => { x with
      program := x.program.set 0 row (BitVec.ofNat 512 v &&& descMask) }, 0) :=
  if_neg (by rw [free]; exact Bool.false_ne_true)

theorem State.sramWrite_at_slice (s : State) (unit place word n : Nat) : (s.sramWrite unit place word).slice n = s.slice n :=
  rfl

theorem State.rowInUse_logged (s : State) (f : Frame) (q : Ask) (a : Ans) (n row : Nat) :
    (s.logged f q a).rowInUse n row = s.rowInUse n row :=
  State.rowInUse_congr (s.logged_barrows f q a) (s.logged_slices f q a) n row

/-- A write to a row in use is answered ACCESS_DENIED at that row, and stores nothing. -/
theorem programStoreWrite_refused {s : State} {f : Frame} {n row v : Nat}
    (h : s.accepts f (askRows (0x701000 + n) 64 row [v])) (used : s.rowInUse n row = true) :
    ∃ t, exec (.programStoreWrite f n row [v]) s = .next t ∧ t.slices = s.slices ∧
      ∃ m r, t.mgmt.kept.get [] (frameKey f) = m :: r ∧ m.status = .accessDenied ∧ m.rowOut = row := by
  obtain ⟨a, e, status, rowOut⟩ := State.writeWindow_refused (wr := fun r v s => State.writeProgram n r v s) h
    (State.writeProgram_refused used) fun a => State.writeProgram_refused (by rw [State.rowInUse_logged, used])
  obtain ⟨m, r, kept, hasStatus, hasRow⟩ := (s.logged f (askRows (0x701000 + n) 64 row [v]) a).answered_kept f
    (askRows (0x701000 + n) 64 row [v]) a
  refine ⟨_, rfl, ?_, m, r, ?_, hasStatus.trans status, hasRow.trans rowOut⟩
  · rw [e, State.answered_slices, State.logged_slices]
  · rw [e, kept]

theorem programStoreWrite_effect {s : State} {f : Frame} {n row v : Nat}
    (h : s.accepts f (askRows (0x701000 + n) 64 row [v])) :
    ∃ t, exec (.programStoreWrite f n row [v]) s = .next t ∧
      (s.rowInUse n row = true → t.slices = s.slices) ∧
      (s.rowInUse n row = false → (t.slice n).program.get 0 row = BitVec.ofNat 512 v &&& descMask ∧
        (∀ j, j ≠ row → (t.slice n).program.get 0 j = (s.slice n).program.get 0 j) ∧ ∀ m, m ≠ n → t.slice m = s.slice m) ∧
      s.frame t [.links, .stalls, .slices, .xbar, .repair, .sec, .mgmt, .obs] := by
  refine ⟨_, rfl, fun used => ?_, fun free => ?_,
    (execProgramStoreWrite_keeps (M := 7929932) rfl (Keeps.refl _ s)).frame rfl rfl⟩
  · obtain ⟨t, e, kept, _⟩ := programStoreWrite_refused h used
    cases e
    exact kept
  · have stands (a : Ans) := State.writeProgram_stored (s := s.logged f (askRows (0x701000 + n) 64 row [v]) a) (n := n)
      (row := row) (v := v) (by rw [State.rowInUse_logged, free])
    obtain ⟨a, e⟩ := State.writeWindow_stored (wr := fun r v s => State.writeProgram n r v s) h fun a =>
      congrArg Prod.snd (stands a)
    rw [e, stands]
    refine ⟨?_, fun j other => ?_, fun m other => ?_⟩
    · rw [State.answered_at_slice, State.slice_updSlice, Tbl.get_set_same]
    · rw [State.answered_at_slice, State.slice_updSlice, Tbl.get_set_other _ _ _ other, State.sramWrite_at_slice,
        State.logged_at_slice]
    · rw [State.answered_at_slice, State.slice_updSlice_other _ _ other, State.sramWrite_at_slice, State.logged_at_slice]

/-- A row in the range of a barrow of the slice that is QUEUED or RUNNING is in use. -/
theorem State.rowInUse_of_range {s : State} {n row i : Nat} (index : i < 512) (busy : 2 ≤ s.barrowState (n * 512 + i))
    (base : (s.barrow (n * 512 + i)).base ≤ row) (last : row ≤ (s.barrow (n * 512 + i)).last) :
    s.rowInUse n row = true :=
  List.any_eq_true.2 ⟨i, List.mem_range.2 index, by simp [busy, base, last]⟩

theorem programStore_entry {n : Nat} (h : n < 8) : ∃ e, entryAt 0x7010 n = some e ∧ e.rows = 1024 ∧ e.bytes = 64 := by
  interval_cases n <;> exact ⟨_, rfl, rfl, rfl⟩

/-- Zero is opcode END. -/
theorem descOf_zero_op : (descOf 0).op = 0 := by decide +kernel

/-- Settles O31, a lemma for each window. -/
theorem barrowRowsAndPrograms : Obligations.BarrowRowsAndPrograms := by
  unfold Obligations.BarrowRowsAndPrograms
  exact ⟨fun _ _ _ _ h => barrowTableWrite_effect h, fun _ _ _ _ _ h => programStoreWrite_effect h⟩

/-- Settles O32: a row in a busy barrow's range is in use, and its write is refused. -/
theorem programStoreRefusesRowsInUse : Obligations.ProgramStoreRefusesRowsInUse := by
  unfold Obligations.ProgramStoreRefusesRowsInUse
  exact ⟨fun _ less => programStore_entry less, fun _ _ _ _ _ _ _ index h busy base last =>
    programStoreWrite_refused h (State.rowInUse_of_range index busy base last), fun _ _ => rfl, descOf_zero_op⟩

end Sys2Proof.Machine
end

section
/-! SUPPORT. Launches from their trigger to their completion (08 R161, R162, R175, R178, R179): one lemma for what each step of a
launch does to its barrows. -/

namespace Sys2Proof.Machine

/-! ### A trigger (R161) -/

/-- A trigger of an enabled barrow whose queue has room, the first of this step, queues a launch with the standing parameters. -/
theorem State.triggerLaunch_queues {s : State} {head : Nat} {kind : LaunchKind} (enabled : (s.barrow head).disabled = false)
    (fresh : (s.barrow head).lastTrigger ≠ some s.time.step) (room : (s.barrow head).queue.length < 16) :
    (s.triggerLaunch head kind).1 = (s.queueLaunch head kind (s.barrow head).owner (s.barrow head).standing).1.updBarrow head
      fun b => { b with lastTrigger := some s.time.step } := by
  obtain ⟨seq, _⟩ := State.queueLaunch_room kind (s.barrow head).owner (s.barrow head).standing room
  have queued : s.queueLaunch head kind (s.barrow head).owner (s.barrow head).standing = (_, some _) := Prod.ext rfl seq
  unfold State.triggerLaunch
  dsimp only
  rw [if_neg (by rw [enabled]; exact Bool.false_ne_true), if_neg fresh, queued]

/-- The state in which a head's trigger is taken: its regions' completion is used up. -/
def State.triggered (s : State) (h : Nat) : State := s.updBarrow h fun b => { b with regionDone := false }

theorem execTriggerLaunch_due {s : State} {b : Nat} (done : (s.barrow (s.headOf b)).regionDone = true)
    (trig : (s.barrow (s.headOf b)).trigRegion = true) : execTriggerLaunch b s =
      .next (((s.triggered (s.headOf b)).triggerLaunch (s.headOf b) .trigger).1) := by
  have still : ((s.triggered (s.headOf b)).barrow (s.headOf b)).trigRegion = true := by
    rw [State.triggered, State.barrow_updBarrow]
    exact trig
  unfold execTriggerLaunch
  dsimp only
  rw [if_pos done]
  exact congrArg Host.Outcome.next (if_pos still)

theorem triggerLaunch_effect {s : State} {b : Nat} (done : (s.barrow (s.headOf b)).regionDone = true)
    (trig : (s.barrow (s.headOf b)).trigRegion = true) (enabled : (s.barrow (s.headOf b)).disabled = false)
    (fresh : (s.barrow (s.headOf b)).lastTrigger ≠ some s.time.step) (room : (s.barrow (s.headOf b)).queue.length < 16) :
    let h := s.headOf b
    ∃ t, exec (.triggerLaunch b) s = .next t ∧ (∃ l, (t.barrow h).queue = (s.barrow h).queue ++ [l] ∧ l.kind = .trigger ∧
      l.params = (s.barrow h).standing ∧ l.host = (s.barrow h).owner ∧ l.seq = ((s.barrow h).launchSeq + 1) % 2 ^ 32) ∧
      (t.barrow h).lastTrigger = some s.time.step ∧ s.frame t [.barrows, .obs] := by
  intro h
  have taken : (s.triggered h).barrow h = { s.barrow h with regionDone := false } := State.barrow_updBarrow _ _ _
  have queues := State.triggerLaunch_queues (s := s.triggered h) (head := h) (kind := .trigger) (by rw [taken]; exact enabled)
    (by rw [taken]; exact fresh) (by rw [taken]; exact room)
  obtain ⟨_, queue⟩ := State.queueLaunch_room (s := s.triggered h) (head := h) .trigger ((s.triggered h).barrow h).owner
    ((s.triggered h).barrow h).standing (by rw [taken]; exact room)
  have e := execTriggerLaunch_due done trig
  rw [queues] at e
  refine ⟨_, e, ⟨(s.triggered h).newLaunch h .trigger ((s.triggered h).barrow h).owner ((s.triggered h).barrow h).standing,
    ?_, rfl, ?_, ?_, ?_⟩, ?_, (execTriggerLaunch_keeps (M := 4195328) rfl (Keeps.refl _ s)).frame e rfl⟩
  · rw [State.barrow_updBarrow]
    exact queue.trans (by rw [taken])
  · rw [State.newLaunch, taken]
  · rw [State.newLaunch, taken]
  · rw [State.newLaunch, taken]
  · rw [State.barrow_updBarrow]
    rfl

/-! ### A launch starts (R162) -/

/-- The state in which a launch starts: its ranges are registered, its places taken, its barrows' counts cleared, and for a scheduled
one its regions closed. -/
def State.launchReady (s : State) (head : Nat) (l : Launch) : State :=
  let slices := s.launchSlices head l
  let ranges := s.launchRanges head l
  let s1 := s.servingSlices.foldl (fun a n => a.updSlice n fun x => { x with snapRanges := x.snapRanges ++ ranges }) s
  let s2 := slices.foldl (fun a n => a.updSlice n fun x => { x with
    barrowPtr := (head % 512 + 1) % 512, keeps := x.keeps.filter (· ≠ head) }) s1
  let s3 := slices.foldl (fun a n =>
    (a.resetTally 3 (n * 512 + head % 512) 5).resetTally 3 (n * 512 + head % 512) 6) s2
  if l.kind = .schedule then
    ((s3.partsOf head).map fun p => p.2.2.base).eraseDups.foldl (fun a base => a.closeRegion head base) s3
  else s3

/-- The first row of a launch's programs that fails the rules of R174. -/
def State.launchBad (s : State) (head : Nat) (l : Launch) : Option Nat :=
  (s.launchSlices head l).findSome? fun n => ((s.launchReady head l).slice n).badRow l.base l.last

/-- The member that a launch starts with in a slice. -/
def State.newMember (s : State) (head : Nat) (l : Launch) (n : Nat) : Member :=
  let m : Member := { slice := n, row := l.base, flags := (s.launchReady head l).launchFlags head n }
  match s.launchBad head l with
  | some r => { m with ended := true, status := .accessDenied, cause := .malformed, row := r, lastRow := r }
  | none => m

/-- The launch as it runs once it has started. -/
def State.newRunning (s : State) (head : Nat) (l : Launch) (epoch : BitVec 8) : Running where
  launch := l
  epoch := epoch
  step := (s.launchReady head l).time.step
  phase := (s.launchReady head l).time.mphase
  seed := (s.launchReady head l).seeds.get 0 l.tenant
  contrib := (s.launchReady head l).contribOf head
  first := (s.launchBad head l).map fun r => (r, Cause.malformed)
  members := (s.launchSlices head l).map (s.newMember head l)

theorem State.launchCycle_eq (s : State) (head : Nat) (l : Launch) : s.launchCycle head l =
    (s.launchReady head l).updBarrow head fun b => { b with
      queue := b.queue.drop 1, running := some (s.newRunning head l b.epoch) } := rfl

theorem State.launchReady_keeps (s : State) (head : Nat) (l : Launch) : Keeps 4194368 s (s.launchReady head l) := by
  have ranged := Keeps.foldl (m := 4194368) (f := fun (a : State) n => a.updSlice n fun x => { x with
      snapRanges := x.snapRanges ++ s.launchRanges head l })
    (fun a n => State.updSlice_keeps rfl (Keeps.refl _ a)) s.servingSlices (Keeps.refl _ s)
  have placed := Keeps.foldl (f := fun (a : State) n => a.updSlice n fun x => { x with
      barrowPtr := (head % 512 + 1) % 512, keeps := x.keeps.filter (· ≠ head) })
    (fun a n => State.updSlice_keeps rfl (Keeps.refl _ a)) (s.launchSlices head l) ranged
  have cleared := Keeps.foldl (f := fun (a : State) n =>
      (a.resetTally 3 (n * 512 + head % 512) 5).resetTally 3 (n * 512 + head % 512) 6)
    (fun a n => State.resetTally_keeps rfl (State.resetTally_keeps rfl (Keeps.refl _ a))) (s.launchSlices head l) placed
  unfold State.launchReady
  dsimp only
  split
  · exact Keeps.foldl (fun a base => State.closeRegion_keeps rfl (Keeps.refl _ a)) _ cleared
  · exact cleared

theorem State.newMember_fresh (s : State) (head : Nat) (l : Launch) (n : Nat) :
    (s.newMember head l n).slice = n ∧ (s.newMember head l n).rows = 0 ∧
      ((s.newMember head l n).ended = false → (s.newMember head l n).row = l.base) := by
  unfold State.newMember
  dsimp only
  split
  · exact ⟨rfl, rfl, fun goes => Bool.noConfusion goes⟩
  · exact ⟨rfl, rfl, fun _ => rfl⟩

theorem execLaunchStart_starts {s : State} {b : Nat} {l : Launch} {q : List Launch} (queue : (s.barrow b).queue = l :: q)
    (starts : s.canStart b = true) : execLaunchStart b s = .next (s.launchCycle b l) := by
  unfold execLaunchStart
  rw [queue]
  exact congrArg Host.Outcome.next (if_pos starts)

theorem launchStart_effect {s : State} {b : Nat} {l : Launch} {q : List Launch} (queue : (s.barrow b).queue = l :: q)
    (starts : s.canStart b = true) :
    ∃ t, exec (.launchStart b) s = .next t ∧ (t.barrow b).queue = q ∧
      (∃ r, (t.barrow b).running = some r ∧ r.launch = l ∧ r.step = s.time.step ∧ r.phase = s.time.mphase ∧
        r.seed = s.seeds.get 0 l.tenant ∧ r.members.map (·.slice) = s.launchSlices b l ∧
        ∀ m ∈ r.members, m.rows = 0 ∧ (m.ended = false → m.row = l.base)) ∧
      s.frame t [.slices, .barrows, .obs] := by
  have e := execLaunchStart_starts queue starts
  have ready := s.launchReady_keeps b l
  have time := ready.1 .time rfl
  refine ⟨_, e, ?_, ⟨s.newRunning b l ((s.launchReady b l).barrow b).epoch, ?_, rfl, congrArg TimeSt.step time, congrArg TimeSt.mphase time,
    congrArg (Tbl.get · 0 l.tenant) (ready.1 .seeds rfl), ?_, fun m mem => ?_⟩,
    (execLaunchStart_keeps (M := 4195392) rfl (Keeps.refl _ s)).frame e rfl⟩
  · rw [State.launchCycle_eq, State.barrow_updBarrow, State.barrow, ready.1 .barrows rfl]
    exact congrArg (List.drop 1) queue
  · rw [State.launchCycle_eq, State.barrow_updBarrow]
  · rw [State.newRunning, List.map_map]
    exact (List.map_congr_left fun n _ => (s.newMember_fresh b l n).1).trans (List.map_id _)
  · obtain ⟨n, _, rfl⟩ := List.mem_map.1 mem
    exact (s.newMember_fresh b l n).2

/-! ### A gang waits (R162) -/

/-- One member's slice keeps its place for a gang, if it gives one. -/
def State.keepPlace (s : State) (head : Nat) (a : State) (n : Nat) : State :=
  if s.gets head n && !(s.slice n).keeps.contains head then
    a.updSlice n fun x => { x with keeps := x.keeps ++ [head], barrowPtr := (head % 512 + 1) % 512 }
  else a

theorem State.keepPlaces_eq (s : State) (head : Nat) (l : Launch) :
    s.keepPlaces head l = (s.launchSlices head l).foldl (s.keepPlace head) s := rfl

/-- A place that is kept stays kept. -/
theorem State.keepPlace_kept {s a : State} {head n : Nat} (kept : (a.slice n).keeps.contains head = true) (m : Nat) :
    ((s.keepPlace head a m).slice n).keeps.contains head = true := by
  unfold State.keepPlace
  split
  · rw [State.slice_updSlice_if]
    split
    · next same =>
      subst same
      exact List.contains_iff_mem.2 (List.mem_append_left _ (List.contains_iff_mem.1 kept))
    · exact kept
  · exact kept

/-- A slice that gives a place keeps it, also one that has kept it before. -/
theorem State.keepPlace_gives {s a : State} {head n : Nat} (gives : s.gets head n = true)
    (before : (s.slice n).keeps.contains head = true → (a.slice n).keeps.contains head = true) :
    ((s.keepPlace head a n).slice n).keeps.contains head = true := by
  cases kept : (s.slice n).keeps.contains head with
  | true => exact State.keepPlace_kept (before kept) n
  | false =>
    unfold State.keepPlace
    rw [gives, kept, if_pos (by rfl), State.slice_updSlice]
    exact List.contains_iff_mem.2 (List.mem_append_right _ (List.mem_singleton.2 rfl))

theorem State.keepPlaces_gives {s : State} {head n : Nat} {l : Launch} (member : n ∈ s.launchSlices head l)
    (gives : s.gets head n = true) : ((s.keepPlaces head l).slice n).keeps.contains head = true := by
  obtain ⟨first, rest, cut⟩ := List.append_of_mem member
  rw [State.keepPlaces_eq, cut, List.foldl_append, List.foldl_cons]
  let Kept (a : State) : Prop := (a.slice n).keeps.contains head = true
  refine List.foldlRecOn (motive := Kept) rest (s.keepPlace head) (State.keepPlace_gives gives fun kept => ?_) fun a kept m _ =>
    State.keepPlace_kept kept m
  exact List.foldlRecOn (motive := Kept) first (s.keepPlace head) kept fun a kept m _ => State.keepPlace_kept kept m

theorem execLaunchStart_waits {s : State} {b : Nat} {l : Launch} {q : List Launch} (queue : (s.barrow b).queue = l :: q)
    (waits : s.canStart b = false) (gang : l.gang = true) (may : s.mayRun b = true) :
    execLaunchStart b s = .next (s.keepPlaces b l) := by
  unfold execLaunchStart
  rw [queue]
  dsimp only
  rw [if_neg (by rw [waits]; exact Bool.false_ne_true), if_pos (by rw [gang, may]; rfl)]

theorem gangWait_effect {s : State} {b : Nat} {l : Launch} {q : List Launch} (queue : (s.barrow b).queue = l :: q)
    (waits : s.canStart b = false) (gang : l.gang = true) (may : s.mayRun b = true) :
    ∃ t, exec (.launchStart b) s = .next t ∧
      (∀ n ∈ s.launchSlices b l, s.gets b n = true → (t.slice n).keeps.contains b = true) ∧ s.frame t [.slices] :=
  ⟨_, execLaunchStart_waits queue waits gang may, fun _ member gives => State.keepPlaces_gives member gives,
    (State.keepPlaces_keeps (M := 64) rfl (Keeps.refl _ s)).frame rfl⟩

/-! ### A launch is over (R178) -/

/-- The barrows whose last launch done is a launch of a head: the head's own, and those of its members. -/
def State.doneBarrows (s : State) (head : Nat) (l : Launch) : List Nat :=
  head :: (s.launchSlices head l).map fun n => n * 512 + head % 512

/-- The state once a launch that is over counts as done in its barrows. -/
def State.markDone (s : State) (ms : List Nat) (l : Launch) (bad : Bool) : State :=
  ms.foldl (fun a m => ((a.updBarrow m fun b => { b with doneSeq := l.seq }).count .barrow m 1).count .barrow m 7 (b2n bad)) s

theorem State.markDone_barrow (s : State) (ms : List Nat) (l : Launch) (bad : Bool) (j : Nat) :
    (s.markDone ms l bad).barrow j = if j ∈ ms then { s.barrow j with doneSeq := l.seq } else s.barrow j :=
  foldl_barrow (f := fun _ b => { b with doneSeq := l.seq }) (fun a n j => by
    rw [State.count_at_barrow, State.count_at_barrow, State.barrow_updBarrow_if]) j (.inr fun _ _ => rfl) s

/-- A launch that is over changes the number of the last one done in its barrows, and nothing else of any barrow. -/
theorem State.finishLaunch_barrow (s : State) (head : Nat) (l : Launch) (c : Completion) (j : Nat) :
    (s.finishLaunch head l c).barrow j =
      if j ∈ s.doneBarrows head l then { s.barrow j with doneSeq := l.seq } else s.barrow j := by
  let w := s.ringWrite l.tenant l.owner l.cqBase l.cqOrder l.seq (c.record head l (s.stamp (head / 512)))
  let s1 := w.1.markDone (s.doneBarrows head l).eraseDups l (c.status != .ok)
  have told : ((s.finishLaunch head l c).barrow j) = s1.barrow j := by
    have keeps : Keeps 4722696 s1 (s.finishLaunch head l c) := by
      unfold State.finishLaunch
      dsimp only
      split_ifs
      · exact State.crier_keeps rfl (Keeps.refl _ s1)
      · exact Keeps.refl _ s1
      · exact State.wakeTrees_keeps rfl (State.crier_keeps rfl (Keeps.refl _ s1))
      · exact State.wakeTrees_keeps rfl (Keeps.refl _ s1)
    exact congrArg (Tbl.get · ({} : Barrow) j) (keeps.1 .barrows rfl)
  have written : w.1.barrow j = s.barrow j := congrArg (Tbl.get · ({} : Barrow) j)
    ((State.ringWrite_keeps (M := 2169241828) rfl (Keeps.refl _ s)).1 .barrows rfl)
  rw [told, State.markDone_barrow, written]
  simp only [List.mem_eraseDups]

/-- What a change of slices leaves alone in each is the same after the change of several. -/
theorem foldl_slice_field {α : Type} {g : SliceSt → α} {f : SliceSt → SliceSt} (same : ∀ x, g (f x) = g x) (j : Nat)
    (l : List Nat) (s : State) : g ((l.foldl (fun a n => a.updSlice n f) s).slice j) = g (s.slice j) := by
  induction l generalizing s with
  | nil => rfl
  | cons n l ih =>
    rw [List.foldl_cons, ih, State.slice_updSlice_if]
    split
    · next at_n => rw [same, at_n]
    · rfl

theorem State.freeSnaps_servingSlices (s : State) (head : Nat) : (s.freeSnaps head).servingSlices = s.servingSlices := by
  have same (n : Nat) : ((s.freeSnaps head).slice n).inService = (s.slice n).inService := by
    unfold State.freeSnaps
    rw [foldl_slice_field (g := SliceSt.inService)]
    exact fun _ => rfl
  unfold State.servingSlices
  simp only [same]

theorem State.freeSnaps_at_barrow (s : State) (head j : Nat) : (s.freeSnaps head).barrow j = s.barrow j :=
  congrArg (Tbl.get · ({} : Barrow) j) ((State.freeSnaps_keeps (M := 64) rfl (Keeps.refl _ s)).1 .barrows rfl)

/-- The state in which a head's launch has left its members. -/
def State.unloaded (s : State) (head : Nat) : State :=
  (s.freeSnaps head).updBarrow head fun b => { b with running := none }

theorem State.unloaded_doneBarrows (s : State) (head : Nat) (l : Launch) :
    (s.unloaded head).doneBarrows head l = s.doneBarrows head l := by
  unfold State.doneBarrows State.launchSlices State.unloaded
  rw [State.servingSlices_congr (State.updBarrow_slices _ _ _), State.freeSnaps_servingSlices]

theorem execLaunchComplete_over {s : State} {b : Nat} {r : Running} (runs : (s.barrow (s.runHead b)).running = some r)
    (ended : ∀ m ∈ r.members, m.ended = true ∧ s.halCovered m.hseq = true) : execLaunchComplete b s =
      .next ((s.unloaded (s.runHead b)).finishLaunch (s.runHead b) r.launch r.completion) := by
  have all : (r.members.all fun m => m.ended && s.halCovered m.hseq) = true := List.all_eq_true.2 fun m mem => by
    rw [(ended m mem).1, (ended m mem).2]
    rfl
  unfold execLaunchComplete
  dsimp only
  rw [runs]
  dsimp only
  rw [all, if_pos rfl]
  rfl

theorem launchComplete_effect {s : State} {b : Nat} {r : Running} (runs : (s.barrow (s.runHead b)).running = some r)
    (ended : ∀ m ∈ r.members, m.ended = true ∧ s.halCovered m.hseq = true) :
    let h := s.runHead b
    ∃ t, exec (.launchComplete b) s = .next t ∧ (t.barrow h).running = none ∧ (t.barrow h).doneSeq = r.launch.seq ∧
      (∀ n ∈ s.launchSlices h r.launch, (t.barrow (n * 512 + h % 512)).doneSeq = r.launch.seq) ∧
      s.frame t [.links, .stalls, .pitch, .slices, .chans, .barrows, .trees, .pair, .repair, .repairFace, .obs, .clock] := by
  intro h
  have e := execLaunchComplete_over runs ended
  have done (j : Nat) (mem : j ∈ s.doneBarrows h r.launch) :
      ((s.unloaded h).finishLaunch h r.launch r.completion).barrow j =
        { (s.unloaded h).barrow j with doneSeq := r.launch.seq } := by
    rw [State.finishLaunch_barrow, State.unloaded_doneBarrows, if_pos mem]
  refine ⟨_, e, ?_, ?_, fun n mem => ?_, (execLaunchComplete_keeps (M := 2169246956) rfl (Keeps.refl _ s)).frame e rfl⟩
  · rw [done h List.mem_cons_self, State.unloaded, State.barrow_updBarrow]
  · rw [done h List.mem_cons_self]
  · rw [done _ (List.mem_cons_of_mem _ (List.mem_map_of_mem mem))]

/-! ### The budget (R175) -/

/-- A member that has used up its budget, with a row still to run, ends at that row. -/
theorem Member.stop_overBudget (m : Member) (budget : Nat) :
    (if decide (budget ≤ m.rows) && (m.atSync.isNone && m.work.isNone) then m.stop .timeout .budget else m) =
      if budget ≤ m.rows ∧ m.atSync = none ∧ m.work = none ∧ m.ended = false then
        { m with ended := true, status := .timeout, cause := .budget, lastRow := m.row } else m := by
  by_cases spent : budget ≤ m.rows ∧ m.atSync = none ∧ m.work = none
  · obtain ⟨rows, sync, work⟩ := spent
    rw [if_pos (by simp [rows, sync, work])]
    cases ended : m.ended with
    | true => rw [if_neg fun ⟨_, _, _, goes⟩ => Bool.noConfusion goes, Member.stop, if_pos ended]
    | false =>
      rw [if_pos ⟨rows, sync, work, rfl⟩, Member.stop, if_neg (by rw [ended]; exact Bool.false_ne_true), sync, work]
  · rw [if_neg (by simpa using spent), if_neg fun ⟨rows, sync, work, _⟩ => spent ⟨rows, sync, work⟩]

theorem descBudgetExceeded_effect {s : State} {b : Nat} {r : Running} (runs : (s.barrow (s.runHead b)).running = some r) :
    let h := s.runHead b
    ∃ t, exec (.descBudgetExceeded b) s = .next t ∧ (∃ r', (t.barrow h).running = some r' ∧
      r'.members = r.members.map fun m =>
        if r.launch.budget ≤ m.rows ∧ m.atSync = none ∧ m.work = none ∧ m.ended = false then
          { m with ended := true, status := .timeout, cause := .budget, lastRow := m.row } else m) ∧
      (∀ j, j ≠ h → t.barrow j = s.barrow j) ∧ s.frame t [.barrows] := by
  intro h
  refine ⟨_, rfl, ⟨r.stopWhere (fun m => decide (r.launch.budget ≤ m.rows) && (m.atSync.isNone && m.work.isNone)) .timeout .budget,
    ?_, List.map_congr_left fun m _ => Member.stop_overBudget m r.launch.budget⟩,
    fun j other => State.barrow_updBarrow_other _ _ other,
    (execDescBudgetExceeded_keeps (M := 1024) rfl (Keeps.refl _ s)).frame rfl rfl⟩
  rw [State.barrow_updBarrow, runs]
  rfl

/-! ### An abort (R179) -/

/-- A barrow without a queued launch, whose members have all ended. -/
def State.halted (s : State) (h : Nat) : Prop :=
  (s.barrow h).queue = [] ∧ ∀ r, (s.barrow h).running = some r → ∀ m ∈ r.members, m.ended = true

theorem State.finishLaunch_launches (s : State) (head : Nat) (l : Launch) (c : Completion) (j : Nat) :
    ((s.finishLaunch head l c).barrow j).queue = (s.barrow j).queue ∧
      ((s.finishLaunch head l c).barrow j).running = (s.barrow j).running := by
  rw [State.finishLaunch_barrow]
  split
  · exact ⟨rfl, rfl⟩
  · exact ⟨rfl, rfl⟩

/-- The end of a head's queued launches empties its queue alone, and leaves what runs. -/
theorem State.endQueued_launches (s : State) (head j : Nat) :
    ((s.endQueued head).barrow j).queue = (if j = head then [] else (s.barrow j).queue) ∧
      ((s.endQueued head).barrow j).running = (s.barrow j).running := by
  let s1 := (upTo 8).foldl (fun (a : State) n => a.updSlice n fun x => { x with keeps := x.keeps.filter (· ≠ head) }) s
  have same : s1.barrow j = s.barrow j := congrArg (Tbl.get · ({} : Barrow) j)
    ((Keeps.foldl (m := 64) (fun a n => State.updSlice_keeps rfl (Keeps.refl _ a)) (upTo 8) (Keeps.refl _ s)).1 .barrows rfl)
  refine List.foldlRecOn (motive := fun (a : State) => (a.barrow j).queue = (if j = head then [] else (s.barrow j).queue) ∧
    (a.barrow j).running = (s.barrow j).running) (s.barrow head).queue _ ?_ fun a held l _ => ?_
  · show ((s1.updBarrow head fun b => { b with queue := [] }).barrow j).queue = _ ∧
      ((s1.updBarrow head fun b => { b with queue := [] }).barrow j).running = _
    rw [State.barrow_updBarrow_if]
    split
    · next q =>
      subst q
      exact ⟨rfl, (congrArg Barrow.running same : (s1.barrow j).running = _)⟩
    · exact ⟨congrArg Barrow.queue same, congrArg Barrow.running same⟩
  · obtain ⟨queue, running⟩ := a.finishLaunch_launches head l
      { unstarted with epoch := (a.barrow head).epoch.toNat } j
    exact ⟨queue.trans held.1, running.trans held.2⟩

theorem Member.stop_ended (m : Member) (st : Status) (c : Cause) : (m.stop st c).ended = true := by
  unfold Member.stop
  split
  · next ended => exact ended
  · rfl

theorem Barrow.stopAll_ended {b : Barrow} {st : Status} {c : Cause} {r : Running} (runs : (b.stopAll st c).running = some r) :
    ∀ m ∈ r.members, m.ended = true := by
  obtain ⟨old, _, rfl⟩ := Option.map_eq_some_iff.1 runs
  intro m mem
  obtain ⟨m', _, rfl⟩ := List.mem_map.1 mem
  exact m'.stop_ended st c

theorem State.abortBarrow_halted (s : State) (h : Nat) : (s.abortBarrow h).halted h := by
  unfold State.abortBarrow State.halted
  rw [State.barrow_updBarrow]
  exact ⟨(s.endQueued_launches h h).1.trans (if_pos rfl), fun _ runs => Barrow.stopAll_ended runs⟩

/-- An abort leaves a barrow halted that is. -/
theorem State.halted.abortBarrow {s : State} {j : Nat} (halted : s.halted j) (h : Nat) : (s.abortBarrow h).halted j := by
  by_cases own : j = h
  · subst own
    exact s.abortBarrow_halted j
  · obtain ⟨queue, running⟩ := s.endQueued_launches h j
    unfold State.abortBarrow State.halted
    rw [State.barrow_updBarrow_other _ _ own, queue, running, if_neg own]
    exact halted

theorem State.abortAll_halted {s : State} {b h : Nat} (mem : h ∈ [b, s.headOf b, s.runHead b]) : (s.abortAll b).halted h := by
  obtain ⟨first, rest, cut⟩ := List.append_of_mem (List.mem_eraseDups.2 mem)
  unfold State.abortAll
  dsimp only
  rw [cut, List.foldl_append, List.foldl_cons]
  exact List.foldlRecOn (motive := fun (a : State) => a.halted h) rest _ (State.abortBarrow_halted _ h) fun _ halted g _ =>
    halted.abortBarrow g

theorem barrowAbort_effect {s : State} {f : Frame} {v : Nat} (less : v < 4096) (h : s.accepts f (askWrite kBarrowAbort 2 v)) :
    ∃ t, exec (.barrowAbort f v) s = .next t ∧
      (∀ h ∈ [v, s.headOf v, s.runHead v], (t.barrow h).queue = [] ∧
        ∀ r, (t.barrow h).running = some r → ∀ m ∈ r.members, m.ended = true) ∧
      s.frame t [.links, .stalls, .pitch, .slices, .chans, .barrows, .trees, .xbar, .pair, .repair, .repairFace, .sec,
        .mgmt,
        .obs, .clock] := by
  refine ⟨_, rfl, fun j mem => ?_, (execBarrowAbort_keeps (M := 2172458220) rfl (Keeps.refl _ s)).frame rfl rfl⟩
  have act (u : State) : actBarrowAbort v u = (u.abortAll v, {}) := if_neg (Nat.not_le.2 less)
  rw [State.write_accepts _ h, act, act, State.answered_at_barrow]
  refine State.abortAll_halted ?_
  rwa [State.headOf_congr (s.logged_barrows _ _ _) (s.logged_slices _ _ _),
    State.runHead_congr (s.logged_barrows _ _ _) (s.logged_slices _ _ _)]

/-- Settles O33, a lemma for each command, and two for the start of a launch. -/
theorem launchesRunTheirCourse : Obligations.LaunchesRunTheirCourse := by
  unfold Obligations.LaunchesRunTheirCourse
  exact ⟨fun _ _ done trig enabled fresh room => triggerLaunch_effect done trig enabled fresh room,
    fun _ _ _ _ queue starts => launchStart_effect queue starts,
    fun _ _ _ _ queue waits gang may => gangWait_effect queue waits gang may,
    fun _ _ _ runs ended => launchComplete_effect runs ended, fun _ _ _ runs => descBudgetExceeded_effect runs,
    fun _ _ _ less h => barrowAbort_effect less h⟩

end Sys2Proof.Machine
end

section
/-! SUPPORT. Steps without a command (10 R209, 19 R376): a tick counts 1 ns while the board is powered, and what follows the count in
the same tick leaves time alone. -/

namespace Sys2Proof.Machine

/-! ### What follows the count in a tick -/

/-- The granules that a tick's core-clock cycles write (04 R83). -/
theorem State.grantNexts_time (s : State) (edges : List Nat) :
    (edges.foldl (fun a _ => a.grantNext) s).time = s.time :=
  (Keeps.foldl (fun a _ => State.grantNext_keeps rfl (Keeps.refl 4980772 a)) edges (Keeps.refl _ s)).1 .time rfl

/-- The lanes that begin to park, return or join (18 R372, 02 R46). -/
theorem State.laneChanges_time (s : State) (links : List Nat) :
    (links.foldl (fun a n => (a.parkNext n).joinNext n) s).time = s.time :=
  (Keeps.foldl (fun a _ => State.joinNext_keeps rfl (State.parkNext_keeps rfl (Keeps.refl 268435460 a))) links
    (Keeps.refl _ s)).1 .time rfl

/-! ### The tick -/

theorem State.tick_unpowered {s : State} (off : s.power.inputOn = false) : s.tick = s := by
  unfold State.tick
  exact if_neg (by rw [off]; exact Bool.false_ne_true)

/-- While the board is powered, a tick leaves the clock counted once, its rate correction included (R209). -/
theorem State.tick_time {s : State} (on : s.power.inputOn = true) : s.tick.time = s.time.tick := by
  unfold State.tick
  rw [if_pos on]
  dsimp only
  rw [State.laneChanges_time, State.grantNexts_time]

theorem State.tick_frame (s : State) :
    s.frame s.tick [.links, .linkFace, .stalls, .stallFace, .pitch, .slices, .time, .xbar, .pair, .repair, .obs] :=
  (State.tick_keeps (M := 810369132) rfl (Keeps.refl _ s)).frame rfl

theorem step_idle {s : State} (idle : s.pending = []) : step s = .next s.tick := by
  unfold step
  rw [idle]

/-- Settles O2: the step by its empty queue, the count by whether the board is powered, and the frame of every tick. -/
theorem idleStepsAreTicks : Obligations.IdleStepsAreTicks := by
  unfold Obligations.IdleStepsAreTicks
  exact fun s idle => ⟨step_idle idle, State.tick_unpowered, fun on => congrArg TimeSt.ticks (State.tick_time on), s.tick_frame⟩

end Sys2Proof.Machine
end

section
/-! SUPPORT. AO_TIME and its PTP master (10 R211 to R213): which messages are of the selected master, what a measurement does to the
servo, and which of two masters an Announce leaves selected. -/

namespace Sys2Proof.Machine

/-! ### Messages of the selected master -/

/-- The board whose exchange with its master is over. -/
def State.exchanged (s : State) : State := { s with time := { s.time with delayReq := none, t1t2 := none } }

section
variable {s : State} {m : PtpMsg}

theorem State.ptpTaken_iff : s.ptpTaken m = true ↔ s.reg kTimeSource = 0 ∧ m.domain = s.reg kTimeDomain := by
  unfold State.ptpTaken
  rw [Bool.and_eq_true, beq_iff_eq, beq_iff_eq]

/-- A master of a message's number is selected. -/
theorem masterIs_iff {cur : Option (Nat × PtpDataset)} {id : Nat} :
    (cur.any fun x => x.1 == id) = true ↔ ∃ pr, cur = some (id, pr) := by
  cases cur with
  | none => simp
  | some x =>
    obtain ⟨other, d⟩ := x
    simp

theorem State.ptpMaster_iff : s.ptpMaster m = true ↔
    s.reg kTimeSource = 0 ∧ m.domain = s.reg kTimeDomain ∧ ∃ pr, s.time.master = some (m.master, pr) := by
  unfold State.ptpMaster
  rw [Bool.and_eq_true, State.ptpTaken_iff, masterIs_iff, and_assoc]

/-- A message that is not the selected master's changes nothing (R211). -/
theorem ptp_ignored (other : s.ptpMaster m ≠ true) :
    exec (.ptpSync m) s = .next s ∧ exec (.ptpFollowUp m) s = .next s ∧ exec (.ptpDelayResp m) s = .next s :=
  ⟨congrArg Host.Outcome.next (if_neg other), congrArg Host.Outcome.next (if_neg other),
    congrArg Host.Outcome.next (if_neg other)⟩

/-! ### The stamps T1 to T3 (R211) -/

variable (takes : s.ptpMaster m = true)
include takes

theorem ptpSync_effect :
    ∃ t, exec (.ptpSync m) s = .next t ∧ s.frame t [.time] ∧ t.time.ao = s.time.ao ∧
      (m.twoStep = true → t.time.sync = some (m.seq, m.arrival, m.correction) ∧ t.time.delayReq = s.time.delayReq) ∧
      (m.twoStep = false → t.time.t1t2 = some (m.origin, m.arrival, m.correction) ∧
        t.time.delayReq = some ((s.time.delaySeq + 1) % 65536, s.time.ao)) := by
  have frame := execPtpSync_keeps (M := 16384) (a1 := m) rfl (Keeps.refl _ s)
  cases two : m.twoStep with
  | true =>
    have run : exec (.ptpSync m) s =
        .next { s with time := { s.time with sync := some (m.seq, m.arrival, m.correction) } } :=
      congrArg Host.Outcome.next ((if_pos takes).trans (if_pos two))
    exact ⟨_, run, frame.frame run rfl, rfl, fun _ => ⟨rfl, rfl⟩, fun one => Bool.noConfusion one⟩
  | false =>
    have run : exec (.ptpSync m) s = .next (s.ptpGotT1 m.origin m.arrival m.correction) :=
      congrArg Host.Outcome.next ((if_pos takes).trans (if_neg (by rw [two]; exact Bool.false_ne_true)))
    exact ⟨_, run, frame.frame run rfl, rfl, fun two => Bool.noConfusion two, fun _ => ⟨rfl, rfl⟩⟩

theorem ptpFollowUp_effect {t2 : Nat} {corr : Int} (sync : s.time.sync = some (m.seq, t2, corr)) :
    ∃ t, exec (.ptpFollowUp m) s = .next t ∧ s.frame t [.time] ∧ t.time.ao = s.time.ao ∧
      t.time.t1t2 = some (m.origin, t2, corr + m.correction) ∧
      t.time.delayReq = some ((s.time.delaySeq + 1) % 65536, s.time.ao) := by
  have run : exec (.ptpFollowUp m) s = .next (s.ptpGotT1 m.origin t2 (corr + m.correction)) := by
    refine congrArg Host.Outcome.next ((if_pos takes).trans ?_)
    rw [sync]
    exact if_pos rfl
  exact ⟨_, run, (execPtpFollowUp_keeps (M := 16384) rfl (Keeps.refl _ s)).frame run rfl, rfl, rfl, rfl⟩

/-- The Delay_Resp of the Delay_Req that is out completes a measurement from its four stamps. -/
theorem execPtpDelayResp_completes {t1 t2 t3 : Nat} {c1 : Int} (stamps : s.time.t1t2 = some (t1, t2, c1))
    (out : s.time.delayReq = some (m.seq, t3)) :
    exec (.ptpDelayResp m) s = .next (s.exchanged.measure (ptpOffset t1 t2 c1 t3 m.origin m.correction)) := by
  refine congrArg Host.Outcome.next ((if_pos takes).trans ?_)
  rw [stamps, out]
  exact if_pos rfl

end

/-! ### A measurement (R212, R213) -/

/-- A measurement within 8 ns. -/
def goodOffset (offset : Int) : Bool := decide (-8000 ≤ offset ∧ offset ≤ 8000)

theorem goodOffset_false_iff {offset : Int} : goodOffset offset = false ↔ offset < -8000 ∨ 8000 < offset := by
  unfold goodOffset
  rw [decide_eq_false_iff_not]
  omega

theorem goodOffset_true_iff {offset : Int} : goodOffset offset = true ↔ -8000 ≤ offset ∧ offset ≤ 8000 :=
  decide_eq_true_iff

/-- A measurement steps AO_TIME: in FREE or ACQUIRING, beyond 1 µs. -/
def TimeSt.steps (t : TimeSt) (offset : Int) : Prop :=
  (t.phase = .free ∨ t.phase = .acquiring) ∧ (offset < -1000000 ∨ 1000000 < offset)

/-- The clock with its measurement's offset and TIME_STATE, before its count or its rate moves. -/
def TimeSt.measured (t : TimeSt) (offset : Int) : TimeSt :=
  let p := servoPhase t (goodOffset offset)
  { t with lastOffset := offset, phase := p.1, goodRun := p.2.1, badRun := p.2.2 }

theorem TimeSt.steps_iff (t : TimeSt) (offset : Int) :
    ((t.phase == .free || t.phase == .acquiring) && decide (offset < -1000000 ∨ 1000000 < offset)) = true ↔
      t.steps offset := by
  rw [Bool.and_eq_true, Bool.or_eq_true, beq_iff_eq, beq_iff_eq, decide_eq_true_iff]
  exact Iff.rfl

section
variable {s : State} {offset : Int}

theorem State.measure_steps (steps : s.time.steps offset) : (s.measure offset).time =
    { s.time.measured offset with ao := (s.time.ao + offset.tdiv 1000).toNat } := by
  unfold State.measure
  simp only [(s.time.steps_iff offset).2 steps, if_true, State.crier_at_time]
  rfl

theorem State.measure_follows (steps : ¬ s.time.steps offset) : (s.measure offset).time =
    { s.time.measured offset with rate := servoRate offset s.time.rate } := by
  have still := Bool.eq_false_iff.2 fun moves => steps ((s.time.steps_iff offset).1 moves)
  unfold State.measure
  simp only [still, Bool.false_eq_true, if_false]
  rfl

/-- Whether it steps AO_TIME or moves the rate, a measurement leaves its offset and TIME_STATE, and the Delay_Req as it was. -/
theorem State.measure_parts : (s.measure offset).time.lastOffset = offset ∧
    (s.measure offset).time.delayReq = s.time.delayReq ∧
    (s.measure offset).time.phase = (servoPhase s.time (goodOffset offset)).1 := by
  by_cases steps : s.time.steps offset
  · rw [State.measure_steps steps]
    exact ⟨rfl, rfl, rfl⟩
  · rw [State.measure_follows steps]
    exact ⟨rfl, rfl, rfl⟩

end

/-- The rate stays within 100 ppm, whatever the servo's rule (R212). -/
theorem servoRate_bounds (offset rate : Int) : -429496 ≤ servoRate offset rate ∧ servoRate offset rate ≤ 429496 := by
  unfold servoRate maxRate
  omega

/-! ### TIME_STATE (R212) -/

section
variable {t : TimeSt} {offset : Int}

theorem servoPhase_of_locked (locked : t.phase = .locked) :
    (servoPhase t (goodOffset offset)).1 = .acquiring ↔ (offset < -8000 ∨ 8000 < offset) ∧ 3 ≤ t.badRun := by
  rw [← goodOffset_false_iff]
  unfold servoPhase
  rw [locked]
  cases goodOffset offset with
  | true => simp
  | false =>
    simp only [Bool.false_eq_true, if_false]
    split
    · simp; omega
    · simp; omega

theorem servoPhase_of_acquiring (acquiring : t.phase = .acquiring) :
    (servoPhase t (goodOffset offset)).1 = .locked ↔ -8000 ≤ offset ∧ offset ≤ 8000 ∧ 15 ≤ t.goodRun := by
  rw [← and_assoc, ← goodOffset_true_iff]
  unfold servoPhase
  rw [acquiring]
  cases goodOffset offset with
  | true =>
    simp only [if_true]
    split
    · simp; omega
    · simp; omega
  | false => simp

theorem servoPhase_of_lost (lost : t.phase = .free ∨ t.phase = .holdover) (good : Bool) :
    (servoPhase t good).1 = .acquiring := by
  unfold servoPhase
  rcases lost with free | holdover
  · rw [free]
  · rw [holdover]

end

/-! ### Delay_Resp -/

theorem ptpDelayResp_effect {s : State} {m : PtpMsg} (takes : s.ptpMaster m = true) {t1 t2 t3 : Nat} {c1 offset : Int}
    (stamps : s.time.t1t2 = some (t1, t2, c1)) (out : s.time.delayReq = some (m.seq, t3))
    (hoff : offset = ((t1 : Int) + c1 - t2 + (m.origin - m.correction - t3)) * 500) :
    ∃ t, exec (.ptpDelayResp m) s = .next t ∧ s.frame t [.stalls, .time, .repair, .obs] ∧
      t.time.lastOffset = offset ∧ t.time.delayReq = none ∧
      (let steps := (s.time.phase = .free ∨ s.time.phase = .acquiring) ∧ (offset < -1000000 ∨ 1000000 < offset)
       (steps → t.time.ao = (s.time.ao + offset.tdiv 1000).toNat ∧ t.time.rate = s.time.rate) ∧
       (¬ steps → t.time.ao = s.time.ao ∧ -429496 ≤ t.time.rate ∧ t.time.rate ≤ 429496)) ∧
      (s.time.phase = .locked → (t.time.phase = .acquiring ↔ (offset < -8000 ∨ 8000 < offset) ∧ 3 ≤ s.time.badRun)) ∧
      (s.time.phase = .acquiring → (t.time.phase = .locked ↔ -8000 ≤ offset ∧ offset ≤ 8000 ∧ 15 ≤ s.time.goodRun)) ∧
      (s.time.phase = .free ∨ s.time.phase = .holdover → t.time.phase = .acquiring) := by
  have run := execPtpDelayResp_completes takes stamps out
  rw [ptpOffset, ← hoff] at run
  obtain ⟨last, req, phase⟩ := State.measure_parts (s := s.exchanged) (offset := offset)
  refine ⟨_, run, (execPtpDelayResp_keeps (M := 4734984) rfl (Keeps.refl _ s)).frame run rfl, last, req,
    ⟨fun steps => ?_, fun still => ?_⟩, fun locked => ?_, fun acquiring => ?_, fun lost => ?_⟩
  · rw [State.measure_steps (s := s.exchanged) steps]
    exact ⟨rfl, rfl⟩
  · rw [State.measure_follows (s := s.exchanged) still]
    exact ⟨rfl, servoRate_bounds offset s.time.rate⟩
  · rw [phase]
    exact servoPhase_of_locked locked
  · rw [phase]
    exact servoPhase_of_acquiring acquiring
  · rw [phase]
    exact servoPhase_of_lost lost _

/-! ### Announce and holdover -/

/-- Of two grandmasters the one with the lower priority1 is the better (log 71). -/
theorem ptpBetter_of_priority1 {a b : PtpDataset} (ida idb : Nat) (apart : a.gm ≠ b.gm) (less : a.priority1 < b.priority1) :
    ptpBetter a ida b idb = true := by
  unfold ptpBetter
  rw [if_neg apart, before, decide_eq_true less, Bool.true_or]

/-- An announced master is selected where none is, or where it is the selected one or a better one. -/
theorem betterMaster_iff {m : PtpMsg} {cur : Option (Nat × PtpDataset)} : betterMaster m cur = true ↔
    cur = none ∨ ∃ id d, cur = some (id, d) ∧ (id = m.master ∨ ptpBetter m.dataset m.master d id = true) := by
  cases cur with
  | none => simp [betterMaster]
  | some x =>
    obtain ⟨id, d⟩ := x
    simp [betterMaster]

section
variable {s : State} {m : PtpMsg} (takes : s.ptpTaken m = true)
include takes

theorem ptpAnnounce_selects (better : betterMaster m s.time.master = true) :
    ∃ t, exec (.ptpAnnounce m) s = .next t ∧ s.frame t [.time] ∧ t.time.master = some (m.master, m.dataset) ∧
      t.time.ao = s.time.ao := by
  have run : ∃ v : TimeSt, exec (.ptpAnnounce m) s = .next { s with time := v } ∧
      v.master = some (m.master, m.dataset) ∧ v.ao = s.time.ao :=
    ⟨_, congrArg Host.Outcome.next (if_pos (Bool.and_eq_true_iff.2 ⟨takes, better⟩)), rfl, rfl⟩
  obtain ⟨v, run, master, ao⟩ := run
  exact ⟨_, run, (execPtpAnnounce_keeps (M := 16384) rfl (Keeps.refl _ s)).frame run rfl, master, ao⟩

theorem ptpAnnounce_ignored {id : Nat} {d : PtpDataset} (selected : s.time.master = some (id, d)) (other : id ≠ m.master)
    (worse : ptpBetter m.dataset m.master d id = false) : exec (.ptpAnnounce m) s = .next s := by
  refine congrArg Host.Outcome.next (if_neg ?_)
  rw [takes, selected, betterMaster, worse, Bool.or_false, Bool.true_and, beq_iff_eq]
  exact other

end

/-- ACQUIRING and LOCKED end in HOLDOVER; a silent PTP master is dropped (R212, log 71). -/
theorem timeHoldover_effect {s : State} (follows : s.time.phase = .acquiring ∨ s.time.phase = .locked) :
    ∃ t, exec .timeHoldover s = .next t ∧ s.frame t [.time] ∧ t.time.phase = .holdover ∧ t.time.rate = s.time.rate ∧
      (s.reg kTimeSource = 0 → t.time.master = none) ∧ t.time.ao = s.time.ao := by
  have run : exec .timeHoldover s = .next { s with time := { s.time with
      phase := .holdover, goodRun := 0, badRun := 0
      master := if s.reg kTimeSource = 0 then none else s.time.master } } :=
    congrArg Host.Outcome.next (if_pos follows)
  exact ⟨_, run, (execTimeHoldover_keeps (M := 16384) rfl (Keeps.refl _ s)).frame run rfl, rfl, rfl,
    fun ptp => if_pos ptp, rfl⟩

/-- Settles O37, a lemma for each message, and one for holdover. -/
theorem timeFollowsItsMaster : Obligations.TimeFollowsItsMaster := by
  unfold Obligations.TimeFollowsItsMaster
  refine ⟨fun s m source domain selected => ?_, fun s m other => ptp_ignored fun takes => ?_,
    fun s m source domain => ⟨fun better => ?_, fun ⟨_, _, selected, other, worse⟩ => ?_⟩, fun _ => timeHoldover_effect⟩
  · have takes : s.ptpMaster m = true := State.ptpMaster_iff.2 ⟨source, domain, selected⟩
    exact ⟨ptpSync_effect takes, fun _ _ sync => ptpFollowUp_effect takes sync,
      fun _ _ _ _ _ stamps out offset => ptpDelayResp_effect takes stamps out offset⟩
  · obtain ⟨source, domain, pr, selected⟩ := State.ptpMaster_iff.1 takes
    rcases other with elsewhere | foreign | unselected
    · exact elsewhere source
    · exact foreign domain
    · exact unselected pr selected
  · refine ptpAnnounce_selects (State.ptpTaken_iff.2 ⟨source, domain⟩) (betterMaster_iff.2 ?_)
    refine better.imp_right fun ⟨id, d, selected, why⟩ => ⟨id, d, selected, why.imp_right fun why => ?_⟩
    exact why.elim (fun ⟨apart, less⟩ => ptpBetter_of_priority1 _ _ apart less) fun better => better
  · exact ptpAnnounce_ignored (State.ptpTaken_iff.2 ⟨source, domain⟩) selected other worse

end Sys2Proof.Machine
end

section
/-! SUPPORT. Marks and the schedule (10 R216 to R220, 12 R253 to R258): what firing entries and setting gates leave alone, a held MARK,
its preview, mark fall-back, STEP_SET and the rows of SCHEDULE_TABLE. -/

namespace Sys2Proof.Machine

/-! ### Plain changes of time and gates -/

section
variable {m : Nat} {s t : State} (h : Keeps m s t)
include h

theorem Keeps.setTimePart (v : TimeSt) (hm : m.testBit 14 = true) : Keeps m s { t with time := v } := by
  refine ⟨fun p hp => State.same_trans (h.1 p hp) ?_, h.2.1, h.2.2⟩
  cases p with
  | time => exact Bool.noConfusion (hp.symm.trans hm)
  | linkFace | stallFace => exact fun _ => rfl
  | _ => rfl

theorem Keeps.setGatesPart (v : GateSt) (hm : m.testBit 15 = true) : Keeps m s { t with gates := v } := by
  refine ⟨fun p hp => State.same_trans (h.1 p hp) ?_, h.2.1, h.2.2⟩
  cases p with
  | gates => exact Bool.noConfusion (hp.symm.trans hm)
  | linkFace | stallFace => exact fun _ => rfl
  | _ => rfl

end

/-! ### Time through a mark cycle (R217, R220 to R222) -/

/-- Time without its schedule: what the entries that fire leave alone. -/
def TimeSt.unscheduled (t : TimeSt) : TimeSt := { t with schedule := [], schedStaged := [] }

theorem State.schedAction_time (s : State) (entry : Nat) (e : Sched) : (s.schedAction entry e).time = s.time :=
  (State.schedAction_keeps (M := 21791822) rfl (Keeps.refl _ s)).1 .time rfl

/-- A once-only entry that has fired is no longer VALID. -/
def State.spent (s : State) (entry : Nat) (e : Sched) : State :=
  State.rowChanged { s with time := { s.time with
    schedule := s.time.schedule.set {} entry { e with valid := false }
    schedStaged := s.time.schedStaged.set {} entry { e with valid := false } } } 3 entry

theorem State.spent_unscheduled (s : State) (entry : Nat) (e : Sched) :
    (s.spent entry e).time.unscheduled = s.time.unscheduled := rfl

/-- The points of an entry in the span, counted, and those skipped. -/
def State.pointsCounted (s : State) (entry n : Nat) : State := (s.count .sched entry 0).count .sched entry 1 (n - 1)

theorem State.pointsCounted_time (s : State) (entry n : Nat) : (s.pointsCounted entry n).time = s.time := rfl

theorem State.fireEntry_fires (s : State) {o v : Nat} (entry : Nat) {e : Sched}
    (fires : ¬ (e.valid = false ∨ e.points o v = 0)) : s.fireEntry o v entry e =
      (if e.rep = 0 then (s.pointsCounted entry (e.points o v)).spent entry e
       else s.pointsCounted entry (e.points o v)).schedAction entry e :=
  if_neg fires

theorem State.fireEntry_unscheduled (s : State) (o v entry : Nat) (e : Sched) :
    (s.fireEntry o v entry e).time.unscheduled = s.time.unscheduled := by
  by_cases idle : e.valid = false ∨ e.points o v = 0
  · rw [show s.fireEntry o v entry e = s from if_pos idle]
  · rw [State.fireEntry_fires s entry idle, State.schedAction_time]
    split
    · rw [State.spent_unscheduled, State.pointsCounted_time]
    · rw [State.pointsCounted_time]

theorem State.fireSchedule_unscheduled (s : State) (o v : Nat) :
    (s.fireSchedule o v).time.unscheduled = s.time.unscheduled :=
  List.foldlRecOn (motive := fun x : State => x.time.unscheduled = s.time.unscheduled) _ _ rfl
    fun x k p _ => (x.fireEntry_unscheduled o v p.1 p.2).trans k

/-- A step of the gates leaves time alone. -/
theorem State.applyGates_time (s : State) : s.applyGates.time = s.time :=
  (State.applyGates_keeps (M := 21528776) rfl (Keeps.refl _ s)).1 .time rfl

/-- A mark cycle sets STEP and PHASE and ends fall-back, and leaves the rest of time but the schedule. -/
theorem State.applyMark_unscheduled (s : State) (v : Nat) : (s.applyMark v).time.unscheduled =
    { s.time.unscheduled with step := v / 65536 % 2 ^ 48, mphase := v % 65536, fallback := false
                              lastMark := some s.time.ticks } := by
  unfold State.applyMark
  dsimp only
  split
  · rw [State.crier_at_time, State.applyGates_time, State.fireSchedule_unscheduled]
    rfl
  · rw [State.applyGates_time, State.fireSchedule_unscheduled]
    rfl

/-! ### Held MARKs (R216, R256) -/

/-- The board once its first held MARK has left the queue. -/
def State.unheld (s : State) (rest : List HeldMark) : State :=
  { s with time := { s.time with heldMarks := rest }, gates := { s.gates with closing := none } }

theorem State.unheld_keeps (s : State) (rest : List HeldMark) : Keeps 4243456 s (s.unheld rest) :=
  ((Keeps.refl _ s).setTimePart { s.time with heldMarks := rest } rfl).setGatesPart { s.gates with closing := none } rfl

section
variable {s : State} {h : HeldMark} {r : List HeldMark} (held : s.time.heldMarks = h :: r)
include held

theorem execMarkApplyAt_above (above : s.markValue < h.value) :
    exec .markApplyAt s = .next ((s.unheld r).applyMark h.value) := by
  change execMarkApplyAt s = _
  unfold execMarkApplyAt
  rw [held]
  exact congrArg Host.Outcome.next (if_pos above)

theorem execMarkApplyAt_below (below : h.value ≤ s.markValue) :
    exec .markApplyAt s = .next ((s.unheld r).count .board 0 2) := by
  change execMarkApplyAt s = _
  unfold execMarkApplyAt
  rw [held]
  exact congrArg Host.Outcome.next (if_neg (Nat.not_lt.2 below))

theorem markApplyAt_effect : ∃ t, exec .markApplyAt s = .next t ∧
    s.frame t [.dict, .links, .stalls, .slices, .chans, .barrows, .time, .gates, .pair, .repair, .obs, .clock] ∧
    t.time.heldMarks = r ∧ t.time.ao = s.time.ao ∧
    (s.markValue < h.value → t.time.step = h.value / 65536 % 2 ^ 48 ∧ t.time.mphase = h.value % 65536 ∧
      t.time.fallback = false) ∧
    (h.value ≤ s.markValue → t.time.step = s.time.step ∧ t.time.mphase = s.time.mphase ∧
      t.time.schedule = s.time.schedule ∧ s.frame t [.time, .gates, .obs]) := by
  have frame := execMarkApplyAt_keeps (M := 21808334) rfl (Keeps.refl _ s)
  by_cases above : s.markValue < h.value
  · have run := execMarkApplyAt_above held above
    have time := (s.unheld r).applyMark_unscheduled h.value
    exact ⟨_, run, frame.frame run rfl, congrArg TimeSt.heldMarks time, (congrArg TimeSt.ao time).trans rfl,
      fun _ => ⟨congrArg TimeSt.step time, congrArg TimeSt.mphase time, congrArg TimeSt.fallback time⟩,
      fun below => absurd above (Nat.not_lt.2 below)⟩
  · have run := execMarkApplyAt_below held (Nat.not_lt.1 above)
    have keeps : Keeps 4243456 s ((s.unheld r).count .board 0 2) := State.count_keeps rfl (s.unheld_keeps r)
    exact ⟨_, run, frame.frame run rfl, rfl, rfl, fun below => absurd below above,
      fun _ => ⟨rfl, rfl, rfl, keeps.frame rfl⟩⟩

theorem guardBandPreview_effect : ∃ t, exec .guardBandPreview s = .next t ∧ s.frame t [.gates] ∧
    t.gates.tcOpen = s.gates.tcOpen ∧
    (s.markValue < h.value → t.gates.closing =
      some (s.gates.tcOpen &&& ~~~(s.applyMark h.value).gates.tcOpen, h.applyAt) ∧
      t.gates.closingMig = s.gates.migrate &&& ~~~(s.applyMark h.value).gates.migrate) := by
  change ∃ t, execGuardBandPreview s = .next t ∧ _
  unfold execGuardBandPreview
  rw [held]
  dsimp only
  split
  · exact ⟨_, rfl, (Keeps.setGatesPart (Keeps.refl 32768 s) _ rfl).frame rfl, rfl, fun _ => ⟨rfl, rfl⟩⟩
  · next below => exact ⟨s, rfl, (Keeps.refl 32768 s).frame rfl, rfl, fun above => absurd above below⟩

end

/-! ### Gates that are set (R253, R257) -/

/-- From one state to another the gates stay, and the crier takes back no SEQ. -/
def Raises (s t : State) : Prop := t.gates = s.gates ∧ s.obs.head ≤ t.obs.head

theorem Raises.refl (s : State) : Raises s s := ⟨rfl, Nat.le_refl _⟩

theorem Raises.trans {s t u : State} (h : Raises s t) (k : Raises t u) : Raises s u := ⟨k.1.trans h.1, h.2.trans k.2⟩

theorem Raises.foldl {β : Type} {f : State → β → State} (step : ∀ a x, Raises a (f a x)) (l : List β) (s : State) :
    Raises s (l.foldl f s) :=
  List.foldlRecOn (motive := Raises s) l f (Raises.refl s) fun a h x _ => h.trans (step a x)

/-- A change that leaves the gates and the instruments alone. -/
theorem Raises.of_keeps {m : Nat} {s t : State} (h : Keeps m s t) (gates : m.testBit 15 = false)
    (obs : m.testBit 22 = false) : Raises s t :=
  ⟨h.1 .gates gates, (congrArg ObsSt.head (h.1 .obs obs : t.obs = s.obs)).ge⟩

theorem Raises.updSlice (s : State) (n : Nat) (f : SliceSt → SliceSt) : Raises s (s.updSlice n f) :=
  ⟨rfl, Nat.le_refl _⟩

theorem Raises.crier (s : State) (g : RegionNo) (code unit detail : Nat) (hosts : List Nat) :
    Raises s (s.crier g code unit detail hosts) :=
  ⟨State.crier_at_gates, (Nat.le_succ _).trans (State.crier_head s g code unit detail hosts).ge⟩

theorem Raises.count (s : State) (g : Group) (i r n : Nat) : Raises s (s.count g i r n) := ⟨rfl, Nat.le_refl _⟩

theorem Raises.freed (s : State) (n f : Nat) : Raises s (s.freed n f) := ⟨rfl, Nat.le_refl _⟩

theorem Raises.wakeSlice (s : State) (n : Nat) : Raises s (s.wakeSlice n) := by
  unfold State.wakeSlice
  split
  · exact ⟨rfl, Nat.le_refl _⟩
  · exact Raises.updSlice s n _
  · exact Raises.refl s

theorem Raises.abandonMove (s : State) (n f : Nat) : Raises s (s.abandonMove n f) := by
  unfold State.abandonMove
  dsimp only
  split
  · exact (Raises.freed s n f).trans (Raises.count _ _ _ _ _)
  · exact (Raises.updSlice _ _ _).trans (Raises.count _ _ _ _ _)
  · exact Raises.refl s

theorem Raises.migrateClose (s : State) (n : Nat) : Raises s (s.migrateClose n) := by
  have abandoned (l : List Nat) : Raises s (l.foldl (fun a f => a.abandonMove n f) s) :=
    Raises.foldl (fun a f => Raises.abandonMove a n f) l s
  unfold State.migrateClose
  dsimp only
  split
  · exact (abandoned _).trans (Raises.updSlice _ _ _)
  · exact ((abandoned _).trans (Raises.updSlice _ _ _)).trans (Raises.crier _ _ _ _ _ _)

/-- Setting the gates writes the three of them; what opens and closes with them raises events at most. -/
theorem State.setGates_raises (s : State) (tc mig scrub : BitVec 8) :
    Raises { s with gates := { s.gates with tcOpen := tc, migrate := mig, scrub := scrub } } (s.setGates tc mig scrub) := by
  unfold State.setGates
  refine ((Raises.foldl (fun a n => ?_) _ _).trans (Raises.foldl (fun a n => ?_) _ _)).trans
    (Raises.of_keeps (State.unpark_keeps (M := 64) rfl (Keeps.refl _ _)) rfl rfl)
  · split
    · exact Raises.migrateClose a n
    · exact Raises.refl a
  · have woken : Raises a (if (mig.getLsbD n && !s.gates.migrate.getLsbD n) ||
        (scrub.getLsbD n && !s.gates.scrub.getLsbD n) then a.wakeSlice n else a) := by
      split
      · exact Raises.wakeSlice a n
      · exact Raises.refl a
    dsimp only
    split
    · exact woken.trans (Raises.of_keeps (State.ecsWindow_keeps (M := 128) rfl (Keeps.refl _ _)) rfl rfl)
    · exact woken

theorem State.setGates_parts (s : State) (tc mig scrub : BitVec 8) :
    (s.setGates tc mig scrub).gates.schedMigrate = s.gates.schedMigrate ∧
    (s.setGates tc mig scrub).gates.schedScrub = s.gates.schedScrub ∧ s.obs.head ≤ (s.setGates tc mig scrub).obs.head := by
  obtain ⟨gates, head⟩ := s.setGates_raises tc mig scrub
  rw [gates]
  exact ⟨rfl, rfl, head⟩

/-- The cyclic list leaves the step-keyed gates of the slices as they were, and takes back no SEQ. -/
theorem State.applyFallback_parts (s : State) : s.applyFallback.gates.schedMigrate = s.gates.schedMigrate ∧
    s.applyFallback.gates.schedScrub = s.gates.schedScrub ∧ s.obs.head ≤ s.applyFallback.obs.head := by
  unfold State.applyFallback
  dsimp only
  split
  · exact ⟨rfl, rfl, Nat.le_refl _⟩
  · exact State.setGates_parts _ _ _ _

/-! ### Mark loss (R219, R258) -/

/-- A MARK applied in the same tick prevents fall-back. -/
theorem markLoss_prevented {s : State} (applied : s.time.lastMark = some s.time.ticks) : exec .markLoss s = .next s := by
  change execMarkLoss s = _
  unfold execMarkLoss
  rw [if_pos (by rw [applied, beq_self_eq_true, Bool.or_true, Bool.or_true])]

/-- The board as it enters mark fall-back, before the cyclic list sets its gates. -/
def State.inFallback (s : State) : State :=
  { s with time := { s.time with fallback := true }, gates := { s.gates with schedMigrate := 0, schedScrub := 0 } }

section
variable {s : State} (ready : s.boot.stage = .ready) (marked : s.time.fallback = false)
  (lost : s.time.lastMark ≠ some s.time.ticks)
include ready marked lost

theorem execMarkLoss_falls : ∃ detail hosts, exec .markLoss s = .next (s.inFallback.applyFallback.crier 11 0x16 0 detail hosts) := by
  change ∃ detail hosts, execMarkLoss s = _
  unfold execMarkLoss
  rw [if_neg (by simp [ready, marked, lost])]
  exact ⟨_, _, rfl⟩

theorem markLoss_effect : ∃ t, exec .markLoss s = .next t ∧
    s.frame t [.stalls, .slices, .chans, .time, .gates, .repair, .obs, .clock] ∧ t.time.fallback = true ∧
    t.time.step = s.time.step ∧ t.time.mphase = s.time.mphase ∧ t.gates.schedMigrate = 0 ∧ t.gates.schedScrub = 0 ∧
    s.obs.head < t.obs.head := by
  obtain ⟨detail, hosts, run⟩ := execMarkLoss_falls ready marked lost
  obtain ⟨migrate, scrub, head⟩ := s.inFallback.applyFallback_parts
  have time : (s.inFallback.applyFallback.crier 11 0x16 0 detail hosts).time = s.inFallback.time :=
    State.crier_at_time.trans ((State.applyFallback_keeps (M := 21528776) rfl (Keeps.refl _ _)).1 .time rfl)
  refine ⟨_, run, (execMarkLoss_keeps (M := 21545160) rfl (Keeps.refl _ s)).frame run rfl, ?_⟩
  rw [time, State.crier_at_gates, migrate, scrub, State.crier_head]
  exact ⟨rfl, rfl, rfl, rfl, rfl, Nat.lt_succ_of_le head⟩

end

/-! ### STEP_SET (R218) -/

theorem actStepSet_time (s : State) (v : Nat) : (actStepSet v s).1.time =
    { s.time with step := v / 65536 % 2 ^ 48, mphase := v % 65536, heldMarks := [] } := rfl

theorem actStepSet_gates (s : State) (v : Nat) : (actStepSet v s).1.gates = { s.gates with closing := none } := rfl

theorem stepSet_effect {s : State} {f : Frame} {v : Nat} (h : s.accepts f (askWrite kStepSet 8 v)) :
    ∃ t, exec (.stepSet f v) s = .next t ∧
      s.frame t [.dict, .links, .stalls, .time, .gates, .xbar, .repair, .sec, .mgmt, .obs] ∧
      t.time.step = v / 65536 % 2 ^ 48 ∧ t.time.mphase = v % 65536 ∧
      t.time.heldMarks = [] ∧ t.time.schedule = s.time.schedule ∧ t.time.ao = s.time.ao ∧
      t.gates.tcOpen = s.gates.tcOpen := by
  have run := congrArg (Host.Outcome.next (φ := Fault) (ρ := Refusal)) (State.write_accepts actStepSet h)
  refine ⟨_, run, (execStepSet_keeps (M := 7979022) rfl (Keeps.refl _ s)).frame run rfl, ?_⟩
  rw [State.answered_time, State.answered_gates, actStepSet_time, actStepSet_gates, State.logged_time, State.logged_gates]
  exact ⟨rfl, rfl, rfl, rfl, rfl, rfl⟩

/-! ### SCHEDULE_TABLE (R220) -/

/-- A row is refused: its action is reserved, or its once-only point has passed. -/
def State.refusesSched (s : State) (e : Sched) : Prop :=
  8 < e.action ∨ e.valid = true ∧ e.rep = 0 ∧ e.step * 65536 + e.phase ≤ s.markValue

section
variable {s : State} {row v : Nat}

theorem State.writeSchedule_refused (refused : s.refusesSched (schedOfWord v)) : State.writeSchedule row v s = (s, 3) := by
  unfold State.writeSchedule
  dsimp only
  split
  · rfl
  · next named => exact if_pos (refused.resolve_left named)

theorem State.writeSchedule_stored (stands : ¬ s.refusesSched (schedOfWord v)) : State.writeSchedule row v s =
    (State.rowChanged { s with time := { s.time with
      schedStaged := s.time.schedStaged.set {} row (schedOfWord v) } } 3 row, 0) := by
  obtain ⟨named, ahead⟩ := not_or.1 stands
  unfold State.writeSchedule
  exact (if_neg named).trans (if_neg ahead)

theorem State.refusesSched_logged (f : Frame) (q : Ask) (a : Ans) (e : Sched) :
    (s.logged f q a).refusesSched e ↔ s.refusesSched e := by
  unfold State.refusesSched State.markValue
  rw [State.logged_time]

variable {f : Frame} (h : s.accepts f (askRows kScheduleTable 16 row [v]))
include h

/-- A row that is refused leaves time and the rows of the next mirror epoch. -/
theorem execScheduleTableWrite_refused (refused : s.refusesSched (schedOfWord v)) :
    ∃ t, exec (.scheduleTableWrite f row [v]) s = .next t ∧ t.time = s.time ∧ t.pair = s.pair := by
  have refuses {u : State} (refused : u.refusesSched (schedOfWord v)) : (State.writeSchedule row v u).2 ≠ 0 := by
    rw [State.writeSchedule_refused refused]
    exact Nat.succ_ne_zero 2
  obtain ⟨a, e, _⟩ := State.writeWindow_refused (wr := fun r v s => State.writeSchedule r v s) h (refuses refused)
    fun a => refuses ((State.refusesSched_logged f _ a _).2 refused)
  refine ⟨_, congrArg Host.Outcome.next e, ?_, ?_⟩
  · rw [State.answered_time, State.logged_time]
  · rw [State.answered_pair, State.logged_pair]

/-- A row that stands is staged, and nothing else of time changes. -/
theorem execScheduleTableWrite_stored (stands : ¬ s.refusesSched (schedOfWord v)) :
    ∃ t, exec (.scheduleTableWrite f row [v]) s = .next t ∧
      t.time = { s.time with schedStaged := s.time.schedStaged.set {} row (schedOfWord v) } := by
  have stored (a : Ans) := State.writeSchedule_stored (row := row)
    (mt (State.refusesSched_logged (s := s) f (askRows kScheduleTable 16 row [v]) a (schedOfWord v)).1 stands)
  obtain ⟨a, e⟩ := State.writeWindow_stored (wr := fun r v s => State.writeSchedule r v s) h fun a =>
    congrArg Prod.snd (stored a)
  refine ⟨_, congrArg Host.Outcome.next e, ?_⟩
  rw [State.answered_time, stored]
  exact congrArg (fun t : TimeSt => { t with schedStaged := t.schedStaged.set {} row (schedOfWord v) }) (s.logged_time f _ a)

theorem scheduleTableWrite_effect : ∃ t, exec (.scheduleTableWrite f row [v]) s = .next t ∧
    s.frame t [.links, .stalls, .time, .xbar, .pair, .repair, .sec, .mgmt, .obs] ∧
    t.time.schedule = s.time.schedule ∧
    (¬ s.refusesSched (schedOfWord v) → t.time.schedStaged.get {} row = schedOfWord v ∧
      ∀ j, j ≠ row → t.time.schedStaged.get {} j = s.time.schedStaged.get {} j) ∧
    (s.refusesSched (schedOfWord v) → t.time = s.time ∧ t.pair = s.pair) := by
  have frame := execScheduleTableWrite_keeps (M := 8208396) (a1 := f) (a2 := row) (a3 := [v]) rfl (Keeps.refl _ s)
  by_cases refused : s.refusesSched (schedOfWord v)
  · obtain ⟨t, run, time, pair⟩ := execScheduleTableWrite_refused h refused
    exact ⟨t, run, frame.frame run rfl, congrArg TimeSt.schedule time, fun stands => absurd refused stands,
      fun _ => ⟨time, pair⟩⟩
  · obtain ⟨t, run, time⟩ := execScheduleTableWrite_stored h refused
    refine ⟨t, run, frame.frame run rfl, ?_⟩
    rw [time]
    exact ⟨rfl, fun _ => ⟨Tbl.get_set_same _ _ _ _, fun j other => Tbl.get_set_other _ _ _ other⟩, fun no => absurd no refused⟩

end

/-- Settles O38, a lemma for each command. -/
theorem marksAdvanceTheStep : Obligations.MarksAdvanceTheStep := by
  unfold Obligations.MarksAdvanceTheStep
  exact ⟨fun _ _ _ held => ⟨markApplyAt_effect held, guardBandPreview_effect held⟩, fun _ => markLoss_prevented,
    fun _ => markLoss_effect, fun _ _ _ => stepSet_effect, fun _ _ _ _ => scheduleTableWrite_effect⟩

end Sys2Proof.Machine
end

section
/-! SUPPORT. Bunting operations (11 R235 to R241): what a change of an operation, a PUSH that is sent and the notices that fall due
leave of the trees and of the PUSHes that are out. -/

namespace Sys2Proof.Machine

/-! ### A tree's operation -/

/-- The operation with its members changed. -/
def BuntOp.mapMems (o : BuntOp) (f : BuntMem → BuntMem) : BuntOp := { o with mems := o.mems.map f }

/-- A change of the members of one stall. -/
def BuntMem.ofStall (st : Nat) (f : BuntMem → BuntMem) (m : BuntMem) : BuntMem := if m.stall == st then f m else m

theorem BuntMem.ofStall_same {st : Nat} {m : BuntMem} (f : BuntMem → BuntMem) (same : m.stall = st) : ofStall st f m = f m :=
  if_pos (beq_iff_eq.2 same)

theorem BuntMem.ofStall_other {st : Nat} {m : BuntMem} (f : BuntMem → BuntMem) (other : m.stall ≠ st) : ofStall st f m = m :=
  if_neg (mt beq_iff_eq.1 other)

section
variable (s : State) (n : Nat)

@[simp] theorem State.tree_updOp (f : BuntOp → BuntOp) :
    (s.updOp n f).tree n = { s.tree n with op := (s.tree n).op.map f } := s.tree_updTree n _

theorem State.tree_updOp_other {j : Nat} (f : BuntOp → BuntOp) (other : j ≠ n) : (s.updOp n f).tree j = s.tree j :=
  s.tree_updTree_other _ other

@[simp] theorem State.tree_updMem (st : Nat) (f : BuntMem → BuntMem) : (s.updMem n st f).tree n =
    { s.tree n with op := (s.tree n).op.map fun o => o.mapMems (BuntMem.ofStall st f) } := s.tree_updOp n _

theorem State.tree_updMem_other (st : Nat) {j : Nat} (f : BuntMem → BuntMem) (other : j ≠ n) :
    (s.updMem n st f).tree j = s.tree j := s.tree_updOp_other n _ other

@[simp] theorem State.updOp_pushes (f : BuntOp → BuntOp) : (s.updOp n f).pushes = s.pushes := rfl

@[simp] theorem State.updMem_pushes (st : Nat) (f : BuntMem → BuntMem) : (s.updMem n st f).pushes = s.pushes := rfl

@[simp] theorem State.stopOp_pushes (st : Status) : (s.stopOp n st).pushes = s.pushes := rfl

@[simp] theorem State.tree_stopOp (st : Status) :
    (s.stopOp n st).tree n = { s.tree n with op := (s.tree n).op.map (·.stopped st) } := s.tree_updOp n _

theorem State.tree_stopOp_other {j : Nat} (st : Status) (other : j ≠ n) : (s.stopOp n st).tree j = s.tree j :=
  s.tree_updOp_other n _ other

end

/-- What leaves the trees alone leaves each of them alone. -/
theorem Keeps.tree {m : Nat} {s t : State} (h : Keeps m s t) (trees : m.testBit 12 = false) (n : Nat) : t.tree n = s.tree n :=
  congrArg (fun x : Tbl Tree => x.get {} n) (h.1 .trees trees)

/-- An operation stops with the first status alone (R240). -/
theorem BuntOp.stopped_running {o : BuntOp} (runs : o.stop = none) (st : Status) : o.stopped st = { o with stop := some st } := by
  unfold BuntOp.stopped
  rw [runs]
  rfl

/-! ### A PUSH is sent -/

/-- The PUSH that `State.sendPush` keeps. -/
def State.newPush (s : State) (n k st : Nat) (page : Option Nat) (addr mod poison : Nat) (data : List Line) : Push where
  tag := s.nextTag
  tree := n
  slice := k
  stall := st
  page := page
  req := {
    opcode := 0x38, host := (s.stall st).host, tag := s.nextTag, tenant := (s.tree n).tenant
    epoch := (s.stall st).epoch, len := data.length, mod := mod, addr := addr % 2 ^ 52, data := data }
  poison := poison
  waiting := false

section
variable (s : State) (n k st : Nat) (page : Option Nat) (addr mod poison : Nat) (data : List Line)

theorem State.sendPush_pushes : (s.sendPush n k st page addr mod poison data).pushes =
    s.pushes ++ [s.newPush n k st page addr mod poison data] :=
  (State.queuePush_keeps (M := 64) rfl (Keeps.refl _ _)).1 .pushes rfl

@[simp] theorem State.sendPush_tree (j : Nat) : (s.sendPush n k st page addr mod poison data).tree j = s.tree j :=
  (State.sendPush_keeps (M := 8768) rfl (Keeps.refl _ s)).tree rfl j

end

/-! ### The notices that fall due (R237) -/

/-- From `s` to `t` tree `n` sends notices: members are marked that theirs is sent, and PUSHes without a page join those that are out. -/
structure Notified (n : Nat) (s t : State) : Prop where
  tree : ∃ f : BuntMem → BuntMem, (∀ m, f m = { m with noticed := (f m).noticed }) ∧
    t.tree n = { s.tree n with op := (s.tree n).op.map (·.mapMems f) }
  others : ∀ j, j ≠ n → t.tree j = s.tree j
  pushes : ∃ l, t.pushes = s.pushes ++ l ∧ ∀ p ∈ l, p.page = none

theorem BuntOp.mapMems_mapMems (o : BuntOp) (f g : BuntMem → BuntMem) : (o.mapMems f).mapMems g = o.mapMems (g ∘ f) := by
  unfold BuntOp.mapMems
  rw [List.map_map]

theorem BuntOp.mapMems_id (o : BuntOp) : o.mapMems id = o := by
  unfold BuntOp.mapMems
  rw [List.map_id]

theorem Notified.refl (n : Nat) (s : State) : Notified n s s where
  tree := ⟨id, fun _ => rfl, by rw [show (fun o : BuntOp => o.mapMems id) = id from funext BuntOp.mapMems_id, Option.map_id]; rfl⟩
  others _ _ := rfl
  pushes := ⟨[], (List.append_nil _).symm, fun _ h => absurd h List.not_mem_nil⟩

theorem Notified.trans {n : Nat} {s t u : State} (h : Notified n s t) (k : Notified n t u) : Notified n s u := by
  obtain ⟨f, marks, ht⟩ := h.tree
  obtain ⟨g, marks', hu⟩ := k.tree
  obtain ⟨l, lt, notices⟩ := h.pushes
  obtain ⟨l', lu, notices'⟩ := k.pushes
  refine ⟨⟨g ∘ f, fun m => ?_, ?_⟩, fun j o => (k.others j o).trans (h.others j o), l ++ l', ?_, fun p mem => ?_⟩
  · rw [Function.comp_apply, marks' (f m), marks m]
  · rw [hu, ht]
    simp only [Option.map_map, Function.comp_def, BuntOp.mapMems_mapMems]
  · rw [lu, lt, List.append_assoc]
  · exact (List.mem_append.1 mem).elim (notices p) (notices' p)

/-- A notice marks its member and sends one PUSH. -/
theorem State.noticeIfDue_notified (s : State) (n st : Nat) : Notified n s (s.noticeIfDue n st) := by
  unfold State.noticeIfDue
  dsimp only
  split
  · exact Notified.refl n s
  · split
    · exact Notified.refl n s
    · split
      · refine ⟨⟨BuntMem.ofStall st fun m => { m with noticed := true }, fun m => ?_, ?_⟩, fun j other => ?_,
          _, State.sendPush_pushes _ _ _ _ _ _ _ _ _, fun p mem => ?_⟩
        · unfold BuntMem.ofStall
          split <;> rfl
        · rw [State.sendPush_tree, State.tree_updMem]
        · rw [State.sendPush_tree, State.tree_updMem_other _ _ _ _ other]
        · rw [List.mem_singleton.1 mem]
          rfl
      · exact Notified.refl n s

theorem State.noticesDue_notified (s : State) (n : Nat) : Notified n s (s.noticesDue n) := by
  unfold State.noticesDue
  split
  · exact Notified.refl n s
  · exact List.foldlRecOn (motive := Notified n s) _ _ (Notified.refl n s)
      fun a h m _ => h.trans (a.noticeIfDue_notified n m.stall)

section
variable {n : Nat} {s t : State} (h : Notified n s t)
include h

/-- Only who has had its notice changes in the operation. -/
theorem Notified.op {o : BuntOp} (runs : (s.tree n).op = some o) :
    ∃ mems, (t.tree n).op = some { o with mems := mems } ∧ ∀ m ∈ mems, ∃ m' ∈ o.mems, m = { m' with noticed := m.noticed } := by
  obtain ⟨f, marks, tree⟩ := h.tree
  refine ⟨o.mems.map f, by rw [tree, runs]; rfl, fun m mem => ?_⟩
  obtain ⟨m', mem', rfl⟩ := List.mem_map.1 mem
  exact ⟨m', mem', marks m'⟩

theorem Notified.keepsPush {p : Push} (mem : p ∈ s.pushes) : p ∈ t.pushes := by
  obtain ⟨l, pushes, _⟩ := h.pushes
  rw [pushes]
  exact List.mem_append_left l mem

/-- A PUSH that is out and not before is a notice. -/
theorem Notified.page_none {p : Push} (mem : p ∈ t.pushes) (new : p ∉ s.pushes) : p.page = none := by
  obtain ⟨l, pushes, notices⟩ := h.pushes
  rw [pushes] at mem
  exact notices p ((List.mem_append.1 mem).resolve_left new)

end

end Sys2Proof.Machine
end

section
/-! SUPPORT. Bunting trees (11 R230 to R234, R239 to R241): the writes of their rows, and an operation from BUNT_GO to its record. -/

namespace Sys2Proof.Machine

/-! ### The rows of the trees (R230) -/

/-- A write of one row that goes by its tree and the barrows alone: refused under `refused`, or the tree is changed by `g`. -/
theorem State.writeWindow_tree {s : State} {f : Frame} {key bytes row v : Nat} {wr : Nat → Nat → State → State × Nat}
    {refused : Prop} {g : Tree → Tree} (h : s.accepts f (askRows key bytes row [v]))
    (refuses : refused → ∀ u : State, u.tree row = s.tree row → u.barrow = s.barrow → (wr row v u).2 ≠ 0)
    (stores : ¬ refused → ∀ u : State, u.tree row = s.tree row → u.barrow = s.barrow → wr row v u = (u.updTree row g, 0)) :
    let t := s.writeWindow f key bytes row [v] wr
    (¬ refused → t.tree row = g (s.tree row) ∧ ∀ j, j ≠ row → t.tree j = s.tree j) ∧ (refused → t.trees = s.trees) := by
  have barrow (a : Ans) : (s.logged f (askRows key bytes row [v]) a).barrow = s.barrow := funext (s.logged_at_barrow f _ a)
  refine ⟨fun stands => ?_, fun no => ?_⟩
  · have stored (a : Ans) := stores stands _ (s.logged_at_tree f (askRows key bytes row [v]) a row) (barrow a)
    obtain ⟨a, e⟩ := State.writeWindow_stored (wr := wr) h fun a => congrArg Prod.snd (stored a)
    rw [e, stored]
    refine ⟨?_, fun j other => ?_⟩
    · rw [State.answered_at_tree, State.tree_updTree, State.logged_at_tree]
    · rw [State.answered_at_tree, State.tree_updTree_other _ _ other, State.logged_at_tree]
  · obtain ⟨a, e, _⟩ := State.writeWindow_refused (wr := wr) h (refuses no s rfl rfl) fun a =>
      refuses no _ (s.logged_at_tree f _ a row) (barrow a)
    rw [e, State.answered_trees, State.logged_trees]

/-- A tree entry is refused: its tree runs, or it breaks a rule of Table 11.1. -/
def State.refusesTree (s : State) (row : Nat) (n : Tree) : Prop :=
  (s.tree row).phase = .running ∨ 12 < n.cqOrder ∨ n.lines = 0 ∨ 0x10000000 < n.lines ∨ n.src % 64 ≠ 0 ∨
    n.valid = true ∧ (s.barrow n.barrow).tenant ≠ n.tenant

section
variable {s : State} {row v : Nat}

theorem State.writeTree_refused (refused : s.refusesTree row ((s.tree row).withRow v)) : (State.writeTree row v s).2 ≠ 0 := by
  unfold State.writeTree
  dsimp only
  split_ifs with runs breaks foreign
  · exact Nat.succ_ne_zero 2
  · exact Nat.succ_ne_zero 1
  · exact Nat.succ_ne_zero 2
  · unfold State.refusesTree at refused
    tauto

theorem State.writeTree_stored (stands : ¬ s.refusesTree row ((s.tree row).withRow v)) :
    State.writeTree row v s = (s.updTree row (·.withRow v), 0) := by
  obtain ⟨idle, order, lines, most, aligned, own⟩ : (s.tree row).phase ≠ .running ∧ ¬ 12 < ((s.tree row).withRow v).cqOrder ∧
      ((s.tree row).withRow v).lines ≠ 0 ∧ ¬ 0x10000000 < ((s.tree row).withRow v).lines ∧
      ¬ ((s.tree row).withRow v).src % 64 ≠ 0 ∧ ¬ (((s.tree row).withRow v).valid = true ∧
        (s.barrow ((s.tree row).withRow v).barrow).tenant ≠ ((s.tree row).withRow v).tenant) := by
    simpa only [State.refusesTree, not_or, ne_eq] using stands
  unfold State.writeTree
  dsimp only
  rw [if_neg idle, if_neg (by tauto), if_neg own]
  rfl

variable {f : Frame}

theorem buntingTableWrite_effect (h : s.accepts f (askRows kBuntingTable 40 row [v])) :
    ∃ t, exec (.buntingTableWrite f false row [v]) s = .next t ∧
      s.frame t [.links, .stalls, .trees, .xbar, .repair, .sec, .mgmt, .obs] ∧
      (¬ s.refusesTree row ((s.tree row).withRow v) →
        t.tree row = (s.tree row).withRow v ∧ ∀ j, j ≠ row → t.tree j = s.tree j) ∧
      (s.refusesTree row ((s.tree row).withRow v) → t.trees = s.trees) := by
  have same {u : State} (tree : u.tree row = s.tree row) (barrow : u.barrow = s.barrow) :
      u.refusesTree row ((u.tree row).withRow v) ↔ s.refusesTree row ((s.tree row).withRow v) := by
    rw [tree, State.refusesTree, State.refusesTree, tree, barrow]
  have wrote := State.writeWindow_tree (wr := fun r v s => State.writeTree r v s)
    (refused := s.refusesTree row ((s.tree row).withRow v)) (g := (·.withRow v)) h (fun refused u tree barrow => ?_)
    fun stands u tree barrow => ?_
  · exact ⟨_, rfl, (execBuntingTableWrite_keeps (M := 7933964) rfl (Keeps.refl _ s)).frame rfl rfl, wrote⟩
  · exact State.writeTree_refused ((same tree barrow).2 refused)
  · exact State.writeTree_stored (mt (same tree barrow).1 stands)

theorem buntingMembersWrite_effect (h : s.accepts f (askRows kBuntingMembers 128 row [v])) :
    ∃ t, exec (.buntingTableWrite f true row [v]) s = .next t ∧
      s.frame t [.links, .stalls, .trees, .xbar, .repair, .sec, .mgmt, .obs] ∧
      ((s.tree row).phase ≠ .running → (t.tree row).member = BitVec.ofNat 1024 v ∧ ∀ j, j ≠ row → t.tree j = s.tree j) ∧
      ((s.tree row).phase = .running → t.trees = s.trees) := by
  have wrote := State.writeWindow_tree (wr := fun r v s => State.writeMembers r v s) (refused := (s.tree row).phase = .running)
    (g := fun t => { t with member := BitVec.ofNat 1024 v }) h (fun runs u tree _ => ?_) fun idle u tree _ => ?_
  · obtain ⟨stored, refused⟩ := wrote
    exact ⟨_, rfl, (execBuntingTableWrite_keeps (M := 7933964) rfl (Keeps.refl _ s)).frame rfl rfl,
      fun idle => ⟨congrArg Tree.member (stored idle).1, (stored idle).2⟩, refused⟩
  · unfold State.writeMembers
    rw [tree, if_pos runs]
    exact Nat.succ_ne_zero 2
  · unfold State.writeMembers
    rw [tree, if_neg idle]

end

/-! ### BUNT_GO (R232, R233) -/

section
variable {s : State} {n : Nat}

theorem actBuntGo_early (early : s.boot.stage ≠ .ready ∨ (s.tree n).phase ≠ .idle) :
    actBuntGo n s = (s.setReg kBuntResult 1, done 1) := by
  unfold actBuntGo
  exact if_pos early

theorem actBuntGo_invalid (ready : s.boot.stage = .ready) (idle : (s.tree n).phase = .idle) (unused : (s.tree n).valid = false) :
    actBuntGo n s = (s.setReg kBuntResult 3, done 3) := by
  unfold actBuntGo
  rw [if_neg (by simp [ready, idle]), unused]
  rfl

theorem actBuntGo_waits (ready : s.boot.stage = .ready) (idle : (s.tree n).phase = .idle) (used : (s.tree n).valid = true) :
    actBuntGo n s =
      ((s.updTree n fun t => { t with phase := .waiting, fromLaunch := none }).setReg kBuntResult 2, done 2) := by
  unfold actBuntGo
  rw [if_neg (by simp [ready, idle]), used]
  rfl

theorem buntGo_effect {f : Frame} (h : s.accepts f (askWrite kBuntGo 1 n)) :
    ∃ t, exec (.buntGo f n) s = .next t ∧ s.frame t [.dict, .links, .stalls, .trees, .xbar, .repair, .sec, .mgmt, .obs] ∧
      (s.boot.stage = .ready → (s.tree n).phase = .idle → (s.tree n).valid = true →
        (t.tree n).phase = .waiting ∧ t.reg kBuntResult = 2 ∧ ∀ j, j ≠ n → t.tree j = s.tree j) ∧
      (s.boot.stage ≠ .ready ∨ (s.tree n).phase ≠ .idle → t.reg kBuntResult = 1 ∧ t.trees = s.trees) ∧
      (s.boot.stage = .ready → (s.tree n).phase = .idle → (s.tree n).valid = false →
        t.reg kBuntResult = 3 ∧ t.trees = s.trees) := by
  have run := congrArg (Host.Outcome.next (φ := Fault) (ρ := Refusal)) (State.write_accepts actBuntGo h)
  refine ⟨_, run, (execBuntGo_keeps (M := 7933966) rfl (Keeps.refl _ s)).frame run rfl, fun ready idle used => ?_,
    fun early => ?_, fun ready idle unused => ?_⟩
  · rw [actBuntGo_waits ((congrArg BootSt.stage (s.logged_boot f _ _)).trans ready) (by rwa [State.logged_at_tree])
      (by rwa [State.logged_at_tree])]
    refine ⟨?_, ?_, fun j other => ?_⟩
    · rw [State.answered_at_tree, State.setReg_at_tree, State.tree_updTree]
    · rw [State.answered_at_reg, State.reg_setReg]
    · rw [State.answered_at_tree, State.setReg_at_tree, State.tree_updTree_other _ _ other, State.logged_at_tree]
  · rw [actBuntGo_early (by rwa [State.logged_boot, State.logged_at_tree]), State.answered_at_reg, State.reg_setReg,
      State.answered_trees, State.setReg_trees, State.logged_trees]
    exact ⟨rfl, rfl⟩
  · rw [actBuntGo_invalid ((congrArg BootSt.stage (s.logged_boot f _ _)).trans ready) (by rwa [State.logged_at_tree])
      (by rwa [State.logged_at_tree]), State.answered_at_reg, State.reg_setReg, State.answered_trees, State.setReg_trees,
      State.logged_trees]
    exact ⟨rfl, rfl⟩

end

/-! ### A tree takes its place (R234) -/

section
variable (s : State) (t : Tree)

/-- Of the classes of Table 11.2, ABSENT and FENCED go by the stall's state alone. -/
theorem State.buntClass_absent (noData : Bool) (st : Nat) :
    (s.buntClass t noData st == .absent) = ((s.stall st).phase == .free) := by
  unfold State.buntClass
  cases (s.stall st).phase with
  | attached => dsimp only; split_ifs <;> rfl
  | _ => rfl

theorem State.buntClass_fenced (noData : Bool) (st : Nat) : (s.buntClass t noData st == .fenced) =
    ((s.stall st).phase == .fenced || (s.stall st).phase == .detaching) := by
  unfold State.buntClass
  cases (s.stall st).phase with
  | attached => dsimp only; split_ifs <;> rfl
  | _ => rfl

theorem State.attached_of_member {noData : Bool} {st : Nat} (member : s.buntClass t noData st = .member) :
    (s.stall st).phase = .attached := by
  unfold State.buntClass at member
  cases phase : (s.stall st).phase <;> simp [phase] at member ⊢

/-- The stalls of a class, as `State.newOp` counts them. -/
theorem classed_length (set : List Nat) (cls : Nat → BuntClass) (c : BuntClass) :
    ((set.map fun n => (n, cls n)).filter fun p => p.2 == c).length = (set.filter fun n => cls n == c).length := by
  rw [List.filter_map, List.length_map]
  rfl

/-- The stalls that are not FREE are those that are left of all. -/
theorem length_sub_free (set : List Nat) : set.length - (set.filter fun k => (s.stall k).phase == .free).length =
    (set.filter fun k => (s.stall k).phase != .free).length := by
  rw [List.length_eq_length_filter_add fun k => (s.stall k).phase == .free, Nat.add_sub_cancel_left]
  rfl

/-- A new operation counts the set bits by their classes, and has an active member for each ATTACHED stall that may take part. -/
theorem State.newOp_classes :
    let set := (upTo 1024).filter fun k => t.member.getLsbD k
    (s.newOp t).absent = (set.filter fun k => (s.stall k).phase == .free).length ∧
    (s.newOp t).fenced = (set.filter fun k => (s.stall k).phase == .fenced || (s.stall k).phase == .detaching).length ∧
    (s.newOp t).members = (set.filter fun k => (s.stall k).phase != .free).length ∧
    ∀ m ∈ (s.newOp t).mems, m.fate = .active ∧ (s.stall m.stall).phase = .attached := by
  unfold State.newOp
  dsimp only
  generalize (upTo 1024).filter (fun k => t.member.getLsbD k) = set
  simp only [classed_length, State.buntClass_absent, State.buntClass_fenced, length_sub_free, true_and]
  intro m mem
  obtain ⟨p, classed, rfl⟩ := List.mem_map.1 mem
  obtain ⟨listed, member⟩ := List.mem_filter.1 classed
  obtain ⟨n, _, rfl⟩ := List.mem_map.1 listed
  exact ⟨rfl, s.attached_of_member t (beq_iff_eq.1 member)⟩

end

/-- The board once a tree has taken its place and the pointers stand behind it. -/
def State.placed (s : State) (n : Nat) : State :=
  let s1 := s.updTree n fun t => { t with
    phase := .running, opSeq := (t.opSeq + 1) % 2 ^ 32, op := some (s.newOp (s.tree n)) }
  s1.servingSlices.foldl (fun a k => a.updSlice k fun x => { x with treePtr := (n + 1) % 256 }) s1

section
variable (s : State) (n : Nat)

theorem State.placed_at_tree (j : Nat) : (s.placed n).tree j = (s.updTree n fun t => { t with
    phase := .running, opSeq := (t.opSeq + 1) % 2 ^ 32, op := some (s.newOp (s.tree n)) }).tree j :=
  (Keeps.foldl (fun a _ => State.updSlice_keeps (M := 64) rfl (Keeps.refl _ a)) _ (Keeps.refl _ _)).tree rfl j

theorem State.placed_tree : (s.placed n).tree n = { s.tree n with
    phase := .running, opSeq := ((s.tree n).opSeq + 1) % 2 ^ 32, op := some (s.newOp (s.tree n)) } :=
  (s.placed_at_tree n n).trans (s.tree_updTree n _)

theorem State.placed_other {j : Nat} (other : j ≠ n) : (s.placed n).tree j = s.tree j :=
  (s.placed_at_tree n j).trans (s.tree_updTree_other _ other)

end

section
variable {s : State} {n : Nat} (waits : (s.tree n).phase = .waiting) (used : (s.tree n).valid = true)
  (turn : rotate 256 (s.slice s.firstSlice).treePtr (fun k => (s.tree k).phase == .waiting) = some n)
  (place : s.runningTrees < 4)
include waits used turn place

theorem execBuntingStart_placed : exec (.buntingStart n) s = .next ((s.placed n).noticesDue n) := by
  change execBuntingStart n s = _
  unfold execBuntingStart
  dsimp only
  rw [if_neg (by simp [waits, turn]), used, if_neg (by simp), if_neg (Nat.not_le.2 place)]
  rfl

theorem buntingStart_effect :
    ∃ t, exec (.buntingStart n) s = .next t ∧ s.frame t [.slices, .nextTag, .trees, .pushes] ∧ (t.tree n).phase = .running ∧
      (t.tree n).opSeq = ((s.tree n).opSeq + 1) % 2 ^ 32 ∧ (∀ j, j ≠ n → t.tree j = s.tree j) ∧
      ∃ o, (t.tree n).op = some o ∧
        (let set := (upTo 1024).filter fun k => (s.tree n).member.getLsbD k
         o.absent = (set.filter fun k => (s.stall k).phase == .free).length ∧
         o.fenced = (set.filter fun k => (s.stall k).phase == .fenced || (s.stall k).phase == .detaching).length ∧
         o.members = (set.filter fun k => (s.stall k).phase != .free).length ∧
         ∀ m ∈ o.mems, m.fate = .active ∧ (s.stall m.stall).phase = .attached) := by
  have run := execBuntingStart_placed waits used turn place
  have notified := (s.placed n).noticesDue_notified n
  obtain ⟨_, _, tree⟩ := notified.tree
  obtain ⟨mems, op, marked⟩ := notified.op (congrArg Tree.op (s.placed_tree n))
  have classes := s.newOp_classes (s.tree n)
  refine ⟨_, run, (execBuntingStart_keeps (M := 12864) rfl (Keeps.refl _ s)).frame run rfl, ?_, ?_,
    fun j other => (notified.others j other).trans (s.placed_other n other), _, op, ?_⟩
  · rw [tree, s.placed_tree n]
  · rw [tree, s.placed_tree n]
  · dsimp only at classes ⊢
    obtain ⟨absent, fenced, members, attached⟩ := classes
    refine ⟨absent, fenced, members, fun m mem => ?_⟩
    obtain ⟨m', mem', e⟩ := marked m mem
    rw [e]
    exact attached m' mem'

end

/-! ### BUNT_ABORT (R240) -/

section
variable (s : State) (n : Nat)

theorem State.abortTree_other {j : Nat} (other : j ≠ n) : (s.abortTree n).tree j = s.tree j := by
  unfold State.abortTree
  split
  · rfl
  · exact s.tree_updTree_other _ other
  · exact ((State.noticesDue_notified _ n).others j other).trans (s.tree_stopOp_other n .revoked other)

variable {s n}

theorem State.abortTree_idle (idle : (s.tree n).phase = .idle) : s.abortTree n = s := by
  unfold State.abortTree
  rw [idle]

theorem State.abortTree_waiting (waits : (s.tree n).phase = .waiting) :
    s.abortTree n = s.updTree n fun t => { t with phase := .idle, fromLaunch := none } := by
  unfold State.abortTree
  rw [waits]

theorem State.abortTree_running {o : BuntOp} (runs : (s.tree n).phase = .running) (op : (s.tree n).op = some o)
    (goes : o.stop = none) : ∃ u, ((s.abortTree n).tree n).op = some u ∧ u.stop = some .revoked := by
  have stopped : ((s.stopOp n .revoked).tree n).op = some { o with stop := some .revoked } := by
    rw [State.tree_stopOp, op, ← BuntOp.stopped_running goes]
    rfl
  obtain ⟨mems, told, _⟩ := ((s.stopOp n .revoked).noticesDue_notified n).op stopped
  unfold State.abortTree
  rw [runs]
  exact ⟨_, told, rfl⟩

theorem buntAbort_effect {f : Frame} (h : s.accepts f (askWrite kBuntAbort 1 n)) :
    ∃ t, exec (.buntAbort f n) s = .next t ∧ s.frame t [.links, .stalls, .slices, .nextTag, .trees, .pushes, .xbar, .repair,
      .sec, .mgmt, .obs] ∧ (∀ j, j ≠ n → t.tree j = s.tree j) ∧
      ((s.tree n).phase = .waiting → (t.tree n).phase = .idle) ∧
      (∀ o, (s.tree n).phase = .running → (s.tree n).op = some o → o.stop = none →
        ∃ u, (t.tree n).op = some u ∧ u.stop = some .revoked) ∧
      ((s.tree n).phase = .idle → s.frame t [.links, .stalls, .xbar, .repair, .sec, .mgmt, .obs]) := by
  have run : exec (.buntAbort f n) s = .next _ := congrArg Host.Outcome.next (State.write_accepts actBuntAbort h)
  have tree (a : Ans) (j : Nat) := s.logged_at_tree f (askWrite kBuntAbort 1 n) a j
  refine ⟨_, run, (execBuntAbort_keeps (M := 7942732) rfl (Keeps.refl _ s)).frame run rfl, fun j other => ?_,
    fun waits => ?_, fun o runs op goes => ?_, fun idle => ?_⟩
  · exact (State.answered_at_tree _ f _ _ j).trans ((State.abortTree_other _ n other).trans (tree _ j))
  · rw [State.answered_at_tree]
    change ((State.abortTree _ n).tree n).phase = _
    rw [State.abortTree_waiting ((congrArg Tree.phase (tree _ n)).trans waits), State.tree_updTree]
  · rw [State.answered_at_tree]
    exact State.abortTree_running ((congrArg Tree.phase (tree _ n)).trans runs) ((congrArg Tree.op (tree _ n)).trans op) goes
  · change s.frame (State.answered (State.abortTree _ n) f _ _) _
    rw [State.abortTree_idle ((congrArg Tree.phase (tree _ n)).trans idle)]
    exact s.refused_frame f _ _ _

end

/-! ### The record (R241) -/

/-- A stored line raises no event. -/
theorem State.storeLine_head (s : State) (off : Nat) (l : SLine) (level : Nat) :
    (s.storeLine off l level).1.obs.head = s.obs.head := by
  have stored (h : Home) : Keeps 2148270304 s ((((s.snapKeep off).setStored off l).markPage h).markWritten off) :=
    State.markWritten_keeps rfl (State.markPage_keeps rfl (State.setStored_keeps rfl (State.snapKeep_keeps rfl (Keeps.refl _ s))))
  have woken (a : State) (k : Nat) : (a.wakeSlice k).obs.head = a.obs.head := by
    unfold State.wakeSlice
    split <;> rfl
  have queued (a : State) (h : Home) : (a.queueDram h true level).obs.head = a.obs.head := by
    have begun : (if level = 5 then a.wakeSlice h.slice else a).obs.head = a.obs.head := by
      split
      · exact woken a _
      · rfl
    unfold State.queueDram
    extract_lets b
    split
    · exact begun
    · exact begun
  have forwarded (a : State) : (a.forward off l).1.obs.head = a.obs.head := by
    unfold State.forward
    split
    · exact List.foldlRecOn (motive := fun x : State => x.obs.head = a.obs.head) _ _ rfl
        fun x h o _ => (x.halSendOne_head o.hseq).trans h
    · rfl
  refine (forwarded _).trans ((queued _ _).trans ?_)
  exact (congrArg ObsSt.head ((stored (s.home off)).1 .obs rfl : (State.markWritten _ off).obs = s.obs) :)

theorem State.ringWrite_head (s : State) (tenant owner base order seq : Nat) (rec_ : Line) :
    (s.ringWrite tenant owner base order seq rec_).1.obs.head = s.obs.head := by
  unfold State.ringWrite
  dsimp only
  split_ifs
  · rfl
  · rfl
  · exact s.storeLine_head _ _ _
  · rfl

/-- A tree whose operation is over. -/
def Tree.ended (t : Tree) : Tree := { t with phase := .idle, op := none, fromLaunch := none }

/-- The board once a tree's operation is over, from the one in which its record is written. -/
def State.ended (w : State) (n : Nat) : State :=
  let s1 := w.updTree n Tree.ended
  { s1 with pushes := s1.pushes.filter fun p => p.tree != n }

theorem State.ended_tree (w : State) (n : Nat) :
    (w.ended n).tree n = (w.tree n).ended :=
  w.tree_updTree n Tree.ended

theorem State.ended_other (w : State) {n j : Nat} (other : j ≠ n) : (w.ended n).tree j = w.tree j :=
  w.tree_updTree_other Tree.ended other

/-- An operation without an active member ends; BUNT_RESULT and BUNT_DONE are what is left. -/
theorem execBuntingComplete_ends {s : State} {n : Nat} {o : BuntOp} (op : (s.tree n).op = some o)
    (settled : ∀ m ∈ o.mems, m.fate ≠ .active) : ∃ (w : State) (lost : Bool) (detail : Nat) (hosts : List Nat),
    Keeps 2169241828 s w ∧ w.obs.head = s.obs.head ∧
    let e := if (s.tree n).fromLaunch.isNone then (w.ended n).setReg kBuntResult 0 else w.ended n
    exec (.buntingComplete n) s =
      .next (if (s.tree n).notify || lost then e.crier s.firstSlice 0x14 n detail hosts else e) := by
  have inactive : ¬ (o.mems.any fun m => m.fate == .active) = true := fun active => by
    obtain ⟨m, mem, fate⟩ := List.any_eq_true.1 active
    exact settled m mem (beq_iff_eq.1 fate)
  have run : exec (.buntingComplete n) s = execBuntingComplete n s := rfl
  unfold execBuntingComplete at run
  dsimp only at run
  rw [op] at run
  dsimp only at run
  rw [if_neg inactive] at run
  exact ⟨_, _, _, _, State.ringWrite_keeps rfl (Keeps.refl _ s), s.ringWrite_head _ _ _ _ _ _, run⟩

theorem buntingComplete_effect {s : State} {n : Nat} {o : BuntOp} (op : (s.tree n).op = some o)
    (settled : ∀ m ∈ o.mems, m.fate ≠ .active) :
    ∃ t, exec (.buntingComplete n) s = .next t ∧ s.frame t [.dict, .links, .stalls, .pitch, .slices, .chans, .nextTag,
      .trees, .pushes, .pair, .repair, .repairFace, .obs, .clock] ∧ (t.tree n).phase = .idle ∧ (t.tree n).op = none ∧
      (t.tree n).opSeq = (s.tree n).opSeq ∧ (∀ p ∈ t.pushes, p.tree ≠ n) ∧ (∀ j, j ≠ n → t.tree j = s.tree j) ∧
      ((s.tree n).fromLaunch = none → t.reg kBuntResult = 0) ∧
      ((s.tree n).notify = true → s.obs.head < t.obs.head) := by
  obtain ⟨w, lost, detail, hosts, kept, head, run⟩ := execBuntingComplete_ends op settled
  refine ⟨_, run, (execBuntingComplete_keeps (M := 2169254638) rfl (Keeps.refl _ s)).frame run rfl, ?_⟩
  generalize written : (if (s.tree n).fromLaunch.isNone then (w.ended n).setReg kBuntResult 0 else w.ended n) = e
  have reg (fresh : (s.tree n).fromLaunch = none) : e.reg kBuntResult = 0 := by
    rw [← written, fresh]
    exact State.reg_setReg _ _ _
  obtain ⟨trees, pushes, obs⟩ : e.trees = (w.ended n).trees ∧ e.pushes = (w.ended n).pushes ∧ e.obs = w.obs := by
    rw [← written]
    split <;> exact ⟨rfl, rfl, rfl⟩
  have raised : ∀ t, t = (if (s.tree n).notify || lost then e.crier s.firstSlice 0x14 n detail hosts else e) →
      t.trees = e.trees ∧ t.pushes = e.pushes ∧ t.dict = e.dict ∧ ((s.tree n).notify = true → t.obs.head = e.obs.head + 1) := by
    rintro t rfl
    split
    · exact ⟨State.crier_at_trees, State.crier_at_pushes, State.crier_at_dict, fun _ => State.crier_head _ _ _ _ _ _⟩
    · next quiet => exact ⟨rfl, rfl, rfl, fun notify => absurd (by rw [notify]; rfl) quiet⟩
  generalize (if (s.tree n).notify || lost then e.crier s.firstSlice 0x14 n detail hosts else e) = t at raised ⊢
  obtain ⟨ttrees, tpushes, tdict, told⟩ := raised t rfl
  have tree (j : Nat) : t.tree j = (w.ended n).tree j := congrArg (fun x : Tbl Tree => x.get {} j) (ttrees.trans trees)
  have own : t.tree n = (s.tree n).ended := by
    rw [tree, w.ended_tree, kept.tree rfl n]
  rw [own]
  refine ⟨rfl, rfl, rfl, fun p mem => ?_, fun j other => ?_, fun fresh => ?_, fun notify => ?_⟩
  · rw [tpushes, pushes] at mem
    exact bne_iff_ne.1 (List.mem_filter.1 mem).2
  · rw [tree, w.ended_other other, kept.tree rfl j]
  · exact (congrArg (fun d : Tbl Nat => d.get (dfltOf kBuntResult) kBuntResult) tdict).trans (reg fresh)
  · rw [told notify, obs, head]
    exact Nat.lt_succ_self _

/-- Settles O39, a lemma for each command, and two for the rows of the two tables. -/
theorem treesStartAndComplete : Obligations.TreesStartAndComplete := by
  unfold Obligations.TreesStartAndComplete
  exact ⟨fun _ _ _ _ => buntingTableWrite_effect, fun _ _ _ _ => buntingMembersWrite_effect, fun _ _ _ => buntGo_effect,
    fun _ _ => buntingStart_effect, fun _ _ _ => buntAbort_effect, fun _ _ _ => buntingComplete_effect⟩

end Sys2Proof.Machine
end

section
/-! SUPPORT. The PUSHes of a bunting operation (11 R235 to R238): pages and their copies, the answers of the members, and catch-up. -/

namespace Sys2Proof.Machine

/-! ### PUSHes that are given up -/

section
variable (s : State) (f : Push → Bool)

theorem State.dropPushes_pushes : (s.dropPushes f).pushes =
    s.pushes.filter fun p => !((s.pushes.filter f).map (·.tag)).contains p.tag :=
  (State.dropPackets_keeps (M := 65600) rfl (Keeps.refl _ _)).1 .pushes rfl

theorem State.dropPushes_tree (n : Nat) : (s.dropPushes f).tree n = s.tree n :=
  (State.dropPushes_keeps (M := 73792) rfl (Keeps.refl _ s)).tree rfl n

variable {s f}

/-- A PUSH that is given up takes its tag along. -/
theorem State.tag_ne_of_dropped {p q : Push} (mem : p ∈ s.pushes) (dropped : f p = true) (left : q ∈ (s.dropPushes f).pushes) :
    q.tag ≠ p.tag := by
  intro same
  rw [State.dropPushes_pushes] at left
  have gone : ((s.pushes.filter f).map (·.tag)).contains q.tag = true :=
    List.contains_iff_mem.2 (same ▸ List.mem_map_of_mem (List.mem_filter.2 ⟨mem, dropped⟩))
  have kept : (!((s.pushes.filter f).map (·.tag)).contains q.tag) = true := (List.mem_filter.1 left).2
  rw [gone] at kept
  exact Bool.noConfusion kept

theorem State.not_dropped {q : Push} (left : q ∈ (s.dropPushes f).pushes) : f q ≠ true := fun dropped =>
  State.tag_ne_of_dropped (List.mem_filter.1 (s.dropPushes_pushes f ▸ left)).1 dropped left rfl

end

/-! ### A member fails (R236) -/

/-- A stall's members after a change of them are changed members. -/
theorem BuntOp.mem_mapMems_ofStall {o : BuntOp} {st : Nat} {f : BuntMem → BuntMem} {m : BuntMem}
    (mem : m ∈ (o.mapMems (BuntMem.ofStall st f)).mems) (own : m.stall = st) : ∃ m' ∈ o.mems, m = f m' := by
  obtain ⟨m', mem', rfl⟩ := List.mem_map.1 mem
  by_cases same : m'.stall = st
  · exact ⟨m', mem', BuntMem.ofStall_same f same⟩
  · rw [BuntMem.ofStall_other f same] at own
    exact absurd own same

theorem State.failMember_effect {s : State} {n st : Nat} {o : BuntOp} (status : Status) (op : (s.tree n).op = some o) :
    ∃ u, ((s.failMember n st status).tree n).op = some u ∧ u.failedCount = o.failedCount + 1 ∧
      (∀ m ∈ u.mems, m.stall = st → m.fate = .failed status) ∧
      ∀ q ∈ (s.failMember n st status).pushes, ¬ (q.tree = n ∧ q.stall = st) := by
  unfold State.failMember
  rw [State.dropPushes_tree, State.tree_updOp, State.tree_updMem, op]
  refine ⟨_, rfl, rfl, fun m mem own => ?_, fun q left both => State.not_dropped left ?_⟩
  · obtain ⟨_, _, e⟩ := BuntOp.mem_mapMems_ofStall (o := o) mem own
    rw [e]
  · rw [Bool.and_eq_true, beq_iff_eq, beq_iff_eq]
    exact both

theorem buntTimeoutExpiry_effect {s : State} {tag : Nat} {p : Push} {o : BuntOp}
    (out : s.pushes.find? (fun q => q.tag == tag && q.sent) = some p) (op : (s.tree p.tree).op = some o) :
    ∃ t, exec (.buntTimeoutExpiry tag) s = .next t ∧ s.frame t [.slices, .trees, .pushes, .xbar] ∧
      (∀ q ∈ t.pushes, ¬ (q.tree = p.tree ∧ q.stall = p.stall)) ∧
      ∃ u, (t.tree p.tree).op = some u ∧ u.failedCount = o.failedCount + 1 ∧
        ∀ m ∈ u.mems, m.stall = p.stall → m.fate = .failed .timeout := by
  have run : exec (.buntTimeoutExpiry tag) s = .next (s.failMember p.tree p.stall .timeout) := by
    change execBuntTimeoutExpiry tag s = _
    unfold execBuntTimeoutExpiry
    rw [out]
  obtain ⟨u, failed, count, fates, gone⟩ := State.failMember_effect (st := p.stall) .timeout op
  exact ⟨_, run, (execBuntTimeoutExpiry_keeps (M := 77888) rfl (Keeps.refl _ s)).frame run rfl, gone, u, failed, count, fates⟩

/-! ### The answers of the members (R236, R237) -/

/-- The board once the PUSHes of a tag are answered OK. -/
def State.answeredPush (s : State) (tag : Nat) : State := { s with pushes := s.pushes.filter fun q => q.tag != tag }

section
variable {s : State} {h : HostResp} {p : Push} (named : s.pushOf h = some p)
include named

theorem execPushResponse_copied (ok : Status.ofCode h.status = .ok) (data : p.page.isSome = true) :
    exec (.pushResponse h) s = .next (((s.answeredPush p.tag).updMem p.tree p.stall fun m =>
      { m with poison := m.poison + p.poison }).noticeIfDue p.tree p.stall) := by
  change execPushResponse h s = _
  unfold execPushResponse
  rw [named]
  dsimp only
  rw [ok]
  exact congrArg Host.Outcome.next (if_pos data)

theorem execPushResponse_delivered (ok : Status.ofCode h.status = .ok) (notice : p.page = none) :
    exec (.pushResponse h) s = .next ((s.answeredPush p.tag).updMem p.tree p.stall fun m => { m with fate := .delivered }) := by
  change execPushResponse h s = _
  unfold execPushResponse
  rw [named]
  dsimp only
  rw [ok, notice]
  rfl

theorem execPushResponse_busy (busy : Status.ofCode h.status = .retryBusy) :
    exec (.pushResponse h) s = .next { s with
      pushes := s.pushes.map fun (q : Push) => if q.tag == p.tag then { q with waiting := true } else q } := by
  change execPushResponse h s = _
  unfold execPushResponse
  rw [named]
  dsimp only
  rw [busy]

theorem execPushResponse_failed (ok : Status.ofCode h.status ≠ .ok) (busy : Status.ofCode h.status ≠ .retryBusy) :
    exec (.pushResponse h) s = .next (s.failMember p.tree p.stall (Status.ofCode h.status)) := by
  change execPushResponse h s = _
  unfold execPushResponse
  rw [named]
  dsimp only
  split
  · next q => exact absurd q ok
  · next q => exact absurd q busy
  · rfl

theorem pushResponse_effect {o : BuntOp} (op : (s.tree p.tree).op = some o) :
    ∃ t, exec (.pushResponse h) s = .next t ∧ s.frame t [.slices, .nextTag, .trees, .pushes, .xbar] ∧
      ∃ u, (t.tree p.tree).op = some u ∧
        (Status.ofCode h.status = .ok → p.page.isSome = true → ∀ q ∈ t.pushes, q.tag = p.tag → q.page = none) ∧
        (Status.ofCode h.status = .ok → p.page = none →
          (∀ q ∈ t.pushes, q.tag ≠ p.tag) ∧ ∀ m ∈ u.mems, m.stall = p.stall → m.fate = .delivered) ∧
        (Status.ofCode h.status = .retryBusy → (∀ q ∈ t.pushes, q.tag = p.tag → q.waiting = true) ∧
          t.pushes.length = s.pushes.length ∧ u = o) ∧
        (Status.ofCode h.status ≠ .ok → Status.ofCode h.status ≠ .retryBusy →
          u.failedCount = o.failedCount + 1 ∧ (∀ m ∈ u.mems, m.stall = p.stall → m.fate = .failed (Status.ofCode
            h.status)) ∧
          ∀ q ∈ t.pushes, ¬ (q.tree = p.tree ∧ q.stall = p.stall)) := by
  have frame := execPushResponse_keeps (M := 78400) (a1 := h) rfl (Keeps.refl _ s)
  have answered {q : Push} (mem : q ∈ (s.answeredPush p.tag).pushes) : q.tag ≠ p.tag := bne_iff_ne.1 (List.mem_filter.1 mem).2
  have changed (f : BuntMem → BuntMem) : (((s.answeredPush p.tag).updMem p.tree p.stall f).tree p.tree).op =
      some (o.mapMems (BuntMem.ofStall p.stall f)) := by
    rw [State.tree_updMem]
    change (s.tree p.tree).op.map _ = _
    rw [op]
    rfl
  by_cases ok : Status.ofCode h.status = .ok
  · cases page : p.page with
    | some off =>
      have run := execPushResponse_copied named ok (by rw [page]; rfl)
      have told := State.noticeIfDue_notified ((s.answeredPush p.tag).updMem p.tree p.stall fun m =>
        { m with poison := m.poison + p.poison }) p.tree p.stall
      obtain ⟨mems, u, _⟩ := told.op (changed _)
      refine ⟨_, run, frame.frame run rfl, _, u, fun _ _ q mem tag => told.page_none mem fun old => answered old tag,
        fun _ none => absurd none (Option.some_ne_none off), fun busy => ?_, fun no => absurd ok no⟩
      exact Status.noConfusion (ok.symm.trans busy)
    | none =>
      have run := execPushResponse_delivered named ok page
      refine ⟨_, run, frame.frame run rfl, _, changed _, fun _ data => Bool.noConfusion data,
        fun _ _ => ⟨fun q mem => answered mem, fun m mem own => ?_⟩, fun busy => ?_, fun no => absurd ok no⟩
      · obtain ⟨_, _, e⟩ := BuntOp.mem_mapMems_ofStall mem own
        rw [e]
      · exact Status.noConfusion (ok.symm.trans busy)
  · by_cases busy : Status.ofCode h.status = .retryBusy
    · have run := execPushResponse_busy named busy
      refine ⟨_, run, frame.frame run rfl, o, op, fun yes => absurd yes ok, fun yes => absurd yes ok,
        fun _ => ⟨fun q mem tag => ?_, List.length_map _, rfl⟩, fun _ no => absurd busy no⟩
      obtain ⟨q', _, rfl⟩ := List.mem_map.1 mem
      by_cases same : q'.tag = p.tag
      · rw [if_pos (beq_iff_eq.2 same)]
      · rw [if_neg (mt beq_iff_eq.1 same)] at tag
        exact absurd tag same
    · have run := execPushResponse_failed named ok busy
      obtain ⟨u, failed, count, fates, gone⟩ := State.failMember_effect (st := p.stall) (Status.ofCode h.status) op
      exact ⟨_, run, frame.frame run rfl, u, failed, fun yes => absurd yes ok, fun yes => absurd yes ok,
        fun yes => absurd yes busy, fun _ _ => ⟨count, fates, gone⟩⟩

end

theorem pushRetry_effect {s : State} {tag : Nat} {p : Push}
    (waits : s.pushes.find? (fun q => q.tag == tag && q.waiting) = some p) :
    ∃ t, exec (.pushRetry tag) s = .next t ∧ s.frame t [.slices, .pushes] ∧
      (∀ q ∈ t.pushes, q.tag = tag → q.waiting = false) ∧
      ∃ e ∈ (t.slice p.slice).egress, e.stall = p.stall ∧ e.origin = .push p.tag ∧ e.msg = .req p.req := by
  have run : exec (.pushRetry tag) s = .next (State.queuePush { s with
      pushes := s.pushes.map fun (q : Push) => if q.tag == tag then { q with waiting := false } else q } p) := by
    change execPushRetry tag s = _
    unfold execPushRetry
    rw [waits]
  refine ⟨_, run, (execPushRetry_keeps (M := 8256) rfl (Keeps.refl _ s)).frame run rfl, fun q mem own => ?_,
    { stall := p.stall, tc := (s.tree p.tree).tc, origin := .push p.tag, msg := .req p.req }, ?_, rfl, rfl, rfl⟩
  · have kept := (State.queuePush_keeps (M := 64) (a1 := p) rfl (Keeps.refl _ { s with
      pushes := s.pushes.map fun (q : Push) => if q.tag == tag then { q with waiting := false } else q })).1 .pushes rfl
    rw [kept] at mem
    obtain ⟨q', _, rfl⟩ := List.mem_map.1 mem
    by_cases same : q'.tag = tag
    · rw [if_pos (beq_iff_eq.2 same)]
    · rw [if_neg (mt beq_iff_eq.1 same)] at own
      exact absurd own same
  · unfold State.queuePush
    rw [(State.egressPush_slice _ _ _).1]
    exact List.mem_append_right _ (List.mem_singleton.2 rfl)

/-! ### Copies that cannot leave (R238) -/

/-- A copy of one of tree `n`'s pages for a stall that has not left the slice. -/
def heldCopy (n k st : Nat) (p : Push) : Bool :=
  p.tree == n && (p.slice == k && (p.stall == st && (p.page.isSome && !p.sent)))

/-- The pages of those copies, by slice. -/
def State.heldPages (s : State) (n k st : Nat) : List (Nat × Nat) :=
  (s.pushes.filter (heldCopy n k st)).filterMap fun p => p.page.map fun off => (k, off)

theorem execCatchupWaitExpiry_eq (s : State) (n k st : Nat) : exec (.catchupWaitExpiry n k st) s =
    .next ((s.dropPushes (heldCopy n k st)).updMem n st fun m => { m with missed := m.missed ++ s.heldPages n k st }) := rfl

theorem catchupWaitExpiry_effect {s : State} {n k st : Nat} {o : BuntOp} (op : (s.tree n).op = some o) :
    ∃ t, exec (.catchupWaitExpiry n k st) s = .next t ∧ s.frame t [.slices, .trees, .pushes, .xbar] ∧
      ∃ u, (t.tree n).op = some u ∧
        ∀ p ∈ s.pushes, ∀ off, p.tree = n → p.slice = k → p.stall = st → p.page = some off → p.sent = false →
          (∀ q ∈ t.pushes, q.tag ≠ p.tag) ∧ ∀ m ∈ u.mems, m.stall = st → (k, off) ∈ m.missed := by
  have run := execCatchupWaitExpiry_eq s n k st
  refine ⟨_, run, (execCatchupWaitExpiry_keeps (M := 77888) rfl (Keeps.refl _ s)).frame run rfl, ?_⟩
  rw [State.tree_updMem, State.dropPushes_tree, op]
  refine ⟨_, rfl, fun p mem off tree slice stall page unsent => ?_⟩
  have held : heldCopy n k st p = true := by simp [heldCopy, tree, slice, stall, page, unsent]
  refine ⟨fun q left => State.tag_ne_of_dropped mem held (State.updMem_pushes _ n st _ ▸ left), fun m mine own => ?_⟩
  obtain ⟨_, _, e⟩ := BuntOp.mem_mapMems_ofStall mine own
  rw [e]
  refine List.mem_append_right _ (List.mem_filterMap.2 ⟨p, List.mem_filter.2 ⟨mem, held⟩, ?_⟩)
  rw [page]
  rfl

/-! ### A page is read (R235) -/

/-- One line of a page. -/
def State.readPageLine (off : Nat) (a : State × List Line × Nat) (i : Nat) : State × List Line × Nat :=
  let r := a.1.readPlain (off + 64 * i) (a.1.slotOf (off + 64 * i)) 0xFFF 5
  (r.1, a.2.1 ++ [if r.2.1 = .ok then r.2.2 else 0], a.2.2 + b2n (r.2.1 != .ok))

theorem State.readPage_eq (s : State) (off n : Nat) : s.readPage off n = (upTo n).foldl (State.readPageLine off) (s, [], 0) := rfl

theorem State.readPage_length (s : State) (off n : Nat) : (s.readPage off n).2.1.length = n := by
  have read (l : List Nat) (a : State × List Line × Nat) :
      (l.foldl (State.readPageLine off) a).2.1.length = a.2.1.length + l.length := by
    induction l generalizing a with
    | nil => rfl
    | cons i l ih =>
      rw [List.foldl_cons, ih, State.readPageLine, List.length_append, List.length_singleton, List.length_cons]
      omega
  rw [State.readPage_eq, read, upTo, List.length_range]
  exact Nat.zero_add n

/-- Reading a page keeps every home, whatever lines it corrects. -/
theorem Stores.readPage (s : State) (off n : Nat) : Stores (fun _ _ => True) s (s.readPage off n).1 :=
  List.foldlRecOn (motive := fun a : State × List Line × Nat => Stores (fun _ _ => True) s a.1) _ _ (Stores.refl _ s)
    fun a h i _ => h.trans ((Stores.readPlain a.1 (off + 64 * i) _ _ _).mono fun _ _ _ => trivial)

/-- A slice reads lines of a page of tree `n`'s source. -/
def State.pageRead (s : State) (n k off lines : Nat) : State × List Line × Nat :=
  ((s.count .key (s.slotOf off) 0).pipePush k 5 (4096 + n) 0).readPage off lines

theorem State.pageRead_keeps (s : State) (n k off lines : Nat) : Keeps 2168979656 s (s.pageRead n k off lines).1 :=
  State.readPage_keeps rfl (State.pipePush_keeps rfl (State.count_keeps rfl (Keeps.refl _ s)))

theorem Stores.pageRead (s : State) (n k off lines : Nat) : Stores (fun _ _ => True) s (s.pageRead n k off lines).1 :=
  ((Stores.count s _ _ _ _).trans (Stores.pipePush _ _ _ _ _)).of_noLine.trans (Stores.readPage _ _ _)

/-! ### A page goes to the members (R235, R240) -/

/-- From `s` to `t` tree `n`'s operation changes in its members alone, and no PUSH that is out is given up. -/
structure Copied (n : Nat) (s t : State) : Prop where
  op : ∀ o, (s.tree n).op = some o → ∃ mems, (t.tree n).op = some { o with mems := mems }
  pushes : s.pushes ⊆ t.pushes

theorem Copied.refl (n : Nat) (s : State) : Copied n s s := ⟨fun o op => ⟨o.mems, op⟩, List.Subset.refl _⟩

theorem Copied.trans {n : Nat} {s t u : State} (h : Copied n s t) (k : Copied n t u) : Copied n s u where
  op o op := by
    obtain ⟨mems, op'⟩ := h.op o op
    exact k.op { o with mems := mems } op'
  pushes := List.Subset.trans h.pushes k.pushes

theorem Notified.copied {n : Nat} {s t : State} (h : Notified n s t) : Copied n s t where
  op o op := by
    obtain ⟨mems, op', _⟩ := h.op op
    exact ⟨mems, op'⟩
  pushes _ := h.keepsPush

/-- A page goes to a member, or is one more that it misses there. -/
def State.pageTo (n k off addr : Nat) (r : List Line × Nat) (a : State) (m : BuntMem) : State :=
  if m.missed.any (fun p => p.1 == k) then a.updMem n m.stall fun m => { m with missed := m.missed ++ [(k, off)] }
  else a.sendPush n k m.stall (some off) addr 0 r.2 r.1

section
variable (n k off addr : Nat) (r : List Line × Nat)

theorem State.pageTo_copied (a : State) (m : BuntMem) : Copied n a (State.pageTo n k off addr r a m) := by
  unfold State.pageTo
  split
  · exact ⟨fun o op => ⟨_, by rw [State.tree_updMem, op]; rfl⟩, List.Subset.refl _⟩
  · refine ⟨fun o op => ⟨o.mems, by rw [State.sendPush_tree, op]⟩, ?_⟩
    rw [State.sendPush_pushes]
    exact List.subset_append_left _ _

theorem State.pagesTo_copied (l : List BuntMem) (a : State) : Copied n a (l.foldl (State.pageTo n k off addr r) a) :=
  List.foldlRecOn (motive := Copied n a) _ _ (Copied.refl n a) fun b h m _ => h.trans (b.pageTo_copied n k off addr r m)

/-- A member that has missed no page of the slice is sent this one. -/
theorem State.pagesTo_sends (l : List BuntMem) (a : State) {m : BuntMem} (mem : m ∈ l) (current : ∀ q ∈ m.missed, q.1 ≠ k) :
    ∃ b : State, b.newPush n k m.stall (some off) addr 0 r.2 r.1 ∈ (l.foldl (State.pageTo n k off addr r) a).pushes := by
  have none_missed : ¬ m.missed.any (fun p => p.1 == k) = true := fun missed => by
    obtain ⟨q, here, slice⟩ := List.any_eq_true.1 missed
    exact current q here (beq_iff_eq.1 slice)
  obtain ⟨before, after, rfl⟩ := List.append_of_mem mem
  refine ⟨before.foldl (State.pageTo n k off addr r) a, ?_⟩
  rw [List.foldl_append, List.foldl_cons]
  refine (State.pagesTo_copied n k off addr r after _).pushes ?_
  rw [State.pageTo, if_neg none_missed, State.sendPush_pushes]
  exact List.mem_append_right _ (List.mem_singleton.2 rfl)

end

/-- The board once a slice has read a page of its main pass. -/
def State.pageCounted (s : State) (n k off lines : Nat) : State :=
  (s.pageRead n k off lines).1.updOp n fun o => { o with
    pages := o.pages.set 0 k (o.pages.get 0 k + 1), poison := o.poison + (s.pageRead n k off lines).2.2 }

/-- The page counts as read, and nothing stops the operation. -/
theorem State.pageCounted_op {s : State} {n : Nat} {o : BuntOp} (k off lines : Nat) (op : (s.tree n).op = some o) :
    ∃ c, ((s.pageCounted n k off lines).tree n).op = some c ∧ c.stop = o.stop ∧ c.pages.get 0 k = o.pages.get 0 k + 1 := by
  rw [State.pageCounted, State.tree_updOp, (s.pageRead_keeps n k off lines).tree rfl, op]
  refine ⟨_, rfl, rfl, ?_⟩
  exact Tbl.get_set_same o.pages 0 k (o.pages.get 0 k + 1)

section
variable {s : State} {n k off lines : Nat} {o : BuntOp} (op : (s.tree n).op = some o) (goes : o.stop = none)
  (room : s.pagesHeld k < 16) (page : (s.buntPages (s.tree n) k)[o.pages.get 0 k]? = some (off, lines))
include op goes room page

theorem execBuntingPageSend_stops (refused : s.pageStatus (s.tree n) off lines ≠ .ok) :
    exec (.buntingPageSend n k) s = .next ((s.stopOp n (s.pageStatus (s.tree n) off lines)).noticesDue n) := by
  change execBuntingPageSend n k s = _
  unfold execBuntingPageSend
  dsimp only
  rw [op]
  dsimp only
  rw [goes, if_neg (by simp), if_neg (Nat.not_le.2 room), page]
  exact congrArg Host.Outcome.next (if_pos refused)

theorem execBuntingPageSend_sends (may : s.pageStatus (s.tree n) off lines = .ok) : exec (.buntingPageSend n k) s =
    .next (((o.mems.filter fun m => m.fate == .active).foldl
      (State.pageTo n k off ((s.tree n).dest + (off - bits (s.tree n).src 0 44)) (s.pageRead n k off lines).2)
      (s.pageCounted n k off lines)).noticesDue n) := by
  change execBuntingPageSend n k s = _
  unfold execBuntingPageSend
  dsimp only
  rw [op]
  dsimp only
  rw [goes, if_neg (by simp), if_neg (Nat.not_le.2 room), page]
  exact congrArg Host.Outcome.next (if_neg (not_not.2 may))

theorem buntingPageSend_effect :
    ∃ t, exec (.buntingPageSend n k) s = .next t ∧ s.frame t [.stalls, .slices, .chans, .nextTag, .trees, .pushes,
      .repair, .repairFace, .obs, .clock] ∧
      ∃ u, (t.tree n).op = some u ∧
        (let st := s.operandStatus (s.tree n).tenant 0 false .source (s.board * 2 ^ 44 + off) (64 * lines)
         (st = .ok → u.stop = none ∧ u.pages.get 0 k = o.pages.get 0 k + 1 ∧
           ∀ m ∈ o.mems, m.fate = .active → (∀ q ∈ m.missed, q.1 ≠ k) →
             ∃ p ∈ t.pushes, p.tree = n ∧ p.slice = k ∧ p.stall = m.stall ∧ p.page = some off ∧ p.waiting = false ∧
               p.sent = false ∧ p.req.opcode = 0x38 ∧ p.req.len = lines ∧
               p.req.addr = ((s.tree n).dest + (off - bits (s.tree n).src 0 44)) % 2 ^ 52) ∧
         (st ≠ .ok → u.stop = some st ∧ u.pages = o.pages)) := by
  have frame := execBuntingPageSend_keeps (M := 2168992456) (a1 := n) (a2 := k) rfl (Keeps.refl _ s)
  by_cases may : s.pageStatus (s.tree n) off lines = .ok
  · have run := execBuntingPageSend_sends op goes room page may
    obtain ⟨c, counted, stop, pages⟩ := State.pageCounted_op (n := n) k off lines op
    have told (b : State) : Copied n b (b.noticesDue n) := (b.noticesDue_notified n).copied
    obtain ⟨mems, u⟩ := ((State.pagesTo_copied n k off _ _ _ _).trans (told _)).op _ counted
    refine ⟨_, run, frame.frame run rfl, _, u, fun _ => ⟨stop.trans goes, pages, fun m mem active current => ?_⟩,
      fun no => absurd may no⟩
    obtain ⟨b, sent⟩ := State.pagesTo_sends n k off ((s.tree n).dest + (off - bits (s.tree n).src 0 44))
      (s.pageRead n k off lines).2 (o.mems.filter fun m => m.fate == .active) (s.pageCounted n k off lines)
      (List.mem_filter.2 ⟨mem, beq_iff_eq.2 active⟩) current
    exact ⟨_, (told _).pushes sent, rfl, rfl, rfl, rfl, rfl, rfl, rfl, State.readPage_length _ _ _, rfl⟩
  · have run := execBuntingPageSend_stops op goes room page may
    have stopped : ((s.stopOp n (s.pageStatus (s.tree n) off lines)).tree n).op =
        some { o with stop := some (s.pageStatus (s.tree n) off lines) } := by
      rw [State.tree_stopOp, op, ← BuntOp.stopped_running goes]
      rfl
    obtain ⟨mems, u, _⟩ := (State.noticesDue_notified _ n).op stopped
    exact ⟨_, run, frame.frame run rfl, _, u, fun yes => absurd yes may, fun _ => ⟨rfl, rfl⟩⟩

end

end Sys2Proof.Machine
end

section
/-! SUPPORT. The catch-up pass of a bunting operation (11 R238): one missed page after another, while the source may be read and the
replication point has room. -/

namespace Sys2Proof.Machine

/-! ### What the checks of a source go by (R166) -/

/-- From `s` to `t` nothing changes that says whether tree `n`'s source may be read: its entry, the pitches, the keys, the board number and
the folds. -/
structure SourceKept (n : Nat) (s t : State) : Prop where
  tree : ∃ op, t.tree n = { s.tree n with op := op }
  pitch : t.pitch = s.pitch
  sec : t.sec = s.sec
  dict : t.dict = s.dict
  foldSlice : t.repair.foldSlice = s.repair.foldSlice
  foldChannel : t.repair.foldChannel = s.repair.foldChannel

theorem SourceKept.refl (n : Nat) (s : State) : SourceKept n s s := ⟨⟨_, rfl⟩, rfl, rfl, rfl, rfl, rfl⟩

theorem SourceKept.trans {n : Nat} {s t u : State} (h : SourceKept n s t) (k : SourceKept n t u) : SourceKept n s u := by
  obtain ⟨_, ht⟩ := h.tree
  obtain ⟨op, hu⟩ := k.tree
  exact ⟨⟨op, by rw [hu, ht]⟩, k.pitch.trans h.pitch, k.sec.trans h.sec, k.dict.trans h.dict, k.foldSlice.trans h.foldSlice,
    k.foldChannel.trans h.foldChannel⟩

/-- The status of the page at `off` of tree `n`'s source, as catch-up is about to read it. -/
def State.owedStatus (s : State) (n off : Nat) : Status := s.pageStatus (s.tree n) off ((s.tree n).pageLines off)

theorem SourceKept.owedStatus {n : Nat} {s t : State} (h : SourceKept n s t) (off : Nat) :
    t.owedStatus n off = s.owedStatus n off := by
  obtain ⟨_, tree⟩ := h.tree
  have reach : t.reach = s.reach := by
    unfold State.reach
    rw [h.pitch, h.foldSlice, h.foldChannel]
  have granule (g : Nat) : t.granule g = s.granule g := by rw [State.granule, State.granule, h.pitch]
  have revoke : t.revoke = s.revoke := funext fun r => by rw [State.revoke, State.revoke, h.pitch]
  have revoked (e : PitchEntry) : t.revoked e = s.revoked e := by
    rw [State.revoked, State.revoked, State.revokeEntries, State.revokeEntries, revoke]
  have key (k : Nat) : t.key k = s.key k := by rw [State.key, State.key, h.sec]
  have board : t.board = s.board := by rw [State.board, State.board, State.reg, State.reg, h.dict]
  have operand : t.operandGranule (s.tree n).tenant 0 false .source = s.operandGranule (s.tree n).tenant 0 false .source := by
    funext g
    simp only [State.operandGranule, reach, granule, revoked, key, h.pitch]
  unfold State.owedStatus State.pageStatus State.operandStatus
  rw [tree, board, operand]
  rfl

/-! ### One missed page -/

/-- A PUSH is a copy of a page for a member that has not left the slice. -/
def Push.copyFor (p : Push) (n k st off : Nat) : Prop :=
  p.tree = n ∧ p.slice = k ∧ p.stall = st ∧ p.page = some off ∧ p.sent = false

section
variable (s : State) (n k st off : Nat)

/-- The board once a missed page is read again and counted. -/
def State.pageReread : State :=
  (s.pageRead n k off ((s.tree n).pageLines off)).1.updOp n fun o => { o with catchup := o.catchup + 1 }

theorem State.resendPage_eq : s.resendPage n k st off = (s.pageReread n k off).sendPush n k st (some off)
    ((s.tree n).dest + (off - bits (s.tree n).src 0 44)) 0 (s.pageRead n k off ((s.tree n).pageLines off)).2.2
    (s.pageRead n k off ((s.tree n).pageLines off)).2.1 := rfl

theorem State.resendPage_tree : (s.resendPage n k st off).tree n =
    { s.tree n with op := (s.tree n).op.map fun o => { o with catchup := o.catchup + 1 } } := by
  rw [State.resendPage_eq, State.sendPush_tree, State.pageReread, State.tree_updOp, (s.pageRead_keeps n k off _).tree rfl]

theorem State.resendPage_pushes : ∃ p : Push, (s.resendPage n k st off).pushes = s.pushes ++ [p] ∧ p.copyFor n k st off := by
  have kept : (s.pageReread n k off).pushes = s.pushes := (s.pageRead_keeps n k off _).1 .pushes rfl
  rw [State.resendPage_eq, State.sendPush_pushes, kept]
  exact ⟨_, rfl, rfl, rfl, rfl, rfl, rfl⟩

theorem State.resendPage_source : SourceKept n s (s.resendPage n k st off) := by
  have read := s.pageRead_keeps n k off ((s.tree n).pageLines off)
  have homes := Stores.pageRead s n k off ((s.tree n).pageLines off)
  have sent : Keeps 12864 (s.pageRead n k off ((s.tree n).pageLines off)).1 (s.resendPage n k st off) :=
    State.sendPush_keeps rfl (State.updOp_keeps rfl (Keeps.refl _ _))
  have repair := sent.1 .repair rfl
  exact ⟨⟨_, s.resendPage_tree n k st off⟩, (sent.1 .pitch rfl).trans (read.1 .pitch rfl),
    (sent.1 .sec rfl).trans (read.1 .sec rfl), (sent.1 .dict rfl).trans (read.1 .dict rfl),
    (congrArg RepairSt.foldSlice repair).trans homes.foldSlice, (congrArg RepairSt.foldChannel repair).trans homes.foldChannel⟩

/-- The board once a member no longer misses a page. -/
def State.forgiven : State := s.updMem n st fun m => { m with missed := m.missed.erase (k, off) }

theorem State.forgiven_source : SourceKept n s (s.forgiven n k st off) :=
  ⟨⟨_, s.tree_updMem n st _⟩, rfl, rfl, rfl, rfl, rfl⟩

variable {s n k st off}

theorem State.catchUp_waits (idle : (s.tree n).op.any (·.stop.isSome) = true ∨ 16 ≤ s.pagesHeld k) :
    s.catchUp n k st off = s := by
  unfold State.catchUp
  exact if_pos (by rwa [Bool.or_eq_true, decide_eq_true_iff])

section
variable (goes : (s.tree n).op.any (·.stop.isSome) = false) (room : s.pagesHeld k < 16)
include goes room

theorem State.catchUp_stops (refused : s.owedStatus n off ≠ .ok) : s.catchUp n k st off = s.stopOp n (s.owedStatus n off) := by
  unfold State.catchUp
  dsimp only
  rw [goes, if_neg (by simpa using room)]
  exact if_pos refused

theorem State.catchUp_sends (may : s.owedStatus n off = .ok) :
    s.catchUp n k st off = (s.forgiven n k st off).resendPage n k st off := by
  unfold State.catchUp
  dsimp only
  rw [goes, if_neg (by simpa using room)]
  exact if_neg (not_not.2 may)

end

/-- All that catch-up on a page can do: nothing, stop the operation at the page, or send it. -/
theorem State.catchUp_cases (s : State) (n k st off : Nat) : s.catchUp n k st off = s ∨
    s.pagesHeld k < 16 ∧ (s.catchUp n k st off = s.stopOp n (s.owedStatus n off) ∨
      s.catchUp n k st off = (s.forgiven n k st off).resendPage n k st off) := by
  cases goes : (s.tree n).op.any (·.stop.isSome) with
  | true => exact Or.inl (State.catchUp_waits (Or.inl goes))
  | false =>
    rcases Nat.lt_or_ge (s.pagesHeld k) 16 with room | full
    · refine Or.inr ⟨room, ?_⟩
      by_cases may : s.owedStatus n off = .ok
      · exact Or.inr (State.catchUp_sends goes room may)
      · exact Or.inl (State.catchUp_stops goes room may)
    · exact Or.inl (State.catchUp_waits (Or.inr full))

end

/-! ### The pages that a replication point holds -/

/-- A further pair adds at most one to how many are different. -/
theorem length_eraseDups_append_singleton {α : Type} [BEq α] [LawfulBEq α] (l : List α) (x : α) :
    (l ++ [x]).eraseDups.length ≤ l.eraseDups.length + 1 := by
  rw [List.eraseDups_append, List.length_append]
  refine Nat.add_le_add_left ?_ _
  unfold List.removeAll
  rw [List.filter_singleton]
  cases !List.elem x l with
  | true => exact Nat.le_refl 1
  | false => exact Nat.zero_le 1

section
variable {s t : State} (k : Nat)

/-- A slice's replication point holds the page of a PUSH. -/
def Push.heldIn (p : Push) (k : Nat) : Bool := p.slice == k && (p.page.isSome && !p.sent)

theorem State.pagesHeld_eq (s : State) :
    s.pagesHeld k = ((s.pushes.filter (·.heldIn k)).map fun p => (p.tree, p.page)).eraseDups.length := rfl

theorem State.pagesHeld_append {p : Push} (more : t.pushes = s.pushes ++ [p]) : t.pagesHeld k ≤ s.pagesHeld k + 1 := by
  rw [State.pagesHeld_eq, State.pagesHeld_eq, more, List.filter_append, List.map_append, List.filter_singleton]
  cases p.heldIn k with
  | true => exact length_eraseDups_append_singleton _ _
  | false =>
    rw [cond_false, List.map_nil, List.append_nil]
    exact Nat.le_succ _

theorem Notified.pagesHeld {n : Nat} (h : Notified n s t) : t.pagesHeld k = s.pagesHeld k := by
  obtain ⟨l, pushes, notices⟩ := h.pushes
  have none_held : l.filter (·.heldIn k) = [] := List.filter_eq_nil_iff.2 fun p mem => by
    rw [Push.heldIn, notices p mem, Option.isSome_none, Bool.false_and, Bool.and_false]
    exact Bool.false_ne_true
  rw [State.pagesHeld_eq, State.pagesHeld_eq, pushes, List.filter_append, none_held, List.append_nil]

theorem State.resendPage_held (s : State) (n st off : Nat) :
    ((s.forgiven n k st off).resendPage n k st off).pagesHeld k ≤ s.pagesHeld k + 1 := by
  obtain ⟨p, more, _⟩ := (s.forgiven n k st off).resendPage_pushes n k st off
  exact State.pagesHeld_append k more

/-- Catch-up fills the replication point at most. -/
theorem State.catchUp_held {s : State} (held : s.pagesHeld k ≤ 16) (n st off : Nat) :
    (s.catchUp n k st off).pagesHeld k ≤ 16 := by
  rcases s.catchUp_cases n k st off with e | ⟨room, e | e⟩
  · rwa [e]
  · rw [e]
    exact held
  · rw [e]
    exact (s.resendPage_held k n st off).trans room

end

/-! ### The pages that members miss -/

/-- The pages of a slice that active members have missed, in the order of catch-up: by stall and first byte. -/
def BuntOp.lacking (o : BuntOp) (k : Nat) : List (Nat × Nat) :=
  (o.mems.filter fun m => m.fate == .active).flatMap fun m => (m.missed.filter fun q => q.1 == k).map fun q => (m.stall, q.2)

theorem BuntOp.lacking_pages (o : BuntOp) (k : Nat) : (o.lacking k).map (fun x => (k, x.2)) =
    (o.mems.filter fun m => m.fate == .active).flatMap fun m => m.missed.filter fun q => q.1 == k := by
  unfold BuntOp.lacking
  rw [List.map_flatMap]
  congr 1
  funext m
  rw [List.map_map]
  refine (List.map_congr_left fun q mem => ?_).trans (List.map_id _)
  exact Prod.ext (beq_iff_eq.1 (List.mem_filter.1 mem).2).symm rfl

theorem BuntOp.mem_lacking {o : BuntOp} {k off : Nat} {m : BuntMem} (mem : m ∈ o.mems) (active : m.fate = .active)
    (missed : (k, off) ∈ m.missed) : (m.stall, off) ∈ o.lacking k :=
  List.mem_flatMap.2 ⟨m, List.mem_filter.2 ⟨mem, beq_iff_eq.2 active⟩,
    List.mem_map.2 ⟨(k, off), List.mem_filter.2 ⟨missed, beq_self_eq_true k⟩, rfl⟩⟩

/-- Active members miss no page of the slice more often than a list names it for their stalls. -/
def BuntOp.lacksOnly (o : BuntOp) (k : Nat) (l : List (Nat × Nat)) : Prop :=
  ∀ m ∈ o.mems, m.fate = .active → ∀ off, m.missed.count (k, off) ≤ l.count (m.stall, off)

theorem BuntOp.lacksOnly_lacking (o : BuntOp) (k : Nat) : o.lacksOnly k (o.lacking k) := by
  intro m mem active off
  have own : ((m.missed.filter fun q => q.1 == k).map fun q => (m.stall, q.2)).Sublist (o.lacking k) :=
    List.sublist_flatten_of_mem (List.mem_map.2 ⟨m, List.mem_filter.2 ⟨mem, beq_iff_eq.2 active⟩, rfl⟩)
  refine Nat.le_trans ?_ (own.count_le _)
  have here : (m.missed.filter fun q => q.1 == k).count (k, off) = m.missed.count (k, off) :=
    List.count_filter (p := fun q : Nat × Nat => q.1 == k) (beq_self_eq_true k)
  rw [← here]
  exact List.count_le_count_map (f := fun q : Nat × Nat => (m.stall, q.2)) (x := (k, off))

/-- A page that its stall no longer misses may leave the list. -/
theorem BuntOp.lacksOnly.erase {o : BuntOp} {k st off : Nat} {l : List (Nat × Nat)} (h : o.lacksOnly k ((st, off) :: l)) :
    (o.mapMems (BuntMem.ofStall st fun m => { m with missed := m.missed.erase (k, off) })).lacksOnly k l := by
  intro m mem active other
  obtain ⟨m', mem', rfl⟩ := List.mem_map.1 mem
  by_cases same : m'.stall = st
  · rw [BuntMem.ofStall_same _ same] at active ⊢
    have before := h m' mem' active other
    simp only [List.count_erase, List.count_cons, same] at before ⊢
    by_cases page : off = other
    · simp only [page, beq_self_eq_true, if_true] at before ⊢
      omega
    · simp only [beq_iff_eq, Prod.mk.injEq, page, and_false, if_false] at before ⊢
      omega
  · rw [BuntMem.ofStall_other _ same] at active ⊢
    refine (h m' mem' active other).trans (Nat.le_of_eq ?_)
    exact List.count_cons_of_ne (fun e => same (congrArg Prod.fst e).symm)

theorem BuntOp.lacksOnly.none {o : BuntOp} {k : Nat} (h : o.lacksOnly k []) :
    ∀ m ∈ o.mems, m.fate = .active → ∀ q ∈ m.missed, q.1 ≠ k := by
  rintro m mem active ⟨slice, off⟩ missed rfl
  exact List.count_pos_iff.2 missed |>.not_ge (h m mem active off)

/-! ### The pass -/

/-- The board once members are caught up on pages, as far as that goes. -/
def State.caughtUp (s : State) (n k : Nat) (l : List (Nat × Nat)) : State := l.foldl (fun a x => a.catchUp n k x.1 x.2) s

section
variable {s : State} {n k : Nat} {o : BuntOp}

/-- Where the operation has stopped, or the replication point is full, no page is read again. -/
theorem State.caughtUp_waits (idle : (s.tree n).op.any (·.stop.isSome) = true ∨ 16 ≤ s.pagesHeld k) (l : List (Nat × Nat)) :
    s.caughtUp n k l = s := List.foldl_fixed' (fun _ => State.catchUp_waits idle) l

theorem State.caughtUp_held (held : s.pagesHeld k ≤ 16) (l : List (Nat × Nat)) : (s.caughtUp n k l).pagesHeld k ≤ 16 :=
  List.foldlRecOn (motive := fun a : State => a.pagesHeld k ≤ 16) _ _ held fun _ h x _ => State.catchUp_held k h n x.1 x.2

/-- The operation is there all the way. -/
theorem State.caughtUp_op (op : (s.tree n).op = some o) (l : List (Nat × Nat)) : ∃ u, ((s.caughtUp n k l).tree n).op = some u := by
  refine List.foldlRecOn (motive := fun a : State => ∃ u, (a.tree n).op = some u) _ _ ⟨o, op⟩ fun a ⟨u, op⟩ x _ => ?_
  rcases a.catchUp_cases n k x.1 x.2 with e | ⟨_, e | e⟩
  · exact ⟨u, by rw [e, op]⟩
  · exact ⟨_, by rw [e, State.tree_stopOp, op]; rfl⟩
  · exact ⟨_, by rw [e, State.resendPage_tree, State.forgiven, State.tree_updMem, op]; rfl⟩

/-- A first page that may not be read stops the operation, and no page is sent. -/
theorem State.caughtUp_stops (op : (s.tree n).op = some o) (goes : o.stop = none) (room : s.pagesHeld k < 16)
    {x : Nat × Nat} (l : List (Nat × Nat)) (refused : s.owedStatus n x.2 ≠ .ok) :
    ((s.caughtUp n k (x :: l)).tree n).op = some { o with stop := some (s.owedStatus n x.2) } := by
  have stopped : ((s.stopOp n (s.owedStatus n x.2)).tree n).op = some { o with stop := some (s.owedStatus n x.2) } := by
    rw [State.tree_stopOp, op, ← BuntOp.stopped_running goes]
    rfl
  have first : s.catchUp n k x.1 x.2 = s.stopOp n (s.owedStatus n x.2) :=
    State.catchUp_stops (by rw [op, Option.any_some, goes]; rfl) room refused
  have rest := State.caughtUp_waits (s := s.stopOp n (s.owedStatus n x.2)) (k := k) (Or.inl (by rw [stopped]; rfl)) l
  unfold State.caughtUp at rest ⊢
  rw [List.foldl_cons, first, rest, stopped]

/-- While every page may be read and there is room for all, each is sent to its member alone, and none is missed any more. -/
theorem State.caughtUp_sends {l : List (Nat × Nat)} (op : (s.tree n).op = some o) (goes : o.stop = none)
    (may : ∀ x ∈ l, s.owedStatus n x.2 = .ok) (room : s.pagesHeld k + l.length ≤ 16) (lacks : o.lacksOnly k l) :
    ∃ u, ((s.caughtUp n k l).tree n).op = some u ∧ u.stop = none ∧ u.catchup = o.catchup + l.length ∧ u.lacksOnly k [] ∧
      s.pushes ⊆ (s.caughtUp n k l).pushes ∧ ∀ x ∈ l, ∃ p ∈ (s.caughtUp n k l).pushes, p.copyFor n k x.1 x.2 := by
  induction l generalizing s o with
  | nil => exact ⟨o, op, goes, rfl, lacks, List.Subset.refl _, fun _ mem => absurd mem List.not_mem_nil⟩
  | cons x l ih =>
    rw [List.length_cons] at room
    have sends : s.catchUp n k x.1 x.2 = (s.forgiven n k x.1 x.2).resendPage n k x.1 x.2 :=
      State.catchUp_sends (by rw [op, Option.any_some, goes]; rfl) (by omega) (may x List.mem_cons_self)
    have source := (s.forgiven_source n k x.1 x.2).trans ((s.forgiven n k x.1 x.2).resendPage_source n k x.1 x.2)
    have held := s.resendPage_held k n x.1 x.2
    obtain ⟨p, more, copy⟩ := (s.forgiven n k x.1 x.2).resendPage_pushes n k x.1 x.2
    have sent : (((s.forgiven n k x.1 x.2).resendPage n k x.1 x.2).tree n).op =
        some { o.mapMems (BuntMem.ofStall x.1 fun m => { m with missed := m.missed.erase (k, x.2) }) with
          catchup := o.catchup + 1 } := by
      rw [State.resendPage_tree, State.forgiven, State.tree_updMem, op]
      rfl
    obtain ⟨u, last, stop, count, none_missed, kept, copies⟩ := ih sent goes
      (fun y mem => (source.owedStatus y.2).trans (may y (List.mem_cons_of_mem x mem))) (by omega) lacks.erase
    have all : s.caughtUp n k (x :: l) = ((s.forgiven n k x.1 x.2).resendPage n k x.1 x.2).caughtUp n k l := by
      unfold State.caughtUp
      rw [List.foldl_cons, sends]
    rw [more] at kept
    obtain ⟨old, new⟩ := List.append_subset.1 kept
    rw [all, List.length_cons]
    refine ⟨u, last, stop, count.trans (Nat.add_right_comm _ _ _), none_missed, old, fun y mem => ?_⟩
    rcases List.mem_cons.1 mem with rfl | later
    · exact ⟨p, new (List.mem_singleton.2 rfl), copy⟩
    · exact copies y later

end

section
variable {s : State} {n k : Nat} {o : BuntOp} (op : (s.tree n).op = some o) (goes : o.stop = none)
  (main : (s.buntPages (s.tree n) k).length ≤ o.pages.get 0 k)
include op goes main

theorem execCatchupPass_runs : exec (.catchupPass n k) s = .next ((s.caughtUp n k (o.lacking k)).noticesDue n) := by
  change execCatchupPass n k s = _
  unfold execCatchupPass
  dsimp only
  rw [op]
  dsimp only
  rw [if_neg (not_or.2 ⟨by rw [goes]; exact Bool.false_ne_true, Nat.not_lt.2 main⟩)]
  unfold State.caughtUp BuntOp.lacking
  simp only [List.foldl_flatMap, List.foldl_map]

theorem catchupPass_effect :
    ∃ t, exec (.catchupPass n k) s = .next t ∧ s.frame t [.stalls, .slices, .chans, .nextTag, .trees, .pushes, .repair,
      .repairFace, .obs, .clock] ∧
      ∃ u, (t.tree n).op = some u ∧
        (let lacks := (o.mems.filter fun m => m.fate == .active).flatMap fun m => m.missed.filter fun q => q.1 == k
         let may := fun q => s.pageStatus (s.tree n) q.2 ((s.tree n).pageLines q.2)
         ((∀ q ∈ lacks, may q = .ok) → s.pagesHeld k + lacks.length ≤ 16 → u.stop = none ∧
           u.catchup = o.catchup + lacks.length ∧ (∀ m ∈ u.mems, m.fate = .active → ∀ q ∈ m.missed, q.1 ≠ k) ∧
           ∀ m ∈ o.mems, m.fate = .active → ∀ off, (k, off) ∈ m.missed →
             ∃ p ∈ t.pushes, p.tree = n ∧ p.slice = k ∧ p.stall = m.stall ∧ p.page = some off ∧ p.sent = false) ∧
         (16 ≤ s.pagesHeld k → u.stop = none ∧ u.catchup = o.catchup ∧ t.stalls = s.stalls) ∧
         (s.pagesHeld k ≤ 16 → t.pagesHeld k ≤ 16) ∧
         (s.pagesHeld k < 16 → ∀ q, lacks.head? = some q → may q ≠ .ok → u.stop = some (may q) ∧ u.catchup = o.catchup)) := by
  have run := execCatchupPass_runs op goes main
  have told := (s.caughtUp n k (o.lacking k)).noticesDue_notified n
  obtain ⟨u, last⟩ := State.caughtUp_op (k := k) op (o.lacking k)
  obtain ⟨mems, noticed, marked⟩ := told.op last
  refine ⟨_, run, (execCatchupPass_keeps (M := 2168992456) rfl (Keeps.refl _ s)).frame run rfl, _, noticed, ?_⟩
  rw [← BuntOp.lacking_pages o k]
  refine ⟨fun may room => ?_, fun full => ?_, fun held => ?_, fun room q first refused => ?_⟩
  · rw [List.length_map] at room ⊢
    obtain ⟨w, op', stop, count, none_missed, _, copies⟩ := State.caughtUp_sends op goes
      (fun x mem => may (k, x.2) (List.mem_map_of_mem mem)) room (o.lacksOnly_lacking k)
    obtain rfl := Option.some.inj (last.symm.trans op')
    refine ⟨stop, count, fun m mem active q missed => ?_, fun m mem active off missed => ?_⟩
    · obtain ⟨m', mem', e⟩ := marked m mem
      rw [e] at active missed
      exact none_missed.none m' mem' active q missed
    · obtain ⟨p, out, copy⟩ := copies _ (BuntOp.mem_lacking mem active missed)
      exact ⟨p, told.keepsPush out, copy⟩
  · have same := State.caughtUp_waits (s := s) (n := n) (Or.inr full) (o.lacking k)
    rw [same] at last ⊢
    obtain rfl := Option.some.inj (last.symm.trans op)
    exact ⟨goes, rfl, (State.noticesDue_keeps (M := 12864) rfl (Keeps.refl _ s)).1 .stalls rfl⟩
  · rw [told.pagesHeld]
    exact State.caughtUp_held held _
  · obtain ⟨x, l, pages, rfl⟩ : ∃ x l, o.lacking k = x :: l ∧ q = (k, x.2) := by
      cases pages : o.lacking k with
      | nil => rw [pages] at first; exact absurd first.symm (Option.some_ne_none q)
      | cons x l => rw [pages] at first; exact ⟨x, l, rfl, (Option.some.inj first).symm⟩
    have stopped := State.caughtUp_stops (x := x) op goes room l refused
    rw [pages] at last
    obtain rfl := Option.some.inj (last.symm.trans stopped)
    exact ⟨rfl, rfl⟩

end

/-- Settles O40, a lemma for each command. -/
theorem pushesReachTheMembers : Obligations.PushesReachTheMembers := by
  unfold Obligations.PushesReachTheMembers
  exact ⟨fun _ _ _ _ _ _ => buntingPageSend_effect, fun _ _ _ _ named => pushResponse_effect named, fun _ _ _ => pushRetry_effect,
    fun _ _ _ _ => buntTimeoutExpiry_effect, fun _ _ _ _ _ => catchupWaitExpiry_effect, fun _ _ _ _ => catchupPass_effect⟩

end Sys2Proof.Machine
end
